-- ==== Sys2Proof/Word.lean ====
section
/-! DEFINITION. The words of the WYV9144: register accesses are aligned 32-bit dwords (R16), frame memory and files are
bytes, and sparse state keyed by a number is a list of key and value pairs in rising order of the key. -/

namespace Sys2Proof

/-- One register dword (R16). -/
abbrev Word := BitVec 32

/-- One byte. -/
abbrev Byte := BitVec 8

/-- Sparse state: keys strictly rising, no entry equal to what an absent key reads as. -/
abbrev Tab (α : Type) := List (Nat × α)

end Sys2Proof
end

