-- ==== Sys2Proof/Syntax.lean ====
section
/-! DEFINITION. The commands of the WYV9144 block: one constructor per row of the spec's table of operations and
events, with what comes from outside as operands (a bus access, a pin event, a measured value, the contents of a
packet). Operands that index a resource of the device are bounded by the number of those resources (R3). -/

namespace Sys2Proof

/-- Who makes a register access: the sources of `REFUSE_INFO.SOURCE` and R22, with the fabric source split into fabric
regions and the keeper regions K0 and K1 (R33). -/
inductive Source where
  | sup | pcie | brizel | ssp | psp | region (n : Fin 32) | keeper (k : Fin 2)
  deriving DecidableEq, Repr

/-- The digital content of one converted word: a 24-bit sample and whether it saturated. -/
abbrev Sample := BitVec 24

/-- The tag of a capture word (R118): FINE, COARSE, FLUSH, FAULT. -/
inductive WordTag where
  | fine | coarse | flush | fault
  deriving DecidableEq, Repr

/-- A detector of a converter slice (R186). -/
inductive SliceDetector where
  | stability | elementCurrent | parity
  deriving DecidableEq, Repr

/-- What a converter slice gives for one word (R105): the input of the compensation filter in 2^-9 LSB, the codes of the
modulator's 5-bit quantiser over the word's output period (R106, R121), and the fast-path values that have become valid, 3 µs
after their timestamps, since the slice's last word, oldest first (R116, R127). -/
structure SliceWord where
  hb : Int
  codes : List (Fin 32)
  fasts : List Int
  deriving DecidableEq, Repr

/-- One sample of an output's monitor (R155): the voltage at the pins in nV, the current in nA, and the value expected there by
then, in nV before the drop across the output impedance, or in nA in CURR. -/
structure MonSample where
  volt : Int
  cur : Int
  want : Int
  deriving DecidableEq, Repr

/-- What the error-correcting code of a memory meets at an access: nothing, an error it corrects, an error it detects and
cannot correct (R215, R217, R284). -/
inductive EccEvent where
  | clean | corrected | uncorrectable
  deriving DecidableEq, Repr

/-- What the memories of a tile meet during one MAC instruction: at the reads of X and Y, and at the row reads of the
write-back and of the side move (R216, R217). -/
structure MacEcc where
  x : EccEvent
  y : EccEvent
  w : EccEvent
  s : EccEvent
  deriving DecidableEq, Repr

/-- A failure detector of a tile (R220). -/
inductive TileDetector where
  | residue | parity | instrMemory
  deriving DecidableEq, Repr

/-- A memory of a tile (R215). -/
inductive TileMem where
  | data | coef | instr
  deriving DecidableEq, Repr

/-- A piece of a video line in a packet (R329): field, row number, byte offset in the line, bytes. -/
structure LineSeg where
  field : Nat
  row : Nat
  off : Nat
  bytes : List Nat
  deriving DecidableEq, Repr

/-- An RTP packet as a media engine receives it: `ETH` port, IPv6, destination and source address (bits 31:0), destination
UDP port, payload type, synchronisation source, sequence number (32-bit extended for types 0 and 1), RTP timestamp, marker
bit, and its payload by the flow's type: sample subframes with their validity bit (types 2 and 3, audio in bits 31:8, label
in bits 7:0), line pieces (type 0), or bytes (types 1 and 4). -/
structure RtpPacket where
  port : Fin 64
  v6 : Bool
  dst : Word
  src : Word
  udp : Nat
  pt : Nat
  ssrc : Word
  seq : Nat
  ts : Nat
  mark : Bool
  subs : List (Word × Bool)
  segs : List LineSeg
  bytes : List Nat
  deriving DecidableEq, Repr

/-- A frame for a host queue: port, bytes, the receive timestamp of a PTP event message (R325, R326). -/
structure HostFrame where
  port : Nat
  bytes : List Nat
  stamp : Option Nat
  deriving DecidableEq, Repr

/-- What arrives at an `ETH` port, as the engine tells frames apart (chapter 11, *Media engines*; R325). -/
inductive EthFrame where
  /-- a UDP packet carrying RTP -/
  | rtp (p : RtpPacket) (bytes : List Nat)
  /-- PTP, with whether it is an event message R325 timestamps and its byte form -/
  | ptp (event : Bool) (bytes : List Nat)
  /-- ARP, IGMP, MLD, or unicast to the port's `MAC_ADDR` -/
  | host (bytes : List Nat)
  /-- any other multicast frame -/
  | multicast (bytes : List Nat)
  /-- a MAC control frame (R305) -/
  | control (bytes : List Nat)
  /-- a frame with a bad frame check sequence -/
  | badFcs (bytes : List Nat)
  deriving DecidableEq, Repr

/-- An access to a block RAM port (R358 to R361): word, write with its byte enables and data, what the word's code meets,
and whether it is the walker's (it answers nobody). -/
structure BramOp where
  word : Fin 512
  write : Bool
  be : BitVec 8
  data : Nat
  ecc : EccEvent
  walk : Bool
  deriving DecidableEq, Repr

/-- What a channel survey finds on a lane (R311): the four largest reflections, largest first, as distance in mm and return
loss in 0.1 dB, and the insertion loss in 0.1 dB when the partner sent a line-rate signal. -/
structure LaneSurvey where
  refl : List (Nat × Nat)
  il : Option Nat
  deriving DecidableEq, Repr

/-- What a media engine sends (R326, R338 to R340): the next packet of a transmit flow, or the oldest frame a host queue
has submitted for a port, with whether it is a PTP Sync and its sequenceId when it is a PTP event message. -/
inductive TxItem where
  | flow (f : Fin 16384)
  | host (port : Fin 64) (ptp : Option (Bool × Nat))
  deriving DecidableEq, Repr

/-- The vote over the three copies of the scrubber's state (R291). -/
inductive VoteEvent where
  | agree | fixed | restart
  deriving DecidableEq, Repr

/-- A memory flit that reaches a bank controller (R275): class, operation, tag, requester, byte address of the first 64-bit
word, 1 to 6 words of data for a write or their number for a read, byte enables of a single word, poison mask. -/
structure MemFlit where
  cls : Fin 4
  write : Bool
  tag : Fin 256
  req : Fin 65536
  addr : Nat
  data : List (BitVec 64)
  count : Nat
  be : BitVec 8
  pois : BitVec 6
  deriving DecidableEq, Repr

/-- A DMA descriptor (R441): operation, interrupt request, tag, byte length, host address, frame-memory address or source, and
destination of a copy or port. -/
structure Desc where
  op : Nat
  irq : Bool
  tag : Nat
  len : Nat
  haddr : Nat
  faddr : Nat
  fdst : Nat
  deriving DecidableEq, Repr

/-- What wakes a dark device: a break on MLK_RX, a rising PERST_N, PORST_N. -/
inductive WakeKind where
  | brk | perst | porst
  deriving DecidableEq, Repr

/-- What `REGISTER_WRITE` writes: a dword of BAR0 by a source, whole or in part (R16); a dword of BAR4 by the host (R439);
`PERS_DEADLINE` of the PCIe configuration space (R401); MSI-X enable and function mask. -/
inductive RegTarget where
  | bar0 (src : Source) (addr : BitVec 27) (v : Word) (full : Bool)
  | bar4 (addr : BitVec 20) (v : Word)
  | persDeadline (ms : BitVec 16)
  | msix (enable mask : Bool)
  deriving DecidableEq, Repr

/-- A physical tile: region, physical column, row (R195). -/
structure PhysTile where
  reg : Fin 16
  col : Fin 17
  row : Fin 16
  deriving DecidableEq, Repr

/-- A memory row that a column repair's copy reads uncorrectable (R264): row of the column, memory (0 coefficient, 1
instruction), row of the memory. -/
structure ColRow where
  row : Fin 16
  mem : Fin 2
  at_ : Nat
  deriving DecidableEq, Repr

/-- A word that a region's logic gives a stream-out port (R363): timestamp, data, marker. -/
structure LogicWord where
  ts : Nat
  word : Word
  marker : Bool
  deriving DecidableEq, Repr

/-- The masked registers of a pin bank (R421). -/
inductive PinMask where
  | out | dir | pull
  deriving DecidableEq, Repr

/-- The serial blocks (R435). -/
inductive SerKind where
  | uart | spi | i2c
  deriving DecidableEq, Repr

/-- What carries a critical command (R476, R482, R483): mailbox 0 or 1, or an AUTHCMD frame by its channel, `SEQ` and
envelope. -/
inductive Carrier where
  | mailbox (m : Fin 2)
  | authcmd (chan : Byte) (seq : BitVec 16) (env : List Byte)
  deriving DecidableEq, Repr

/-! ### The commands -/

/-- The commands of the block, those with operands first, each part in the order of the table of operations and events. A command that writes a register names
who writes it (`src`) and the word written; the bit that makes the write this command is taken as 1. An event carries what
is measured or what arrives. -/
inductive Instr where
  /-- `REGISTER_WRITE` (R21): A write to a register that has no row of its own: the shared checks (width, owner, lock,
  critical, power, bound, value) run and the live field takes the value at the next edge of its domain. -/
  | registerWrite (x : RegTarget)
  /-- `STAGED_WRITE` (R18): A write to a staged offset is accepted when the page is unbound or bound in STAGING, and sets
  the matching STAGE_DIRTY bit; otherwise it is refused with cause BOUND. -/
  | stagedWrite (src : Source) (page : Fin 32768) (k : Fin 512) (v : Word) (full : Bool)
  /-- `BLK_RST` (R26): A write of 1 to PAGE_CTL.BLK_RST resets both halves of the page to reset values, except where the
  page's chapter states otherwise. -/
  | blkRst (src : Source) (page : Fin 32768) (v : Word)
  /-- `EVT_FORCE` (R29): A 1 written to an EVT_FORCE bit raises that event as if it had occurred, with the forced marker
  in word 7 bit 31. -/
  | evtForce (src : Source) (page : Fin 32768) (v : Word)
  /-- `SNAP` (R38): SNAP latches every counter on the page into the writing source's snapshot in one cycle. -/
  | snap (src : Source) (page : Fin 32768)
  /-- `SNAP_CLR` (R39): SNAP_CLR latches the snapshot and clears every statistics counter and CEIL flag on the page in the
  same cycle. -/
  | snapClr (src : Source) (page : Fin 32768) (v : Word)
  /-- `PAGE_LOCK` (R34): A PAGE_LOCK.KEY write advances the three-write lock sequence and locks the page on the third
  correct key. -/
  | pageLock (src : Source) (page : Fin 32768) (key : BitVec 16)
  /-- `OPEN` (R45): OPEN takes an IDLE or terminal slot to STAGING with an empty scope. -/
  | msOpen (src : Source) (m : Fin 16)
  /-- `CHECK` (R45): CHECK resolves the slot's instant and puts the slot in CHECKING in the check queue. -/
  | msCheck (src : Source) (m : Fin 16)
  /-- `TRY` (R555): TRY queues a check of a STAGING slot without arming it and reports the result in TRY_RES. -/
  | msTry (src : Source) (m : Fin 16)
  /-- `FIRE` (R45): FIRE applies an ARMED MANUAL slot at the device time of its acceptance. -/
  | msFire (src : Source) (m : Fin 16)
  /-- `CANCEL` (R45): CANCEL returns a STAGING, CHECKING or ARMED slot to IDLE with nothing applied. -/
  | msCancel (src : Source) (m : Fin 16)
  /-- `RELEASE` (R45): RELEASE returns a slot in a terminal state to IDLE. -/
  | msRelease (src : Source) (m : Fin 16)
  /-- `MS_BIND` (R48): A bind request binds all the named pages to a STAGING slot, or none of them. -/
  | msBind (src : Source) (m : Fin 16) (page : Fin 32768) (more : Fin 256)
  /-- `MS_UNBIND` (R48): An unbind request removes pages from the scope of a STAGING slot. -/
  | msUnbind (src : Source) (m : Fin 16) (page : Fin 32768) (more : Fin 256)
  /-- `CHECK_END` (R57): A check completes, re-runs later ARMED slots, and takes the slot to ARMED, APPLIED or REFUSED,
  updating CHECK_RES on each page in scope. -/
  | checkEnd (dt : Nat)
  /-- `MILESTONE_APPLY` (R62): When device time reaches the instant of an ARMED slot, each staged register becomes live at
  the first edge of its clock domain at or after the instant. -/
  | milestoneApply (m : Fin 16)
  /-- `SLOT_EXPIRED` (R45): Device time reaching the instant of a CHECKING slot before its check ends takes the slot to
  EXPIRED with nothing applied. -/
  | slotExpired (m : Fin 16)
  /-- `CM_UPDATE` (R83): Every 1 ms the common-mode monitor of a port updates CM_MV and the EXT_DC estimate. -/
  | cmUpdate (i : Fin 144) (mv : BitVec 13)
  /-- `DC_PRESENT_CHANGE` (R83): When the common-mode deviation has been above, or at or below, the threshold for HOLD ms,
  DC_PRESENT changes and DC_ON or DC_OFF is raised. -/
  | dcPresentChange (i : Fin 144)
  /-- `SURVEY_GO` (R87): A write of SURVEY_GO starts a source-impedance survey on a STOPPED port in SURVEY mode, or
  refuses it while DC_PRESENT is 1. -/
  | surveyGo (src : Source) (i : Fin 144) (v : Word)
  /-- `SURVEY_END` (R85): After 120 ms the survey reports R and X, raises SURVEY_END and returns the port to STOPPED. -/
  | surveyEnd (i : Fin 144) (ohms : Nat) (x : Int)
  /-- `PORT_RECOVER` (R97): When a port's fault cause clears, for example a slice becoming eligible, the port leaves FAULT
  and raises PORT_RECOVER. -/
  | portRecover (i : Fin 144) (temp : Option (BitVec 8))
  /-- `GROUP_LOCK` (R95): The group's modulator synthesiser locks, aligns modulator cycle 0 to a base-rate edge and lets
  waiting ports enter SYNCING. -/
  | groupLock (g : Fin 16)
  /-- `GROUP_UNLOCK` (R97): The group's synthesiser loses lock; its running ports enter FAULT with cause GROUP_CLOCK and
  the die bridge sends FAULT words. -/
  | groupUnlock (g : Fin 16)
  /-- `VAP_DROOP` (R153): The VAP droop detector of a port die becomes active and every output port mutes. -/
  | vapDroop (k : Fin 4) (mv : BitVec 16)
  /-- `SUPPLY_LOST` (R97): VAP or VAPL of a port die leaves range and its ports enter FAULT with cause SUPPLY. -/
  | supplyLost (k : Fin 4) (vap vapl : BitVec 16)
  /-- `SUPPLY_BACK` (R97): VAP and VAPL of a port die return to range and cause SUPPLY clears. -/
  | supplyBack (k : Fin 4) (vap vapl : BitVec 16)
  /-- `TEMP_WARN` (R104): The port-die temperature reaches WARN and TEMP_WARN is raised. -/
  | tempWarn (k : Fin 4) (t : BitVec 8)
  /-- `TEMP_FAULT` (R104): The port-die temperature reaches 115 °C and every port of the die enters FAULT with cause TEMP. -/
  | tempFault (k : Fin 4) (t : BitVec 8)
  /-- `REFIN_LOST` (R324): A reference input loses its signal; PRESENT falls and REFIN_LOST is raised. -/
  | refinLost (k : Fin 4) (i : Fin 2) (mv : BitVec 16)
  /-- `REFIN_FOUND` (R324): A reference input shows signal of the selected kind; PRESENT rises and REFIN_FOUND is raised. -/
  | refinFound (k : Fin 4) (i : Fin 2) (mv : BitVec 16)
  /-- `SYNC_RESET` (R122): A port entering SYNCING performs its synchronising reset at the first base-rate edge at or
  after entry and records CAP_T0. -/
  | syncReset (i : Fin 144)
  /-- `WORD_EMIT` (R123): Each output period an input port assembles and sends a sample word tagged FLUSH, COARSE, FINE or
  FAULT across its die bridge. -/
  | wordEmit (i : Fin 144) (a : SliceWord) (b : Option SliceWord)
  /-- `THR_FALL` (R128): A detector in ABOVE enters BELOW after HOLD consecutive output periods below the release level
  and raises FALL. -/
  | thrFall (i : Fin 144) (k : Fin 2)
  /-- `FIR_COEF_WRITE` (R111): A write to FIR_COEF lands in the inactive bank, or is refused while a swap is pending or
  the page is bound. -/
  | firCoefWrite (src : Source) (i : Fin 144) (k : Fin 64) (v : Word)
  /-- `BANK_SWAP` (R112): A change of ACT_BANK requests a swap of the compensation filter bank. -/
  | bankSwap (src : Source) (i : Fin 144) (v : Word)
  /-- `SWAP_DONE` (R112): The new bank takes effect on the first word computed entirely with it, updating BANK_IN_USE and
  SWAP_TS. -/
  | swapDone (i : Fin 144)
  /-- `FORCE` (R114): FORCE with a swap pending ends the crossfade and completes the swap on the next computed word. -/
  | swapForce (src : Source) (i : Fin 144) (v : Word)
  /-- `OUTPUT_FETCH` (R136): For each output timestamp the chain fetches the word at t − LAT_OUT and drives its value, or
  zero, at the pins. -/
  | outputFetch (i : Fin 144)
  /-- `SPAN_HOLD_START` (R146): At the end of the ramp down of a span or mode change the port holds zero and switches the
  element arrays and output stage. -/
  | spanHoldStart (i : Fin 144)
  /-- `SPAN_HOLD_END` (R146): After H hold samples the port starts the ramp up with the new mode and span. -/
  | spanHoldEnd (i : Fin 144)
  /-- `SPAN_DONE` (R146): The last sample of the ramp up reaches full gain and raises SPAN_DONE. -/
  | spanDone (i : Fin 144)
  /-- `DEV_WINDOW` (R156): Each 1 ms window of monitor samples yields the deviation D, raising DEV_WARN or a DEVIATION
  output fault. -/
  | devWindow (i : Fin 144) (xs : List MonSample)
  /-- `LOAD_WINDOW` (R158): Each 100 ms window the load estimator reports LOAD_R and LOAD_C and classifies the load. -/
  | loadWindow (i : Fin 144) (uv na ohms pf : Nat) (hf : Bool)
  /-- `ILIMIT_TRIP` (R159): Output current at its 25 mA limit for 16 monitor samples raises an output fault with reason
  CURRENT_LIMIT. -/
  | ilimitTrip (i : Fin 144)
  /-- `COMPLIANCE_TRIP` (R159): In CURR, a pin differential of 2.0 V or more for 16 monitor samples raises an output fault
  with reason COMPLIANCE. -/
  | complianceTrip (i : Fin 144)
  /-- `LSV_GO` (R160): A write of LSV_GO starts a line survey on a STOPPED output port, or is refused in any other state. -/
  | lsvGo (src : Source) (i : Fin 144) (v : Word)
  /-- `LSV_END` (R160): After 50 ms the line survey reports capacitance, resistance and length and raises LSV_END. -/
  | lsvEnd (i : Fin 144) (pf kohm z : Nat)
  /-- `CAL_STEP_DONE` (R165): A lay-by calibration step completes; the slice passes to the next step, to LAYBY_READY after
  step 5, or to SUSPECT on a failed limit. -/
  | calStepDone (g : Fin 16) (sl : Fin 10) (pass : Bool) (adc dac : Word)
  /-- `REF_CHECK` (R169): Once per second the precision reference is compared with the check bandgap, raising REF_FAULT
  and REF_HOLD on a deviation beyond ±500 ppm. -/
  | refCheck (k : Fin 4) (ppm : Int)
  /-- `REF_OK` (R169): After the deviation has stayed within ±500 ppm for 10 s, the hold clears and REF_OK is raised. -/
  | refOk (k : Fin 4)
  /-- `TONE_CHECK` (R169): The tone generator's own check measures THD, setting TONE_OK or raising TONE_FAULT. -/
  | toneCheck (k : Fin 4) (thd : Nat)
  /-- `ROTATION_DUE` (R170): Every ROT_PERIOD a rotation handover falls due, and the supervisor picks the oldest serving
  slice and a LAYBY_READY incoming slice. -/
  | rotationDue (g : Fin 16)
  /-- `HO_REQ` (R172): HO_REQ.GO starts a rotation handover on the named port at once. -/
  | hoReq (src : Source) (g : Fin 16) (port : Fin 16)
  /-- `FREEZE` (R172): A write of FREEZE = 1 cancels early-phase rotation handovers and stops new ones. -/
  | freeze (src : Source) (g : Fin 16) (v : Word)
  /-- `HO_COMPARE_RESULT` (R176): The slice handover comparison completes; a pass binds the PGRP page to a supervisor slot
  at ARM_LEAD, a fail aborts with outcome 1. -/
  | hoCompareResult (g : Fin 16) (words : List (Int × Int))
  /-- `HO_DEFER_BLOCK` (R174): During deferral each further block of 64 compared words is judged and binding is retried. -/
  | hoDeferBlock (g : Fin 16) (words : List (Int × Int))
  /-- `HO_DEFER_TIMEOUT` (R174): A deferral lasting DEFER_MAX ends the handover with outcome 2. -/
  | hoDeferTimeout (g : Fin 16)
  /-- `XFADE_END` (R178): The last crossfade word or sample passes; the outgoing slice enters LAYBY_CAL, SUSPECT or
  RETIRED and the handover ends. -/
  | xfadeEnd (g : Fin 16)
  /-- `SLICE_FAIL` (R186): A stability, element-current or parity detector trips on a slice, starting a repair handover or
  abandoning its handover or calibration. -/
  | sliceFail (g : Fin 16) (sl : Fin 10) (det : SliceDetector)
  /-- `REPAIR_RESUME` (R187): A repair waiting for a rotation handover's Drain takes the released slice when that Drain
  ends. -/
  | repairResume (g : Fin 16)
  /-- `CAL_STALE` (R191): A serving slice whose AGE exceeds AGE_MAX raises CAL_STALE once. -/
  | calStale (g : Fin 16) (sl : Fin 10)
  /-- `MAC_NONE` (R238): A MAC instruction with AOP NONE forms no product and may write back and side-move. -/
  | macNone (t : Fin 4096) (ecc : MacEcc)
  /-- `LD` (R238): LD loads the accumulator with the product and clears EXC. -/
  | macLd (t : Fin 4096) (ecc : MacEcc)
  /-- `ADD` (R238): ADD adds the product to the accumulator. -/
  | macAdd (t : Fin 4096) (ecc : MacEcc)
  /-- `SUB` (R238): SUB subtracts the product from the accumulator. -/
  | macSub (t : Fin 4096) (ecc : MacEcc)
  /-- `LDC` (R238): LDC loads the accumulator with the cascade input plus the product. -/
  | macLdc (t : Fin 4096) (ecc : MacEcc)
  /-- `ADDC` (R238): ADDC adds the cascade input and the product to the accumulator. -/
  | macAddc (t : Fin 4096) (ecc : MacEcc)
  /-- `SUBC` (R238): SUBC adds the cascade input minus the product to the accumulator. -/
  | macSubc (t : Fin 4096) (ecc : MacEcc)
  /-- `LDR` (R238): LDR loads the rounding preload 2^(SHIFT−1) plus the product. -/
  | macLdr (t : Fin 4096) (ecc : MacEcc)
  /-- `MOVE_NOP` (R241): The MOVE NOP does nothing. -/
  | moveNop (t : Fin 4096)
  /-- `LDT` (R241): LDT loads a T register with IMM32. -/
  | moveLdt (t : Fin 4096)
  /-- `MOVT` (R241): MOVT copies one T register to another. -/
  | moveMovt (t : Fin 4096)
  /-- `ADDT` (R241): ADDT adds IMM32 to a T register modulo 2^32. -/
  | moveAddt (t : Fin 4096)
  /-- `CLRA` (R241): CLRA clears ACC, ACCX and EXC. -/
  | moveClra (t : Fin 4096)
  /-- `LDA` (R241): LDA loads the 72-bit accumulator from a shifted T register and clears EXC. -/
  | moveLda (t : Fin 4096)
  /-- `SETOFF` (R241): SETOFF sets a pointer's OFF. -/
  | moveSetoff (t : Fin 4096)
  /-- `GETOFF` (R241): GETOFF copies a pointer's OFF to a T register. -/
  | moveGetoff (t : Fin 4096)
  /-- `SETTAG` (R241): SETTAG sets TAGACC. -/
  | moveSettag (t : Fin 4096)
  /-- `CONTROL_NOP` (R242): The CONTROL NOP does nothing. -/
  | ctlNop (t : Fin 4096)
  /-- `LOOP0` (R245): LOOP0 starts loop 0 with its count, start and end. -/
  | loop0 (t : Fin 4096)
  /-- `LOOP1` (R245): LOOP1 starts loop 1 with its count, start and end. -/
  | loop1 (t : Fin 4096)
  /-- `BR` (R242): BR branches to ADDR when its condition holds. -/
  | br (t : Fin 4096)
  /-- `WAIT` (R242): WAIT stalls the tile until its condition holds. -/
  | wait (t : Fin 4096)
  /-- `HALT` (R246): HALT stops the tile; when all 16 tiles have halted the column enters HALTED, clears live RUN and
  raises SEG_HALTED. -/
  | halt (t : Fin 4096)
  /-- `BMERGE` (R206): BMERGE stalls a masked row until every masked row has issued it. -/
  | bmerge (t : Fin 4096)
  /-- `BMERGE_RESUME` (R206): Two cycles after the last masked row issues BMERGE, the column sets CBEXP, BSH and CBSH and
  all masked tiles resume. -/
  | bmergeResume (r : Fin 16) (c : Fin 16)
  /-- `EMARK` (R252): EMARK writes a marker word carrying CBSH to an output port. -/
  | emark (t : Fin 4096)
  /-- `SETLEN` (R242): SETLEN requests a new LEN for a leader pointer. -/
  | setlen (t : Fin 4096)
  /-- `CPOST` (R253): CPOST stalls the tile until its right neighbour has read the cascade. -/
  | cpost (t : Fin 4096)
  /-- `PROGRAM_ERROR` (R248): An instruction with a reserved or illegal encoding stops the column, sets PERR and raises
  PROG_ERR. -/
  | programError (t : Fin 4096)
  /-- `STREAM_WORD_ARRIVE` (R224): A stream word arrives at a tile input port, waking a dozing region and releasing a
  stalled read. -/
  | streamWordArrive (t : Fin 4096) (port : Fin 2) (ch : Fin 64) (ts : Nat) (w : Word) (marker poison : Bool)
  /-- `ROW_WALK` (R218): A tile memory's row walker reads and corrects one row, stalling the tile after 4,096 busy cycles. -/
  | rowWalk (t : PhysTile) (mem : TileMem) (e : EccEvent)
  /-- `AUTODOZE_ENTRY` (R224): After 8 cycles with every tile halted or stalled on an empty input, the region's tile clock
  stops. -/
  | autodozeEntry (r : Fin 16)
  /-- `TILE_FAIL` (R221): A tile failure detector trips; the logical column stops, its physical column is retired and
  COL_FAIL is raised. -/
  | tileFail (t : Fin 4096) (det : TileDetector)
  /-- `LEN_CHG` (R231): A LEN_CHG entry whose first word becomes live with VALID = 1 makes a length request and clears
  VALID in both halves. -/
  | lenChg (src : Source) (r : Fin 16) (k : Fin 16) (v : Word)
  /-- `LEN_REQUEST_ACT` (R211): A tile acts on a length request at its first instruction boundary, shrinking, changing or
  pending a growth, or raising DESC_ERR. -/
  | lenRequestAct (t : Fin 4096)
  /-- `TILE_WINDOW_WRITE` (R229): A write through a tile window is accepted or refused depending on the column's state,
  recording TW_REFUSE on refusal. -/
  | tileWindowWrite (src : Source) (t : Fin 4096) (k : Fin 4096) (v : Word) (full : Bool) (e : EccEvent)
  /-- `COLUMN_RUN` (R230): COL_CTL.RUN becoming 1 starts a HALTED column at ENTRY; becoming 0 halts it at its next
  instruction boundary. -/
  | columnRun (src : Source) (r : Fin 16) (c : Fin 16) (v : Word)
  /-- `MOVE_GO` (R256): MOVE_CTL.GO requests a segment move or replacement and starts its Prepare, or is refused or
  deferred. -/
  | moveGo (src : Source) (r : Fin 16) (v : Word)
  /-- `MOVE_ABORT` (R263): MOVE_CTL.ABORT ends a move before Switch with outcome 5. -/
  | moveAbort (src : Source) (r : Fin 16) (v : Word)
  /-- `MOVE_COMPARE_DONE` (R258): Each enabled output port has compared COMPARE words; a pass arms the instant, a mismatch
  ends the move with outcome 1. -/
  | moveCompareDone (r : Fin 16) (dt : Nat)
  /-- `MOVE_PORT_SILENT` (R258): A port emitting no word for 100 ms during comparison ends the move with outcome 2. -/
  | movePortSilent (r : Fin 16)
  /-- `MOVE_BIND_TIMEOUT` (R259): After 10 s without binding the TREG pages, the move ends with outcome 2. -/
  | moveBindTimeout (r : Fin 16)
  /-- `MOVE_DRAIN_END` (R262): The source finishes its earlier words and halts, the destination runs, and SEG_HO is
  raised. -/
  | moveDrainEnd (r : Fin 16)
  /-- `REPAIR_PREPARE_DONE` (R264): The column copy to the spare column completes and the repair instant is set LEAD µs
  later. -/
  | repairPrepareDone (r : Fin 16) (c : Fin 16) (rows : List ColRow) (dt : Nat)
  /-- `FLIT_SEND` (R274): A producer sends a stream flit when it holds 13 words, writes its last channel, or its next word
  changes timestamp. -/
  | flitSend (ep : Fin 65536) (flow : Fin 16384) (ws : List LogicWord)
  /-- `FLIT_ARRIVE` (R272): A flit arrives at a router or endpoint and is forwarded, copied, delivered or discarded as
  stale. -/
  | flitArrive (n : Nat) (ep : Fin 65536) (err : Option (Fin 64 × Fin 8))
  /-- `A_DROP` (R281): A class A flit not accepted by its consumer within 1 µs is discarded for that consumer and A_DROP
  is raised. -/
  | aDrop (n : Nat) (ep : Fin 65536)
  /-- `MEMORY_ACCESS` (R284): A memory flit reaches a bank controller and is read or written with DEC-TED correction and
  poison handling. -/
  | memoryAccess (m : MemFlit) (es : List EccEvent)
  /-- `FRAME_PORT_WRITE` (R287): A frame-port writer stores an arriving word, and a marker word ends the buffer and writes
  its header. -/
  | framePortWrite (b : Fin 32)
  /-- `FRAME_PORT_READ` (R288): A frame-port reader emits a complete buffer, oldest first, as its consumers' credits
  allow, followed by a marker word. -/
  | framePortRead (b : Fin 32) (e : EccEvent)
  /-- `SCRUB_READ` (R289): The scrubber reads and corrects the next frame-memory word at the pass rate, requesting row
  repair where R292 applies. -/
  | scrubRead (e : EccEvent) (skip : Bool) (v : VoteEvent)
  /-- `ROW_REPAIR_GO` (R293): RPR_CTL.GO or a scrubber request starts soft repair of a row onto the lowest free spare row. -/
  | rowRepairGo (src : Source) (b : Fin 32) (v : Word)
  /-- `ROW_COMPARE_DONE` (R293): The spare-row copy and bit-exact comparison complete; a pass arms the repair, a mismatch
  ends it with outcome 1. -/
  | rowCompareDone (b : Fin 32) (bad : Nat)
  /-- `ROW_REPAIR_TIMEOUT` (R293): After 10 s of waiting to bind the FMEM page, the repair ends with outcome 2. -/
  | rowRepairTimeout (b : Fin 32)
  /-- `ROW_REPAIR_ABORT` (R293): RPR_CTL.ABORT before Switch ends the repair with outcome 5. -/
  | rowRepairAbort (src : Source) (b : Fin 32) (v : Word)
  /-- `FLOW_BIND` (R276): A write binding a producer or consumer to a flow is made, or refused with cause BLOCK against
  the route record and class A load. -/
  | flowBind (src : Source) (addr : Nat) (v : Word)
  /-- `FLOW_ROUTE` (R298): A write to FLOW_ROUTE changes a flow's route record, or is refused while the flow has a bound
  producer or consumer. -/
  | flowRoute (src : Source) (v : Word)
  /-- `LAYOUT_CHANGE` (R304): A change of LG_CFG layout or rate retunes the lane-group PLL, or is refused while an
  affected port is enabled. -/
  | layoutChange (src : Source) (g : Fin 8) (v : Word)
  /-- `PLL_LOCK` (R304): The lane-group PLL locks after retuning and raises PLL_LOCK. -/
  | pllLock (g : Fin 8)
  /-- `PLL_UNLOCK` (R306): The lane-group PLL unlocks, raising PLL_UNLOCK and taking UP ports to DOWN with cause 4. -/
  | pllUnlock (g : Fin 8) (refOk : Bool)
  /-- `ETH_ENABLE` (R306): ENABLE of an ETH port starts bring-up in AN, TRAINING or DOWN; ENABLE = 0 takes it to DISABLED. -/
  | ethEnable (src : Source) (e : Fin 64) (on : Bool) (v : Word)
  /-- `AN_RESOLVED` (R306): The partner offers the advertised mode and FEC and the port passes to TRAINING. -/
  | anResolved (e : Fin 64)
  /-- `AN_FAIL` (R306): No common ability within 3,000 ms takes the port to DOWN with cause 6 and raises AN_FAIL. -/
  | anFail (e : Fin 64)
  /-- `TRAINING_DONE` (R306): Every lane of the port is trained and the port goes DOWN seeking lock. -/
  | trainingDone (e : Fin 64)
  /-- `TRAINING_TIMEOUT` (R306): Training not complete in 3,000 ms takes the port to DOWN with cause 7. -/
  | trainingTimeout (e : Fin 64)
  /-- `LINK_UP` (R306): Block or alignment lock, and FEC lock where on, on every lane takes the port to UP and raises
  LINK_UP. -/
  | linkUp (e : Fin 64)
  /-- `BRINGUP_RETRY` (R306): A port not UP 100 ms after entering DOWN starts bring-up again. -/
  | bringupRetry (e : Fin 64)
  /-- `LINK_DOWN` (R306): Signal or lock loss, high error rate or another listed cause takes an UP port to DOWN and raises
  LINK_DOWN. -/
  | linkDown (e : Fin 64) (why : Fin 16) (lane : Option (Fin 64))
  /-- `RETRAIN` (R306): ETH_CTL.RETRAIN takes an UP port to DOWN with cause 5. -/
  | retrain (src : Source) (e : Fin 64) (v : Word)
  /-- `SV_GO` (R311): SV_GO starts a channel survey of reflection, partner and loss on a DISABLED or DOWN port. -/
  | svGo (src : Source) (e : Fin 64) (v : Word)
  /-- `ETH_SURVEY_END` (R311): The channel survey completes or is aborted, reports its results and raises SURVEY_END. -/
  | ethSurveyEnd (e : Fin 64) (lanes : List LaneSurvey) (partner : Option (Fin 4 × BitVec 23))
  /-- `ADAPT_STEP` (R308): At most once per 1 ms per lane, continuous adaptation changes one equaliser setting by one step
  and updates MARGIN. -/
  | adaptStep (l : Fin 64) (margin : BitVec 16)
  /-- `MARGIN_RETRAIN` (R309): With AUTO_RETRAIN, a lane below 0 margin for 1 s takes its port to DOWN with cause 5. -/
  | marginRetrain (l : Fin 64)
  /-- `IL_ESTIMATE` (R310): Every 1 s adaptation writes its insertion-loss estimate into LN_SV.IL. -/
  | ilEstimate (l : Fin 64) (il : BitVec 10)
  /-- `LANE_RETIRE` (R544): A write of LN_CTL.RETIRE retires or releases a lane, refused while a single-path flow would go
  silent. -/
  | laneRetire (src : Source) (l : Fin 64) (v : Word)
  /-- `MODULE_POLL` (R315): Every 100 ms the supervisor polls a managed module's CMIS flags and advances its state. -/
  | modulePoll (g : Fin 8) (present : Bool) (mstate : BitVec 3) (dpstate : BitVec 4) (rev : BitVec 8) (flags : BitVec 16)
  /-- `MOD_FAULT` (R315): A module not reaching data-path-activated within 10 s raises MOD_FAULT. -/
  | modFault (g : Fin 8)
  /-- `MOD_ACC` (R315): MOD_ACC.GO performs one byte transfer to the module, refused for pages 10h and 11h while managed. -/
  | modAcc (src : Source) (g : Fin 8) (v : Word)
  /-- `SERVO_PUSH` (R323): SRV_PUSH.GO delivers one PTP offset measurement to the servo. -/
  | servoPush (src : Source) (v : Word)
  /-- `REFIN_MEASUREMENT` (R324): A reference frame start, or a 10 ms word-clock interval, yields one offset measurement
  for the servo. -/
  | refinMeasurement (edges : List Nat)
  /-- `TIME_SRC_WRITE` (R320): A write of TIME_SRC that changes the source or reference takes a LOCKED servo to HOLDOVER. -/
  | timeSrcWrite (src : Source) (v : Word)
  /-- `REACQUIRE` (R320): TIME_CMD.REACQUIRE takes a LOCKED or HOLDOVER servo to ACQUIRE. -/
  | reacquire (src : Source) (v : Word)
  /-- `SET` (R322): TIME_CMD.SET loads TIME_SET into device time in FREERUN, as a step. -/
  | timeSet (src : Source) (v : Word)
  /-- `TXTS_POP` (R326): A write to TXTS_POP removes the head entry of the PTP transmit-timestamp FIFO. -/
  | txtsPop (src : Source) (e : Fin 64) (v : Word)
  /-- `MCG_START` (R328): A media clock generator starts on the first base-rate edge at or after its ENABLE becomes live
  and raises MCG_START. -/
  | mcgStart (n : Fin 4)
  /-- `FLOW_TABLE_WRITE` (R332): A write to a flow-table entry sets or clears VALID or changes its fields, subject to the
  admission checks. -/
  | flowTableWrite (src : Source) (f : Fin 16384) (k : Fin 16) (v : Word) (full : Bool)
  /-- `PACKET_RECEIVE` (R334): A media engine receives an Ethernet frame and turns it into flow words, opens a gap, or
  passes it to the host queue. -/
  | packetReceive (port : Fin 64) (x : EthFrame)
  /-- `GAP_TIMEOUT` (R334): SKEW µs after a gap opens without its packet, the gap closes as lost, fill is supplied and
  PKT_LOST is raised. -/
  | gapTimeout (f : Fin 16384)
  /-- `AUDIO_PACKET_TIMEOUT` (R335): A packet period plus SKEW without a packet makes an audio receive flow emit FAULT
  words for its slots. -/
  | audioPacketTimeout (f : Fin 16384)
  /-- `PATH_DOWN` (R336): A path without a packet for 10 packet or 2 frame periods is marked down and raises PATH_DOWN. -/
  | pathDown (f : Fin 16384) (b : Bool)
  /-- `PACKET_SEND` (R338): At its send time a media engine builds and sends a transmit packet, filling missing or
  poisoned words. -/
  | packetSend (x : TxItem)
  /-- `TAP_REARM` (R353): TAP_REARM returns every lost tap of the region to arbitration. -/
  | tapRearm (src : Source) (n : Fin 32) (v : Word)
  /-- `BRAM_ACCESS` (R360): A block RAM read or write in ECC mode corrects errors, poisons on uncorrectable errors and
  merges byte writes. -/
  | bramAccess (n : Fin 32) (b : Fin 32) (pa pb : Option BramOp)
  /-- `WALK_STALE` (R361): A block RAM walk not complete within 1 s sets and raises WALK_STALE. -/
  | walkStale (n : Fin 32) (b : Fin 32) (stale : Bool)
  /-- `OSC_MEASURE` (R367): Every 1 ms a user ring oscillator is measured against XIN, raising OSC_RANGE outside 45–880
  MHz. -/
  | oscMeasure (k : Fin 8) (khz : BitVec 20)
  /-- `USTORE_REQUEST` (R369): A region's user store request is served in round robin, or answered with an error and
  USTORE_ERR. -/
  | ustoreRequest (n : Fin 34) (write : Bool) (addr : BitVec 32) (data : List Byte) (len : Nat)
  /-- `USTORE_DONE` (R369): A user store read or journaled write completes and is acknowledged to the region. -/
  | ustoreDone (fault bad : Bool)
  /-- `FPORT_REG_ACCESS` (R364): A fabric port in register mode issues one BAR0 access as the fabric source. -/
  | fportRegAccess (n : Fin 34) (p : Fin 8) (addr : BitVec 27) (write : Option Word)
  /-- `LOAD_GO` (R388): LDR_CTL.GO starts a load with Digest, or is refused while a load runs. -/
  | loadGo (src : Source) (v : Word)
  /-- `LOAD_ABORT` (R389): LDR_CTL.ABORT ends a load before Release with ERR ABORTED. -/
  | loadAbort (src : Source) (v : Word)
  /-- `GROUP_COMPLETE` (R395): All regions of a release group complete and the loader issues CHECK on the group's slot, or
  enters SHADOW for partners. -/
  | groupComplete (g : Fin 8)
  /-- `ISO_RELEASE` (R398): A direct write of ISO_CTL.RELEASE = 1 releases a HELD region. -/
  | isoRelease (src : Source) (n : Fin 34) (v : Word)
  /-- `REGION_HO_COMPARE_DONE` (R404): The partner region's comparison completes; a pass arms the region handover, a
  mismatch ends it with outcome 1. -/
  | regionHoCompareDone (dt : Nat)
  /-- `READBACK` (R407): RB_CTL.GO reads one cluster's configuration frame into RB_DATA within 2 µs. -/
  | readback (src : Source) (v : Word)
  /-- `STORE_WRITE_UNIT` (R411): The store commits one 64-byte write unit, counting wear and retiring the sector when its
  limit or read-back fails. -/
  | storeWriteUnit (log : Option (BitVec 26 × List Byte)) (bad : Bool)
  /-- `MASKED_WRITE` (R421): A write to OUT_MW, DIR_MW or PULL_MW changes only the masked pins, all on one pin-control
  edge. -/
  | maskedWrite (src : Source) (b : Fin 12) (which : PinMask) (v : Word)
  /-- `PIN_LOCK` (R425): A PIN_LOCK write advances the three-key sequence and locks the masked pins on the third. -/
  | pinLock (src : Source) (b : Fin 12) (mask key : BitVec 16)
  /-- `VIO_LOST` (R414): VIOb falling below 1.6 V makes the bank's pins high impedance and raises VIO_LOST. -/
  | vioLost (b : Fin 12) (mv : BitVec 12)
  /-- `VIO_BACK` (R414): VIOb returning to 1.6 V or above raises VIO_BACK. -/
  | vioBack (b : Fin 12) (mv : BitVec 12)
  /-- `AES3_RX_FRAME` (R431): A locked AES3 receiver turns one received frame into two stamped flow words, counting slips. -/
  | aes3RxFrame (n : Fin 32) (a b : Sample) (va vb pa pb : Bool) (cs : Option (List Word))
  /-- `AES_LOCK` (R431): An AES3 receiver locks to its input and raises AES_LOCK. -/
  | aesLock (n : Fin 32) (hz : BitVec 20)
  /-- `AES_UNLOCK` (R431): An AES3 receiver loses lock, sends FAULT words and raises AES_UNLOCK. -/
  | aesUnlock (n : Fin 32)
  /-- `AES3_TX_FRAME` (R432): An AES3 transmitter starts the frame for timestamp t at the pin at t. -/
  | aes3TxFrame (n : Fin 32)
  /-- `LTC_SYNC` (R433): An LTC reader latches time address, user bits and device time on each sync word. -/
  | ltcSync (k : Fin 2) (addr ub : Word)
  /-- `LTC_LOST` (R433): 200 ms without a valid codeword raises LTC_LOST. -/
  | ltcLost (k : Fin 2)
  /-- `SER_DATA_WRITE` (R435): A write to SER_DATA pushes a byte into the serial block's transmit FIFO. -/
  | serDataWrite (src : Source) (c : SerKind) (i : Fin 4) (v : Word)
  /-- `SER_DATA_READ` (R435): A read of SER_DATA pops the receive FIFO. -/
  | serDataRead (src : Source) (c : SerKind) (i : Fin 4)
  /-- `Q_CFG_WRITE` (R441): A write to Q_CFG enables or disables a DMA queue, aborting unfinished descriptors when EN
  clears. -/
  | qCfgWrite (q : Fin 16) (v : Word)
  /-- `SQ_DOORBELL` (R441): A write to SQ_TAIL makes new descriptors available to the DMA engine. -/
  | sqDoorbell (q : Fin 16) (v : Word) (ds : List Desc)
  /-- `DMA_DESCRIPTOR_DONE` (R442): A DMA descriptor completes with its status and a completion record is written when the
  ring has room. -/
  | dmaDescriptorDone (q : Fin 16) (host : List Byte) (err : Option Nat)
  /-- `NOTICE_RING_WRITE` (R452): A waiting notice record is written to the host ring when RING_EN is 1 and the ring has
  room, and NQ_HEAD is written back. -/
  | noticeRingWrite (q : Fin 4)
  /-- `NQ_TAIL_WRITE` (R452): A write of NQ_TAIL frees ring space, or is refused outside the span to NQ_HEAD. -/
  | nqTailWrite (src : Source) (q : Fin 4) (v : Word)
  /-- `MSIX_COALESCE_TIMEOUT` (R453): COAL_US µs after the first record since the last interrupt, the queue raises its
  MSI-X vector. -/
  | msixCoalesceTimeout (q : Fin 4)
  /-- `PCIE_LINK_UP` (R446): The PCIe link retrains, raising PCIE_LINK_UP and PCIE_DEGRADED when below ×8 Gen5. -/
  | pcieLinkUp (gen : Fin 8) (width : Fin 32)
  /-- `BRIZEL_BREAK` (R454): MLK_RX low for 1 ms starts rate detection on the next 0x00 byte, setting SYNC and raising
  BLK_SYNC. -/
  | brizelBreak (baud : BitVec 25)
  /-- `BRIZEL_FRAME_REJECT` (R456): A received Brizel frame failing COBS, CRC, length, type, channel, credit or sequence
  checks is answered with NAK. -/
  | brizelFrameReject (chan : Byte) (seq : Option (BitVec 16)) (why : Fin 16)
  /-- `BRIZEL_READ` (R458): A Brizel READ command returns dwords from consecutive BAR0 offsets. -/
  | brizelRead (c : Byte) (seq : BitVec 16) (count : BitVec 16) (addr : Word)
  /-- `BRIZEL_WRITE` (R459): A Brizel WRITE command writes dwords and stops at the first refused one. -/
  | brizelWrite (c : Byte) (seq : BitVec 16) (count : BitVec 16) (addr : Word) (ws : List Word)
  /-- `MWRITE` (R459): MWRITE writes a masked value with no other access to the register in between. -/
  | mwrite (c : Byte) (seq : BitVec 16) (count : BitVec 16) (addr mask v : Word)
  /-- `POLL` (R459): POLL starts re-reading a register every 10 µs until it matches the value under the mask. -/
  | poll (c : Byte) (seq : BitVec 16) (count : BitVec 16) (addr mask v : Word) (ms : BitVec 16)
  /-- `POLL_DONE` (R459): A POLL ends on a match or its timeout and its RSP is sent. -/
  | pollDone (c : Byte)
  /-- `FMREAD` (R459): FMREAD returns 64-bit frame-memory words, poisoned words as zero with status POISON. -/
  | fmread (c : Byte) (seq : BitVec 16) (count : BitVec 16) (addr : Word) (es : List EccEvent)
  /-- `FMWRITE` (R459): FMWRITE writes 64-bit words to frame memory as class B. -/
  | fmwrite (c : Byte) (seq : BitVec 16) (count : BitVec 16) (addr : Word) (ws : List (BitVec 64))
  /-- `INFO` (R458): INFO returns SYS PAGE_ID, protocol version and largest payload. -/
  | brizelInfo (c : Byte) (seq : BitVec 16) (op : Byte) (count : BitVec 16)
  /-- `ACK` (R458): An ACK from the manager acknowledges a NOTICE frame and frees its place in the window. -/
  | brizelAck (seq : BitVec 16)
  /-- `NAK` (R458): A NAK from the manager causes the named NOTICE frame to be resent. -/
  | brizelNak (seq : BitVec 16)
  /-- `CREDIT` (R457): A CREDIT from the manager sets the NOTICE window or grants command credit. -/
  | brizelCredit (chan : Byte) (n : Byte)
  /-- `NOTICE_FRAME_SEND` (R458): A NOTICE frame of up to 128 records is sent when the queue's coalescing condition holds
  and the window allows. -/
  | noticeFrameSend (q : Fin 4)
  /-- `NOTICE_RESEND` (R458): A NOTICE frame unacknowledged after RETX_MS is resent, and after 8 sends its records count
  as lost. -/
  | noticeResend (seq : BitVec 16)
  /-- `WRITE_REG` (R460): The SSP WRITE_REG command writes dwords to consecutive BAR0 offsets. -/
  | sspWriteReg (addr : Word) (ws : List Word)
  /-- `READ_REG` (R460): The SSP READ_REG command returns dwords from BAR0 after 8 dummy clocks. -/
  | sspReadReg (addr : Word) (n : Nat)
  /-- `WRITE_BUF` (R462): The SSP WRITE_BUF command writes up to 4,096 bytes into the slave buffer, setting ERR on
  violations. -/
  | sspWriteBuf (off : Word) (bs : List Byte)
  /-- `PSP_TRANSACTION` (R461): A PSP transaction writes or reads BAR0 or the slave buffer at the 32-bit address it
  carries. -/
  | pspTransaction (write : Bool) (addr : Word) (ws : List Word) (n : Nat)
  /-- `WRITE_CRIT` (R479): WRITE_CRIT writes a masked value to critical fields after the envelope tests of R477. -/
  | writeCrit (x : Carrier)
  /-- `LOCK_OVERRIDE` (R479): LOCK_OVERRIDE clears a page lock and, on an IOB page, the locks of masked pins. -/
  | lockOverride (x : Carrier)
  /-- `KEY_LOAD` (R480): KEY_LOAD unwraps a key and loads it into the battery domain. -/
  | keyLoad (x : Carrier)
  /-- `KEY_ERASE` (R479): KEY_ERASE erases KCMD or KIMG_B. -/
  | keyErase (x : Carrier)
  /-- `FUSE_PROG` (R479): FUSE_PROG programs one fuse field, raising FUSE_DONE or FUSE_FAIL. -/
  | fuseProg (x : Carrier) (ok : Bool)
  /-- `SLOT_WRITE` (R410): SLOT_WRITE starts copying an image from the host or slave buffer into a store slot. -/
  | slotWrite (x : Carrier)
  /-- `SLOT_ERASE` (R479): SLOT_ERASE sets a store slot EMPTY. -/
  | slotErase (x : Carrier)
  /-- `BANK_WRITE` (R479): BANK_WRITE writes and verifies a firmware bank from the slave buffer. -/
  | bankWrite (x : Carrier)
  /-- `CAL_OVERWRITE` (R479): CAL_OVERWRITE reinstates a slice at once or clears a tile column's retirement record. -/
  | calOverwrite (x : Carrier)
  /-- `KEEPER_RELOAD` (R479): KEEPER_RELOAD starts the loader on a keeper-bearing image. -/
  | keeperReload (x : Carrier)
  /-- `DEBUG_UNLOCK` (R488): DEBUG_UNLOCK carrying the present challenge unlocks JTAG and raises DEBUG_UNLOCKED. -/
  | debugUnlock (x : Carrier)
  /-- `TAMPER_TRIP` (R485): A tamper input holding its trip level for 10 µs erases KIMG_B and KCMD, latches the trip, and
  with ACT = 1 zeroes frame memory and resets. -/
  | tamperTrip (i : Fin 2) (level : Bool)
  /-- `ATTESTATION_REPORT` (R474): ATT_CTL.GO with MODE 0 starts building a signed attestation report in frame memory. -/
  | attestationReport (src : Source) (v : Word)
  /-- `NEW_CHAL` (R488): NEW_CHAL renews the debug challenge. -/
  | newChal (src : Source) (v : Word)
  /-- `RELOCK` (R488): RELOCK locks the JTAG port again. -/
  | relock (src : Source) (v : Word)
  /-- `RAIL_LOST` (R492): A supply rail leaving its range for 2 µs acts as the Loss of a rail table states and raises
  RAIL_LOST. -/
  | railLost (i : Fin 7)
  /-- `RAIL_BACK` (R490): A rail inside its range for 1 ms becomes valid and raises RAIL_BACK. -/
  | railBack (i : Fin 7)
  /-- `PWR_REQ` (R497): A live PWR_REQ starts the block's power transition, queued behind one already running. -/
  | pwrReq (src : Source) (page : Fin 32768) (st : Fin 4) (v : Word)
  /-- `POWER_STATE_REACHED` (R496): A block's power transition completes and PAGE_STAT.PWR_STATE shows the new state. -/
  | powerStateReached (page : Fin 32768)
  /-- `DARK_ENTER` (R500): DARK_CTL.ENTER takes the whole device dark, or is refused while class A flows, loads or store
  writes run. -/
  | darkEnter (src : Source) (v : Word)
  /-- `DARK_WAKE` (R501): A break on MLK_RX, a rising PERST_N or PORST_N wakes a dark device as after a SYS reset. -/
  | darkWake (k : WakeKind)
  /-- `XIN_LOST` (R503): XIN without edges for 2 µs or out of range puts the core PLLs in holdover and raises XIN_LOST. -/
  | xinLost (khz : BitVec 16)
  /-- `XIN_BACK` (R503): XIN present for 10 ms returns the PLLs to it by slew and raises XIN_BACK. -/
  | xinBack (khz : BitVec 16)
  /-- `PLL_FAILOVER` (R505): The active core PLL of a pair fails and the pair switches to its standby, raising
  PLL_FAILOVER. -/
  | pllFailover (k : Fin 4)
  /-- `PLL_COLD_RELOCK` (R506): In COLD mode the standby PLL locks after a fault and the fed domains restart. -/
  | pllColdRelock (k : Fin 4)
  /-- `PLL_RETRY` (R507): Every 10 s the device retries a failed PLL, retiring it on its third failure. -/
  | pllRetry (k : Fin 4) (ok : Bool)
  /-- `PLL_RESTORED` (R507): A PLL locked and fault-free for 60 s becomes the standby again and raises PLL_RESTORED. -/
  | pllRestored (k : Fin 4)
  /-- `PLANNED_PLL_SWITCH` (R508): A write to PAIR_CFG.ACTIVE naming the standby makes a planned switch. -/
  | plannedPllSwitch (src : Source) (k : Fin 4) (v : Word)
  /-- `THERM_SAMPLE` (R512): Every 1 ms the core-die sensors report and THERM_WARN, THERM_FAULT or THERM_OK is raised on
  crossings. -/
  | thermSample (ts : List (BitVec 8))
  /-- `FW_CHG` (R545): FW_CHG.GO starts a firmware changeover to the bank not running. -/
  | fwChg (src : Source) (v : Word)
  /-- `FW_ABORT` (R546): FW_CHG.ABORT ends a changeover before Switch with outcome 5. -/
  | fwAbort (src : Source) (v : Word)
  /-- `FW_COMPARE_DONE` (R545): At the end of the overlap the servo updates of both units are compared; a pass arms the
  switch, a fail ends with outcome 1. -/
  | fwCompareDone (diff : Nat)
  /-- `AGE_MEASURE` (R550): Every 10 s the ageing oscillators are measured and AGE_WARN is raised once when SHIFT_WARN is
  reached. -/
  | ageMeasure (ss : List (BitVec 16))
  /-- `CQ_HEAD_WRITE` (R441): A host write of a queue's CQ_HEAD frees completion-ring space, so a DMA queue waiting for
  room writes its pending completion record and resumes fetching descriptors. -/
  | cqHeadWrite (q : Fin 16) (v : Word)
  /-- `JTAG_INSTRUCTION` (R487): An IEEE 1149.1 instruction loads at the JTAG port; on an owned, locked device every
  instruction but IDCODE, BYPASS and SAMPLE/PRELOAD loads as BYPASS, and an active EXTEST or INTEST takes the pins at
  the boundary-scan level. -/
  | jtagInstruction (i : Fin 6)
  /-- `LTC_CODEWORD_START` (R433): An enabled LTC generator starts a codeword on a frame start of its media clock
  generator, counting on from LTC_SET. -/
  | ltcCodewordStart (k : Fin 2)
  /-- `SER_RX_BYTE` (R435): A UART, SPI or I2C block receives a byte on its pins and places it in its receive FIFO, or in
  the attached region's FIFO. -/
  | serRxByte (c : SerKind) (i : Fin 4) (byte : Byte)
  /-- `CDR_LOSS` (R366): A lane's receiver loses clock recovery, CDR_LOCK falls, CDR_LOSS_CNT counts and a raw lane's
  fabric interface sees LOCK = 0. -/
  | cdrLoss (l : Fin 64)
  /-- `CDR_LOCK` (R366): A lane's receiver recovers the clock and CDR_LOCK and a raw lane's LOCK return to 1. -/
  | cdrLock (l : Fin 64)
  /-- `KEY_LOAD_SIGNED` (R481): KEY_LOAD_SIGNED loads a key under an owner signature, clearing LATCHED. -/
  | keyLoadSigned (x : Carrier)
  /-- `CERTIFICATE_COPY` (R474): ATT_CTL.GO with MODE 1 copies the vendor certificate to frame memory. -/
  | certificateCopy (src : Source) (v : Word)
  /-- `UNLOCK` (R488): The JTAG instruction UNLOCK shifts in an owner signature over the challenge and serial and unlocks
  JTAG. -/
  | jtagUnlock (blk : List Byte)
  /-- `PORST_N` (R40): Assertion of PORST_N clears every state that the PORST_N column of the Reset scopes table marks. -/
  | porstN
  /-- `PERST_N` (R444): PERST_N resets the host-facing state at scope 0, or also performs a SYS reset at HOST_RESET_SCOPE
  1. -/
  | perstN
  /-- `FLR` (R444): A function-level reset resets the host-facing state as PERST_N does, under HOST_RESET_SCOPE. -/
  | flr
  /-- `CHECK_START` (R56): The checker starts the next queued check or try once the running check has ended. -/
  | checkStart
  /-- `PF_MUTE_RELEASE` (R153): 10 ms after the droop detector is inactive and PFAIL_N is high, the supply-fail mute
  releases through an unmute ramp. -/
  | pfMuteRelease
  /-- `MEAS_TIMEOUT` (R320): No push for MEAS_TMO ms in LOCKED takes the servo to HOLDOVER. -/
  | measTimeout
  /-- `STEP_WANTED` (R320): Large offsets on every measurement for 10 s in LOCKED or HOLDOVER set STEP_WANT and raise
  STEP_WANTED. -/
  | stepWanted
  /-- `DIGEST_DONE` (R388): The image digest completes and Verify starts. -/
  | digestDone
  /-- `VERIFY_DONE` (R388): Verify completes, binding release groups and starting Write, or failing the load. -/
  | verifyDone
  /-- `REGION_WRITE_DONE` (R390): A region's frames, block RAM and memory records have been written behind isolation and
  the region completes. -/
  | regionWriteDone
  /-- `PERSONALITY_LOAD` (R399): Once the supervisor runs after reset it starts the power-up load from BOOT_SLOT, or waits
  for the host, or takes the bare personality. -/
  | personalityLoad
  /-- `PERS_DEADLINE` (R401): The personality deadline passing before the load completes aborts it, returns its regions to
  DARK and raises BARE. -/
  | persDeadline
  /-- `REGION_HO_SILENT` (R404): A stream-out port silent for 100 ms during comparison ends the region handover with
  outcome 2. -/
  | regionHoSilent
  /-- `REGION_HO_BIND_TIMEOUT` (R404): Failing to bind the handover pages within 10 s ends the region handover with
  outcome 2. -/
  | regionHoBindTimeout
  /-- `REGION_HO_DRAIN_END` (R404): After DRAIN µs the old region is isolated, becomes EMPTY and DARK, the new region is
  RELEASED and REGION_HO is raised. -/
  | regionHoDrainEnd
  /-- `SLOT_WRITE_DONE` (R410): A store slot write completes its copy and verification, raising SLOT_WRITTEN or SLOT_BAD. -/
  | slotWriteDone
  /-- `PCIE_LINK_DOWN` (R446): The PCIe link leaving its active state without PERST_N is treated as PERST_N at scope 0 and
  raises PCIE_LINK_DOWN. -/
  | pcieLinkDown
  /-- `STATUS` (R460): The SSP STATUS command returns BUSY and ERR and clears ERR. -/
  | sspStatus
  /-- `ATT_DONE` (R474): An attestation report or certificate copy completes and raises ATT_DONE. -/
  | attDone
  /-- `CHAL_RD` (R488): The JTAG instruction CHAL_RD reads the present challenge. -/
  | chalRd
  /-- `BOOT_VERIFY` (R468): Boot ROM verifies the firmware banks and starts the supervisor, or enters recovery. -/
  | bootVerify
  /-- `PFAIL` (R493): PFAIL_N falling mutes outputs, stops new store writes and raises PFAIL. -/
  | pfail
  /-- `PFAIL_END` (R493): PFAIL_N high for 10 ms resumes store writes and raises PFAIL_END. -/
  | pfailEnd
  /-- `THERMAL_TRIP` (R512): A sensor at 125 °C holds the core in SYS reset until every sensor reads below 105 °C. -/
  | thermalTrip
  /-- `FW_PREPARE_DONE` (R545): The new bank is verified and loaded into the idle unit and its shadow overlap starts, or
  the changeover ends with outcome 4. -/
  | fwPrepareDone
  /-- `FW_ARM_TIMEOUT` (R545): Waiting more than 10 s to arm, or to leave ACQUIRE, ends the changeover with outcome 2. -/
  | fwArmTimeout
  /-- `FW_DRAIN_END` (R545): The old unit finishes its jobs and halts, FW_VER changes and FW_HO is raised. -/
  | fwDrainEnd
  /-- `HOURS_UPDATE` (R550): Every hour HOURS and EQ_HOURS are updated and LIFE_WARN is raised once at LIFE_HOURS. -/
  | hoursUpdate
  /-- `BANK_WRITE_DONE` (R484): A firmware bank write from the slave buffer finishes its copy and verification some time
  after BANK_WRITE returned OK, reporting completion and, in recovery, restarting the device as a SYS reset. -/
  | bankWriteDone
  deriving DecidableEq, Repr

end Sys2Proof
end

