-- ==== Sys2Proof/Config.lean ====
section
/-! DEFINITION. What the spec leaves to the implementation or does not state: constants and functions with no body, so that
nothing can be proved of their values. Each is named in a row of the assumption log. -/

namespace Sys2Proof.Config

/-- Code of the ramp gain ½(1 + cos(π a / n)) between its ends and its middle: the spec states no rounding of
`OUT_STAT.GAIN` (R144). -/
opaque rampGain : Nat → Nat → BitVec 15

/-- The word a tile pointer addresses when `BASE` + `OFF` lies beyond its memory in MODULO or BITREV mode, or when a BITREV
buffer's `LEN` is no power of two: the spec states no address there (R208). -/
opaque strayAddr : Nat → Nat

/-- Use of a causeway link over the last millisecond (R558), by link and elapsed time: a measurement the spec gives no
value for. -/
opaque linkUtil : Nat → Nat → Nat

/-- The first RTP sequence number of a transmit flow, by flow and elapsed time: the spec states none. -/
opaque rtpSeq : Nat → Nat → Nat

/-- A pluggable module's answer to a byte transfer (R315), by group, page and address and elapsed time: whether it
acknowledges, and the byte it returns. The module is outside the device. -/
opaque moduleAck : Nat → Nat → Nat → Bool
opaque moduleByte : Nat → Nat → Nat → BitVec 8

/-- Of the lanes' pattern checkers (R313): the bits a generator starts from, by lane; the symbols that must be predicted in
succession before a checker counts as locked, by `PRBS` code: the spec states neither; and a bit that arrives at the pins, by
lane, elapsed time and place. -/
opaque prbsSeed : Nat → Nat
opaque prbsLockAfter : Nat → Nat
opaque laneBit : Nat → Nat → Nat → Bool

/-- The value of the net that a region's configuration assigns to a driven gate line (R365), by region (32 K0, 33 K1), line
and elapsed time: the meaning of a frame is fixed by tools outside the spec (R382). -/
opaque gateNet : Nat → Nat → Nat → Bool

/-- A net of a region at a pin (R419): region (32 K0, 33 K1, 34 the boundary-scan register, 35 a hard peripheral's output),
pin, 0 value and 1 enable of net A, 2 and 3 of net B, elapsed time. -/
opaque pinNet : Nat → Nat → Nat → Nat → Bool

/-- What the outside drives on a pad (R420), by pin and elapsed time, and what a word-clock input measures (R434): presence,
frequency in Hz and offset in ns, by block and elapsed time. -/
opaque padIn : Nat → Nat → Bool
opaque wclkHere : Nat → Nat → Bool
opaque wclkHz : Nat → Nat → BitVec 20
opaque wclkOfs : Nat → Nat → BitVec 32

/-- The cryptographic functions the spec names and does not define, uninterpreted (R384, R385, R472, R476, R480): SHAKE256
of a message to a number of bytes; SLH-DSA verification of public key, message and signature; KMAC256 by key, message,
output bytes and customisation string (0 "Presy section", 1 "Wyvon critical", 2 "Wyvon key wrap"); AES-256-GCM decryption by
key, IV, additional data, ciphertext and tag. Byte strings are lists. -/
opaque shake256 : List Nat → Nat → List Nat
opaque slhVerify : List Nat → List Nat → List Nat → Bool
opaque kmac : Nat → List Nat → Nat → Nat → List Nat
opaque gcmOpen : Nat → List Nat → List Nat → List Nat → List Nat → Option (List Nat)

/-- The SHAKE256 hash of the vendor key that Boot ROM holds (R468). -/
opaque vendorKey : List Nat

/-- The version of the firmware a bank is shipped with: the spec gives none. -/
opaque shippedVer : Nat → BitVec 32

/-- What the configuration frames of a region fix and the spec does not give (R382): the blocks in ECC mode, as the bits of
`BRAM_MODE`. -/
opaque bramMode : List Nat → Nat

/-- A signal inside a region (R346 to R349): flip-flop `j` of cell `c`, the cell's output Z (ZA when it is split), ZB, carry sum
and carry in, a wire that enters the region from outside its cells, a constant. Cell `c` is cluster × 16 + number. -/
inductive Wire where
  | q (c : Nat) (second : Bool)
  | z (c : Nat)
  | zb (c : Nat)
  | sum (c : Nat)
  | cin (c : Nat)
  | ext (k : Nat)
  | lit (b : Bool)
  deriving DecidableEq, Repr, Inhabited

/-- What a flip-flop takes as D (R347). -/
inductive DSel where
  | z | zb | sum | bypass
  deriving DecidableEq, Repr, Inhabited

/-- A flip-flop as its frame configures it (R347, R356): its D input, the bypass wire, clock enable, set/reset wire and whether
it is asynchronous, the value set/reset gives (set 1, reset 0), the init value, and its clock: a regional net or clock select, or
else a routed net. -/
structure FfCfg where
  d : DSel
  bypass : Wire
  ce : Wire
  sr : Wire
  async : Bool
  srVal : Bool
  init : Bool
  net : Option (Fin 4)
  routed : Wire
  deriving DecidableEq, Repr, Inhabited

/-- A cell as its frame configures it (R346): truth table, split mode, the wires at L0 to L5, its two flip-flops, and the routed
net that carries into it where it is cell 0 of row 0 (R348). -/
structure CellCfg where
  lut : BitVec 64
  split : Bool
  l : List Wire
  ff0 : FfCfg
  ff1 : FfCfg
  carry : Wire
  deriving DecidableEq, Repr, Inhabited

/-- Cell `i` of a cluster as the cluster's frame configures it, by region, cluster, frame and cell: the meaning of a frame's bits
is fixed by the Druast tools (R382). -/
opaque cell : Nat → Nat → Nat → Nat → CellCfg

/-- What the spec leaves open of a cell: ZB of a whole cell (R346), the carry sum and the carry out by truth table, mode, index
of the inputs and carry in (R348), whether a synchronous set/reset waits for the clock enable (R347). -/
opaque wholeZb : BitVec 64 → Nat → Bool
opaque carrySum : BitVec 64 → Bool → Nat → Bool → Bool
opaque carryOut : BitVec 64 → Bool → Nat → Bool → Bool
opaque srNeedsCe : Bool

/-- By region and elapsed time: a wire that enters the region, a wire on a loop of tables, what a flip-flop with a routed clock
takes (R356); and whether a clock source, coded as in *Regional net sources*, has a rising edge in a nanosecond. -/
opaque wireIn : Nat → Nat → Nat → Bool
opaque wireLoop : Nat → Nat → Bool
opaque untimed : Nat → Nat → Bool → Nat → Bool
opaque clockEdge : Nat → Nat → Bool

/-- What the monitors measure, by elapsed time (R513, chapter 17): package power in 0.1 W, a rail in mV by `MON` index, the
VCORE current in 0.1 A. -/
opaque packagePower : Nat → BitVec 16
opaque railMv : Nat → Nat → BitVec 16
opaque vcoreAmps : Nat → BitVec 11

/-- The debug challenge, by the number of its renewal and dword (R488): the random generator's. -/
opaque challenge : Nat → Nat → BitVec 32

/-- The identity public key by serial number (R472), a byte of the identity key's signature of a message (R474), the vendor
key identifier and a byte of the vendor's signature in the certificate (R473). -/
opaque identityKey : Nat → Nat → BitVec 8
opaque identitySig : Nat → List Nat → Nat → BitVec 8
opaque vendorKeyId : BitVec 32
opaque certSig : Nat → BitVec 8

end Sys2Proof.Config
end

