-- ==== Sys2Proof/Machine/RegTypes.lean ====
section
/-! DEFINITION. The vocabulary of the register pages (R14 to R44): page classes, fields, access codes, the rows of
the register tables and of the event tables. -/

namespace Sys2Proof.Machine

/-- The page classes of the table *BAR0 page map* (R42). `router` is a causeway router page, `keep` is `K0` or `K1`. -/
inductive Cls where
  | sys | pwr | clk | mst | chk | ntc | sec | auth | ldr | store | svc | mon | pcie | blk | slv | time | mcg | srv | scrb
  | pdie | pgrp | port | treg | freg | keep | cway | router | fmem | lgrp | lane | eth | media | iob | uart | spi | i2c
  | aes3 | ltc | wclk
  deriving DecidableEq, Repr

/-- A field: offset of its register in the page, stride of the register array, top bit, bottom bit. -/
structure Fld where
  off : Nat
  stride : Nat
  hi : Nat
  lo : Nat
  deriving DecidableEq, Repr

/-- Access codes (R24). -/
inductive Acc where
  | rw | ro | wo | w1c | w1s | rc
  deriving DecidableEq, Repr

/-- The legal live values of a field (R21): all that fit, at most `n`, from `a` to `b`, zero or from `a` to `b`,
or a two's complement byte at most `n`. -/
inductive Lim where
  | any | le (n : Nat) | span (a b : Nat) | zeroOr (a b : Nat) | s8le (n : Nat)
  deriving DecidableEq, Repr

/-- Counter kinds (R37): not a counter, a 32-bit or 64-bit statistics counter, a free-running counter, a critical-command
counter. -/
inductive Ctr where
  | none | stat | stat64 | free | crit
  deriving DecidableEq, Repr

/-- Where a register's value is held through resets (R40): with its page, in the image store, in fuses, in the
battery domain, or in the always-on domain. -/
inductive Scope where
  | page | store | fuse | battery | alwaysOn
  deriving DecidableEq, Repr

/-- One row of a field table. -/
structure FSpec where
  hi : Nat
  lo : Nat
  acc : Acc
  rst : Nat
  staged : Bool
  lim : Lim
  crit : Bool
  deriving DecidableEq, Repr

/-- One register, or `count` registers at a stride. -/
structure RegSpec where
  off : Nat
  stride : Nat
  count : Nat
  ctr : Ctr
  scope : Scope
  flds : List FSpec
  deriving DecidableEq, Repr

/-- What a payload word of a notice carries when it is a register (R29): nothing, a register of the page by offset,
a register by BAR0 offset, the packing of `DEV_STAT` in word 7 of 0x1204, or a field of a register of the page. -/
inductive PW where
  | none | reg (off : Nat) | abs (addr : Nat) | devW7 | bits (off hi lo : Nat)
  deriving DecidableEq, Repr

/-- One row of a notice table: the event's page class and bit, its notice code and severity, and the registers in its
payload words. -/
structure Evt where
  cls : Cls
  bit : Nat
  code : Nat
  sev : Nat
  p4 : PW
  p5 : PW
  p6 : PW
  p7 : PW
  deriving DecidableEq, Repr

end Sys2Proof.Machine
end

