-- ==== Sys2Proof/Machine/Events.lean ====
section
/-! DEFINITION. The block events and their notices, one `Evt` per row of the notice tables of the spec's chapters
(R103, R132, R164, R193, R233, R267, R297, R317, R342, R376, R413, R437, R463, R489, R515, R552): page class, bit of
`EVT_STAT`, notice code, severity, and the registers whose present value payload words 4 to 7 carry (R29).
An event whose severity the spec makes depend on the outcome (R73) stands here with severity 0. -/

namespace Sys2Proof.Machine

def MST.E_SLOT_APPLIED : Evt := ⟨.mst, 8, 0x0010, 0, .none, .none, .none, .none⟩
def MST.E_SLOT_REFUSED : Evt := ⟨.mst, 9, 0x0011, 1, .none, .none, .none, .none⟩
def MST.E_SLOT_EXPIRED : Evt := ⟨.mst, 10, 0x0012, 1, .none, .none, .none, .none⟩
def MST.E_SLOT_CANCELLED : Evt := ⟨.mst, 11, 0x0013, 0, .none, .none, .none, .none⟩
def PORT.E_PORT_FAULT : Evt := ⟨.port, 8, 0x1001, 2, .reg 0x318, .none, .none, .none⟩
def PORT.E_PORT_RECOVER : Evt := ⟨.port, 9, 0x1002, 0, .reg 0x318, .none, .none, .none⟩
def PORT.E_DC_ON : Evt := ⟨.port, 10, 0x1003, 1, .reg 0x30c, .none, .none, .none⟩
def PORT.E_DC_OFF : Evt := ⟨.port, 11, 0x1004, 0, .reg 0x30c, .none, .none, .none⟩
def PORT.E_SURVEY_END : Evt := ⟨.port, 12, 0x1005, 0, .reg 0x310, .reg 0x314, .none, .none⟩
def PORT.E_SURVEY_REFUSED : Evt := ⟨.port, 13, 0x1006, 1, .reg 0x310, .reg 0x30c, .none, .none⟩
def PORT.E_THR_A_RISE : Evt := ⟨.port, 16, 0x1101, 0, .reg 0x70, .none, .none, .none⟩
def PORT.E_THR_A_FALL : Evt := ⟨.port, 17, 0x1102, 0, .reg 0x70, .none, .none, .none⟩
def PORT.E_THR_B_RISE : Evt := ⟨.port, 18, 0x1103, 0, .reg 0x70, .none, .none, .none⟩
def PORT.E_THR_B_FALL : Evt := ⟨.port, 19, 0x1104, 0, .reg 0x70, .none, .none, .none⟩
def PORT.E_CLIP : Evt := ⟨.port, 20, 0x1105, 1, .none, .none, .none, .none⟩
def PORT.E_SWAP_DONE : Evt := ⟨.port, 21, 0x1106, 0, .reg 0x48, .reg 0x58, .reg 0x5c, .none⟩
def PORT.E_SWAP_DEFERRED : Evt := ⟨.port, 22, 0x1107, 0, .reg 0x48, .none, .none, .none⟩
def PORT.E_FINE_REACHED : Evt := ⟨.port, 23, 0x1108, 0, .reg 0x48, .none, .none, .none⟩
def PORT.E_OUT_LIVE : Evt := ⟨.port, 24, 0x1201, 0, .reg 0x210, .none, .none, .none⟩
def PORT.E_SPAN_DONE : Evt := ⟨.port, 25, 0x1202, 0, .reg 0x210, .none, .none, .none⟩
def PORT.E_DEV_WARN : Evt := ⟨.port, 26, 0x1203, 1, .reg 0x214, .none, .none, .none⟩
def PORT.E_OUT_FAULT : Evt := ⟨.port, 27, 0x1204, 2, .reg 0x224, .none, .none, .devW7⟩
def PORT.E_LOAD_CHANGE : Evt := ⟨.port, 28, 0x1205, 1, .reg 0x224, .reg 0x21c, .reg 0x220, .none⟩
def PORT.E_PF_MUTE : Evt := ⟨.port, 29, 0x1206, 1, .none, .none, .none, .none⟩
def PORT.E_UNDERRUN : Evt := ⟨.port, 30, 0x1207, 1, .none, .none, .none, .none⟩
def PORT.E_LSV_END : Evt := ⟨.port, 31, 0x1208, 0, .reg 0x22c, .reg 0x230, .none, .none⟩
def PGRP.E_CLK_UNLOCK : Evt := ⟨.pgrp, 8, 0x1010, 2, .reg 0x40, .reg 0x44, .none, .none⟩
def PGRP.E_CLK_LOCK : Evt := ⟨.pgrp, 9, 0x1011, 0, .reg 0x40, .reg 0x44, .none, .none⟩
def PGRP.E_PHASE_ALIGN : Evt := ⟨.pgrp, 12, 0x1110, 0, .reg 0x80, .none, .none, .none⟩
def PGRP.E_HO_END : Evt := ⟨.pgrp, 16, 0x1301, 0, .none, .none, .none, .none⟩
def PGRP.E_SPARE_LOST : Evt := ⟨.pgrp, 17, 0x1302, 1, .reg 0x44, .reg 0x118, .none, .none⟩
def PGRP.E_SPARE_BACK : Evt := ⟨.pgrp, 18, 0x1303, 0, .reg 0x44, .reg 0x118, .none, .none⟩
def PGRP.E_SLICE_SUSPECT : Evt := ⟨.pgrp, 19, 0x1304, 1, .none, .none, .none, .none⟩
def PGRP.E_SLICE_RETIRED : Evt := ⟨.pgrp, 20, 0x1305, 2, .none, .none, .none, .none⟩
def PGRP.E_SLICE_FAIL : Evt := ⟨.pgrp, 21, 0x1306, 2, .none, .none, .none, .none⟩
def PGRP.E_CAL_STALE : Evt := ⟨.pgrp, 22, 0x1307, 1, .none, .none, .none, .none⟩
def PGRP.E_CAL_DONE : Evt := ⟨.pgrp, 23, 0x1308, 0, .none, .none, .none, .none⟩
def PDIE.E_VAP_DROOP : Evt := ⟨.pdie, 8, 0x1020, 2, .reg 0x44, .none, .none, .none⟩
def PDIE.E_SUPPLY_LOST : Evt := ⟨.pdie, 9, 0x1021, 2, .reg 0x40, .reg 0x44, .none, .none⟩
def PDIE.E_SUPPLY_BACK : Evt := ⟨.pdie, 10, 0x1022, 0, .reg 0x40, .reg 0x44, .none, .none⟩
def PDIE.E_TEMP_WARN : Evt := ⟨.pdie, 11, 0x1023, 1, .reg 0x40, .none, .none, .none⟩
def PDIE.E_TEMP_FAULT : Evt := ⟨.pdie, 12, 0x1024, 2, .reg 0x40, .none, .none, .none⟩
def PDIE.E_REFIN_LOST : Evt := ⟨.pdie, 13, 0x1025, 1, .none, .none, .none, .none⟩
def PDIE.E_REFIN_FOUND : Evt := ⟨.pdie, 14, 0x1026, 0, .none, .none, .none, .none⟩
def PDIE.E_REF_FAULT : Evt := ⟨.pdie, 16, 0x1320, 2, .reg 0x80, .none, .none, .none⟩
def PDIE.E_REF_OK : Evt := ⟨.pdie, 17, 0x1321, 0, .reg 0x80, .none, .none, .none⟩
def PDIE.E_TONE_FAULT : Evt := ⟨.pdie, 18, 0x1322, 1, .reg 0x84, .none, .none, .none⟩
def TREG.E_COL_FAIL : Evt := ⟨.treg, 8, 0x2001, 2, .reg 0x244, .none, .none, .none⟩
def TREG.E_SPARE_TAKEN : Evt := ⟨.treg, 9, 0x2002, 1, .reg 0x44, .none, .none, .none⟩
def TREG.E_NO_SPARE_COL : Evt := ⟨.treg, 10, 0x2003, 2, .reg 0x44, .none, .none, .none⟩
def TREG.E_TILE_UE : Evt := ⟨.treg, 11, 0x2004, 2, .none, .none, .none, .none⟩
def TREG.E_EXC_STUCK : Evt := ⟨.treg, 12, 0x2005, 1, .none, .none, .none, .none⟩
def TREG.E_SAT : Evt := ⟨.treg, 13, 0x2006, 0, .none, .none, .none, .none⟩
def TREG.E_LEN_APPLIED : Evt := ⟨.treg, 14, 0x2007, 0, .none, .none, .none, .none⟩
def TREG.E_DESC_ERR : Evt := ⟨.treg, 15, 0x2008, 1, .none, .none, .none, .none⟩
def TREG.E_PROG_ERR : Evt := ⟨.treg, 16, 0x2010, 1, .none, .none, .none, .none⟩
def TREG.E_SEG_HO : Evt := ⟨.treg, 17, 0x2011, 0, .none, .none, .none, .none⟩
def TREG.E_SEG_HALTED : Evt := ⟨.treg, 18, 0x2012, 0, .none, .none, .none, .none⟩
def CWAY.E_A_DROP : Evt := ⟨.cway, 8, 0x3001, 1, .none, .none, .none, .none⟩
def CWAY.E_LINK_ERR : Evt := ⟨.cway, 9, 0x3002, 1, .none, .none, .none, .none⟩
def FMEM.E_FM_CE : Evt := ⟨.fmem, 8, 0x3010, 0, .reg 0x44, .none, .none, .none⟩
def FMEM.E_FM_UE : Evt := ⟨.fmem, 9, 0x3011, 2, .reg 0x48, .none, .none, .none⟩
def FMEM.E_ROW_HO : Evt := ⟨.fmem, 10, 0x3012, 0, .none, .none, .none, .none⟩
def FMEM.E_NO_SPARE_ROW : Evt := ⟨.fmem, 11, 0x3013, 2, .none, .reg 0x40, .none, .none⟩
def FMEM.E_FMP_OVR : Evt := ⟨.fmem, 12, 0x3014, 1, .reg 0x110, .none, .none, .none⟩
def SCRB.E_PASS_DONE : Evt := ⟨.scrb, 8, 0x3020, 0, .reg 0x60, .none, .none, .none⟩
def SCRB.E_PASS_RESTART : Evt := ⟨.scrb, 9, 0x3021, 1, .none, .none, .none, .none⟩
def LGRP.E_PLL_UNLOCK : Evt := ⟨.lgrp, 8, 0x4001, 2, .reg 0x44, .none, .none, .none⟩
def LGRP.E_PLL_LOCK : Evt := ⟨.lgrp, 9, 0x4002, 0, .reg 0x44, .none, .none, .none⟩
def LGRP.E_MOD_CHANGE : Evt := ⟨.lgrp, 10, 0x4003, 1, .reg 0x4c, .none, .none, .none⟩
def LGRP.E_MOD_FAULT : Evt := ⟨.lgrp, 11, 0x4004, 2, .reg 0x4c, .none, .none, .none⟩
def LANE.E_MARGIN_LOW : Evt := ⟨.lane, 8, 0x4010, 1, .reg 0x4c, .none, .none, .none⟩
def LANE.E_MARGIN_OK : Evt := ⟨.lane, 9, 0x4011, 0, .reg 0x4c, .none, .none, .none⟩
def ETH.E_LINK_UP : Evt := ⟨.eth, 8, 0x4020, 0, .reg 0x44, .none, .none, .none⟩
def ETH.E_LINK_DOWN : Evt := ⟨.eth, 9, 0x4021, 2, .reg 0x44, .none, .none, .none⟩
def ETH.E_AN_FAIL : Evt := ⟨.eth, 10, 0x4022, 1, .reg 0x58, .none, .none, .none⟩
def ETH.E_SURVEY_END : Evt := ⟨.eth, 11, 0x4023, 0, .reg 0x54, .reg 0x58, .none, .none⟩
def ETH.E_PTP_TXTS : Evt := ⟨.eth, 16, 0x4130, 0, .reg 0x20c, .none, .none, .none⟩
def TIME.E_TIME_LOCKED : Evt := ⟨.time, 8, 0x4101, 0, .reg 0x54, .none, .none, .none⟩
def TIME.E_TIME_HOLDOVER : Evt := ⟨.time, 9, 0x4102, 1, .reg 0x54, .none, .none, .none⟩
def TIME.E_TIME_STEPPED : Evt := ⟨.time, 10, 0x4103, 1, .none, .none, .none, .none⟩
def TIME.E_STEP_WANTED : Evt := ⟨.time, 11, 0x4104, 1, .reg 0x54, .none, .none, .none⟩
def MCG.E_MCG_START : Evt := ⟨.mcg, 8, 0x4110, 0, .reg 0x40, .none, .none, .none⟩
def MCG.E_MCG_STOP : Evt := ⟨.mcg, 9, 0x4111, 1, .reg 0x40, .none, .none, .none⟩
def MEDIA.E_PKT_LOST : Evt := ⟨.media, 8, 0x4120, 1, .none, .none, .none, .none⟩
def MEDIA.E_PATH_DOWN : Evt := ⟨.media, 9, 0x4121, 1, .none, .none, .none, .none⟩
def MEDIA.E_PATH_UP : Evt := ⟨.media, 10, 0x4122, 0, .none, .none, .none, .none⟩
def MEDIA.E_TX_MISS : Evt := ⟨.media, 11, 0x4123, 1, .none, .none, .none, .none⟩
def MEDIA.E_TX_POISON : Evt := ⟨.media, 12, 0x4124, 1, .none, .none, .none, .none⟩
def FREG.E_TAP_CONFLICT : Evt := ⟨.freg, 8, 0x5001, 2, .reg 0x54, .none, .none, .none⟩
def FREG.E_BRAM_UE : Evt := ⟨.freg, 9, 0x5002, 2, .reg 0xd0, .none, .none, .none⟩
def FREG.E_BRAM_CE : Evt := ⟨.freg, 10, 0x5003, 0, .none, .none, .none, .none⟩
def FREG.E_OSC_RANGE : Evt := ⟨.freg, 11, 0x5004, 1, .reg 0xc4, .none, .none, .none⟩
def FREG.E_USTORE_ERR : Evt := ⟨.freg, 12, 0x5005, 1, .none, .none, .none, .none⟩
def FREG.E_WALK_STALE : Evt := ⟨.freg, 13, 0x5006, 1, .none, .none, .none, .none⟩
def LDR.E_LOAD_DONE : Evt := ⟨.ldr, 8, 0x5101, 0, .reg 0x4c, .reg 0x50, .none, .none⟩
def LDR.E_LOAD_FAIL : Evt := ⟨.ldr, 9, 0x5102, 2, .reg 0x4c, .none, .none, .none⟩
def LDR.E_BARE : Evt := ⟨.ldr, 10, 0x5103, 2, .reg 0x4c, .abs 0x9040, .none, .none⟩
def LDR.E_REL_MISS : Evt := ⟨.ldr, 11, 0x5104, 1, .none, .none, .none, .none⟩
def LDR.E_REGION_HO : Evt := ⟨.ldr, 12, 0x5105, 0, .none, .none, .none, .none⟩
def LDR.E_VERIFY_FAIL : Evt := ⟨.ldr, 13, 0x5106, 2, .reg 0xcc, .none, .none, .none⟩
def LDR.E_BUF_WRITE : Evt := ⟨.ldr, 14, 0x5107, 1, .none, .none, .none, .none⟩
def STORE.E_SLOT_WRITTEN : Evt := ⟨.store, 8, 0x5110, 0, .none, .none, .none, .none⟩
def STORE.E_SLOT_BAD : Evt := ⟨.store, 9, 0x5111, 1, .none, .none, .none, .none⟩
def STORE.E_SECTOR_RETIRED : Evt := ⟨.store, 10, 0x5112, 1, .none, .reg 0x68, .none, .none⟩
def STORE.E_SPARE_LOW : Evt := ⟨.store, 11, 0x5113, 1, .reg 0x68, .none, .none, .none⟩
def STORE.E_SPARE_OUT : Evt := ⟨.store, 12, 0x5114, 2, .reg 0x68, .none, .none, .none⟩
def IOB.E_PIN_IGNORED : Evt := ⟨.iob, 8, 0x6001, 0, .none, .none, .none, .none⟩
def IOB.E_PIN_BLOCKED : Evt := ⟨.iob, 9, 0x6002, 1, .none, .none, .none, .none⟩
def IOB.E_VIO_LOST : Evt := ⟨.iob, 10, 0x6003, 2, .reg 0x44, .none, .none, .none⟩
def IOB.E_VIO_BACK : Evt := ⟨.iob, 11, 0x6004, 0, .reg 0x44, .none, .none, .none⟩
def AES3.E_AES_LOCK : Evt := ⟨.aes3, 8, 0x6010, 0, .reg 0x44, .none, .none, .none⟩
def AES3.E_AES_UNLOCK : Evt := ⟨.aes3, 9, 0x6011, 1, .reg 0x44, .none, .none, .none⟩
def AES3.E_AES_SLIP : Evt := ⟨.aes3, 10, 0x6012, 1, .reg 0xc0, .none, .none, .none⟩
def LTC.E_LTC_LOST : Evt := ⟨.ltc, 8, 0x6020, 1, .reg 0x44, .none, .none, .none⟩
def PCIE.E_PCIE_LINK_DOWN : Evt := ⟨.pcie, 8, 0x7001, 1, .reg 0x40, .none, .none, .none⟩
def PCIE.E_PCIE_LINK_UP : Evt := ⟨.pcie, 9, 0x7002, 0, .reg 0x40, .none, .none, .none⟩
def PCIE.E_PCIE_DEGRADED : Evt := ⟨.pcie, 10, 0x7003, 1, .reg 0x40, .none, .none, .none⟩
def PCIE.E_HOST_RESET : Evt := ⟨.pcie, 11, 0x7004, 0, .none, .none, .none, .none⟩
def PCIE.E_DMA_ERR : Evt := ⟨.pcie, 12, 0x7005, 1, .none, .none, .none, .none⟩
def BLK.E_BLK_SYNC : Evt := ⟨.blk, 8, 0x7010, 0, .reg 0x40, .none, .none, .none⟩
def BLK.E_BLK_LOST : Evt := ⟨.blk, 9, 0x7011, 1, .reg 0x40, .none, .none, .none⟩
def SLV.E_SLV_ERR : Evt := ⟨.slv, 8, 0x7020, 1, .none, .none, .none, .none⟩
def AUTH.E_CMD_DONE : Evt := ⟨.auth, 8, 0x8001, 0, .none, .none, .none, .none⟩
def AUTH.E_CMD_REFUSED : Evt := ⟨.auth, 9, 0x8002, 1, .none, .none, .none, .none⟩
def SEC.E_TAMPER : Evt := ⟨.sec, 8, 0x8003, 3, .reg 0xa4, .none, .none, .none⟩
def SEC.E_FUSE_DONE : Evt := ⟨.sec, 9, 0x8004, 1, .none, .reg 0x40, .none, .none⟩
def SEC.E_FUSE_FAIL : Evt := ⟨.sec, 10, 0x8005, 2, .none, .reg 0x40, .none, .none⟩
def SEC.E_DEBUG_UNLOCKED : Evt := ⟨.sec, 11, 0x8006, 1, .none, .none, .none, .none⟩
def SEC.E_ATT_DONE : Evt := ⟨.sec, 12, 0x8007, 0, .reg 0xb4, .none, .none, .none⟩
def SEC.E_BOOT_FALLBACK : Evt := ⟨.sec, 13, 0x8008, 2, .reg 0x48, .none, .none, .none⟩
def SEC.E_ARC_LOW : Evt := ⟨.sec, 14, 0x8009, 1, .reg 0x40, .none, .none, .none⟩
def PWR.E_RAIL_LOST : Evt := ⟨.pwr, 8, 0x9001, 2, .reg 0x40, .none, .none, .none⟩
def PWR.E_RAIL_BACK : Evt := ⟨.pwr, 9, 0x9002, 0, .reg 0x40, .none, .none, .none⟩
def PWR.E_PFAIL : Evt := ⟨.pwr, 10, 0x9003, 3, .reg 0x40, .none, .none, .none⟩
def PWR.E_PFAIL_END : Evt := ⟨.pwr, 11, 0x9004, 0, .reg 0x40, .none, .none, .none⟩
def PWR.E_AUDIO_READY : Evt := ⟨.pwr, 12, 0x9005, 0, .reg 0x40, .none, .none, .none⟩
def PWR.E_RESTART : Evt := ⟨.pwr, 13, 0x9006, 1, .reg 0x44, .none, .none, .none⟩
def CLK.E_PLL_FAILOVER : Evt := ⟨.clk, 8, 0x9010, 1, .none, .none, .none, .none⟩
def CLK.E_PLL_NO_SPARE : Evt := ⟨.clk, 9, 0x9011, 2, .none, .none, .none, .none⟩
def CLK.E_PLL_RESTORED : Evt := ⟨.clk, 10, 0x9012, 0, .none, .none, .none, .none⟩
def CLK.E_XIN_LOST : Evt := ⟨.clk, 11, 0x9013, 2, .reg 0x40, .none, .none, .none⟩
def CLK.E_XIN_BACK : Evt := ⟨.clk, 12, 0x9014, 0, .reg 0x40, .none, .none, .none⟩
def MON.E_THERM_WARN : Evt := ⟨.mon, 8, 0x9020, 1, .reg 0xa0, .none, .none, .none⟩
def MON.E_THERM_FAULT : Evt := ⟨.mon, 9, 0x9021, 2, .reg 0xa0, .none, .none, .none⟩
def MON.E_THERM_OK : Evt := ⟨.mon, 10, 0x9022, 0, .reg 0xa0, .none, .none, .none⟩
def MON.E_AGE_WARN : Evt := ⟨.mon, 11, 0xA010, 1, .none, .none, .none, .none⟩
def MON.E_LIFE_WARN : Evt := ⟨.mon, 12, 0xA011, 1, .reg 0x124, .none, .none, .none⟩
def SVC.E_HEALTH_CHANGE : Evt := ⟨.svc, 8, 0xA001, 1, .reg 0x40, .none, .none, .none⟩
def SRV.E_FW_HO : Evt := ⟨.srv, 8, 0xA002, 0, .none, .none, .none, .none⟩

/-- The block events of a page class. -/
def Cls.evts : Cls → List Evt
  | .sys => []
  | .pwr => [PWR.E_RAIL_LOST, PWR.E_RAIL_BACK, PWR.E_PFAIL, PWR.E_PFAIL_END, PWR.E_AUDIO_READY, PWR.E_RESTART]
  | .clk => [CLK.E_PLL_FAILOVER, CLK.E_PLL_NO_SPARE, CLK.E_PLL_RESTORED, CLK.E_XIN_LOST, CLK.E_XIN_BACK]
  | .mst => [MST.E_SLOT_APPLIED, MST.E_SLOT_REFUSED, MST.E_SLOT_EXPIRED, MST.E_SLOT_CANCELLED]
  | .chk => []
  | .ntc => []
  | .sec => [SEC.E_TAMPER, SEC.E_FUSE_DONE, SEC.E_FUSE_FAIL, SEC.E_DEBUG_UNLOCKED, SEC.E_ATT_DONE, SEC.E_BOOT_FALLBACK, SEC.E_ARC_LOW]
  | .auth => [AUTH.E_CMD_DONE, AUTH.E_CMD_REFUSED]
  | .ldr => [LDR.E_LOAD_DONE, LDR.E_LOAD_FAIL, LDR.E_BARE, LDR.E_REL_MISS, LDR.E_REGION_HO, LDR.E_VERIFY_FAIL, LDR.E_BUF_WRITE]
  | .store => [STORE.E_SLOT_WRITTEN, STORE.E_SLOT_BAD, STORE.E_SECTOR_RETIRED, STORE.E_SPARE_LOW, STORE.E_SPARE_OUT]
  | .svc => [SVC.E_HEALTH_CHANGE]
  | .mon => [MON.E_THERM_WARN, MON.E_THERM_FAULT, MON.E_THERM_OK, MON.E_AGE_WARN, MON.E_LIFE_WARN]
  | .pcie => [PCIE.E_PCIE_LINK_DOWN, PCIE.E_PCIE_LINK_UP, PCIE.E_PCIE_DEGRADED, PCIE.E_HOST_RESET, PCIE.E_DMA_ERR]
  | .blk => [BLK.E_BLK_SYNC, BLK.E_BLK_LOST]
  | .slv => [SLV.E_SLV_ERR]
  | .time => [TIME.E_TIME_LOCKED, TIME.E_TIME_HOLDOVER, TIME.E_TIME_STEPPED, TIME.E_STEP_WANTED]
  | .mcg => [MCG.E_MCG_START, MCG.E_MCG_STOP]
  | .srv => [SRV.E_FW_HO]
  | .scrb => [SCRB.E_PASS_DONE, SCRB.E_PASS_RESTART]
  | .pdie => [PDIE.E_VAP_DROOP, PDIE.E_SUPPLY_LOST, PDIE.E_SUPPLY_BACK, PDIE.E_TEMP_WARN, PDIE.E_TEMP_FAULT, PDIE.E_REFIN_LOST, PDIE.E_REFIN_FOUND, PDIE.E_REF_FAULT, PDIE.E_REF_OK, PDIE.E_TONE_FAULT]
  | .pgrp => [PGRP.E_CLK_UNLOCK, PGRP.E_CLK_LOCK, PGRP.E_PHASE_ALIGN, PGRP.E_HO_END, PGRP.E_SPARE_LOST, PGRP.E_SPARE_BACK, PGRP.E_SLICE_SUSPECT, PGRP.E_SLICE_RETIRED, PGRP.E_SLICE_FAIL, PGRP.E_CAL_STALE, PGRP.E_CAL_DONE]
  | .port => [PORT.E_PORT_FAULT, PORT.E_PORT_RECOVER, PORT.E_DC_ON, PORT.E_DC_OFF, PORT.E_SURVEY_END, PORT.E_SURVEY_REFUSED, PORT.E_THR_A_RISE, PORT.E_THR_A_FALL, PORT.E_THR_B_RISE, PORT.E_THR_B_FALL, PORT.E_CLIP, PORT.E_SWAP_DONE, PORT.E_SWAP_DEFERRED, PORT.E_FINE_REACHED, PORT.E_OUT_LIVE, PORT.E_SPAN_DONE, PORT.E_DEV_WARN, PORT.E_OUT_FAULT, PORT.E_LOAD_CHANGE, PORT.E_PF_MUTE, PORT.E_UNDERRUN, PORT.E_LSV_END]
  | .treg => [TREG.E_COL_FAIL, TREG.E_SPARE_TAKEN, TREG.E_NO_SPARE_COL, TREG.E_TILE_UE, TREG.E_EXC_STUCK, TREG.E_SAT, TREG.E_LEN_APPLIED, TREG.E_DESC_ERR, TREG.E_PROG_ERR, TREG.E_SEG_HO, TREG.E_SEG_HALTED]
  | .freg => [FREG.E_TAP_CONFLICT, FREG.E_BRAM_UE, FREG.E_BRAM_CE, FREG.E_OSC_RANGE, FREG.E_USTORE_ERR, FREG.E_WALK_STALE]
  | .keep => [FREG.E_USTORE_ERR]
  | .cway => [CWAY.E_A_DROP, CWAY.E_LINK_ERR]
  | .router => []
  | .fmem => [FMEM.E_FM_CE, FMEM.E_FM_UE, FMEM.E_ROW_HO, FMEM.E_NO_SPARE_ROW, FMEM.E_FMP_OVR]
  | .lgrp => [LGRP.E_PLL_UNLOCK, LGRP.E_PLL_LOCK, LGRP.E_MOD_CHANGE, LGRP.E_MOD_FAULT]
  | .lane => [LANE.E_MARGIN_LOW, LANE.E_MARGIN_OK]
  | .eth => [ETH.E_LINK_UP, ETH.E_LINK_DOWN, ETH.E_AN_FAIL, ETH.E_SURVEY_END, ETH.E_PTP_TXTS]
  | .media => [MEDIA.E_PKT_LOST, MEDIA.E_PATH_DOWN, MEDIA.E_PATH_UP, MEDIA.E_TX_MISS, MEDIA.E_TX_POISON]
  | .iob => [IOB.E_PIN_IGNORED, IOB.E_PIN_BLOCKED, IOB.E_VIO_LOST, IOB.E_VIO_BACK]
  | .uart => []
  | .spi => []
  | .i2c => []
  | .aes3 => [AES3.E_AES_LOCK, AES3.E_AES_UNLOCK, AES3.E_AES_SLIP]
  | .ltc => [LTC.E_LTC_LOST]
  | .wclk => []

end Sys2Proof.Machine
end

