-- ==== Sys2Proof/Machine/Fields.lean ====
section
/-! DEFINITION. The places of the register fields: one `Fld` per field of the field tables of the spec's
chapters (offset in the page, stride of a register array, top and bottom bit). A field keeps the spec's name;
where two registers of a page share a field name, the register's name stands before it. -/

namespace Sys2Proof.Machine


namespace SYS

def SYS_INFO : Fld := ⟨0x40, 0, 31, 0⟩
def PART : Fld := ⟨0x40, 0, 31, 16⟩
def REV : Fld := ⟨0x40, 0, 15, 8⟩
def PKG : Fld := ⟨0x40, 0, 7, 0⟩
def UPTIME : Fld := ⟨0x44, 0, 31, 0⟩
def UPTIME_EPOCH : Fld := ⟨0x48, 0, 31, 0⟩

end SYS

namespace PWR

def PWR_STAT : Fld := ⟨0x40, 0, 31, 0⟩
def SUP_RUN : Fld := ⟨0x40, 0, 31, 31⟩
def PERS_DONE : Fld := ⟨0x40, 0, 30, 30⟩
def CAL_DONE : Fld := ⟨0x40, 0, 29, 29⟩
def AUDIO_READY : Fld := ⟨0x40, 0, 28, 28⟩
def PFAIL : Fld := ⟨0x40, 0, 27, 27⟩
def RAIL_OK : Fld := ⟨0x40, 0, 6, 0⟩
def RESET_CAUSE : Fld := ⟨0x44, 0, 31, 0⟩
def CAUSE : Fld := ⟨0x44, 0, 3, 0⟩
def DARK_CTL : Fld := ⟨0x48, 0, 31, 0⟩
def ENTER : Fld := ⟨0x48, 0, 0, 0⟩
def PWR_EST : Fld := ⟨0x4c, 0, 31, 0⟩
def VALID : Fld := ⟨0x4c, 0, 31, 31⟩
def POWER : Fld := ⟨0x4c, 0, 15, 0⟩
def PFAIL_CNT : Fld := ⟨0x60, 0, 31, 0⟩
def RAIL_LOSS_CNT : Fld := ⟨0x64, 0, 31, 0⟩
def RESTART_CNT : Fld := ⟨0x68, 0, 31, 0⟩

end PWR

namespace CLK

def XIN_STAT : Fld := ⟨0x40, 0, 31, 0⟩
def XIN_OK : Fld := ⟨0x40, 0, 31, 31⟩
def HOLD : Fld := ⟨0x40, 0, 30, 30⟩
def KHZ : Fld := ⟨0x40, 0, 15, 0⟩
def FAILOVER_CNT : Fld := ⟨0x60, 0, 31, 0⟩
def XIN_LOST_CNT : Fld := ⟨0x64, 0, 31, 0⟩
def PAIR_CFG : Fld := ⟨0x80, 4, 31, 0⟩
def MODE : Fld := ⟨0x80, 4, 1, 1⟩
def ACTIVE : Fld := ⟨0x80, 4, 0, 0⟩
def PAIR_STAT : Fld := ⟨0x90, 4, 31, 0⟩
def PWR : Fld := ⟨0x90, 4, 31, 31⟩
def STANDBY_OK : Fld := ⟨0x90, 4, 30, 30⟩
def IN_USE : Fld := ⟨0x90, 4, 29, 29⟩
def RETIRED : Fld := ⟨0x90, 4, 5, 4⟩
def FAILS_ODD : Fld := ⟨0x90, 4, 3, 2⟩
def FAILS_EVEN : Fld := ⟨0x90, 4, 1, 0⟩
def TILE_DIV : Fld := ⟨0xc0, 4, 31, 0⟩
def DIV : Fld := ⟨0xc0, 4, 1, 0⟩
def GCLK_SRC : Fld := ⟨0x100, 4, 31, 0⟩
def EN : Fld := ⟨0x100, 4, 31, 31⟩
def SRC : Fld := ⟨0x100, 4, 7, 0⟩

end CLK

namespace MST

def MS_CMD : Fld := ⟨0x40, 0x40, 31, 0⟩
def CMD : Fld := ⟨0x40, 0x40, 2, 0⟩
def MS_STAT : Fld := ⟨0x44, 0x40, 31, 0⟩
def TRY_RES : Fld := ⟨0x44, 0x40, 17, 16⟩
def VIOL_MORE : Fld := ⟨0x44, 0x40, 15, 15⟩
def VIOL_COUNT : Fld := ⟨0x44, 0x40, 13, 8⟩
def SVC : Fld := ⟨0x44, 0x40, 4, 4⟩
def QUEUED : Fld := ⟨0x44, 0x40, 3, 3⟩
def STATE : Fld := ⟨0x44, 0x40, 2, 0⟩
def MS_TRIG : Fld := ⟨0x48, 0x40, 31, 0⟩
def FLOW : Fld := ⟨0x48, 0x40, 29, 16⟩
def MCG : Fld := ⟨0x48, 0x40, 5, 4⟩
def TYPE : Fld := ⟨0x48, 0x40, 2, 0⟩
def MS_EDGE_K : Fld := ⟨0x4c, 0x40, 31, 0⟩
def K_M1 : Fld := ⟨0x4c, 0x40, 15, 0⟩
def MS_LEAD : Fld := ⟨0x50, 0x40, 31, 0⟩
def LEAD : Fld := ⟨0x50, 0x40, 19, 0⟩
def MS_AT_NS : Fld := ⟨0x54, 0x40, 31, 0⟩
def NS : Fld := ⟨0x54, 0x40, 29, 0⟩
def MS_AT_SEC_LO : Fld := ⟨0x58, 0x40, 31, 0⟩
def MS_AT_SEC_HI : Fld := ⟨0x5c, 0x40, 31, 0⟩
def SEC_HI : Fld := ⟨0x5c, 0x40, 15, 0⟩
def MS_SCOPE_CNT : Fld := ⟨0x60, 0x40, 31, 0⟩
def COUNT : Fld := ⟨0x60, 0x40, 9, 0⟩
def MS_BIND_REQ : Fld := ⟨0x440, 0, 31, 0⟩
def UNBIND : Fld := ⟨0x440, 0, 31, 31⟩
def PAGE : Fld := ⟨0x440, 0, 30, 16⟩
def COUNT_M1 : Fld := ⟨0x440, 0, 15, 8⟩
def SLOT : Fld := ⟨0x440, 0, 3, 0⟩
def MST_RESV : Fld := ⟨0x444, 0, 31, 0⟩
def SVC_SLOTS : Fld := ⟨0x444, 0, 1, 0⟩
def MS_APPLIED_CNT : Fld := ⟨0x448, 0, 31, 0⟩
def MS_REFUSED_CNT : Fld := ⟨0x44c, 0, 31, 0⟩
def MS_EXPIRED_CNT : Fld := ⟨0x450, 0, 31, 0⟩
def MS_CANCEL_CNT : Fld := ⟨0x454, 0, 31, 0⟩

end MST

namespace CHK

def CHK_STAT : Fld := ⟨0x40, 0, 31, 0⟩
def SLOT : Fld := ⟨0x40, 0, 19, 16⟩
def RESULT : Fld := ⟨0x40, 0, 15, 14⟩
def COUNT : Fld := ⟨0x40, 0, 13, 8⟩
def MORE : Fld := ⟨0x40, 0, 7, 7⟩
def TRY : Fld := ⟨0x40, 0, 6, 6⟩
def QUEUE : Fld := ⟨0x40, 0, 4, 0⟩
def CHK_VIOL_CODE : Fld := ⟨0x80, 8, 31, 0⟩
def LATER : Fld := ⟨0x80, 8, 31, 31⟩
def LATER_SLOT : Fld := ⟨0x80, 8, 27, 24⟩
def RULE : Fld := ⟨0x80, 8, 15, 0⟩
def CHK_VIOL_PAGE : Fld := ⟨0x84, 8, 31, 0⟩
def PAGE : Fld := ⟨0x84, 8, 26, 0⟩
def CHK_RUN_CNT : Fld := ⟨0x180, 0, 31, 0⟩
def CHK_FAIL_CNT : Fld := ⟨0x184, 0, 31, 0⟩

end CHK

namespace NTC

def NQ_BASE_LO : Fld := ⟨0x80, 0x40, 31, 0⟩
def BASE : Fld := ⟨0x80, 0x40, 31, 6⟩
def NQ_BASE_HI : Fld := ⟨0x84, 0x40, 31, 0⟩
def NQ_HWB_LO : Fld := ⟨0x88, 0x40, 31, 0⟩
def HWB : Fld := ⟨0x88, 0x40, 31, 2⟩
def NQ_HWB_HI : Fld := ⟨0x8c, 0x40, 31, 0⟩
def NQ_CFG : Fld := ⟨0x90, 0x40, 31, 0⟩
def RING_EN : Fld := ⟨0x90, 0x40, 31, 31⟩
def LOG2 : Fld := ⟨0x90, 0x40, 28, 24⟩
def DEST : Fld := ⟨0x90, 0x40, 17, 16⟩
def VECTOR : Fld := ⟨0x90, 0x40, 5, 0⟩
def NQ_COAL : Fld := ⟨0x94, 0x40, 31, 0⟩
def COAL_US : Fld := ⟨0x94, 0x40, 31, 16⟩
def COAL_CNT : Fld := ⟨0x94, 0x40, 7, 0⟩
def NQ_HEAD : Fld := ⟨0x98, 0x40, 31, 0⟩
def NQ_HEAD_INDEX : Fld := ⟨0x98, 0x40, 15, 0⟩
def NQ_TAIL : Fld := ⟨0x9c, 0x40, 31, 0⟩
def NQ_TAIL_INDEX : Fld := ⟨0x9c, 0x40, 15, 0⟩
def NQ_SEQ : Fld := ⟨0xa0, 0x40, 31, 0⟩
def NQ_LOST_CNT : Fld := ⟨0xa4, 0x40, 31, 0⟩
def NQ_LOST_B_CNT : Fld := ⟨0xa8, 0x40, 31, 0⟩
def NQ_SEQ_EPOCH : Fld := ⟨0xac, 0x40, 31, 0⟩

end NTC

namespace SEC

def SEC_FUSE : Fld := ⟨0x40, 0, 31, 0⟩
def OWNED : Fld := ⟨0x40, 0, 31, 31⟩
def OPK1_SET : Fld := ⟨0x40, 0, 30, 30⟩
def OPK0_REVOKED : Fld := ⟨0x40, 0, 29, 29⟩
def KIMG_F_SET : Fld := ⟨0x40, 0, 28, 28⟩
def PART : Fld := ⟨0x40, 0, 27, 27⟩
def JTAG_OFF : Fld := ⟨0x40, 0, 26, 26⟩
def ENC_REQ : Fld := ⟨0x40, 0, 25, 25⟩
def FW_ARC : Fld := ⟨0x40, 0, 15, 8⟩
def IMG_ARC : Fld := ⟨0x40, 0, 7, 0⟩
def SEC_KEYS : Fld := ⟨0x44, 0, 31, 0⟩
def KCMD_SET : Fld := ⟨0x44, 0, 31, 31⟩
def KIMG_B_SET : Fld := ⟨0x44, 0, 30, 30⟩
def VBAT_OK : Fld := ⟨0x44, 0, 29, 29⟩
def BOOT_STAT : Fld := ⟨0x48, 0, 31, 0⟩
def RECOVERY : Fld := ⟨0x48, 0, 31, 31⟩
def FALLBACK : Fld := ⟨0x48, 0, 30, 30⟩
def BANK : Fld := ⟨0x48, 0, 29, 29⟩
def FAIL1 : Fld := ⟨0x48, 0, 15, 8⟩
def FAIL0 : Fld := ⟨0x48, 0, 7, 0⟩
def FW_VER : Fld := ⟨0x4c, 0, 31, 0⟩
def OPK0_HASH : Fld := ⟨0x50, 4, 31, 0⟩
def OPK1_HASH : Fld := ⟨0x70, 4, 31, 0⟩
def SERIAL_LO : Fld := ⟨0x90, 0, 31, 0⟩
def SERIAL_HI : Fld := ⟨0x94, 0, 31, 0⟩
def TAMPER_CFG : Fld := ⟨0xa0, 0, 31, 0⟩
def EN1 : Fld := ⟨0xa0, 0, 7, 7⟩
def POL1 : Fld := ⟨0xa0, 0, 6, 6⟩
def EN0 : Fld := ⟨0xa0, 0, 5, 5⟩
def POL0 : Fld := ⟨0xa0, 0, 4, 4⟩
def ACT : Fld := ⟨0xa0, 0, 0, 0⟩
def TAMPER_STAT : Fld := ⟨0xa4, 0, 31, 0⟩
def LATCHED : Fld := ⟨0xa4, 0, 31, 31⟩
def WHICH : Fld := ⟨0xa4, 0, 30, 29⟩
def COUNT : Fld := ⟨0xa4, 0, 15, 0⟩
def ATT_CTL : Fld := ⟨0xb0, 0, 31, 0⟩
def GO : Fld := ⟨0xb0, 0, 31, 31⟩
def MODE : Fld := ⟨0xb0, 0, 30, 30⟩
def ADDR : Fld := ⟨0xb0, 0, 27, 0⟩
def ATT_STAT : Fld := ⟨0xb4, 0, 31, 0⟩
def BUSY : Fld := ⟨0xb4, 0, 31, 31⟩
def DONE : Fld := ⟨0xb4, 0, 30, 30⟩
def LEN : Fld := ⟨0xb4, 0, 16, 0⟩
def ATT_NONCE : Fld := ⟨0xc0, 4, 31, 0⟩
def DBG_CHAL : Fld := ⟨0xe0, 4, 31, 0⟩
def DBG_CTL : Fld := ⟨0x100, 0, 31, 0⟩
def NEW_CHAL : Fld := ⟨0x100, 0, 31, 31⟩
def RELOCK : Fld := ⟨0x100, 0, 30, 30⟩
def DBG_STAT : Fld := ⟨0x104, 0, 31, 0⟩
def UNLOCKED : Fld := ⟨0x104, 0, 31, 31⟩
def TAG_FAIL_CNT : Fld := ⟨0x120, 0, 31, 0⟩
def CTR_FAIL_CNT : Fld := ⟨0x124, 0, 31, 0⟩
def ATT_CNT : Fld := ⟨0x128, 0, 31, 0⟩
def CMD_CTR_LO : Fld := ⟨0x140, 8, 31, 0⟩
def CMD_CTR_HI : Fld := ⟨0x144, 8, 31, 0⟩

end SEC

namespace AUTH

def AUTH_CTL : Fld := ⟨0x40, 0x10, 31, 0⟩
def GO : Fld := ⟨0x40, 0x10, 31, 31⟩
def LEN : Fld := ⟨0x40, 0x10, 9, 0⟩
def AUTH_STAT : Fld := ⟨0x44, 0x10, 31, 0⟩
def BUSY : Fld := ⟨0x44, 0x10, 31, 31⟩
def DONE : Fld := ⟨0x44, 0x10, 30, 30⟩
def RES : Fld := ⟨0x44, 0x10, 27, 24⟩
def OPCODE : Fld := ⟨0x44, 0x10, 15, 0⟩
def AUTH_BUF0 : Fld := ⟨0x100, 4, 31, 0⟩
def AUTH_BUF1 : Fld := ⟨0x400, 4, 31, 0⟩

end AUTH

namespace LDR

def LDR_CTL : Fld := ⟨0x40, 0, 31, 0⟩
def LDR_CTL_GO : Fld := ⟨0x40, 0, 31, 31⟩
def ABORT : Fld := ⟨0x40, 0, 30, 30⟩
def VERIFY : Fld := ⟨0x40, 0, 29, 29⟩
def SRC : Fld := ⟨0x40, 0, 25, 24⟩
def LDR_CTL_SLOT : Fld := ⟨0x40, 0, 17, 16⟩
def LDR_BUF : Fld := ⟨0x44, 0, 31, 0⟩
def BUF_BASE : Fld := ⟨0x44, 0, 7, 0⟩
def LDR_SBUF : Fld := ⟨0x48, 0, 31, 0⟩
def SBUF_EN : Fld := ⟨0x48, 0, 31, 31⟩
def SBUF_BASE : Fld := ⟨0x48, 0, 7, 0⟩
def LDR_STAT : Fld := ⟨0x4c, 0, 31, 0⟩
def LDR_STAT_PHASE : Fld := ⟨0x4c, 0, 31, 28⟩
def ERR : Fld := ⟨0x4c, 0, 27, 24⟩
def REL_DONE : Fld := ⟨0x4c, 0, 23, 16⟩
def DETAIL : Fld := ⟨0x4c, 0, 15, 0⟩
def LOAD_VER : Fld := ⟨0x50, 0, 31, 0⟩
def LDR_REL : Fld := ⟨0x60, 4, 31, 0⟩
def VALID : Fld := ⟨0x60, 4, 31, 31⟩
def LDR_REL_SLOT : Fld := ⟨0x60, 4, 3, 0⟩
def HO_CFG : Fld := ⟨0x80, 0, 31, 0⟩
def COMPARE : Fld := ⟨0x80, 0, 31, 16⟩
def HORIZON : Fld := ⟨0x80, 0, 15, 0⟩
def HO_TIME : Fld := ⟨0x84, 0, 31, 0⟩
def DRAIN : Fld := ⟨0x84, 0, 29, 16⟩
def LEAD : Fld := ⟨0x84, 0, 13, 0⟩
def HO_COPY : Fld := ⟨0x88, 0, 31, 0⟩
def HO_STAT : Fld := ⟨0x8c, 0, 31, 0⟩
def OUTCOME : Fld := ⟨0x8c, 0, 31, 28⟩
def ACTIVE : Fld := ⟨0x8c, 0, 27, 27⟩
def HO_STAT_PHASE : Fld := ⟨0x8c, 0, 26, 24⟩
def MISMATCH : Fld := ⟨0x8c, 0, 15, 0⟩
def RB_CTL : Fld := ⟨0xa0, 0, 31, 0⟩
def RB_CTL_GO : Fld := ⟨0xa0, 0, 31, 31⟩
def KIND : Fld := ⟨0xa0, 0, 29, 28⟩
def INDEX : Fld := ⟨0xa0, 0, 20, 16⟩
def CLUSTER : Fld := ⟨0xa0, 0, 8, 0⟩
def LOAD_CNT : Fld := ⟨0xc0, 0, 31, 0⟩
def FAIL_CNT : Fld := ⟨0xc4, 0, 31, 0⟩
def BUF_DROP_CNT : Fld := ⟨0xc8, 0, 31, 0⟩
def RB_MISMATCH_CNT : Fld := ⟨0xcc, 0, 31, 0⟩
def RB_DATA : Fld := ⟨0x400, 4, 31, 0⟩

end LDR

namespace STORE

def BOOT_CFG : Fld := ⟨0x40, 0, 31, 0⟩
def FB_EN : Fld := ⟨0x40, 0, 31, 31⟩
def FALLBACK : Fld := ⟨0x40, 0, 5, 4⟩
def BOOT_SLOT : Fld := ⟨0x40, 0, 2, 0⟩
def SLOT_STAT : Fld := ⟨0x44, 4, 31, 0⟩
def STATE : Fld := ⟨0x44, 4, 31, 30⟩
def SLAVE : Fld := ⟨0x44, 4, 29, 29⟩
def KEEPER : Fld := ⟨0x44, 4, 28, 28⟩
def ARC : Fld := ⟨0x44, 4, 23, 16⟩
def SLOT_VER : Fld := ⟨0x54, 4, 31, 0⟩
def WR_STAT : Fld := ⟨0x64, 0, 31, 0⟩
def ACTIVE : Fld := ⟨0x64, 0, 31, 31⟩
def TARGET : Fld := ⟨0x64, 0, 30, 29⟩
def INDEX : Fld := ⟨0x64, 0, 28, 26⟩
def UNITS : Fld := ⟨0x64, 0, 17, 0⟩
def WEAR_STAT : Fld := ⟨0x68, 0, 31, 0⟩
def SPARE_LEFT : Fld := ⟨0x68, 0, 31, 22⟩
def RETIRED : Fld := ⟨0x68, 0, 21, 12⟩
def WEAR_MAX : Fld := ⟨0x6c, 0, 31, 0⟩
def SLOT_WR_CNT : Fld := ⟨0x80, 0, 31, 0⟩

end STORE

namespace SVC

def SVC_HEALTH : Fld := ⟨0x40, 0, 31, 0⟩
def LEVEL : Fld := ⟨0x40, 0, 31, 30⟩
def GRP_NOSPARE : Fld := ⟨0x40, 0, 25, 21⟩
def TREG_NOSPARE : Fld := ⟨0x40, 0, 20, 16⟩
def FMEM_LOW : Fld := ⟨0x40, 0, 15, 10⟩
def PAIRS_NOSPARE : Fld := ⟨0x40, 0, 9, 7⟩
def LANES_RET : Fld := ⟨0x40, 0, 6, 0⟩

end SVC

namespace MON

def RAIL_MV : Fld := ⟨0x40, 4, 31, 0⟩
def OK : Fld := ⟨0x40, 4, 31, 31⟩
def MV : Fld := ⟨0x40, 4, 15, 0⟩
def VCORE_A : Fld := ⟨0x60, 0, 31, 0⟩
def A : Fld := ⟨0x60, 0, 10, 0⟩
def TEMP : Fld := ⟨0x80, 4, 31, 0⟩
def TEMP_VALID : Fld := ⟨0x80, 4, 31, 31⟩
def TEMP_C : Fld := ⟨0x80, 4, 7, 0⟩
def TEMP_MAX : Fld := ⟨0xa0, 0, 31, 0⟩
def TEMP_MAX_VALID : Fld := ⟨0xa0, 0, 31, 31⟩
def TEMP_MAX_C : Fld := ⟨0xa0, 0, 7, 0⟩
def THERM_CFG : Fld := ⟨0xa4, 0, 31, 0⟩
def FAULT : Fld := ⟨0xa4, 0, 15, 8⟩
def WARN : Fld := ⟨0xa4, 0, 7, 0⟩
def THERM_WARN_CNT : Fld := ⟨0xc0, 0, 31, 0⟩
def THERM_FAULT_CNT : Fld := ⟨0xc4, 0, 31, 0⟩
def AGE_SHIFT : Fld := ⟨0x100, 4, 31, 0⟩
def AGE_SHIFT_VALID : Fld := ⟨0x100, 4, 31, 31⟩
def SHIFT : Fld := ⟨0x100, 4, 15, 0⟩
def AGE_HOURS : Fld := ⟨0x120, 0, 31, 0⟩
def AGE_EQ : Fld := ⟨0x124, 0, 31, 0⟩
def LIFE_CFG : Fld := ⟨0x128, 0, 31, 0⟩
def SHIFT_WARN : Fld := ⟨0x128, 0, 31, 20⟩
def LIFE_HOURS : Fld := ⟨0x128, 0, 19, 0⟩

end MON

namespace PCIE

def PCIE_STAT : Fld := ⟨0x40, 0, 31, 0⟩
def LINK_UP : Fld := ⟨0x40, 0, 31, 31⟩
def GEN : Fld := ⟨0x40, 0, 27, 24⟩
def WIDTH : Fld := ⟨0x40, 0, 19, 16⟩
def PCIE_CTL : Fld := ⟨0x44, 0, 31, 0⟩
def HOST_RESET_SCOPE : Fld := ⟨0x44, 0, 1, 0⟩
def PERST_CNT : Fld := ⟨0x60, 0, 31, 0⟩
def FLR_CNT : Fld := ⟨0x64, 0, 31, 0⟩
def AER_CE_CNT : Fld := ⟨0x68, 0, 31, 0⟩
def AER_UE_CNT : Fld := ⟨0x6c, 0, 31, 0⟩
def LINK_DOWN_CNT : Fld := ⟨0x70, 0, 31, 0⟩

end PCIE

namespace BLK

def BLK_STAT : Fld := ⟨0x40, 0, 31, 0⟩
def SYNC : Fld := ⟨0x40, 0, 31, 31⟩
def BAUD : Fld := ⟨0x40, 0, 24, 0⟩
def BLK_CFG : Fld := ⟨0x44, 0, 31, 0⟩
def WINDOW : Fld := ⟨0x44, 0, 23, 16⟩
def IN_FLIGHT : Fld := ⟨0x44, 0, 15, 8⟩
def RETX_MS : Fld := ⟨0x44, 0, 7, 0⟩
def CRC_ERR_CNT : Fld := ⟨0x60, 0, 31, 0⟩
def NAK_TX_CNT : Fld := ⟨0x64, 0, 31, 0⟩
def NAK_RX_CNT : Fld := ⟨0x68, 0, 31, 0⟩
def RESEND_CNT : Fld := ⟨0x6c, 0, 31, 0⟩

end BLK

namespace SLV

def SLV_CFG : Fld := ⟨0x40, 0, 31, 0⟩
def SSP_EN : Fld := ⟨0x40, 0, 31, 31⟩
def SSP_QUAD : Fld := ⟨0x40, 0, 30, 30⟩
def PSP_EN : Fld := ⟨0x40, 0, 29, 29⟩
def SLV_STAT : Fld := ⟨0x44, 0, 31, 0⟩
def SSP_BUSY : Fld := ⟨0x44, 0, 31, 31⟩
def PSP_BUSY : Fld := ⟨0x44, 0, 30, 30⟩
def PSP_ERR : Fld := ⟨0x44, 0, 1, 1⟩
def SSP_ERR : Fld := ⟨0x44, 0, 0, 0⟩
def SSP_ERR_CNT : Fld := ⟨0x60, 0, 31, 0⟩
def PSP_ERR_CNT : Fld := ⟨0x64, 0, 31, 0⟩

end SLV

namespace TIME

def TIME_NS : Fld := ⟨0x40, 0, 31, 0⟩
def TIME_NS_NS : Fld := ⟨0x40, 0, 29, 0⟩
def TIME_SEC_LO : Fld := ⟨0x44, 0, 31, 0⟩
def TIME_SEC_HI : Fld := ⟨0x48, 0, 31, 0⟩
def TIME_SEC_HI_FRAC : Fld := ⟨0x48, 0, 31, 16⟩
def TIME_SEC_HI_SEC_HI : Fld := ⟨0x48, 0, 15, 0⟩
def TIME_SRC : Fld := ⟨0x4c, 0, 31, 0⟩
def MEAS_TMO : Fld := ⟨0x4c, 0, 31, 16⟩
def REF_MCG : Fld := ⟨0x4c, 0, 11, 10⟩
def REFIN : Fld := ⟨0x4c, 0, 8, 6⟩
def SRC : Fld := ⟨0x4c, 0, 1, 0⟩
def TIME_SERVO : Fld := ⟨0x50, 0, 31, 0⟩
def SLEW_MAX : Fld := ⟨0x50, 0, 31, 16⟩
def STEP_THR : Fld := ⟨0x50, 0, 15, 0⟩
def TIME_STAT : Fld := ⟨0x54, 0, 31, 0⟩
def STATE : Fld := ⟨0x54, 0, 31, 30⟩
def STEP_WANT : Fld := ⟨0x54, 0, 29, 29⟩
def OFFSET : Fld := ⟨0x54, 0, 27, 0⟩
def SRV_OFS : Fld := ⟨0x58, 0, 31, 0⟩
def SRV_PUSH : Fld := ⟨0x5c, 0, 31, 0⟩
def GO : Fld := ⟨0x5c, 0, 31, 31⟩
def SRV_PUSH_FRAC : Fld := ⟨0x5c, 0, 15, 0⟩
def TIME_SET_NS : Fld := ⟨0x60, 0, 31, 0⟩
def TIME_SET_NS_NS : Fld := ⟨0x60, 0, 29, 0⟩
def TIME_SET_SEC_LO : Fld := ⟨0x64, 0, 31, 0⟩
def TIME_SET_SEC_HI : Fld := ⟨0x68, 0, 31, 0⟩
def TIME_SET_SEC_HI_SEC_HI : Fld := ⟨0x68, 0, 15, 0⟩
def TIME_CMD : Fld := ⟨0x6c, 0, 31, 0⟩
def REACQUIRE : Fld := ⟨0x6c, 0, 1, 1⟩
def SET : Fld := ⟨0x6c, 0, 0, 0⟩
def STEP_CNT : Fld := ⟨0x80, 0, 31, 0⟩
def HOLDOVER_CNT : Fld := ⟨0x84, 0, 31, 0⟩
def MEAS_CNT : Fld := ⟨0x88, 0, 31, 0⟩

end TIME

namespace MCG

def MCG_CFG : Fld := ⟨0x40, 0, 31, 0⟩
def VLINES : Fld := ⟨0x40, 0, 28, 16⟩
def VRATE : Fld := ⟨0x40, 0, 7, 4⟩
def FAMILY : Fld := ⟨0x40, 0, 0, 0⟩
def MCG_STAT : Fld := ⟨0x44, 0, 31, 0⟩
def RUNNING : Fld := ⟨0x44, 0, 31, 31⟩
def MCG_COUNT : Fld := ⟨0x48, 0, 31, 0⟩
def MCG_EPOCH : Fld := ⟨0x4c, 0, 31, 0⟩

end MCG

namespace SRV

def FW_CHG : Fld := ⟨0x40, 0, 31, 0⟩
def GO : Fld := ⟨0x40, 0, 31, 31⟩
def ABORT : Fld := ⟨0x40, 0, 30, 30⟩
def TOL : Fld := ⟨0x40, 0, 25, 16⟩
def OVERLAP : Fld := ⟨0x40, 0, 15, 0⟩
def FW_STAT : Fld := ⟨0x44, 0, 31, 0⟩
def OUTCOME : Fld := ⟨0x44, 0, 31, 28⟩
def ACTIVE : Fld := ⟨0x44, 0, 27, 27⟩
def PHASE : Fld := ⟨0x44, 0, 26, 24⟩
def RUN_BANK : Fld := ⟨0x44, 0, 23, 23⟩
def ACT_BANK : Fld := ⟨0x44, 0, 22, 22⟩
def FAIL : Fld := ⟨0x44, 0, 19, 16⟩
def DIFF : Fld := ⟨0x44, 0, 15, 0⟩
def FW_LEAD : Fld := ⟨0x48, 0, 31, 0⟩
def LEAD : Fld := ⟨0x48, 0, 13, 0⟩

end SRV

namespace SCRB

def SCRB_CFG : Fld := ⟨0x40, 0, 31, 0⟩
def EN : Fld := ⟨0x40, 0, 31, 31⟩
def AUTO_RPR : Fld := ⟨0x40, 0, 30, 30⟩
def RPR_THR : Fld := ⟨0x40, 0, 19, 16⟩
def PASS_MIN : Fld := ⟨0x40, 0, 10, 0⟩
def SCRB_POS : Fld := ⟨0x44, 0, 31, 0⟩
def BANK : Fld := ⟨0x44, 0, 31, 27⟩
def ROW : Fld := ⟨0x44, 0, 25, 13⟩
def WORD : Fld := ⟨0x44, 0, 6, 0⟩
def PASS_CNT : Fld := ⟨0x60, 0, 31, 0⟩
def SCRB_CE_CNT : Fld := ⟨0x64, 0, 31, 0⟩
def SCRB_UE_CNT : Fld := ⟨0x68, 0, 31, 0⟩
def WB_SKIP_CNT : Fld := ⟨0x6c, 0, 31, 0⟩
def RESTART_CNT : Fld := ⟨0x70, 0, 31, 0⟩
def VOTE_FIX_CNT : Fld := ⟨0x74, 0, 31, 0⟩

end SCRB

namespace PDIE

def DIE_STAT : Fld := ⟨0x40, 0, 31, 0⟩
def VAP_OK : Fld := ⟨0x40, 0, 31, 31⟩
def VAPL_OK : Fld := ⟨0x40, 0, 30, 30⟩
def DROOP : Fld := ⟨0x40, 0, 29, 29⟩
def TEMP : Fld := ⟨0x40, 0, 15, 8⟩
def DIE_SUPPLY : Fld := ⟨0x44, 0, 31, 0⟩
def VAPL_MV : Fld := ⟨0x44, 0, 31, 16⟩
def VAP_MV : Fld := ⟨0x44, 0, 15, 0⟩
def TEMP_WARN : Fld := ⟨0x48, 0, 31, 0⟩
def WARN : Fld := ⟨0x48, 0, 7, 0⟩
def REFIN_CFG : Fld := ⟨0x50, 4, 31, 0⟩
def KIND : Fld := ⟨0x50, 4, 5, 4⟩
def TERM : Fld := ⟨0x50, 4, 0, 0⟩
def REFIN_STAT : Fld := ⟨0x58, 4, 31, 0⟩
def PRESENT : Fld := ⟨0x58, 4, 31, 31⟩
def AMPL_MV : Fld := ⟨0x58, 4, 15, 0⟩
def CAL_REF : Fld := ⟨0x80, 0, 31, 0⟩
def REF_OK : Fld := ⟨0x80, 0, 31, 31⟩
def REF_DEV : Fld := ⟨0x80, 0, 15, 0⟩
def CAL_TONE : Fld := ⟨0x84, 0, 31, 0⟩
def TONE_OK : Fld := ⟨0x84, 0, 31, 31⟩
def TONE_THD : Fld := ⟨0x84, 0, 10, 0⟩

end PDIE

namespace PGRP

def GRP_CLK : Fld := ⟨0x40, 0, 31, 0⟩
def MCG : Fld := ⟨0x40, 0, 5, 4⟩
def FAMILY : Fld := ⟨0x40, 0, 0, 0⟩
def GRP_STAT : Fld := ⟨0x44, 0, 31, 0⟩
def LOCKED : Fld := ⟨0x44, 0, 31, 31⟩
def DEMAND : Fld := ⟨0x44, 0, 20, 16⟩
def LAYBY : Fld := ⟨0x44, 0, 11, 8⟩
def HEALTHY : Fld := ⟨0x44, 0, 3, 0⟩
def SLICE_MAP : Fld := ⟨0x48, 4, 31, 0⟩
def SLICE_MAP_PORT : Fld := ⟨0x48, 4, 11, 8⟩
def STATE : Fld := ⟨0x48, 4, 3, 0⟩
def UNLOCK_CNT : Fld := ⟨0x70, 0, 31, 0⟩
def CAP_ALIGN : Fld := ⟨0x80, 0, 31, 0⟩
def ROT_CTL : Fld := ⟨0x100, 0, 31, 0⟩
def FREEZE : Fld := ⟨0x100, 0, 31, 31⟩
def ROT_PERIOD : Fld := ⟨0x100, 0, 12, 0⟩
def HO_CFG : Fld := ⟨0x104, 0, 31, 0⟩
def XFADE_IN : Fld := ⟨0x104, 0, 28, 16⟩
def HANDOVER_TOL : Fld := ⟨0x104, 0, 10, 0⟩
def HO_OUT_CFG : Fld := ⟨0x108, 0, 31, 0⟩
def XFADE_OUT : Fld := ⟨0x108, 0, 12, 0⟩
def HO_ARM : Fld := ⟨0x10c, 0, 31, 0⟩
def DEFER_MAX : Fld := ⟨0x10c, 0, 25, 16⟩
def ARM_LEAD : Fld := ⟨0x10c, 0, 12, 0⟩
def CAL_AGE_MAX : Fld := ⟨0x110, 0, 31, 0⟩
def AGE_MAX : Fld := ⟨0x110, 0, 15, 0⟩
def HO_REQ : Fld := ⟨0x114, 0, 31, 0⟩
def GO : Fld := ⟨0x114, 0, 8, 8⟩
def HO_REQ_PORT : Fld := ⟨0x114, 0, 3, 0⟩
def ROT_STAT : Fld := ⟨0x118, 0, 31, 0⟩
def FROZEN : Fld := ⟨0x118, 0, 31, 31⟩
def NO_SPARE : Fld := ⟨0x118, 0, 30, 30⟩
def REF_HOLD : Fld := ⟨0x118, 0, 29, 29⟩
def DEFERRED : Fld := ⟨0x118, 0, 28, 28⟩
def PHASE : Fld := ⟨0x118, 0, 26, 24⟩
def ROT_STAT_KIND : Fld := ⟨0x118, 0, 23, 20⟩
def ROT_STAT_PORT : Fld := ⟨0x118, 0, 19, 16⟩
def OLD : Fld := ⟨0x118, 0, 15, 12⟩
def NEW : Fld := ⟨0x118, 0, 11, 8⟩
def HO_CMP : Fld := ⟨0x11c, 0, 31, 0⟩
def RESULT : Fld := ⟨0x11c, 0, 31, 30⟩
def HO_CMP_KIND : Fld := ⟨0x11c, 0, 29, 28⟩
def MEASURE : Fld := ⟨0x11c, 0, 15, 0⟩
def SLICE_CAL : Fld := ⟨0x140, 4, 31, 0⟩
def SUSPECTS : Fld := ⟨0x140, 4, 31, 30⟩
def CAL_VALID : Fld := ⟨0x140, 4, 29, 29⟩
def STEP : Fld := ⟨0x140, 4, 23, 20⟩
def AGE : Fld := ⟨0x140, 4, 19, 0⟩
def SLICE_TRIM_ADC : Fld := ⟨0x180, 8, 31, 0⟩
def SLICE_TRIM_ADC_OFFSET : Fld := ⟨0x180, 8, 31, 16⟩
def SLICE_TRIM_ADC_GAIN : Fld := ⟨0x180, 8, 15, 0⟩
def SLICE_TRIM_DAC : Fld := ⟨0x184, 8, 31, 0⟩
def SLICE_TRIM_DAC_OFFSET : Fld := ⟨0x184, 8, 31, 16⟩
def SLICE_TRIM_DAC_GAIN : Fld := ⟨0x184, 8, 15, 0⟩
def HO_DONE_CNT : Fld := ⟨0x1e0, 0, 31, 0⟩
def HO_ABORT_CNT : Fld := ⟨0x1e4, 0, 31, 0⟩
def REPAIR_CNT : Fld := ⟨0x1e8, 0, 31, 0⟩
def SUSPECT_CNT : Fld := ⟨0x1ec, 0, 31, 0⟩
def CAL_CNT : Fld := ⟨0x1f0, 0, 31, 0⟩

end PGRP

namespace PORT

def CAP_CTL : Fld := ⟨0x40, 0, 31, 0⟩
def FIR_LAT : Fld := ⟨0x40, 0, 21, 16⟩
def ACT_BANK : Fld := ⟨0x40, 0, 8, 8⟩
def FINE_ONLY : Fld := ⟨0x40, 0, 4, 4⟩
def PRESET : Fld := ⟨0x40, 0, 2, 0⟩
def CAP_FIR_CTL : Fld := ⟨0x44, 0, 31, 0⟩
def RD_BANK : Fld := ⟨0x44, 0, 8, 8⟩
def FORCE : Fld := ⟨0x44, 0, 0, 0⟩
def CAP_STAT : Fld := ⟨0x48, 0, 31, 0⟩
def SWAP_PENDING : Fld := ⟨0x48, 0, 31, 31⟩
def XFADE : Fld := ⟨0x48, 0, 30, 30⟩
def BANK_IN_USE : Fld := ⟨0x48, 0, 29, 29⟩
def LAT_TOT : Fld := ⟨0x48, 0, 22, 16⟩
def TAG : Fld := ⟨0x48, 0, 9, 8⟩
def FINE_VALID : Fld := ⟨0x48, 0, 0, 0⟩
def CAP_T0_NS : Fld := ⟨0x4c, 0, 31, 0⟩
def CAP_T0_NS_NS : Fld := ⟨0x4c, 0, 29, 0⟩
def CAP_T0_SEC_LO : Fld := ⟨0x50, 0, 31, 0⟩
def CAP_T0_SEC_HI : Fld := ⟨0x54, 0, 31, 0⟩
def SEC_HI : Fld := ⟨0x54, 0, 15, 0⟩
def SWAP_TS_NS : Fld := ⟨0x58, 0, 31, 0⟩
def SWAP_TS_NS_NS : Fld := ⟨0x58, 0, 29, 0⟩
def SWAP_TS_SEC_LO : Fld := ⟨0x5c, 0, 31, 0⟩
def THR_CFG : Fld := ⟨0x60, 8, 31, 0⟩
def EN : Fld := ⟨0x60, 8, 31, 31⟩
def PATH : Fld := ⟨0x60, 8, 30, 30⟩
def GATE_EN : Fld := ⟨0x60, 8, 29, 29⟩
def HYST : Fld := ⟨0x60, 8, 26, 19⟩
def GATE_LINE : Fld := ⟨0x60, 8, 18, 11⟩
def LEVEL : Fld := ⟨0x60, 8, 10, 0⟩
def THR_HOLD : Fld := ⟨0x64, 8, 31, 0⟩
def THR_HOLD_HOLD : Fld := ⟨0x64, 8, 15, 0⟩
def THR_STAT : Fld := ⟨0x70, 0, 31, 0⟩
def B_ABOVE : Fld := ⟨0x70, 0, 1, 1⟩
def A_ABOVE : Fld := ⟨0x70, 0, 0, 0⟩
def CAP_PEAK : Fld := ⟨0x74, 0, 31, 0⟩
def PEAK : Fld := ⟨0x74, 0, 23, 0⟩
def WORD_CNT : Fld := ⟨0x78, 0, 31, 0⟩
def WORD_EPOCH : Fld := ⟨0x7c, 0, 31, 0⟩
def CLIP_CNT : Fld := ⟨0x80, 0, 31, 0⟩
def THR_A_CNT : Fld := ⟨0x84, 0, 31, 0⟩
def THR_B_CNT : Fld := ⟨0x88, 0, 31, 0⟩
def COARSE_CNT : Fld := ⟨0x8c, 0, 31, 0⟩
def SWAP_CNT : Fld := ⟨0x90, 0, 31, 0⟩
def FIR_COEF : Fld := ⟨0x100, 4, 31, 0⟩
def COEF : Fld := ⟨0x100, 4, 23, 0⟩
def OUT_CTL : Fld := ⟨0x200, 0, 31, 0⟩
def STOP_RAMP : Fld := ⟨0x200, 0, 13, 13⟩
def UNMUTE_FINE : Fld := ⟨0x200, 0, 12, 12⟩
def OUT_PRESET : Fld := ⟨0x200, 0, 10, 8⟩
def SPAN : Fld := ⟨0x200, 0, 5, 4⟩
def OUT_MODE : Fld := ⟨0x200, 0, 1, 0⟩
def OUT_SRC : Fld := ⟨0x204, 0, 31, 0⟩
def SRC_CH : Fld := ⟨0x204, 0, 21, 16⟩
def SRC_FLOW : Fld := ⟨0x204, 0, 13, 0⟩
def OUT_RAMP : Fld := ⟨0x208, 0, 31, 0⟩
def RAMP_TIME : Fld := ⟨0x208, 0, 8, 0⟩
def OUT_DEV : Fld := ⟨0x20c, 0, 31, 0⟩
def DEV_PERSIST : Fld := ⟨0x20c, 0, 31, 28⟩
def DEV_FAULT : Fld := ⟨0x20c, 0, 26, 16⟩
def DEV_WARN : Fld := ⟨0x20c, 0, 10, 0⟩
def OUT_STAT : Fld := ⟨0x210, 0, 31, 0⟩
def PHASE : Fld := ⟨0x210, 0, 30, 28⟩
def CLAMP : Fld := ⟨0x210, 0, 27, 27⟩
def PF_MUTE : Fld := ⟨0x210, 0, 26, 26⟩
def MODE_USE : Fld := ⟨0x210, 0, 25, 24⟩
def SPAN_USE : Fld := ⟨0x210, 0, 23, 22⟩
def LAT_OUT : Fld := ⟨0x210, 0, 21, 16⟩
def GAIN : Fld := ⟨0x210, 0, 15, 0⟩
def DEV_STAT : Fld := ⟨0x214, 0, 31, 0⟩
def WARN : Fld := ⟨0x214, 0, 31, 31⟩
def SUSP : Fld := ⟨0x214, 0, 30, 30⟩
def DEV : Fld := ⟨0x214, 0, 10, 0⟩
def LOAD_CFG : Fld := ⟨0x218, 0, 31, 0⟩
def CPM : Fld := ⟨0x218, 0, 9, 0⟩
def LOAD_R : Fld := ⟨0x21c, 0, 31, 0⟩
def LOAD_R_VALID : Fld := ⟨0x21c, 0, 31, 31⟩
def LOAD_R_R : Fld := ⟨0x21c, 0, 19, 0⟩
def LOAD_C : Fld := ⟨0x220, 0, 31, 0⟩
def LOAD_C_VALID : Fld := ⟨0x220, 0, 31, 31⟩
def LOAD_C_C : Fld := ⟨0x220, 0, 17, 0⟩
def LOAD_STAT : Fld := ⟨0x224, 0, 31, 0⟩
def FAULT_WHY : Fld := ⟨0x224, 0, 7, 4⟩
def OVERLOAD : Fld := ⟨0x224, 0, 3, 3⟩
def ILIMIT : Fld := ⟨0x224, 0, 2, 2⟩
def SHORT : Fld := ⟨0x224, 0, 1, 1⟩
def OPEN : Fld := ⟨0x224, 0, 0, 0⟩
def LSV_CTL : Fld := ⟨0x228, 0, 31, 0⟩
def LSV_GO : Fld := ⟨0x228, 0, 0, 0⟩
def LSV_RES : Fld := ⟨0x22c, 0, 31, 0⟩
def LSV_RES_STATUS : Fld := ⟨0x22c, 0, 31, 28⟩
def LSV_RES_C : Fld := ⟨0x22c, 0, 17, 0⟩
def LSV_LEN : Fld := ⟨0x230, 0, 31, 0⟩
def R_PAR : Fld := ⟨0x230, 0, 31, 16⟩
def LEN : Fld := ⟨0x230, 0, 15, 0⟩
def UNDERRUN_CNT : Fld := ⟨0x240, 0, 31, 0⟩
def DEV_WARN_CNT : Fld := ⟨0x244, 0, 31, 0⟩
def MUTE_CNT : Fld := ⟨0x248, 0, 31, 0⟩
def PF_MUTE_CNT : Fld := ⟨0x24c, 0, 31, 0⟩
def SPAN_CNT : Fld := ⟨0x250, 0, 31, 0⟩
def CELL_CTL : Fld := ⟨0x300, 0, 31, 0⟩
def RUN : Fld := ⟨0x300, 0, 12, 12⟩
def DIR : Fld := ⟨0x300, 0, 8, 8⟩
def SURVEY_GO : Fld := ⟨0x300, 0, 4, 4⟩
def IN_MODE : Fld := ⟨0x300, 0, 2, 0⟩
def CELL_GAIN : Fld := ⟨0x304, 0, 31, 0⟩
def GLIDE : Fld := ⟨0x304, 0, 8, 8⟩
def PGA : Fld := ⟨0x304, 0, 7, 0⟩
def CM_CFG : Fld := ⟨0x308, 0, 31, 0⟩
def SENSE_R : Fld := ⟨0x308, 0, 31, 24⟩
def CM_CFG_HOLD : Fld := ⟨0x308, 0, 15, 8⟩
def THR : Fld := ⟨0x308, 0, 5, 0⟩
def CM_STAT : Fld := ⟨0x30c, 0, 31, 0⟩
def DC_PRESENT : Fld := ⟨0x30c, 0, 31, 31⟩
def EXT_DC : Fld := ⟨0x30c, 0, 30, 20⟩
def EXT_NEG : Fld := ⟨0x30c, 0, 19, 19⟩
def CM_MV : Fld := ⟨0x30c, 0, 15, 0⟩
def SURVEY_RES : Fld := ⟨0x310, 0, 31, 0⟩
def SURVEY_RES_STATUS : Fld := ⟨0x310, 0, 31, 28⟩
def SURVEY_RES_R : Fld := ⟨0x310, 0, 19, 0⟩
def SURVEY_X : Fld := ⟨0x314, 0, 31, 0⟩
def X : Fld := ⟨0x314, 0, 23, 0⟩
def CELL_STAT : Fld := ⟨0x318, 0, 31, 0⟩
def FAULT_CAUSE : Fld := ⟨0x318, 0, 31, 28⟩
def NET : Fld := ⟨0x318, 0, 14, 12⟩
def SLICE_B : Fld := ⟨0x318, 0, 11, 8⟩
def SLICE_A : Fld := ⟨0x318, 0, 3, 0⟩
def FAULT_CNT : Fld := ⟨0x31c, 0, 31, 0⟩
def DC_CHG_CNT : Fld := ⟨0x320, 0, 31, 0⟩

end PORT

namespace TREG

def REG_CFG : Fld := ⟨0x40, 0, 31, 0⟩
def AUTODOZE_EN : Fld := ⟨0x40, 0, 0, 0⟩
def REG_STAT : Fld := ⟨0x44, 0, 31, 0⟩
def DOZING : Fld := ⟨0x44, 0, 31, 31⟩
def SPARE_STATE : Fld := ⟨0x44, 0, 30, 29⟩
def SPARE_FOR : Fld := ⟨0x44, 0, 28, 25⟩
def RETIRED : Fld := ⟨0x44, 0, 20, 4⟩
def COL_CTL : Fld := ⟨0x80, 4, 31, 0⟩
def BEXP_MASK : Fld := ⟨0x80, 4, 31, 16⟩
def GUARD : Fld := ⟨0x80, 4, 10, 8⟩
def RUN : Fld := ⟨0x80, 4, 0, 0⟩
def COL_STAT : Fld := ⟨0xc0, 4, 31, 0⟩
def STATE : Fld := ⟨0xc0, 4, 31, 29⟩
def PHYS : Fld := ⟨0xc0, 4, 28, 24⟩
def MERGE_WAIT : Fld := ⟨0xc0, 4, 23, 23⟩
def BSH : Fld := ⟨0xc0, 4, 13, 8⟩
def CBEXP : Fld := ⟨0xc0, 4, 4, 0⟩
def COL_CBSH : Fld := ⟨0x100, 4, 31, 0⟩
def CBSH : Fld := ⟨0x100, 4, 15, 0⟩
def LEN_CHG : Fld := ⟨0x140, 8, 31, 0⟩
def VALID : Fld := ⟨0x140, 8, 31, 31⟩
def LEN_CHG_TILE : Fld := ⟨0x140, 8, 15, 8⟩
def PTR : Fld := ⟨0x140, 8, 2, 0⟩
def LEN_CHG_LEN : Fld := ⟨0x144, 8, 31, 0⟩
def LEN : Fld := ⟨0x144, 8, 11, 0⟩
def SAT_CNT : Fld := ⟨0x200, 0, 31, 0⟩
def STUCK_CNT : Fld := ⟨0x204, 0, 31, 0⟩
def CE_CNT : Fld := ⟨0x208, 0, 31, 0⟩
def UE_CNT : Fld := ⟨0x20c, 0, 31, 0⟩
def UNWR_CNT : Fld := ⟨0x210, 0, 31, 0⟩
def DOZE_CNT : Fld := ⟨0x214, 0, 31, 0⟩
def LEN_CNT : Fld := ⟨0x218, 0, 31, 0⟩
def MOVE_CNT : Fld := ⟨0x21c, 0, 31, 0⟩
def PERR_CNT : Fld := ⟨0x220, 0, 31, 0⟩
def TW_REFUSE : Fld := ⟨0x240, 0, 31, 0⟩
def CAUSE : Fld := ⟨0x240, 0, 31, 28⟩
def TW_REFUSE_TILE : Fld := ⟨0x240, 0, 21, 14⟩
def TW_REFUSE_OFFSET : Fld := ⟨0x240, 0, 13, 0⟩
def FAIL_INFO : Fld := ⟨0x244, 0, 31, 0⟩
def DETECTOR : Fld := ⟨0x244, 0, 31, 28⟩
def LOC : Fld := ⟨0x244, 0, 12, 0⟩
def SPARE_ADDR : Fld := ⟨0x280, 0, 31, 0⟩
def ROW : Fld := ⟨0x280, 0, 17, 14⟩
def SPARE_ADDR_OFFSET : Fld := ⟨0x280, 0, 13, 0⟩
def SPARE_DATA : Fld := ⟨0x284, 0, 31, 0⟩
def MOVE_CTL : Fld := ⟨0x300, 0, 31, 0⟩
def GO : Fld := ⟨0x300, 0, 31, 31⟩
def ABORT : Fld := ⟨0x300, 0, 30, 30⟩
def KIND : Fld := ⟨0x300, 0, 29, 28⟩
def SRC_COL : Fld := ⟨0x300, 0, 27, 24⟩
def NCOL_M1 : Fld := ⟨0x300, 0, 23, 20⟩
def DST_REG : Fld := ⟨0x300, 0, 19, 16⟩
def DST_COL : Fld := ⟨0x300, 0, 15, 12⟩
def COPY_EN : Fld := ⟨0x300, 0, 0, 0⟩
def MOVE_HZN : Fld := ⟨0x304, 0, 31, 0⟩
def COMPARE : Fld := ⟨0x304, 0, 31, 16⟩
def HORIZON : Fld := ⟨0x304, 0, 15, 0⟩
def MOVE_COPY : Fld := ⟨0x308, 0, 31, 0⟩
def REGS : Fld := ⟨0x308, 0, 31, 31⟩
def COPY_LEN : Fld := ⟨0x308, 0, 27, 16⟩
def COPY_BASE : Fld := ⟨0x308, 0, 10, 0⟩
def MOVE_LEAD : Fld := ⟨0x30c, 0, 31, 0⟩
def LEAD : Fld := ⟨0x30c, 0, 13, 0⟩
def MOVE_STAT : Fld := ⟨0x310, 0, 31, 0⟩
def OUTCOME : Fld := ⟨0x310, 0, 31, 28⟩
def ACTIVE : Fld := ⟨0x310, 0, 27, 27⟩
def PHASE : Fld := ⟨0x310, 0, 26, 24⟩
def PENDING : Fld := ⟨0x310, 0, 23, 23⟩
def MISMATCH : Fld := ⟨0x310, 0, 15, 0⟩
def COL_LAT : Fld := ⟨0x340, 4, 31, 0⟩
def LAT : Fld := ⟨0x340, 4, 23, 0⟩

end TREG

namespace FREG

def REG_CLK : Fld := ⟨0x40, 4, 31, 0⟩
def REG_CLK_EN : Fld := ⟨0x40, 4, 31, 31⟩
def SRC : Fld := ⟨0x40, 4, 7, 0⟩
def FREG_STAT : Fld := ⟨0x50, 0, 31, 0⟩
def TAP_LOST_ANY : Fld := ⟨0x50, 0, 31, 31⟩
def WALK_STALE : Fld := ⟨0x50, 0, 30, 30⟩
def CLK_RUN : Fld := ⟨0x50, 0, 11, 8⟩
def TRUNK_CONFLICT : Fld := ⟨0x54, 0, 31, 0⟩
def TRUNK_CONFLICT_VALID : Fld := ⟨0x54, 0, 31, 31⟩
def TRUNK : Fld := ⟨0x54, 0, 27, 16⟩
def WIN_TAP : Fld := ⟨0x54, 0, 14, 12⟩
def LOST_TAP : Fld := ⟨0x54, 0, 10, 8⟩
def TAP_CTL : Fld := ⟨0x58, 0, 31, 0⟩
def TAP_REARM : Fld := ⟨0x58, 0, 0, 0⟩
def USTORE_WIN : Fld := ⟨0x60, 0, 31, 0⟩
def USTORE_WIN_EN : Fld := ⟨0x60, 0, 31, 31⟩
def SIZE_M1 : Fld := ⟨0x60, 0, 21, 16⟩
def BASE : Fld := ⟨0x60, 0, 5, 0⟩
def GATE_DRV_LO : Fld := ⟨0x68, 0, 31, 0⟩
def GATE_DRV_HI : Fld := ⟨0x6c, 0, 31, 0⟩
def FPORT_CFG : Fld := ⟨0x80, 8, 31, 0⟩
def FPORT_CFG_EN : Fld := ⟨0x80, 8, 31, 31⟩
def MODE : Fld := ⟨0x80, 8, 30, 29⟩
def CLK : Fld := ⟨0x80, 8, 28, 27⟩
def NCH_M1 : Fld := ⟨0x80, 8, 26, 21⟩
def CH : Fld := ⟨0x80, 8, 20, 15⟩
def FLOW : Fld := ⟨0x80, 8, 13, 0⟩
def FPORT_STAT : Fld := ⟨0x84, 8, 31, 0⟩
def IN_LVL : Fld := ⟨0x84, 8, 21, 16⟩
def OUT_LVL : Fld := ⟨0x84, 8, 13, 8⟩
def OUTST : Fld := ⟨0x84, 8, 4, 0⟩
def OSC_CFG : Fld := ⟨0xc0, 0, 31, 0⟩
def OSC_CFG_EN : Fld := ⟨0xc0, 0, 31, 31⟩
def FREQ : Fld := ⟨0xc0, 0, 9, 0⟩
def OSC_MEAS : Fld := ⟨0xc4, 0, 31, 0⟩
def OSC_MEAS_VALID : Fld := ⟨0xc4, 0, 31, 31⟩
def KHZ : Fld := ⟨0xc4, 0, 19, 0⟩
def BRAM_UE_ADDR : Fld := ⟨0xd0, 0, 31, 0⟩
def BRAM_UE_ADDR_VALID : Fld := ⟨0xd0, 0, 31, 31⟩
def BLOCK : Fld := ⟨0xd0, 0, 20, 16⟩
def WORD : Fld := ⟨0xd0, 0, 8, 0⟩
def BRAM_MODE : Fld := ⟨0xd4, 0, 31, 0⟩
def BRAM_CE_CNT : Fld := ⟨0xe0, 0, 31, 0⟩
def BRAM_UE_CNT : Fld := ⟨0xe4, 0, 31, 0⟩
def TAP_LOST_CNT : Fld := ⟨0xe8, 0, 31, 0⟩
def USTORE_ERR_CNT : Fld := ⟨0xec, 0, 31, 0⟩
def TAP_LOST : Fld := ⟨0x100, 4, 31, 0⟩
def ISO_CTL : Fld := ⟨0x200, 0, 31, 0⟩
def RELEASE : Fld := ⟨0x200, 0, 0, 0⟩
def ISO_STAT : Fld := ⟨0x204, 0, 31, 0⟩
def STATE : Fld := ⟨0x204, 0, 31, 29⟩
def GROUP : Fld := ⟨0x204, 0, 26, 24⟩
def REGION_VER : Fld := ⟨0x208, 0, 31, 0⟩

end FREG

namespace CWAY

def CW_WEIGHT : Fld := ⟨0x40, 0, 31, 0⟩
def W_V : Fld := ⟨0x40, 0, 11, 8⟩
def W_C : Fld := ⟨0x40, 0, 7, 4⟩
def W_B : Fld := ⟨0x40, 0, 3, 0⟩
def FLOW_SEL : Fld := ⟨0x44, 0, 31, 0⟩
def FLOW_SEL_FLOW : Fld := ⟨0x44, 0, 13, 0⟩
def FLOW_ROUTE : Fld := ⟨0x48, 0, 31, 0⟩
def VALID : Fld := ⟨0x48, 0, 31, 31⟩
def CLASS : Fld := ⟨0x48, 0, 30, 29⟩
def NCH_M1 : Fld := ⟨0x48, 0, 28, 23⟩
def RATE : Fld := ⟨0x48, 0, 19, 0⟩
def FLOW_USE : Fld := ⟨0x4c, 0, 31, 0⟩
def CONS : Fld := ⟨0x4c, 0, 31, 24⟩
def PROD : Fld := ⟨0x4c, 0, 23, 16⟩
def A_LOAD : Fld := ⟨0x4c, 0, 15, 0⟩
def A_LOAD_MAX : Fld := ⟨0x50, 0, 31, 0⟩
def LINK : Fld := ⟨0x50, 0, 31, 29⟩
def ROUTER : Fld := ⟨0x50, 0, 28, 23⟩
def LOAD : Fld := ⟨0x50, 0, 16, 0⟩
def A_DROP_CNT : Fld := ⟨0x60, 0, 31, 0⟩
def STALE_CNT : Fld := ⟨0x64, 0, 31, 0⟩
def PORT_FLOW : Fld := ⟨0x400, 4, 31, 0⟩
def CH : Fld := ⟨0x400, 4, 21, 16⟩
def PORT_FLOW_FLOW : Fld := ⟨0x400, 4, 13, 0⟩

end CWAY

namespace ROUTER

def RT_LOAD : Fld := ⟨0x40, 4, 31, 0⟩
def A_RES : Fld := ⟨0x40, 4, 31, 16⟩
def UTIL : Fld := ⟨0x40, 4, 15, 0⟩
def RT_LINK_ERR : Fld := ⟨0x60, 0, 31, 0⟩

end ROUTER

namespace FMEM

def FM_STAT : Fld := ⟨0x40, 0, 31, 0⟩
def SPARE_USED : Fld := ⟨0x40, 0, 31, 25⟩
def SPARE_BAD : Fld := ⟨0x40, 0, 24, 18⟩
def RPR_BUSY : Fld := ⟨0x40, 0, 0, 0⟩
def ECC_CE_ADDR : Fld := ⟨0x44, 0, 31, 0⟩
def ECC_CE_ADDR_VALID : Fld := ⟨0x44, 0, 31, 31⟩
def ECC_CE_ADDR_ADDR : Fld := ⟨0x44, 0, 27, 3⟩
def ECC_UE_ADDR : Fld := ⟨0x48, 0, 31, 0⟩
def ECC_UE_ADDR_VALID : Fld := ⟨0x48, 0, 31, 31⟩
def ECC_UE_ADDR_ADDR : Fld := ⟨0x48, 0, 27, 3⟩
def RPR_CTL : Fld := ⟨0x4c, 0, 31, 0⟩
def GO : Fld := ⟨0x4c, 0, 31, 31⟩
def ABORT : Fld := ⟨0x4c, 0, 30, 30⟩
def RPR_CTL_ROW : Fld := ⟨0x4c, 0, 12, 0⟩
def RPR_STAT : Fld := ⟨0x50, 0, 31, 0⟩
def OUTCOME : Fld := ⟨0x50, 0, 31, 28⟩
def ACTIVE : Fld := ⟨0x50, 0, 27, 27⟩
def PHASE : Fld := ⟨0x50, 0, 26, 24⟩
def RPR_STAT_ROW : Fld := ⟨0x50, 0, 12, 0⟩
def RPR_LEAD : Fld := ⟨0x54, 0, 31, 0⟩
def LEAD : Fld := ⟨0x54, 0, 13, 0⟩
def CE_CNT : Fld := ⟨0x60, 0, 31, 0⟩
def UE_CNT : Fld := ⟨0x64, 0, 31, 0⟩
def RPR_CNT : Fld := ⟨0x68, 0, 31, 0⟩
def FMP_OVR_CNT : Fld := ⟨0x6c, 0, 31, 0⟩
def FMP_CFG : Fld := ⟨0x100, 0, 31, 0⟩
def EN : Fld := ⟨0x100, 0, 31, 31⟩
def DIR : Fld := ⟨0x100, 0, 30, 30⟩
def NCH_M1 : Fld := ⟨0x100, 0, 29, 24⟩
def CH : Fld := ⟨0x100, 0, 21, 16⟩
def FLOW : Fld := ⟨0x100, 0, 13, 0⟩
def FMP_BASE : Fld := ⟨0x104, 0, 31, 0⟩
def BASE : Fld := ⟨0x104, 0, 17, 0⟩
def FMP_SIZE : Fld := ⟨0x108, 0, 31, 0⟩
def NBUF_M1 : Fld := ⟨0x108, 0, 31, 29⟩
def BUF_KIB : Fld := ⟨0x108, 0, 17, 0⟩
def FMP_TSADD : Fld := ⟨0x10c, 0, 31, 0⟩
def TS_ADD : Fld := ⟨0x10c, 0, 29, 0⟩
def FMP_STAT : Fld := ⟨0x110, 0, 31, 0⟩
def BUF : Fld := ⟨0x110, 0, 31, 29⟩
def READY : Fld := ⟨0x110, 0, 28, 26⟩

end FMEM

namespace LGRP

def LG_CFG : Fld := ⟨0x40, 0, 31, 0⟩
def PLL_RATE : Fld := ⟨0x40, 0, 29, 8⟩
def LAYOUT_HI : Fld := ⟨0x40, 0, 7, 4⟩
def LAYOUT_LO : Fld := ⟨0x40, 0, 3, 0⟩
def LG_STAT : Fld := ⟨0x44, 0, 31, 0⟩
def LOCKED : Fld := ⟨0x44, 0, 31, 31⟩
def REF_OK : Fld := ⟨0x44, 0, 30, 30⟩
def F_USE : Fld := ⟨0x44, 0, 21, 0⟩
def MOD_CFG : Fld := ⟨0x48, 0, 31, 0⟩
def MGMT_EN : Fld := ⟨0x48, 0, 31, 31⟩
def I2C : Fld := ⟨0x48, 0, 25, 24⟩
def SEL_PIN : Fld := ⟨0x48, 0, 23, 16⟩
def PRS_PIN : Fld := ⟨0x48, 0, 15, 8⟩
def INT_PIN : Fld := ⟨0x48, 0, 7, 0⟩
def MOD_STAT : Fld := ⟨0x4c, 0, 31, 0⟩
def PRESENT : Fld := ⟨0x4c, 0, 31, 31⟩
def MSTATE : Fld := ⟨0x4c, 0, 30, 28⟩
def DPSTATE : Fld := ⟨0x4c, 0, 27, 24⟩
def REV : Fld := ⟨0x4c, 0, 23, 16⟩
def FLAGS : Fld := ⟨0x4c, 0, 15, 0⟩
def MOD_ACC : Fld := ⟨0x50, 0, 31, 0⟩
def GO : Fld := ⟨0x50, 0, 31, 31⟩
def WR : Fld := ⟨0x50, 0, 30, 30⟩
def ERR : Fld := ⟨0x50, 0, 29, 29⟩
def PAGE : Fld := ⟨0x50, 0, 23, 16⟩
def ADDR : Fld := ⟨0x50, 0, 15, 8⟩
def DATA : Fld := ⟨0x50, 0, 7, 0⟩
def PLL_UNLOCK_CNT : Fld := ⟨0x60, 0, 31, 0⟩

end LGRP

namespace LANE

def LN_CFG : Fld := ⟨0x40, 0, 31, 0⟩
def RAW_REG : Fld := ⟨0x40, 0, 20, 16⟩
def RAW_MODE : Fld := ⟨0x40, 0, 13, 12⟩
def DIV : Fld := ⟨0x40, 0, 10, 8⟩
def PRBS : Fld := ⟨0x40, 0, 7, 5⟩
def LOOP : Fld := ⟨0x40, 0, 4, 4⟩
def RX_INV : Fld := ⟨0x40, 0, 3, 3⟩
def TX_INV : Fld := ⟨0x40, 0, 2, 2⟩
def LN_TXEQ : Fld := ⟨0x44, 0, 31, 0⟩
def PRE2 : Fld := ⟨0x44, 0, 31, 24⟩
def PRE1 : Fld := ⟨0x44, 0, 23, 16⟩
def MAIN : Fld := ⟨0x44, 0, 15, 8⟩
def POST1 : Fld := ⟨0x44, 0, 7, 0⟩
def LN_ADAPT : Fld := ⟨0x48, 0, 31, 0⟩
def FREEZE : Fld := ⟨0x48, 0, 31, 31⟩
def MRG_THR : Fld := ⟨0x48, 0, 7, 0⟩
def LN_STAT : Fld := ⟨0x4c, 0, 31, 0⟩
def SIG_DET : Fld := ⟨0x4c, 0, 31, 31⟩
def CDR_LOCK : Fld := ⟨0x4c, 0, 30, 30⟩
def ADAPT : Fld := ⟨0x4c, 0, 29, 28⟩
def PRBS_LOCK : Fld := ⟨0x4c, 0, 27, 27⟩
def MARGIN : Fld := ⟨0x4c, 0, 15, 0⟩
def LN_SV : Fld := ⟨0x50, 0, 31, 0⟩
def IL_VALID : Fld := ⟨0x50, 0, 31, 31⟩
def IL_SRC : Fld := ⟨0x50, 0, 30, 30⟩
def IL : Fld := ⟨0x50, 0, 25, 16⟩
def LEN : Fld := ⟨0x50, 0, 11, 0⟩
def LN_CTL : Fld := ⟨0x58, 0, 31, 0⟩
def RETIRE : Fld := ⟨0x58, 0, 0, 0⟩
def LN_REFL : Fld := ⟨0x60, 4, 31, 0⟩
def DIST : Fld := ⟨0x60, 4, 31, 16⟩
def RL : Fld := ⟨0x60, 4, 15, 0⟩
def PRBS_ERR : Fld := ⟨0x80, 0, 31, 0⟩
def CDR_LOSS_CNT : Fld := ⟨0x88, 0, 31, 0⟩

end LANE

namespace ETH

def ETH_CFG : Fld := ⟨0x40, 0, 31, 0⟩
def MTU : Fld := ⟨0x40, 0, 29, 16⟩
def PMD : Fld := ⟨0x40, 0, 9, 8⟩
def FEC : Fld := ⟨0x40, 0, 5, 4⟩
def AUTO_RETRAIN : Fld := ⟨0x40, 0, 3, 3⟩
def TRAIN_EN : Fld := ⟨0x40, 0, 1, 1⟩
def AN_EN : Fld := ⟨0x40, 0, 0, 0⟩
def ETH_STAT : Fld := ⟨0x44, 0, 31, 0⟩
def PCS_LOCK : Fld := ⟨0x44, 0, 31, 31⟩
def FEC_LOCK : Fld := ⟨0x44, 0, 30, 30⟩
def MODE : Fld := ⟨0x44, 0, 15, 12⟩
def DOWN_CAUSE : Fld := ⟨0x44, 0, 11, 8⟩
def STATE : Fld := ⟨0x44, 0, 2, 0⟩
def ETH_CTL : Fld := ⟨0x50, 0, 31, 0⟩
def RETRAIN : Fld := ⟨0x50, 0, 31, 31⟩
def SV_GO : Fld := ⟨0x50, 0, 30, 30⟩
def SV_CLASS : Fld := ⟨0x50, 0, 17, 16⟩
def SV_WAIT : Fld := ⟨0x50, 0, 15, 0⟩
def SV_STAT : Fld := ⟨0x54, 0, 31, 0⟩
def STATUS : Fld := ⟨0x54, 0, 31, 28⟩
def SV_PARTNER : Fld := ⟨0x58, 0, 31, 0⟩
def SV_PARTNER_VALID : Fld := ⟨0x58, 0, 31, 31⟩
def FEC_REQ : Fld := ⟨0x58, 0, 30, 29⟩
def ABILITY : Fld := ⟨0x58, 0, 22, 0⟩
def RX_FRAMES : Fld := ⟨0x100, 0, 31, 0⟩
def RX_OCTETS : Fld := ⟨0x108, 0, 31, 0⟩
def RX_FCS_ERR : Fld := ⟨0x110, 0, 31, 0⟩
def RX_TOO_LONG : Fld := ⟨0x118, 0, 31, 0⟩
def RX_CTRL : Fld := ⟨0x120, 0, 31, 0⟩
def TX_FRAMES : Fld := ⟨0x128, 0, 31, 0⟩
def TX_OCTETS : Fld := ⟨0x130, 0, 31, 0⟩
def FEC_CORR : Fld := ⟨0x138, 0, 31, 0⟩
def FEC_UNCORR : Fld := ⟨0x140, 0, 31, 0⟩
def LINK_DOWN_CNT : Fld := ⟨0x148, 0, 31, 0⟩
def MAC_ADDR_LO : Fld := ⟨0x200, 0, 31, 0⟩
def MAC_ADDR_HI : Fld := ⟨0x204, 0, 31, 0⟩
def MAC_HI : Fld := ⟨0x204, 0, 15, 0⟩
def PTP_CFG : Fld := ⟨0x208, 0, 31, 0⟩
def ASYM : Fld := ⟨0x208, 0, 31, 16⟩
def ONE_STEP : Fld := ⟨0x208, 0, 1, 1⟩
def TS_EN : Fld := ⟨0x208, 0, 0, 0⟩
def TXTS_SEQ : Fld := ⟨0x20c, 0, 31, 0⟩
def TXTS_SEQ_VALID : Fld := ⟨0x20c, 0, 31, 31⟩
def LEVEL : Fld := ⟨0x20c, 0, 20, 16⟩
def SEQ : Fld := ⟨0x20c, 0, 15, 0⟩
def TXTS_NS : Fld := ⟨0x210, 0, 31, 0⟩
def NS : Fld := ⟨0x210, 0, 29, 0⟩
def TXTS_SEC_LO : Fld := ⟨0x214, 0, 31, 0⟩
def TXTS_POP : Fld := ⟨0x218, 0, 31, 0⟩
def POP : Fld := ⟨0x218, 0, 0, 0⟩
def TXTS_OVR_CNT : Fld := ⟨0x220, 0, 31, 0⟩

end ETH

namespace MEDIA

def MEDIA_CFG : Fld := ⟨0x40, 0, 31, 0⟩
def MC_PROMISC : Fld := ⟨0x40, 0, 31, 31⟩
def HOSTQ : Fld := ⟨0x40, 0, 19, 16⟩
def V6_DPFX : Fld := ⟨0x44, 4, 31, 0⟩
def V6_SPFX : Fld := ⟨0x50, 4, 31, 0⟩
def MEDIA_USE : Fld := ⟨0x60, 0, 31, 0⟩
def VQ_RX : Fld := ⟨0x60, 0, 31, 24⟩
def VQ_TX : Fld := ⟨0x60, 0, 23, 16⟩
def AUDIO : Fld := ⟨0x60, 0, 10, 0⟩
def FT_REFUSE : Fld := ⟨0x64, 0, 31, 0⟩
def CAUSE : Fld := ⟨0x64, 0, 31, 28⟩
def FLOW : Fld := ⟨0x64, 0, 17, 4⟩
def WORD : Fld := ⟨0x64, 0, 3, 0⟩
def RX_PKTS : Fld := ⟨0x80, 0, 31, 0⟩
def TX_PKTS : Fld := ⟨0x88, 0, 31, 0⟩
def LOST_CNT : Fld := ⟨0x90, 0, 31, 0⟩
def LATE_CNT : Fld := ⟨0x94, 0, 31, 0⟩
def DUP_CNT : Fld := ⟨0x98, 0, 31, 0⟩
def TX_MISS_CNT : Fld := ⟨0x9c, 0, 31, 0⟩
def POISON_CNT : Fld := ⟨0xa0, 0, 31, 0⟩
def MC_DROP_CNT : Fld := ⟨0xa4, 0, 31, 0⟩

end MEDIA

namespace IOB

def IOB_CTL : Fld := ⟨0x40, 0, 31, 0⟩
def PART_EN : Fld := ⟨0x40, 0, 31, 31⟩
def PRELOAD_STATE : Fld := ⟨0x40, 0, 1, 0⟩
def IOB_STAT : Fld := ⟨0x44, 0, 31, 0⟩
def VIO_OK : Fld := ⟨0x44, 0, 31, 31⟩
def PART : Fld := ⟨0x44, 0, 30, 30⟩
def VIO_MV : Fld := ⟨0x44, 0, 15, 0⟩
def PIN_CFG : Fld := ⟨0x80, 4, 31, 0⟩
def REGION : Fld := ⟨0x80, 4, 29, 24⟩
def SRC_EN : Fld := ⟨0x80, 4, 19, 16⟩
def TERM : Fld := ⟨0x80, 4, 13, 13⟩
def LVDS : Fld := ⟨0x80, 4, 12, 12⟩
def SCHMITT : Fld := ⟨0x80, 4, 11, 11⟩
def PULL_UP : Fld := ⟨0x80, 4, 10, 10⟩
def FAST : Fld := ⟨0x80, 4, 8, 8⟩
def DRIVE : Fld := ⟨0x80, 4, 3, 0⟩
def EVT_SEL : Fld := ⟨0xc0, 4, 31, 0⟩
def SRC : Fld := ⟨0xc0, 4, 8, 0⟩
def OUT_MW : Fld := ⟨0x100, 0, 31, 0⟩
def OUT_MW_MASK : Fld := ⟨0x100, 0, 31, 16⟩
def OUT_MW_VAL : Fld := ⟨0x100, 0, 15, 0⟩
def DIR_MW : Fld := ⟨0x104, 0, 31, 0⟩
def DIR_MW_MASK : Fld := ⟨0x104, 0, 31, 16⟩
def DIR_MW_VAL : Fld := ⟨0x104, 0, 15, 0⟩
def PULL_MW : Fld := ⟨0x108, 0, 31, 0⟩
def PULL_MW_MASK : Fld := ⟨0x108, 0, 31, 16⟩
def PULL_MW_VAL : Fld := ⟨0x108, 0, 15, 0⟩
def IN : Fld := ⟨0x10c, 0, 31, 0⟩
def IN_IN : Fld := ⟨0x10c, 0, 15, 0⟩
def PIN_LOCK : Fld := ⟨0x110, 0, 31, 0⟩
def PIN_LOCK_MASK : Fld := ⟨0x110, 0, 31, 16⟩
def KEY : Fld := ⟨0x110, 0, 15, 0⟩
def LOCK_STAT : Fld := ⟨0x114, 0, 31, 0⟩
def LOCKED : Fld := ⟨0x114, 0, 15, 0⟩
def KCLAIM : Fld := ⟨0x118, 0, 31, 0⟩
def K1 : Fld := ⟨0x118, 0, 31, 16⟩
def K0 : Fld := ⟨0x118, 0, 15, 0⟩
def PIN_OWN : Fld := ⟨0x120, 4, 31, 0⟩
def OWN3 : Fld := ⟨0x120, 4, 29, 24⟩
def OWN2 : Fld := ⟨0x120, 4, 21, 16⟩
def OWN1 : Fld := ⟨0x120, 4, 13, 8⟩
def OWN0 : Fld := ⟨0x120, 4, 5, 0⟩
def PIN_FUNC : Fld := ⟨0x130, 4, 31, 0⟩
def FUNC7 : Fld := ⟨0x130, 4, 31, 28⟩
def FUNC6 : Fld := ⟨0x130, 4, 27, 24⟩
def FUNC5 : Fld := ⟨0x130, 4, 23, 20⟩
def FUNC4 : Fld := ⟨0x130, 4, 19, 16⟩
def FUNC3 : Fld := ⟨0x130, 4, 15, 12⟩
def FUNC2 : Fld := ⟨0x130, 4, 11, 8⟩
def FUNC1 : Fld := ⟨0x130, 4, 7, 4⟩
def FUNC0 : Fld := ⟨0x130, 4, 3, 0⟩
def IGN_CNT : Fld := ⟨0x140, 0, 31, 0⟩
def BLOCK_CNT : Fld := ⟨0x144, 0, 31, 0⟩

end IOB

namespace AES3

def AES_CTL : Fld := ⟨0x40, 0, 31, 0⟩
def DIR : Fld := ⟨0x40, 0, 31, 31⟩
def MCG : Fld := ⟨0x40, 0, 29, 28⟩
def MULT : Fld := ⟨0x40, 0, 27, 26⟩
def CH : Fld := ⟨0x40, 0, 21, 16⟩
def FLOW : Fld := ⟨0x40, 0, 13, 0⟩
def AES_STAT : Fld := ⟨0x44, 0, 31, 0⟩
def LOCK : Fld := ⟨0x44, 0, 31, 31⟩
def PRO : Fld := ⟨0x44, 0, 30, 30⟩
def RATE : Fld := ⟨0x44, 0, 19, 0⟩
def CS_RX : Fld := ⟨0x80, 4, 31, 0⟩
def CS_TX : Fld := ⟨0xa0, 4, 31, 0⟩
def SLIP_CNT : Fld := ⟨0xc0, 0, 31, 0⟩
def PARITY_CNT : Fld := ⟨0xc4, 0, 31, 0⟩

end AES3

namespace LTC

def LTC_CTL : Fld := ⟨0x40, 0, 31, 0⟩
def RD_EN : Fld := ⟨0x40, 0, 31, 31⟩
def GEN_EN : Fld := ⟨0x40, 0, 30, 30⟩
def MCG : Fld := ⟨0x40, 0, 29, 28⟩
def DROP : Fld := ⟨0x40, 0, 27, 27⟩
def LTC_RX : Fld := ⟨0x44, 0, 31, 0⟩
def LTC_RX_UB : Fld := ⟨0x48, 0, 31, 0⟩
def LTC_RX_NS : Fld := ⟨0x4c, 0, 31, 0⟩
def NS : Fld := ⟨0x4c, 0, 29, 0⟩
def LTC_RX_SEC : Fld := ⟨0x50, 0, 31, 0⟩
def LTC_SET : Fld := ⟨0x54, 0, 31, 0⟩

end LTC

namespace WCLK

def WCLK_CTL : Fld := ⟨0x40, 0, 31, 0⟩
def OUT_EN : Fld := ⟨0x40, 0, 31, 31⟩
def IN_EN : Fld := ⟨0x40, 0, 30, 30⟩
def MCG : Fld := ⟨0x40, 0, 29, 28⟩
def MULT : Fld := ⟨0x40, 0, 27, 26⟩
def WCLK_STAT : Fld := ⟨0x44, 0, 31, 0⟩
def PRESENT : Fld := ⟨0x44, 0, 31, 31⟩
def HZ : Fld := ⟨0x44, 0, 19, 0⟩
def WCLK_OFS : Fld := ⟨0x48, 0, 31, 0⟩

end WCLK

namespace SER

def SER_CTL : Fld := ⟨0x40, 0, 31, 0⟩
def ATTACH : Fld := ⟨0x40, 0, 31, 31⟩
def REGION : Fld := ⟨0x40, 0, 29, 24⟩
def NET : Fld := ⟨0x40, 0, 23, 22⟩
def MODE : Fld := ⟨0x40, 0, 21, 20⟩
def SER_DATA : Fld := ⟨0x44, 0, 31, 0⟩
def PRESENT : Fld := ⟨0x44, 0, 8, 8⟩
def DATA : Fld := ⟨0x44, 0, 7, 0⟩
def SER_STAT : Fld := ⟨0x48, 0, 31, 0⟩
def TX_LVL : Fld := ⟨0x48, 0, 12, 8⟩
def RX_LVL : Fld := ⟨0x48, 0, 4, 0⟩
def SER_ADDR : Fld := ⟨0x4c, 0, 31, 0⟩
def ADDR : Fld := ⟨0x4c, 0, 6, 0⟩
def SER_RATE : Fld := ⟨0x50, 0, 31, 0⟩
def RATE : Fld := ⟨0x50, 0, 25, 0⟩

end SER

namespace HDR

def PAGE_ID : Fld := ⟨0, 0, 31, 0⟩
def CLASS : Fld := ⟨0, 0, 31, 24⟩
def INSTANCE : Fld := ⟨0, 0, 23, 12⟩
def VERSION : Fld := ⟨0, 0, 7, 0⟩
def PAGE_CAP : Fld := ⟨4, 0, 31, 0⟩
def HAS_STAGED : Fld := ⟨4, 0, 31, 31⟩
def HAS_CRITICAL : Fld := ⟨4, 0, 30, 30⟩
def PWR_STATES : Fld := ⟨4, 0, 29, 26⟩
def BLOCK_CAP : Fld := ⟨4, 0, 23, 0⟩
def PAGE_CTL : Fld := ⟨8, 0, 31, 0⟩
def PWR_REQ : Fld := ⟨8, 0, 7, 6⟩
def BLK_RST : Fld := ⟨8, 0, 1, 1⟩
def ENABLE : Fld := ⟨8, 0, 0, 0⟩
def PAGE_STAT : Fld := ⟨0xc, 0, 31, 0⟩
def MS_SLOT : Fld := ⟨0xc, 0, 23, 20⟩
def PWR_STATE : Fld := ⟨0xc, 0, 17, 16⟩
def BUSY : Fld := ⟨0xc, 0, 8, 8⟩
def PAGE_STAT_BOUND : Fld := ⟨0xc, 0, 4, 4⟩
def STATE : Fld := ⟨0xc, 0, 3, 0⟩
def EVT_STAT : Fld := ⟨0x10, 0, 31, 0⟩
def EVT_STAT_BLOCK_EVT : Fld := ⟨0x10, 0, 31, 8⟩
def EVT_STAT_MS_MISS : Fld := ⟨0x10, 0, 3, 3⟩
def EVT_STAT_MS_APPLIED : Fld := ⟨0x10, 0, 2, 2⟩
def EVT_STAT_CEIL : Fld := ⟨0x10, 0, 1, 1⟩
def EVT_STAT_WRITE_REFUSED : Fld := ⟨0x10, 0, 0, 0⟩
def EVT_EN : Fld := ⟨0x14, 0, 31, 0⟩
def EVT_EN_BLOCK_EVT : Fld := ⟨0x14, 0, 31, 8⟩
def EVT_EN_MS_MISS : Fld := ⟨0x14, 0, 3, 3⟩
def EVT_EN_MS_APPLIED : Fld := ⟨0x14, 0, 2, 2⟩
def EVT_EN_CEIL : Fld := ⟨0x14, 0, 1, 1⟩
def EVT_EN_WRITE_REFUSED : Fld := ⟨0x14, 0, 0, 0⟩
def EVT_NOTICE : Fld := ⟨0x18, 0, 31, 0⟩
def BLOCK_SEL : Fld := ⟨0x18, 0, 31, 8⟩
def QUEUE : Fld := ⟨0x18, 0, 7, 6⟩
def COMMON_SEL : Fld := ⟨0x18, 0, 3, 0⟩
def EVT_FORCE : Fld := ⟨0x1c, 0, 31, 0⟩
def EVT_FORCE_BLOCK_EVT : Fld := ⟨0x1c, 0, 31, 8⟩
def EVT_FORCE_MS_MISS : Fld := ⟨0x1c, 0, 3, 3⟩
def EVT_FORCE_MS_APPLIED : Fld := ⟨0x1c, 0, 2, 2⟩
def EVT_FORCE_CEIL : Fld := ⟨0x1c, 0, 1, 1⟩
def EVT_FORCE_WRITE_REFUSED : Fld := ⟨0x1c, 0, 0, 0⟩
def SNAP_CTL : Fld := ⟨0x20, 0, 31, 0⟩
def SNAP_CLR : Fld := ⟨0x20, 0, 1, 1⟩
def SNAP : Fld := ⟨0x20, 0, 0, 0⟩
def PAGE_OWNER : Fld := ⟨0x24, 0, 31, 0⟩
def REGION : Fld := ⟨0x24, 0, 12, 8⟩
def OWNER : Fld := ⟨0x24, 0, 2, 0⟩
def PAGE_LOCK : Fld := ⟨0x28, 0, 31, 0⟩
def KEY : Fld := ⟨0x28, 0, 31, 16⟩
def LOCKED : Fld := ⟨0x28, 0, 0, 0⟩
def MS_BIND : Fld := ⟨0x2c, 0, 31, 0⟩
def MS_BIND_BOUND : Fld := ⟨0x2c, 0, 31, 31⟩
def SLOT : Fld := ⟨0x2c, 0, 19, 16⟩
def SLOT_STATE : Fld := ⟨0x2c, 0, 2, 0⟩
def STAGE_DIRTY : Fld := ⟨0x30, 0, 31, 0⟩
def CHECK_RES : Fld := ⟨0x34, 0, 31, 0⟩
def RESULT : Fld := ⟨0x34, 0, 31, 30⟩
def COUNT : Fld := ⟨0x34, 0, 29, 24⟩
def FIRST_RULE : Fld := ⟨0x34, 0, 15, 0⟩
def REFUSE_INFO : Fld := ⟨0x38, 0, 31, 0⟩
def CAUSE : Fld := ⟨0x38, 0, 31, 28⟩
def SOURCE : Fld := ⟨0x38, 0, 26, 24⟩
def OFFSET : Fld := ⟨0x38, 0, 11, 0⟩
def REFUSE_CNT : Fld := ⟨0x3c, 0, 31, 0⟩

end HDR

end Sys2Proof.Machine
end

