-- ==== Sys2Proof/Machine/RegTable.lean ====
section
/-! DEFINITION. The registers of every page class at offsets 0x040 and above, as the field tables of the spec's
chapters give them: offset, stride and count of an array, the counter kind (R37), the state that holds the register
through resets (R40), and per field its bits, access code (R24), reset value, whether it is staged (R17), its legal
values (R21) and whether it is critical (R25). A field that is not listed is reserved and reads zero (R12). -/

namespace Sys2Proof.Machine

/-- The common page header (R15), offsets 0x000 to 0x03F of every page. -/
def hdrRegs : List RegSpec := [
  ⟨0, 0, 1, .none, .page, [⟨31, 24, .ro, 0, false, .any, false⟩, ⟨23, 12, .ro, 0, false, .any, false⟩, ⟨7, 0, .ro, 1, false, .any, false⟩]⟩,
  ⟨4, 0, 1, .none, .page, [⟨31, 31, .ro, 0, false, .any, false⟩, ⟨30, 30, .ro, 0, false, .any, false⟩, ⟨29, 26, .ro, 0, false, .any, false⟩, ⟨23, 0, .ro, 0, false, .any, false⟩]⟩,
  ⟨8, 0, 1, .none, .page, [⟨7, 6, .rw, 0, true, .any, false⟩, ⟨1, 1, .w1s, 0, false, .any, false⟩, ⟨0, 0, .rw, 0, true, .any, false⟩]⟩,
  ⟨0xc, 0, 1, .none, .page, [⟨23, 20, .ro, 0, false, .any, false⟩, ⟨17, 16, .ro, 0, false, .any, false⟩, ⟨8, 8, .ro, 0, false, .any, false⟩, ⟨4, 4, .ro, 0, false, .any, false⟩, ⟨3, 0, .ro, 0, false, .any, false⟩]⟩,
  ⟨0x10, 0, 1, .none, .page, [⟨31, 8, .w1c, 0, false, .any, false⟩, ⟨3, 3, .w1c, 0, false, .any, false⟩, ⟨2, 2, .w1c, 0, false, .any, false⟩, ⟨1, 1, .w1c, 0, false, .any, false⟩, ⟨0, 0, .w1c, 0, false, .any, false⟩]⟩,
  ⟨0x14, 0, 1, .none, .page, [⟨31, 8, .rw, 0, false, .any, false⟩, ⟨3, 3, .rw, 1, false, .any, false⟩, ⟨2, 2, .rw, 1, false, .any, false⟩, ⟨1, 1, .rw, 1, false, .any, false⟩, ⟨0, 0, .rw, 1, false, .any, false⟩]⟩,
  ⟨0x18, 0, 1, .none, .page, [⟨31, 8, .rw, 0, false, .any, false⟩, ⟨7, 6, .rw, 2, false, .any, false⟩, ⟨3, 0, .rw, 3, false, .any, false⟩]⟩,
  ⟨0x1c, 0, 1, .none, .page, [⟨31, 8, .wo, 0, false, .any, false⟩, ⟨3, 3, .wo, 0, false, .any, false⟩, ⟨2, 2, .wo, 0, false, .any, false⟩, ⟨1, 1, .wo, 0, false, .any, false⟩, ⟨0, 0, .wo, 0, false, .any, false⟩]⟩,
  ⟨0x20, 0, 1, .none, .page, [⟨1, 1, .wo, 0, false, .any, false⟩, ⟨0, 0, .wo, 0, false, .any, false⟩]⟩,
  ⟨0x24, 0, 1, .none, .page, [⟨12, 8, .rw, 0, false, .any, true⟩, ⟨2, 0, .rw, 0, false, .any, true⟩]⟩,
  ⟨0x28, 0, 1, .none, .page, [⟨31, 16, .wo, 0, false, .any, false⟩, ⟨0, 0, .ro, 0, false, .any, false⟩]⟩,
  ⟨0x2c, 0, 1, .none, .page, [⟨31, 31, .ro, 0, false, .any, false⟩, ⟨19, 16, .ro, 0, false, .any, false⟩, ⟨2, 0, .ro, 0, false, .any, false⟩]⟩,
  ⟨0x30, 0, 1, .none, .page, [⟨31, 0, .ro, 0, false, .any, false⟩]⟩,
  ⟨0x34, 0, 1, .none, .page, [⟨31, 30, .ro, 0, false, .any, false⟩, ⟨29, 24, .ro, 0, false, .any, false⟩, ⟨15, 0, .ro, 0, false, .any, false⟩]⟩,
  ⟨0x38, 0, 1, .none, .page, [⟨31, 28, .ro, 0, false, .any, false⟩, ⟨26, 24, .ro, 0, false, .any, false⟩, ⟨11, 0, .ro, 0, false, .any, false⟩]⟩,
  ⟨0x3c, 0, 1, .stat, .page, [⟨31, 31, .ro, 0, false, .any, false⟩, ⟨30, 0, .ro, 0, false, .any, false⟩]⟩]

/-- Registers of a `SYS` page (chapter 19). -/
def regsSys : List RegSpec := [
  ⟨0x40, 0, 1, .none, .page, [⟨31, 16, .ro, 0x9144, false, .any, false⟩, ⟨15, 8, .ro, 0, false, .any, false⟩, ⟨7, 0, .ro, 1, false, .any, false⟩]⟩,
  ⟨0x44, 0, 1, .free, .alwaysOn, [⟨31, 0, .ro, 0, false, .any, false⟩]⟩,
  ⟨0x48, 0, 1, .stat, .alwaysOn, [⟨31, 31, .ro, 0, false, .any, false⟩, ⟨30, 0, .ro, 0, false, .any, false⟩]⟩]

/-- Registers of a `PWR` page (chapter 17). -/
def regsPwr : List RegSpec := [
  ⟨0x40, 0, 1, .none, .page, [⟨31, 31, .ro, 0, false, .any, false⟩, ⟨30, 30, .ro, 0, false, .any, false⟩, ⟨29, 29, .ro, 0, false, .any, false⟩, ⟨28, 28, .ro, 0, false, .any, false⟩, ⟨27, 27, .ro, 0, false, .any, false⟩, ⟨6, 0, .ro, 0, false, .any, false⟩]⟩,
  ⟨0x44, 0, 1, .none, .alwaysOn, [⟨3, 0, .ro, 0, false, .any, false⟩]⟩,
  ⟨0x48, 0, 1, .none, .page, [⟨0, 0, .w1s, 0, false, .any, false⟩]⟩,
  ⟨0x4c, 0, 1, .none, .page, [⟨31, 31, .ro, 0, false, .any, false⟩, ⟨15, 0, .ro, 0, false, .any, false⟩]⟩,
  ⟨0x60, 0, 1, .stat, .alwaysOn, [⟨31, 31, .ro, 0, false, .any, false⟩, ⟨30, 0, .ro, 0, false, .any, false⟩]⟩,
  ⟨0x64, 0, 1, .stat, .alwaysOn, [⟨31, 31, .ro, 0, false, .any, false⟩, ⟨30, 0, .ro, 0, false, .any, false⟩]⟩,
  ⟨0x68, 0, 1, .stat, .alwaysOn, [⟨31, 31, .ro, 0, false, .any, false⟩, ⟨30, 0, .ro, 0, false, .any, false⟩]⟩]

/-- Registers of a `CLK` page (chapter 17). -/
def regsClk : List RegSpec := [
  ⟨0x40, 0, 1, .none, .page, [⟨31, 31, .ro, 0, false, .any, false⟩, ⟨30, 30, .ro, 0, false, .any, false⟩, ⟨15, 0, .ro, 0, false, .any, false⟩]⟩,
  ⟨0x60, 0, 1, .stat, .page, [⟨31, 31, .ro, 0, false, .any, false⟩, ⟨30, 0, .ro, 0, false, .any, false⟩]⟩,
  ⟨0x64, 0, 1, .stat, .page, [⟨31, 31, .ro, 0, false, .any, false⟩, ⟨30, 0, .ro, 0, false, .any, false⟩]⟩,
  ⟨0x80, 4, 4, .none, .page, [⟨1, 1, .rw, 0, false, .any, false⟩, ⟨0, 0, .rw, 0, false, .any, false⟩]⟩,
  ⟨0x90, 4, 4, .none, .page, [⟨31, 31, .ro, 0, false, .any, false⟩, ⟨30, 30, .ro, 0, false, .any, false⟩, ⟨29, 29, .ro, 0, false, .any, false⟩, ⟨5, 4, .ro, 0, false, .any, false⟩, ⟨3, 2, .ro, 0, false, .any, false⟩, ⟨1, 0, .ro, 0, false, .any, false⟩]⟩,
  ⟨0xc0, 4, 16, .none, .page, [⟨1, 0, .rw, 0, true, .le 2, false⟩]⟩,
  ⟨0x100, 4, 64, .none, .page, [⟨31, 31, .rw, 0, true, .any, false⟩, ⟨7, 0, .rw, 0, true, .any, false⟩]⟩]

/-- Registers of a `MST` page (chapter 02). -/
def regsMst : List RegSpec := [
  ⟨0x40, 0x40, 16, .none, .page, [⟨2, 0, .wo, 0, false, .le 6, false⟩]⟩,
  ⟨0x44, 0x40, 16, .none, .page, [⟨17, 16, .ro, 0, false, .any, false⟩, ⟨15, 15, .ro, 0, false, .any, false⟩, ⟨13, 8, .ro, 0, false, .any, false⟩, ⟨4, 4, .ro, 0, false, .any, false⟩, ⟨3, 3, .ro, 0, false, .any, false⟩, ⟨2, 0, .ro, 0, false, .any, false⟩]⟩,
  ⟨0x48, 0x40, 16, .none, .page, [⟨29, 16, .rw, 0, false, .any, false⟩, ⟨5, 4, .rw, 0, false, .any, false⟩, ⟨2, 0, .rw, 0, false, .le 4, false⟩]⟩,
  ⟨0x4c, 0x40, 16, .none, .page, [⟨15, 0, .rw, 0, false, .any, false⟩]⟩,
  ⟨0x50, 0x40, 16, .none, .page, [⟨19, 0, .rw, 0x3e8, false, .le 1000000, false⟩]⟩,
  ⟨0x54, 0x40, 16, .none, .page, [⟨29, 0, .rw, 0, false, .le 999999999, false⟩]⟩,
  ⟨0x58, 0x40, 16, .none, .page, [⟨31, 0, .rw, 0, false, .any, false⟩]⟩,
  ⟨0x5c, 0x40, 16, .none, .page, [⟨15, 0, .rw, 0, false, .any, false⟩]⟩,
  ⟨0x60, 0x40, 16, .none, .page, [⟨9, 0, .ro, 0, false, .any, false⟩]⟩,
  ⟨0x440, 0, 1, .none, .page, [⟨31, 31, .wo, 0, false, .any, false⟩, ⟨30, 16, .wo, 0, false, .any, false⟩, ⟨15, 8, .wo, 0, false, .any, false⟩, ⟨3, 0, .wo, 0, false, .any, false⟩]⟩,
  ⟨0x444, 0, 1, .none, .page, [⟨1, 0, .rw, 2, false, .any, true⟩]⟩,
  ⟨0x448, 0, 1, .stat, .page, [⟨31, 31, .ro, 0, false, .any, false⟩, ⟨30, 0, .ro, 0, false, .any, false⟩]⟩,
  ⟨0x44c, 0, 1, .stat, .page, [⟨31, 31, .ro, 0, false, .any, false⟩, ⟨30, 0, .ro, 0, false, .any, false⟩]⟩,
  ⟨0x450, 0, 1, .stat, .page, [⟨31, 31, .ro, 0, false, .any, false⟩, ⟨30, 0, .ro, 0, false, .any, false⟩]⟩,
  ⟨0x454, 0, 1, .stat, .page, [⟨31, 31, .ro, 0, false, .any, false⟩, ⟨30, 0, .ro, 0, false, .any, false⟩]⟩]

/-- Registers of a `CHK` page (chapter 02). -/
def regsChk : List RegSpec := [
  ⟨0x40, 0, 1, .none, .page, [⟨19, 16, .ro, 0, false, .any, false⟩, ⟨15, 14, .ro, 0, false, .any, false⟩, ⟨13, 8, .ro, 0, false, .any, false⟩, ⟨7, 7, .ro, 0, false, .any, false⟩, ⟨6, 6, .ro, 0, false, .any, false⟩, ⟨4, 0, .ro, 0, false, .any, false⟩]⟩,
  ⟨0x80, 8, 32, .none, .page, [⟨31, 31, .ro, 0, false, .any, false⟩, ⟨27, 24, .ro, 0, false, .any, false⟩, ⟨15, 0, .ro, 0, false, .any, false⟩]⟩,
  ⟨0x84, 8, 32, .none, .page, [⟨26, 0, .ro, 0, false, .any, false⟩]⟩,
  ⟨0x180, 0, 1, .stat, .page, [⟨31, 31, .ro, 0, false, .any, false⟩, ⟨30, 0, .ro, 0, false, .any, false⟩]⟩,
  ⟨0x184, 0, 1, .stat, .page, [⟨31, 31, .ro, 0, false, .any, false⟩, ⟨30, 0, .ro, 0, false, .any, false⟩]⟩]

/-- Registers of a `NTC` page (chapter 15). -/
def regsNtc : List RegSpec := [
  ⟨0x80, 0x40, 4, .none, .page, [⟨31, 6, .rw, 0, false, .any, false⟩]⟩,
  ⟨0x84, 0x40, 4, .none, .page, [⟨31, 0, .rw, 0, false, .any, false⟩]⟩,
  ⟨0x88, 0x40, 4, .none, .page, [⟨31, 2, .rw, 0, false, .any, false⟩]⟩,
  ⟨0x8c, 0x40, 4, .none, .page, [⟨31, 0, .rw, 0, false, .any, false⟩]⟩,
  ⟨0x90, 0x40, 4, .none, .page, [⟨31, 31, .rw, 0, false, .any, false⟩, ⟨28, 24, .rw, 6, false, .span 6 16, false⟩, ⟨17, 16, .rw, 0, false, .any, false⟩, ⟨5, 0, .rw, 0, false, .any, false⟩]⟩,
  ⟨0x94, 0x40, 4, .none, .page, [⟨31, 16, .rw, 0, false, .any, false⟩, ⟨7, 0, .rw, 0, false, .span 1 255, false⟩]⟩,
  ⟨0x98, 0x40, 4, .none, .page, [⟨15, 0, .ro, 0, false, .any, false⟩]⟩,
  ⟨0x9c, 0x40, 4, .none, .page, [⟨15, 0, .rw, 0, false, .any, false⟩]⟩,
  ⟨0xa0, 0x40, 4, .free, .page, [⟨31, 0, .ro, 0, false, .any, false⟩]⟩,
  ⟨0xa4, 0x40, 4, .stat, .page, [⟨31, 31, .ro, 0, false, .any, false⟩, ⟨30, 0, .ro, 0, false, .any, false⟩]⟩,
  ⟨0xa8, 0x40, 4, .stat, .page, [⟨31, 31, .ro, 0, false, .any, false⟩, ⟨30, 0, .ro, 0, false, .any, false⟩]⟩,
  ⟨0xac, 0x40, 4, .stat, .page, [⟨31, 31, .ro, 0, false, .any, false⟩, ⟨30, 0, .ro, 0, false, .any, false⟩]⟩]

/-- Registers of a `SEC` page (chapter 16). -/
def regsSec0 : List RegSpec := [
  ⟨0x40, 0, 1, .none, .fuse, [⟨31, 31, .ro, 0, false, .any, false⟩, ⟨30, 30, .ro, 0, false, .any, false⟩, ⟨29, 29, .ro, 0, false, .any, false⟩, ⟨28, 28, .ro, 0, false, .any, false⟩, ⟨27, 27, .ro, 0, false, .any, false⟩, ⟨26, 26, .ro, 0, false, .any, false⟩, ⟨25, 25, .ro, 0, false, .any, false⟩, ⟨15, 8, .ro, 0, false, .any, false⟩, ⟨7, 0, .ro, 0, false, .any, false⟩]⟩,
  ⟨0x44, 0, 1, .none, .battery, [⟨31, 31, .ro, 0, false, .any, false⟩, ⟨30, 30, .ro, 0, false, .any, false⟩, ⟨29, 29, .ro, 0, false, .any, false⟩]⟩,
  ⟨0x48, 0, 1, .none, .page, [⟨31, 31, .ro, 0, false, .any, false⟩, ⟨30, 30, .ro, 0, false, .any, false⟩, ⟨29, 29, .ro, 0, false, .any, false⟩, ⟨15, 8, .ro, 0, false, .any, false⟩, ⟨7, 0, .ro, 0, false, .any, false⟩]⟩,
  ⟨0x4c, 0, 1, .none, .page, [⟨31, 0, .ro, 0, false, .any, false⟩]⟩,
  ⟨0x50, 4, 8, .none, .fuse, [⟨31, 0, .ro, 0, false, .any, false⟩]⟩,
  ⟨0x70, 4, 8, .none, .fuse, [⟨31, 0, .ro, 0, false, .any, false⟩]⟩,
  ⟨0x90, 0, 1, .none, .fuse, [⟨31, 0, .ro, 0, false, .any, false⟩]⟩,
  ⟨0x94, 0, 1, .none, .fuse, [⟨31, 0, .ro, 0, false, .any, false⟩]⟩,
  ⟨0xa0, 0, 1, .none, .battery, [⟨7, 7, .rw, 0, false, .any, true⟩, ⟨6, 6, .rw, 0, false, .any, true⟩, ⟨5, 5, .rw, 0, false, .any, true⟩, ⟨4, 4, .rw, 0, false, .any, true⟩, ⟨0, 0, .rw, 0, false, .any, true⟩]⟩,
  ⟨0xa4, 0, 1, .none, .battery, [⟨31, 31, .w1c, 0, false, .any, true⟩, ⟨30, 29, .ro, 0, false, .any, false⟩, ⟨15, 0, .ro, 0, false, .any, false⟩]⟩,
  ⟨0xb0, 0, 1, .none, .page, [⟨31, 31, .w1s, 0, false, .any, false⟩, ⟨30, 30, .rw, 0, false, .any, false⟩, ⟨27, 0, .rw, 0, false, .any, false⟩]⟩,
  ⟨0xb4, 0, 1, .none, .page, [⟨31, 31, .ro, 0, false, .any, false⟩, ⟨30, 30, .ro, 0, false, .any, false⟩, ⟨16, 0, .ro, 0, false, .any, false⟩]⟩,
  ⟨0xc0, 4, 8, .none, .page, [⟨31, 0, .rw, 0, false, .any, false⟩]⟩,
  ⟨0xe0, 4, 8, .none, .page, [⟨31, 0, .ro, 0, false, .any, false⟩]⟩,
  ⟨0x100, 0, 1, .none, .page, [⟨31, 31, .w1s, 0, false, .any, false⟩, ⟨30, 30, .w1s, 0, false, .any, false⟩]⟩,
  ⟨0x104, 0, 1, .none, .page, [⟨31, 31, .ro, 0, false, .any, false⟩]⟩,
  ⟨0x120, 0, 1, .stat, .page, [⟨31, 31, .ro, 0, false, .any, false⟩, ⟨30, 0, .ro, 0, false, .any, false⟩]⟩,
  ⟨0x124, 0, 1, .stat, .page, [⟨31, 31, .ro, 0, false, .any, false⟩, ⟨30, 0, .ro, 0, false, .any, false⟩]⟩,
  ⟨0x128, 0, 1, .stat, .page, [⟨31, 31, .ro, 0, false, .any, false⟩, ⟨30, 0, .ro, 0, false, .any, false⟩]⟩,
  ⟨0x140, 8, 3, .crit, .store, [⟨31, 0, .ro, 0, false, .any, false⟩]⟩]

/-- Registers of a `SEC` page (chapter 16). -/
def regsSec1 : List RegSpec := [
  ⟨0x144, 8, 3, .crit, .store, [⟨31, 0, .ro, 0, false, .any, false⟩]⟩]

/-- Registers of a `SEC` page (chapter 16). -/
def regsSec : List RegSpec := regsSec0 ++ regsSec1

/-- Registers of a `AUTH` page (chapter 16). -/
def regsAuth : List RegSpec := [
  ⟨0x40, 0x10, 2, .none, .page, [⟨31, 31, .w1s, 0, false, .any, false⟩, ⟨9, 0, .rw, 0, false, .any, false⟩]⟩,
  ⟨0x44, 0x10, 2, .none, .page, [⟨31, 31, .ro, 0, false, .any, false⟩, ⟨30, 30, .ro, 0, false, .any, false⟩, ⟨27, 24, .ro, 0, false, .any, false⟩, ⟨15, 0, .ro, 0, false, .any, false⟩]⟩,
  ⟨0x100, 4, 192, .none, .page, [⟨31, 0, .rw, 0, false, .any, false⟩]⟩,
  ⟨0x400, 4, 192, .none, .page, [⟨31, 0, .rw, 0, false, .any, false⟩]⟩]

/-- Registers of a `LDR` page (chapter 13). -/
def regsLdr : List RegSpec := [
  ⟨0x40, 0, 1, .none, .page, [⟨31, 31, .w1s, 0, false, .any, false⟩, ⟨30, 30, .w1s, 0, false, .any, false⟩, ⟨29, 29, .rw, 0, false, .any, false⟩, ⟨25, 24, .rw, 0, false, .le 2, false⟩, ⟨17, 16, .rw, 0, false, .any, false⟩]⟩,
  ⟨0x44, 0, 1, .none, .page, [⟨7, 0, .rw, 0, false, .le 242, false⟩]⟩,
  ⟨0x48, 0, 1, .none, .page, [⟨31, 31, .rw, 0, false, .any, true⟩, ⟨7, 0, .rw, 0, false, .le 242, true⟩]⟩,
  ⟨0x4c, 0, 1, .none, .page, [⟨31, 28, .ro, 0, false, .any, false⟩, ⟨27, 24, .ro, 0, false, .any, false⟩, ⟨23, 16, .ro, 0, false, .any, false⟩, ⟨15, 0, .ro, 0, false, .any, false⟩]⟩,
  ⟨0x50, 0, 1, .none, .page, [⟨31, 0, .ro, 0, false, .any, false⟩]⟩,
  ⟨0x60, 4, 8, .none, .page, [⟨31, 31, .rw, 0, false, .any, false⟩, ⟨3, 0, .rw, 0, false, .any, false⟩]⟩,
  ⟨0x80, 0, 1, .none, .page, [⟨31, 16, .rw, 0x100, false, .any, false⟩, ⟨15, 0, .rw, 0, false, .any, false⟩]⟩,
  ⟨0x84, 0, 1, .none, .page, [⟨29, 16, .rw, 0x64, false, .span 1 10000, false⟩, ⟨13, 0, .rw, 0x14, false, .span 8 10000, false⟩]⟩,
  ⟨0x88, 0, 1, .none, .page, [⟨31, 0, .rw, 0, false, .any, false⟩]⟩,
  ⟨0x8c, 0, 1, .none, .page, [⟨31, 28, .ro, 0xf, false, .any, false⟩, ⟨27, 27, .ro, 0, false, .any, false⟩, ⟨26, 24, .ro, 0, false, .any, false⟩, ⟨15, 0, .ro, 0, false, .any, false⟩]⟩,
  ⟨0xa0, 0, 1, .none, .page, [⟨31, 31, .w1s, 0, false, .any, false⟩, ⟨29, 28, .rw, 0, false, .le 1, false⟩, ⟨20, 16, .rw, 0, false, .any, false⟩, ⟨8, 0, .rw, 0, false, .any, false⟩]⟩,
  ⟨0xc0, 0, 1, .stat, .page, [⟨31, 31, .ro, 0, false, .any, false⟩, ⟨30, 0, .ro, 0, false, .any, false⟩]⟩,
  ⟨0xc4, 0, 1, .stat, .page, [⟨31, 31, .ro, 0, false, .any, false⟩, ⟨30, 0, .ro, 0, false, .any, false⟩]⟩,
  ⟨0xc8, 0, 1, .stat, .page, [⟨31, 31, .ro, 0, false, .any, false⟩, ⟨30, 0, .ro, 0, false, .any, false⟩]⟩,
  ⟨0xcc, 0, 1, .stat, .page, [⟨31, 31, .ro, 0, false, .any, false⟩, ⟨30, 0, .ro, 0, false, .any, false⟩]⟩,
  ⟨0x400, 4, 80, .none, .page, [⟨31, 0, .ro, 0, false, .any, false⟩]⟩]

/-- Registers of a `STORE` page (chapter 13). -/
def regsStore : List RegSpec := [
  ⟨0x40, 0, 1, .none, .store, [⟨31, 31, .rw, 0, false, .any, true⟩, ⟨5, 4, .rw, 0, false, .any, true⟩, ⟨2, 0, .rw, 4, false, .le 5, true⟩]⟩,
  ⟨0x44, 4, 4, .none, .store, [⟨31, 30, .ro, 0, false, .any, false⟩, ⟨29, 29, .ro, 0, false, .any, false⟩, ⟨28, 28, .ro, 0, false, .any, false⟩, ⟨23, 16, .ro, 0, false, .any, false⟩]⟩,
  ⟨0x54, 4, 4, .none, .store, [⟨31, 0, .ro, 0, false, .any, false⟩]⟩,
  ⟨0x64, 0, 1, .none, .page, [⟨31, 31, .ro, 0, false, .any, false⟩, ⟨30, 29, .ro, 0, false, .any, false⟩, ⟨28, 26, .ro, 0, false, .any, false⟩, ⟨17, 0, .ro, 0, false, .any, false⟩]⟩,
  ⟨0x68, 0, 1, .none, .store, [⟨31, 22, .ro, 0x200, false, .any, false⟩, ⟨21, 12, .ro, 0, false, .any, false⟩]⟩,
  ⟨0x6c, 0, 1, .none, .store, [⟨31, 0, .ro, 0, false, .any, false⟩]⟩,
  ⟨0x80, 0, 1, .stat, .page, [⟨31, 31, .ro, 0, false, .any, false⟩, ⟨30, 0, .ro, 0, false, .any, false⟩]⟩]

/-- Registers of a `SVC` page (chapter 19). -/
def regsSvc : List RegSpec := [
  ⟨0x40, 0, 1, .none, .page, [⟨31, 30, .ro, 0, false, .any, false⟩, ⟨25, 21, .ro, 0, false, .any, false⟩, ⟨20, 16, .ro, 0, false, .any, false⟩, ⟨15, 10, .ro, 0, false, .any, false⟩, ⟨9, 7, .ro, 0, false, .any, false⟩, ⟨6, 0, .ro, 0, false, .any, false⟩]⟩]

/-- Registers of a `MON` page (chapter 17). -/
def regsMon : List RegSpec := [
  ⟨0x40, 4, 7, .none, .page, [⟨31, 31, .ro, 0, false, .any, false⟩, ⟨15, 0, .ro, 0, false, .any, false⟩]⟩,
  ⟨0x60, 0, 1, .none, .page, [⟨10, 0, .ro, 0, false, .any, false⟩]⟩,
  ⟨0x80, 4, 8, .none, .page, [⟨31, 31, .ro, 0, false, .any, false⟩, ⟨7, 0, .ro, 0, false, .any, false⟩]⟩,
  ⟨0xa0, 0, 1, .none, .page, [⟨31, 31, .ro, 0, false, .any, false⟩, ⟨7, 0, .ro, 0, false, .any, false⟩]⟩,
  ⟨0xa4, 0, 1, .none, .page, [⟨15, 8, .rw, 0x6e, false, .le 120, false⟩, ⟨7, 0, .rw, 0x64, false, .any, false⟩]⟩,
  ⟨0xc0, 0, 1, .stat, .page, [⟨31, 31, .ro, 0, false, .any, false⟩, ⟨30, 0, .ro, 0, false, .any, false⟩]⟩,
  ⟨0xc4, 0, 1, .stat, .page, [⟨31, 31, .ro, 0, false, .any, false⟩, ⟨30, 0, .ro, 0, false, .any, false⟩]⟩,
  ⟨0x100, 4, 8, .none, .page, [⟨31, 31, .ro, 0, false, .any, false⟩, ⟨15, 0, .ro, 0, false, .any, false⟩]⟩,
  ⟨0x120, 0, 1, .none, .store, [⟨31, 0, .ro, 0, false, .any, false⟩]⟩,
  ⟨0x124, 0, 1, .none, .store, [⟨31, 0, .ro, 0, false, .any, false⟩]⟩,
  ⟨0x128, 0, 1, .none, .page, [⟨31, 20, .rw, 0x12c, false, .span 1 4095, false⟩, ⟨19, 0, .rw, 0x20148, false, .span 1 1048575, false⟩]⟩]

/-- Registers of a `PCIE` page (chapter 15). -/
def regsPcie : List RegSpec := [
  ⟨0x40, 0, 1, .none, .page, [⟨31, 31, .ro, 0, false, .any, false⟩, ⟨27, 24, .ro, 0, false, .any, false⟩, ⟨19, 16, .ro, 0, false, .any, false⟩]⟩,
  ⟨0x44, 0, 1, .none, .store, [⟨1, 0, .rw, 0, false, .le 1, true⟩]⟩,
  ⟨0x60, 0, 1, .stat, .page, [⟨31, 31, .ro, 0, false, .any, false⟩, ⟨30, 0, .ro, 0, false, .any, false⟩]⟩,
  ⟨0x64, 0, 1, .stat, .page, [⟨31, 31, .ro, 0, false, .any, false⟩, ⟨30, 0, .ro, 0, false, .any, false⟩]⟩,
  ⟨0x68, 0, 1, .stat, .page, [⟨31, 31, .ro, 0, false, .any, false⟩, ⟨30, 0, .ro, 0, false, .any, false⟩]⟩,
  ⟨0x6c, 0, 1, .stat, .page, [⟨31, 31, .ro, 0, false, .any, false⟩, ⟨30, 0, .ro, 0, false, .any, false⟩]⟩,
  ⟨0x70, 0, 1, .stat, .page, [⟨31, 31, .ro, 0, false, .any, false⟩, ⟨30, 0, .ro, 0, false, .any, false⟩]⟩]

/-- Registers of a `BLK` page (chapter 15). -/
def regsBlk : List RegSpec := [
  ⟨0x40, 0, 1, .none, .page, [⟨31, 31, .ro, 0, false, .any, false⟩, ⟨24, 0, .ro, 0, false, .any, false⟩]⟩,
  ⟨0x44, 0, 1, .none, .page, [⟨23, 16, .ro, 0, false, .any, false⟩, ⟨15, 8, .ro, 0, false, .any, false⟩, ⟨7, 0, .rw, 0x32, false, .span 5 255, false⟩]⟩,
  ⟨0x60, 0, 1, .stat, .page, [⟨31, 31, .ro, 0, false, .any, false⟩, ⟨30, 0, .ro, 0, false, .any, false⟩]⟩,
  ⟨0x64, 0, 1, .stat, .page, [⟨31, 31, .ro, 0, false, .any, false⟩, ⟨30, 0, .ro, 0, false, .any, false⟩]⟩,
  ⟨0x68, 0, 1, .stat, .page, [⟨31, 31, .ro, 0, false, .any, false⟩, ⟨30, 0, .ro, 0, false, .any, false⟩]⟩,
  ⟨0x6c, 0, 1, .stat, .page, [⟨31, 31, .ro, 0, false, .any, false⟩, ⟨30, 0, .ro, 0, false, .any, false⟩]⟩]

/-- Registers of a `SLV` page (chapter 15). -/
def regsSlv : List RegSpec := [
  ⟨0x40, 0, 1, .none, .page, [⟨31, 31, .rw, 1, false, .any, true⟩, ⟨30, 30, .rw, 0, false, .any, false⟩, ⟨29, 29, .rw, 1, false, .any, true⟩]⟩,
  ⟨0x44, 0, 1, .none, .page, [⟨31, 31, .ro, 0, false, .any, false⟩, ⟨30, 30, .ro, 0, false, .any, false⟩, ⟨1, 1, .w1c, 0, false, .any, false⟩, ⟨0, 0, .w1c, 0, false, .any, false⟩]⟩,
  ⟨0x60, 0, 1, .stat, .page, [⟨31, 31, .ro, 0, false, .any, false⟩, ⟨30, 0, .ro, 0, false, .any, false⟩]⟩,
  ⟨0x64, 0, 1, .stat, .page, [⟨31, 31, .ro, 0, false, .any, false⟩, ⟨30, 0, .ro, 0, false, .any, false⟩]⟩]

/-- Registers of a `TIME` page (chapter 11). -/
def regsTime : List RegSpec := [
  ⟨0x40, 0, 1, .none, .page, [⟨29, 0, .ro, 0, false, .any, false⟩]⟩,
  ⟨0x44, 0, 1, .none, .page, [⟨31, 0, .ro, 0, false, .any, false⟩]⟩,
  ⟨0x48, 0, 1, .none, .page, [⟨31, 16, .ro, 0, false, .any, false⟩, ⟨15, 0, .ro, 0, false, .any, false⟩]⟩,
  ⟨0x4c, 0, 1, .none, .page, [⟨31, 16, .rw, 0xbb8, false, .span 100 65535, false⟩, ⟨11, 10, .rw, 0, false, .any, false⟩, ⟨8, 6, .rw, 0, false, .any, false⟩, ⟨1, 0, .rw, 0, false, .le 2, false⟩]⟩,
  ⟨0x50, 0, 1, .none, .page, [⟨31, 16, .rw, 0x1388, false, .span 1 65535, false⟩, ⟨15, 0, .rw, 0x3e8, false, .span 1 65535, false⟩]⟩,
  ⟨0x54, 0, 1, .none, .page, [⟨31, 30, .ro, 0, false, .any, false⟩, ⟨29, 29, .ro, 0, false, .any, false⟩, ⟨27, 0, .ro, 0, false, .any, false⟩]⟩,
  ⟨0x58, 0, 1, .none, .page, [⟨31, 0, .rw, 0, false, .any, false⟩]⟩,
  ⟨0x5c, 0, 1, .none, .page, [⟨31, 31, .w1s, 0, false, .any, false⟩, ⟨15, 0, .rw, 0, false, .any, false⟩]⟩,
  ⟨0x60, 0, 1, .none, .page, [⟨29, 0, .rw, 0, false, .any, false⟩]⟩,
  ⟨0x64, 0, 1, .none, .page, [⟨31, 0, .rw, 0, false, .any, false⟩]⟩,
  ⟨0x68, 0, 1, .none, .page, [⟨15, 0, .rw, 0, false, .any, false⟩]⟩,
  ⟨0x6c, 0, 1, .none, .page, [⟨1, 1, .w1s, 0, false, .any, false⟩, ⟨0, 0, .w1s, 0, false, .any, false⟩]⟩,
  ⟨0x80, 0, 1, .stat, .page, [⟨31, 31, .ro, 0, false, .any, false⟩, ⟨30, 0, .ro, 0, false, .any, false⟩]⟩,
  ⟨0x84, 0, 1, .stat, .page, [⟨31, 31, .ro, 0, false, .any, false⟩, ⟨30, 0, .ro, 0, false, .any, false⟩]⟩,
  ⟨0x88, 0, 1, .stat, .page, [⟨31, 31, .ro, 0, false, .any, false⟩, ⟨30, 0, .ro, 0, false, .any, false⟩]⟩]

/-- Registers of a `MCG` page (chapter 11). -/
def regsMcg : List RegSpec := [
  ⟨0x40, 0, 1, .none, .page, [⟨28, 16, .rw, 0, true, .zeroOr 2 4500, false⟩, ⟨7, 4, .rw, 0, true, .le 8, false⟩, ⟨0, 0, .rw, 0, true, .any, false⟩]⟩,
  ⟨0x44, 0, 1, .none, .page, [⟨31, 31, .ro, 0, false, .any, false⟩]⟩,
  ⟨0x48, 0, 1, .free, .page, [⟨31, 0, .ro, 0, false, .any, false⟩]⟩,
  ⟨0x4c, 0, 1, .stat, .page, [⟨31, 31, .ro, 0, false, .any, false⟩, ⟨30, 0, .ro, 0, false, .any, false⟩]⟩]

/-- Registers of a `SRV` page (chapter 19). -/
def regsSrv : List RegSpec := [
  ⟨0x40, 0, 1, .none, .page, [⟨31, 31, .w1s, 0, false, .any, false⟩, ⟨30, 30, .w1s, 0, false, .any, false⟩, ⟨25, 16, .rw, 0x64, false, .span 1 1023, false⟩, ⟨15, 0, .rw, 0x3e8, false, .span 200 60000, false⟩]⟩,
  ⟨0x44, 0, 1, .none, .page, [⟨31, 28, .ro, 0xf, false, .any, false⟩, ⟨27, 27, .ro, 0, false, .any, false⟩, ⟨26, 24, .ro, 0, false, .any, false⟩, ⟨23, 23, .ro, 0, false, .any, false⟩, ⟨22, 22, .ro, 0, false, .any, false⟩, ⟨19, 16, .ro, 0, false, .any, false⟩, ⟨15, 0, .ro, 0, false, .any, false⟩]⟩,
  ⟨0x48, 0, 1, .none, .page, [⟨13, 0, .rw, 0x3e8, false, .span 8 10000, false⟩]⟩]

/-- Registers of a `SCRB` page (chapter 09). -/
def regsScrb : List RegSpec := [
  ⟨0x40, 0, 1, .none, .page, [⟨31, 31, .rw, 1, false, .any, false⟩, ⟨30, 30, .rw, 1, false, .any, false⟩, ⟨19, 16, .rw, 4, false, .span 1 15, false⟩, ⟨10, 0, .rw, 0x78, false, .span 10 1440, false⟩]⟩,
  ⟨0x44, 0, 1, .none, .page, [⟨31, 27, .ro, 0, false, .any, false⟩, ⟨25, 13, .ro, 0, false, .any, false⟩, ⟨6, 0, .ro, 0, false, .any, false⟩]⟩,
  ⟨0x60, 0, 1, .stat, .page, [⟨31, 31, .ro, 0, false, .any, false⟩, ⟨30, 0, .ro, 0, false, .any, false⟩]⟩,
  ⟨0x64, 0, 1, .stat, .page, [⟨31, 31, .ro, 0, false, .any, false⟩, ⟨30, 0, .ro, 0, false, .any, false⟩]⟩,
  ⟨0x68, 0, 1, .stat, .page, [⟨31, 31, .ro, 0, false, .any, false⟩, ⟨30, 0, .ro, 0, false, .any, false⟩]⟩,
  ⟨0x6c, 0, 1, .stat, .page, [⟨31, 31, .ro, 0, false, .any, false⟩, ⟨30, 0, .ro, 0, false, .any, false⟩]⟩,
  ⟨0x70, 0, 1, .stat, .page, [⟨31, 31, .ro, 0, false, .any, false⟩, ⟨30, 0, .ro, 0, false, .any, false⟩]⟩,
  ⟨0x74, 0, 1, .stat, .page, [⟨31, 31, .ro, 0, false, .any, false⟩, ⟨30, 0, .ro, 0, false, .any, false⟩]⟩]

/-- Registers of a `PDIE` page (chapter 03). -/
def regsPdie : List RegSpec := [
  ⟨0x40, 0, 1, .none, .page, [⟨31, 31, .ro, 0, false, .any, false⟩, ⟨30, 30, .ro, 0, false, .any, false⟩, ⟨29, 29, .ro, 0, false, .any, false⟩, ⟨15, 8, .ro, 0, false, .any, false⟩]⟩,
  ⟨0x44, 0, 1, .none, .page, [⟨31, 16, .ro, 0, false, .any, false⟩, ⟨15, 0, .ro, 0, false, .any, false⟩]⟩,
  ⟨0x48, 0, 1, .none, .page, [⟨7, 0, .rw, 0x64, false, .s8le 114, false⟩]⟩,
  ⟨0x50, 4, 2, .none, .page, [⟨5, 4, .rw, 0, true, .le 2, false⟩, ⟨0, 0, .rw, 0, true, .any, false⟩]⟩,
  ⟨0x58, 4, 2, .none, .page, [⟨31, 31, .ro, 0, false, .any, false⟩, ⟨15, 0, .ro, 0, false, .any, false⟩]⟩,
  ⟨0x80, 0, 1, .none, .page, [⟨31, 31, .ro, 0, false, .any, false⟩, ⟨15, 0, .ro, 0, false, .any, false⟩]⟩,
  ⟨0x84, 0, 1, .none, .page, [⟨31, 31, .ro, 0, false, .any, false⟩, ⟨10, 0, .ro, 0, false, .any, false⟩]⟩]

/-- Registers of a `PGRP` page (chapter 03). -/
def regsPgrp0 : List RegSpec := [
  ⟨0x40, 0, 1, .none, .page, [⟨5, 4, .rw, 0, true, .any, false⟩, ⟨0, 0, .rw, 0, true, .any, false⟩]⟩,
  ⟨0x44, 0, 1, .none, .page, [⟨31, 31, .ro, 0, false, .any, false⟩, ⟨20, 16, .ro, 0, false, .any, false⟩, ⟨11, 8, .ro, 0xa, false, .any, false⟩, ⟨3, 0, .ro, 0xa, false, .any, false⟩]⟩,
  ⟨0x48, 4, 10, .none, .page, [⟨11, 8, .ro, 0xf, false, .any, false⟩, ⟨3, 0, .ro, 0, false, .any, false⟩]⟩,
  ⟨0x70, 0, 1, .stat, .page, [⟨31, 31, .ro, 0, false, .any, false⟩, ⟨30, 0, .ro, 0, false, .any, false⟩]⟩,
  ⟨0x80, 0, 1, .none, .page, [⟨31, 0, .ro, 0, false, .any, false⟩]⟩,
  ⟨0x100, 0, 1, .none, .page, [⟨31, 31, .rw, 0, false, .any, false⟩, ⟨12, 0, .rw, 0x14, false, .span 20 6000, false⟩]⟩,
  ⟨0x104, 0, 1, .none, .page, [⟨28, 16, .rw, 0x20, false, .span 1 4096, false⟩, ⟨10, 0, .rw, 0x4b0, false, .span 600 1440, false⟩]⟩,
  ⟨0x108, 0, 1, .none, .page, [⟨12, 0, .rw, 0x100, false, .span 16 4096, false⟩]⟩,
  ⟨0x10c, 0, 1, .none, .page, [⟨25, 16, .rw, 0x64, false, .span 1 600, false⟩, ⟨12, 0, .rw, 0x38, false, .span 8 4096, false⟩]⟩,
  ⟨0x110, 0, 1, .none, .page, [⟨15, 0, .rw, 0x258, false, .span 60 65535, false⟩]⟩,
  ⟨0x114, 0, 1, .none, .page, [⟨8, 8, .w1s, 0, false, .any, false⟩, ⟨3, 0, .rw, 0, false, .le 8, false⟩]⟩,
  ⟨0x118, 0, 1, .none, .page, [⟨31, 31, .ro, 0, false, .any, false⟩, ⟨30, 30, .ro, 0, false, .any, false⟩, ⟨29, 29, .ro, 0, false, .any, false⟩, ⟨28, 28, .ro, 0, false, .any, false⟩, ⟨26, 24, .ro, 0, false, .any, false⟩, ⟨23, 20, .ro, 0, false, .any, false⟩, ⟨19, 16, .ro, 0xf, false, .any, false⟩, ⟨15, 12, .ro, 0xf, false, .any, false⟩, ⟨11, 8, .ro, 0xf, false, .any, false⟩]⟩,
  ⟨0x11c, 0, 1, .none, .page, [⟨31, 30, .ro, 0, false, .any, false⟩, ⟨29, 28, .ro, 0, false, .any, false⟩, ⟨15, 0, .ro, 0, false, .any, false⟩]⟩,
  ⟨0x140, 4, 10, .none, .page, [⟨31, 30, .ro, 0, false, .any, false⟩, ⟨29, 29, .ro, 0, false, .any, false⟩, ⟨23, 20, .ro, 0, false, .any, false⟩, ⟨19, 0, .ro, 0, false, .any, false⟩]⟩,
  ⟨0x180, 8, 10, .none, .store, [⟨31, 16, .ro, 0, false, .any, false⟩, ⟨15, 0, .ro, 0, false, .any, false⟩]⟩,
  ⟨0x184, 8, 10, .none, .store, [⟨31, 16, .ro, 0, false, .any, false⟩, ⟨15, 0, .ro, 0, false, .any, false⟩]⟩,
  ⟨0x1e0, 0, 1, .stat, .page, [⟨31, 31, .ro, 0, false, .any, false⟩, ⟨30, 0, .ro, 0, false, .any, false⟩]⟩,
  ⟨0x1e4, 0, 1, .stat, .page, [⟨31, 31, .ro, 0, false, .any, false⟩, ⟨30, 0, .ro, 0, false, .any, false⟩]⟩,
  ⟨0x1e8, 0, 1, .stat, .page, [⟨31, 31, .ro, 0, false, .any, false⟩, ⟨30, 0, .ro, 0, false, .any, false⟩]⟩,
  ⟨0x1ec, 0, 1, .stat, .page, [⟨31, 31, .ro, 0, false, .any, false⟩, ⟨30, 0, .ro, 0, false, .any, false⟩]⟩]

/-- Registers of a `PGRP` page (chapter 03). -/
def regsPgrp1 : List RegSpec := [
  ⟨0x1f0, 0, 1, .stat, .page, [⟨31, 31, .ro, 0, false, .any, false⟩, ⟨30, 0, .ro, 0, false, .any, false⟩]⟩]

/-- Registers of a `PGRP` page (chapter 03). -/
def regsPgrp : List RegSpec := regsPgrp0 ++ regsPgrp1

/-- Registers of a `PORT` page (chapter 03). -/
def regsPort0 : List RegSpec := [
  ⟨0x40, 0, 1, .none, .page, [⟨21, 16, .rw, 0, true, .any, false⟩, ⟨8, 8, .rw, 0, true, .any, false⟩, ⟨4, 4, .rw, 0, true, .any, false⟩, ⟨2, 0, .rw, 0, true, .le 4, false⟩]⟩,
  ⟨0x44, 0, 1, .none, .page, [⟨8, 8, .rw, 0, false, .any, false⟩, ⟨0, 0, .w1s, 0, false, .any, false⟩]⟩,
  ⟨0x48, 0, 1, .none, .page, [⟨31, 31, .ro, 0, false, .any, false⟩, ⟨30, 30, .ro, 0, false, .any, false⟩, ⟨29, 29, .ro, 0, false, .any, false⟩, ⟨22, 16, .ro, 0x26, false, .any, false⟩, ⟨9, 8, .ro, 0, false, .any, false⟩, ⟨0, 0, .ro, 0, false, .any, false⟩]⟩,
  ⟨0x4c, 0, 1, .none, .page, [⟨29, 0, .ro, 0, false, .any, false⟩]⟩,
  ⟨0x50, 0, 1, .none, .page, [⟨31, 0, .ro, 0, false, .any, false⟩]⟩,
  ⟨0x54, 0, 1, .none, .page, [⟨15, 0, .ro, 0, false, .any, false⟩]⟩,
  ⟨0x58, 0, 1, .none, .page, [⟨29, 0, .ro, 0, false, .any, false⟩]⟩,
  ⟨0x5c, 0, 1, .none, .page, [⟨31, 0, .ro, 0, false, .any, false⟩]⟩,
  ⟨0x60, 8, 2, .none, .page, [⟨31, 31, .rw, 0, true, .any, false⟩, ⟨30, 30, .rw, 0, true, .any, false⟩, ⟨29, 29, .rw, 0, true, .any, false⟩, ⟨26, 19, .rw, 0x1e, true, .any, false⟩, ⟨18, 11, .rw, 0, true, .any, false⟩, ⟨10, 0, .rw, 0xc8, true, .le 1440, false⟩]⟩,
  ⟨0x64, 8, 2, .none, .page, [⟨15, 0, .rw, 0x1e0, true, .any, false⟩]⟩,
  ⟨0x70, 0, 1, .none, .page, [⟨1, 1, .ro, 0, false, .any, false⟩, ⟨0, 0, .ro, 0, false, .any, false⟩]⟩,
  ⟨0x74, 0, 1, .none, .page, [⟨23, 0, .rc, 0, false, .any, false⟩]⟩,
  ⟨0x78, 0, 1, .free, .page, [⟨31, 0, .ro, 0, false, .any, false⟩]⟩,
  ⟨0x7c, 0, 1, .stat, .page, [⟨31, 31, .ro, 0, false, .any, false⟩, ⟨30, 0, .ro, 0, false, .any, false⟩]⟩,
  ⟨0x80, 0, 1, .stat, .page, [⟨31, 31, .ro, 0, false, .any, false⟩, ⟨30, 0, .ro, 0, false, .any, false⟩]⟩,
  ⟨0x84, 0, 1, .stat, .page, [⟨31, 31, .ro, 0, false, .any, false⟩, ⟨30, 0, .ro, 0, false, .any, false⟩]⟩,
  ⟨0x88, 0, 1, .stat, .page, [⟨31, 31, .ro, 0, false, .any, false⟩, ⟨30, 0, .ro, 0, false, .any, false⟩]⟩,
  ⟨0x8c, 0, 1, .stat, .page, [⟨31, 31, .ro, 0, false, .any, false⟩, ⟨30, 0, .ro, 0, false, .any, false⟩]⟩,
  ⟨0x90, 0, 1, .stat, .page, [⟨31, 31, .ro, 0, false, .any, false⟩, ⟨30, 0, .ro, 0, false, .any, false⟩]⟩,
  ⟨0x100, 4, 64, .none, .page, [⟨23, 0, .rw, 0, false, .any, false⟩]⟩]

/-- Registers of a `PORT` page (chapter 03). -/
def regsPort1 : List RegSpec := [
  ⟨0x200, 0, 1, .none, .page, [⟨13, 13, .rw, 1, false, .any, false⟩, ⟨12, 12, .rw, 0, true, .any, false⟩, ⟨10, 8, .rw, 0, true, .le 4, false⟩, ⟨5, 4, .rw, 0, true, .le 2, false⟩, ⟨1, 0, .rw, 0, true, .le 2, false⟩]⟩,
  ⟨0x204, 0, 1, .none, .page, [⟨21, 16, .rw, 0, true, .any, false⟩, ⟨13, 0, .rw, 0, true, .any, false⟩]⟩,
  ⟨0x208, 0, 1, .none, .page, [⟨8, 0, .rw, 0x32, true, .span 5 500, false⟩]⟩,
  ⟨0x20c, 0, 1, .none, .page, [⟨31, 28, .rw, 2, true, .span 1 15, false⟩, ⟨26, 16, .rw, 0x12c, true, .le 960, false⟩, ⟨10, 0, .rw, 0x258, true, .le 960, false⟩]⟩,
  ⟨0x210, 0, 1, .none, .page, [⟨30, 28, .ro, 0, false, .any, false⟩, ⟨27, 27, .ro, 1, false, .any, false⟩, ⟨26, 26, .ro, 0, false, .any, false⟩, ⟨25, 24, .ro, 0, false, .any, false⟩, ⟨23, 22, .ro, 0, false, .any, false⟩, ⟨21, 16, .ro, 0x26, false, .any, false⟩, ⟨15, 0, .ro, 0, false, .any, false⟩]⟩,
  ⟨0x214, 0, 1, .none, .page, [⟨31, 31, .ro, 0, false, .any, false⟩, ⟨30, 30, .ro, 1, false, .any, false⟩, ⟨10, 0, .ro, 0x3c0, false, .any, false⟩]⟩,
  ⟨0x218, 0, 1, .none, .page, [⟨9, 0, .rw, 0x64, false, .span 1 1000, false⟩]⟩,
  ⟨0x21c, 0, 1, .none, .page, [⟨31, 31, .ro, 0, false, .any, false⟩, ⟨19, 0, .ro, 0, false, .any, false⟩]⟩,
  ⟨0x220, 0, 1, .none, .page, [⟨31, 31, .ro, 0, false, .any, false⟩, ⟨17, 0, .ro, 0, false, .any, false⟩]⟩,
  ⟨0x224, 0, 1, .none, .page, [⟨7, 4, .ro, 0, false, .any, false⟩, ⟨3, 3, .ro, 0, false, .any, false⟩, ⟨2, 2, .ro, 0, false, .any, false⟩, ⟨1, 1, .ro, 0, false, .any, false⟩, ⟨0, 0, .ro, 0, false, .any, false⟩]⟩,
  ⟨0x228, 0, 1, .none, .page, [⟨0, 0, .w1s, 0, false, .any, false⟩]⟩,
  ⟨0x22c, 0, 1, .none, .page, [⟨31, 28, .ro, 0, false, .any, false⟩, ⟨17, 0, .ro, 0, false, .any, false⟩]⟩,
  ⟨0x230, 0, 1, .none, .page, [⟨31, 16, .ro, 0, false, .any, false⟩, ⟨15, 0, .ro, 0, false, .any, false⟩]⟩,
  ⟨0x240, 0, 1, .stat, .page, [⟨31, 31, .ro, 0, false, .any, false⟩, ⟨30, 0, .ro, 0, false, .any, false⟩]⟩,
  ⟨0x244, 0, 1, .stat, .page, [⟨31, 31, .ro, 0, false, .any, false⟩, ⟨30, 0, .ro, 0, false, .any, false⟩]⟩,
  ⟨0x248, 0, 1, .stat, .page, [⟨31, 31, .ro, 0, false, .any, false⟩, ⟨30, 0, .ro, 0, false, .any, false⟩]⟩,
  ⟨0x24c, 0, 1, .stat, .page, [⟨31, 31, .ro, 0, false, .any, false⟩, ⟨30, 0, .ro, 0, false, .any, false⟩]⟩,
  ⟨0x250, 0, 1, .stat, .page, [⟨31, 31, .ro, 0, false, .any, false⟩, ⟨30, 0, .ro, 0, false, .any, false⟩]⟩,
  ⟨0x300, 0, 1, .none, .page, [⟨12, 12, .rw, 0, true, .any, false⟩, ⟨8, 8, .rw, 0, true, .any, false⟩, ⟨4, 4, .w1s, 0, false, .any, false⟩, ⟨2, 0, .rw, 0, true, .le 6, false⟩]⟩,
  ⟨0x304, 0, 1, .none, .page, [⟨8, 8, .rw, 0, true, .any, false⟩, ⟨7, 0, .rw, 0, true, .le 132, false⟩]⟩]

/-- Registers of a `PORT` page (chapter 03). -/
def regsPort2 : List RegSpec := [
  ⟨0x308, 0, 1, .none, .page, [⟨31, 24, .rw, 0x2f, false, .any, false⟩, ⟨15, 8, .rw, 0x64, false, .any, false⟩, ⟨5, 0, .rw, 3, false, .span 1 50, false⟩]⟩,
  ⟨0x30c, 0, 1, .none, .page, [⟨31, 31, .ro, 0, false, .any, false⟩, ⟨30, 20, .ro, 0, false, .any, false⟩, ⟨19, 19, .ro, 0, false, .any, false⟩, ⟨15, 0, .ro, 0x9c4, false, .any, false⟩]⟩,
  ⟨0x310, 0, 1, .none, .page, [⟨31, 28, .ro, 0, false, .any, false⟩, ⟨19, 0, .ro, 0, false, .any, false⟩]⟩,
  ⟨0x314, 0, 1, .none, .page, [⟨23, 0, .ro, 0, false, .any, false⟩]⟩,
  ⟨0x318, 0, 1, .none, .page, [⟨31, 28, .ro, 0, false, .any, false⟩, ⟨14, 12, .ro, 0, false, .any, false⟩, ⟨11, 8, .ro, 0xf, false, .any, false⟩, ⟨3, 0, .ro, 0xf, false, .any, false⟩]⟩,
  ⟨0x31c, 0, 1, .stat, .page, [⟨31, 31, .ro, 0, false, .any, false⟩, ⟨30, 0, .ro, 0, false, .any, false⟩]⟩,
  ⟨0x320, 0, 1, .stat, .page, [⟨31, 31, .ro, 0, false, .any, false⟩, ⟨30, 0, .ro, 0, false, .any, false⟩]⟩]

/-- Registers of a `PORT` page (chapter 03). -/
def regsPort : List RegSpec := regsPort0 ++ regsPort1 ++ regsPort2

/-- Registers of a `TREG` page (chapter 07). -/
def regsTreg0 : List RegSpec := [
  ⟨0x40, 0, 1, .none, .page, [⟨0, 0, .rw, 1, true, .any, false⟩]⟩,
  ⟨0x44, 0, 1, .none, .page, [⟨31, 31, .ro, 0, false, .any, false⟩, ⟨30, 29, .ro, 0, false, .any, false⟩, ⟨28, 25, .ro, 0, false, .any, false⟩, ⟨20, 4, .ro, 0, false, .any, false⟩]⟩,
  ⟨0x80, 4, 16, .none, .page, [⟨31, 16, .rw, 0xffff, true, .any, false⟩, ⟨10, 8, .rw, 2, true, .any, false⟩, ⟨0, 0, .rw, 0, true, .any, false⟩]⟩,
  ⟨0xc0, 4, 16, .none, .page, [⟨31, 29, .ro, 0, false, .any, false⟩, ⟨28, 24, .ro, 0, false, .any, false⟩, ⟨23, 23, .ro, 0, false, .any, false⟩, ⟨13, 8, .ro, 0, false, .any, false⟩, ⟨4, 0, .ro, 0x1f, false, .any, false⟩]⟩,
  ⟨0x100, 4, 16, .none, .page, [⟨15, 0, .ro, 0, false, .any, false⟩]⟩,
  ⟨0x140, 8, 16, .none, .page, [⟨31, 31, .rw, 0, true, .any, false⟩, ⟨15, 8, .rw, 0, true, .any, false⟩, ⟨2, 0, .rw, 0, true, .any, false⟩]⟩,
  ⟨0x144, 8, 16, .none, .page, [⟨11, 0, .rw, 0, true, .any, false⟩]⟩,
  ⟨0x200, 0, 1, .stat, .page, [⟨31, 31, .ro, 0, false, .any, false⟩, ⟨30, 0, .ro, 0, false, .any, false⟩]⟩,
  ⟨0x204, 0, 1, .stat, .page, [⟨31, 31, .ro, 0, false, .any, false⟩, ⟨30, 0, .ro, 0, false, .any, false⟩]⟩,
  ⟨0x208, 0, 1, .stat, .page, [⟨31, 31, .ro, 0, false, .any, false⟩, ⟨30, 0, .ro, 0, false, .any, false⟩]⟩,
  ⟨0x20c, 0, 1, .stat, .page, [⟨31, 31, .ro, 0, false, .any, false⟩, ⟨30, 0, .ro, 0, false, .any, false⟩]⟩,
  ⟨0x210, 0, 1, .stat, .page, [⟨31, 31, .ro, 0, false, .any, false⟩, ⟨30, 0, .ro, 0, false, .any, false⟩]⟩,
  ⟨0x214, 0, 1, .stat, .page, [⟨31, 31, .ro, 0, false, .any, false⟩, ⟨30, 0, .ro, 0, false, .any, false⟩]⟩,
  ⟨0x218, 0, 1, .stat, .page, [⟨31, 31, .ro, 0, false, .any, false⟩, ⟨30, 0, .ro, 0, false, .any, false⟩]⟩,
  ⟨0x21c, 0, 1, .stat, .page, [⟨31, 31, .ro, 0, false, .any, false⟩, ⟨30, 0, .ro, 0, false, .any, false⟩]⟩,
  ⟨0x220, 0, 1, .stat, .page, [⟨31, 31, .ro, 0, false, .any, false⟩, ⟨30, 0, .ro, 0, false, .any, false⟩]⟩,
  ⟨0x240, 0, 1, .none, .page, [⟨31, 28, .ro, 0, false, .any, false⟩, ⟨21, 14, .ro, 0, false, .any, false⟩, ⟨13, 0, .ro, 0, false, .any, false⟩]⟩,
  ⟨0x244, 0, 1, .none, .page, [⟨31, 28, .ro, 0, false, .any, false⟩, ⟨12, 0, .ro, 0, false, .any, false⟩]⟩,
  ⟨0x280, 0, 1, .none, .page, [⟨17, 14, .rw, 0, false, .any, false⟩, ⟨13, 0, .rw, 0, false, .any, false⟩]⟩,
  ⟨0x284, 0, 1, .none, .page, [⟨31, 0, .rw, 0, false, .any, false⟩]⟩]

/-- Registers of a `TREG` page (chapter 07). -/
def regsTreg1 : List RegSpec := [
  ⟨0x300, 0, 1, .none, .page, [⟨31, 31, .w1s, 0, false, .any, false⟩, ⟨30, 30, .w1s, 0, false, .any, false⟩, ⟨29, 28, .rw, 0, false, .le 2, false⟩, ⟨27, 24, .rw, 0, false, .any, false⟩, ⟨23, 20, .rw, 0, false, .any, false⟩, ⟨19, 16, .rw, 0, false, .any, false⟩, ⟨15, 12, .rw, 0, false, .any, false⟩, ⟨0, 0, .rw, 0, false, .any, false⟩]⟩,
  ⟨0x304, 0, 1, .none, .page, [⟨31, 16, .rw, 0x100, false, .span 1 65535, false⟩, ⟨15, 0, .rw, 0, false, .any, false⟩]⟩,
  ⟨0x308, 0, 1, .none, .page, [⟨31, 31, .rw, 0, false, .any, false⟩, ⟨27, 16, .rw, 0, false, .le 2048, false⟩, ⟨10, 0, .rw, 0, false, .any, false⟩]⟩,
  ⟨0x30c, 0, 1, .none, .page, [⟨13, 0, .rw, 0x14, false, .span 8 10000, false⟩]⟩,
  ⟨0x310, 0, 1, .none, .page, [⟨31, 28, .ro, 0xf, false, .any, false⟩, ⟨27, 27, .ro, 0, false, .any, false⟩, ⟨26, 24, .ro, 0, false, .any, false⟩, ⟨23, 23, .ro, 0, false, .any, false⟩, ⟨15, 0, .ro, 0, false, .any, false⟩]⟩,
  ⟨0x340, 4, 16, .none, .page, [⟨23, 0, .rw, 0, false, .any, false⟩]⟩]

/-- Registers of a `TREG` page (chapter 07). -/
def regsTreg : List RegSpec := regsTreg0 ++ regsTreg1

/-- Registers of a `FREG` page (chapter 12). -/
def regsFreg0 : List RegSpec := [
  ⟨0x40, 4, 4, .none, .page, [⟨31, 31, .rw, 0, true, .any, false⟩, ⟨7, 0, .rw, 0, true, .any, false⟩]⟩,
  ⟨0x50, 0, 1, .none, .page, [⟨31, 31, .ro, 0, false, .any, false⟩, ⟨30, 30, .ro, 0, false, .any, false⟩, ⟨11, 8, .ro, 0, false, .any, false⟩]⟩,
  ⟨0x54, 0, 1, .none, .page, [⟨31, 31, .ro, 0, false, .any, false⟩, ⟨27, 16, .ro, 0, false, .any, false⟩, ⟨14, 12, .ro, 0, false, .any, false⟩, ⟨10, 8, .ro, 0, false, .any, false⟩]⟩,
  ⟨0x58, 0, 1, .none, .page, [⟨0, 0, .w1s, 0, false, .any, false⟩]⟩,
  ⟨0x60, 0, 1, .none, .page, [⟨31, 31, .rw, 0, true, .any, false⟩, ⟨21, 16, .rw, 0, true, .any, false⟩, ⟨5, 0, .rw, 0, true, .any, false⟩]⟩,
  ⟨0x68, 0, 1, .none, .page, [⟨31, 0, .rw, 0, false, .any, false⟩]⟩,
  ⟨0x6c, 0, 1, .none, .page, [⟨31, 0, .rw, 0, false, .any, false⟩]⟩,
  ⟨0x80, 8, 8, .none, .page, [⟨31, 31, .rw, 0, true, .any, false⟩, ⟨30, 29, .rw, 0, true, .any, false⟩, ⟨28, 27, .rw, 0, true, .any, false⟩, ⟨26, 21, .rw, 0, true, .any, false⟩, ⟨20, 15, .rw, 0, true, .any, false⟩, ⟨13, 0, .rw, 0, true, .any, false⟩]⟩,
  ⟨0x84, 8, 8, .none, .page, [⟨21, 16, .ro, 0, false, .any, false⟩, ⟨13, 8, .ro, 0, false, .any, false⟩, ⟨4, 0, .ro, 0, false, .any, false⟩]⟩,
  ⟨0xc0, 0, 1, .none, .page, [⟨31, 31, .rw, 0, false, .any, false⟩, ⟨9, 0, .rw, 0x64, false, .span 50 800, false⟩]⟩,
  ⟨0xc4, 0, 1, .none, .page, [⟨31, 31, .ro, 0, false, .any, false⟩, ⟨19, 0, .ro, 0, false, .any, false⟩]⟩,
  ⟨0xd0, 0, 1, .none, .page, [⟨31, 31, .ro, 0, false, .any, false⟩, ⟨20, 16, .ro, 0, false, .any, false⟩, ⟨8, 0, .ro, 0, false, .any, false⟩]⟩,
  ⟨0xd4, 0, 1, .none, .page, [⟨31, 0, .ro, 0, false, .any, false⟩]⟩,
  ⟨0xe0, 0, 1, .stat, .page, [⟨31, 31, .ro, 0, false, .any, false⟩, ⟨30, 0, .ro, 0, false, .any, false⟩]⟩,
  ⟨0xe4, 0, 1, .stat, .page, [⟨31, 31, .ro, 0, false, .any, false⟩, ⟨30, 0, .ro, 0, false, .any, false⟩]⟩,
  ⟨0xe8, 0, 1, .stat, .page, [⟨31, 31, .ro, 0, false, .any, false⟩, ⟨30, 0, .ro, 0, false, .any, false⟩]⟩,
  ⟨0xec, 0, 1, .stat, .page, [⟨31, 31, .ro, 0, false, .any, false⟩, ⟨30, 0, .ro, 0, false, .any, false⟩]⟩,
  ⟨0x100, 4, 32, .none, .page, [⟨31, 0, .ro, 0, false, .any, false⟩]⟩,
  ⟨0x200, 0, 1, .none, .page, [⟨0, 0, .rw, 0, true, .any, false⟩]⟩,
  ⟨0x204, 0, 1, .none, .page, [⟨31, 29, .ro, 0, false, .any, false⟩, ⟨26, 24, .ro, 0, false, .any, false⟩]⟩]

/-- Registers of a `FREG` page (chapter 12). -/
def regsFreg1 : List RegSpec := [
  ⟨0x208, 0, 1, .none, .page, [⟨31, 0, .ro, 0, false, .any, false⟩]⟩]

/-- Registers of a `FREG` page (chapter 12). -/
def regsFreg : List RegSpec := regsFreg0 ++ regsFreg1

/-- Registers of a `KEEP` page (chapter 12). -/
def regsKeep : List RegSpec := [
  ⟨0x40, 4, 4, .none, .page, [⟨31, 31, .rw, 0, true, .any, false⟩, ⟨7, 0, .rw, 0, true, .any, false⟩]⟩,
  ⟨0x50, 0, 1, .none, .page, [⟨31, 31, .ro, 0, false, .any, false⟩, ⟨30, 30, .ro, 0, false, .any, false⟩, ⟨11, 8, .ro, 0, false, .any, false⟩]⟩,
  ⟨0x60, 0, 1, .none, .page, [⟨31, 31, .rw, 0, true, .any, false⟩, ⟨21, 16, .rw, 0, true, .any, false⟩, ⟨5, 0, .rw, 0, true, .any, false⟩]⟩,
  ⟨0x68, 0, 1, .none, .page, [⟨31, 0, .rw, 0, false, .any, false⟩]⟩,
  ⟨0x6c, 0, 1, .none, .page, [⟨31, 0, .rw, 0, false, .any, false⟩]⟩,
  ⟨0x80, 8, 8, .none, .page, [⟨31, 31, .rw, 0, true, .any, false⟩, ⟨30, 29, .rw, 0, true, .any, false⟩, ⟨28, 27, .rw, 0, true, .any, false⟩, ⟨26, 21, .rw, 0, true, .any, false⟩, ⟨20, 15, .rw, 0, true, .any, false⟩, ⟨13, 0, .rw, 0, true, .any, false⟩]⟩,
  ⟨0x84, 8, 8, .none, .page, [⟨21, 16, .ro, 0, false, .any, false⟩, ⟨13, 8, .ro, 0, false, .any, false⟩, ⟨4, 0, .ro, 0, false, .any, false⟩]⟩,
  ⟨0xec, 0, 1, .stat, .page, [⟨31, 31, .ro, 0, false, .any, false⟩, ⟨30, 0, .ro, 0, false, .any, false⟩]⟩,
  ⟨0x200, 0, 1, .none, .page, [⟨0, 0, .rw, 0, true, .any, false⟩]⟩,
  ⟨0x204, 0, 1, .none, .page, [⟨31, 29, .ro, 0, false, .any, false⟩, ⟨26, 24, .ro, 0, false, .any, false⟩]⟩,
  ⟨0x208, 0, 1, .none, .page, [⟨31, 0, .ro, 0, false, .any, false⟩]⟩]

/-- Registers of a `CWAY` page (chapter 09). -/
def regsCway : List RegSpec := [
  ⟨0x40, 0, 1, .none, .page, [⟨11, 8, .rw, 0xc, false, .span 1 15, false⟩, ⟨7, 4, .rw, 1, false, .span 1 15, false⟩, ⟨3, 0, .rw, 3, false, .span 1 15, false⟩]⟩,
  ⟨0x44, 0, 1, .none, .page, [⟨13, 0, .rw, 0, false, .any, false⟩]⟩,
  ⟨0x48, 0, 1, .none, .page, [⟨31, 31, .rw, 0, false, .any, false⟩, ⟨30, 29, .rw, 0, false, .any, false⟩, ⟨28, 23, .rw, 0, false, .any, false⟩, ⟨19, 0, .rw, 0, false, .le 1000000, false⟩]⟩,
  ⟨0x4c, 0, 1, .none, .page, [⟨31, 24, .ro, 0, false, .any, false⟩, ⟨23, 16, .ro, 0, false, .any, false⟩, ⟨15, 0, .ro, 0, false, .any, false⟩]⟩,
  ⟨0x50, 0, 1, .none, .page, [⟨31, 29, .ro, 0, false, .any, false⟩, ⟨28, 23, .ro, 0, false, .any, false⟩, ⟨16, 0, .ro, 0, false, .any, false⟩]⟩,
  ⟨0x60, 0, 1, .stat, .page, [⟨31, 31, .ro, 0, false, .any, false⟩, ⟨30, 0, .ro, 0, false, .any, false⟩]⟩,
  ⟨0x64, 0, 1, .stat, .page, [⟨31, 31, .ro, 0, false, .any, false⟩, ⟨30, 0, .ro, 0, false, .any, false⟩]⟩,
  ⟨0x400, 4, 144, .none, .page, [⟨21, 16, .rw, 0, true, .any, false⟩, ⟨13, 0, .rw, 0, true, .any, false⟩]⟩]

/-- Registers of a `ROUTER` page (chapter 09). -/
def regsRouter : List RegSpec := [
  ⟨0x40, 4, 5, .none, .page, [⟨31, 16, .ro, 0, false, .any, false⟩, ⟨15, 0, .ro, 0, false, .any, false⟩]⟩,
  ⟨0x60, 0, 1, .stat, .page, [⟨31, 31, .ro, 0, false, .any, false⟩, ⟨30, 0, .ro, 0, false, .any, false⟩]⟩]

/-- Registers of a `FMEM` page (chapter 09). -/
def regsFmem : List RegSpec := [
  ⟨0x40, 0, 1, .none, .page, [⟨31, 25, .ro, 0, false, .any, false⟩, ⟨24, 18, .ro, 0, false, .any, false⟩, ⟨0, 0, .ro, 0, false, .any, false⟩]⟩,
  ⟨0x44, 0, 1, .none, .page, [⟨31, 31, .ro, 0, false, .any, false⟩, ⟨27, 3, .ro, 0, false, .any, false⟩]⟩,
  ⟨0x48, 0, 1, .none, .page, [⟨31, 31, .ro, 0, false, .any, false⟩, ⟨27, 3, .ro, 0, false, .any, false⟩]⟩,
  ⟨0x4c, 0, 1, .none, .page, [⟨31, 31, .w1s, 0, false, .any, false⟩, ⟨30, 30, .w1s, 0, false, .any, false⟩, ⟨12, 0, .rw, 0, false, .any, false⟩]⟩,
  ⟨0x50, 0, 1, .none, .page, [⟨31, 28, .ro, 0xf, false, .any, false⟩, ⟨27, 27, .ro, 0, false, .any, false⟩, ⟨26, 24, .ro, 0, false, .any, false⟩, ⟨12, 0, .ro, 0, false, .any, false⟩]⟩,
  ⟨0x54, 0, 1, .none, .page, [⟨13, 0, .rw, 0x14, false, .span 8 10000, false⟩]⟩,
  ⟨0x60, 0, 1, .stat, .page, [⟨31, 31, .ro, 0, false, .any, false⟩, ⟨30, 0, .ro, 0, false, .any, false⟩]⟩,
  ⟨0x64, 0, 1, .stat, .page, [⟨31, 31, .ro, 0, false, .any, false⟩, ⟨30, 0, .ro, 0, false, .any, false⟩]⟩,
  ⟨0x68, 0, 1, .stat, .page, [⟨31, 31, .ro, 0, false, .any, false⟩, ⟨30, 0, .ro, 0, false, .any, false⟩]⟩,
  ⟨0x6c, 0, 1, .stat, .page, [⟨31, 31, .ro, 0, false, .any, false⟩, ⟨30, 0, .ro, 0, false, .any, false⟩]⟩,
  ⟨0x100, 0, 1, .none, .page, [⟨31, 31, .rw, 0, true, .any, false⟩, ⟨30, 30, .rw, 0, true, .any, false⟩, ⟨29, 24, .rw, 0, true, .any, false⟩, ⟨21, 16, .rw, 0, true, .any, false⟩, ⟨13, 0, .rw, 0, true, .any, false⟩]⟩,
  ⟨0x104, 0, 1, .none, .page, [⟨17, 0, .rw, 0, true, .any, false⟩]⟩,
  ⟨0x108, 0, 1, .none, .page, [⟨31, 29, .rw, 0, true, .any, false⟩, ⟨17, 0, .rw, 1, true, .span 1 262143, false⟩]⟩,
  ⟨0x10c, 0, 1, .none, .page, [⟨29, 0, .rw, 0, true, .le 999999999, false⟩]⟩,
  ⟨0x110, 0, 1, .none, .page, [⟨31, 29, .ro, 0, false, .any, false⟩, ⟨28, 26, .ro, 0, false, .any, false⟩]⟩]

/-- Registers of a `LGRP` page (chapter 10). -/
def regsLgrp : List RegSpec := [
  ⟨0x40, 0, 1, .none, .page, [⟨29, 8, .rw, 0x2756cd, true, .span 1406250 2812500, false⟩, ⟨7, 4, .rw, 0, true, .any, false⟩, ⟨3, 0, .rw, 0, true, .any, false⟩]⟩,
  ⟨0x44, 0, 1, .none, .page, [⟨31, 31, .ro, 0, false, .any, false⟩, ⟨30, 30, .ro, 0, false, .any, false⟩, ⟨21, 0, .ro, 0, false, .any, false⟩]⟩,
  ⟨0x48, 0, 1, .none, .page, [⟨31, 31, .rw, 0, false, .any, false⟩, ⟨25, 24, .rw, 0, false, .any, false⟩, ⟨23, 16, .rw, 0, false, .le 191, false⟩, ⟨15, 8, .rw, 0, false, .any, false⟩, ⟨7, 0, .rw, 0, false, .any, false⟩]⟩,
  ⟨0x4c, 0, 1, .none, .page, [⟨31, 31, .ro, 0, false, .any, false⟩, ⟨30, 28, .ro, 0, false, .any, false⟩, ⟨27, 24, .ro, 0, false, .any, false⟩, ⟨23, 16, .ro, 0, false, .any, false⟩, ⟨15, 0, .ro, 0, false, .any, false⟩]⟩,
  ⟨0x50, 0, 1, .none, .page, [⟨31, 31, .w1s, 0, false, .any, false⟩, ⟨30, 30, .rw, 0, false, .any, false⟩, ⟨29, 29, .ro, 0, false, .any, false⟩, ⟨23, 16, .rw, 0, false, .any, false⟩, ⟨15, 8, .rw, 0, false, .any, false⟩, ⟨7, 0, .rw, 0, false, .any, false⟩]⟩,
  ⟨0x60, 0, 1, .stat, .page, [⟨31, 31, .ro, 0, false, .any, false⟩, ⟨30, 0, .ro, 0, false, .any, false⟩]⟩]

/-- Registers of a `LANE` page (chapter 10). -/
def regsLane : List RegSpec := [
  ⟨0x40, 0, 1, .none, .page, [⟨20, 16, .rw, 0, true, .any, false⟩, ⟨13, 12, .rw, 0, true, .le 2, false⟩, ⟨10, 8, .rw, 0, true, .le 4, false⟩, ⟨7, 5, .rw, 0, true, .le 6, false⟩, ⟨4, 4, .rw, 0, true, .any, false⟩, ⟨3, 3, .rw, 0, true, .any, false⟩, ⟨2, 2, .rw, 0, true, .any, false⟩]⟩,
  ⟨0x44, 0, 1, .none, .page, [⟨31, 24, .rw, 0, true, .any, false⟩, ⟨23, 16, .rw, 0, true, .any, false⟩, ⟨15, 8, .rw, 0x40, true, .le 64, false⟩, ⟨7, 0, .rw, 0, true, .any, false⟩]⟩,
  ⟨0x48, 0, 1, .none, .page, [⟨31, 31, .rw, 0, false, .any, false⟩, ⟨7, 0, .rw, 0x1e, false, .any, false⟩]⟩,
  ⟨0x4c, 0, 1, .none, .page, [⟨31, 31, .ro, 0, false, .any, false⟩, ⟨30, 30, .ro, 0, false, .any, false⟩, ⟨29, 28, .ro, 0, false, .any, false⟩, ⟨27, 27, .ro, 0, false, .any, false⟩, ⟨15, 0, .ro, 0, false, .any, false⟩]⟩,
  ⟨0x50, 0, 1, .none, .page, [⟨31, 31, .ro, 0, false, .any, false⟩, ⟨30, 30, .ro, 0, false, .any, false⟩, ⟨25, 16, .ro, 0, false, .any, false⟩, ⟨11, 0, .ro, 0xfff, false, .any, false⟩]⟩,
  ⟨0x58, 0, 1, .none, .store, [⟨0, 0, .rw, 0, false, .any, false⟩]⟩,
  ⟨0x60, 4, 4, .none, .page, [⟨31, 16, .ro, 0, false, .any, false⟩, ⟨15, 0, .ro, 0, false, .any, false⟩]⟩,
  ⟨0x80, 0, 1, .stat64, .page, [⟨31, 0, .ro, 0, false, .any, false⟩]⟩,
  ⟨0x88, 0, 1, .stat, .page, [⟨31, 31, .ro, 0, false, .any, false⟩, ⟨30, 0, .ro, 0, false, .any, false⟩]⟩]

/-- Registers of a `ETH` page (chapter 10). -/
def regsEth0 : List RegSpec := [
  ⟨0x40, 0, 1, .none, .page, [⟨29, 16, .rw, 0x2580, true, .span 1518 9600, false⟩, ⟨9, 8, .rw, 0, true, .le 2, false⟩, ⟨5, 4, .rw, 2, true, .le 2, false⟩, ⟨3, 3, .rw, 0, true, .any, false⟩, ⟨1, 1, .rw, 0, true, .any, false⟩, ⟨0, 0, .rw, 0, true, .any, false⟩]⟩,
  ⟨0x44, 0, 1, .none, .page, [⟨31, 31, .ro, 0, false, .any, false⟩, ⟨30, 30, .ro, 0, false, .any, false⟩, ⟨15, 12, .ro, 0, false, .any, false⟩, ⟨11, 8, .ro, 0, false, .any, false⟩, ⟨2, 0, .ro, 0, false, .any, false⟩]⟩,
  ⟨0x50, 0, 1, .none, .page, [⟨31, 31, .w1s, 0, false, .any, false⟩, ⟨30, 30, .w1s, 0, false, .any, false⟩, ⟨17, 16, .rw, 0, false, .any, false⟩, ⟨15, 0, .rw, 0x1f4, false, .span 1 65535, false⟩]⟩,
  ⟨0x54, 0, 1, .none, .page, [⟨31, 28, .ro, 0, false, .any, false⟩]⟩,
  ⟨0x58, 0, 1, .none, .page, [⟨31, 31, .ro, 0, false, .any, false⟩, ⟨30, 29, .ro, 0, false, .any, false⟩, ⟨22, 0, .ro, 0, false, .any, false⟩]⟩,
  ⟨0x100, 0, 1, .stat64, .page, [⟨31, 0, .ro, 0, false, .any, false⟩]⟩,
  ⟨0x108, 0, 1, .stat64, .page, [⟨31, 0, .ro, 0, false, .any, false⟩]⟩,
  ⟨0x110, 0, 1, .stat64, .page, [⟨31, 0, .ro, 0, false, .any, false⟩]⟩,
  ⟨0x118, 0, 1, .stat64, .page, [⟨31, 0, .ro, 0, false, .any, false⟩]⟩,
  ⟨0x120, 0, 1, .stat64, .page, [⟨31, 0, .ro, 0, false, .any, false⟩]⟩,
  ⟨0x128, 0, 1, .stat64, .page, [⟨31, 0, .ro, 0, false, .any, false⟩]⟩,
  ⟨0x130, 0, 1, .stat64, .page, [⟨31, 0, .ro, 0, false, .any, false⟩]⟩,
  ⟨0x138, 0, 1, .stat64, .page, [⟨31, 0, .ro, 0, false, .any, false⟩]⟩,
  ⟨0x140, 0, 1, .stat64, .page, [⟨31, 0, .ro, 0, false, .any, false⟩]⟩,
  ⟨0x148, 0, 1, .stat64, .page, [⟨31, 0, .ro, 0, false, .any, false⟩]⟩,
  ⟨0x200, 0, 1, .none, .page, [⟨31, 0, .rw, 0, false, .any, false⟩]⟩,
  ⟨0x204, 0, 1, .none, .page, [⟨15, 0, .rw, 0, false, .any, false⟩]⟩,
  ⟨0x208, 0, 1, .none, .page, [⟨31, 16, .rw, 0, false, .any, false⟩, ⟨1, 1, .rw, 0, false, .any, false⟩, ⟨0, 0, .rw, 0, false, .any, false⟩]⟩,
  ⟨0x20c, 0, 1, .none, .page, [⟨31, 31, .ro, 0, false, .any, false⟩, ⟨20, 16, .ro, 0, false, .any, false⟩, ⟨15, 0, .ro, 0, false, .any, false⟩]⟩,
  ⟨0x210, 0, 1, .none, .page, [⟨29, 0, .ro, 0, false, .any, false⟩]⟩]

/-- Registers of a `ETH` page (chapter 10). -/
def regsEth1 : List RegSpec := [
  ⟨0x214, 0, 1, .none, .page, [⟨31, 0, .ro, 0, false, .any, false⟩]⟩,
  ⟨0x218, 0, 1, .none, .page, [⟨0, 0, .wo, 0, false, .any, false⟩]⟩,
  ⟨0x220, 0, 1, .stat, .page, [⟨31, 31, .ro, 0, false, .any, false⟩, ⟨30, 0, .ro, 0, false, .any, false⟩]⟩]

/-- Registers of a `ETH` page (chapter 10). -/
def regsEth : List RegSpec := regsEth0 ++ regsEth1

/-- Registers of a `MEDIA` page (chapter 11). -/
def regsMedia : List RegSpec := [
  ⟨0x40, 0, 1, .none, .page, [⟨31, 31, .rw, 0, false, .any, false⟩, ⟨19, 16, .rw, 0, false, .any, false⟩]⟩,
  ⟨0x44, 4, 3, .none, .page, [⟨31, 0, .rw, 0, false, .any, false⟩]⟩,
  ⟨0x50, 4, 3, .none, .page, [⟨31, 0, .rw, 0, false, .any, false⟩]⟩,
  ⟨0x60, 0, 1, .none, .page, [⟨31, 24, .ro, 0, false, .any, false⟩, ⟨23, 16, .ro, 0, false, .any, false⟩, ⟨10, 0, .ro, 0, false, .any, false⟩]⟩,
  ⟨0x64, 0, 1, .none, .page, [⟨31, 28, .ro, 0, false, .any, false⟩, ⟨17, 4, .ro, 0, false, .any, false⟩, ⟨3, 0, .ro, 0, false, .any, false⟩]⟩,
  ⟨0x80, 0, 1, .stat64, .page, [⟨31, 0, .ro, 0, false, .any, false⟩]⟩,
  ⟨0x88, 0, 1, .stat64, .page, [⟨31, 0, .ro, 0, false, .any, false⟩]⟩,
  ⟨0x90, 0, 1, .stat, .page, [⟨31, 31, .ro, 0, false, .any, false⟩, ⟨30, 0, .ro, 0, false, .any, false⟩]⟩,
  ⟨0x94, 0, 1, .stat, .page, [⟨31, 31, .ro, 0, false, .any, false⟩, ⟨30, 0, .ro, 0, false, .any, false⟩]⟩,
  ⟨0x98, 0, 1, .stat, .page, [⟨31, 31, .ro, 0, false, .any, false⟩, ⟨30, 0, .ro, 0, false, .any, false⟩]⟩,
  ⟨0x9c, 0, 1, .stat, .page, [⟨31, 31, .ro, 0, false, .any, false⟩, ⟨30, 0, .ro, 0, false, .any, false⟩]⟩,
  ⟨0xa0, 0, 1, .stat, .page, [⟨31, 31, .ro, 0, false, .any, false⟩, ⟨30, 0, .ro, 0, false, .any, false⟩]⟩,
  ⟨0xa4, 0, 1, .stat, .page, [⟨31, 31, .ro, 0, false, .any, false⟩, ⟨30, 0, .ro, 0, false, .any, false⟩]⟩]

/-- Registers of a `IOB` page (chapter 14). -/
def regsIob : List RegSpec := [
  ⟨0x40, 0, 1, .none, .page, [⟨31, 31, .rw, 0, false, .any, true⟩, ⟨1, 0, .rw, 0, false, .le 2, false⟩]⟩,
  ⟨0x44, 0, 1, .none, .page, [⟨31, 31, .ro, 0, false, .any, false⟩, ⟨30, 30, .ro, 0, false, .any, false⟩, ⟨15, 0, .ro, 0, false, .any, false⟩]⟩,
  ⟨0x80, 4, 16, .none, .page, [⟨29, 24, .rw, 0, true, .le 31, false⟩, ⟨19, 16, .rw, 1, true, .any, false⟩, ⟨13, 13, .rw, 0, true, .any, false⟩, ⟨12, 12, .rw, 0, true, .any, false⟩, ⟨11, 11, .rw, 0, true, .any, false⟩, ⟨10, 10, .rw, 0, true, .any, false⟩, ⟨8, 8, .rw, 0, true, .any, false⟩, ⟨3, 0, .rw, 1, true, .le 5, false⟩]⟩,
  ⟨0xc0, 4, 16, .none, .page, [⟨8, 0, .rw, 0, true, .any, false⟩]⟩,
  ⟨0x100, 0, 1, .none, .page, [⟨31, 16, .wo, 0, false, .any, false⟩, ⟨15, 0, .rw, 0, true, .any, false⟩]⟩,
  ⟨0x104, 0, 1, .none, .page, [⟨31, 16, .wo, 0, false, .any, false⟩, ⟨15, 0, .rw, 0, true, .any, false⟩]⟩,
  ⟨0x108, 0, 1, .none, .page, [⟨31, 16, .wo, 0, false, .any, false⟩, ⟨15, 0, .rw, 0, true, .any, false⟩]⟩,
  ⟨0x10c, 0, 1, .none, .page, [⟨15, 0, .ro, 0, false, .any, false⟩]⟩,
  ⟨0x110, 0, 1, .none, .page, [⟨31, 16, .wo, 0, false, .any, false⟩, ⟨15, 0, .wo, 0, false, .any, false⟩]⟩,
  ⟨0x114, 0, 1, .none, .page, [⟨15, 0, .ro, 0, false, .any, false⟩]⟩,
  ⟨0x118, 0, 1, .none, .page, [⟨31, 16, .rw, 0, false, .any, true⟩, ⟨15, 0, .rw, 0, false, .any, true⟩]⟩,
  ⟨0x120, 4, 4, .none, .page, [⟨29, 24, .rw, 0x24, false, .le 36, true⟩, ⟨21, 16, .rw, 0x24, false, .le 36, true⟩, ⟨13, 8, .rw, 0x24, false, .le 36, true⟩, ⟨5, 0, .rw, 0x24, false, .le 36, true⟩]⟩,
  ⟨0x130, 4, 2, .none, .page, [⟨31, 28, .ro, 0xc, false, .any, false⟩, ⟨27, 24, .ro, 0xc, false, .any, false⟩, ⟨23, 20, .ro, 0xc, false, .any, false⟩, ⟨19, 16, .ro, 0xc, false, .any, false⟩, ⟨15, 12, .ro, 0xc, false, .any, false⟩, ⟨11, 8, .ro, 0xc, false, .any, false⟩, ⟨7, 4, .ro, 0xc, false, .any, false⟩, ⟨3, 0, .ro, 0xc, false, .any, false⟩]⟩,
  ⟨0x140, 0, 1, .stat, .page, [⟨31, 31, .ro, 0, false, .any, false⟩, ⟨30, 0, .ro, 0, false, .any, false⟩]⟩,
  ⟨0x144, 0, 1, .stat, .page, [⟨31, 31, .ro, 0, false, .any, false⟩, ⟨30, 0, .ro, 0, false, .any, false⟩]⟩]

/-- Registers of a `UART` page (chapter 14). -/
def regsUart : List RegSpec := [
  ⟨0x40, 0, 1, .none, .page, [⟨31, 31, .rw, 0, false, .any, false⟩, ⟨29, 24, .rw, 0, false, .le 33, false⟩, ⟨23, 22, .rw, 0, false, .any, false⟩, ⟨21, 20, .rw, 0, false, .any, false⟩]⟩,
  ⟨0x44, 0, 1, .none, .page, [⟨8, 8, .ro, 0, false, .any, false⟩, ⟨7, 0, .rw, 0, false, .any, false⟩]⟩,
  ⟨0x48, 0, 1, .none, .page, [⟨12, 8, .ro, 0, false, .any, false⟩, ⟨4, 0, .ro, 0, false, .any, false⟩]⟩,
  ⟨0x4c, 0, 1, .none, .page, [⟨6, 0, .rw, 0, false, .any, false⟩]⟩,
  ⟨0x50, 0, 1, .none, .page, [⟨25, 0, .rw, 0, false, .any, false⟩]⟩]

/-- Registers of a `SPI` page (chapter 14). -/
def regsSpi : List RegSpec := [
  ⟨0x40, 0, 1, .none, .page, [⟨31, 31, .rw, 0, false, .any, false⟩, ⟨29, 24, .rw, 0, false, .le 33, false⟩, ⟨23, 22, .rw, 0, false, .any, false⟩, ⟨21, 20, .rw, 0, false, .any, false⟩]⟩,
  ⟨0x44, 0, 1, .none, .page, [⟨8, 8, .ro, 0, false, .any, false⟩, ⟨7, 0, .rw, 0, false, .any, false⟩]⟩,
  ⟨0x48, 0, 1, .none, .page, [⟨12, 8, .ro, 0, false, .any, false⟩, ⟨4, 0, .ro, 0, false, .any, false⟩]⟩,
  ⟨0x4c, 0, 1, .none, .page, [⟨6, 0, .rw, 0, false, .any, false⟩]⟩,
  ⟨0x50, 0, 1, .none, .page, [⟨25, 0, .rw, 0, false, .any, false⟩]⟩]

/-- Registers of a `I2C` page (chapter 14). -/
def regsI2c : List RegSpec := [
  ⟨0x40, 0, 1, .none, .page, [⟨31, 31, .rw, 0, false, .any, false⟩, ⟨29, 24, .rw, 0, false, .le 33, false⟩, ⟨23, 22, .rw, 0, false, .any, false⟩, ⟨21, 20, .rw, 0, false, .any, false⟩]⟩,
  ⟨0x44, 0, 1, .none, .page, [⟨8, 8, .ro, 0, false, .any, false⟩, ⟨7, 0, .rw, 0, false, .any, false⟩]⟩,
  ⟨0x48, 0, 1, .none, .page, [⟨12, 8, .ro, 0, false, .any, false⟩, ⟨4, 0, .ro, 0, false, .any, false⟩]⟩,
  ⟨0x4c, 0, 1, .none, .page, [⟨6, 0, .rw, 0, false, .any, false⟩]⟩,
  ⟨0x50, 0, 1, .none, .page, [⟨25, 0, .rw, 0, false, .any, false⟩]⟩]

/-- Registers of a `AES3` page (chapter 14). -/
def regsAes3 : List RegSpec := [
  ⟨0x40, 0, 1, .none, .page, [⟨31, 31, .rw, 0, true, .any, false⟩, ⟨29, 28, .rw, 0, true, .any, false⟩, ⟨27, 26, .rw, 0, true, .le 2, false⟩, ⟨21, 16, .rw, 0, true, .le 62, false⟩, ⟨13, 0, .rw, 0, true, .any, false⟩]⟩,
  ⟨0x44, 0, 1, .none, .page, [⟨31, 31, .ro, 0, false, .any, false⟩, ⟨30, 30, .ro, 0, false, .any, false⟩, ⟨19, 0, .ro, 0, false, .any, false⟩]⟩,
  ⟨0x80, 4, 6, .none, .page, [⟨31, 0, .ro, 0, false, .any, false⟩]⟩,
  ⟨0xa0, 4, 6, .none, .page, [⟨31, 0, .rw, 0, false, .any, false⟩]⟩,
  ⟨0xc0, 0, 1, .stat, .page, [⟨31, 31, .ro, 0, false, .any, false⟩, ⟨30, 0, .ro, 0, false, .any, false⟩]⟩,
  ⟨0xc4, 0, 1, .stat, .page, [⟨31, 31, .ro, 0, false, .any, false⟩, ⟨30, 0, .ro, 0, false, .any, false⟩]⟩]

/-- Registers of a `LTC` page (chapter 14). -/
def regsLtc : List RegSpec := [
  ⟨0x40, 0, 1, .none, .page, [⟨31, 31, .rw, 0, false, .any, false⟩, ⟨30, 30, .rw, 0, false, .any, false⟩, ⟨29, 28, .rw, 0, false, .any, false⟩, ⟨27, 27, .rw, 0, false, .any, false⟩]⟩,
  ⟨0x44, 0, 1, .none, .page, [⟨31, 0, .ro, 0, false, .any, false⟩]⟩,
  ⟨0x48, 0, 1, .none, .page, [⟨31, 0, .ro, 0, false, .any, false⟩]⟩,
  ⟨0x4c, 0, 1, .none, .page, [⟨29, 0, .ro, 0, false, .any, false⟩]⟩,
  ⟨0x50, 0, 1, .none, .page, [⟨31, 0, .ro, 0, false, .any, false⟩]⟩,
  ⟨0x54, 0, 1, .none, .page, [⟨31, 0, .rw, 0, false, .any, false⟩]⟩]

/-- Registers of a `WCLK` page (chapter 14). -/
def regsWclk : List RegSpec := [
  ⟨0x40, 0, 1, .none, .page, [⟨31, 31, .rw, 0, false, .any, false⟩, ⟨30, 30, .rw, 0, false, .any, false⟩, ⟨29, 28, .rw, 0, false, .any, false⟩, ⟨27, 26, .rw, 0, false, .any, false⟩]⟩,
  ⟨0x44, 0, 1, .none, .page, [⟨31, 31, .ro, 0, false, .any, false⟩, ⟨19, 0, .ro, 0, false, .any, false⟩]⟩,
  ⟨0x48, 0, 1, .none, .page, [⟨31, 0, .ro, 0, false, .any, false⟩]⟩]

/-- The registers of a page class at offsets 0x040 and above. -/
def Cls.regs : Cls → List RegSpec
  | .sys => regsSys
  | .pwr => regsPwr
  | .clk => regsClk
  | .mst => regsMst
  | .chk => regsChk
  | .ntc => regsNtc
  | .sec => regsSec
  | .auth => regsAuth
  | .ldr => regsLdr
  | .store => regsStore
  | .svc => regsSvc
  | .mon => regsMon
  | .pcie => regsPcie
  | .blk => regsBlk
  | .slv => regsSlv
  | .time => regsTime
  | .mcg => regsMcg
  | .srv => regsSrv
  | .scrb => regsScrb
  | .pdie => regsPdie
  | .pgrp => regsPgrp
  | .port => regsPort
  | .treg => regsTreg
  | .freg => regsFreg
  | .keep => regsKeep
  | .cway => regsCway
  | .router => regsRouter
  | .fmem => regsFmem
  | .lgrp => regsLgrp
  | .lane => regsLane
  | .eth => regsEth
  | .media => regsMedia
  | .iob => regsIob
  | .uart => regsUart
  | .spi => regsSpi
  | .i2c => regsI2c
  | .aes3 => regsAes3
  | .ltc => regsLtc
  | .wclk => regsWclk

end Sys2Proof.Machine
end

