-- ==== Sys2Proof/Machine/Pages.lean ====
section
/-! DEFINITION. The BAR0 page map (R42), the register that answers at an offset (R14 to R17), reset values, and the
generic arithmetic of fields and sparse tables. Nothing here reads the device state. -/

namespace Sys2Proof.Machine

/-! ### Sparse tables -/

/-- The value stored under key `k`. -/
def Tab.get {α : Type} : Tab α → Nat → Option α
  | [], _ => none
  | (j, x) :: t, k => if j = k then some x else Tab.get t k

/-- Insert or replace, keeping the keys rising. -/
def Tab.ins {α : Type} : Tab α → Nat → α → Tab α
  | [], k, x => [(k, x)]
  | (j, y) :: t, k, x => if k < j then (k, x) :: (j, y) :: t else if k = j then (k, x) :: t else (j, y) :: Tab.ins t k x

/-- Remove a key. -/
def Tab.del {α : Type} : Tab α → Nat → Tab α
  | [], _ => []
  | (j, y) :: t, k => if j = k then t else (j, y) :: Tab.del t k

/-- Store `x` under `k`; storing what an absent key reads as (`d`) removes the entry. -/
def Tab.put {α : Type} [DecidableEq α] (t : Tab α) (k : Nat) (x d : α) : Tab α :=
  if x = d then Tab.del t k else Tab.ins t k x

/-- Keep the entries whose key satisfies `p`. -/
def Tab.keep {α : Type} (t : Tab α) (p : Nat → Bool) : Tab α := t.filter fun e => p e.1

/-- The keys rise strictly and no entry equals what its absent key reads as. -/
def Tab.wf {α : Type} [DecidableEq α] (d : Nat → α) : Tab α → Bool
  | [] => true
  | [(k, x)] => decide (x ≠ d k)
  | (k, x) :: (j, y) :: t => decide (x ≠ d k) && decide (k < j) && Tab.wf d ((j, y) :: t)

/-! ### Fields -/

/-- The mask of bits `hi` down to `lo`. -/
def fmask (hi lo : Nat) : Word := BitVec.ofNat 32 ((2 ^ (hi + 1 - lo) - 1) <<< lo)

/-- Bits `hi` down to `lo` of a word, as a number. -/
def bitsOf (w : Word) (hi lo : Nat) : Nat := (w.toNat >>> lo) % 2 ^ (hi + 1 - lo)

/-- A word with bits `hi` down to `lo` replaced by `n`. -/
def setBits (w : Word) (hi lo n : Nat) : Word :=
  (w &&& ~~~(fmask hi lo)) ||| BitVec.ofNat 32 ((n % 2 ^ (hi + 1 - lo)) <<< lo)

/-- One bit of a word. -/
def bitAt (w : Word) (i : Nat) : Bool := w.getLsbD i

/-- A two's complement number of `n` bits. -/
def sext (n v : Nat) : Int := if v < 2 ^ (n - 1) then (v : Int) else (v : Int) - 2 ^ n

/-- The `n`-bit two's complement code of a number. -/
def scode (n : Nat) (v : Int) : Nat := (v % (2 : Int) ^ n).toNat

/-- A number held to a range. -/
def clampNat (lo hi v : Nat) : Nat := if v < lo then lo else if hi < v then hi else v

/-- A signed number held to a range. -/
def clampInt (lo hi v : Int) : Int := if v < lo then lo else if hi < v then hi else v

/-- The same field in register `i` of an array. -/
def Fld.at (f : Fld) (i : Nat) : Fld := ⟨f.off + f.stride * i, f.stride, f.hi, f.lo⟩

/-- The same field in the staged half of the page (R14). -/
def Fld.staged (f : Fld) : Fld := ⟨f.off + 0x800, f.stride, f.hi, f.lo⟩

/-- Legal live values (R21). -/
def Lim.ok : Lim → Nat → Bool
  | .any, _ => true
  | .le n, v => decide (v ≤ n)
  | .span a b, v => decide (a ≤ v ∧ v ≤ b)
  | .zeroOr a b, v => decide (v = 0 ∨ (a ≤ v ∧ v ≤ b))
  | .s8le n, v => decide (128 ≤ v ∨ v ≤ n)

/-! ### The page map -/

/-- Base, instances, `PAGE_ID.CLASS` and `PWR_STATES` (bit 0 RUN, 1 DOZE, 2 LULL, 3 DARK) of a page class. -/
structure ClsInfo where
  base : Nat
  count : Nat
  code : Nat
  pwr : Nat
  deriving DecidableEq, Repr

/-- The table *BAR0 page map*; the power states are those each chapter names, RUN only where it names none (R554). -/
def Cls.info : Cls → ClsInfo
  | .sys => ⟨0x0, 1, 0x1, 1⟩
  | .pwr => ⟨0x1000, 1, 0x2, 1⟩
  | .clk => ⟨0x2000, 1, 0x3, 1⟩
  | .mst => ⟨0x3000, 1, 0x4, 1⟩
  | .chk => ⟨0x4000, 1, 0x5, 1⟩
  | .ntc => ⟨0x5000, 1, 0x6, 1⟩
  | .sec => ⟨0x6000, 1, 0x7, 1⟩
  | .auth => ⟨0x7000, 1, 0x8, 1⟩
  | .ldr => ⟨0x8000, 1, 0x9, 1⟩
  | .store => ⟨0x9000, 1, 0xA, 1⟩
  | .svc => ⟨0xA000, 1, 0xB, 1⟩
  | .mon => ⟨0xB000, 1, 0xC, 1⟩
  | .pcie => ⟨0xC000, 1, 0xD, 1⟩
  | .blk => ⟨0xD000, 1, 0xE, 1⟩
  | .slv => ⟨0xE000, 1, 0xF, 1⟩
  | .time => ⟨0xF000, 1, 0x10, 1⟩
  | .mcg => ⟨0x10000, 4, 0x11, 1⟩
  | .srv => ⟨0x14000, 1, 0x12, 1⟩
  | .scrb => ⟨0x15000, 1, 0x13, 1⟩
  | .pdie => ⟨0x100000, 4, 0x20, 1⟩
  | .pgrp => ⟨0x104000, 16, 0x21, 13⟩
  | .port => ⟨0x114000, 144, 0x22, 9⟩
  | .treg => ⟨0x200000, 16, 0x28, 15⟩
  | .freg => ⟨0x300000, 32, 0x30, 15⟩
  | .keep => ⟨0x320000, 2, 0x31, 3⟩
  | .cway => ⟨0x400000, 1, 0x38, 1⟩
  | .router => ⟨0x401000, 64, 0x39, 1⟩
  | .fmem => ⟨0x480000, 32, 0x3A, 1⟩
  | .lgrp => ⟨0x500000, 8, 0x40, 13⟩
  | .lane => ⟨0x510000, 64, 0x41, 1⟩
  | .eth => ⟨0x550000, 64, 0x42, 1⟩
  | .media => ⟨0x590000, 8, 0x43, 13⟩
  | .iob => ⟨0x700000, 12, 0x60, 1⟩
  | .uart => ⟨0x710000, 4, 0x61, 9⟩
  | .spi => ⟨0x714000, 4, 0x62, 9⟩
  | .i2c => ⟨0x718000, 4, 0x63, 9⟩
  | .aes3 => ⟨0x720000, 32, 0x64, 9⟩
  | .ltc => ⟨0x740000, 2, 0x65, 9⟩
  | .wclk => ⟨0x742000, 2, 0x66, 9⟩

/-- Every page class, in address order. -/
def Cls.all : List Cls :=
  [.sys, .pwr, .clk, .mst, .chk, .ntc, .sec, .auth, .ldr, .store, .svc, .mon, .pcie, .blk, .slv, .time, .mcg, .srv, .scrb,
   .pdie, .pgrp, .port, .treg, .freg, .keep, .cway, .router, .fmem, .lgrp, .lane, .eth, .media, .iob, .uart, .spi, .i2c,
   .aes3, .ltc, .wclk]

/-- The BAR0 offset of page `i` of a class. -/
def pg (c : Cls) (i : Nat) : Nat := c.info.base + i * 0x1000

/-- The page an address falls in. -/
def pageAt (a : Nat) : Option (Cls × Nat) :=
  Cls.all.findSome? fun c =>
    if c.info.base ≤ a ∧ a < c.info.base + c.info.count * 0x1000 then some (c, (a - c.info.base) / 0x1000) else none

/-- The base of the page an address falls in. -/
def pageBase (a : Nat) : Nat := a - a % 0x1000

/-- Does the register row answer at this offset? A 64-bit counter answers at its second dword too. -/
def RegSpec.hit (r : RegSpec) (off : Nat) : Bool :=
  if r.stride = 0 then decide (off = r.off) || (decide (r.ctr = .stat64) && decide (off = r.off + 4))
  else decide (r.off ≤ off) && decide ((off - r.off) % r.stride = 0) && decide ((off - r.off) / r.stride < r.count)

/-- The register row of a page class at a live offset; the common header stands on every page (R15). -/
def findReg (c : Cls) (off : Nat) : Option RegSpec :=
  if off < 0x40 then hdrRegs.find? (·.hit off) else c.regs.find? (·.hit off)

/-- The whole-register masks of a set of fields. -/
def RegSpec.mask (r : RegSpec) (p : FSpec → Bool) : Word :=
  r.flds.foldl (fun w f => if p f then w ||| fmask f.hi f.lo else w) 0

/-- Does the register have a staged copy (R17)? -/
def RegSpec.isStaged (r : RegSpec) : Bool := r.flds.any (·.staged)

/-- Is the register a counter (R37, R38)? -/
def RegSpec.isCounter (r : RegSpec) : Bool := decide (r.ctr ≠ .none)

/-- The reset value the field table gives. -/
def RegSpec.rst (r : RegSpec) : Word :=
  r.flds.foldl (fun w f => w ||| BitVec.ofNat 32 (f.rst <<< f.lo)) 0

/-- Events of severity 2 and 3 are always recorded and always become notices (R28). DESIGN CHOICE (log 151): the bits of an event
whose severity depends on its outcome (`HO_END`, `SEG_HO`, `ROW_HO`, `REGION_HO`, `FW_HO`, `HEALTH_CHANGE`) stay writable; the
model's event tables give these events a severity below 2, and an event is gated by the severity it turns out to have. -/
def Cls.alwaysMask (c : Cls) : Word :=
  c.evts.foldl (fun w e => if 2 ≤ e.sev then w ||| BitVec.ofNat 32 (1 <<< e.bit) else w) 0

/-- Does the class carry staged registers at offsets 0x040 and above (`PAGE_CAP.HAS_STAGED`)? -/
def Cls.hasStaged (c : Cls) : Bool := c.regs.any (·.isStaged)

/-- `PAGE_CAP.BLOCK_CAP` (R76, R345 and the chapter of the `TREG` page); zero where no chapter defines it. -/
def blockCap (c : Cls) (i : Nat) : Nat :=
  match c with
  | .port => (i / 9) * 256 + (i % 9) * 16 + i / 36
  | .pgrp => 10 * 16 + i / 4
  | .pdie => i
  | .treg => 0x1010
  | .freg => 32 * 65536 + (i / 8) * 256
  | .keep => 1
  | _ => 0

/-- Reset values that depend on the instance or on the index in a register array. -/
def resetSpecial (c : Cls) (off : Nat) : Option Word :=
  match c with
  | .port => if off = 0x100 then some 0x400000 else none
  | .cway => if 0x400 ≤ off ∧ off < 0x640 then some (BitVec.ofNat 32 ((off - 0x400) / 4)) else none
  | .treg => if 0xC0 ≤ off ∧ off < 0x100 then some (BitVec.ofNat 32 (((off - 0xC0) / 4) * 2 ^ 24 + 31)) else none
  | .uart => if off = 0x50 then some 115200 else none
  | .spi => if off = 0x50 then some 1000000 else none
  | .i2c => if off = 0x50 then some 100000 else none
  | .sec => if off = 0x104 then some 0x80000000 else none
  | .ntc =>
    if off = 0x90 then some 0x06030010 else if off = 0xD0 then some 0x06030011
    else if off = 0x110 then some 0x06010012 else if off = 0x150 then some 0x06000013
    else if off = 0x94 then some 1 else if off = 0xD4 then some 1
    else if off = 0x114 then some 0x00640010 else if off = 0x154 then some 0x03E80040 else none
  | _ => none

/-- The value register `off` of page `i` of class `c` reads as when nothing is listed for it: its reset value, for a
staged offset the reset value of the staged fields (R17), zero where there is no register. -/
def resetIn (c : Cls) (i off : Nat) : Word :=
  let live := off % 0x800
  match findReg c live with
  | none => 0
  | some r =>
    let v : Word :=
      if live = 0 then BitVec.ofNat 32 (c.info.code * 2 ^ 24 + i * 2 ^ 12 + 1)
      else if live = 4 then
        BitVec.ofNat 32 ((if c.hasStaged then 2 ^ 31 else 0) + 2 ^ 30 + c.info.pwr * 2 ^ 26 + blockCap c i)
      else if live = 0x14 then r.rst ||| c.alwaysMask
      else if live = 0x18 then r.rst ||| c.alwaysMask
      else (resetSpecial c live).getD r.rst
    if off < 0x800 then v else v &&& r.mask (·.staged)

/-- What an unlisted address of the register pages reads as. -/
def resetWord (a : Nat) : Word :=
  match pageAt a with
  | none => 0
  | some (c, i) => resetIn c i (a % 0x1000)

end Sys2Proof.Machine
end

