-- ==== Sys2Proof/Machine/StateCore.lean ====
section
/-! DEFINITION. The parts of the device state that every block shares: notices and their queues (R447 to R453), milestone
slots and the checker's queue (R45 to R61), messages to the outside. Plain data. -/

namespace Sys2Proof.Machine

/-- One notice record (R447): dword 0 by its fields, the page, the device time, the payload. -/
structure Notice where
  code : Nat
  sev : Nat
  queue : Nat
  seq : Nat
  page : Nat
  sec : Nat
  ns : Nat
  w4 : Word
  w5 : Word
  w6 : Word
  w7 : Word
  deriving DecidableEq, Repr

/-- An entry of a destination's buffer (R450, R451): a record, or the place of records lost. -/
inductive QEnt where
  | record (n : Notice)
  | lost (count first sec ns : Nat)
  deriving DecidableEq, Repr

/-- The device's side of one notice queue: what waits for the host and for the Brizel link, and the two coalescing
conditions of R453 (records written to the ring since the last raise, elapsed time of the first of them; elapsed time at
which the first record for the Brizel link began to wait). -/
structure NQueue where
  host : List QEnt
  briz : List QEnt
  irqCount : Nat
  irqSince : Option Nat
  brizSince : Option Nat
  deriving DecidableEq, Repr

/-- A NOTICE frame the manager has not acknowledged (R458): its `SEQ`, queue, records and number of sends. -/
structure InFlight where
  seq : Nat
  queue : Nat
  recs : List QEnt
  sends : Nat
  deriving DecidableEq, Repr

/-- What the block sends to the outside during one command. -/
inductive OutMsg where
  /-- posted writes to host memory -/
  | hostWrite (addr : Nat) (data : List Word)
  /-- an MSI-X message -/
  | msix (vector : Nat)
  /-- a test signal at a port's pins starts or ends: the 1 kHz current of a survey, the 10 kHz sine of a line survey (R85,
  R160) -/
  | testTone (port : Nat) (line on : Bool)
  /-- values returned to a reader -/
  | readData (src : Source) (vals : List Word)
  /-- a Brizel frame: type, channel, sequence, payload bytes -/
  | brizel (type chan seq : Nat) (payload : List Nat)
  /-- NOTICE frame content: sequence, records -/
  | brizelNotice (seq : Nat) (recs : List QEnt)
  /-- bytes returned on the serial slave port -/
  | sspData (bytes : List Nat)
  /-- an Ethernet frame sent on a port -/
  | ethFrame (port : Nat) (bytes : List Nat)
  /-- the transmit time written into the originTimestamp of the one-step Sync just sent (R326) -/
  | ethStamp (port time : Nat)
  /-- a sample that the output stage drives (R140): timestamp, whether at the pins or at the internal node of LOOP, its code ×
  the peak of the mode and span in use (2^-23 µV, or 2^-23 nA in CURR), the levels of the two pins at gain 1 (2^-24 µV), the ramp
  angle a / n, mode, span, and the share num / den of it that the incoming slice's array drives (R180) -/
  | analogue (port ts : Nat) (pins : Bool) (drive hi lo : Int) (a n mode span num den : Nat)
  /-- a word on a causeway flow: flow, channel, timestamp, 32-bit word, marker -/
  | flowWord (flow ch ts : Nat) (word : Word) (marker : Bool)
  /-- a read response of a bank controller: requester endpoint, tag, words, poison mask (R275) -/
  | memData (req tag : Nat) (data : List Nat) (pois : Nat)
  /-- a write acknowledge of a bank controller -/
  | memAck (req tag : Nat)
  /-- an RTP packet on a port: flow, sequence number, RTP timestamp, marker, payload words or bytes -/
  | rtp (port flow seq ts : Nat) (mark : Bool) (data : List Nat)
  /-- a stream word at a fabric port: region, port, channel, timestamp word, data, marker, poison (R363) -/
  | fabricWord (region port ch ts : Nat) (word : Word) (marker poison : Bool)
  /-- an answer to a request of a fabric region: region, kind 0 register 1 user store 2 memory 3 block RAM, error, data -/
  | fabricRsp (region kind : Nat) (err : Bool) (data : List Nat)
  /-- a pin's pad: driven, value, by global pin number -/
  | pin (n : Nat) (driven value : Bool)
  /-- a byte or word clocked out of a serial block -/
  | serial (block : Nat) (value : Nat)
  /-- values clocked out of the JTAG port -/
  | jtag (vals : List Word)
  deriving DecidableEq, Repr

/-- Slot states (R45). -/
inductive SlotState where
  | idle | staging | checking | armed | applied | refused | expired
  deriving DecidableEq, Repr

/-- The codes of `MS_STAT.STATE`. -/
def SlotState.code : SlotState → Nat
  | .idle => 0 | .staging => 1 | .checking => 2 | .armed => 3 | .applied => 4 | .refused => 5 | .expired => 6

/-- A slot in STAGING, CHECKING or ARMED is pending. -/
def SlotState.pending : SlotState → Bool
  | .staging => true | .checking => true | .armed => true | _ => false

/-- APPLIED, REFUSED and EXPIRED are terminal. -/
def SlotState.terminal : SlotState → Bool
  | .applied => true | .refused => true | .expired => true | _ => false

/-- What the supervisor uses a slot for (R49, R50): the handovers of the chapters. -/
inductive Job where
  /-- lay-by rotation or slice repair on port `i`, kind 1 input, 2 output (R176, R188) -/
  | slice (i kind : Nat) (repair : Bool)
  /-- segment move or replacement of a tile region (R259) -/
  | move (r : Nat)
  /-- repair of a tile column (R264) -/
  | colRepair (r : Nat)
  /-- row repair of a frame-memory bank (R293) -/
  | row (b : Nat)
  /-- region handover of the loader (R404) -/
  | region
  /-- release of group `g` of a load (R395) -/
  | release (g : Nat)
  /-- firmware changeover (R545) -/
  | firmware
  /-- a handover that has ended while its slot was pending: nothing follows (R45, R51) -/
  | done
  deriving DecidableEq, Repr

/-- A repair goes before planned handovers (R50). -/
def Job.repair : Job → Bool
  | .slice _ _ r => r
  | .colRepair _ => true
  | _ => false

/-- One milestone slot: its state, the bases of the pages in its scope, its resolved instant, whether the trigger
registers hold that instant, whether a `CANCEL` waits for the running check, and what the supervisor holds it for. -/
structure Slot where
  state : SlotState
  scope : List Nat
  instant : Option Nat
  held : Bool
  cancel : Bool
  job : Option Job
  deriving DecidableEq, Repr

/-- A queued or running check (R56): slot, whether it is a `TRY`, the device time its command was accepted, the instant it
resolved then (R555), the elapsed time at which it started. -/
structure CheckJob where
  slot : Nat
  isTry : Bool
  at_ : Nat
  inst : Option Nat
  start : Option Nat
  deriving DecidableEq, Repr

/-- The present or most recent binding of a page (R46): slot, whether it is bound, and the code of the state in which
the last binding ended. -/
structure Bind where
  slot : Nat
  bound : Bool
  ended : Nat
  deriving DecidableEq, Repr

/-- A page never bound. -/
def Bind.none : Bind := ⟨0, false, 0⟩

/-- A slot after reset (R51). -/
def Slot.init : Slot := ⟨.idle, [], none, false, false, none⟩

/-- The milestone unit and the checker: slots, bindings by page base, queued checks in order of acceptance, the running
check, the handovers that wait for a slot, oldest first (R50). -/
structure MstSt where
  slots : Tab Slot
  binds : Tab Bind
  queue : List CheckJob
  running : Option CheckJob
  waiting : List Job
  deriving DecidableEq, Repr

/-- An empty notice queue. -/
def NQueue.init : NQueue := ⟨[], [], 0, none, none⟩

end Sys2Proof.Machine
end

