-- ==== Sys2Proof/Machine/StateAnalog.lean ====
section
/-! DEFINITION. The parts of the state that belong to ports, port groups and port dies and that no register shows whole
(chapters 3 to 6). Plain data. -/

namespace Sys2Proof.Machine

/-- A ramp gain (R144) as the angle π × a / n of the ramp curve: gain ½(1 + cos(π a / n)). `a = 0` is gain 1 and `a = n`
gain 0. -/
structure Gain where
  a : Nat
  n : Nat
  deriving DecidableEq, Repr

/-- Gain 0. -/
def Gain.zero : Gain := ⟨1, 1⟩

/-- Gain 1. -/
def Gain.one : Gain := ⟨0, 1⟩

/-- A word that has arrived at an output port's die bridge: flow, channel, timestamp, the word, whether it is poisoned,
and the device time of its arrival (R136, R137). -/
structure RxWord where
  flow : Nat
  ch : Nat
  ts : Nat
  word : Word
  poison : Bool
  arrived : Nat
  deriving DecidableEq, Repr

/-- One period of a threshold detector on the fast path: the state was ABOVE at some time in it, every evaluation so far gave
a value below the release level (R128, R129). -/
structure DetPer where
  ever : Bool
  low : Bool
  deriving DecidableEq, Repr

/-- One run of the capture words of a port: the preset, `FIR_LAT` and base rate it runs with, the base-rate edge of T0, the
index of the next word, the index of the synchronising reset of the slice that owns the words (tags count from here, R123,
R188), the index below which words are FAULT words (R188), the instants of the input switches whose words may still be in the
chain (R124), whether the run was that of a survey (R126), the index of the next fast-path value, the period of each detector
that is under way, and the flags of the periods evaluated ahead of their words (R127, R129). -/
structure CapRun where
  preset : Nat
  firLat : Nat
  base : Nat
  k0 : Nat
  idx : Nat
  rst : Nat
  faultTo : Nat
  switches : List Nat
  survey : Bool
  fastN : Nat
  perA : DetPer
  perB : DetPer
  flags : List (Nat × Bool × Bool)
  deriving DecidableEq, Repr

/-- No run. -/
def CapRun.init : CapRun := ⟨0, 0, 48000, 0, 0, 0, 0, [], false, 0, ⟨false, true⟩, ⟨false, true⟩, []⟩

/-- A source that takes over from the source in use (R556): flow, channel, the instant from which it supplies, and the
moment the instant became known. -/
structure SrcNext where
  flow : Nat
  ch : Nat
  instant : Nat
  known : Nat
  deriving DecidableEq, Repr

/-- One analogue port. -/
structure PortSt where
  /-- the word or sample grid runs (after a synchronising reset) -/
  run : Bool
  /-- the port is SYNCING and its synchronising reset has not happened -/
  pend : Bool
  /-- device time of the entry into SYNCING (R122) -/
  entered : Nat
  /-- the run of the grid; its T0 is that of the output samples too -/
  cap : CapRun
  /-- ended runs whose words are still in the chain, oldest first, each with the instant before which its words lie (R98) -/
  tail : List (CapRun × Nat)
  /-- `OUT_PRESET` of the run, and the index, counted from T0, of the next output sample -/
  outPreset : Nat
  oidx : Nat
  /-- old contents of capture registers for words timestamped before an instant: offset, instant, word (R63) -/
  capOld : List (Nat × Nat × Word)
  /-- the cause with which the port entered FAULT (R103) -/
  faultWas : Nat
  /-- `PGA` value the amplifier uses (R80) -/
  pga : Nat
  /-- ms for which the common mode has been on the other side of the threshold (R83) -/
  cmRun : Option Nat
  /-- consecutive output periods below the release level, detectors A and B (R128) -/
  lowA : Nat
  lowB : Nat
  /-- when `CLIP` and `UNDERRUN` were last raised, in elapsed ns -/
  clipAt : Option Nat
  underAt : Option Nat
  /-- first word timestamp on which a requested bank swap may take effect (R112) -/
  swapAt : Nat
  /-- capture crossfade: index of its first word, its length (R178) -/
  xf : Option (Nat × Nat)
  /-- index of the word that carries the slice-change marker (R118) -/
  mark : Option Nat
  /-- words that have arrived and wait for their fetch instant -/
  rx : List RxWord
  /-- source in use: flow and channel -/
  src : Nat × Nat
  /-- sources that have become live and have not taken over yet, oldest first -/
  srcNext : List SrcNext
  /-- the source of an ARMED slot -/
  srcArmed : Option SrcNext
  /-- output sequence: as `OUT_STAT.PHASE`, but kept while a mute hides it (R154) -/
  seq : Nat
  /-- present ramp gain, length of the running ramp, hold samples left -/
  gain : Gain
  rampN : Nat
  holdLeft : Nat
  /-- the running ramp has driven no sample yet -/
  rampNew : Bool
  /-- a mode or span change waits for its hold, from this instant on (R146); its hold has begun -/
  change : Bool
  changeAt : Nat
  spanSeq : Bool
  /-- elapsed time at which a hold outside LIVE ends (R147) -/
  holdDue : Nat
  /-- a pre-placed stop ramp: slot, first sample index, length (R150); it has begun -/
  stopRamp : Option (Nat × Nat × Nat)
  stopOn : Bool
  /-- comparison stays suspended until this elapsed time; a window holding suspended time is under way (R157) -/
  suspTo : Nat
  suspWin : Bool
  /-- consecutive evaluated windows above the fault level (R156) -/
  devRun : Nat
  /-- elapsed time at which the running survey or line survey ends -/
  due : Nat
  /-- release instant of a repair on an output: the output stage holds zero scale (R189) -/
  repHold : Bool
  /-- the unmute ramp of a repair runs (R189) -/
  repRamp : Bool
  /-- flow, channel of words before an instant at which `PORT_FLOW` changed (R278) -/
  flowOld : Option (Nat × Nat × Nat)
  deriving DecidableEq, Repr

/-- A port after reset. -/
def PortSt.init : PortSt :=
  { run := false, pend := false, entered := 0, cap := CapRun.init, tail := [], outPreset := 0, oidx := 0, capOld := [],
    faultWas := 0, pga := 0, cmRun := none, lowA := 0, lowB := 0, clipAt := none, underAt := none, swapAt := 0, xf := none,
    mark := none, rx := [], src := (0, 0), srcNext := [], srcArmed := none, seq := 0, gain := Gain.zero, rampN := 1, holdLeft := 0,
    rampNew := false, change := false, changeAt := 0, spanSeq := false, holdDue := 0, stopRamp := none, stopOn := false,
    suspTo := 0, suspWin := false, devRun := 0, due := 0, repHold := false, repRamp := false, flowOld := none }

/-- One converter slice (R165 to R191): elapsed time of its last completed calibration in each family, correction values
in each family, when its step ends, its extended procedure, the marks of R181 and R191, and its filter history. -/
structure SliceSt where
  cal48 : Option Nat
  cal44 : Option Nat
  adc48 : Word
  dac48 : Word
  adc44 : Word
  dac44 : Word
  /-- correction values of the calibration under way, in use once it completes (R167) -/
  newAdc : Word
  newDac : Word
  stepDue : Nat
  /-- the SUSPECT procedure of R184 -/
  ext : Bool
  /-- marked while serving (R181) -/
  marked : Bool
  /-- `CAL_STALE` raised since the last lay-by visit (R191) -/
  stale : Bool
  /-- the shortened procedure of power-up (R168) -/
  boot : Bool
  /-- filter inputs of the last words, newest first, in 2^-9 LSB (R107) -/
  hist : List Int
  /-- fast-path values, newest first (R116) -/
  fasts : List Int
  deriving DecidableEq, Repr

/-- A slice as shipped: no completed calibration, factory values zero. -/
def SliceSt.init : SliceSt := ⟨none, none, 0, 0, 0, 0, 0, 0, 0, false, false, false, false, [], []⟩

/-- A planned handover of a group (R170 to R182). -/
structure Rot where
  /-- port index in the group, outgoing and incoming slice, kind (1 input, 2 output) -/
  port : Nat
  old : Nat
  new : Nat
  kind : Nat
  /-- the port was STOPPED: Overlap and Compare are skipped (R171) -/
  stopped : Bool
  /-- as `ROT_STAT.PHASE` -/
  phase : Nat
  /-- index on the port's grid of the incoming slice's reset or connection -/
  start : Nat
  /-- index at which the comparison result is ready -/
  result : Nat
  /-- elapsed time at which the deferral began (R174) -/
  defer : Option Nat
  /-- index of the instant on the port's grid -/
  instant : Nat
  /-- comparison measure once a comparison has run, worst window deviation of the crossfade, a window above the warning level
  (R181, R192) -/
  measure : Option Nat
  worst : Nat
  ovr : Bool
  deriving DecidableEq, Repr

/-- A repair handover (R186 to R189): port index, failed slice, replacement once taken, kind, timestamp of the replacement's
reset or connection, timestamp of the instant, and whether it starts again because its port left SYNCING or LIVE (R94). -/
structure Rep where
  port : Nat
  old : Nat
  new : Option Nat
  kind : Nat
  start : Nat
  instant : Nat
  again : Bool
  deriving DecidableEq, Repr

/-- One port group: the planned handover, repairs, when a rotation falls due, the port and slice that go next (R181). -/
structure GroupSt where
  rot : Option Rot
  reps : List Rep
  dueAt : Nat
  urgent : Option (Nat × Nat)
  /-- a due rotation waits for a LAYBY_READY slice (R170) -/
  waits : Bool
  deriving DecidableEq, Repr

/-- A group after reset: the first rotation falls due one default `ROT_PERIOD` of 2.0 s later. -/
def GroupSt.init : GroupSt := ⟨none, [], 2000000000, none, false⟩

/-- One port die: a tone fault stands (R193), since when the reference has stayed within its limit while a hold stands
(R169), its first reference check is still due, its temperature fault stands (R104), its supply is lost (R97), the power-up
calibration of its slices has not started (R168). -/
structure DieSt where
  toneFault : Bool
  refGood : Option Nat
  refFirst : Bool
  hot : Bool
  lost : Bool
  calDue : Bool
  deriving DecidableEq, Repr

/-- A die after reset. -/
def DieSt.init : DieSt := ⟨false, none, true, false, false, true⟩

/-- A word on a causeway flow (R272): flow, channel, timestamp, the 32-bit word, whether it is a marker (R249), whether
it is poisoned (R286). -/
structure FlowWord where
  flow : Nat
  ch : Nat
  ts : Nat
  word : Word
  marker : Bool
  poison : Bool
  deriving DecidableEq, Repr

/-- Ports, slices by global number, groups, dies, and the compensation-filter coefficients by port × 128 + bank × 64 +
tap; words that wait to be sent. -/
structure AnalogSt where
  ports : Tab PortSt
  slices : Tab SliceSt
  groups : Tab GroupSt
  dies : Tab DieSt
  coef : Tab Word
  /-- words that wait at their producer's endpoint, oldest first, by endpoint code × 2^14 + flow -/
  tx : Tab (List FlowWord)
  deriving DecidableEq, Repr

/-- The analogue side after reset. -/
def AnalogSt.init : AnalogSt := ⟨[], [], [], [], [], []⟩

end Sys2Proof.Machine
end

