-- ==== Sys2Proof/Machine/StateTile.lean ====
section
/-! DEFINITION. The state of the MAC tiles and of segment moves (chapters 7 and 8). Plain data. -/

namespace Sys2Proof.Machine

/-- A pointer of an address generator (R208, R209): offset, written extent, base, length, step, mode, `FOLLOW`, `MEM`,
and the target of a pending growth (R213). -/
structure Ptr where
  off : Nat
  fill : Nat
  base : Nat
  len : Nat
  step : Int
  mode : Nat
  follow : Nat
  mem : Nat
  grow : Option Nat
  deriving DecidableEq, Repr

/-- A pointer after reset. -/
def Ptr.init : Ptr := ⟨0, 2048, 0, 2048, 1, 0, 0, 0, none⟩

/-- A program loop (R245): active, iterations remaining, end, start, order of starting. -/
structure Loop where
  active : Bool
  lc : Nat
  lend : Nat
  lstart : Nat
  order : Nat
  deriving DecidableEq, Repr

/-- A loop after reset. -/
def Loop.init : Loop := ⟨false, 0, 0, 0, 0⟩

/-- What holds a tile at its program counter (R206, R219, R247, R253). -/
inductive Stall where
  | none | input | output | merge | wait | cpost | cascade
  deriving DecidableEq, Repr

/-- One physical tile, by its location code (R195). `acc` is the 72-bit accumulator as a number below 2^72, `ACC` its low
40 bits (R198). Memories list the words that are not zero; the poisoned rows stand beside them (R215, R217). -/
structure Tile where
  dmem : Tab Nat
  cmem : Tab Nat
  imem : Tab Nat
  dpois : List Nat
  cpois : List Nat
  acc : Nat
  exc : Int
  sat : Bool
  poison : Bool
  unwr : Bool
  bexp : Nat
  treg : Tab Word
  ptrs : Tab Ptr
  pc : Nat
  entry : Nat
  loop0 : Loop
  loop1 : Loop
  halt : Bool
  perr : Bool
  perrInfo : Word
  tag : WordTag
  mk0 : Bool
  mk1 : Bool
  in0 : List FlowWord
  in1 : List FlowWord
  out0 : List FlowWord
  out1 : List FlowWord
  rot0 : Nat
  rot1 : Nat
  strm : Tab Word
  ts : Nat
  ext : Bool
  stall : Stall
  mergeRst : Bool
  reqs : List (Nat × Nat)
  walkD : Nat
  walkC : Nat
  walkI : Nat
  deriving DecidableEq, Repr

/-- A tile after reset: memories and registers zero (R225: memories of a powered-off region read zero). -/
def Tile.init : Tile :=
  { dmem := [], cmem := [], imem := [], dpois := [], cpois := [], acc := 0, exc := 0, sat := false, poison := false,
    unwr := false, bexp := 31, treg := [], ptrs := [], pc := 0, entry := 0, loop0 := Loop.init, loop1 := Loop.init,
    halt := false, perr := false, perrInfo := 0, tag := .fine, mk0 := false, mk1 := false, in0 := [], in1 := [],
    out0 := [], out1 := [], rot0 := 0, rot1 := 0, strm := [], ts := 0, ext := false, stall := .none, mergeRst := false,
    reqs := [], walkD := 0, walkC := 0, walkI := 0 }

/-- The comparison of one output port in a handover (R71, R258, R404): words of the old and of the new owner that wait for
their counterparts, words compared, words that differ, elapsed time of the new owner's last word. -/
structure CmpPort where
  old : List FlowWord
  new : List FlowWord
  n : Nat
  bad : Nat
  last : Nat
  deriving DecidableEq, Repr

/-- Nothing compared. -/
def CmpPort.init : CmpPort := ⟨[], [], 0, 0, 0⟩

/-- A segment move of a source region (R256 to R263): its request, phase as `MOVE_STAT.PHASE`, the overlap start and the
number of lead-port words the destination has popped, the horizon instant, whether nothing but its milestone is missing, since
when bound or dirty pages hold it up, the instant, a repair (R263), the comparison by port ((column offset × 16 + row) × 2 +
port), its start and its totals; source columns (region × 16 + logical column) that have failed with the physical column each
failed on, the tiles (column offset × 16 + row) whose state has been copied (R261), and the first physical columns of source
and destination when it started (R266). -/
structure Move where
  src : Nat
  n : Nat
  dreg : Nat
  dcol : Nat
  kind : Nat
  copy : Bool
  phase : Nat
  start : Option Nat
  lead : Nat
  hzn : Option Nat
  ready : Bool
  bindAt : Option Nat
  instant : Option Nat
  repair : Bool
  cmps : Tab CmpPort
  cmpAt : Nat
  compared : Nat
  mismatch : Nat
  dead : Tab Nat
  copied : List Nat
  phys0 : Nat
  phys1 : Nat
  deriving DecidableEq, Repr

/-- A column repair (R264): the failed physical column, whether Prepare has ended, the instant, rows from an image. -/
structure ColRepair where
  phys : Nat
  prepared : Bool
  instant : Nat
  image : Bool
  deriving DecidableEq, Repr

/-- Tiles by location code, moves by source region, column repairs by region × 16 + logical column, moves deferred under
R72, when `SAT` was last raised by region, and the instant from which a column processes words (R260, R264). -/
structure TileSt where
  tiles : Tab Tile
  moves : Tab Move
  repairs : Tab ColRepair
  deferred : List Nat
  satAt : Tab Nat
  since : Tab Nat
  deriving DecidableEq, Repr

/-- No tile has been written. -/
def TileSt.init : TileSt := ⟨[], [], [], [], [], []⟩

end Sys2Proof.Machine
end

