-- ==== Sys2Proof/Machine/StateFlow.lean ====
section
/-! DEFINITION. The state of the causeway and frame memory (chapter 9), of the media engines and of device time (chapter
11), of the fabric (chapter 12) and of the pins (chapter 14) that no register shows whole. Plain data. -/

namespace Sys2Proof.Machine

/-- A stream flit under way (R272): its producer's endpoint, flow, class, timestamp, words, whether it is the producer's
last for the timestamp, the consumer endpoints it still has to reach, and the links (router × 8 + direction) whose check a copy
has failed once. -/
structure Flit where
  prod : Nat
  flow : Nat
  cls : Nat
  ts : Nat
  words : List FlowWord
  last : Bool
  dests : List Nat
  failed : List Nat
  deriving DecidableEq, Repr

/-- A frame port at work (R287, R288): the registers it latched at its last buffer boundary, its buffer, words in the
buffer, the timestamp of the first, truncation, whether the buffer is discarded, complete buffers in order, words that have
arrived, and a reader's next word. -/
structure FmpSt where
  run : Bool
  cfg : Word
  base : Word
  size : Word
  tsAdd : Word
  buf : Nat
  cnt : Nat
  ts : Option Nat
  trunc : Bool
  drop : Bool
  ready : List Nat
  rx : List FlowWord
  rpos : Option Nat
  deriving DecidableEq, Repr

/-- A frame port after reset. -/
def FmpSt.init : FmpSt := ⟨false, 0, 0, 0, 0, 0, 0, none, false, false, [], [], none⟩

/-- A soft row repair (R293): row, spare row, phase as `RPR_STAT`, elapsed time at which its copy began, whether nothing but its
milestone is missing, since when a bound or dirty page holds it up, the instant, mismatches. -/
structure RowRep where
  row : Nat
  spare : Nat
  phase : Nat
  at_ : Nat
  ready : Bool
  bindAt : Option Nat
  instant : Option Nat
  mismatch : Nat
  deriving DecidableEq, Repr

/-- Causeway and frame memory: route records by flow, flits under way, frame ports and repairs by bank, spare row in
service by bank × 8192 + row, spare rows in service and bad by bank, the bytes of frame memory, poisoned 64-bit words by
word number, corrected words of the scrubber's present row, when `FM_CE` was last raised by bank, and the rows whose repairs the
scrubber has requested and that wait, by bank, oldest first (R72, R292). -/
structure CwSt where
  route : Tab Word
  flight : List Flit
  fmp : Tab FmpSt
  reps : Tab RowRep
  rows : Tab Nat
  used : Tab (List Nat)
  bad : Tab (List Nat)
  mem : List Host.Cell
  pois : List Nat
  rowCe : Nat
  ceAt : Tab Nat
  rowWait : Tab (List Nat)
  deriving DecidableEq, Repr

/-- The causeway after reset. -/
def CwSt.init : CwSt := ⟨[], [], [], [], [], [], [], [], [], 0, [], []⟩

/-- The servo and the clock generators (R320 to R328): consecutive small measurements, since when every offset has been
large, elapsed time of the last push and the timeout that runs from it, starts awaited by generator, and the base-rate edge
count `MCG_COUNT` was last brought up to date with. -/
structure TimeSt where
  small : Nat
  bigSince : Option Nat
  pushAt : Nat
  pushTmo : Nat
  starts : Tab Nat
  last : Tab Nat
  deriving DecidableEq, Repr

/-- The servo after reset. -/
def TimeSt.init : TimeSt := ⟨0, none, 0, 3000, [], []⟩

/-- A receive flow (R333 to R336): whether a packet has arrived, next sequence number and its position in the flow,
positions of the packets counted lost, packets held with the elapsed time of their arrival, elapsed time of the last packet
on each path and of the end of the last packet period accounted for, next sample-clock edge to deliver (audio), and the
raster position (video): start of the present frame, line, bytes of the line delivered, the bytes that do not fill a word
yet. -/
structure RxFlow where
  started : Bool
  next : Nat
  pos : Nat
  lost : List Nat
  held : List (Nat × RtpPacket)
  lastA : Nat
  lastB : Nat
  mark : Nat
  edge : Nat
  fstart : Option Nat
  line : Nat
  off : Nat
  carry : List Nat
  deriving DecidableEq, Repr

/-- A receive flow before its first packet. -/
def RxFlow.init : RxFlow := ⟨false, 0, 0, [], [], 0, 0, 0, 0, none, 0, 0, []⟩

/-- A transmit flow (R338 to R340): next sequence number, first sample-clock edge of the next packet (audio), words that
have arrived, index of the next packet of the frame and the frame's start (video), words of the frame already dropped,
whether the words up to the next marker belong to packets already sent, and the elapsed time of the last word. -/
structure TxFlow where
  seq : Nat
  edge : Nat
  words : List FlowWord
  pkt : Nat
  first : Option Nat
  passed : Nat
  skip : Bool
  last : Option Nat
  deriving DecidableEq, Repr

/-- A transmit flow before its first packet. -/
def TxFlow.init : TxFlow := ⟨0, 0, [], 0, none, 0, false, none⟩

/-- Media engines: flow-table words by flow × 16 + word, receive and transmit flows, frames that wait for a host queue as
(queue, frame), PTP transmit timestamps by port as (sequenceId, time), and when `PKT_LOST` and `TX_MISS` were last raised by
engine. -/
structure MediaSt where
  ft : Tab Word
  rx : Tab RxFlow
  tx : Tab TxFlow
  hostq : List (Nat × HostFrame)
  txts : Tab (List (Nat × Nat))
  lostAt : Tab Nat
  missAt : Tab Nat
  deriving DecidableEq, Repr

/-- The media engines after reset. -/
def MediaSt.init : MediaSt := ⟨[], [], [], [], [], [], []⟩

/-- An Ethernet port (R306, R311): elapsed time of the entry into its present state, and the state a survey left. -/
structure EthSt where
  since : Nat
  from_ : Nat
  deriving DecidableEq, Repr

/-- The pattern generator and checker of a lane (R313): the last bits sent, the last bits received or predicted (the newest in
bit 0), symbols predicted in succession, and the part of a symbol that has passed, in 1/1,600,000. -/
structure PrbsSt where
  gen : Nat
  chk : Nat
  good : Nat
  phase : Nat
  deriving DecidableEq, Repr

/-- Serial lanes: ports, elapsed time of each lane's last adaptation step and last insertion-loss estimate, lanes whose
margin has been reported low, since when a lane's margin has been below 0, elapsed time a group's PLL was last retuned,
since when a group's module is on its way to the data-path-activated state, groups whose module has failed to reach it, pattern
generators and checkers at work by lane. -/
structure LaneSt where
  eth : Tab EthSt
  adaptAt : Tab Nat
  ilAt : Tab Nat
  low : List Nat
  negAt : Tab Nat
  tuneAt : Tab Nat
  modAt : Tab Nat
  modBad : List Nat
  prbs : Tab PrbsSt
  deriving DecidableEq, Repr

/-- The lanes after reset. -/
def LaneSt.init : LaneSt := ⟨[], [], [], [], [], [], [], [], []⟩

/-- A user store request of a region (R369): write or read, byte address in the user area, length, the data written. -/
structure UReq where
  region : Nat
  write : Bool
  addr : Nat
  data : List Nat
  len : Nat
  deriving DecidableEq, Repr

/-- A fabric or keeper region (0 to 31 `FREG`n, 32 K0, 33 K1): tap bit indices its image drives, whether its isolation is
released, block RAM words by block × 512 + word and poisoned words, words that wait in the output FIFOs by port, the next
channel of each output port, blocks whose walk is stale, the flip-flops (R343, R347): flip-flop `j` of cell `i` of cluster `k` is
bit 2 × (16 × k + i) + j. -/
structure RegionSt where
  drives : List Nat
  bram : Tab Nat
  bpois : List Nat
  outq : Tab (List FlowWord)
  rot : Tab Nat
  stale : Nat
  ffs : Nat
  deriving DecidableEq, Repr

/-- A region with nothing loaded. -/
def RegionSt.init : RegionSt := ⟨[], [], [], [], [], 0, 0⟩

/-- The fabric: regions, user store requests in order of presentation, the request under way, the region served last, when
`BRAM_CE` was last raised by region, taps in arbitration by trunk as bits 0 to 7. -/
structure FabSt where
  regions : Tab RegionSt
  ureqs : List UReq
  ubusy : Option UReq
  ulast : Nat
  ceAt : Tab Nat
  arb : Tab Nat
  deriving DecidableEq, Repr

/-- The fabric after reset. -/
def FabSt.init : FabSt := ⟨[], [], none, 33, [], []⟩

/-- A manifest entry (R379). -/
structure Manif where
  kind : Nat
  index : Nat
  group : Nat
  flags : Nat
  repl : Nat
  zero : Nat
  cols : Nat
  deriving DecidableEq, Repr

/-- A section table entry (R380). -/
structure Sect where
  ty : Nat
  flags : Nat
  region : Nat
  group : Nat
  ofs : Nat
  len : Nat
  deriving DecidableEq, Repr

/-- A load under way (R388): source, slot, the byte address of its image, who wrote `GO`, whether it is privileged (R386),
the power-up load, and a verify load (R408); header, manifest and section table once read; manifest entries written so far,
milestone slots by release group, groups complete, groups whose check has been issued, groups released. -/
structure LoadJob where
  src : Nat
  slot : Nat
  base : Nat
  who : Source
  priv : Bool
  boot : Bool
  verify : Bool
  ver : Nat
  keysel : Nat
  groups : Nat
  mans : List Manif
  sects : List Sect
  done : List Nat
  slots : Tab Nat
  complete : List Nat
  checked : List Nat
  released : List Nat
  deriving DecidableEq, Repr

/-- The overlap of a new region (R404): its start, the words popped from its lowest-numbered stream-in port, H. -/
structure RegOv where
  start : Option Nat
  lead : Nat
  hzn : Option Nat
  deriving DecidableEq, Repr

/-- A region handover (R403 to R406): pairs of old and new region, phase, the overlap by new region, the comparison by port (new
region × 8 + port) and its start, whether nothing but its milestone is missing, since when bound pages hold it up, the instant,
words compared and mismatching, the switch has happened, elapsed time at which Drain ends. -/
structure RegHo where
  pairs : List (Nat × Nat)
  phase : Nat
  ovs : Tab RegOv
  cmps : Tab CmpPort
  cmpAt : Nat
  ready : Bool
  since : Option Nat
  instant : Option Nat
  compared : Nat
  bad : Nat
  switched : Bool
  drainAt : Nat
  deriving DecidableEq, Repr

/-- Where the image stood that last loaded a tile region (R264): its memory (0 the store, else frame memory), its first byte, its
digest. -/
structure TileImg where
  src : Nat
  base : Nat
  digest : List Nat
  deriving DecidableEq, Repr

/-- The loader: the load and the handover under way, configuration frames by region × 512 + cluster (2,560 bits each; an
absent cluster is unused), the personality: whether the deadline runs and since when, `PERS_DEADLINE`, whether the
personality is complete or bare and its source, whether the fallback slot has been tried, whether the host's
first load is awaited, and by tile region the image that last loaded it. -/
structure LoadSt where
  job : Option LoadJob
  ho : Option RegHo
  frames : Tab Nat
  persAt : Option Nat
  deadline : Nat
  persSrc : Option Nat
  bare : Bool
  fellBack : Bool
  awaitHost : Bool
  tileImgs : Tab TileImg
  deriving DecidableEq, Repr

/-- The loader after reset; `PERS_DEADLINE` is 250 ms (R400). -/
def LoadSt.init : LoadSt := ⟨none, none, [], none, 250, none, false, false, false, []⟩

/-- A slot or firmware-bank write under way (R410, R484): target (0 slot, 1 bank), index, from the slave buffer, bytes to
copy, units done. -/
structure StoreJob where
  target : Nat
  index : Nat
  slave : Bool
  len : Nat
  units : Nat
  deriving DecidableEq, Repr

/-- The image store (R409 to R411): its bytes, wear counters by sector, the write under way, the firmware banks that still
hold what they were shipped with. -/
structure StoreSt where
  bytes : List Host.Cell
  wear : Tab Nat
  job : Option StoreJob
  shipped : List Nat
  deriving DecidableEq, Repr

/-- The image store as shipped. -/
def StoreSt.init : StoreSt := ⟨[], [], none, [0, 1]⟩

/-- Pins and pin peripherals: pin-lock sequences by bank (keys taken, source, mask), function held by a locked pin, pad
latches by pin (bit 0 value, bit 1 enabled, bit 2 the pin has driven since reset, bit 3 a region has driven it since reset),
banks whose `IOB_CTL` has been written since reset, blocks that run without a pin as pin × 16 + function, next edge of each
AES3 block and words waiting for it, time of the last valid LTC codeword and next frame of each LTC generator, bytes in the
serial FIFOs by page base and when the byte under way started, boundary scan active. -/
structure PinSt where
  lockSeq : Tab (Nat × Nat × Nat)
  lockFn : Tab Nat
  pads : Tab Nat
  live : List Nat
  blocked : List Nat
  aesEdge : Tab Nat
  aesTx : Tab (List FlowWord)
  ltcAt : Tab Nat
  ltcFrame : Tab Nat
  serTx : Tab (List Nat)
  serRx : Tab (List Nat)
  serAt : Tab Nat
  extest : Bool
  deriving DecidableEq, Repr

/-- The pins after reset. -/
def PinSt.init : PinSt := ⟨[], [], [], [], [], [], [], [], [], [], [], [], false⟩

end Sys2Proof.Machine
end

