-- ==== Sys2Proof/Machine/StateSys.lean ====
section
/-! DEFINITION. The state of security (chapter 16) that no register shows. Plain data. -/

namespace Sys2Proof.Machine

/-- A load that reached DONE (R474): digest, version, `ARC`, source, regions still holding it (0 to 31 fabric, 32 and 33
keepers, 34 up tiles). -/
structure ImgEntry where
  digest : List Nat
  ver : Nat
  arc : Nat
  src : Nat
  regions : List Nat
  deriving DecidableEq, Repr

/-- Keys as numbers (R464, R467), the attestation under way (mode, address, device time at its start), the eight latest
loads, the active firmware bank of the identity area, the elapsed time before which a source's next envelope waits, the
boundary-scan instruction the JTAG port holds (0 IDCODE, 1 BYPASS, 2 SAMPLE/PRELOAD, 3 EXTEST, 4 INTEST, 5 another), a
tamper trip still to be reported, retired columns to return at the next PORST_N as
region × 17 + column, the Boot ROM is in recovery, the firmware bank that runs (`BOOT_STAT` shows both until a block reset of
the page clears it). -/
structure SecSt where
  kimgF : Option Nat
  kimgB : Option Nat
  kcmd : Option Nat
  att : Option (Nat × Nat × Nat)
  entries : List ImgEntry
  activeBank : Nat
  tagWait : Tab Nat
  jtag : Nat
  tamperDue : Bool
  colBack : List Nat
  recovery : Bool
  bank : Nat
  deriving DecidableEq, Repr

/-- Security as shipped: no key programmed. -/
def SecSt.init : SecSt := ⟨none, none, none, none, [], 0, [], 0, false, [], false, 0⟩

/-- A power transition under way (R496, R497): the state it leads to, the request that waits for its end, the elapsed time
at which it began, and, for a wake from LULL or DARK, how long after that its power switch closes (R537). -/
structure PwrTrans where
  to_ : Nat
  wait : Option Nat
  at_ : Nat
  lag : Option Nat
  deriving DecidableEq, Repr

/-- Power, clocks and monitors (chapter 17, R550): the power transition under way by page, old
values of registers that a milestone changed in LULL by address (R64), the device is dark, the thermal trip holds the core,
a core rail has been lost and is not back (R492), `THERM_WARN` has been raised, `AGE_WARN` and `LIFE_WARN` have been raised, the highest temperature of this hour passed 95 °C,
elapsed time at the start of the hour and at PORST_N, elapsed time of the last failure and of the last lock of a pair's
failed PLL, pairs that have reported `PLL_NO_SPARE`, pairs that wait for a cold PLL,
the supervisor runs (`SUP_RUN` shows it until a block reset of the page clears the register). -/
structure PowerSt where
  trans : Tab PwrTrans
  late : Tab Word
  dark : Bool
  tripped : Bool
  railsOut : Bool
  warm : Bool
  aged : Bool
  worn : Bool
  hotHour : Bool
  hourAt : Nat
  porstAt : Nat
  failAt : Tab Nat
  lockAt : Tab Nat
  noSpare : List Nat
  cold : List Nat
  supRun : Bool
  deriving DecidableEq, Repr

/-- Power after reset. -/
def PowerSt.init : PowerSt := ⟨[], [], false, false, false, false, false, false, false, 0, 0, [], [], [], [], false⟩

/-- A firmware changeover (R545): old and new bank, the comparison has passed, elapsed time since when it waits to arm or to
leave ACQUIRE, the instant, the switch has happened. -/
structure FwSt where
  old : Nat
  new : Nat
  ready : Bool
  since : Option Nat
  instant : Option Nat
  switched : Bool
  deriving DecidableEq, Repr

/-- A DMA queue (R440 to R443): its block's registers by offset, the phase of the completion ring, descriptors fetched and
unfinished, descriptors the host has submitted and the device has not fetched, completion records that wait for room with
their interrupt request. -/
structure DmaQ where
  regs : Tab Word
  phase : Bool
  work : List Desc
  rung : List Desc
  pend : List (List Word × Bool)
  deriving DecidableEq, Repr

/-- A queue after reset. -/
def DmaQ.init : DmaQ := ⟨[], true, [], [], []⟩

/-- The PCIe function (R438 to R446): queues, MSI-X table dwords as vector × 4 + dword (the control dword of an unlisted
vector reads 1, masked), pending bits, MSI-X enable and function mask, frames that wait to be sent as (port, bytes). -/
structure HostSt where
  dma : Tab DmaQ
  msix : Tab Word
  pba : List Nat
  msixOn : Bool
  msixMask : Bool
  txq : List (Nat × List Nat)
  deriving DecidableEq, Repr

/-- The function after reset. -/
def HostSt.init : HostSt := ⟨[], [], [], false, false, []⟩

/-- A POLL under way (R459): channel, `SEQ`, address, mask, value, elapsed time of its timeout. -/
structure Poll where
  chan : Nat
  seq : Nat
  addr : Nat
  mask : Word
  value : Word
  due : Nat
  deriving DecidableEq, Repr

/-- The Brizel link (R454 to R459): last accepted `SEQ` and the RSP sent for it by channel, credits the manager holds by
channel, consecutive rejected frames, `SEQ` of the next NOTICE frame, NOTICE frames not acknowledged with the elapsed time
of their last send, POLLs under way. -/
structure BrzSt where
  last : Tab (Nat × List Nat)
  credit : Tab Nat
  bad : Nat
  nseq : Nat
  flight : List (InFlight × Nat)
  polls : List Poll
  deriving DecidableEq, Repr

/-- The link before synchronisation. -/
def BrzSt.init : BrzSt := ⟨[], [], 0, 0, [], []⟩

end Sys2Proof.Machine
end

