-- ==== Sys2Proof/Machine/State.lean ====
section
/-! DEFINITION. The state of the device, the reasons a step can stop, and the state right after reset. Plain data. -/

namespace Sys2Proof.Machine

/-- The device: everything but the queue of commands. -/
structure Dev where
  /-- every register of the BAR0 pages, live and staged halves, by byte offset (R14); `resetWord` when not listed -/
  regs : Tab Word
  /-- counter snapshots by source × 2^28 + byte offset (R38); zero when not listed -/
  snaps : Tab Word
  /-- page-lock sequences under way: keys accepted and the source, by page base (R34) -/
  lockSeq : Tab (Nat × Nat)
  /-- device time in ns since the PTP epoch, and its 16-bit fraction (R319) -/
  now : Nat
  frac : Nat
  /-- ns elapsed since power-on: what the device's intervals are counted on; no step of device time moves it and no reset
  clears it -/
  mono : Nat
  /-- the four notice queues (R450) -/
  nq : Tab NQueue
  /-- messages sent by the last command, in order -/
  out : List OutMsg
  /-- the model's own counter: the index of the next free value -/
  fresh : Nat
  /-- milestone slots and checker -/
  mst : MstSt
  /-- ports, groups, slices and port dies -/
  an : AnalogSt
  /-- MAC tiles and segment moves -/
  ti : TileSt
  /-- causeway and frame memory -/
  cw : CwSt
  /-- servo and media clock generators -/
  tm : TimeSt
  /-- media engines -/
  md : MediaSt
  /-- serial lanes and Ethernet ports -/
  ln : LaneSt
  /-- fabric and keeper regions -/
  fab : FabSt
  /-- loader and image store -/
  ld : LoadSt
  sto : StoreSt
  /-- security -/
  sec : SecSt
  /-- pins and pin peripherals -/
  pn : PinSt
  /-- power, clocks and monitors -/
  pw : PowerSt
  /-- the firmware changeover under way -/
  fw : Option FwSt
  /-- the PCIe function -/
  hs : HostSt
  /-- the Brizel link -/
  bz : BrzSt
  deriving DecidableEq, Repr

/-- The device right after reset. -/
def Dev.reset : Dev :=
  { regs := [], snaps := [], lockSeq := [], now := 0, frac := 0, mono := 0, nq := [], out := [], fresh := 0,
    mst := ⟨[], [], [], none, []⟩, an := AnalogSt.init, ti := TileSt.init, cw := CwSt.init,
    tm := TimeSt.init, md := MediaSt.init, ln := LaneSt.init, fab := FabSt.init, ld := LoadSt.init, sto := StoreSt.init, sec := SecSt.init, pn := PinSt.init,
    pw := PowerSt.init, fw := none, hs := HostSt.init, bz := BrzSt.init }

/-- The machine: the commands that wait, first in first out, and the device. -/
structure State where
  pending : List Instr
  dev : Dev
  deriving DecidableEq, Repr

/-- The machine right after reset: nothing waits. -/
def State.reset : State := { pending := [], dev := Dev.reset }

/-- Why a step can stop the machine. No command of this block stops it: the spec gives every command an effect. -/
inductive Fault where
  /-- Raised by nothing; a closed type needs a name. Safe. -/
  | none_
  deriving DecidableEq, Repr

/-- Why a step can be refused. -/
inductive Refusal where
  /-- The command has no meaning in the model yet; raised by its arm of the dispatch. Safe: nothing is concluded. -/
  | notModelled (mnemonic : String)
  deriving DecidableEq, Repr

end Sys2Proof.Machine
end

