-- ==== Sys2Proof/Machine/Ops.lean ====
section
/-! DEFINITION. The operations every block shares: reading and writing registers and fields, events and notices (R27 to
R30, R447 to R451), counters and snapshots (R37 to R39), device time, page resets (R40), messages to the outside. -/

namespace Sys2Proof

/-! ### Sources -/

/-- `REFUSE_INFO.SOURCE` (R22). -/
def Source.code : Source → Nat
  | .sup => 0 | .pcie => 1 | .brizel => 2 | .ssp => 3 | .psp => 4 | .region _ => 5 | .keeper _ => 5

/-- A number for the source that tells fabric regions and keepers apart (0 to 31 `FREG`n, 32 K0, 33 K1, R33). -/
def Source.tag : Source → Nat
  | .sup => 100 | .pcie => 101 | .brizel => 102 | .ssp => 103 | .psp => 104 | .region n => n.val | .keeper k => 32 + k.val

end Sys2Proof

namespace Sys2Proof.Machine

/-! ### Registers -/

/-- The stored word at a byte offset. -/
def Dev.raw (d : Dev) (a : Nat) : Word := (Tab.get d.regs a).getD (resetWord a)

/-- Store a word at a byte offset. -/
def Dev.put (d : Dev) (a : Nat) (v : Word) : Dev := { d with regs := Tab.put d.regs a v (resetWord a) }

/-- A field of the page at base `p`. -/
def Dev.fld (d : Dev) (p : Nat) (f : Fld) : Nat := bitsOf (d.raw (p + f.off)) f.hi f.lo

/-- Set a field of the page at base `p`. -/
def Dev.setF (d : Dev) (p : Nat) (f : Fld) (n : Nat) : Dev :=
  d.put (p + f.off) (setBits (d.raw (p + f.off)) f.hi f.lo n)

/-- A one-bit field as a truth value. -/
def Dev.flag (d : Dev) (p : Nat) (f : Fld) : Bool := decide (d.fld p f = 1)

/-- Set a one-bit field. -/
def Dev.setFlag (d : Dev) (p : Nat) (f : Fld) (b : Bool) : Dev := d.setF p f (if b then 1 else 0)

/-- A field of a word. -/
def fieldOf (f : Fld) (w : Word) : Nat := bitsOf w f.hi f.lo

/-- A whole register of the page at base `p`. -/
def Dev.reg (d : Dev) (p : Nat) (f : Fld) : Word := d.raw (p + f.off)

/-- Store a whole register of the page at base `p`. -/
def Dev.setReg (d : Dev) (p : Nat) (f : Fld) (v : Word) : Dev := d.put (p + f.off) v

/-- `PAGE_STAT.STATE` of a page. -/
def Dev.st (d : Dev) (p : Nat) : Nat := d.fld p HDR.STATE

/-- Set `PAGE_STAT.STATE`. -/
def Dev.setSt (d : Dev) (p : Nat) (n : Nat) : Dev := d.setF p HDR.STATE n

/-- `PAGE_STAT.PWR_STATE` of a page: 0 RUN, 1 DOZE, 2 LULL, 3 DARK. -/
def Dev.pwrState (d : Dev) (p : Nat) : Nat := d.fld p HDR.PWR_STATE

/-! ### Milestone bindings as registers show them -/

/-- A slot of the milestone unit. -/
def Dev.slot (d : Dev) (m : Nat) : Slot := (Tab.get d.mst.slots m).getD Slot.init

/-- Store a slot. -/
def Dev.setSlot (d : Dev) (m : Nat) (s : Slot) : Dev :=
  { d with mst := { d.mst with slots := Tab.put d.mst.slots m s Slot.init } }

/-- The binding of the page at base `p`. -/
def Dev.bind (d : Dev) (p : Nat) : Bind := (Tab.get d.mst.binds p).getD Bind.none

/-- Store a binding. -/
def Dev.setBind (d : Dev) (p : Nat) (b : Bind) : Dev :=
  { d with mst := { d.mst with binds := Tab.put d.mst.binds p b Bind.none } }

/-- `MS_BIND` of the page at base `p` (R46). -/
def Dev.msBind (d : Dev) (p : Nat) : Word :=
  let b := d.bind p
  BitVec.ofNat 32 ((if b.bound then 2 ^ 31 else 0) + b.slot * 2 ^ 16 +
    (if b.bound then (d.slot b.slot).state.code else b.ended))

/-- Is slot `m` reserved for the supervisor (`MST_RESV.SVC_SLOTS`, R49) or held by it (R50)? -/
def Dev.svcSlot (d : Dev) (m : Nat) : Bool :=
  let r := d.fld (pg .mst 0) MST.SVC_SLOTS
  decide (m = 15 ∧ 1 ≤ r) || decide (m = 14 ∧ 2 ≤ r) || decide (12 ≤ m ∧ 3 ≤ r) || (d.slot m).job.isSome

/-- The page at base `p` is bound to a slot in CHECKING or ARMED (R18, R21). -/
def Dev.held (d : Dev) (p : Nat) : Bool :=
  let b := d.bind p
  b.bound && (decide ((d.slot b.slot).state = .checking) || decide ((d.slot b.slot).state = .armed))

/-! ### Live values as a reader sees them -/

/-- A live register as a reader sees it: the stored word, with the fields that show other state filled in. -/
def Dev.view (d : Dev) (a : Nat) : Word :=
  let p := pageBase a
  let off := a % 0x1000
  match pageAt a with
  | none => 0
  | some (c, _) =>
    let w := d.raw a
    if off = 0x02C then d.msBind p
    else if off = 0x00C then
      let b := d.bind p
      if b.bound then setBits (setBits w 23 20 b.slot) 4 4 1 else w
    else if c = .mst ∧ 0x40 ≤ off ∧ off < 0x440 ∧ off % 0x40 = 4 then
      let m := (off - 0x40) / 0x40
      let s := d.slot m
      setBits (setBits (setBits w 4 4 (if d.svcSlot m then 1 else 0)) 3 3
        (if d.mst.queue.any (fun j => decide (j.slot = m)) then 1 else 0)) 2 0 s.state.code
    else if c = .mst ∧ 0x40 ≤ off ∧ off < 0x440 ∧ off % 0x40 = 0x20 then
      BitVec.ofNat 32 (d.slot ((off - 0x40) / 0x40)).scope.length
    else if c = .chk ∧ off = 0x040 then setBits w 4 0 (d.mst.queue.map fun j => j.slot).eraseDups.length
    else w

/-! ### Messages to the outside -/

/-- Send a message. -/
def Dev.send (d : Dev) (m : OutMsg) : Dev := { d with out := d.out ++ [m] }

/-- The index of the next free value; the counter advances. -/
def Dev.takeFresh (d : Dev) : Nat × Dev := (d.fresh, { d with fresh := d.fresh + 1 })

/-! ### Notices -/

/-- One notice queue. -/
def Dev.queue (d : Dev) (q : Nat) : NQueue := (Tab.get d.nq q).getD NQueue.init

/-- Store a notice queue. -/
def Dev.setQueue (d : Dev) (q : Nat) (v : NQueue) : Dev := { d with nq := Tab.put d.nq q v NQueue.init }

/-- Records waiting in a destination's buffer. -/
def waitingRecs (l : List QEnt) : Nat := (l.filter fun e => match e with | .record _ => true | .lost .. => false).length

/-- One more record lost: the mark of the first lost record stands at its place in the sequence (R451). -/
def markLost : List QEnt → Nat → Nat → Nat → List QEnt
  | [], seq, sec, ns => [.lost 1 seq sec ns]
  | [.lost c f _ _], _, sec, ns => [.lost (Nat.min (c + 1) 0xFFFFFFFF) f sec ns]
  | e :: t, seq, sec, ns => e :: markLost t seq sec ns

/-- A record put into a destination's buffer of 64, or lost (R450). -/
def offer (l : List QEnt) (n : Notice) : List QEnt × Bool :=
  if waitingRecs l < 64 then (l ++ [.record n], true) else (markLost l n.seq n.sec n.ns, false)

/-- A statistics counter of 31 bits and its `CEIL` flag, advanced by `n` (R37); true when it reaches its end now. -/
def bump (w : Word) (n : Nat) : Word × Bool :=
  if bitAt w 31 then (w, false)
  else if 0x7FFFFFFF ≤ w.toNat + n then (0xFFFFFFFF, true) else (BitVec.ofNat 32 (w.toNat + n), false)

/-- Advance a statistics counter with no event of its own; true when it reaches its end now. -/
def Dev.bumpReg (d : Dev) (a : Nat) (n : Nat) : Dev × Bool :=
  let r := bump (d.raw a) n
  (d.put a r.1, r.2)

/-- Number a record, hand it to the destinations its queue enables (R448, R450), and count losses. The offsets of
counters of the `NTC` page that reached their end are given back. -/
def Dev.emitTo (d : Dev) (code sev q page : Nat) (w4 w5 w6 w7 : Word) : Dev × List Nat :=
  let ntc := pg .ntc 0
  let seq := (d.reg ntc (NTC.NQ_SEQ.at q)).toNat
  let n : Notice := ⟨code, sev, q, seq, page, d.now / 1000000000 % 2 ^ 32, d.now % 1000000000, w4, w5, w6, w7⟩
  let d1 := d.setReg ntc (NTC.NQ_SEQ.at q) (BitVec.ofNat 32 (seq + 1))
  let e1 := if seq = 0xFFFFFFFF then d1.bumpReg (ntc + (NTC.NQ_SEQ_EPOCH.at q).off) 1 else (d1, false)
  let dest := e1.1.fld ntc (NTC.DEST.at q)
  let qs := e1.1.queue q
  let h := if dest % 2 = 1 then offer qs.host n else (qs.host, true)
  let b := if 2 ≤ dest then offer qs.briz n else (qs.briz, true)
  let since := if 2 ≤ dest ∧ b.2 ∧ qs.brizSince = none then some e1.1.mono else qs.brizSince
  let d2 := e1.1.setQueue q { qs with host := h.1, briz := b.1, brizSince := since }
  let e2 := if h.2 then (d2, false) else d2.bumpReg (ntc + (NTC.NQ_LOST_CNT.at q).off) 1
  let e3 := if b.2 then (e2.1, false) else e2.1.bumpReg (ntc + (NTC.NQ_LOST_B_CNT.at q).off) 1
  (e3.1, (if e1.2 then [(NTC.NQ_SEQ_EPOCH.at q).off] else []) ++ (if e2.2 then [(NTC.NQ_LOST_CNT.at q).off] else []) ++
    (if e3.2 then [(NTC.NQ_LOST_B_CNT.at q).off] else []))

/-- Send a notice; in recovery none is sent (R469). -/
def Dev.emit (d : Dev) (code sev q page : Nat) (w4 w5 w6 w7 : Word) : Dev × List Nat :=
  if d.sec.recovery then (d, []) else d.emitTo code sev q page w4 w5 w6 w7

/-- Record an event of the page at base `p` and make its notice when it is selected (R27, R28): bit, code, severity,
payload. The counters of the `NTC` page that reached their end are given back. -/
def Dev.raiseRaw (d : Dev) (p bit code sev : Nat) (w4 w5 w6 w7 : Word) : Dev × List Nat :=
  let always := decide (2 ≤ sev)
  let en := always || bitAt (d.reg p HDR.EVT_EN) bit
  let sel := always || bitAt (d.reg p HDR.EVT_NOTICE) bit
  if en then
    let d1 := d.setReg p HDR.EVT_STAT (d.reg p HDR.EVT_STAT ||| BitVec.ofNat 32 (1 <<< bit))
    let q := if sev = 3 then 0 else if sev = 2 then 1 else d1.fld p HDR.QUEUE
    if sel then d1.emit code sev q p w4 w5 w6 w7 else (d1, [])
  else (d, [])

/-- As `raiseRaw`; a counter of the `NTC` page that reached its end raises `CEIL` there (R37). -/
def Dev.raiseCode (d : Dev) (p bit code sev : Nat) (w4 w5 w6 w7 : Word) : Dev :=
  let r := d.raiseRaw p bit code sev w4 w5 w6 w7
  r.2.foldl (fun d off => (d.raiseRaw (pg .ntc 0) 1 0x0003 0 (BitVec.ofNat 32 off) 0 0 0).1) r.1

/-- The register a payload word carries (R29). -/
def Dev.payload (d : Dev) (p : Nat) : PW → Word
  | .none => 0
  | .reg off => d.view (p + off)
  | .abs a => d.view a
  | .bits off hi lo => BitVec.ofNat 32 (bitsOf (d.view (p + off)) hi lo)
  | .devW7 =>
    BitVec.ofNat 32 (d.fld p PORT.SUSP * 2 ^ 30 + d.fld p PORT.WARN * 2 ^ 29 + d.fld p PORT.DEV)

/-- The forced marker (R29): bit 31 of payload word 7 is 1 only on a forced notice. -/
def forcedMark (forced : Bool) (w : Word) : Word := setBits w 31 31 (if forced then 1 else 0)

/-- Raise a block event of the page at base `p` with the given severity: the words the notice table names as registers
carry their present values, the others the values given here. -/
def Dev.raiseSev (d : Dev) (p : Nat) (e : Evt) (sev : Nat) (w4 w5 w6 w7 : Word) : Dev :=
  d.raiseCode p e.bit e.code sev (d.payload p e.p4 ||| w4) (d.payload p e.p5 ||| w5) (d.payload p e.p6 ||| w6)
    (forcedMark false (d.payload p e.p7 ||| w7))

/-- Raise a block event of the page at base `p`. -/
def Dev.raise (d : Dev) (p : Nat) (e : Evt) (w4 : Word := 0) (w5 : Word := 0) (w6 : Word := 0) (w7 : Word := 0) : Dev :=
  d.raiseSev p e e.sev w4 w5 w6 w7

/-- Payload words 5 and 6 of a time: nanoseconds and the low 32 bits of the seconds (R132, R164). -/
def nsWord (t : Nat) : Word := BitVec.ofNat 32 (t % 1000000000)

/-- The low 32 bits of the seconds of a time. -/
def secWord (t : Nat) : Word := BitVec.ofNat 32 (t / 1000000000)

/-- A number as a register word. -/
def wd (n : Nat) : Word := BitVec.ofNat 32 n

/-- Raise an event whose payload words 5 and 6 are a timestamp. -/
def Dev.raiseAt (d : Dev) (p : Nat) (e : Evt) (t : Nat) (w4 : Word := 0) : Dev := d.raise p e w4 (nsWord t) (secWord t)

/-! ### Counters -/

/-- Advance a 32-bit statistics counter by `n`; at its end it sets `CEIL` and raises the page's `CEIL` event once (R37,
R30). -/
def Dev.count (d : Dev) (p : Nat) (f : Fld) (n : Nat := 1) : Dev :=
  let r := d.bumpReg (p + f.off) n
  if r.2 then r.1.raiseCode p 1 0x0003 0 (wd f.off) 0 0 0 else r.1

/-- Advance a 64-bit statistics counter by `n` (bit 63 `CEIL`, bits 62:0 `COUNT`). -/
def Dev.count64 (d : Dev) (p : Nat) (f : Fld) (n : Nat := 1) : Dev :=
  let lo := (d.raw (p + f.off)).toNat
  let hi := (d.raw (p + f.off + 4)).toNat
  if 2 ^ 31 ≤ hi then d
  else
    let v := hi * 2 ^ 32 + lo + n
    if 2 ^ 63 - 1 ≤ v then
      ((d.put (p + f.off) 0xFFFFFFFF).put (p + f.off + 4) 0xFFFFFFFF).raiseCode p 1 0x0003 0 (wd f.off) 0 0 0
    else (d.put (p + f.off) (wd v)).put (p + f.off + 4) (wd (v / 2 ^ 32))

/-- Advance a free-running counter by `n`; its wraps advance the paired epoch counter (R37). -/
def Dev.countFree (d : Dev) (p : Nat) (f epoch : Fld) (n : Nat := 1) : Dev :=
  let v := (d.raw (p + f.off)).toNat + n
  let d1 := d.put (p + f.off) (wd v)
  if v / 2 ^ 32 = 0 then d1 else d1.count p epoch (v / 2 ^ 32)

/-- The offsets of the counters of a page class. -/
def Cls.counterOffs (c : Cls) : List Nat :=
  ((hdrRegs ++ c.regs).filter (·.isCounter)).flatMap fun r =>
    (List.range r.count).flatMap fun i =>
      let o := r.off + r.stride * i
      if r.ctr = .stat64 then [o, o + 4] else [o]

/-- The offsets of the statistics counters of a page class. -/
def Cls.statOffs (c : Cls) : List Nat :=
  ((hdrRegs ++ c.regs).filter fun r => r.ctr = .stat || r.ctr = .stat64).flatMap fun r =>
    (List.range r.count).flatMap fun i =>
      let o := r.off + r.stride * i
      if r.ctr = .stat64 then [o, o + 4] else [o]

/-- The key of a counter in a source's snapshot. -/
def snapKey (src : Source) (a : Nat) : Nat := src.code * 2 ^ 28 + a

/-- A counter as the source's snapshot holds it; zero before its first snapshot (R38). -/
def Dev.snapRead (d : Dev) (src : Source) (a : Nat) : Word := (Tab.get d.snaps (snapKey src a)).getD 0

/-- Latch every counter of the page at base `p` into the source's snapshot (R38). -/
def Dev.snap (d : Dev) (c : Cls) (p : Nat) (src : Source) : Dev :=
  c.counterOffs.foldl
    (fun e off => { e with snaps := Tab.put e.snaps (snapKey src (p + off)) (d.view (p + off)) 0 }) d

/-- Latch the snapshot, then clear every statistics counter and its `CEIL` flag (R39). -/
def Dev.snapClr (d : Dev) (c : Cls) (p : Nat) (src : Source) : Dev :=
  c.statOffs.foldl (fun e off => e.put (p + off) 0) (d.snap c p src)

/-! ### Device time -/

/-- Device time reaches `t`; it never runs backwards here (a step of device time is R322's). -/
def Dev.reach (d : Dev) (t : Nat) : Dev := if d.now < t then { d with now := t, frac := 0, mono := d.mono + (t - d.now) } else d

/-- Device time after `ns` nanoseconds. -/
def Dev.pass (d : Dev) (ns : Nat) : Dev := { d with now := d.now + ns, mono := d.mono + ns }

/-! ### Page resets -/

/-- Does the register at an address keep its value through the reset of its page (R36, R40): page owner, page lock, and
registers held in the store, the fuses, the battery domain or the always-on domain. -/
def survivesBlock (a : Nat) : Bool :=
  let off := a % 0x1000
  match pageAt a with
  | none => false
  | some (c, _) =>
    decide (off = 0x24) || decide (off = 0x28) ||
    (match findReg c (off % 0x800) with
     | some r => decide (r.scope ≠ .page)
     | none => false)

/-- The registers of the page at base `p` take their reset values in both halves, except those that survive and those
`keep` names by offset. Snapshots of the page are dropped and a binding that has ended is forgotten. -/
def Dev.resetPage (d : Dev) (p : Nat) (keep : Nat → Bool) : Dev :=
  let drop := fun a => decide (p ≤ a ∧ a < p + 0x1000) && !(survivesBlock a) && !(keep (a % 0x1000))
  { d with
    regs := Tab.keep d.regs fun a => !(drop a)
    snaps := Tab.keep d.snaps fun k => !(decide (p ≤ k % 2 ^ 28 ∧ k % 2 ^ 28 < p + 0x1000))
    lockSeq := Tab.del d.lockSeq p
    mst := { d.mst with binds := if (d.bind p).bound then d.mst.binds else Tab.del d.mst.binds p } }

end Sys2Proof.Machine
end

