-- ==== Sys2Proof/Machine/Grid.lean ====
section
/-! DEFINITION. The grids of device time (R327): edges of the media clock generators, frame starts, and the instants of
output samples of the capture and output presets (R106, R122, R136). -/

namespace Sys2Proof.Machine

/-- `⌈a / b⌉`. -/
def ceilDiv (a b : Nat) : Nat := (a + b - 1) / b

/-- Edge `k` of a clock of `r` Hz: the first whole nanosecond at or after k × 10^9 / r (R327). -/
def edgeTime (r k : Nat) : Nat := ceilDiv (k * 1000000000) r

/-- The first edge of a clock of `r` Hz at or after `t`. -/
def edgeAt (r t : Nat) : Nat := if t = 0 then 0 else (t - 1) * r / 1000000000 + 1

/-- The latest edge of a clock of `r` Hz at or before `t`. -/
def edgeBefore (r t : Nat) : Nat := t * r / 1000000000

/-- The base rate of a family (R95, R327). -/
def baseRate (family : Nat) : Nat := if family = 0 then 48000 else 44100

/-- The base rate of media clock generator `n` as its live `FAMILY` selects. -/
def Dev.mcgRate (d : Dev) (n : Nat) : Nat := baseRate (d.fld (pg .mcg n) MCG.FAMILY)

/-- Is generator `n` producing edges? -/
def Dev.mcgRuns (d : Dev) (n : Nat) : Bool := d.flag (pg .mcg n) MCG.RUNNING

/-- The frame period of a frame-rate code as ns numerator and denominator (*Frame rates*). -/
def framePeriod : Nat → Nat × Nat
  | 1 => (1001000000000, 24000)
  | 2 => (1000000000, 24)
  | 3 => (1000000000, 25)
  | 4 => (1001000000000, 30000)
  | 5 => (1000000000, 30)
  | 6 => (1000000000, 50)
  | 7 => (1001000000000, 60000)
  | 8 => (1000000000, 60)
  | _ => (0, 1)

/-- Start of frame `f` at a frame-rate code (R327). -/
def frameTime (vrate f : Nat) : Nat := ceilDiv (f * (framePeriod vrate).1) (framePeriod vrate).2

/-- The first frame whose start is at or after `t`. -/
def frameAt (vrate t : Nat) : Nat :=
  if t = 0 then 0 else (t - 1) * (framePeriod vrate).2 / (framePeriod vrate).1 + 1

/-- log2 of a preset's output rate over the base rate (R106, R108, R135): 0 CALM, 1 ZEPHYR, 2 BREEZE, 3 GUST, 4 GALE. -/
def presetMult : Nat → Nat
  | 1 => 1 | 3 => 2 | 4 => 3 | _ => 0

/-- Preset latency in output samples (R108, R135). -/
def presetLat : Nat → Nat
  | 0 => 38 | 1 => 40 | 2 => 6 | 3 => 12 | 4 => 4 | _ => 38

/-- Flush count F of a preset (R108). -/
def presetFlush : Nat → Nat
  | 0 => 64 | 1 => 64 | 2 => 24 | 3 => 16 | 4 => 8 | _ => 64

/-- W = F + preset latency + 63 (R123). -/
def presetW (p : Nat) : Nat := presetFlush p + presetLat p + 63

/-- O = F + 128, the least overlap of an input handover (R176). -/
def presetO (p : Nat) : Nat := presetFlush p + 128

/-- The handover allowance A in 0.1 dB (R177). -/
def presetAllow : Nat → Nat
  | 1 => 10 | 2 => 10 | 3 => 50 | 4 => 140 | _ => 0

end Sys2Proof.Machine
end

