-- ==== Sys2Proof/Machine/Slots.lean ====
section
/-! DEFINITION. Milestone slots and bindings (R45 to R50): what every block may do with a slot. The checker and the apply
stand in the milestone family, after the blocks. -/

namespace Sys2Proof.Machine

/-- The `MST` page. -/
def mstPg : Nat := pg .mst 0

/-- The `CHK` page. -/
def chkPg : Nat := pg .chk 0

/-- The trigger type of slot `m`. -/
def Dev.trig (d : Dev) (m : Nat) : Nat := d.fld mstPg (MST.TYPE.at m)

/-- The instant held in the `MS_AT` registers of slot `m`. -/
def Dev.atRegs (d : Dev) (m : Nat) : Nat :=
  (d.fld mstPg (MST.SEC_HI.at m) * 2 ^ 32 + (d.reg mstPg (MST.MS_AT_SEC_LO.at m)).toNat) * 1000000000 +
    d.fld mstPg (MST.NS.at m)

/-- Write a resolved instant into the `MS_AT` registers of slot `m` (R52). -/
def Dev.setAtRegs (d : Dev) (m t : Nat) : Dev :=
  let d1 := d.setSlot m { d.slot m with held := true }
  ((d1.setReg mstPg (MST.MS_AT_NS.at m) (nsWord t)).setReg mstPg (MST.MS_AT_SEC_LO.at m) (secWord t)).setReg mstPg
    (MST.MS_AT_SEC_HI.at m) (wd (t / 1000000000 / 2 ^ 32 % 65536))

/-- Word 4 of the slot notices: slot and trigger type (R74). -/
def Dev.slotWord (d : Dev) (m : Nat) : Word := wd (m * 65536 + d.trig m)

/-- Raise a slot event, unless the supervisor holds or reserves the slot (R74). -/
def Dev.slotEvent (d : Dev) (m : Nat) (e : Evt) (w7 : Word) : Dev :=
  if d.svcSlot m then d
  else d.raise mstPg e (d.slotWord m) (d.reg mstPg (MST.MS_AT_NS.at m)) (d.reg mstPg (MST.MS_AT_SEC_LO.at m)) w7

/-- Every page in the scope of slot `m` is unbound, and keeps the slot number and the state in which its binding ended
(R46); the scope is left empty. -/
def Dev.unbindAll (d : Dev) (m : Nat) : Dev :=
  let s := d.slot m
  let d1 := s.scope.foldl (fun e p => e.setBind p ⟨m, false, s.state.code⟩) d
  d1.setSlot m { d1.slot m with scope := [] }

/-- Slot `m` changes state. -/
def Dev.slotTo (d : Dev) (m : Nat) (st : SlotState) : Dev := d.setSlot m { d.slot m with state := st }

/-- Raise a common event on every page of a list. -/
def Dev.raiseOn (d : Dev) (pages : List Nat) (f : Dev → Nat → Dev) : Dev := pages.foldl f d

/-- `MS_MISS` on a page: word 4 `MS_BIND`, word 5 `CHECK_RES` (R30). -/
def Dev.raiseMiss (d : Dev) (p : Nat) : Dev :=
  d.raiseCode p 3 0x0005 1 (d.msBind p) (d.reg p HDR.CHECK_RES) 0 0

/-- `MS_APPLIED` on a page: word 4 `MS_BIND` (R30). -/
def Dev.raiseApplied (d : Dev) (p : Nat) : Dev := d.raiseCode p 2 0x0004 0 (d.msBind p) 0 0 0

/-- Record a check result on a page (R60): result, violations on the page, first rule. -/
def Dev.setCheckRes (d : Dev) (p res cnt first : Nat) : Dev :=
  d.setReg p HDR.CHECK_RES (wd (res * 2 ^ 30 + Nat.min cnt 32 * 2 ^ 24 + first))

/-- Take the queued and running checks of slot `m` away (R51). -/
def Dev.dropChecks (d : Dev) (m : Nat) : Dev :=
  let run := match d.mst.running with
    | some j => if j.slot = m then none else some j
    | none => none
  let d1 := { d with mst := { d.mst with queue := d.mst.queue.filter (fun j => decide (j.slot ≠ m)), running := run } }
  if run = none then d1.setF chkPg HDR.BUSY 0 else d1

/-- Slot `m` goes to IDLE with nothing applied: its bindings are released, staged values and `STAGE_DIRTY` stay (R45). -/
def Dev.slotIdle (d : Dev) (m : Nat) : Dev :=
  let d1 := ((d.slotTo m .idle).unbindAll m).dropChecks m
  d1.setSlot m { d1.slot m with instant := none, cancel := false, job := none }

/-- A slot the supervisor may use now: a reserved slot that is not pending, or, with none reserved, the highest-numbered
IDLE slot (R49, R50). -/
def Dev.freeSvcSlot (d : Dev) : Option Nat :=
  let r := d.fld mstPg MST.SVC_SLOTS
  let cand := if r = 0 then List.range 16 else if r = 1 then [15] else if r = 2 then [14, 15] else [12, 13, 14, 15]
  cand.reverse.find? fun m =>
    if r = 0 then decide ((d.slot m).state = .idle) else !(d.slot m).state.pending

/-- Is the page at base `p` free to be bound? -/
def Dev.unbound (d : Dev) (p : Nat) : Bool := !(d.bind p).bound

/-- Pages the supervisor cannot bind yet: one is bound, or has a staged value waiting (R259, R293). -/
def Dev.pagesBusy (d : Dev) (pages : List Nat) : Bool :=
  pages.any fun p => !(d.unbound p) || decide (d.reg p HDR.STAGE_DIRTY ≠ 0)

/-- Bind pages to slot `m`. -/
def Dev.bindPages (d : Dev) (m : Nat) (pages : List Nat) : Dev :=
  let d1 := pages.foldl (fun e p => e.setBind p ⟨m, true, 0⟩) d
  let s := d1.slot m
  d1.setSlot m { s with scope := s.scope ++ pages.filter (fun p => !(s.scope.contains p)) }

/-- The supervisor opens, binds and checks slot `m` in one operation for a job with a known instant (R50, R173). -/
def Dev.svcArm (d : Dev) (m : Nat) (job : Job) (pages : List Nat) (instant : Nat) : Dev :=
  let d1 := d.setSlot m ⟨.checking, [], some instant, true, false, some job⟩
  let d2 := (d1.setF mstPg (MST.TYPE.at m) 1).setAtRegs m instant
  let d3 := d2.bindPages m pages
  { d3 with mst := { d3.mst with queue := d3.mst.queue ++ [⟨m, false, d3.now, some instant, none⟩] } }

/-- Take a slot for a job, or put the job among those that wait for one (R50). True when the slot was taken. -/
def Dev.svcTake (d : Dev) (job : Job) (pages : List Nat) (instant : Nat) : Dev × Bool :=
  match d.freeSvcSlot with
  | some m =>
    if pages.all (fun p => d.unbound p) then
      (({ d with mst := { d.mst with waiting := d.mst.waiting.filter (· ≠ job) } } : Dev).svcArm m job pages instant, true)
    else ({ d with mst := { d.mst with waiting := d.mst.waiting.filter (· ≠ job) ++ [job] } }, false)
  | none => ({ d with mst := { d.mst with waiting := d.mst.waiting.filter (· ≠ job) ++ [job] } }, false)

/-- Take a slot for a job when its pages are unbound and clean and a slot is free (R50, R174, R259). -/
def Dev.svcBind (d : Dev) (job : Job) (pages : List Nat) (instant : Nat) : Option Dev :=
  if d.pagesBusy pages = false then
    match d.freeSvcSlot with
    | some m =>
      let e : Dev := { d with mst := { d.mst with waiting := d.mst.waiting.filter (· ≠ job) } }
      some (e.svcArm m job pages instant)
    | none => none
  else none

/-- The job joins those that wait for a slot. -/
def Dev.svcWait (d : Dev) (job : Job) : Dev :=
  { d with mst := { d.mst with waiting := d.mst.waiting.filter (· ≠ job) ++ [job] } }

/-- The job no longer waits for a slot. -/
def Dev.unwait (d : Dev) (job : Job) : Dev :=
  { d with mst := { d.mst with waiting := d.mst.waiting.filter (· ≠ job) } }

/-- The slot the supervisor holds for a job. -/
def Dev.jobSlot (d : Dev) (job : Job) : Option Nat :=
  (List.range 16).find? fun m => decide ((d.slot m).job = some job) && (d.slot m).state.pending

/-- The handover that a slot was taken for ends; the slot goes on as *Slot transitions* states, and nothing follows. -/
def Dev.jobLeave (d : Dev) (job : Job) : Dev :=
  match d.jobSlot job with
  | some m => d.setSlot m { d.slot m with job := some .done }
  | none => d

/-- The supervisor cancels the slot it holds for a job (R45): an ARMED slot goes to IDLE, a CHECKING slot when its check
ends; nothing is applied. Handovers that wait for a slot hear of it when the command ends (R50). -/
def Dev.jobCancel (d : Dev) (job : Job) : Dev :=
  match d.jobSlot job with
  | some m =>
    if (d.slot m).state = .checking then d.setSlot m { d.slot m with job := some .done, cancel := true }
    else
      (d.count mstPg MST.MS_CANCEL_CNT).slotIdle m
  | none => d

end Sys2Proof.Machine
end

