-- ==== Sys2Proof/Machine/Health.lean ====
section
/-! DEFINITION. What follows from several blocks at once: `SVC_HEALTH` (R551) and the audio-ready report (R494). -/

namespace Sys2Proof.Machine

/-- How many of the first `n` numbers satisfy `p`. -/
def countIf (n : Nat) (p : Nat → Bool) : Nat := ((List.range n).filter p).length

/-- Some of the first `n` numbers satisfies `p`. -/
def anyIf (n : Nat) (p : Nat → Bool) : Bool := (List.range n).any p

/-- A path is unserved: a port in FAULT with cause NO_SLICE, or a column FAILED. -/
def Dev.pathUnserved (d : Dev) : Bool :=
  anyIf 144 (fun i => decide (d.st (pg .port i) = 5 ∧ d.fld (pg .port i) PORT.FAULT_CAUSE = 1)) ||
  anyIf 16 (fun r => anyIf 16 fun c => decide (d.fld (pg .treg r) (TREG.STATE.at c) = 2))

/-- Spares are in use: a slice SUSPECT or RETIRED, a spare column not free, a spare row in service, a retired lane, a
retired sector. -/
def Dev.sparesUsed (d : Dev) : Bool :=
  anyIf 16 (fun g => anyIf 10 fun s => decide (6 ≤ d.fld (pg .pgrp g) (PGRP.STATE.at s))) ||
  anyIf 16 (fun r => decide (d.fld (pg .treg r) TREG.SPARE_STATE ≠ 0)) ||
  anyIf 32 (fun b => decide (d.fld (pg .fmem b) FMEM.SPARE_USED ≠ 0)) ||
  anyIf 64 (fun l => d.flag (pg .lane l) LANE.RETIRE) ||
  decide (d.fld (pg .store 0) STORE.RETIRED ≠ 0)

/-- Recompute `SVC_HEALTH`; a change of `LEVEL` raises `HEALTH_CHANGE` (R551). -/
def Dev.refreshHealth (d : Dev) : Dev :=
  let p := pg .svc 0
  let grp := countIf 16 fun g => d.flag (pg .pgrp g) PGRP.NO_SPARE
  let treg := countIf 16 fun r => decide (d.fld (pg .treg r) TREG.SPARE_STATE ≠ 0)
  let fm := countIf 32 fun b => decide (64 < d.fld (pg .fmem b) FMEM.SPARE_USED + d.fld (pg .fmem b) FMEM.SPARE_BAD + 8)
  let pairs := countIf 4 fun k => !(d.flag (pg .clk 0) (CLK.STANDBY_OK.at k))
  let lanes := countIf 64 fun l => d.flag (pg .lane l) LANE.RETIRE
  let level :=
    if d.pathUnserved then 3
    else if 0 < grp + treg + pairs + fm then 2
    else if d.sparesUsed then 1 else 0
  let old := d.fld p SVC.LEVEL
  let d1 := d.setReg p SVC.SVC_HEALTH
    (wd (level * 2 ^ 30 + grp * 2 ^ 21 + treg * 2 ^ 16 + fm * 2 ^ 10 + pairs * 2 ^ 7 + lanes))
  if old = level then d1 else d1.raiseSev p SVC.E_HEALTH_CHANGE (if level = 3 then 2 else 1) 0 0 0 0

/-- Raise an event of the table *Repair matrix*: `SVC_HEALTH` follows. -/
def Dev.raiseH (d : Dev) (p : Nat) (e : Evt) (w4 : Word := 0) (w5 : Word := 0) (w6 : Word := 0) (w7 : Word := 0) : Dev :=
  (d.raise p e w4 w5 w6 w7).refreshHealth

/-- A firmware changeover runs: the supervisor starts no rotation handover, segment move or row repair (R545). -/
def Dev.fwActive (d : Dev) : Bool := d.flag (pg .srv 0) SRV.ACTIVE

/-- `AUDIO_READY` is set once, when the personality and the calibration are done, the first reference and tone checks of
every port die with valid rails have passed, and every enabled group is locked (R494, R169). -/
def Dev.audioReady (d : Dev) : Dev :=
  let p := pg .pwr 0
  let dieOk := fun i => !(d.flag (pg .pdie i) PDIE.VAP_OK && d.flag (pg .pdie i) PDIE.VAPL_OK) ||
    (d.flag (pg .pdie i) PDIE.REF_OK && d.flag (pg .pdie i) PDIE.TONE_OK)
  let grpOk := fun g => !(d.flag (pg .pgrp g) HDR.ENABLE) || d.flag (pg .pgrp g) PGRP.LOCKED
  if !(d.flag p PWR.AUDIO_READY) && d.pw.supRun && d.flag p PWR.PERS_DONE && d.flag p PWR.CAL_DONE &&
      (List.range 4).all dieOk && (List.range 16).all grpOk
  then (d.setFlag p PWR.AUDIO_READY true).raise p PWR.E_AUDIO_READY
  else d

end Sys2Proof.Machine
end

