-- ==== Sys2Proof/Machine/Slices.lean ====
section
/-! DEFINITION. Converter slices and port groups (chapters 3 and 6): the choice of a slice (R92), the lay-by and its
calibration (R165 to R169), SUSPECT and RETIRED (R184, R185), spares (R190), the end of a slice handover (R183, R192). -/

namespace Sys2Proof.Machine

/-! ### Accessors -/

/-- State of a port. -/
def Dev.port (d : Dev) (i : Nat) : PortSt := (Tab.get d.an.ports i).getD PortSt.init

/-- Store the state of a port. -/
def Dev.setPort (d : Dev) (i : Nat) (s : PortSt) : Dev :=
  { d with an := { d.an with ports := Tab.put d.an.ports i s PortSt.init } }

/-- State of slice `s` of group `g`. -/
def Dev.slice (d : Dev) (g s : Nat) : SliceSt := (Tab.get d.an.slices (g * 10 + s)).getD SliceSt.init

/-- Store the state of slice `s` of group `g`. -/
def Dev.setSlice (d : Dev) (g s : Nat) (v : SliceSt) : Dev :=
  { d with an := { d.an with slices := Tab.put d.an.slices (g * 10 + s) v SliceSt.init } }

/-- State of a group. -/
def Dev.group (d : Dev) (g : Nat) : GroupSt := (Tab.get d.an.groups g).getD GroupSt.init

/-- Store the state of a group. -/
def Dev.setGroup (d : Dev) (g : Nat) (v : GroupSt) : Dev :=
  { d with an := { d.an with groups := Tab.put d.an.groups g v GroupSt.init } }

/-- State of a port die. -/
def Dev.die (d : Dev) (k : Nat) : DieSt := (Tab.get d.an.dies k).getD DieSt.init

/-- Store the state of a port die. -/
def Dev.setDie (d : Dev) (k : Nat) (v : DieSt) : Dev :=
  { d with an := { d.an with dies := Tab.put d.an.dies k v DieSt.init } }

/-- `SLICE_MAP.STATE` of a slice. -/
def Dev.slState (d : Dev) (g s : Nat) : Nat := d.fld (pg .pgrp g) (PGRP.STATE.at s)

/-- Change the state of a slice and the port it serves. -/
def Dev.setSl (d : Dev) (g s st port : Nat) : Dev :=
  (d.setF (pg .pgrp g) (PGRP.STATE.at s) st).setF (pg .pgrp g) (PGRP.SLICE_MAP_PORT.at s) port

/-- `AGE` in 0.1 s units since the slice's last completed calibration for the live family; since reset where none has
completed. -/
def Dev.sliceAge (d : Dev) (g s : Nat) : Nat :=
  let v := d.slice g s
  let at_ := if d.fld (pg .pgrp g) PGRP.FAMILY = 0 then v.cal48 else v.cal44
  Nat.min 0xFFFFF ((d.mono - at_.getD 0) / 100000000)

/-- The group's page is in RUN with `ENABLE` = 1. -/
def Dev.grpOn (d : Dev) (g : Nat) : Bool :=
  d.flag (pg .pgrp g) HDR.ENABLE && decide (d.pwrState (pg .pgrp g) = 0)

/-! ### The choice of a slice (R92) -/

/-- When the slice's last calibration for the live family completed; 0 where none has, later instants larger. -/
def Dev.calKey (d : Dev) (g s : Nat) : Nat :=
  let v := d.slice g s
  match (if d.fld (pg .pgrp g) PGRP.FAMILY = 0 then v.cal48 else v.cal44) with
  | some t => t + 1
  | none => 0

/-- The slice in `SLICE_MAP` state `st` with the most recently completed calibration, the lowest number among equals. -/
def Dev.bestIn (d : Dev) (g st : Nat) : Option Nat :=
  (List.range 10).foldl (fun best s =>
    if d.slState g s = st then
      match best with
      | none => some s
      | some b => if d.calKey g b < d.calKey g s then some s else some b
    else best) none

/-- The slice a port takes: LAYBY_READY first, then LAYBY_CAL (R92). -/
def Dev.pickSlice (d : Dev) (g : Nat) : Option Nat :=
  match d.bestIn g 0 with
  | some s => some s
  | none => d.bestIn g 1

/-! ### Spares (R190) -/

/-- The group's counts of slices, and the loss or return of its spare. -/
def Dev.refreshGroup (d : Dev) (g : Nat) : Dev :=
  let p := pg .pgrp g
  let healthy := countIf 10 fun s => decide (d.slState g s ≠ 7)
  let layby := countIf 10 fun s => decide (d.slState g s = 0 ∨ d.slState g s = 1 ∨ d.slState g s = 6)
  let demand := (List.range 9).foldl (fun n i =>
    let q := pg .port (g * 9 + i)
    if d.st q = 0 then n
    else if d.fld q PORT.IN_MODE = 5 ∧ d.fld q PORT.DIR = 0 then n + 2 else n + 1) 0
  let d1 := ((d.setF p PGRP.HEALTHY healthy).setF p PGRP.LAYBY layby).setF p PGRP.DEMAND demand
  let none_ := !(anyIf 10 fun s => decide (d.slState g s ≤ 1))
  if none_ = d1.flag p PGRP.NO_SPARE then d1
  else
    let d2 := d1.setFlag p PGRP.NO_SPARE none_
    (d2.raise p (if none_ then PGRP.E_SPARE_LOST else PGRP.E_SPARE_BACK)).refreshHealth

/-! ### Calibration -/

/-- Duration of a calibration step in ns (table *Lay-by calibration steps*, R184). -/
def stepTime : Nat → Nat
  | 1 => 200000000 | 2 => 300000000 | 3 => 400000000 | 4 => 600000000 | 5 => 100000000 | 6 => 1600000000 | _ => 0

/-- Calibration may run on a slice of the group: the group runs and is locked and no reference hold stands. -/
def Dev.calMay (d : Dev) (g : Nat) : Bool :=
  d.grpOn g && d.flag (pg .pgrp g) PGRP.LOCKED && !(d.flag (pg .pgrp g) PGRP.REF_HOLD)

/-- A slice's step number changes; a running step ends after its duration, at power-up after a third of R168's 120 ms. -/
def Dev.calStep (d : Dev) (g s n : Nat) : Dev :=
  let t := if (d.slice g s).boot then 40000000 else stepTime n
  (d.setF (pg .pgrp g) (PGRP.STEP.at s) n).setSlice g s { d.slice g s with stepDue := d.mono + t }

/-- `PWR_STAT.CAL_DONE`: the power-up calibration of every slice is over. -/
def Dev.calsDone (d : Dev) : Dev :=
  let p := pg .pwr 0
  if d.pw.supRun && !(d.flag p PWR.CAL_DONE) && !(anyIf 4 fun k => (d.die k).calDue) &&
      !(anyIf 160 fun n => (d.slice (n / 10) (n % 10)).boot)
  then (d.setF p PWR.CAL_DONE 1).audioReady else d

/-- The slices of a die start the shortened procedure of power-up once the supervisor runs and the die has its supplies
(R168, R494). -/
def Dev.dieCalStart (d : Dev) (k : Nat) : Dev :=
  let p := pg .pdie k
  if d.pw.supRun && (d.die k).calDue && d.flag p PDIE.VAP_OK && d.flag p PDIE.VAPL_OK then
    let d1 := d.setDie k { d.die k with calDue := false }
    ((List.range 40).foldl (fun (e : Dev) n =>
      let g := k * 4 + n / 10
      let s := n % 10
      if e.slState g s ≤ 1 then ((e.setSl g s 1 15).setSlice g s { e.slice g s with boot := true }).calStep g s
        (if e.flag (pg .pgrp g) PGRP.REF_HOLD then 0 else 1) else e) d1).calsDone
  else d

/-- The supplies of a die fail during its power-up calibration: it starts again when they are back. -/
def Dev.dieCalLost (d : Dev) (k : Nat) : Dev :=
  (List.range 40).foldl (fun (e : Dev) n =>
    let g := k * 4 + n / 10
    let s := n % 10
    if (e.slice g s).boot then
      (((e.setSlice g s { e.slice g s with boot := false }).setSl g s 0 15).calStep g s 0).setDie k { e.die k with calDue := true }
    else e) d

/-- A lay-by slice starts its procedure at step 1 when it may run, and waits otherwise (R165). The procedure of power-up waits
for a reference hold alone (R168, R169). -/
def Dev.calStart (d : Dev) (g s : Nat) : Dev :=
  if (d.slice g s).boot then
    if d.flag (pg .pgrp g) PGRP.REF_HOLD then d.calStep g s 0
    else if d.fld (pg .pgrp g) (PGRP.STEP.at s) = 0 then d.calStep g s 1 else d
  else if d.slState g s = 1 ∨ d.slState g s = 6 then
    if d.calMay g then d.calStep g s 1 else d.calStep g s 0
  else d

/-- Every LAYBY_CAL and SUSPECT slice of a group starts again or waits. -/
def Dev.calRestart (d : Dev) (g : Nat) : Dev := (List.range 10).foldl (fun e s => e.calStart g s) d

/-- Word 4 of the slice notices: the global slice number. -/
def globalSlice (g s : Nat) : Word := wd (g * 10 + s)

/-- `SLICE_CAL` of a slice as it reads. -/
def Dev.sliceCalWord (d : Dev) (g s : Nat) : Word :=
  setBits (d.reg (pg .pgrp g) (PGRP.SLICE_CAL.at s)) 19 0 (d.sliceAge g s)

/-- The count of a slice rises, with the event of R184; the code names the step or detector. True when it is retired. -/
def Dev.suspectCount (d : Dev) (g s code : Nat) : Dev × Bool :=
  let p := pg .pgrp g
  let n := Nat.min 2 (d.fld p (PGRP.SUSPECTS.at s) + 1)
  let d1 := (d.setF p (PGRP.SUSPECTS.at s) n).count p PGRP.SUSPECT_CNT
  (d1.raiseH p (if n = 2 then PGRP.E_SLICE_RETIRED else PGRP.E_SLICE_SUSPECT) (globalSlice g s) (d1.sliceCalWord g s)
    (wd code), decide (n = 2))

/-- A slice leaves its place for SUSPECT, or for RETIRED when its count has reached 2. -/
def Dev.suspectPlace (d : Dev) (g s : Nat) : Dev :=
  let v := { d.slice g s with marked := false, ext := true, stale := false, boot := false }
  (if d.fld (pg .pgrp g) (PGRP.SUSPECTS.at s) = 2 then ((d.setSl g s 7 15).setSlice g s { v with ext := false }).calStep g s 0
   else ((d.setSl g s 6 15).setSlice g s v).calStart g s).calsDone

/-- A slice enters SUSPECT (R184). -/
def Dev.suspect (d : Dev) (g s code : Nat) : Dev := ((d.suspectCount g s code).1).suspectPlace g s

/-- A slice that fails a step of its extended procedure is retired (R184). -/
def Dev.retire (d : Dev) (g s code : Nat) : Dev :=
  let p := pg .pgrp g
  let d1 := ((d.setF p (PGRP.SUSPECTS.at s) 2).setSl g s 7 15).calStep g s 0
  (d1.setSlice g s { d1.slice g s with ext := false }).raiseH p PGRP.E_SLICE_RETIRED (globalSlice g s)
    (d1.sliceCalWord g s) (wd code)

/-- A slice returns to the lay-by as LAYBY_CAL, or to SUSPECT or RETIRED when it was marked while it served (R181). -/
def Dev.toLayby (d : Dev) (g s : Nat) : Dev :=
  let v := d.slice g s
  if v.marked then d.suspectPlace g s
  else ((d.setSl g s 1 15).setSlice g s { v with stale := false, ext := false }).calStart g s

/-- A slice returns to the lay-by as LAYBY_READY, unmarked. -/
def Dev.toReady (d : Dev) (g s : Nat) : Dev := (d.setSl g s 0 15).calStep g s 0

/-- A slice is connected to a port; a calibration under way is abandoned. -/
def Dev.connect (d : Dev) (g s st port : Nat) : Dev :=
  let d1 := (d.setSl g s st port).calStep g s 0
  (d1.setSlice g s { d1.slice g s with hist := [], fasts := [], boot := false }).calsDone

/-! ### The end of a slice handover -/

/-- Global number of the port's page and the slice for words 5 and 6 of notice 0x1301 (R192). -/
def hoWord (g port s : Nat) : Word := wd ((g * 9 + port) * 65536 + (g * 10 + s))

/-- Severity of a handover notice (R73). -/
def hoSev (outcome : Nat) : Nat := if outcome = 0 then 0 else if outcome = 4 ∨ outcome = 6 then 2 else 1

/-- Word 5 or 6 of notice 0x1301 for a slice that there is not: bits 7:0 all ones (as R186 marks a port that is not there). -/
def hoWordOf (g port : Nat) (s : Option Nat) : Word :=
  match s with
  | some n => hoWord g port n
  | none => wd ((g * 9 + port) * 65536 + 255)

/-- A handover notice of a group. -/
def Dev.hoNotice (d : Dev) (g port kind outcome old : Nat) (new : Option Nat) (measure : Nat) : Dev :=
  let p := pg .pgrp g
  let d1 := if outcome = 0 then d.count p PGRP.HO_DONE_CNT
    else if outcome = 6 then d.count p PGRP.REPAIR_CNT else d.count p PGRP.HO_ABORT_CNT
  (d1.raiseSev p PGRP.E_HO_END (hoSev outcome) (wd (kind * 2 ^ 28 + outcome * 2 ^ 24)) (hoWord g port old)
    (hoWordOf g port new) (wd measure)).refreshHealth

/-- The rotation registers show no handover; `HO_REQ.GO` clears. -/
def Dev.rotIdle (d : Dev) (g : Nat) : Dev :=
  let p := pg .pgrp g
  let d1 := ((((((d.setF p PGRP.PHASE 0).setF p PGRP.ROT_STAT_KIND 0).setF p PGRP.ROT_STAT_PORT 15).setF p PGRP.OLD 15).setF p
    PGRP.NEW 15).setF p PGRP.DEFERRED 0).setF p PGRP.GO 0
  d1.setGroup g { d1.group g with rot := none }

/-- `HO_END` word 7 of a planned handover (R192); zero when no comparison ran (R73). -/
def Rot.word7 (r : Rot) : Nat :=
  match r.measure with
  | none => 0
  | some m => if r.kind = 1 then m else Nat.min m 0x7FFF * 65536 + r.worst

/-- `CELL_STAT` of the port of a handover names one serving slice again. -/
def Dev.cellSlice (d : Dev) (i kind s : Nat) : Dev :=
  let q := pg .port i
  if d.fld q PORT.DIR = 0 ∧ d.fld q PORT.IN_MODE = 5 then
    (if kind = 1 then d.setF q PORT.SLICE_A s else d.setF q PORT.SLICE_B s)
  else (d.setF q PORT.SLICE_A s).setF q PORT.SLICE_B 15

/-- The state of a slice that serves a port: INPUT or OUTPUT. -/
def servState (kind : Nat) : Nat := if kind = 1 then 2 else 3

/-- The incoming slice of an output handover that has ended with outcome 0 is marked when a window of its crossfade lay above
the warning level; the port is rotated again next (R181). -/
def Dev.markNew (d : Dev) (g : Nat) (r : Rot) : Dev :=
  if r.ovr ∧ r.kind = 2 then
    let d1 := (d.suspectCount g r.new 9).1
    (d1.setSlice g r.new { d1.slice g r.new with marked := true }).setGroup g
      { d1.group g with urgent := some (r.port, r.new) }
  else d

/-- The planned handover of a group ends (R183). The slot the supervisor holds for it is cancelled when it has not been
applied. -/
def Dev.endRot (d : Dev) (g outcome code : Nat) : Dev :=
  match (d.group g).rot with
  | none => d
  | some r =>
    let i := g * 9 + r.port
    let d0 := d.jobCancel (.slice i r.kind false)
    let d1 :=
      if outcome = 0 then ((d0.setSl g r.new (servState r.kind) r.port).toLayby g r.old).cellSlice i r.kind r.new
      else
        let e := (d0.setSl g r.old (servState r.kind) r.port).cellSlice i r.kind r.old
        if outcome = 1 ∨ outcome = 4 then e.suspect g r.new code else e.toReady g r.new
    let d2 := (d1.setPort i { d1.port i with xf := none }).setF (pg .port i) PORT.XFADE 0
    let d3 := (d2.rotIdle g).hoNotice g r.port r.kind outcome r.old (some r.new) r.word7
    (if outcome = 0 then d3.markNew g r else d3).refreshGroup g

/-- Store a repair: one for each port and kind. -/
def Dev.setRep (d : Dev) (g : Nat) (r : Rep) : Dev :=
  d.setGroup g { d.group g with
    reps := (d.group g).reps.filter (fun x => decide (x.port ≠ r.port ∨ x.kind ≠ r.kind)) ++ [r] }

/-- A repair is over. -/
def Dev.dropRep (d : Dev) (g : Nat) (r : Rep) : Dev :=
  (d.setGroup g { d.group g with
    reps := (d.group g).reps.filter (fun x => decide (x.port ≠ r.port ∨ x.kind ≠ r.kind)) }).unwait (.slice (g * 9 + r.port) r.kind true)

/-- A repair ends because its port leaves SYNCING or LIVE: outcome 5, and the replacement returns to the lay-by as LAYBY_READY
(R94). The port still has no slice in that place: the repair starts again. -/
def Dev.endRep (d : Dev) (g : Nat) (r : Rep) : Dev :=
  if r.again then d
  else
    let i := g * 9 + r.port
    let d1 := (d.jobCancel (.slice i r.kind true)).unwait (.slice i r.kind true)
    let d2 := match r.new with
      | some n => d1.toReady g n
      | none => d1
    let d3 := ((d2.hoNotice g r.port r.kind 5 r.old r.new 0).cellSlice i r.kind 15).setRep g { r with new := none, again := true }
    (d3.setPort i { d3.port i with repHold := false }).refreshGroup g

/-- The planned handover of a port ends as the port leaves SYNCING or LIVE, or enters OFF (R94): before Switch outcome 5, later
outcome 0. -/
def Dev.rotPortLeaves (d : Dev) (i : Nat) : Dev :=
  let g := i / 9
  match (d.group g).rot with
  | some r => if r.port = i % 9 then d.endRot g (if 5 ≤ r.phase then 0 else 5) 0 else d
  | none => d

/-- A port leaves SYNCING or LIVE, or enters OFF, while handovers run on it (R94). -/
def Dev.hoPortLeaves (d : Dev) (i : Nat) : Dev :=
  let d1 := d.rotPortLeaves i
  ((d1.group (i / 9)).reps.filter fun r => decide (r.port = i % 9)).foldl (fun (e : Dev) r => e.endRep (i / 9) r) d1

/-- A port in OFF needs no slice: its repairs are over. -/
def Dev.dropReps (d : Dev) (i : Nat) : Dev :=
  ((d.group (i / 9)).reps.filter fun r => decide (r.port = i % 9)).foldl (fun (e : Dev) r => e.dropRep (i / 9) r) d

end Sys2Proof.Machine
end

