-- ==== Sys2Proof/Machine/Ports.lean ====
section
/-! DEFINITION. Port states (R97), the input stage and its monitor (R80 to R88), port dies and group clocks (R95 to R99,
R104, R133). -/

namespace Sys2Proof.Machine

/-! ### Where a port stands -/

/-- Page of port `i`. -/
def portPg (i : Nat) : Nat := pg .port i

/-- Page of the group of port `i`. -/
def grpPg (i : Nat) : Nat := pg .pgrp (i / 9)

/-- An input port in LOOP (R162). -/
def Dev.isLoop (d : Dev) (i : Nat) : Bool :=
  decide (d.fld (portPg i) PORT.DIR = 0 ∧ d.fld (portPg i) PORT.IN_MODE = 5)

/-- The output chain of the port runs: an output port, or a port in LOOP. -/
def Dev.drives (d : Dev) (i : Nat) : Bool := d.flag (portPg i) PORT.DIR || d.isLoop i

/-- The port's mode (R97). -/
def Dev.portMode (d : Dev) (i : Nat) : Nat :=
  if d.flag (portPg i) PORT.DIR then d.fld (portPg i) PORT.OUT_MODE else d.fld (portPg i) PORT.IN_MODE

/-- `ENABLE` = 1, mode not OFF, and the page in RUN. -/
def Dev.portWanted (d : Dev) (i : Nat) : Bool :=
  d.flag (portPg i) HDR.ENABLE && decide (d.portMode i ≠ 0) && decide (d.pwrState (portPg i) = 0)

/-- The port runs: SYNCING or LIVE. -/
def Dev.portRuns (d : Dev) (i : Nat) : Bool := decide (d.st (portPg i) = 2 ∨ d.st (portPg i) = 3)

/-- Base rate of the port's group. -/
def Dev.grpRate (d : Dev) (i : Nat) : Nat := baseRate (d.fld (grpPg i) PGRP.FAMILY)

/-- log2 of the capture rate over the base rate. -/
def Dev.capMult (d : Dev) (i : Nat) : Nat := presetMult (d.fld (portPg i) PORT.PRESET)

/-- log2 of the output rate over the base rate. -/
def Dev.outMult (d : Dev) (i : Nat) : Nat := presetMult (d.fld (portPg i) PORT.OUT_PRESET)

/-- Capture output rate in Hz (R106). -/
def Dev.capRate (d : Dev) (i : Nat) : Nat := d.grpRate i * 2 ^ d.capMult i

/-- Output sample rate in Hz (R135). -/
def Dev.outRate (d : Dev) (i : Nat) : Nat := d.grpRate i * 2 ^ d.outMult i

/-- log2 of the rate of a run over its base rate. -/
def CapRun.mult (r : CapRun) : Nat := presetMult r.preset

/-- Capture rate of a run in Hz (R106). -/
def CapRun.rate (r : CapRun) : Nat := r.base * 2 ^ r.mult

/-- Timestamp of word `n` of a run, shifted by `off` output periods (R122). -/
def CapRun.time (r : CapRun) (n : Nat) (off : Nat := 0) : Nat := edgeTime r.rate (r.k0 * 2 ^ r.mult + n + off)

/-- Index of the first word of a run whose timestamp is at or after `t`. -/
def CapRun.at_ (r : CapRun) (t : Nat) : Nat := edgeAt r.rate t - r.k0 * 2 ^ r.mult

/-- Output periods from a word's timestamp to its departure (R109). -/
def CapRun.lat (r : CapRun) : Nat := presetLat r.preset + r.firLat

/-- Fast-path values in one output period: HB6 runs at 8 times the base rate (R106, R116). -/
def CapRun.fastPer (r : CapRun) : Nat := 8 / 2 ^ r.mult

/-- The run of a port's grid. -/
def Dev.cap (d : Dev) (i : Nat) : CapRun := (d.port i).cap

/-- Store the run of a port's grid. -/
def Dev.setCap (d : Dev) (i : Nat) (r : CapRun) : Dev := d.setPort i { d.port i with cap := r }

/-- Timestamp of capture word `n` of the run, shifted by `off` output periods (R122). -/
def Dev.wordTime (d : Dev) (i n : Nat) (off : Nat := 0) : Nat := (d.cap i).time n off

/-- Index of the first capture word of the run whose timestamp is at or after `t`. -/
def Dev.wordAt (d : Dev) (i t : Nat) : Nat := (d.cap i).at_ t

/-- log2 of the output rate of the run over its base rate. -/
def Dev.runMult (d : Dev) (i : Nat) : Nat := presetMult (d.port i).outPreset

/-- Timestamp of output sample `n` of the run. -/
def Dev.sampTime (d : Dev) (i n : Nat) : Nat :=
  edgeTime ((d.cap i).base * 2 ^ d.runMult i) ((d.cap i).k0 * 2 ^ d.runMult i + n)

/-- Index of the first output sample of the run whose timestamp is at or after `t`. -/
def Dev.sampAt (d : Dev) (i t : Nat) : Nat :=
  edgeAt ((d.cap i).base * 2 ^ d.runMult i) t - (d.cap i).k0 * 2 ^ d.runMult i

/-- The base rate of the words that a group's inputs send: that of its family, and while the synthesiser is unlocked that of
its media clock generator (R99). -/
def Dev.gridRate (d : Dev) (g : Nat) : Nat :=
  let p := pg .pgrp g
  if d.flag p PGRP.LOCKED then baseRate (d.fld p PGRP.FAMILY) else d.mcgRate (d.fld p PGRP.MCG)

/-- A run that begins at base-rate edge `k0`. -/
def Dev.newRun (d : Dev) (i base k0 : Nat) : CapRun :=
  { CapRun.init with preset := d.fld (portPg i) PORT.PRESET, firLat := d.fld (portPg i) PORT.FIR_LAT, base := base, k0 := k0 }

/-- Capture latency and FIR delay in output samples (R109). -/
def Dev.latTot (d : Dev) (i : Nat) : Nat :=
  presetLat (d.fld (portPg i) PORT.PRESET) + d.fld (portPg i) PORT.FIR_LAT

/-! ### The output stage at a change of state (R142, R152) -/

/-- `OUT_STAT.GAIN` of a ramp gain: 0x8000 is 1.0. -/
def gainCode (g : Gain) : Nat :=
  if g.a = 0 then 0x8000 else if g.n ≤ g.a then 0 else if 2 * g.a = g.n then 0x4000 else (Config.rampGain g.a g.n).toNat

/-- A mute holds zero scale while the output sequence goes on behind it: the supply-fail mute (R154), a repair (R189). -/
def Dev.hidden (d : Dev) (i : Nat) : Bool := d.flag (portPg i) PORT.PF_MUTE || (d.port i).repHold

/-- `OUT_STAT.PHASE` and `GAIN` show the sequence, or the mute that hides it. -/
def Dev.showSeq (d : Dev) (i : Nat) : Dev :=
  let q := portPg i
  let s := d.port i
  if d.hidden i then (d.setF q PORT.PHASE 7).setF q PORT.GAIN 0
  else (d.setF q PORT.PHASE s.seq).setF q PORT.GAIN (gainCode s.gain)

/-- The output sequence moves; a mute hides its phase (R154). -/
def Dev.setSeq (d : Dev) (i seq : Nat) : Dev := (d.setPort i { d.port i with seq := seq }).showSeq i

/-- The ramp gain changes; a mute hides it (R154). -/
def Dev.setGain (d : Dev) (i : Nat) (g : Gain) : Dev := (d.setPort i { d.port i with gain := g }).showSeq i

/-- Comparison is suspended now (R157). -/
def Dev.suspend (d : Dev) (i : Nat) : Dev :=
  (d.setF (portPg i) PORT.SUSP 1).setPort i { d.port i with suspWin := true }

/-- The cause of a suspension ends; comparison resumes 1 ms later. -/
def Dev.suspendEnd (d : Dev) (i : Nat) : Dev :=
  (d.suspend i).setPort i { d.port i with suspTo := d.mono + 1000000, suspWin := true }

/-- The output stage takes the live mode and span at once. -/
def Dev.stageTakes (d : Dev) (i : Nat) : Dev :=
  let q := portPg i
  ((d.setF q PORT.MODE_USE (d.fld q PORT.OUT_MODE)).setF q PORT.SPAN_USE (d.fld q PORT.SPAN)).setPort i
    { d.port i with change := false }

/-- Zero gain with no ramp and no sequence. -/
def Dev.outQuiet (d : Dev) (i seq : Nat) : Dev :=
  let d1 := (d.setGain i Gain.zero).setSeq i seq
  d1.setPort i { d1.port i with stopRamp := none, stopOn := false, holdLeft := 0, rampN := 1, rampNew := false, spanSeq := false,
                                repRamp := false }

/-- The fast mute of R152, counted (R150). DEDUCED (log 147): a port that restarts has left its mute; comparison stays suspended
for the 1 ms that follows (R157). -/
def Dev.fastMute (d : Dev) (i : Nat) : Dev :=
  ((d.outQuiet i 7).suspendEnd i).count (portPg i) PORT.MUTE_CNT

/-- The rest clamp engages or opens; it can hold the pins only while VAP is valid (R142). -/
def Dev.clamp (d : Dev) (i : Nat) (on : Bool) : Dev :=
  d.setFlag (portPg i) PORT.CLAMP (on && d.flag (pg .pdie (i / 36)) PDIE.VAP_OK)

/-! ### Surveys -/

/-- The test current of a survey flows in SURVEY state alone (R85, R86). -/
def Dev.surveyTone (d : Dev) (i : Nat) (on : Bool) : Dev := d.send (.testTone i false on)

/-- A source-impedance survey ends early (R88). -/
def Dev.surveyAbort (d : Dev) (i : Nat) : Dev :=
  let q := portPg i
  if d.st q = 4 then
    ((((d.surveyTone i false).setReg q PORT.SURVEY_RES 0x50000000).setReg q PORT.SURVEY_X 0).setF q PORT.SURVEY_GO 0).raise q
      PORT.E_SURVEY_END
  else d

/-- A line survey ends early (R161). -/
def Dev.lsvAbort (d : Dev) (i : Nat) : Dev :=
  let q := portPg i
  if d.flag q PORT.LSV_GO then
    (((((d.send (.testTone i true false)).setReg q PORT.LSV_RES 0x50000000).setReg q PORT.LSV_LEN 0).setF q PORT.LSV_GO 0).setF q
      HDR.BUSY 0).raise q PORT.E_LSV_END
  else d

/-! ### Slices of a port -/

/-- A slice returns to the lay-by when it serves a port (R94); one that has failed is there already. -/
def Dev.releaseSlice (d : Dev) (g s : Nat) : Dev :=
  let st := d.slState g s
  if s < 10 ∧ (st = 2 ∨ st = 3 ∨ st = 5) then d.toLayby g s else d

/-- The slices of a port return to the lay-by (R94). -/
def Dev.releaseSlices (d : Dev) (i : Nat) : Dev :=
  let q := portPg i
  let d1 := (d.releaseSlice (i / 9) (d.fld q PORT.SLICE_A)).releaseSlice (i / 9) (d.fld q PORT.SLICE_B)
  (d1.setF q PORT.SLICE_A 15).setF q PORT.SLICE_B 15

/-- The port takes the slices it needs (R92); nothing when no eligible slice is free (R93). -/
def Dev.obtain (d : Dev) (i : Nat) : Option Dev :=
  let g := i / 9
  let q := portPg i
  let kind := if d.flag q PORT.DIR then 3 else 2
  match d.pickSlice g with
  | none => none
  | some a =>
    let d1 := (d.connect g a kind (i % 9)).setF q PORT.SLICE_A a
    if d.isLoop i then
      match d1.pickSlice g with
      | none => none
      | some b => some (((d1.connect g b 3 (i % 9)).setF q PORT.SLICE_B b))
    else some d1

/-! ### Port states -/

/-- The words of an input port go on with no synchronising reset of their own: FLUSH words in SURVEY, FAULT words in
FAULT (R97). -/
def Dev.gridGoesOn (d : Dev) (i : Nat) : Dev :=
  let s := d.port i
  if s.run then d.setPort i { s with pend := false }
  else
    let base := d.gridRate (i / 9)
    d.setPort i { s with run := true, pend := false, cap := d.newRun i base (edgeAt base d.now), xf := none, mark := none }

/-- The FAULT words of an input take the rate of the media clock generator while the synthesiser is unlocked, and that of the
family otherwise; the stream goes on without a break: the next word takes the first edge of the new rate at or after the
timestamp it would have had (R99). -/
def Dev.regrid (d : Dev) (i : Nat) : Dev :=
  let s := d.port i
  let base := d.gridRate (i / 9)
  if s.run ∧ d.st (portPg i) = 5 ∧ d.flag (portPg i) PORT.DIR = false ∧ s.cap.base ≠ base then
    let t := s.cap.time s.cap.idx
    let c := { s.cap with base := base, k0 := edgeBefore base t, rst := 0, faultTo := 0, switches := [], flags := [] }
    let c1 := { c with idx := c.at_ t }
    d.setCap i { c1 with fastN := (c1.idx + c1.lat - 1) * c1.fastPer - 1 }
  else d

/-- Every input of a group that stands in FAULT follows a change of its clock. -/
def Dev.regridGroup (d : Dev) (g : Nat) : Dev := (List.range 9).foldl (fun (e : Dev) k => e.regrid (g * 9 + k)) d

/-- The run of an input ends now; words timestamped before this instant still leave (R98). -/
def Dev.endRun (d : Dev) (i : Nat) (survey : Bool) : Dev :=
  let s := d.port i
  if s.run ∧ d.flag (portPg i) PORT.DIR = false then
    let c := { s.cap with survey := survey }
    d.setPort i { s with run := false, tail := if c.time c.idx < d.now then s.tail ++ [(c, d.now)] else s.tail }
  else d.setPort i { s with run := false }

/-- The port enters STOPPED: an output drives zero scale in the live mode and span (R142), an input has its network connected,
and the rest clamp holds the pins in LOOP alone (R77). -/
def Dev.enterStopped (d : Dev) (i : Nat) : Dev :=
  let q := portPg i
  let d1 := (d.setSt q 1).setF q PORT.NET (if d.flag q PORT.DIR then 0 else d.fld q PORT.IN_MODE)
  let d2 := d1.setPort i { d1.port i with pend := false, stopRamp := none, stopOn := false, srcNext := [], suspWin := true }
  if d.drives i then (((d2.stageTakes i).outQuiet i 0).suspend i).clamp i (d.isLoop i || d.flag q PORT.PF_MUTE)
  else d2.clamp i false

/-- `RUN` = 1, `LOCKED` = 1 and mode not SURVEY take a STOPPED port to SYNCING (R97). A hold that runs in STOPPED goes on
(R147). -/
def Dev.runCheck (d : Dev) (i : Nat) : Dev :=
  let q := portPg i
  if d.st q = 1 ∧ d.flag q PORT.RUN ∧ d.flag (grpPg i) PGRP.LOCKED ∧ !(!(d.flag q PORT.DIR) && d.fld q PORT.IN_MODE = 6) then
    let d1 := (d.lsvAbort i).setSt q 2
    let d2 := d1.setPort i { d1.port i with run := false, pend := true, entered := d1.now }
    if d.drives i then (if (d.port i).seq = 5 then d2 else d2.setSeq i 1) else d2
  else d

/-- Cause OUTPUT clears as soon as the rest clamp holds the pins (R152). -/
def Dev.clampClears (d : Dev) (i : Nat) : Dev :=
  let q := portPg i
  if d.st q = 5 ∧ d.fld q PORT.FAULT_CAUSE = 4 ∧ d.flag q PORT.CLAMP then d.setF q PORT.FAULT_CAUSE 0 else d

/-- A port enters FAULT: cause, `PORT_FAULT`, and for an output the fast mute (R97, R103, R125, R152). -/
def Dev.portFault (d : Dev) (i cause : Nat) : Dev :=
  let q := portPg i
  let st := d.st q
  if st = 5 then d
  else
    let d0 := if st = 0 then d else (((d.hoPortLeaves i).surveyAbort i).lsvAbort i)
    let d1 := if cause = 1 then d0.releaseSlices i else d0
    let d2 := ((d1.setSt q 5).setF q PORT.FAULT_CAUSE cause).count q PORT.FAULT_CNT
    let d3 := if d.drives i then (if st = 0 then d2 else d2.fastMute i).clamp i true
      else (d2.clamp i false).setF q PORT.NET (d.fld q PORT.IN_MODE)
    let d4 := d3.setPort i { d3.port i with pend := false, stopRamp := none, stopOn := false, srcNext := [], repHold := false,
                                            faultWas := cause, tail := if d.flag q PORT.RUN then (d3.port i).tail else [] }
    let d5 := if !(d.flag q PORT.DIR) ∧ d.flag q PORT.RUN then (d4.gridGoesOn i).regrid i else d4
    (d5.raise q PORT.E_PORT_FAULT 0 (wd st)).clampClears i

/-- `PORT_RECOVER`: word 5 holds the cause with which the port entered FAULT (R103). -/
def Dev.recoverNote (d : Dev) (i : Nat) : Dev :=
  d.raise (portPg i) PORT.E_PORT_RECOVER 0 (wd ((d.port i).faultWas * 2 ^ 28))

/-- The port enters OFF; its slices return (R94, R97). `ramped` tells that the output was ramped down before; otherwise an
output that leaves SYNCING or LIVE takes the fast mute (R150). -/
def Dev.portOff (d : Dev) (i : Nat) (ramped : Bool := false) : Dev :=
  let q := portPg i
  let st := d.st q
  if st = 0 then d
  else
    let d0 := (((d.hoPortLeaves i).dropReps i).surveyAbort i).lsvAbort i
    let d1 := if d.portRuns i && d.drives i && !ramped then d0.fastMute i else d0
    let d2 := ((d1.releaseSlices i).setSt q 0).setF q PORT.NET 0
    let d3 := ((d2.setF q PORT.FAULT_CAUSE 0).outQuiet i 0).clamp i true
    let d4 := d3.setPort i { d3.port i with run := false, pend := false, tail := [], xf := none, mark := none, srcNext := [],
                                            rx := [], repHold := false }
    let d5 := if st = 5 then d4.recoverNote i else d4
    (d5.stageTakes i).refreshGroup (i / 9)

/-- A droop detector or PFAIL_N holds the supply-fail mute (R153). -/
def Dev.pfStands (d : Dev) : Bool := d.flag (pg .pwr 0) PWR.PFAIL || anyIf 4 fun k => d.flag (pg .pdie k) PDIE.DROOP

/-- An output takes the supply-fail mute, with its notice; word 4 tells the causes (R153). A running sequence keeps its timing
behind it (R154). -/
def Dev.pfMute (d : Dev) (i : Nat) : Dev :=
  let q := portPg i
  let droop := anyIf 4 fun k => d.flag (pg .pdie k) PDIE.DROOP
  let w4 := wd (1 + (if droop then 2 else 0) + (if d.flag (pg .pwr 0) PWR.PFAIL then 4 else 0))
  if d.flag q PORT.DIR ∧ d.flag q PORT.PF_MUTE = false then
    (((((d.setF q PORT.PF_MUTE 1).showSeq i).suspend i).clamp i true).count q PORT.PF_MUTE_CNT).raise q PORT.E_PF_MUTE w4
      (nsWord d.now) (secWord d.now)
  else d

/-- A port that has become an output while the supplies fail is muted as the others (R153). -/
def Dev.pfCheck (d : Dev) (i : Nat) : Dev := if d.pfStands then d.pfMute i else d

/-- The mute of a supply failure or of a repair opens: the output returns through an unmute ramp; the ramp down or the hold of
a running sequence goes on, and a ramp up starts again from zero (R153, R154, R189). -/
def Dev.unhide (d : Dev) (i : Nat) : Dev :=
  let q := portPg i
  let d1 := d.showSeq i
  let s := d1.port i
  if d1.hidden i ∨ d1.st q ≠ 3 ∨ s.seq < 2 ∨ s.seq = 4 ∨ s.seq = 5 ∨ s.seq = 7 then d1
  else
    let f := (d1.setGain i Gain.zero).setSeq i (if s.seq = 6 then 6 else 2)
    f.setPort i { f.port i with rampN := (d1.fld q PORT.RAMP_TIME * d1.outRate i + 5000) / 10000, rampNew := true }

/-- `ENABLE` = 1 and a mode other than OFF take a port out of OFF (R92, R93, R97). -/
def Dev.portLeaveOff (d : Dev) (i : Nat) : Dev :=
  if d.st (portPg i) = 0 ∧ d.portWanted i then
    match d.obtain i with
    | some e => ((((e.stageTakes i).enterStopped i).pfCheck i).refreshGroup (i / 9)).runCheck i
    | none => (d.portFault i 1).refreshGroup (i / 9)
  else d

/-- The cause with which a port stands in FAULT no longer holds. -/
def Dev.causeGone (d : Dev) (i : Nat) : Bool :=
  match d.fld (portPg i) PORT.FAULT_CAUSE with
  | 1 => (d.obtain i).isSome
  | 2 => d.flag (grpPg i) PGRP.LOCKED
  | 3 => !(d.die (i / 36)).lost
  | 5 => !(d.die (i / 36)).hot
  | _ => true

/-- A port leaves FAULT on its own as its cause clears: an input with any cause, an output with cause NO_SLICE (R97). A
die-wide cause that still stands takes the place of the one that cleared. -/
def Dev.portRecover (d : Dev) (i : Nat) : Dev :=
  let q := portPg i
  let cause := d.fld q PORT.FAULT_CAUSE
  if d.st q = 5 ∧ d.causeGone i ∧ (d.flag q PORT.DIR = false ∨ cause = 1) then
    if (d.die (i / 36)).lost then d.setF q PORT.FAULT_CAUSE 3
    else if (d.die (i / 36)).hot then d.setF q PORT.FAULT_CAUSE 5
    else
      let d1 := if cause = 1 then (d.obtain i).getD d else d
      let d2a := ((d1.setF q PORT.FAULT_CAUSE 0).stageTakes i).enterStopped i
      let d2 := (if d2a.drives i then d2a.suspendEnd i else d2a).pfCheck i
      let d3 := d2.setPort i { d2.port i with run := false, tail := [] }
      ((d3.recoverNote i).refreshGroup (i / 9)).runCheck i
  else d

/-- Ports of a group that wait for a slice take one as soon as it is eligible (R93). -/
def Dev.groupSettle (d : Dev) (g : Nat) : Dev :=
  (List.range 9).foldl (fun e k =>
    let i := g * 9 + k
    if e.st (portPg i) = 5 ∧ e.fld (portPg i) PORT.FAULT_CAUSE = 1 then e.portRecover i else e) d

/-- `RUN` = 0 stops a SYNCING or LIVE port, and the words of one in SURVEY or FAULT (R97, R98, R126, R150). `ramped` tells that
the output was ramped down before. -/
def Dev.portStop (d : Dev) (i : Nat) (ramped : Bool) : Dev :=
  let q := portPg i
  if d.portRuns i then
    let d1 := d.hoPortLeaves i
    let d2 := if d.drives i ∧ !ramped then d1.fastMute i else d1
    (d2.endRun i false).enterStopped i
  else if d.st q = 4 then d.endRun i true
  else if d.st q = 5 then d.setPort i { d.port i with run := false, tail := [] }
  else d

/-! ### The survey of the source -/

/-- A survey is asked for: it starts, or is refused while external direct voltage is present (R85, R87). -/
def Dev.surveyStart (d : Dev) (i : Nat) : Dev :=
  let q := portPg i
  let d0 := if d.portRuns i then d.hoPortLeaves i else d
  if d.flag q PORT.DC_PRESENT then
    let d1 := if d.portRuns i then (d0.endRun i false).enterStopped i else d0.setF q PORT.NET 6
    (((d1.setReg q PORT.SURVEY_RES 0x40000000).setReg q PORT.SURVEY_X 0).setF q PORT.SURVEY_GO 0).raise q
      PORT.E_SURVEY_REFUSED
  else
    let d1 := ((d0.surveyTone i true).setSt q 4).setF q PORT.NET 6
    let d2 := d1.setPort i { d1.port i with due := d.mono + 120000000, pend := false }
    if d.flag q PORT.RUN then d2.gridGoesOn i else d2

/-- A survey leaves SURVEY: STOPPED, then SYNCING at once when the mode is no longer SURVEY and `RUN` = 1 (R97). -/
def Dev.surveyLeave (d : Dev) (i : Nat) : Dev :=
  let d1 := d.enterStopped i
  (d1.setPort i { d1.port i with run := false }).runCheck i

/-- `SURVEY_END`: the survey's result, in 0.1 Ω units; it is classified on the magnitude of the impedance (R85). DESIGN CHOICE
(log 148): `R` and `X` read 0 when the result is SHORT or OPEN. -/
def Dev.surveyEnd (d : Dev) (i : Nat) (r : Nat) (x : Int) : Dev :=
  let q := portPg i
  if d.st q = 4 then
    let d0 := (d.pass ((d.port i).due - d.mono)).surveyTone i false
    let mag2 : Int := (r : Int) * r + x * x
    let status := if mag2 < 400 then 3 else if 1000000000000 < mag2 then 2 else 1
    let d1 :=
      if status = 1 then
        (d0.setReg q PORT.SURVEY_RES (wd (2 ^ 28 + Nat.min r 1000000))).setReg q PORT.SURVEY_X (wd (scode 24 x))
      else (d0.setReg q PORT.SURVEY_RES (wd (status * 2 ^ 28))).setReg q PORT.SURVEY_X 0
    ((d1.setF q PORT.SURVEY_GO 0).raise q PORT.E_SURVEY_END).surveyLeave i
  else d

/-! ### The common-mode monitor (R83, R84) -/

/-- `EXT_DC` in 0.1 V units and `EXT_NEG` for a mean pin voltage in mV (R84). DESIGN CHOICE (log 148): with `SENSE_R` 0 there is
no estimate, and `EXT_NEG` reads 0 beside `EXT_DC`. -/
def extDc (senseR mv : Nat) : Nat × Bool :=
  if senseR = 0 then (0, false)
  else
    let dv : Int := (mv : Int) - 2500
    let v : Int := 2500 + dv * (5 * senseR + 1)
    (Nat.min 2047 ((v.natAbs + 50) / 100), decide (v < 0))

/-- `CM_UPDATE`: the monitor updates `CM_MV` and the estimate each 1 ms, in STOPPED, SYNCING, LIVE and FAULT of an
input. DESIGN CHOICE (log 148): the count towards `HOLD` is kept while the monitor pauses in OFF and SURVEY. -/
def Dev.cmUpdate (d : Dev) (i mv : Nat) : Dev :=
  let q := portPg i
  if d.flag q PORT.DIR = false ∧ d.st q ≠ 0 ∧ d.st q ≠ 4 then
    let e := extDc (d.fld q PORT.SENSE_R) mv
    let d1 := ((d.setF q PORT.CM_MV mv).setF q PORT.EXT_DC e.1).setFlag q PORT.EXT_NEG e.2
    let dev := Int.natAbs ((mv : Int) - 2500)
    let ovr := decide (10 * d.fld q PORT.THR < dev)
    let s := d1.port i
    d1.setPort i { s with cmRun := if ovr = d.flag q PORT.DC_PRESENT then none else some ((s.cmRun.map (· + 1)).getD 0) }
  else d

/-- `DC_PRESENT_CHANGE`: the deviation has been on the other side of the threshold for `HOLD` ms (R83). -/
def Dev.dcChange (d : Dev) (i : Nat) : Dev :=
  let q := portPg i
  match (d.port i).cmRun with
  | some n =>
    if d.fld q PORT.CM_CFG_HOLD ≤ n ∧ d.flag q PORT.DIR = false ∧ d.st q ≠ 0 ∧ d.st q ≠ 4 then
      let on := !(d.flag q PORT.DC_PRESENT)
      let d1 := ((d.setFlag q PORT.DC_PRESENT on).count q PORT.DC_CHG_CNT).setPort i { d.port i with cmRun := none }
      d1.raise q (if on then PORT.E_DC_ON else PORT.E_DC_OFF)
    else d
  | none => d

/-! ### Group clocks (R95, R97, R133) -/

/-- The synthesiser loses lock: its ports enter FAULT, and FAULT words follow the media clock generator (R97, R99). -/
def Dev.grpUnlock (d : Dev) (g : Nat) : Dev :=
  let p := pg .pgrp g
  if d.flag p PGRP.LOCKED then
    let d1 := ((d.setF p PGRP.LOCKED 0).count p PGRP.UNLOCK_CNT).raise p PGRP.E_CLK_UNLOCK
    let d2 := (List.range 9).foldl (fun e k =>
      let st := e.st (portPg (g * 9 + k))
      if 1 ≤ st ∧ st ≤ 4 then e.portFault (g * 9 + k) 2 else e) d1
    (d2.regridGroup g).calRestart g
  else d

/-- `GROUP_LOCK`: the synthesiser has locked: alignment, recoveries, waiting ports (R95, R97, R133, R494). -/
def Dev.grpLock (d : Dev) (g : Nat) : Dev :=
  let p := pg .pgrp g
  if d.grpOn g ∧ d.flag p PGRP.LOCKED = false ∧ d.mcgRuns (d.fld p PGRP.MCG) then
    let k := edgeAt (baseRate (d.fld p PGRP.FAMILY)) d.now
    let d1 := (d.setF p PGRP.LOCKED 1).raise p PGRP.E_CLK_LOCK
    let d2 := (d1.setReg p PGRP.CAP_ALIGN (wd k)).raise p PGRP.E_PHASE_ALIGN
    let d3 := (List.range 9).foldl (fun e j =>
      let i := g * 9 + j
      if e.st (portPg i) = 5 ∧ e.fld (portPg i) PORT.FAULT_CAUSE = 2 then e.portRecover i else e.runCheck i) d2
    (((d3.regridGroup g).calRestart g).setGroup g { d3.group g with dueAt := d.mono + d.fld p PGRP.ROT_PERIOD * 100000000 }).audioReady
  else d

/-! ### Port dies -/

/-- The ports of a die, in order. -/
def diePorts (k : Nat) : List Nat := (List.range 36).map (k * 36 + ·)

/-- Every output of every die takes the supply-fail mute (R153). -/
def Dev.pfMuteAll (d : Dev) : Dev := (List.range 144).foldl (fun e i => e.pfMute i) d

/-- `VAP_DROOP` of a die, with the VAP level in mV. -/
def Dev.vapDroop (d : Dev) (k mv : Nat) : Dev :=
  let p := pg .pdie k
  if d.flag p PDIE.DROOP then d
  else (((d.setF p PDIE.VAP_MV mv).setF p PDIE.DROOP 1).raise p PDIE.E_VAP_DROOP).pfMuteAll

/-- `PF_MUTE_RELEASE`: 10 ms after the droop detectors are inactive and PFAIL_N is high the outputs return through an
unmute ramp (R153). -/
def Dev.pfRelease (d : Dev) : Dev :=
  if d.flag (pg .pwr 0) PWR.PFAIL then d
  else
    let d0 := (List.range 4).foldl (fun e k => e.setF (pg .pdie k) PDIE.DROOP 0) d
    (List.range 144).foldl (fun e i =>
      let q := portPg i
      if e.flag q PORT.PF_MUTE then
        let e1 := ((e.setF q PORT.PF_MUTE 0).unhide i).suspendEnd i
        (e1.clamp i (decide (e1.st q = 0 ∨ e1.st q = 5))).raise q PORT.E_PF_MUTE 0 (nsWord d.now) (secWord d.now)
      else e) d0

/-- Supply levels of a die in mV: their registers and range flags. -/
def Dev.setSupply (d : Dev) (k vap vapl : Nat) : Dev :=
  let p := pg .pdie k
  ((d.setReg p PDIE.DIE_SUPPLY (wd (vapl * 65536 + vap))).setFlag p PDIE.VAP_OK (decide (4750 ≤ vap ∧ vap ≤ 5250))).setFlag p
    PDIE.VAPL_OK (decide (1710 ≤ vapl ∧ vapl ≤ 1890))

/-- The clamp of the ports of a die follows VAP: high impedance while it is not valid (R142). -/
def Dev.dieClamps (d : Dev) (k : Nat) : Dev :=
  if d.flag (pg .pdie k) PDIE.VAP_OK then
    (diePorts k).foldl (fun e i =>
      let st := e.st (portPg i)
      if st = 0 ∨ (st = 5 ∧ e.flag (portPg i) PORT.DIR) ∨ e.isLoop i ∨ e.flag (portPg i) PORT.PF_MUTE then
        (e.clamp i true).clampClears i
      else e) d
  else (diePorts k).foldl (fun e i => e.setF (portPg i) PORT.CLAMP 0) d

/-- `SUPPLY_LOST`: VAP or VAPL of a die leaves its range (R97). -/
def Dev.supplyLost (d : Dev) (k vap vapl : Nat) : Dev :=
  let p := pg .pdie k
  let was := d.flag p PDIE.VAP_OK && d.flag p PDIE.VAPL_OK
  let d1 := d.setSupply k vap vapl
  let d2 := if was ∧ !(d1.flag p PDIE.VAP_OK && d1.flag p PDIE.VAPL_OK) then
      let e := (d1.setDie k { d1.die k with lost := true }).raise p PDIE.E_SUPPLY_LOST
      ((diePorts k).foldl (fun e i =>
        let st := e.st (portPg i)
        if 1 ≤ st ∧ st ≤ 4 then e.portFault i 3 else e) e).dieCalLost k
    else d1
  d2.dieClamps k

/-- `SUPPLY_BACK`: both supplies of a die are in range again. -/
def Dev.supplyBack (d : Dev) (k vap vapl : Nat) : Dev :=
  let p := pg .pdie k
  let was := d.flag p PDIE.VAP_OK && d.flag p PDIE.VAPL_OK
  let d0 := d.setSupply k vap vapl
  let d1 := d0.dieClamps k
  if !was ∧ d0.flag p PDIE.VAP_OK ∧ d0.flag p PDIE.VAPL_OK then
    let d2 := (d1.setDie k { d1.die k with lost := false }).raise p PDIE.E_SUPPLY_BACK
    ((diePorts k).foldl (fun e i =>
      if e.st (portPg i) = 5 ∧ e.fld (portPg i) PORT.FAULT_CAUSE = 3 then e.portRecover i else e) d2).dieCalStart k
  else d1

/-- `TEMP_WARN`: the die temperature, in °C two's complement, reaches `WARN` (R104). -/
def Dev.tempWarn (d : Dev) (k t : Nat) : Dev :=
  let p := pg .pdie k
  let was := sext 8 (d.fld p PDIE.TEMP)
  let w := sext 8 (d.fld p PDIE.WARN)
  let d1 := d.setF p PDIE.TEMP t
  if was < w ∧ w ≤ sext 8 t then d1.raise p PDIE.E_TEMP_WARN else d1

/-- `TEMP_FAULT`: the die temperature reaches 115 °C (R104). -/
def Dev.tempFault (d : Dev) (k t : Nat) : Dev :=
  if sext 8 t < 115 ∨ (d.die k).hot then d
  else
    let p := pg .pdie k
    let d1 := ((d.setF p PDIE.TEMP t).setDie k { d.die k with hot := true }).raise p PDIE.E_TEMP_FAULT
    (diePorts k).foldl (fun e i =>
      let st := e.st (portPg i)
      if 1 ≤ st ∧ st ≤ 4 then e.portFault i 5 else e) d1

/-- `PORT_RECOVER`: the cause of a port's FAULT is looked at again, with the die temperature where one is measured; a
temperature below `WARN` clears cause TEMP for every port of the die (R97, R104). -/
def Dev.portRecoverCmd (d : Dev) (i : Nat) (temp : Option Nat) : Dev :=
  let k := i / 36
  let p := pg .pdie k
  match temp with
  | some t =>
    let d1 := d.setF p PDIE.TEMP t
    let d2 := if sext 8 t < sext 8 (d.fld p PDIE.WARN) then d1.setDie k { d1.die k with hot := false } else d1
    (diePorts k).foldl (fun e j =>
      if j = i ∨ e.fld (portPg j) PORT.FAULT_CAUSE = 5 then e.portRecover j else e) d2
  | none => d.portRecover i

/-- `REFIN_LOST` and `REFIN_FOUND`: signal at a reference input of a die, amplitude in mV (R324). -/
def Dev.refin (d : Dev) (k i mv : Nat) (found : Bool) : Dev :=
  let p := pg .pdie k
  let was := d.flag p (PDIE.PRESENT.at i)
  let now := found && decide (d.fld p (PDIE.KIND.at i) ≠ 0) && decide (100 < mv)
  let d1 := (d.setF p (PDIE.AMPL_MV.at i) mv).setFlag p (PDIE.PRESENT.at i) now
  if was = now then d1
  else d1.raise p (if now then PDIE.E_REFIN_FOUND else PDIE.E_REFIN_LOST) (wd i) (d1.reg p (PDIE.REFIN_STAT.at i))

end Sys2Proof.Machine
end

