-- ==== Sys2Proof/Machine/Capture.lean ====
section
/-! DEFINITION. The capture chain (chapter 4): the compensation filter and its bank swap, tags, clip and thresholds, the
sample word. -/

namespace Sys2Proof.Machine

/-! ### Words on flows -/

/-- The key under which words of a flow wait at a producer's endpoint. -/
def txKey (ep flow : Nat) : Nat := ep * 16384 + flow

/-- The words of a flow that wait at an endpoint, oldest first. -/
def Dev.txQueue (d : Dev) (ep flow : Nat) : List FlowWord := (Tab.get d.an.tx (txKey ep flow)).getD []

/-- Store the words of a flow that wait at an endpoint. -/
def Dev.setTxQueue (d : Dev) (ep flow : Nat) (q : List FlowWord) : Dev :=
  { d with an := { d.an with tx := Tab.put d.an.tx (txKey ep flow) q [] } }

/-- A producer hands a word to the causeway; it waits at the endpoint until it is sent (R274). -/
def Dev.pushFlow (d : Dev) (ep : Nat) (w : FlowWord) : Dev := d.setTxQueue ep w.flow (d.txQueue ep w.flow ++ [w])

/-- The endpoint code of the die bridge of port `i` (R271). -/
def bridgeEp (i : Nat) : Nat := 0x8000 + i / 36

/-! ### The compensation filter (R107, R111 to R115) -/

/-- A coefficient as its 24-bit code: unity at tap 0 and zero elsewhere after reset. -/
def Dev.coefCode (d : Dev) (i bank k : Nat) : Word :=
  (Tab.get d.an.coef (i * 128 + bank * 64 + k)).getD (if k = 0 then 0x400000 else 0)

/-- A write lands in the inactive bank (R111). -/
def Dev.coefWrite (d : Dev) (i k : Nat) (v : Word) : Dev :=
  let bank := 1 - d.fld (portPg i) PORT.BANK_IN_USE
  { d with an := { d.an with coef := Tab.put d.an.coef (i * 128 + bank * 64 + k) (v &&& 0xFFFFFF)
                                       (if k = 0 then 0x400000 else 0) } }

/-- y[n] = Σ c_k × x[n − k], in 2^-31 LSB. -/
def Dev.firSum (d : Dev) (i : Nat) (hist : List Int) : Int :=
  let bank := d.fld (portPg i) PORT.BANK_IN_USE
  ((List.range 64).zip hist).foldl (fun acc e => acc + sext 24 (d.coefCode i bank e.1).toNat * e.2) 0

/-- The final narrowing: truncation toward minus infinity, then saturation, which sets the clip flag (R107, R115). -/
def narrow24 (num : Int) (den : Nat) : Int × Bool :=
  let v := num / (den : Int)
  (clampInt (-8388608) 8388607 v, decide (v < -8388608 ∨ 8388607 < v))

/-! ### Bank swaps -/

/-- Word `n` falls inside the running crossfade. -/
def Dev.inXfade (d : Dev) (i n : Nat) : Bool :=
  match (d.port i).xf with
  | some (s, l) => decide (s ≤ n ∧ n < s + l)
  | none => false

/-- A swap is asked for and has not taken effect. -/
def Dev.swapWanted (d : Dev) (i : Nat) : Bool :=
  decide (d.fld (portPg i) PORT.ACT_BANK ≠ d.fld (portPg i) PORT.BANK_IN_USE)

/-- The swap takes effect on the word with timestamp `t` (R112). -/
def Dev.swapTakes (d : Dev) (i t : Nat) : Dev :=
  let q := portPg i
  let d1 := (((d.setF q PORT.BANK_IN_USE (d.fld q PORT.ACT_BANK)).setF q PORT.SWAP_PENDING 0).setReg q PORT.SWAP_TS_NS
    (nsWord t)).setReg q PORT.SWAP_TS_SEC_LO (secWord t)
  (d1.count q PORT.SWAP_CNT).raise q PORT.E_SWAP_DONE

/-- The swap is deferred from word `n` to the end of the crossfade (R113). -/
def Dev.swapDefer (d : Dev) (i n : Nat) : Dev :=
  let q := portPg i
  if d.flag q PORT.SWAP_PENDING then d
  else (d.setF q PORT.SWAP_PENDING 1).raiseAt q PORT.E_SWAP_DEFERRED (d.wordTime i n)

/-- `FORCE` takes the crossfade to its end state, and the swap, on the next word computed (R114). -/
def Dev.forceXfade (d : Dev) (i : Nat) : Dev :=
  let q := portPg i
  if d.flag q PORT.FORCE ∧ d.flag q PORT.SWAP_PENDING then
    ((d.setPort i { d.port i with xf := none, swapAt := 0 }).setF q PORT.XFADE 0).setF q PORT.FORCE 0
  else d

/-- The bank with which word `n`, with timestamp `t`, is computed. -/
def Dev.swapAtWord (d : Dev) (i n t : Nat) : Dev :=
  let d1 := d.forceXfade i
  if d1.swapWanted i ∧ (d1.port i).swapAt ≤ t then
    if d1.inXfade i n then d1.swapDefer i n else d1.swapTakes i t
  else d1

/-- A change of `ACT_BANK` becomes live: at once, or with the instant of its milestone (R112, R113). A change back withdraws
a deferred swap, and `FORCE` with it. -/
def Dev.bankRequest (d : Dev) (i : Nat) (instant : Option Nat) : Dev :=
  let q := portPg i
  if d.swapWanted i then
    let d1 := d.setPort i { d.port i with swapAt := instant.getD 0 }
    let s := d1.port i
    let n := Nat.max s.cap.idx (match instant with | some t => d1.wordAt i t | none => 0)
    if s.run ∧ d1.inXfade i n then d1.swapDefer i n else d1
  else (d.setF q PORT.SWAP_PENDING 0).setF q PORT.FORCE 0

/-- `SWAP_DONE`: the next word is the first computed with the new bank. -/
def Dev.swapDone (d : Dev) (i : Nat) : Dev :=
  let n := (d.cap i).idx
  if (d.port i).run ∧ d.swapWanted i then d.swapAtWord i n (d.wordTime i n) else d

/-! ### Register values by timestamp (R63) -/

/-- A register of the capture chain as it holds for a word with timestamp `t`: a word before the instant of a milestone keeps
the old value. -/
def Dev.capWord (d : Dev) (i off t : Nat) : Word :=
  match (d.port i).capOld.find? (fun e => decide (e.1 = off ∧ t < e.2.1)) with
  | some e => e.2.2
  | none => d.raw (portPg i + off)

/-- A field as it holds for a word with timestamp `t`. -/
def Dev.capFld (d : Dev) (i t : Nat) (f : Fld) : Nat := fieldOf f (d.capWord i f.off t)

/-- A register of the capture chain changes with a milestone while words are in the chain: words before the instant keep the
old value. -/
def Dev.capKeep (d : Dev) (i off : Nat) (instant : Option Nat) (old : Word) : Dev :=
  let s := d.port i
  match instant with
  | some t => if s.run || !s.tail.isEmpty then d.setPort i { s with capOld := s.capOld ++ [(off, t, old)] } else d
  | none => d.setPort i { s with capOld := s.capOld.filter fun e => decide (e.1 ≠ off) }

/-! ### Tags (R119 to R126) -/

/-- Tag of word `n` of a run before `FINE_ONLY` is applied. -/
def Dev.tagIn (d : Dev) (i : Nat) (r : CapRun) (n : Nat) : WordTag :=
  let j := n - r.rst
  let t := r.time n
  let coarse := r.switches.any fun ts => decide (n < r.at_ ts + presetLat r.preset + 63)
  if d.st (portPg i) = 5 ∨ n < r.faultTo ∨ n < r.rst then .fault
  else if d.st (portPg i) = 4 ∨ r.survey ∨ j < presetFlush r.preset then .flush
  else if r.switches.any fun ts => decide (ts ≤ t ∧ t < ts + 3000) then .flush
  else if j < presetW r.preset ∨ coarse then .coarse else .fine

/-- Tag of word `n` of a run (R120). -/
def Dev.wordTag (d : Dev) (i : Nat) (r : CapRun) (n : Nat) : WordTag :=
  if d.tagIn i r n = .coarse ∧ d.capFld i (r.time n) PORT.FINE_ONLY = 1 then .flush else d.tagIn i r n

/-- FINE and COARSE words carry samples. -/
def liveTag (t : WordTag) : Bool := decide (t = .fine) || decide (t = .coarse)

/-- `CAP_STAT.TAG` (R118). -/
def tagCode : WordTag → Nat
  | .fine => 0 | .coarse => 1 | .flush => 2 | .fault => 3

/-! ### Threshold detectors (R127 to R130) -/

/-- Largest `n` of at most `k` more bits above `n` with (2n − 1)^200 × 10^level ≤ 2^4800. -/
def thrSearch (level : Nat) : Nat → Nat → Nat
  | 0, n => n
  | k + 1, n =>
    let m := n + 2 ^ k
    if (2 * m - 1) ^ 200 * 10 ^ level ≤ 2 ^ 4800 then thrSearch level k m else thrSearch level k n

/-- round(2^23 × 10^(−level/200)): the release threshold (R128). -/
def thrRelease (level : Nat) : Nat := thrSearch level 24 0

/-- The attack threshold: as the release threshold, capped at 8,388,607 (R128). -/
def thrLevel (level : Nat) : Nat := Nat.min 8388607 (thrRelease level)

/-- `THR_STAT` field of detector `k`. -/
def thrStat (k : Nat) : Fld := if k = 0 then PORT.A_ABOVE else PORT.B_ABOVE

/-- Below-release periods of detector `k`. -/
def PortSt.low (s : PortSt) (k : Nat) : Nat := if k = 0 then s.lowA else s.lowB

/-- Store the below-release periods of detector `k`. -/
def PortSt.setLow (s : PortSt) (k n : Nat) : PortSt := if k = 0 then { s with lowA := n } else { s with lowB := n }

/-- A detector falls: BELOW and FALL, for the word with timestamp `t` (R128). -/
def Dev.detFall (d : Dev) (i k t : Nat) : Dev :=
  let q := portPg i
  let d1 := (d.setF q (thrStat k) 0).setPort i ((d.port i).setLow k 0)
  d1.raiseAt q (if k = 0 then PORT.E_THR_A_FALL else PORT.E_THR_B_FALL) t

/-- A detector rises: ABOVE, its counter, RISE. -/
def Dev.detRise (d : Dev) (i k t : Nat) : Dev :=
  let q := portPg i
  let d1 := ((d.setF q (thrStat k) 1).setPort i ((d.port i).setLow k 0)).count q
    (if k = 0 then PORT.THR_A_CNT else PORT.THR_B_CNT)
  d1.raiseAt q (if k = 0 then PORT.E_THR_A_RISE else PORT.E_THR_B_RISE) t

/-- One evaluation of detector `k` for the word with timestamp `t`: a magnitude, or none for a FLUSH or FAULT word, which counts
as a value below the release level. `p` is the period under way, and `last` tells that this evaluation ends it (R128). -/
def Dev.detEval (d : Dev) (i k t : Nat) (x : Option Nat) (p : DetPer) (last : Bool) : Dev × DetPer :=
  let level := d.capFld i t (PORT.LEVEL.at k)
  let hold := d.capFld i t (PORT.THR_HOLD_HOLD.at k)
  let low : Bool := match x with
    | some v => decide (v < thrRelease (level + d.capFld i t (PORT.HYST.at k)))
    | none => true
  let above := fun (e : Dev) => e.flag (portPg i) (thrStat k)
  let d1 :=
    if above d then (if low ∧ hold = 0 then d.detFall i k t else d)
    else
      match x with
      | some v => if thrLevel level ≤ v then d.detRise i k t else d
      | none => d
  let p1 : DetPer := ⟨p.ever || above d1, p.low && low⟩
  if last ∧ above d1 then
    if p1.low then
      let n := (d1.port i).low k + 1
      (if hold ≤ n then d1.detFall i k t else d1.setPort i ((d1.port i).setLow k n), p1)
    else (d1.setPort i ((d1.port i).setLow k 0), p1)
  else (d1, p1)

/-- Detector `k` at the assembly of the word with timestamp `t`: its flag for the word (R127, R129). With `PATH` = 1 the word
takes the flag of its period, evaluated before; a detector that is off stands BELOW (R130). -/
def Dev.detPeriod (d : Dev) (i k t : Nat) (sample : Option Nat) (fast : Bool) : Dev × Bool :=
  if d.capFld i t (PORT.EN.at k) = 0 then
    ((d.setF (portPg i) (thrStat k) 0).setPort i ((d.port i).setLow k 0), false)
  else if d.capFld i t (PORT.PATH.at k) = 1 then (d, fast)
  else
    let e := (d.detEval i k t sample ⟨false, true⟩ true).1
    (e, e.flag (portPg i) (thrStat k))

/-- `THR_FALL`: the last period of a detector's hold ends below the release level. -/
def Dev.thrFall (d : Dev) (i k : Nat) : Dev :=
  let q := portPg i
  if d.flag q (PORT.EN.at k) ∧ d.flag q (thrStat k) ∧ d.fld q (PORT.THR_HOLD_HOLD.at k) ≤ (d.port i).low k + 1 then
    d.detFall i k (d.wordTime i (d.cap i).idx)
  else d

/-- A region's gate-line drives count: it is released and, in a handover, owns them (R404). -/
def Dev.gateOwner (d : Dev) (n st : Nat) : Bool :=
  match d.ld.ho with
  | some h =>
    if h.switched && (h.pairs.any fun x => decide (x.2 = n)) then true
    else decide (st = 3) && !(h.switched && h.pairs.any fun x => decide (x.1 = n))
  | none => decide (st = 3)

/-- A region (32 K0, 33 K1) drives gate line `line`: its isolation is released, it is in RUN or DOZE, and `GATE_DRV` names
the line (R365). -/
def Dev.gateDriven (d : Dev) (n line : Nat) : Bool :=
  let p := if n < 32 then pg .freg n else pg .keep (n - 32)
  let w := if line < 224 then d.reg p FREG.GATE_DRV_LO else d.reg p FREG.GATE_DRV_HI
  decide (192 ≤ line) && d.gateOwner n (d.fld p FREG.STATE) && decide (d.pwrState p ≤ 1) && bitAt w (line % 32) &&
    Config.gateNet n line d.mono

/-- A gate line: the OR of the detectors that name it and of the regions that drive it (R129, R365). -/
def Dev.gateLine (d : Dev) (line : Nat) : Bool :=
  (anyIf 144 fun i => anyIf 2 fun k =>
    let q := portPg i
    d.flag q (PORT.EN.at k) && d.flag q (PORT.GATE_EN.at k) && decide (d.fld q (PORT.GATE_LINE.at k) = line) &&
      d.flag q (thrStat k)) || anyIf 34 fun n => d.gateDriven n line

/-- Changes of a detector's registers: `EN` = 0 takes it to BELOW without FALL; a shortened hold that has run out
releases at once (R130). -/
def Dev.thrWrite (d : Dev) (i k : Nat) : Dev :=
  let q := portPg i
  if d.flag q (PORT.EN.at k) = false then (d.setF q (thrStat k) 0).setPort i ((d.port i).setLow k 0)
  else if d.flag q (thrStat k) ∧ 0 < (d.port i).low k ∧ d.fld q (PORT.THR_HOLD_HOLD.at k) ≤ (d.port i).low k then
    d.detFall i k (d.wordTime i (d.cap i).idx)
  else d

/-! ### The synchronising reset (R122, R136) -/

/-- `SYNC_RESET`: T0 is the first base-rate edge at or after the port's entry into SYNCING. Words of an ended run that are still
in the chain leave before those of the new run. -/
def Dev.syncReset (d : Dev) (i : Nat) : Dev :=
  let q := portPg i
  if d.st q = 2 ∧ (d.port i).pend then
    let r := d.grpRate i
    let k := edgeAt r (d.port i).entered
    let t := edgeTime r k
    let d1 := d.reach t
    let d2 := d1.setPort i { d1.port i with
      run := true, pend := false, cap := d1.newRun i r k, outPreset := d.fld q PORT.OUT_PRESET,
      oidx := presetLat (d.fld q PORT.OUT_PRESET), xf := none, mark := none,
      src := (d.fld q PORT.SRC_FLOW, d.fld q PORT.SRC_CH), srcNext := [] }
    if d.flag q PORT.DIR then d2
    else
      (((d2.setReg q PORT.CAP_T0_NS (nsWord t)).setReg q PORT.CAP_T0_SEC_LO (secWord t)).setReg q PORT.CAP_T0_SEC_HI
        (wd (t / 1000000000 / 2 ^ 32 % 65536))).setReg q PORT.WORD_CNT 0
  else d

/-! ### The sample word -/

/-- The run whose words leave the die bridge now, and whether it is one that has ended (R98). -/
def Dev.emitRun (d : Dev) (i : Nat) : Option (CapRun × Option Nat) :=
  let q := portPg i
  let s := d.port i
  let st := d.st q
  match s.tail with
  | (r, stop) :: _ => some (r, some stop)
  | [] =>
    if !(d.flag q PORT.DIR) && s.run && (decide (st = 2 ∨ st = 3) || (decide (st = 4 ∨ st = 5) && d.flag q PORT.RUN)) then
      some (s.cap, none)
    else none

/-- Words leave the die bridge of the port. -/
def Dev.emits (d : Dev) (i : Nat) : Bool := (d.emitRun i).isSome

/-- The run that sends words is stored: an ended run is gone with its last word. -/
def Dev.setEmit (d : Dev) (i : Nat) (r : CapRun) (stop : Option Nat) : Dev :=
  let s := d.port i
  match stop with
  | some t => d.setPort i { s with tail := if r.time r.idx < t then (r, t) :: s.tail.tail else s.tail.tail }
  | none => d.setCap i r

/-- The phase of a running planned handover before Arm follows the port's grid: Prepare to `start`, Overlap to the
comparison window, then Compare (R176, R180). -/
def Dev.rotFollow (d : Dev) (i n window : Nat) : Dev :=
  let g := i / 9
  match (d.group g).rot with
  | some r =>
    if r.port = i % 9 ∧ r.phase ≤ 3 ∧ !r.stopped then
      let ph := if n < r.start then 1 else if n < r.start + window then 2 else 3
      (d.setGroup g { d.group g with rot := some { r with phase := ph } }).setF (pg .pgrp g) PGRP.PHASE ph
    else d
  | none => d

/-- The gain of a gliding amplifier moves one step per output sample (R80). -/
def Dev.pgaStep (d : Dev) (i : Nat) : Dev :=
  let s := d.port i
  let want := d.fld (portPg i) PORT.PGA
  if s.pga = want then d
  else if d.flag (portPg i) PORT.GLIDE then d.setPort i { s with pga := if s.pga < want then s.pga + 1 else s.pga - 1 }
  else d.setPort i { s with pga := want }

/-- Push a filter input onto a slice's history. -/
def Dev.pushHist (d : Dev) (g s : Nat) (x : Int) : Dev :=
  let v := d.slice g s
  d.setSlice g s { v with hist := (x :: v.hist).take 64 }

/-- Push fast-path values, oldest first, onto a slice's history. -/
def Dev.pushFasts (d : Dev) (g s : Nat) (xs : List Int) : Dev :=
  let v := d.slice g s
  d.setSlice g s { v with fasts := (xs.reverse ++ v.fasts).take 1024 }

/-- The magnitude of a 24-bit value (R127). -/
def mag24 (v : Int) : Nat := Nat.min v.natAbs 8388608

/-- The input handover under way on a port. -/
def Dev.inRot (d : Dev) (i : Nat) : Option Rot :=
  match (d.group (i / 9)).rot with
  | some r => if r.port = i % 9 ∧ r.kind = 1 then some r else none
  | none => none

/-- The repair of a port and kind. -/
def Dev.repOf (d : Dev) (i kind : Nat) : Option Rep :=
  (d.group (i / 9)).reps.find? fun r => decide (r.port = i % 9 ∧ r.kind = kind)

/-- The slice whose words a port takes, outgoing in a handover, the replacement in a repair. -/
def Dev.servSlice (d : Dev) (i : Nat) : Nat :=
  match d.inRot i with
  | some r => r.old
  | none =>
    match d.repOf i 1 with
    | some r => r.new.getD 15
    | none => d.fld (portPg i) PORT.SLICE_A

/-- The incoming slice's weight in word `n`, as numerator and denominator (R178). -/
def Dev.mixOf (d : Dev) (i n : Nat) : Nat × Nat :=
  let after := match d.inRot i with | some r => decide (5 ≤ r.phase ∧ r.instant ≤ n) | none => false
  match (d.port i).xf with
  | some (x0, l) => if x0 ≤ n ∧ n < x0 + l then (n - x0 + 1, l) else if after then (1, 1) else (0, 1)
  | none => if after then (1, 1) else (0, 1)

/-- What the slices give for a word reaches the histories of the serving and of the incoming slice: `m` fast-path values are
due; those that are not given read 0. -/
def Dev.takeInputs (d : Dev) (i m : Nat) (a : SliceWord) (b : Option SliceWord) : Dev :=
  let g := i / 9
  let sa := d.servSlice i
  let due := fun (w : SliceWord) => (List.range m).map fun k => w.fasts.getD k 0
  let d1 := if sa < 10 then (d.pushHist g sa a.hb).pushFasts g sa (due a) else d
  match d.inRot i, b with
  | some r, some w => (d1.pushHist g r.new w.hb).pushFasts g r.new (due w)
  | _, _ => d1

/-- Two values mixed with the incoming weight `m`. -/
def mixVal (m : Nat × Nat) (a b : Int) : Int := a * ((m.2 - m.1 : Nat) : Int) + b * (m.1 : Int)

/-- The fine value of word `n` and whether it saturated. -/
def Dev.fineVal (d : Dev) (i n : Nat) : Int × Bool :=
  let g := i / 9
  let ya := d.firSum i (d.slice g (d.servSlice i)).hist
  let yb := match d.inRot i with | some r => d.firSum i (d.slice g r.new).hist | none => ya
  let m := d.mixOf i n
  narrow24 (mixVal m ya yb) (m.2 * 2 ^ 31)

/-- The fast-path value `k` places before a slice's newest. -/
def Dev.fastOf (d : Dev) (g s k : Nat) : Int := ((d.slice g s).fasts.getD k 0)

/-- The fast value of word `n` of a run: that whose timestamp equals the word's (R116). -/
def Dev.fastVal (d : Dev) (i : Nat) (r : CapRun) (n : Nat) : Int :=
  let g := i / 9
  let k := r.fastN - 1 - n * r.fastPer
  let a := d.fastOf g (d.servSlice i) k
  let b := match d.inRot i with | some x => d.fastOf g x.new k | none => a
  let m := d.mixOf i n
  clampInt (-8388608) 8388607 (mixVal m a b / (m.2 : Int))

/-- The quantiser holds an extreme level for 4 consecutive cycles (R121); `lo` and `hi` count the cycles held so far. -/
def overloaded (lo hi : Nat) : List (Fin 32) → Bool
  | [] => false
  | c :: t =>
    let lo1 := if c.val = 0 then lo + 1 else 0
    let hi1 := if c.val = 31 then hi + 1 else 0
    decide (4 ≤ lo1 ∨ 4 ≤ hi1) || overloaded lo1 hi1 t

/-- The fast-path values that have become valid since the last word are evaluated, 3 µs after their timestamps (R127): value
`j` of a run, its detectors with `PATH` = 1, and the flags of the period it ends. DESIGN CHOICE (log 149): in the crossfade of
a handover the outgoing slice's values count until the incoming weight is 1. -/
def Dev.fastStep (i : Nat) (stop : Option Nat) (a b : SliceWord) (x : Dev × CapRun) (e : Nat) : Dev × CapRun :=
  let d := x.1
  let r := x.2
  let j := r.fastN
  let c := r.fastPer
  let n := j / c
  let t := r.time n
  let ends := decide (j % c = c - 1)
  let m := d.mixOf i n
  let v := if m.1 = m.2 then b.fasts.getD e 0 else a.fasts.getD e 0
  let in_ : Bool := match stop with | some u => decide (t < u) | none => true
  let mag := if liveTag (d.wordTag i r n) then some (mag24 v) else none
  let one := fun (k : Nat) (p : DetPer) (d : Dev) =>
    if d.capFld i t (PORT.EN.at k) = 1 ∧ d.capFld i t (PORT.PATH.at k) = 1 ∧ in_ then
      d.detEval i k t mag (if j % c = 0 then ⟨d.flag (portPg i) (thrStat k), true⟩ else p) ends
    else (d, p)
  let ra := one 0 r.perA d
  let rb := one 1 r.perB ra.1
  (rb.1, { r with fastN := j + 1, perA := ra.2, perB := rb.2,
                  flags := if ends ∧ in_ then r.flags ++ [(n, ra.2.ever, rb.2.ever)] else r.flags })

/-- The fast-path values due with word `idx` of a run: those whose 3 µs end at or before it leaves. -/
def CapRun.fastDue (r : CapRun) : Nat := (r.idx + r.lat) * r.fastPer - 1 - r.fastN

/-- The flags of word `n`'s period (R129). -/
def CapRun.flagsOf (r : CapRun) (n : Nat) : Bool × Bool :=
  match r.flags.find? (fun e => decide (e.1 = n)) with
  | some e => e.2
  | none => (false, false)

/-- What a word carries: tag, value, overload, filter saturation. -/
structure WordBody where
  tag : WordTag
  val : Int
  ovr : Bool
  sat : Bool

/-- A FINE or COARSE word. -/
def WordBody.live (w : WordBody) : Bool := liveTag w.tag

/-- The body of word `n` of a run (R115, R119 to R121, R178). DESIGN CHOICE (log 149): in a crossfade the overload of either
slice counts. -/
def Dev.wordBody (d : Dev) (i : Nat) (r : CapRun) (n : Nat) (a b : SliceWord) : WordBody :=
  let m := d.mixOf i n
  let oa := overloaded 0 0 a.codes
  let ob := overloaded 0 0 b.codes
  let ovr := if m.1 = m.2 then ob else if m.1 = 0 then oa else oa || ob
  let fine := d.fineVal i n
  match d.wordTag i r n with
  | .fine => ⟨.fine, fine.1, ovr, fine.2⟩
  | .coarse => ⟨.coarse, d.fastVal i r n, ovr, fine.2⟩
  | t => ⟨t, 0, false, false⟩

/-- The 32-bit sample word (R118, R119). -/
def WordBody.word (w : WordBody) (thrA thrB mark : Bool) : Word :=
  if w.live then
    wd (scode 24 w.val * 256 + tagCode w.tag * 64 + (if thrA then 32 else 0) + (if thrB then 16 else 0) +
      (if w.ovr || w.sat then 8 else 0) + (if mark then 4 else 0))
  else wd (tagCode w.tag * 64)

/-- Clip flag: its counter, and `CLIP` at most once in any 10 ms (R121, R132). -/
def Dev.clipNote (d : Dev) (i t : Nat) (w : WordBody) : Dev :=
  let q := portPg i
  if w.ovr || w.sat then
    let e := d.count q PORT.CLIP_CNT
    let ok := match (e.port i).clipAt with | none => true | some c => decide (c + 10000000 ≤ e.mono)
    if ok then
      (e.setPort i { e.port i with clipAt := some e.mono }).raiseAt q PORT.E_CLIP t
        (wd ((if w.ovr then 1 else 0) + (if w.sat then 2 else 0)))
    else e
  else d

/-- The registers that follow a word: tag, counts, peak, and LIVE at the first FINE word (R123). Words of an ended run count no
more once the next run has begun (R126), and make no port LIVE. -/
def Dev.wordStats (d : Dev) (i t : Nat) (old : Bool) (w : WordBody) : Dev :=
  let q := portPg i
  let d1 := if w.tag = .coarse then d.count q PORT.COARSE_CNT else d
  let d2 := if w.tag = .fine then d1.setF q PORT.PEAK (Nat.max (d1.fld q PORT.PEAK) (mag24 w.val)) else d1
  let d3 := (d2.setF q PORT.TAG (tagCode w.tag)).setFlag q PORT.FINE_VALID (decide (w.tag = .fine))
  let d4 := if old && (d3.port i).run then d3 else d3.countFree q PORT.WORD_CNT PORT.WORD_EPOCH
  if w.tag = .fine ∧ !old then
    if d4.st q = 2 then (d4.setSt q 3).raiseAt q PORT.E_FINE_REACHED t else d4
  else d4

/-- Flow and channel of a word with timestamp `t` (R278). -/
def Dev.wordFlow (d : Dev) (i t : Nat) : Nat × Nat :=
  let cw := pg .cway 0
  let now := (d.fld cw (CWAY.PORT_FLOW_FLOW.at i), d.fld cw (CWAY.CH.at i))
  match (d.port i).flowOld with
  | some (f, c, at_) => if t < at_ then (f, c) else now
  | none => now

/-- The word goes to the causeway and the run moves on. -/
def Dev.wordSend (d : Dev) (i : Nat) (r : CapRun) (stop : Option Nat) (word : Word) : Dev :=
  let n := r.idx
  let t := r.time n
  let dst := d.wordFlow i t
  let d1 := d.pushFlow (bridgeEp i) ⟨dst.1, dst.2, t, word, false, false⟩
  let s := d1.port i
  (d1.setPort i { s with mark := if stop.isNone ∧ s.mark = some n then none else s.mark,
                         capOld := s.capOld.filter fun e => decide (t < e.2.1) }).setEmit i
    { r with idx := n + 1, flags := r.flags.filter fun e => decide (n < e.1) } stop

/-- The phase of a handover on the port follows the words of its run (R176). -/
def Dev.wordFollow (d : Dev) (i : Nat) (r : CapRun) (stop : Option Nat) : Dev :=
  match stop with
  | none => d.rotFollow i r.idx (presetW r.preset)
  | some _ => d

/-- `WORD_EMIT`: the port assembles its next word from its slice, and from the incoming slice of a handover, and sends
it (R98, R105 to R129, R178). -/
def Dev.wordEmit (d : Dev) (i : Nat) (a : SliceWord) (b : Option SliceWord) : Dev :=
  match d.emitRun i with
  | .none => d
  | .some (r, stop) =>
    let n := r.idx
    let t := r.time n
    let d1 := ((d.reach (r.time n r.lat)).pgaStep i).swapAtWord i n t
    let f := (List.range r.fastDue).foldl (Dev.fastStep i stop a (b.getD a)) (d1.takeInputs i r.fastDue a b, r)
    let w := f.1.wordBody i f.2 n a (b.getD a)
    let mark := w.live && stop.isNone && decide ((f.1.port i).mark = some n)
    let sample := if w.live then some (mag24 w.val) else none
    let ra := f.1.detPeriod i 0 t sample (f.2.flagsOf n).1
    let rb := ra.1.detPeriod i 1 t sample (f.2.flagsOf n).2
    let d3 := (rb.1.clipNote i t w).wordStats i t stop.isSome w
    (d3.wordSend i f.2 stop (w.word ra.2 rb.2 mark)).wordFollow i f.2 stop

end Sys2Proof.Machine
end

