-- ==== Sys2Proof/Machine/View.lean ====
section
/-! DEFINITION. The mixed view of the device that a check reads (R56, R58, R555): staged values of the pages in the view,
live values everywhere else; and what a block says about a write and about a value that becomes live. -/

namespace Sys2Proof.Machine

/-- The view of a check: the device, and the bases of the pages read staged. -/
structure View where
  d : Dev
  pages : List Nat
  deriving Repr

/-- The bits of a register that a milestone makes live: its staged fields (R17, R20). -/
def stagedMask (a : Nat) : Word :=
  match pageAt a with
  | none => 0
  | some (c, _) =>
    match findReg c (a % 0x1000) with
    | none => 0
    | some r => r.mask (·.staged)

/-- What a live register becomes when its page's staged values apply. -/
def Dev.merged (d : Dev) (a : Nat) : Word :=
  let m := stagedMask a
  (d.raw a &&& ~~~m) ||| (d.raw (a + 0x800) &&& m)

/-- A register in the view. -/
def View.raw (v : View) (a : Nat) : Word := if v.pages.contains (pageBase a) then v.d.merged a else v.d.raw a

/-- A field in the view. -/
def View.fld (v : View) (p : Nat) (f : Fld) : Nat := bitsOf (v.raw (p + f.off)) f.hi f.lo

/-- A one-bit field in the view. -/
def View.flag (v : View) (p : Nat) (f : Fld) : Bool := decide (v.fld p f = 1)

/-- The page is read staged. -/
def View.has (v : View) (p : Nat) : Bool := v.pages.contains p

/-- A violation: page reported and rule code. -/
abbrev Viol := Nat × Nat

/-- A rule that reports code `code` on page `p` when `b` holds. -/
def viol (b : Bool) (p code : Nat) : List Viol := if b then [(p, code)] else []

/-- How a value became live: the instant of its milestone, none for a direct write, and the slot. -/
structure Via where
  instant : Option Nat
  slot : Nat
  deriving DecidableEq, Repr

/-- A direct write. -/
def Via.direct : Via := ⟨none, 16⟩

/-- Two words differ in a field. -/
def fieldChanged (f : Fld) (old new : Word) : Bool := decide (bitsOf old f.hi f.lo ≠ bitsOf new f.hi f.lo)

/-- The source may write the page at base `p` as its owner (R32, R33); with `OWNER` NONE only critical commands write. -/
def Dev.ownerOk (d : Dev) (src : Source) (p : Nat) : Bool :=
  match d.fld p HDR.OWNER with
  | 0 => true
  | 7 => false
  | o =>
    match src with
    | .sup => true
    | .pcie => decide (o = 1)
    | .brizel => decide (o = 2)
    | .ssp => decide (o = 3)
    | .psp => decide (o = 3)
    | .region n => decide (o = 4 ∧ d.fld p HDR.REGION = n.val)
    | .keeper k => decide (o = 5 + k.val)

/-- The source may write the page at base `p`: owner and lock (R32, R34). -/
def Dev.mayWrite (d : Dev) (src : Source) (p : Nat) : Bool := d.ownerOk src p && !(d.flag p HDR.LOCKED)

/-- The causes of *Refusal causes* (R31). -/
def cCRITICAL : Nat := 1
def cOWNER : Nat := 2
def cLOCKED : Nat := 3
def cBOUND : Nat := 4
def cPOWER : Nat := 5
def cVALUE : Nat := 6
def cWIDTH : Nat := 7
def cBLOCK : Nat := 8

/-- Record a refused write on a page: `REFUSE_INFO`, `REFUSE_CNT`, `WRITE_REFUSED` (R31). -/
def Dev.refuse (d : Dev) (src : Source) (p off cause : Nat) (v : Word) : Dev :=
  let d1 := (d.setReg p HDR.REFUSE_INFO (wd (cause * 2 ^ 28 + src.code * 2 ^ 24 + off % 0x1000))).count p HDR.REFUSE_CNT
  d1.raiseCode p 0 0x0002 1 (d1.reg p HDR.REFUSE_INFO) v 0 0

end Sys2Proof.Machine
end

