-- ==== Sys2Proof/Machine/TileData.lean ====
section
/-! DEFINITION. One MAC tile (chapters 7 and 8): memories, address generators, accumulators, write-back, block shift,
streams, tags, program counter and loops. Nothing here sees the rest of the device: what a tile's instruction does
outside it is gathered in `TileFx`. -/

namespace Sys2Proof.Machine

/-- What an instruction of a tile reports to its region: corrected errors, uncorrectable errors as (memory, row), reads at
or beyond `FILL`, excursion counters that stuck, saturating write-backs, length changes as (pointer, new, old), words
popped from the two input ports as timestamps, words written to output ports. -/
structure TileFx where
  ce : Nat
  ue : List (Nat × Nat)
  unwr : Nat
  stuck : Nat
  sat : Nat
  lens : List (Nat × Nat × Nat)
  pop0 : Option Nat
  pop1 : Option Nat
  outs : List (Nat × FlowWord)
  deriving Repr

/-- Nothing to report. -/
def TileFx.none : TileFx := ⟨0, [], 0, 0, 0, [], Option.none, Option.none, []⟩

/-- A tile at work: its state and what it has to report. -/
structure TW where
  t : Tile
  fx : TileFx
  deriving Repr

/-- Bits `hi` down to `lo` of an instruction or a number. -/
def ib (w hi lo : Nat) : Nat := (w >>> lo) % 2 ^ (hi + 1 - lo)

/-! ### Memories (R215 to R217): 0 data, 1 coefficient, 2 instruction -/

/-- Words of a 16-bit memory. -/
def memSize (mem : Nat) : Nat := if mem = 0 then 2048 else 1024

/-- The stored word. -/
def Tile.word (t : Tile) (mem a : Nat) : Nat := ((Tab.get (if mem = 0 then t.dmem else t.cmem) a).getD 0)

/-- Store a 16-bit word. -/
def Tile.setWord (t : Tile) (mem a v : Nat) : Tile :=
  if mem = 0 then { t with dmem := Tab.put t.dmem a (v % 65536) 0 } else { t with cmem := Tab.put t.cmem a (v % 65536) 0 }

/-- The stored instruction. -/
def Tile.instr (t : Tile) (a : Nat) : Nat := (Tab.get t.imem a).getD 0

/-- Is the row's poison bit set? -/
def Tile.rowPois (t : Tile) (mem row : Nat) : Bool := if mem = 0 then t.dpois.contains row else t.cpois.contains row

/-- Set or clear a row's poison bit. -/
def Tile.setPois (t : Tile) (mem row : Nat) (b : Bool) : Tile :=
  let f := fun (l : List Nat) => if b then (if l.contains row then l else l ++ [row]) else l.filter (fun x => decide (x ≠ row))
  if mem = 0 then { t with dpois := f t.dpois } else { t with cpois := f t.cpois }

/-- The code meets an error at an access to a row: corrected ones count; an uncorrectable one poisons the row, sets `POISON`
and is reported (R217). -/
def TW.meet (x : TW) (mem row : Nat) (e : EccEvent) : TW :=
  match e with
  | .clean => x
  | .corrected => { x with fx := { x.fx with ce := x.fx.ce + 1 } }
  | .uncorrectable =>
    { t := { x.t.setPois mem row true with poison := true }, fx := { x.fx with ue := x.fx.ue ++ [(mem, row)] } }

/-- Read `n` adjacent words of one row, lowest first in the low bits; a poisoned row reads zero with `POISON`. -/
def TW.readWords (x : TW) (mem a n : Nat) (e : EccEvent) : Nat × TW :=
  let row := a / 4
  if x.t.rowPois mem row then (0, { x with t := { x.t with poison := true } })
  else
    let y := x.meet mem row e
    if y.t.rowPois mem row then (0, y)
    else (if n = 1 then y.t.word mem a else y.t.word mem a + y.t.word mem (a + 1) * 65536, y)

/-- Write `n` adjacent words of one row; on a poisoned row the other words become zero and the poison bit clears. -/
def TW.writeWords (x : TW) (mem a n v : Nat) (e : EccEvent) : TW :=
  let row := a / 4
  let y := if x.t.rowPois mem row then x else x.meet mem row e
  let base := if y.t.rowPois mem row then
      ((((y.t.setWord mem (row * 4) 0).setWord mem (row * 4 + 1) 0).setWord mem (row * 4 + 2) 0).setWord mem (row * 4 + 3) 0).setPois
        mem row false
    else y.t
  let t1 := base.setWord mem a v
  { y with t := if n = 1 then t1 else t1.setWord mem (a + 1) (v / 65536) }

/-! ### Address generators (R208 to R214): pointers 0 to 3 are A0 to A3, 4 to 7 are B0 to B3 -/

/-- A pointer. -/
def Tile.ptr (t : Tile) (k : Nat) : Ptr := (Tab.get t.ptrs k).getD Ptr.init

/-- Store a pointer. -/
def Tile.setPtr (t : Tile) (k : Nat) (p : Ptr) : Tile := { t with ptrs := Tab.put t.ptrs k p Ptr.init }

/-- The leader of a pointer's buffer (R209). -/
def Tile.lead (t : Tile) (k : Nat) : Nat :=
  let f := (t.ptr k).follow
  if f = 0 then k else k / 4 * 4 + (f - 1)

/-- The memory a pointer addresses. -/
def Tile.ptrMem (t : Tile) (k : Nat) : Nat := if k < 4 then 0 else (t.ptr k).mem

/-- ⌊log2 n⌋. -/
def log2 (n : Nat) : Nat := ((List.range 13).filter fun i => decide (2 ^ i ≤ n)).length - 1

/-- `n` is a power of two. -/
def isPow2 (n : Nat) : Bool := decide (n = 2 ^ log2 n)

/-- The low `n` bits of a number in reverse order. -/
def bitRev (n v : Nat) : Nat := (List.range n).foldl (fun s i => s + (v / 2 ^ i % 2) * 2 ^ (n - 1 - i)) 0

/-- An address that must lie in a memory of `size` words. -/
def inMem (size a : Nat) : Nat := if a < size then a else Config.strayAddr a % size

/-- The address a pointer forms (R208). -/
def Tile.addr (t : Tile) (k : Nat) : Nat :=
  let l := t.ptr (t.lead k)
  let off := (t.ptr k).off
  let size := memSize (t.ptrMem k)
  match l.mode with
  | 0 => (l.base + off) % size
  | 1 => inMem size (l.base + off)
  | _ => if isPow2 l.len then inMem size (l.base + bitRev (log2 l.len) off) else Config.strayAddr (l.base + off) % size

/-- A read through the pointer lies at or beyond `FILL` (R210). -/
def Tile.beyond (t : Tile) (k : Nat) : Bool :=
  let l := t.ptr (t.lead k)
  decide (l.mode = 1 ∧ l.fill ≤ (t.ptr k).off)

/-- A read of `n` words through a pointer: at the address, or at the address with bit 0 cleared and the next (R236). -/
def TW.ptrRead (x : TW) (k n : Nat) (e : EccEvent) : Nat × TW :=
  if x.t.beyond k then (0, { t := { x.t with unwr := true }, fx := { x.fx with unwr := x.fx.unwr + 1 } })
  else
    let a := x.t.addr k
    x.readWords (x.t.ptrMem k) (if n = 1 then a else a / 2 * 2) n e

/-- A write of `n` words through a pointer; through a MODULO leader at `OFF` = `FILL` it increments `FILL`, a write of two words
too (R210). -/
def TW.ptrWrite (x : TW) (k n v : Nat) (e : EccEvent) : TW :=
  let a := x.t.addr k
  let y := x.writeWords (x.t.ptrMem k) (if n = 1 then a else a / 2 * 2) n v e
  let p := y.t.ptr k
  if p.follow = 0 ∧ p.mode = 1 ∧ p.off = p.fill then
    { y with t := y.t.setPtr k { p with fill := Nat.min p.len (p.fill + 1) } }
  else y

/-- The grow point (R213). -/
def TW.grow (x : TW) (k target : Nat) : TW :=
  let p := x.t.ptr k
  { t := x.t.setPtr k { p with off := p.len, len := target, fill := p.len, grow := none },
    fx := { x.fx with lens := x.fx.lens ++ [(k, target, p.len)] } }

/-- One step of a pointer by its `MOD` (R208), with what a leader's wrap does (R210, R213). -/
def TW.step (x : TW) (k : Nat) : TW :=
  let p := x.t.ptr k
  let l := x.t.ptr (x.t.lead k)
  let n : Int := (p.off : Int) + p.step
  if l.mode = 0 then { x with t := x.t.setPtr k { p with off := (n % 2048).toNat } }
  else
    let off := (n % (l.len : Int)).toNat
    if p.follow = 0 ∧ p.mode = 1 ∧ (n < 0 ∨ (p.len : Int) ≤ n) then
      match p.grow with
      | some target =>
        if p.off + 1 = p.len ∧ off = 0 then x.grow k target
        else { x with t := x.t.setPtr k { p with off := off, fill := p.len } }
      | none => { x with t := x.t.setPtr k { p with off := off, fill := p.len } }
    else { x with t := x.t.setPtr k { p with off := off } }

/-- The request exceeds the memory the buffer addresses, from the leader's `BASE` (R214). -/
def Tile.lenBeyond (t : Tile) (k len : Nat) : Bool := decide (memSize (t.ptrMem k) < (t.ptr k).base + len)

/-- The request asks for growth in MODULO mode while the leader's `MOD` is not +1 (R214). -/
def Tile.lenStep (t : Tile) (k len : Nat) : Bool :=
  decide ((t.ptr k).mode = 1 ∧ (t.ptr k).len < len ∧ (t.ptr k).step ≠ 1)

/-- The request gives a buffer in BITREV mode a length that is not a power of two (R214). -/
def Tile.lenOdd (t : Tile) (k len : Nat) : Bool := decide ((t.ptr k).mode = 2) && !(isPow2 len)

/-- The reason a length request is refused (R214): 0 accepted, 1 step, 2 mode, 3 bounds, 4 follower, 5 zero. -/
def Tile.lenReason (t : Tile) (k len : Nat) : Nat :=
  let p := t.ptr k
  if p.follow ≠ 0 then 4
  else if len = p.len then 0
  else if len = 0 then 5
  else if t.lenBeyond k len then 3
  else if t.lenStep k len then 1
  else if t.lenOdd k len then 2
  else 0

/-- The pointers of a leader's buffer. -/
def Tile.buffer (t : Tile) (k : Nat) : List Nat :=
  ((List.range 4).map (· + k / 4 * 4)).filter fun j => decide (t.lead j = k)

/-- Every pointer of a list takes `OFF` modulo `len` when it lies at or beyond it. -/
def Tile.wrapOffs (t : Tile) (ks : List Nat) (len : Nat) : Tile :=
  ks.foldl (fun u j => if len ≤ (u.ptr j).off then u.setPtr j { u.ptr j with off := (u.ptr j).off % len } else u) t

/-- A length request acts (R211 to R214); a request for the present length does nothing. A shrink wraps the buffer's offsets and
cancels a pending growth in every mode; in LINEAR no change of `LEN` touches `FILL`. -/
def TW.lenAct (x : TW) (k len : Nat) : TW :=
  let p := x.t.ptr k
  if x.t.lenReason k len ≠ 0 ∨ len = p.len then x
  else if p.mode = 1 ∧ p.len < len then
    if p.off = 0 then x.grow k len else { x with t := x.t.setPtr k { p with grow := some len } }
  else
    let t1 := if len < p.len ∨ p.mode = 2 then x.t.wrapOffs (x.t.buffer k) len else x.t
    let q := t1.ptr k
    { x with t := t1.setPtr k { q with len := len, fill := if p.mode = 0 then q.fill else Nat.min q.fill len,
                                       grow := if len < p.len then none else q.grow } }

/-! ### T registers and streams -/

/-- A T register. -/
def Tile.tr (t : Tile) (i : Nat) : Word := (Tab.get t.treg i).getD 0

/-- Store a T register. -/
def Tile.setTr (t : Tile) (i : Nat) (v : Word) : Tile := { t with treg := Tab.put t.treg i v 0 }

/-- A stream binding register: 0 `STRM_IN0`, 1 `STRM_IN1`, 2 `STRM_OUT0`, 3 `STRM_OUT1`. -/
def Tile.strmReg (t : Tile) (i : Nat) : Word := (Tab.get t.strm i).getD 0

/-- An input FIFO. -/
def Tile.inq (t : Tile) (p : Nat) : List FlowWord := if p = 0 then t.in0 else t.in1

/-- Store an input FIFO. -/
def Tile.setInq (t : Tile) (p : Nat) (l : List FlowWord) : Tile := if p = 0 then { t with in0 := l } else { t with in1 := l }

/-- An output FIFO. -/
def Tile.outq (t : Tile) (p : Nat) : List FlowWord := if p = 0 then t.out0 else t.out1

/-- Store an output FIFO. -/
def Tile.setOutq (t : Tile) (p : Nat) (l : List FlowWord) : Tile :=
  if p = 0 then { t with out0 := l } else { t with out1 := l }

/-- The tag of a code. -/
def tagOfCode : Nat → WordTag
  | 0 => .fine | 1 => .coarse | 2 => .flush | _ => .fault

/-- A contribution to `TS` and `TAGACC` (R250). -/
def Tile.contribute (t : Tile) (ts : Nat) (tag : WordTag) : Tile :=
  if t.ts < ts then { t with ts := ts, tag := tag }
  else if tagCode t.tag < tagCode tag then { t with tag := tag } else t

/-- Pop a word from an input port (R219, R250, R252): a marker sets `MKn` and is delivered as zero, a poisoned word is
delivered as zero with `POISON`. -/
def TW.pop (x : TW) (p : Nat) (sample : Bool) : Word × TW :=
  match x.t.inq p with
  | [] => (0, x)
  | h :: rest =>
    let t1 := x.t.setInq p rest
    let t2 := if p = 0 then { t1 with mk0 := h.marker } else { t1 with mk1 := h.marker }
    let fx := if p = 0 then { x.fx with pop0 := some h.ts } else { x.fx with pop1 := some h.ts }
    if h.marker then (0, ⟨t2, fx⟩)
    else
      let w : Word := if h.poison then 0 else h.word
      let t3 := if h.poison then { t2 with poison := true } else t2
      (w, ⟨t3.contribute h.ts (if sample then tagOfCode (bitsOf w 7 6) else .fine), fx⟩)

/-- The stream word that a write to an output port makes: on the port's next channel, with `TS` as its timestamp (R249,
R251). -/
def Tile.portWord (t : Tile) (p : Nat) (w : Word) (marker : Bool) : FlowWord :=
  let b := t.strmReg (2 + p)
  ⟨bitsOf b 13 0, bitsOf b 21 16 + (if p = 0 then t.rot0 else t.rot1), t.ts, w, marker, false⟩

/-- Write a word to an output port. `keep` says which timestamps a column in a handover passes on (R258, R260). -/
def Tile.push (t : Tile) (p : Nat) (w : Word) (marker : Bool) (keep : Nat → Bool) : Tile :=
  let next := ((if p = 0 then t.rot0 else t.rot1) + 1) % (bitsOf (t.strmReg (2 + p)) 29 24 + 1)
  let t1 := if p = 0 then { t with rot0 := next } else { t with rot1 := next }
  if keep t.ts then t1.setOutq p (t1.outq p ++ [t.portWord p w marker]) else t1

/-- A tile at work writes a word to an output port. -/
def TW.push (x : TW) (p : Nat) (w : Word) (marker : Bool) (keep : Nat → Bool) : TW :=
  { t := x.t.push p w marker keep, fx := { x.fx with outs := x.fx.outs ++ [(p, x.t.portWord p w marker)] } }

/-! ### Accumulators (R200 to R204) -/

/-- Width of the accumulator in use. -/
def accBits (ext : Bool) : Nat := if ext then 72 else 40

/-- The signed accumulator in use: `ACC` alone, or all 72 bits. -/
def Tile.accVal (t : Tile) (ext : Bool) : Int := sext (accBits ext) (t.acc % 2 ^ accBits ext)

/-- Store the accumulator in use; a native one leaves `ACCX`. -/
def Tile.setAcc (t : Tile) (ext : Bool) (v : Int) : Tile :=
  if ext then { t with acc := scode 72 v } else { t with acc := t.acc / 2 ^ 40 * 2 ^ 40 + scode 40 v }

/-- How often a sum wraps: above, positive; below, negative (R200). -/
def wraps (n : Nat) (s : Int) : Int := (s + 2 ^ (n - 1)) / 2 ^ n

/-- `EXC` is stuck (R201). -/
def excStuck (e : Int) : Bool := decide (e = 7 ∨ e = -7)

/-- `EXC` after an addition (R201, R203): own and cascade excursion counts and the wraps of the addition. -/
def excSum (own left k : Int) : Int :=
  if excStuck own then own else if excStuck left then left else clampInt (-7) 7 (own + left + k)

/-- The accumulator and `EXC` take the sum `s`; reaching ±7 is reported. `own` is the count the sum starts from. -/
def TW.accumulate (x : TW) (ext : Bool) (s own left : Int) : TW :=
  let n := accBits ext
  let e := excSum own left (wraps n s)
  let hit := excStuck e && !(excStuck own)
  { t := { x.t.setAcc ext s with exc := e }, fx := if hit then { x.fx with stuck := x.fx.stuck + 1 } else x.fx }

/-- The redundant-sign-bit count of a `w`-bit pattern (R205). -/
def rsb (w v : Nat) : Nat :=
  let s := v / 2 ^ (w - 1) % 2
  ((List.range (w - 1)).takeWhile fun i => decide (v / 2 ^ (w - 2 - i) % 2 = s)).length

/-- The value a write-back writes, as a `w`-bit pattern, and whether it saturated (R204). -/
def window (V exc : Int) (w s : Nat) (wrap : Bool) : Nat × Bool :=
  let v := V / 2 ^ s
  let top := 2 ^ (w - 1) - 1
  if wrap then (scode w v, false)
  else if exc ≠ 0 then (if 0 < exc then (top, true) else (top + 1, true))
  else if v < -(2 ^ (w - 1)) ∨ (2 : Int) ^ (w - 1) ≤ v then (if 0 ≤ V then (top, true) else (top + 1, true))
  else (scode w v, false)

/-- The block shift of a `w`-bit operand value (R207), and whether it saturated. -/
def blockShift (w : Nat) (signed : Bool) (bsh v : Int) : Int × Bool :=
  if bsh < 0 then (v / 2 ^ (-bsh).toNat, false)
  else
    let y := v * 2 ^ bsh.toNat
    let lo : Int := if signed then -(2 ^ (w - 1)) else 0
    let hi : Int := if signed then 2 ^ (w - 1) - 1 else 2 ^ w - 1
    if y < lo then (lo, true) else if hi < y then (hi, true) else (y, false)

/-! ### Program counter and loops (R244, R245) -/

/-- The loop that was started later, of the two, is tested first. -/
def Tile.endLoop (t : Tile) (n : Nat) : Tile × Bool :=
  let l := if n = 0 then t.loop0 else t.loop1
  let set := fun (v : Loop) => if n = 0 then { t with loop0 := v } else { t with loop1 := v }
  if l.active && decide (l.lend = t.pc) then
    if 1 < l.lc then ({ set { l with lc := l.lc - 1 } with pc := l.lstart }, true)
    else (set { l with active := false, lc := 0 }, false)
  else (t, false)

/-- The instruction at `PC` has completed: the program counter goes on, through the ends of loops. -/
def Tile.next (t : Tile) : Tile :=
  let first := if t.loop0.order < t.loop1.order then 1 else 0
  let a := t.endLoop first
  if a.2 then a.1
  else
    let b := a.1.endLoop (1 - first)
    if b.2 then b.1 else { b.1 with pc := (b.1.pc + 1) % 256 }

/-- A branch is taken: loops whose range it leaves end. -/
def Tile.branch (t : Tile) (a : Nat) : Tile :=
  let f := fun (l : Loop) => if l.active && !(decide (l.lstart ≤ a ∧ a ≤ l.lend)) then { l with active := false, lc := 0 } else l
  { t with loop0 := f t.loop0, loop1 := f t.loop1, pc := a }

/-- Start loop `n` (R245). -/
def Tile.startLoop (t : Tile) (n count lend : Nat) : Tile :=
  let other := if n = 0 then t.loop1.order else t.loop0.order
  let l : Loop := ⟨true, count, lend, (t.pc + 1) % 256, other + 1⟩
  if n = 0 then { t with loop0 := l } else { t with loop1 := l }

/-! ### Legality (R235): 0 legal, else `PERR_INFO.REASON` -/

/-- A source code that names an index only up to `n`. -/
def srcRange (src idx : Nat) : Bool :=
  if src = 2 ∨ src = 3 ∨ src = 8 ∨ src = 9 then decide (idx < 4) else if src = 6 ∨ src = 7 then decide (idx < 2) else true

/-- Reasons of the MAC format. -/
def macReason (w : Nat) : Nat :=
  let prec := ib w 58 57
  let xs := ib w 54 51
  let ys := ib w 50 47
  let dst := ib w 31 29
  let didx := ib w 28 26
  if prec = 3 ∨ 11 ≤ xs ∨ 11 ≤ ys ∨ 6 ≤ dst then 2
  else if !(srcRange xs (ib w 46 44)) || !(srcRange ys (ib w 43 41)) || decide (40 ≤ ib w 38 33) ||
      (decide (dst ≤ 1) && decide (4 ≤ didx)) || (decide (4 ≤ dst) && decide (2 ≤ didx)) then 3
  else if (xs = 5 ∧ prec ≠ 0) ∨ (ys = 5 ∧ prec = 2) ∨ (dst = 3 ∧ ib w 39 39 = 1) then 4
  else 0

/-- Reasons of the MOVE format. -/
def moveReason (w : Nat) : Nat :=
  if 8 < ib w 61 56 then 2 else if 40 ≤ ib w 46 41 then 3 else if ib w 40 32 ≠ 0 then 6 else 0

/-- Reasons of the CONTROL format. -/
def ctlReason (w pc : Nat) : Nat :=
  let op := ib w 61 56
  let cond := ib w 55 52
  if 9 < op ∨ 11 ≤ cond then 2
  else if cond ≠ 0 ∧ op ≠ 3 ∧ op ≠ 4 then 3
  else if (op = 1 ∨ op = 2) ∧ ib w 51 44 < (pc + 1) % 256 then 5
  else if ib w 14 0 ≠ 0 then 6 else 0

/-- The reason an instruction at `pc` is a program error; 0 for a legal instruction. -/
def instrReason (w pc : Nat) : Nat :=
  match ib w 63 62 with
  | 0 => macReason w
  | 1 => moveReason w
  | 2 => ctlReason w pc
  | _ => 1

/-! ### The MAC format (R236 to R240) -/

/-- The cascade input of an instruction (R202, R203, R253): the signed values of `ACC` and of all 72 bits, `EXC`, and its
contribution of a timestamp and a tag. -/
structure Cas where
  acc : Int
  accx : Int
  exc : Int
  ts : Nat
  tag : Option WordTag
  deriving Repr

/-- Nothing comes in. -/
def Cas.zero : Cas := ⟨0, 0, 0, 0, none⟩

/-- Does a source code read an input port? -/
def isPortSrc (src : Nat) : Bool := decide (src = 6 ∨ src = 7)

/-- The pointer an operand reads: AGU A for PA and PAB, AGU B for PB and PBB. -/
def srcPtr (src idx : Nat) : Option Nat :=
  if src = 2 ∨ src = 8 then some idx else if src = 3 ∨ src = 9 then some (4 + idx) else none

/-- X and Y are read (`AOP` is not NONE). -/
def macReads (w : Nat) : Bool := decide (ib w 61 59 ≠ 0)

/-- Does the instruction pop port `p`, and does any use take the sample form? -/
def macPops (w p : Nat) : Option Bool :=
  let x := macReads w && isPortSrc (ib w 54 51) && decide (ib w 46 44 = p)
  let y := macReads w && isPortSrc (ib w 50 47) && decide (ib w 43 41 = p)
  let s := decide (ib w 21 21 = 1) && decide (ib w 20 20 = p)
  if x || y || s then
    some (s || (x && decide (ib w 54 51 = 7)) || (y && decide (ib w 50 47 = 7)))
  else none

/-- The output port the instruction writes. -/
def macOut (w : Nat) : Option Nat :=
  if ib w 40 40 = 1 ∧ (ib w 31 29 = 4 ∨ ib w 31 29 = 5) then some (ib w 28 26) else none

/-- A pattern of `wid` bits as an operand value. -/
def operand (wid v : Nat) (signed : Bool) : Int := if signed then sext wid v else (v : Int)

/-- The bits of an operand that comes from no memory: source, index, width, immediate, words popped. -/
def plainBits (t : Tile) (src idx wid imm : Nat) (signed : Bool) (w0 w1 : Word) : Nat :=
  let p := if idx = 0 then w0 else w1
  match src with
  | 1 => 1
  | 4 => (t.tr idx).toNat % 2 ^ wid
  | 5 => (t.tr idx).toNat / 65536
  | 6 => if wid = 16 then p.toNat / 65536 else p.toNat
  | 7 => if wid = 16 then p.toNat / 65536 else p.toNat / 256 * 256
  | 10 => if signed then scode wid (sext 16 imm) else imm
  | _ => 0

/-- An operand that comes from a pointer, block-shifted where its source says so. -/
def TW.memOperand (x : TW) (src k wid : Nat) (signed : Bool) (bsh : Int) (e : EccEvent) : Int × TW :=
  let r := x.ptrRead k (wid / 16) e
  let v := operand wid r.1 signed
  if src = 8 ∨ src = 9 then
    let s := blockShift wid signed bsh v
    (s.1, if s.2 then { r.2 with t := { r.2.t with sat := true } } else r.2)
  else (v, r.2)

/-- One operand. -/
def TW.operandOf (x : TW) (src idx wid imm : Nat) (signed : Bool) (w0 w1 : Word) (bsh : Int) (e : EccEvent) : Int × TW :=
  match srcPtr src idx with
  | some k => x.memOperand src k wid signed bsh e
  | none => (operand wid (plainBits x.t src idx wid imm signed w0 w1) signed, x)

/-- The same pointer read for X and for Y is one access: the second meets no error of its own and reports nothing. -/
def TW.second (x y : TW) (same : Bool) : TW := if same then { y with fx := x.fx } else y

/-- The operands X and Y. -/
def TW.operands (x : TW) (w : Nat) (w0 w1 : Word) (bsh : Int) (ecc : MacEcc) : Int × Int × TW :=
  let prec := ib w 58 57
  let xw := if prec = 0 then 16 else 32
  let yw := if prec = 2 then 32 else 16
  let kx := srcPtr (ib w 54 51) (ib w 46 44)
  let ky := srcPtr (ib w 50 47) (ib w 43 41)
  let same := kx.isSome && decide (kx = ky)
  let a := x.operandOf (ib w 54 51) (ib w 46 44) xw (ib w 15 0) (decide (ib w 56 56 = 1)) w0 w1 bsh ecc.x
  let b := a.2.operandOf (ib w 50 47) (ib w 43 41) yw (ib w 15 0) (decide (ib w 55 55 = 1)) w0 w1 bsh
    (if same then .clean else ecc.y)
  (a.1, b.1, a.2.second b.2 same)

/-- The accumulate operation (R238) with the product `P`. -/
def TW.aop (x : TW) (w : Nat) (P : Int) (cas : Cas) : TW :=
  let ext := decide (ib w 58 57 ≠ 0)
  let c := if ext then cas.accx else cas.acc
  let a := x.t.accVal ext
  match ib w 61 59 with
  | 1 => { x with t := { x.t.setAcc ext P with exc := 0 } }
  | 2 => x.accumulate ext (a + P) x.t.exc 0
  | 3 => x.accumulate ext (a - P) x.t.exc 0
  | 4 => x.accumulate ext (c + P) 0 cas.exc
  | 5 => x.accumulate ext (a + c + P) x.t.exc cas.exc
  | 6 => x.accumulate ext (a + c - P) x.t.exc cas.exc
  | 7 =>
    let s := ib w 38 33
    { x with t := { x.t.setAcc ext ((if s = 0 then 0 else 2 ^ (s - 1)) + P) with exc := 0 } }
  | _ => x

/-- The word an OUT or OUTS write sends (R239, R251). -/
def outWord (sample : Bool) (w v : Nat) (tag : WordTag) : Word :=
  let full := if w = 16 then v * 65536 else v
  if sample then
    let body := if tagCode tag < 2 then full / 256 * 256 else 0
    BitVec.ofNat 32 (body + tagCode tag * 64)
  else BitVec.ofNat 32 full

/-- The value goes to its destination (R239). -/
def TW.dest (x : TW) (w v : Nat) (e : EccEvent) (keep : Nat → Bool) : TW :=
  let wid := if ib w 39 39 = 1 then 32 else 16
  let i := ib w 28 26
  match ib w 31 29 with
  | 0 => x.ptrWrite i (wid / 16) v e
  | 1 => x.ptrWrite (4 + i) (wid / 16) v e
  | 2 => { x with t := x.t.setTr i (if wid = 32 then BitVec.ofNat 32 v else setBits (x.t.tr i) 15 0 v) }
  | 3 => { x with t := x.t.setTr i (setBits (x.t.tr i) 31 16 v) }
  | 4 => x.push i (outWord false wid v x.t.tag) false keep
  | _ => x.push i (outWord true wid v x.t.tag) false keep

/-- The write-back of an instruction (R204, R205, R239). -/
def TW.writeBack (x : TW) (w : Nat) (e : EccEvent) (keep : Nat → Bool) : TW :=
  if ib w 40 40 = 0 then x
  else
    let ext := decide (ib w 58 57 ≠ 0)
    let wid := if ib w 39 39 = 1 then 32 else 16
    let r := window (x.t.accVal ext) x.t.exc wid (ib w 38 33) (decide (ib w 32 32 = 1))
    let y : TW := if r.2 then { t := { x.t with sat := true }, fx := { x.fx with sat := x.fx.sat + 1 } } else x
    let z : TW := if ib w 25 25 = 1 then { y with t := { y.t with bexp := Nat.min y.t.bexp (rsb wid r.1) } } else y
    z.dest w r.1 e keep

/-- The side-move write (R240). -/
def TW.sideMove (x : TW) (w : Nat) (w0 w1 : Word) (e : EccEvent) : TW :=
  if ib w 21 21 = 0 then x
  else
    let v := if ib w 20 20 = 0 then w0 else w1
    if ib w 58 57 = 0 then x.ptrWrite (ib w 19 17) 1 (v.toNat / 65536) e else x.ptrWrite (ib w 19 17) 2 v.toNat e

/-- The pointers an instruction steps, each once (R237). -/
def macSteps (w : Nat) : List Nat :=
  let x := if macReads w ∧ ib w 24 24 = 1 then (srcPtr (ib w 54 51) (ib w 46 44)).toList else []
  let y := if macReads w ∧ ib w 23 23 = 1 then (srcPtr (ib w 50 47) (ib w 43 41)).toList else []
  let d := if ib w 40 40 = 1 ∧ ib w 22 22 = 1 ∧ ib w 31 29 < 2 then [ib w 31 29 * 4 + ib w 28 26] else []
  let s := if ib w 21 21 = 1 ∧ ib w 16 16 = 1 then [ib w 19 17] else []
  (List.range 8).filter fun k => (x ++ y ++ d ++ s).contains k

/-- Pop a port if the instruction does. -/
def TW.popIf (x : TW) (w p : Nat) : Word × TW :=
  match macPops w p with
  | some sample => x.pop p sample
  | none => (0, x)

/-- The cascade input contributes a timestamp and a tag (R250). -/
def TW.casContrib (x : TW) (cas : Cas) : TW :=
  match cas.tag with
  | some tag => { x with t := x.t.contribute cas.ts tag }
  | none => x

/-- One MAC instruction in the order of R238; the program counter goes on. -/
def TW.mac (x : TW) (w : Nat) (bsh : Int) (cas : Cas) (ecc : MacEcc) (keep : Nat → Bool) : TW :=
  let p0 := x.popIf w 0
  let p1 := p0.2.popIf w 1
  let x1 := p1.2.casContrib cas
  let ops := if macReads w then x1.operands w p0.1 p1.1 bsh ecc else (0, 0, x1)
  let x2 := ops.2.2.aop w (ops.1 * ops.2.1) cas
  let x3 := x2.writeBack w ecc.w keep
  let x4 := x3.sideMove w p0.1 p1.1 ecc.s
  let x5 := (macSteps w).foldl (fun y k => y.step k) x4
  { x5 with t := { x5.t with ext := decide (ib w 58 57 ≠ 0) }.next }

/-! ### The MOVE format (R241) -/

/-- The immediate of a MOVE instruction. -/
def imm32 (w : Nat) : Word := BitVec.ofNat 32 w

/-- `OFF` as SETOFF sets it. -/
def Tile.setOff (t : Tile) (k v : Nat) : Tile :=
  let l := t.ptr (t.lead k)
  t.setPtr k { t.ptr k with off := if l.mode = 0 then v % 2048 else v % l.len }

/-! ### Conditions (R243) -/

/-- Does a condition hold? The gate lines come from outside the tile (R129). -/
def Tile.cond (t : Tile) (gate : Nat → Bool) (c g : Nat) : Bool :=
  match c with
  | 0 => true
  | 1 => gate g
  | 2 => !(gate g)
  | 3 => decide (t.exc ≠ 0)
  | 4 => decide (t.exc = 0)
  | 5 => decide (t.exc < 0) || (decide (t.exc = 0) && decide (t.accVal t.ext < 0))
  | 6 => decide (t.exc = 0) && decide (t.accVal t.ext = 0)
  | 7 => t.mk0
  | 8 => t.mk1
  | 9 => decide (t.in0 ≠ [])
  | 10 => decide (t.in1 ≠ [])
  | _ => false

/-! ### Registers of the window as words -/

/-- `DP_STAT`. -/
def Tile.dpStat (t : Tile) : Word :=
  wd ((if t.sat then 2 ^ 31 else 0) + (if t.poison then 2 ^ 30 else 0) + (if t.unwr then 2 ^ 29 else 0) +
    (if excStuck t.exc then 2 ^ 28 else 0) + (if t.stall = .merge then 2 ^ 27 else 0) + scode 4 t.exc * 2 ^ 16 + t.bexp)

end Sys2Proof.Machine
end

