-- ==== Sys2Proof/Machine/TileCol.lean ====
section
/-! DEFINITION. Tile regions and logical columns (R194 to R226, R244 to R248): locations, what tiles report to their region,
starting and stopping columns, length requests, auto-doze. -/

namespace Sys2Proof.Machine

/-- The `TREG` page of region `r`. -/
def tregPg (r : Nat) : Nat := pg .treg r

/-- The location code (R195). -/
def locCode (r p row : Nat) : Nat := r * 512 + p * 16 + row

/-- The physical column serving logical column `c`. -/
def Dev.phys (d : Dev) (r c : Nat) : Nat := d.fld (tregPg r) (TREG.PHYS.at c)

/-- Location code of the tile in a row of a logical column. -/
def Dev.loc (d : Dev) (r c row : Nat) : Nat := locCode r (d.phys r c) row

/-- A physical tile. -/
def Dev.tile (d : Dev) (L : Nat) : Tile := (Tab.get d.ti.tiles L).getD Tile.init

/-- Store a physical tile. -/
def Dev.setTile (d : Dev) (L : Nat) (t : Tile) : Dev :=
  { d with ti := { d.ti with tiles := Tab.put d.ti.tiles L t Tile.init } }

/-- `COL_STAT.STATE`: 0 HALTED, 1 RUNNING, 2 FAILED, 3 MOVING. -/
def Dev.colSt (d : Dev) (r c : Nat) : Nat := d.fld (tregPg r) (TREG.STATE.at c)

/-- Set `COL_STAT.STATE`. -/
def Dev.setCol (d : Dev) (r c n : Nat) : Dev := d.setF (tregPg r) (TREG.STATE.at c) n

/-- Change every tile of a physical column. -/
def Dev.mapCol (d : Dev) (r p : Nat) (f : Tile → Tile) : Dev :=
  (List.range 16).foldl (fun e row => e.setTile (locCode r p row) (f (e.tile (locCode r p row)))) d

/-- RUNNING or MOVING. -/
def Dev.colBusy (d : Dev) (r c : Nat) : Bool := decide (d.colSt r c = 1 ∨ d.colSt r c = 3)

/-! ### Comparing two owners (R71, R258, R404) -/

/-- A word of the new owner equals the old owner's: data and marker. -/
def sameOut (a b : FlowWord) : Bool := decide (a.word = b.word ∧ a.marker = b.marker)

/-- Words of the new owner meet the old owner's of the same timestamp, until `lim` have been compared: what is left of both, the
number compared and the number that differ. A word the old owner has passed over without a counterpart differs. -/
def cmpRun (lim : Nat) : List FlowWord → List FlowWord → Nat → Nat → List FlowWord × List FlowWord × Nat × Nat
  | old, [], n, bad => (old, [], n, bad)
  | old, w :: rest, n, bad =>
    if lim ≤ n then ([], [], n, bad)
    else
      match old.dropWhile (fun x => decide (x.ts < w.ts)) with
      | [] => ([], w :: rest, n, bad)
      | x :: more =>
        if x.ts = w.ts then cmpRun lim more rest (n + 1) (bad + if sameOut x w then 0 else 1)
        else cmpRun lim (x :: more) rest (n + 1) (bad + 1)

/-- A port compares what waits, once the horizon instant is known: words before it are never compared (R69). -/
def CmpPort.run (c : CmpPort) (hzn : Option Nat) (lim : Nat) : CmpPort :=
  match hzn with
  | none => c
  | some h =>
    let f := fun (l : List FlowWord) => l.filter fun w => decide (h ≤ w.ts)
    let r := cmpRun lim (f c.old) (f c.new) c.n c.bad
    { c with old := r.1, new := r.2.1, n := r.2.2.1, bad := r.2.2.2 }

/-- An owner puts out a word at elapsed time `now`. -/
def CmpPort.add (c : CmpPort) (isNew : Bool) (w : FlowWord) (now : Nat) : CmpPort :=
  if isNew then { c with new := c.new ++ [w], last := now } else { c with old := c.old ++ [w] }

/-- The comparison of port `k`. -/
def cmpAt (t : Tab CmpPort) (k : Nat) : CmpPort := (Tab.get t k).getD CmpPort.init

/-- An owner's word is noted at port `k`, and what can be compared is. -/
def cmpNote (t : Tab CmpPort) (k : Nat) (isNew : Bool) (w : FlowWord) (now : Nat) (hzn : Option Nat) (lim : Nat) : Tab CmpPort :=
  Tab.ins t k (((cmpAt t k).add isNew w now).run hzn lim)

/-- Every port of a list has compared `lim` words. -/
def cmpDone (t : Tab CmpPort) (ports : List Nat) (lim : Nat) : Bool := ports.all fun k => decide (lim ≤ (cmpAt t k).n)

/-- Words compared, and words that differ, over all ports. -/
def cmpTotals (t : Tab CmpPort) : Nat × Nat := t.foldl (fun s e => (s.1 + e.2.n, s.2 + e.2.bad)) (0, 0)

/-- The elapsed time from which the port longest silent counts its 100 ms, among those still comparing since `at_`. -/
def cmpSilent (t : Tab CmpPort) (ports : List Nat) (lim at_ : Nat) : Option Nat :=
  let l := (ports.filter fun k => decide ((cmpAt t k).n < lim)).map fun k => Nat.max at_ (cmpAt t k).last
  match l with
  | [] => none
  | x :: r => some (r.foldl Nat.min x)

/-! ### Moves and columns -/

/-- The move whose source holds the column: its region is the key. -/
def Dev.srcMove (d : Dev) (r c : Nat) : Option Move :=
  match Tab.get d.ti.moves r with
  | some m => if m.src ≤ c ∧ c < m.src + m.n then some m else none
  | none => none

/-- The move whose destination holds the column, with its key. -/
def Dev.dstMove (d : Dev) (r c : Nat) : Option (Nat × Move) :=
  d.ti.moves.find? fun e => decide (e.2.dreg = r ∧ e.2.dcol ≤ c ∧ c < e.2.dcol + e.2.n)

/-- Does the column's tiles execute instructions? A MOVING column does, unless it is stopped or under repair. -/
def Dev.colRuns (d : Dev) (r c : Nat) : Bool :=
  match d.colSt r c with
  | 1 => true
  | 3 => (Tab.get d.ti.repairs (r * 16 + c)).isNone &&
      (match d.srcMove r c with | some m => (Tab.get m.dead (r * 16 + c)).isNone | none => true)
  | _ => false

/-- The instant at which a source column stops taking words: the instant of its move, once it has come (R260). -/
def Dev.srcUntil (d : Dev) (r c : Nat) : Option Nat :=
  match d.srcMove r c with
  | some m => if 5 ≤ m.phase then m.instant else none
  | none => none

/-- Which timestamps a column's output words may carry (R258, R260, R264). -/
def Dev.keeps (d : Dev) (r c ts : Nat) : Bool :=
  (match d.srcUntil r c with | some t => decide (ts < t) | none => true) &&
  (match d.dstMove r c with
   | some e => (match e.2.instant with | some t => decide (t ≤ ts) | none => false)
   | none => true) &&
  (match Tab.get d.ti.since (r * 16 + c) with | some t => decide (t ≤ ts) | none => true)

/-- A column that has taken its path over discards input words timestamped before the instant (R260, R264). -/
def Dev.trimInputs (d : Dev) (r c row : Nat) : Dev :=
  match Tab.get d.ti.since (r * 16 + c) with
  | none => d
  | some t =>
    let L := d.loc r c row
    let x := d.tile L
    let f := fun (l : List FlowWord) => l.dropWhile fun w => decide (w.ts < t)
    d.setTile L { x with in0 := f x.in0, in1 := f x.in1 }

/-! ### What tiles report -/

/-- Raise `TILE_UE` for each uncorrectable error (R217). -/
def Dev.tileUe (d : Dev) (r L : Nat) (l : List (Nat × Nat)) : Dev :=
  l.foldl (fun e x => (e.count (tregPg r) TREG.UE_CNT).raise (tregPg r) TREG.E_TILE_UE
    (wd (x.1 * 2 ^ 30 + x.2 * 2 ^ 20 + L))) d

/-- Raise `LEN_APPLIED` for each growth that took effect (R213). -/
def Dev.tileLens (d : Dev) (r L : Nat) (l : List (Nat × Nat × Nat)) : Dev :=
  l.foldl (fun e x => (e.count (tregPg r) TREG.LEN_CNT).raise (tregPg r) TREG.E_LEN_APPLIED (wd (x.1 * 65536 + L))
    (wd x.2.1) (wd x.2.2)) d

/-- `SAT` is raised at most once in any 10 ms per region (R204). -/
def Dev.tileSat (d : Dev) (r L n : Nat) : Dev :=
  if n = 0 then d
  else
    let d1 := d.count (tregPg r) TREG.SAT_CNT n
    let due := match Tab.get d1.ti.satAt r with | some t => decide (t + 10000000 ≤ d1.mono) | none => true
    if due then
      ({ d1 with ti := { d1.ti with satAt := Tab.ins d1.ti.satAt r d1.mono } } : Dev).raise (tregPg r) TREG.E_SAT (wd L)
    else d1

/-- A tile at work is stored, and what it reports is counted and raised. -/
def Dev.tileDone (d : Dev) (r L : Nat) (x : TW) : Dev :=
  let p := tregPg r
  let d1 := d.setTile L x.t
  let d2 := if x.fx.ce = 0 then d1 else d1.count p TREG.CE_CNT x.fx.ce
  let d3 := d2.tileUe r L x.fx.ue
  let d4 := if x.fx.unwr = 0 then d3 else d3.count p TREG.UNWR_CNT x.fx.unwr
  let d5 := if x.fx.stuck = 0 then d4
    else (d4.count p TREG.STUCK_CNT x.fx.stuck).raise p TREG.E_EXC_STUCK (wd L) x.t.dpStat
  (d5.tileSat r L x.fx.sat).tileLens r L x.fx.lens

/-! ### Starting and stopping -/

/-- A tile starts at its `ENTRY` (R244). -/
def Tile.start (t : Tile) : Tile :=
  { t with pc := t.entry, loop0 := Loop.init, loop1 := Loop.init, mk0 := false, mk1 := false, halt := false,
           perr := false, stall := .none }

/-- The tile clock of a region runs again, unless its power state stops it (R224, R225). -/
def Dev.clockRuns (d : Dev) (r : Nat) : Dev := if d.pwrState (tregPg r) = 0 then d.setF (tregPg r) TREG.DOZING 0 else d

/-- A column that is HALTED starts (R244). Its tiles hold the region's clock no longer stopped (R224). -/
def Dev.colStart (d : Dev) (r c : Nat) : Dev :=
  ((({ d with ti := { d.ti with since := Tab.del d.ti.since (r * 16 + c) } } : Dev).mapCol r (d.phys r c) Tile.start).setCol r c
    1).clockRuns r

/-- A tile waits in a merge of the column. -/
def Dev.colMerge (d : Dev) (r c : Nat) : Dev :=
  let mask := d.fld (tregPg r) (TREG.BEXP_MASK.at c)
  d.setFlag (tregPg r) (TREG.MERGE_WAIT.at c)
    (anyIf 16 fun row => decide (mask / 2 ^ row % 2 = 1) && decide ((d.tile (d.loc r c row)).stall = .merge))

/-- The tiles of a column stop where they stand. -/
def Dev.colStop (d : Dev) (r c : Nat) : Dev :=
  (d.mapCol r (d.phys r c) fun t => { t with stall := .none }).colMerge r c

/-- A RUNNING column halts (R230). -/
def Dev.colHalt (d : Dev) (r c : Nat) : Dev := (d.colStop r c).setCol r c 0

/-- `COL_CTL.RUN` of a column in the live half. -/
def Dev.setRun (d : Dev) (r c n : Nat) : Dev := d.setF (tregPg r) (TREG.RUN.at c) n

/-! ### Length requests (R211 to R214) -/

/-- `DESC_ERR`: pointer, location, requested length, reason. -/
def Dev.descErr (d : Dev) (r L k len reason : Nat) : Dev :=
  d.raise (tregPg r) TREG.E_DESC_ERR (wd (k * 65536 + L)) (wd len) (wd reason)

/-- A request waits for the tile's next instruction boundary; for a source column of a move, in Drain too, also in the
destination (R263). -/
def Dev.lenRequest (d : Dev) (r c row k len : Nat) : Dev :=
  let ask := fun (e : Dev) L => e.setTile L { e.tile L with reqs := (e.tile L).reqs ++ [(k, len)] }
  let d1 := ask d (d.loc r c row)
  match d1.srcMove r c with
  | some m => ask d1 (d1.loc m.dreg (m.dcol + (c - m.src)) row)
  | none => d1

/-- A tile acts on one request. -/
def Dev.lenActs (d : Dev) (r L k len : Nat) : Dev :=
  let t := d.tile L
  let reason := t.lenReason k len
  if reason ≠ 0 then d.descErr r L k len reason
  else
    let x := (TW.mk t TileFx.none).lenAct k len
    let d1 := d.tileDone r L x
    if x.fx.lens = [] ∧ (x.t.ptr k).len ≠ (t.ptr k).len then d1.count (tregPg r) TREG.LEN_CNT else d1

/-- `LEN_REQUEST_ACT`: tile `t` acts on its oldest request (R211). -/
def Dev.lenRequestAct (d : Dev) (t : Nat) : Dev :=
  let r := t / 256
  let L := d.loc r (t % 256 / 16) (t % 16)
  match (d.tile L).reqs with
  | [] => d
  | q :: rest => (d.setTile L { d.tile L with reqs := rest }).lenActs r L q.1 q.2

/-! ### Auto-doze (R224) -/

/-- A tile holds its region's clock no longer: its column does not run, or it is halted or stalled on an empty input, in
WAIT or in CPOST (R224, R247). -/
def Dev.tileRests (d : Dev) (r c row : Nat) : Bool :=
  let t := d.tile (d.loc r c row)
  !(d.colRuns r c) || t.halt || t.perr || decide (t.stall = .input ∨ t.stall = .wait ∨ t.stall = .cpost)

/-- `AUTODOZE_ENTRY`: the tile clock of region `r` stops. -/
def Dev.autodoze (d : Dev) (r : Nat) : Dev :=
  let p := tregPg r
  if (d.flag p TREG.AUTODOZE_EN || decide (d.pwrState p = 1)) && !(d.flag p TREG.DOZING) &&
      (List.range 256).all (fun n => d.tileRests r (n / 16) (n % 16)) then
    (d.setF p TREG.DOZING 1).count p TREG.DOZE_CNT
  else d

/-- A FIFO keeps the words of one timestamp in channel order (R249). -/
def flowIns (w : FlowWord) : List FlowWord → List FlowWord
  | [] => [w]
  | x :: t => if w.ts < x.ts ∨ (w.ts = x.ts ∧ w.ch < x.ch) then w :: x :: t else x :: flowIns w t

/-- A stream binding takes a word: the port is bound to its flow and to its channel (R249). -/
def bindTakes (b : Word) (w : FlowWord) : Bool :=
  bitAt b 31 && decide (w.flow = bitsOf b 13 0 ∧ bitsOf b 21 16 ≤ w.ch ∧ w.ch ≤ bitsOf b 21 16 + bitsOf b 29 24)

/-- `STREAM_WORD_ARRIVE`: a word arrives at an input port of tile `t`; the region's clock runs again and a stalled read can
complete. A full FIFO holds the word back at its producer. -/
def Dev.streamWord (d : Dev) (t port : Nat) (w : FlowWord) : Dev :=
  let r := t / 256
  let L := d.loc r (t % 256 / 16) (t % 16)
  let x := d.tile L
  if bindTakes (x.strmReg port) w && decide ((x.inq port).length < 32) then
    let y := x.setInq port (flowIns w (x.inq port))
    let z := if y.stall = .input then { y with stall := .none } else y
    (d.setTile L z).setF (tregPg r) TREG.DOZING 0
  else d

end Sys2Proof.Machine
end

