-- ==== Sys2Proof/Machine/TileMove.lean ====
section
/-! DEFINITION. Segment moves and replacements (R256 to R263), tile failures (R220 to R223) and column repairs (R264). A
move is keyed by its source region. -/

namespace Sys2Proof.Machine

/-- The move keyed by region `r`. -/
def Dev.move? (d : Dev) (r : Nat) : Option Move := Tab.get d.ti.moves r

/-- Store a move. -/
def Dev.setMove (d : Dev) (r : Nat) (m : Move) : Dev := { d with ti := { d.ti with moves := Tab.ins d.ti.moves r m } }

/-- `MOVE_STAT.PHASE` and the move follow a phase. -/
def Dev.movePhase (d : Dev) (r n : Nat) (m : Move) : Dev := (d.setF (tregPg r) TREG.PHASE n).setMove r { m with phase := n }

/-- The `TREG` pages of a move, one when both lie in one region (R259). -/
def movePages (r : Nat) (m : Move) : List Nat := if m.dreg = r then [tregPg r] else [tregPg r, tregPg m.dreg]

/-- Apply a change to each column of a range. -/
def Dev.eachCol (d : Dev) (c n : Nat) (f : Dev → Nat → Dev) : Dev := (List.range n).foldl (fun e k => f e (c + k)) d

/-! ### Prepare -/

/-- A destination tile after Prepare (R257): cleared state; a destination leader's `FILL` is 0 in MODULO. -/
def Tile.cleared (t : Tile) : Tile :=
  let p := fun k => let x := t.ptr k; { x with off := 0, fill := if x.follow = 0 ∧ x.mode = 1 then 0 else x.fill, grow := none }
  let u := (List.range 8).foldl (fun (u : Tile) k => u.setPtr k (p k)) t
  { u with dmem := [], dpois := [], treg := [], acc := 0, exc := 0, in0 := [], in1 := [], out0 := [], out1 := [], reqs := [],
           rot0 := 0, rot1 := 0, bexp := 31, sat := false, poison := false, unwr := false, ts := 0, tag := .fine,
           ext := false, mergeRst := false }

/-- What Prepare copies for a MOVE (R257): memories, descriptors, `ENTRY`, stream bindings. -/
def Tile.copyProgram (dst src : Tile) : Tile :=
  let u := (List.range 8).foldl (fun (u : Tile) k => u.setPtr k { src.ptr k with off := 0, fill := (src.ptr k).len, grow := none })
    { dst with imem := src.imem, cmem := src.cmem, cpois := src.cpois, entry := src.entry, strm := src.strm }
  u

/-- The columns of a destination are set up; `MOVE` copies, every kind clears, and the tiles start (R257). -/
def Dev.moveCol (d : Dev) (r : Nat) (m : Move) (k : Nat) : Dev :=
  let s := tregPg r
  let t := tregPg m.dreg
  let sc := m.src + k
  let dc := m.dcol + k
  let d1 := if m.kind = 2 then d else
    let e := (List.range 16).foldl (fun e row =>
      e.setTile (e.loc m.dreg dc row) ((e.tile (e.loc m.dreg dc row)).copyProgram (e.tile (e.loc r sc row)))) d
    (((e.setF t (TREG.GUARD.at dc) (d.fld s (TREG.GUARD.at sc))).setF t (TREG.BEXP_MASK.at dc)
      (d.fld s (TREG.BEXP_MASK.at sc))).setF t (TREG.LAT.at dc) (d.fld s (TREG.LAT.at sc)))
  let d2 := (d1.mapCol m.dreg (d1.phys m.dreg dc) fun x => x.cleared.start)
  ((((d2.setF t (TREG.BSH.at dc) 0).setF t (TREG.CBSH.at dc) 0).setCol m.dreg dc 3).setCol r sc 3)

/-- The staged copies of the fields Prepare changes follow them, so that no milestone of the move takes them back. -/
def Dev.moveStaged (d : Dev) (m : Move) : Dev :=
  d.eachCol m.dcol m.n fun e c =>
    let a := tregPg m.dreg + (TREG.COL_CTL.at c).off
    if m.kind = 2 then e else e.put (a + 0x800) (e.raw a &&& stagedMask a)

/-- A move starts: `GO` clears, its columns read MOVING, Prepare is made (R256, R257). -/
def Dev.moveStart (d : Dev) (r : Nat) : Dev :=
  let p := tregPg r
  let m : Move :=
    { src := d.fld p TREG.SRC_COL, n := d.fld p TREG.NCOL_M1 + 1, dreg := d.fld p TREG.DST_REG, dcol := d.fld p TREG.DST_COL,
      kind := d.fld p TREG.KIND, copy := d.flag p TREG.COPY_EN, phase := 1, start := none, lead := 0, hzn := none,
      ready := false, bindAt := none, instant := none, repair := false, cmps := [], cmpAt := 0, compared := 0, mismatch := 0,
      dead := [], copied := [], phys0 := d.phys r (d.fld p TREG.SRC_COL),
      phys1 := d.phys (d.fld p TREG.DST_REG) (d.fld p TREG.DST_COL) }
  let d1 := (((d.setF p TREG.GO 0).setF p TREG.PENDING 0).setF p TREG.ACTIVE 1).setF p TREG.MISMATCH 0
  let d2 := (d1.movePhase r 1 m)
  let d3 : Dev := { d2 with ti := { d2.ti with
    deferred := d2.ti.deferred.filter (fun x => decide (x ≠ r)),
    since := (List.range m.n).foldl (fun s k => Tab.del s (m.dreg * 16 + (m.dcol + k))) d2.ti.since } }
  ((List.range m.n).foldl (fun e k => e.moveCol r m k) d3).moveStaged m

/-- The columns of a range of region `r` satisfy a test. -/
def Dev.allCols (d : Dev) (r c n : Nat) (f : Dev → Nat → Nat → Bool) : Bool := (List.range n).all fun k => f d r (c + k)

/-- `MOVE_CTL` with `GO` is refused with cause BLOCK (R256): `ctl` is the value written. -/
def Dev.moveRefused (d : Dev) (src : Source) (r : Nat) (ctl : Word) : Bool :=
  let p := tregPg r
  let sc := fieldOf TREG.SRC_COL ctl
  let n := fieldOf TREG.NCOL_M1 ctl + 1
  let dr := fieldOf TREG.DST_REG ctl
  let dc := fieldOf TREG.DST_COL ctl
  let len := d.fld p TREG.COPY_LEN
  decide (16 < sc + n ∨ 16 < dc + n) || decide (dr = r ∧ sc < dc + n ∧ dc < sc + n) ||
    !(d.allCols r sc n fun e r c => e.colBusy r c) || !(d.allCols dr dc n fun e r c => decide (e.colSt r c = 0)) ||
    decide (2 ≤ d.pwrState (tregPg dr)) || !(d.mayWrite src (tregPg dr)) || d.flag p TREG.ACTIVE ||
    (decide (fieldOf TREG.COPY_EN ctl = 1) &&
      decide (768 * d.fld p (TREG.LAT.at sc) < 16 * (16 * len + 332 * d.fld p TREG.REGS + 184))) ||
    decide (2048 < d.fld p TREG.COPY_BASE + len)

/-- `GO` has been written: the move starts, or waits while a source column is MOVING (R72, R256) or a
firmware changeover runs (R545). -/
def Dev.moveGo (d : Dev) (r : Nat) : Dev :=
  let p := tregPg r
  if d.fwActive || anyIf (d.fld p TREG.NCOL_M1 + 1) fun k => decide (d.colSt r (d.fld p TREG.SRC_COL + k) = 3) then
    let d1 := d.setF p TREG.PENDING 1
    { d1 with ti := { d1.ti with deferred := d1.ti.deferred.filter (· ≠ r) ++ [r] } }
  else d.moveStart r

/-- A deferred move starts once its source columns are no longer MOVING; one that could no longer start is dropped. -/
def Dev.moveDeferred (d : Dev) : Dev :=
  d.ti.deferred.foldl (fun e r =>
    let p := tregPg r
    let sc := e.fld p TREG.SRC_COL
    if e.fwActive || anyIf (e.fld p TREG.NCOL_M1 + 1) (fun k => decide (e.colSt r (sc + k) = 3)) then e
    else if e.moveRefused .sup r (e.reg p TREG.MOVE_CTL) then
      let e1 := (e.setF p TREG.GO 0).setF p TREG.PENDING 0
      { e1 with ti := { e1.ti with deferred := e1.ti.deferred.filter (· ≠ r) } }
    else e.moveStart r) d

/-! ### The end of a move -/

/-- `SEG_HO` (R73, R266): regions, columns and physical columns of old and new, outcome, word 7. -/
def Dev.segNotice (d : Dev) (r outcome : Nat) (w5 w6 w7 : Nat) : Dev :=
  let p := tregPg r
  let d1 := if outcome = 0 ∨ outcome = 6 then d.count p TREG.MOVE_CNT else d
  ((d1.setF p TREG.OUTCOME outcome).raiseSev p TREG.E_SEG_HO (hoSev outcome) (wd (3 * 2 ^ 28 + outcome * 2 ^ 24)) (wd w5)
    (wd w6) (wd w7)).refreshHealth

/-- Word 5 or 6 of `SEG_HO` (R266). -/
def segWord (r c p n : Nat) : Nat := r * 2 ^ 28 + c * 2 ^ 24 + p * 2 ^ 16 + (n - 1)

/-- The move leaves the page: `MOVE_STAT` reads idle and the notice is sent, with the first physical columns the move began with. -/
def Dev.moveDone (d : Dev) (r outcome : Nat) (m : Move) : Dev :=
  let p := tregPg r
  let d1 : Dev := { d with ti := { d.ti with moves := Tab.del d.ti.moves r } }
  let d2 := (((d1.jobCancel (.move r)).unwait (.move r)).setF p TREG.ACTIVE 0).setF p TREG.PHASE 0
  let w7 := if outcome = 6 then 0 else Nat.min m.compared 0x7FFF * 65536 + Nat.min m.mismatch 0xFFFF
  d2.segNotice r outcome (segWord r m.src m.phys0 m.n) (segWord m.dreg m.dcol m.phys1 m.n) w7

/-- A column repair begins (R264): the column reads MOVING. -/
def Dev.colRepairStart (d : Dev) (r c phys : Nat) : Dev :=
  let d1 := d.setCol r c 3
  { d1 with ti := { d1.ti with repairs := Tab.ins d1.ti.repairs (r * 16 + c) ⟨phys, false, 0, false⟩ } }

/-- A destination column returns to HALTED, a failed one apart (R263). -/
def Dev.moveDstBack (d : Dev) (m : Move) : Dev :=
  d.eachCol m.dcol m.n fun e c => if e.colSt m.dreg c = 3 then
    let e1 := e.colHalt m.dreg c
    e1.mapCol m.dreg (e1.phys m.dreg c) fun t => { t with out0 := [], out1 := [] } else e

/-- A source column keeps running; one that failed, and that a spare serves, is repaired (R263, R264). -/
def Dev.moveSrcBack (d : Dev) (r : Nat) (m : Move) : Dev :=
  d.eachCol m.src m.n fun e c =>
    if e.colSt r c ≠ 3 then e
    else
      match Tab.get m.dead (r * 16 + c) with
      | some ph => e.colRepairStart r c ph
      | none => e.setCol r c 1

/-- The move keyed by `r` ends before Switch (R263). -/
def Dev.moveAbort (d : Dev) (r outcome : Nat) : Dev :=
  match d.move? r with
  | none => d
  | some m =>
    if m.phase ≤ 4 then
      (((d.moveDstBack m).moveSrcBack r m).moveDone r outcome m).moveDeferred
    else d

/-- `MOVE_CTL.ABORT` (R263): a running move ends before Switch with outcome 5; a deferred one is withdrawn. -/
def Dev.moveCancel (d : Dev) (r : Nat) : Dev :=
  let p := tregPg r
  let d0 := d.setF p TREG.ABORT 0
  if d0.ti.deferred.contains r then
    let d1 := (d0.setF p TREG.GO 0).setF p TREG.PENDING 0
    { d1 with ti := { d1.ti with deferred := d1.ti.deferred.filter (· ≠ r) } }
  else d0.moveAbort r 5

/-! ### Overlap, Compare, Arm -/

/-- The supervisor takes a slot for the move, `LEAD` µs ahead, or the move waits with the overlap running. The 10 s of R259 run
while its pages are bound or dirty; the want of a slot alone never ends it (R49). -/
def Dev.moveBind (d : Dev) (r : Nat) (m : Move) : Dev :=
  let t := d.now + d.fld (tregPg r) TREG.LEAD * 1000
  match d.svcBind (.move r) (movePages r m) t with
  | some e => e.movePhase r 4 { m with ready := true, instant := some t, bindAt := none }
  | none =>
    (d.setMove r { m with ready := true,
                          bindAt := if d.pagesBusy (movePages r m) then some (m.bindAt.getD d.mono) else none }).svcWait (.move r)

/-- A waiting move tries again (R50, R259). -/
def Dev.moveRetry (d : Dev) (r : Nat) : Dev :=
  match d.move? r with
  | some m => if m.ready ∧ m.instant.isNone then d.moveBind r m else d.unwait (.move r)
  | none => d.unwait (.move r)

/-- Words that the outputs of a move compare each. -/
def Dev.moveLim (d : Dev) (r : Nat) : Nat := d.fld (tregPg r) TREG.COMPARE

/-- The move's outputs are compared: a MOVE with comparison in Overlap or Compare whose source has not failed (R71, R258). -/
def Move.compares (m : Move) : Bool := decide (m.kind = 0 ∧ 2 ≤ m.phase ∧ m.phase ≤ 3) && !m.repair && !m.ready

/-- Tile `i` (column offset × 16 + row) of an owner of move `r` has written words to its output ports. -/
def Dev.moveNote (d : Dev) (r : Nat) (m : Move) (isNew : Bool) (i : Nat) (outs : List (Nat × FlowWord)) : Dev :=
  if m.compares then
    d.setMove r { m with cmps := outs.foldl (fun t o => cmpNote t (i * 2 + o.1) isNew o.2 d.mono m.hzn (d.moveLim r)) m.cmps }
  else d

/-- Words a tile writes to its output ports are compared when its column is in a move. -/
def Dev.outsNote (d : Dev) (r c row : Nat) (outs : List (Nat × FlowWord)) : Dev :=
  if outs = [] then d
  else
    match d.srcMove r c, d.dstMove r c with
    | some m, _ => d.moveNote r m false ((c - m.src) * 16 + row) outs
    | none, some e => d.moveNote e.1 e.2 true ((c - e.2.dcol) * 16 + row) outs
    | none, none => d

/-- H is known: MOVE with comparison compares what it has noted, the other kinds arm (R258, R259). -/
def Dev.moveHzn (d : Dev) (key : Nat) (m : Move) : Dev :=
  if m.kind = 0 then
    d.movePhase key 3 { m with cmpAt := d.mono, cmps := m.cmps.map fun e => (e.1, e.2.run m.hzn (d.moveLim key)) }
  else d.moveBind key m

/-- The destination has popped a word from its lead port (R254, R258): the first one starts the overlap, word `HORIZON`
fixes H. -/
def Dev.movePop (d : Dev) (key : Nat) (m : Move) (ts : Nat) : Dev :=
  let first := m.start.isNone
  let m1 := { m with start := some (m.start.getD ts), lead := m.lead + 1, phase := if first then Nat.max 2 m.phase else m.phase }
  let d1 := if first then d.movePhase key m1.phase m1 else d.setMove key m1
  if m1.hzn.isNone ∧ m.lead = d.fld (tregPg key) TREG.HORIZON ∧ m1.phase = 2 ∧ m1.ready = false then
    d1.moveHzn key { m1 with hzn := some ts }
  else d1

/-- The output ports of the destination that are bound, as the comparison names them. -/
def Dev.movePorts (d : Dev) (m : Move) : List Nat :=
  (List.range (m.n * 16)).flatMap fun i =>
    let t := d.tile (d.loc m.dreg (m.dcol + i / 16) (i % 16))
    (if bitAt (t.strmReg 2) 31 then [i * 2] else []) ++ (if bitAt (t.strmReg 3) 31 then [i * 2 + 1] else [])

/-- `MOVE_COMPARE_DONE`: every bound output port has compared `COMPARE` words (R258). -/
def Dev.moveCompare (d : Dev) (r : Nat) : Dev :=
  match d.move? r with
  | none => d
  | some m =>
    if m.phase = 3 ∧ m.compares = true ∧ cmpDone m.cmps (d.movePorts m) (d.moveLim r) = true then
      let k := cmpTotals m.cmps
      let m1 := { m with compared := k.1, mismatch := k.2 }
      let d1 := (d.setF (tregPg r) TREG.MISMATCH (Nat.min k.2 0xFFFF)).setMove r m1
      if k.2 = 0 then d1.moveBind r m1 else d1.moveAbort r 1
    else d

/-- `MOVE_PORT_SILENT`: an output port has emitted no word for 100 ms of the comparison (R258). -/
def Dev.moveSilent (d : Dev) (r : Nat) : Dev :=
  match d.move? r with
  | some m =>
    if m.phase = 3 ∧ m.compares = true then
      match cmpSilent m.cmps (d.movePorts m) (d.moveLim r) m.cmpAt with
      | some t => (d.pass (t + 100000000 - d.mono)).moveAbort r 2
      | none => d
    else d
  | none => d

/-- `MOVE_BIND_TIMEOUT`: 10 s of waiting for bound or dirty pages (R259). -/
def Dev.moveTimeout (d : Dev) (r : Nat) : Dev :=
  match d.move? r with
  | some m =>
    match m.bindAt with
    | some t => if m.instant.isNone then (d.pass (t + 10000000000 - d.mono)).moveAbort r 2 else d
    | none => d
  | none => d

/-- The violations the checker finds for a move's milestone: latency (CK-0005, R68) and state horizon (CK-0006, R69). -/
def Dev.moveRules (d : Dev) (r : Nat) : List Viol :=
  match d.move? r with
  | none => []
  | some m =>
    viol (decide (m.kind = 2 ∧ d.fld (tregPg r) (TREG.LAT.at m.src) ≠ d.fld (tregPg m.dreg) (TREG.LAT.at m.dcol)))
      (tregPg m.dreg) 0x0005 ++
    viol (match m.hzn, m.instant with | some h, some t => decide (t < h) && !m.repair | _, _ => false) (tregPg m.dreg) 0x0006

/-! ### Switch and Drain -/

/-- The state copy of one tile (R261): the data-memory range, `OFF` and `FILL` of leaders in it, with `REGS` the registers
and the accumulator. -/
def Tile.copyState (dst src : Tile) (base len : Nat) (regs : Bool) : Tile :=
  let inR := fun a => decide (base ≤ a ∧ a < base + len)
  let mem := (List.range len).foldl (fun (t : Tile) k => t.setWord 0 (base + k) (src.word 0 (base + k))) dst
  let pois := { mem with dpois := mem.dpois.filter (fun row => !(inR (row * 4))) ++ src.dpois.filter fun row => inR (row * 4) }
  let ptrs := (List.range 8).foldl (fun (t : Tile) k =>
    let s := src.ptr k
    if s.follow = 0 ∧ src.ptrMem k = 0 ∧ inR s.base then t.setPtr k { t.ptr k with off := s.off, fill := s.fill } else t) pois
  if regs then { ptrs with treg := src.treg, acc := src.acc, exc := src.exc } else ptrs

/-- The state of tile `i` (column offset × 16 + row) of the source is installed in the destination. -/
def Dev.moveCopyTile (d : Dev) (r i : Nat) : Dev :=
  match d.move? r with
  | none => d
  | some m =>
    if m.copied.contains i then d
    else
      let p := tregPg r
      let s := d.tile (d.loc r (m.src + i / 16) (i % 16))
      let L := d.loc m.dreg (m.dcol + i / 16) (i % 16)
      (d.setTile L ((d.tile L).copyState s (d.fld p TREG.COPY_BASE) (d.fld p TREG.COPY_LEN) (d.flag p TREG.REGS))).setMove r
        { m with copied := m.copied ++ [i] }

/-- Has the tile no input word before the instant left to process? -/
def Tile.pastInputs (t : Tile) (instant : Nat) : Bool :=
  (t.in0.all fun w => decide (instant ≤ w.ts)) && (t.in1.all fun w => decide (instant ≤ w.ts))

/-- The milestone of a move has applied: Switch, then Drain (R260). Each tile's state is copied when it stalls before its first
later word (R261), at the latest when Drain ends. -/
def Dev.moveApply (d : Dev) (r : Nat) : Dev :=
  match d.move? r with
  | none => d
  | some m =>
    let t := m.instant.getD d.now
    let d1 := d.movePhase r 6 m
    { d1 with ti := { d1.ti with
      since := (List.range m.n).foldl (fun s k => Tab.ins s (m.dreg * 16 + (m.dcol + k)) t) d1.ti.since } }

/-- The milestone of a move was refused or expired (R263). -/
def Dev.moveMiss (d : Dev) (r : Nat) : Dev := d.moveAbort r 3

/-- Words left in the output FIFOs of logical tile `n` leave in order (R221, R262). -/
def Dev.flushTile (d : Dev) (L n : Nat) (keep : Nat → Bool) : Dev :=
  let t := d.tile L
  let d0 := t.out0.foldl (fun e w => if keep w.ts then e.pushFlow (2 * n) w else e) d
  let d1 := t.out1.foldl (fun e w => if keep w.ts then e.pushFlow (2 * n + 1) w else e) d0
  d1.setTile L { t with out0 := [], out1 := [] }

/-- Words left in the output FIFOs of a column leave in order. -/
def Dev.flushCol (d : Dev) (r c : Nat) : Dev :=
  (List.range 16).foldl (fun e row => e.flushTile (e.loc r c row) (r * 256 + c * 16 + row) (d.keeps r c)) d

/-- Every tile of the column has halted. -/
def Dev.allHalted (d : Dev) (r c : Nat) : Bool := (List.range 16).all fun row => (d.tile (d.loc r c row)).halt

/-- The last tile of a RUNNING or MOVING column has halted (R246). -/
def Dev.haltColumn (d : Dev) (r c : Nat) : Dev :=
  if d.colRuns r c ∧ d.allHalted r c then
    (((d.colStop r c).setCol r c 0).setRun r c 0).raise (tregPg r) TREG.E_SEG_HALTED (wd c)
  else d

/-- A source column has drained (R262). -/
def Dev.moveSrcEnd (d : Dev) (r c : Nat) : Dev :=
  let d1 := (d.flushCol r c).setRun r c 0
  if d1.colSt r c = 3 then d1.colHalt r c else d1

/-- A destination column runs, unless its program has halted it (R262). -/
def Dev.moveDstEnd (d : Dev) (m : Move) (c : Nat) : Dev :=
  let r := m.dreg
  if d.colSt r c ≠ 3 then d
  else ((d.setCol r c 1).setRun r c 1).setF (tregPg r) (TREG.RUN.at c).staged 1

/-- The columns of a move that are still at work have finished the words before the instant (R262). -/
def Dev.moveDrained (d : Dev) (r : Nat) (m : Move) : Bool :=
  let t := m.instant.getD d.now
  d.allCols r m.src m.n fun e r c =>
    !(e.colRuns r c) || (List.range 16).all fun row => (e.tile (e.loc r c row)).halt || (e.tile (e.loc r c row)).pastInputs t

/-- Drain ends: the source halts, the destination runs, the notice is sent (R262). -/
def Dev.moveFinish (d : Dev) (r : Nat) : Dev :=
  match d.move? r with
  | none => d
  | some m =>
    if m.phase = 6 then
      let d1 := if m.copy && !m.repair then (List.range (m.n * 16)).foldl (fun e i => e.moveCopyTile r i) d else d
      let d2 := d1.eachCol m.src m.n fun e c => e.moveSrcEnd r c
      let d3 : Dev := { d2 with ti := { d2.ti with moves := Tab.del d2.ti.moves r } }
      let d4 := d3.eachCol m.dcol m.n fun e c => e.moveDstEnd m c
      (d4.moveDone r (if m.repair then 6 else 0) m).moveDeferred
    else d

/-- `MOVE_DRAIN_END`: the source has finished its earlier words and empties its output FIFOs (R262). -/
def Dev.moveDrainEnd (d : Dev) (r : Nat) : Dev :=
  match d.move? r with
  | none => d
  | some m => if d.moveDrained r m then d.moveFinish r else d

/-! ### Failures (R220 to R223, R263, R264) -/

/-- The detector codes of `FAIL_INFO`. -/
def detectorCode : TileDetector → Nat
  | .residue => 1 | .parity => 2 | .instrMemory => 3

/-- The column stops, its physical column is retired, `COL_FAIL` is raised (R221). -/
def Dev.colFail (d : Dev) (r c row : Nat) (det : TileDetector) : Dev :=
  let p := tregPg r
  let ph := d.phys r c
  let d1 := (((d.flushCol r c).colStop r c).setCol r c 2)
  let d2 := d1.setF p TREG.RETIRED (d1.fld p TREG.RETIRED ||| 2 ^ ph)
  let d3 := d2.setReg p TREG.FAIL_INFO (wd (detectorCode det * 2 ^ 28 + locCode r ph row))
  d3.raiseH p TREG.E_COL_FAIL 0 (wd c)

/-- The failed column takes the spare when it is free and healthy (R222); the answer says whether it did. -/
def Dev.takeSpare (d : Dev) (r c : Nat) : Dev × Bool :=
  let p := tregPg r
  if d.fld p TREG.SPARE_STATE = 0 ∧ d.fld p TREG.RETIRED / 65536 = 0 then
    let d1 := ((d.setF p (TREG.PHYS.at c) 16).setF p TREG.SPARE_STATE 1).setF p TREG.SPARE_FOR c
    (d1.raiseH p TREG.E_SPARE_TAKEN 0 (wd c), true)
  else
    let d1 := if d.phys r c = 16 then d.setF p TREG.SPARE_STATE 2 else d
    (d1.raiseH p TREG.E_NO_SPARE_COL 0 (wd c), false)

/-- A source column fails on physical column `ph` before Arm: the move becomes the repair; after Arm it stays the move (R263). -/
def Dev.moveSrcFails (d : Dev) (r c ph : Nat) (m : Move) (spare : Bool) : Dev :=
  let m1 := { m with dead := Tab.ins m.dead (r * 16 + c) ph }
  let d1 := if spare then d.setCol r c 3 else d
  if m.phase ≤ 3 then d1.moveBind r { m1 with repair := true, copy := false }
  else d1.setMove r m1

/-- A destination column fails before Switch: outcome 4, no repair handover; HALTED once a spare serves it (R263). -/
def Dev.moveDstFails (d : Dev) (r c key : Nat) (spare : Bool) : Dev :=
  let d1 := d.moveAbort key 4
  if spare then (d1.setCol r c 0).setRun r c 0 else d1

/-- A repair that was under way on the column is given up: its spare has failed too. -/
def Dev.colRepairLost (d : Dev) (r c : Nat) (w7 : Nat) : Dev :=
  match Tab.get d.ti.repairs (r * 16 + c) with
  | none => d
  | some x =>
    let d1 := ((d.jobCancel (.colRepair (r * 16 + c))).unwait (.colRepair (r * 16 + c)))
    let d2 : Dev := { d1 with ti := { d1.ti with repairs := Tab.del d1.ti.repairs (r * 16 + c) } }
    (((d2.setCol r c 2).segNotice r 4 (segWord r c x.phys 1) (segWord r c 16 1) w7)).moveDeferred

/-- What follows a failure, by the part the column plays in a handover. -/
def Dev.failFollow (d : Dev) (r c ph : Nat) (spare : Bool) : Dev :=
  match d.dstMove r c, d.srcMove r c with
  | some e, _ => d.moveDstFails r c e.1 spare
  | none, some m => d.moveSrcFails r c ph m spare
  | none, none => if spare then d.colRepairStart r c ph else d

/-- `TILE_FAIL`: a detector of tile `t` trips. -/
def Dev.tileFail (d : Dev) (t : Nat) (det : TileDetector) : Dev :=
  let r := t / 256
  let c := t % 256 / 16
  if d.colSt r c = 2 then d
  else
    let d0 := match d.dstMove r c with | some e => (if 5 ≤ e.2.phase then d.moveFinish e.1 else d) | none => d
    let ph := d0.phys r c
    let d1 := (d0.colRepairLost r c 0).colFail r c (t % 16) det
    let s := d1.takeSpare r c
    s.1.failFollow r c ph s.2

/-- The logical column that a physical column serves. -/
def Dev.served (d : Dev) (r p : Nat) : Option Nat := (List.range 16).find? fun c => decide (d.phys r c = p)

/-- `ROW_WALK`: the walker of a memory of the tile in row `row` of physical column `p` reads and corrects its next row, a column
that serves no logical column included (R218). An uncorrectable error of the instruction memory is a failure of the tile
(R217). -/
def Dev.rowWalk (d : Dev) (r p row : Nat) (mem : TileMem) (e : EccEvent) : Dev :=
  let L := locCode r p row
  let x := d.tile L
  let go := fun (m k : Nat) (u : Tile) =>
    d.tileDone r L (if u.rowPois m k then ⟨u, TileFx.none⟩ else (TW.mk u TileFx.none).meet m k e)
  match mem with
  | .data => go 0 x.walkD { x with walkD := (x.walkD + 1) % 512 }
  | .coef => go 1 x.walkC { x with walkC := (x.walkC + 1) % 256 }
  | .instr =>
    let u : Tile := { x with walkI := (x.walkI + 1) % 256 }
    let d1 := d.tileDone r L ⟨u, if e = .corrected then { TileFx.none with ce := 1 } else TileFx.none⟩
    if e = .uncorrectable then
      match d1.served r p with
      | some c => d1.tileFail (r * 256 + c * 16 + row) .instrMemory
      | none => d1
    else d1

/-! ### Column repair (R264) -/

/-- A row taken from a Presy image: row of the column, memory (0 coefficient, 1 instruction), row of the memory, its 64
bits. -/
def Tile.imageRow (t : Tile) (mem row v : Nat) : Tile :=
  if mem = 0 then
    ((((t.setWord 1 (row * 4) v).setWord 1 (row * 4 + 1) (v / 2 ^ 16)).setWord 1 (row * 4 + 2) (v / 2 ^ 32)).setWord 1 (row * 4 + 3)
      (v / 2 ^ 48)).setPois 1 row false
  else { t with imem := Tab.put t.imem row v 0 }

/-- The copy onto physical column 16, from the failed physical column and from the image. -/
def Dev.colCopy (d : Dev) (r ph : Nat) (rows : List (Nat × Nat × Nat × Nat)) : Dev :=
  let d1 := (List.range 16).foldl (fun e row =>
    e.setTile (locCode r 16 row) ((Tile.init.copyProgram (e.tile (locCode r ph row))).cleared)) d
  rows.foldl (fun e x => e.setTile (locCode r 16 x.1) ((e.tile (locCode r 16 x.1)).imageRow x.2.1 x.2.2.1 x.2.2.2)) d1

/-- The repair's milestone is asked for; until a slot is free and the page is clean the repair waits. -/
def Dev.colRepairBind (d : Dev) (r c : Nat) (x : ColRepair) : Dev :=
  let t := Nat.max x.instant (d.now + 8000)
  let d1 : Dev := { d with ti := { d.ti with repairs := Tab.ins d.ti.repairs (r * 16 + c) { x with instant := t } } }
  match d1.svcBind (.colRepair (r * 16 + c)) [tregPg r] t with
  | some e => e
  | none => d1.svcWait (.colRepair (r * 16 + c))

/-- A waiting repair tries again (R50), `LEAD` µs ahead. -/
def Dev.colRepairRetry (d : Dev) (k : Nat) : Dev :=
  match Tab.get d.ti.repairs k with
  | some x =>
    if x.prepared ∧ (d.jobSlot (.colRepair k)).isNone then
      d.colRepairBind (k / 16) (k % 16) { x with instant := d.now + d.fld (tregPg (k / 16)) TREG.LEAD * 1000 }
    else d
  | none => d.unwait (.colRepair k)

/-- The milestone of a column repair has applied: the column processes words from the instant on and runs (R264). -/
def Dev.colRepairApply (d : Dev) (k : Nat) : Dev :=
  match Tab.get d.ti.repairs k with
  | none => d
  | some x =>
    let r := k / 16
    let c := k % 16
    let d1 : Dev := { d with ti := { d.ti with repairs := Tab.del d.ti.repairs k } }
    let d2 := d1.colStart r c
    let d3 := if d2.fld (tregPg r) (TREG.RUN.at c) = 1 then d2 else d2.setCol r c 0
    let d4 : Dev := { d3 with ti := { d3.ti with since := Tab.ins d3.ti.since k x.instant } }
    (d4.segNotice r 6 (segWord r c x.phys 1) (segWord r c 16 1) (if x.image then 1 else 0)).moveDeferred

end Sys2Proof.Machine
end

