-- ==== Sys2Proof/Machine/TileProg.lean ====
section
/-! DEFINITION. The instructions of the MAC tiles as commands (R234 to R253): each executes the instruction at the program
counter of one tile, when that instruction is the one the command names, the column runs, and nothing holds the tile. -/

namespace Sys2Proof.Machine

/-- The tile an instruction command names: region, logical column, row, location code. -/
structure TSite where
  r : Nat
  c : Nat
  row : Nat
  L : Nat
  deriving Repr

/-- The site of logical tile `t`. -/
def Dev.site (d : Dev) (t : Nat) : TSite := ⟨t / 256, t % 256 / 16, t % 16, d.loc (t / 256) (t % 256 / 16) (t % 16)⟩

/-- The instruction at the tile's program counter. -/
def Dev.siteInstr (d : Dev) (x : TSite) : Nat := (d.tile x.L).instr (d.tile x.L).pc

/-- The tile can execute: its column runs, its region's clock runs, it is not halted. -/
def Dev.siteRuns (d : Dev) (x : TSite) : Bool :=
  d.colRuns x.r x.c && !(d.flag (tregPg x.r) TREG.DOZING) && !(d.tile x.L).halt && !(d.tile x.L).perr &&
    decide ((d.tile x.L).stall ≠ .merge)

/-- The tile executes an instruction that satisfies `is` now. -/
def Dev.siteOk (d : Dev) (x : TSite) (is : Nat → Bool) : Bool :=
  d.siteRuns x && decide (instrReason (d.siteInstr x) (d.tile x.L).pc = 0) && is (d.siteInstr x)

/-- Record what holds the tile at its instruction. -/
def Dev.stallAt (d : Dev) (x : TSite) (s : Stall) : Dev := d.setTile x.L { d.tile x.L with stall := s }

/-! ### Streams at the boundary of a handover -/

/-- A source tile of a move takes no word at or after the instant, and its state is then copied; a destination tile that
still waits for the copy takes none (R260, R261). -/
def Dev.popHeld (d : Dev) (x : TSite) (p : Nat) : Bool :=
  (match d.srcUntil x.r x.c with
   | some t => (match (d.tile x.L).inq p with | h :: _ => decide (t ≤ h.ts) | [] => false)
   | none => false) ||
  (match d.dstMove x.r x.c with
   | some e => decide (5 ≤ e.2.phase) && e.2.copy && !(e.2.copied.contains ((x.c - e.2.dcol) * 16 + x.row))
   | none => false)

/-- The source tile has reached its first word at or after the instant: its state is copied (R261). -/
def Dev.popCopy (d : Dev) (x : TSite) : Dev :=
  match d.srcMove x.r x.c with
  | some m => if 5 ≤ m.phase ∧ m.copy then d.moveCopyTile x.r ((x.c - m.src) * 16 + x.row) else d
  | none => d

/-- Some port of a list has no word, or may not be read. -/
def Dev.needsInput (d : Dev) (x : TSite) (ports : List Nat) : Bool :=
  ports.any fun p => decide ((d.tile x.L).inq p = []) || d.popHeld x p

/-- The lead port of a destination has been read (R258). -/
def Dev.leadPop (d : Dev) (x : TSite) (pop : Option Nat) : Dev :=
  match pop, d.dstMove x.r x.c with
  | some ts, some e => if x.row = 0 ∧ x.c = e.2.dcol then d.movePop e.1 e.2 ts else d
  | _, _ => d

/-- A tile at work is stored with nothing holding it, and what it did is reported. -/
def Dev.siteDone (d : Dev) (x : TSite) (w : TW) : Dev :=
  ((d.tileDone x.r x.L { w with t := { w.t with stall := .none } }).leadPop x w.fx.pop0).outsNote x.r x.c x.row w.fx.outs

/-! ### The cascade (R202, R253) -/

/-- The left neighbour of a column supplies values. -/
def Dev.leftRuns (d : Dev) (x : TSite) : Bool := d.colBusy x.r (x.c - 1)

/-- The cascade input, or none while the left neighbour has not posted it. -/
def Dev.cascade (d : Dev) (x : TSite) : Option Cas :=
  if x.c = 0 then some Cas.zero
  else if d.leftRuns x = false then some { Cas.zero with tag := some .fault }
  else
    let l := d.tile (d.loc x.r (x.c - 1) x.row)
    if l.stall = .cpost then some ⟨l.accVal false, l.accVal true, l.exc, l.ts, some l.tag⟩ else none

/-- The left neighbour is released from CPOST. -/
def Dev.release (d : Dev) (x : TSite) : Dev :=
  if x.c = 0 then d
  else
    let L := d.loc x.r (x.c - 1) x.row
    let l := d.tile L
    if l.stall = .cpost then d.setTile L { l.next with stall := .none } else d

/-! ### The MAC format -/

/-- Does the accumulate operation read the cascade? -/
def aopCascades (aop : Nat) : Bool := decide (4 ≤ aop ∧ aop ≤ 6)

/-- `BSH` of a column, signed. -/
def Dev.bsh (d : Dev) (r c : Nat) : Int := sext 6 (d.fld (tregPg r) (TREG.BSH.at c))

/-- The instruction runs with its cascade input. -/
def Dev.macRun (d : Dev) (x : TSite) (w : Nat) (cas : Cas) (ecc : MacEcc) : Dev :=
  d.siteDone x ((TW.mk (d.tile x.L) TileFx.none).mac w (d.bsh x.r x.c) cas ecc (d.keeps x.r x.c))

/-- A MAC instruction past its stream ports: it waits for the cascade if it reads it. -/
def Dev.macCas (d : Dev) (x : TSite) (w : Nat) (ecc : MacEcc) : Dev :=
  if aopCascades (ib w 61 59) then
    match d.cascade x with
    | some cas => (d.macRun x w cas ecc).release x
    | none => d.stallAt x .cascade
  else d.macRun x w Cas.zero ecc

/-- One MAC instruction: an empty input or a full output holds the tile (R219). -/
def Dev.macGo (d : Dev) (x : TSite) (w : Nat) (ecc : MacEcc) : Dev :=
  if d.needsInput x ((List.range 2).filter fun p => (macPops w p).isSome) then
    (if anyIf 2 fun p => (macPops w p).isSome && d.popHeld x p then d.popCopy x else d).stallAt x .input
  else
    match macOut w with
    | some p => if 32 ≤ ((d.tile x.L).outq p).length then d.stallAt x .output else d.macCas x w ecc
    | none => d.macCas x w ecc

/-- The MAC command with accumulate operation `aop`. -/
def Dev.macExec (d : Dev) (t aop : Nat) (ecc : MacEcc) : Dev :=
  let x := d.site t
  if d.siteOk x (fun w => decide (ib w 63 62 = 0 ∧ ib w 61 59 = aop)) then
    (d.trimInputs x.r x.c x.row).macGo x (d.siteInstr x) ecc
  else d

/-! ### The MOVE format -/

/-- A MOVE command: operation `op` as a change of the tile. -/
def Dev.moveExec (d : Dev) (t op : Nat) (f : Nat → Tile → Tile) : Dev :=
  let x := d.site t
  if d.siteOk x (fun w => decide (ib w 63 62 = 1 ∧ ib w 61 56 = op)) then
    d.siteDone x ⟨(f (d.siteInstr x) (d.tile x.L)).next, TileFx.none⟩
  else d

/-- LDT. -/
def tileLdt (w : Nat) (t : Tile) : Tile := t.setTr (ib w 55 53) (imm32 w)

/-- MOVT. -/
def tileMovt (w : Nat) (t : Tile) : Tile := t.setTr (ib w 55 53) (t.tr (ib w 52 50))

/-- ADDT. -/
def tileAddt (w : Nat) (t : Tile) : Tile := t.setTr (ib w 55 53) (t.tr (ib w 52 50) + imm32 w)

/-- CLRA. -/
def tileClra (_w : Nat) (t : Tile) : Tile := { t with acc := 0, exc := 0 }

/-- LDA. -/
def tileLda (w : Nat) (t : Tile) : Tile :=
  { t with acc := scode 72 (sext 32 (t.tr (ib w 52 50)).toNat * 2 ^ ib w 46 41), exc := 0 }

/-- SETOFF. -/
def tileSetoff (w : Nat) (t : Tile) : Tile := t.setOff (ib w 49 47) (imm32 w).toNat

/-- GETOFF. -/
def tileGetoff (w : Nat) (t : Tile) : Tile := t.setTr (ib w 55 53) (wd (t.ptr (ib w 49 47)).off)

/-- SETTAG. -/
def tileSettag (w : Nat) (t : Tile) : Tile := { t with tag := tagOfCode (ib w 1 0) }

/-! ### The CONTROL format -/

/-- A CONTROL command: what operation `op` does when the tile executes it. -/
def Dev.ctlExec (d : Dev) (t op : Nat) (f : Dev → TSite → Nat → Dev) : Dev :=
  let x := d.site t
  if d.siteOk x (fun w => decide (ib w 63 62 = 2 ∧ ib w 61 56 = op)) then f d x (d.siteInstr x) else d

/-- The instruction completes and leaves a changed tile. -/
def Dev.ctlDone (d : Dev) (x : TSite) (t : Tile) : Dev := d.siteDone x ⟨t.next, TileFx.none⟩

/-- NOP. -/
def ctlNop (d : Dev) (x : TSite) (_w : Nat) : Dev := d.ctlDone x (d.tile x.L)

/-- The count of a loop (R245). -/
def loopCount (t : Tile) (w : Nat) : Nat :=
  (if ib w 28 28 = 0 then ib w 43 32 else (t.tr (ib w 27 25)).toNat % 4096) + 1

/-- LOOPn. -/
def ctlLoop (n : Nat) (d : Dev) (x : TSite) (w : Nat) : Dev :=
  let t := d.tile x.L
  d.ctlDone x (t.startLoop n (loopCount t w) (ib w 51 44))

/-- The condition of an instruction holds. -/
def Dev.condHolds (d : Dev) (x : TSite) (w : Nat) : Bool :=
  (d.tile x.L).cond (fun g => d.gateLine g) (ib w 55 52) (ib w 23 16)

/-- BR. -/
def ctlBr (d : Dev) (x : TSite) (w : Nat) : Dev :=
  if d.condHolds x w then d.siteDone x ⟨(d.tile x.L).branch (ib w 51 44), TileFx.none⟩ else d.ctlDone x (d.tile x.L)

/-- WAIT. -/
def ctlWait (d : Dev) (x : TSite) (w : Nat) : Dev :=
  if d.condHolds x w then d.ctlDone x (d.tile x.L) else d.stallAt x .wait

/-- HALT (R246). -/
def ctlHalt (d : Dev) (x : TSite) (_w : Nat) : Dev :=
  (d.ctlDone x { d.tile x.L with halt := true }).haltColumn x.r x.c

/-- Is the row named in `BEXP_MASK`? -/
def Dev.masked (d : Dev) (r c row : Nat) : Bool := decide (d.fld (tregPg r) (TREG.BEXP_MASK.at c) / 2 ^ row % 2 = 1)

/-- BMERGE (R206): a masked row waits, an unmasked one does nothing. -/
def ctlBmerge (d : Dev) (x : TSite) (w : Nat) : Dev :=
  if d.masked x.r x.c x.row then
    (d.setTile x.L { d.tile x.L with stall := .merge, mergeRst := decide (ib w 24 24 = 1) }).colMerge x.r x.c
  else d.ctlDone x (d.tile x.L)

/-- EMARK (R252). -/
def ctlEmark (d : Dev) (x : TSite) (w : Nat) : Dev :=
  let p := ib w 15 15
  let t := d.tile x.L
  if 32 ≤ (t.outq p).length then d.stallAt x .output
  else
    let y := (TW.mk t TileFx.none).push p (wd (d.fld (tregPg x.r) (TREG.CBSH.at x.c))) true (d.keeps x.r x.c)
    d.siteDone x { y with t := y.t.next }

/-- SETLEN (R211). -/
def ctlSetlen (d : Dev) (x : TSite) (w : Nat) : Dev :=
  let d1 := d.lenRequest x.r x.c x.row (ib w 31 29) (ib w 43 32)
  d1.ctlDone x (d1.tile x.L)

/-- CPOST (R253): the tile waits for its right neighbour's read; with no column to its right that runs it goes on. -/
def ctlCpost (d : Dev) (x : TSite) (_w : Nat) : Dev :=
  if x.c < 15 ∧ d.colBusy x.r (x.c + 1) then d.stallAt x .cpost else d.ctlDone x (d.tile x.L)

/-! ### Merges (R206) -/

/-- Every masked row of a column waits in `BMERGE`, and there is one. -/
def Dev.mergeReady (d : Dev) (r c : Nat) : Bool :=
  let rows := (List.range 16).filter fun row => d.masked r c row
  !rows.isEmpty && rows.all fun row => decide ((d.tile (d.loc r c row)).stall = .merge)

/-- `BMERGE_RESUME`: the column takes `CBEXP`, `BSH` and `CBSH`, and the masked tiles go on. -/
def Dev.mergeResume (d : Dev) (r c : Nat) : Dev :=
  if d.colRuns r c && d.mergeReady r c then
    let p := tregPg r
    let rows := (List.range 16).filter fun row => d.masked r c row
    let cb := rows.foldl (fun m row => Nat.min m (d.tile (d.loc r c row)).bexp) 31
    let bsh : Int := (cb : Int) - d.fld p (TREG.GUARD.at c)
    let rst := rows.any fun row => (d.tile (d.loc r c row)).mergeRst
    let cbsh := if rst then scode 16 bsh else scode 16 (d.fld p (TREG.CBSH.at c) + bsh)
    let d1 := ((d.setF p (TREG.CBEXP.at c) cb).setF p (TREG.BSH.at c) (scode 6 bsh)).setF p (TREG.CBSH.at c) cbsh
    let d2 := rows.foldl (fun e row =>
      let t := e.tile (e.loc r c row)
      e.setTile (e.loc r c row) { t.next with stall := .none, mergeRst := false, bexp := 31 }) d1
    d2.colMerge r c
  else d

/-! ### Program errors (R248) -/

/-- A column stopped by a program error: HALTED with `RUN` clear, in a handover too (R248). -/
def Dev.perrColumn (d : Dev) (r c : Nat) : Dev := (d.colHalt r c).setRun r c 0

/-- `PROGRAM_ERROR`: tile `t` stands at an instruction with a reserved or illegal encoding. -/
def Dev.programError (d : Dev) (t : Nat) : Dev :=
  let x := d.site t
  let u := d.tile x.L
  let reason := instrReason (d.siteInstr x) u.pc
  if d.siteRuns x && decide (reason ≠ 0) then
    let info := wd (reason * 2 ^ 28 + u.pc * 256)
    let d1 := (d.setTile x.L { u with perr := true, perrInfo := info }).perrColumn x.r x.c
    (d1.count (tregPg x.r) TREG.PERR_CNT).raise (tregPg x.r) TREG.E_PROG_ERR info (wd x.L)
  else d

end Sys2Proof.Machine
end

