-- ==== Sys2Proof/Machine/TileReact.lean ====
section
/-! DEFINITION. Tile windows (R227 to R229) and the `TREG` pages as registers: direct writes a block refuses, what a value
that becomes live does, block reset, power states (R225), and the checker rules of chapters 7 and 8. -/

namespace Sys2Proof.Machine

/-! ### Windows -/

/-- The register number of a pointer register offset, and which of its words (0 `PTR_OFF`, 4 `PTR_CFG`, 8 `PTR_LEN`). -/
def winPtr (off : Nat) : Option (Nat × Nat) :=
  if 0x2040 ≤ off ∧ off < 0x20C0 ∧ (off - 0x2040) % 16 < 12 then some ((off - 0x2040) / 16, (off - 0x2040) % 16) else none

/-- Does the window hold something at a dword offset (R227)? -/
def winListed (off : Nat) : Bool :=
  decide (off < 0x2010) || decide (0x2020 ≤ off ∧ off < 0x2040) || (winPtr off).isSome || decide (0x20C0 ≤ off ∧ off < 0x20EC)

/-- A loop register. -/
def Loop.word (l : Loop) : Word :=
  wd ((if l.active then 2 ^ 31 else 0) + l.lc * 2 ^ 16 + l.lend * 256 + l.lstart)

/-- A pointer register. -/
def Tile.ptrWord (t : Tile) (k sub : Nat) : Word :=
  let p := t.ptr k
  let l := t.ptr (t.lead k)
  if sub = 0 then wd ((if l.mode = 1 then l.fill else l.len) * 65536 + p.off)
  else if sub = 4 then
    wd ((match p.grow with | some n => 2 ^ 31 + n * 65536 | none => 0) + (if k < 4 then 0 else p.mem * 32768) +
      p.follow * 4096 + p.base)
  else wd (p.mode * 2 ^ 28 + scode 12 p.step * 65536 + p.len)

/-- `TILE_STAT`. -/
def Tile.statWord (t : Tile) : Word :=
  wd ((if t.halt then 2 ^ 31 else 0) + (if t.perr then 2 ^ 30 else 0) + tagCode t.tag * 2 ^ 28 +
    (if t.mk1 then 2 ^ 27 else 0) + (if t.mk0 then 2 ^ 26 else 0) + t.in1.length * 2 ^ 18 + t.in0.length * 2 ^ 12 +
    t.out1.length * 64 + t.out0.length)

/-- The program-control area of the window. -/
def Tile.ctlWord (t : Tile) (off : Nat) : Word :=
  if off = 0x20C0 then wd (t.pc * 256 + t.entry)
  else if off = 0x20C4 then t.loop0.word
  else if off = 0x20C8 then t.loop1.word
  else if off = 0x20CC then t.statWord
  else if off < 0x20E0 then t.strmReg ((off - 0x20D0) / 4)
  else if off = 0x20E0 then nsWord t.ts
  else if off = 0x20E4 then secWord t.ts
  else t.perrInfo

/-- A dword of a tile's window; a poisoned row reads zero. -/
def Tile.winRead (t : Tile) (off : Nat) : Word :=
  let mem := fun m a => if t.rowPois m (a / 4) then (0 : Word) else wd (t.word m a + t.word m (a + 1) * 65536)
  if off < 0x1000 then mem 0 (off / 2)
  else if off < 0x1800 then mem 1 ((off - 0x1000) / 2)
  else if off < 0x2000 then wd (t.instr ((off - 0x1800) / 8) / (if off % 8 = 0 then 1 else 2 ^ 32))
  else if off = 0x2000 then wd t.acc
  else if off = 0x2004 then wd (t.acc / 2 ^ 32 % 256)
  else if off = 0x2008 then wd (t.acc / 2 ^ 40)
  else if off = 0x200C then t.dpStat
  else if 0x2020 ≤ off ∧ off < 0x2040 then t.tr ((off - 0x2020) / 4)
  else if 0x20C0 ≤ off ∧ off < 0x20EC then t.ctlWord off
  else match winPtr off with
    | some k => t.ptrWord k.1 k.2
    | none => 0

/-- A write holds a value outside its encoding (cause VALUE). -/
def Tile.winValueBad (t : Tile) (off : Nat) (v : Word) : Bool :=
  if off = 0x200C then decide (bitsOf v 19 16 = 8)
  else if 0x20D0 ≤ off ∧ off < 0x20E0 then decide (63 < bitsOf v 21 16 + bitsOf v 29 24)
  else match winPtr off with
    | some (k, 0) =>
      let l := t.ptr (t.lead k)
      decide (l.mode ≠ 0 ∧ l.len ≤ bitsOf v 10 0)
    | some (_, 4) => decide (4 < bitsOf v 14 12)
    | some (_, 8) => decide (bitsOf v 29 28 = 3 ∨ bitsOf v 11 0 = 0 ∨ 2048 < bitsOf v 11 0)
    | _ => false

/-- A pointer with the `MODE` and `MOD` of a `PTR_LEN` write. -/
def Ptr.remode (p : Ptr) (v : Word) : Ptr :=
  let m := bitsOf v 29 28
  { p with mode := m, step := sext 12 (bitsOf v 27 16), fill := if m = 1 ∧ p.mode ≠ 1 then p.len else p.fill }

/-- The reason the length request of a `PTR_LEN` write is refused; 0 when it is none or is accepted. -/
def Tile.winLenReason (t : Tile) (k : Nat) (v : Word) : Nat :=
  if bitsOf v 11 0 = (t.ptr k).len then 0 else (t.setPtr k ((t.ptr k).remode v)).lenReason k (bitsOf v 11 0)

/-- A write is refused with cause BLOCK (R209, R214, R229); `busy` when the column is RUNNING or MOVING. Of `DP_STAT` such a
column takes writes that clear sticky flags. -/
def Tile.winBlocked (t : Tile) (off : Nat) (v : Word) (busy : Bool) : Bool :=
  let free := decide (off < 0x1800) || (decide (off = 0x200C) && (bitAt v 31 || bitAt v 30 || bitAt v 29))
  match winPtr off with
  | some (k, 4) =>
    let f := bitsOf v 14 12
    busy || (decide (f ≠ 0) && (decide (f - 1 = k % 4) || decide ((t.ptr (k / 4 * 4 + (f - 1))).follow ≠ 0)))
  | some (k, 8) =>
    let p := t.ptr k
    let same := decide ((p.remode v).mode = p.mode ∧ (p.remode v).step = p.step)
    (busy && (!same || decide (p.follow ≠ 0))) || decide (t.winLenReason k v ≠ 0)
  | _ => busy && !free

/-- `DP_STAT` is written: sticky flags clear; `EXC` and `BEXP` change in a HALTED column only. -/
def TW.writeDpStat (x : TW) (v : Word) (busy : Bool) : TW :=
  let t1 := { x.t with sat := x.t.sat && !(bitAt v 31), poison := x.t.poison && !(bitAt v 30), unwr := x.t.unwr && !(bitAt v 29) }
  if busy then { x with t := t1 }
  else
    let e := sext 4 (bitsOf v 19 16)
    let hit := excStuck e && !(excStuck x.t.exc)
    { t := { t1 with exc := e, bexp := bitsOf v 4 0 }, fx := if hit then { x.fx with stuck := x.fx.stuck + 1 } else x.fx }

/-- A pointer register is written. -/
def TW.writePtr (x : TW) (k sub : Nat) (v : Word) : TW :=
  let p := x.t.ptr k
  if sub = 0 then { x with t := x.t.setPtr k { p with off := bitsOf v 10 0 } }
  else if sub = 4 then
    { x with t := x.t.setPtr k { p with mem := if k < 4 then 0 else bitsOf v 15 15, follow := bitsOf v 14 12, base := bitsOf v 10 0 } }
  else
    let y : TW := { x with t := x.t.setPtr k (p.remode v) }
    if bitsOf v 11 0 = p.len then y else y.lenAct k (bitsOf v 11 0)

/-- A dword of the window is written. -/
def TW.winWrite (x : TW) (off : Nat) (v : Word) (busy : Bool) (e : EccEvent) : TW :=
  let n := v.toNat
  if off < 0x1000 then x.writeWords 0 (off / 2) 2 n e
  else if off < 0x1800 then x.writeWords 1 ((off - 0x1000) / 2) 2 n e
  else if off < 0x2000 then
    let j := (off - 0x1800) / 8
    let w := x.t.instr j
    let w' := if off % 8 = 0 then w / 2 ^ 32 * 2 ^ 32 + n else n * 2 ^ 32 + w % 2 ^ 32
    { x with t := { x.t with imem := Tab.put x.t.imem j w' 0 } }
  else if off = 0x2000 then { x with t := { x.t with acc := x.t.acc / 2 ^ 32 * 2 ^ 32 + n } }
  else if off = 0x2004 then { x with t := { x.t with acc := x.t.acc / 2 ^ 40 * 2 ^ 40 + n % 256 * 2 ^ 32 + x.t.acc % 2 ^ 32 } }
  else if off = 0x2008 then { x with t := { x.t with acc := n * 2 ^ 40 + x.t.acc % 2 ^ 40 } }
  else if off = 0x200C then x.writeDpStat v busy
  else if 0x2020 ≤ off ∧ off < 0x2040 then { x with t := x.t.setTr ((off - 0x2020) / 4) v }
  else if off = 0x20C0 then { x with t := { x.t with entry := n % 256 } }
  else if 0x20D0 ≤ off ∧ off < 0x20E0 then
    let i := (off - 0x20D0) / 4
    let t1 := { x.t with strm := Tab.put x.t.strm i (v &&& 0xBF3F3FFF) 0 }
    { x with t := if i = 2 then { t1 with rot0 := 0 } else if i = 3 then { t1 with rot1 := 0 } else t1 }
  else match winPtr off with
    | some k => x.writePtr k.1 k.2 v
    | none => x

/-- Record a refused window write (R229). -/
def Dev.winRefuse (d : Dev) (src : Source) (r c row off cause : Nat) (v : Word) : Dev :=
  let p := tregPg r
  (d.setReg p TREG.TW_REFUSE (wd (cause * 2 ^ 28 + c * 2 ^ 18 + row * 2 ^ 14 + off))).refuse src p 0xFFF cause v

/-- The refusal cause of a window write: owner, lock, power, value, block (R32, R34, R23, R229, R553). `bind` says whether
the causeway refuses a stream binding (R276). -/
def Dev.winCause (d : Dev) (src : Source) (t off : Nat) (v : Word) (bind : Bool) : Option Nat :=
  let r := t / 256
  let c := t % 256 / 16
  let p := tregPg r
  let u := d.tile (d.loc r c (t % 16))
  if d.ownerOk src p = false then some cOWNER
  else if d.flag p HDR.LOCKED then some cLOCKED
  else if 2 ≤ d.pwrState p then some cPOWER
  else if u.winValueBad off v then some cVALUE
  else if u.winBlocked off v (d.colBusy r c) || bind then some cBLOCK else none

/-- A refused length request also raises `DESC_ERR` (R214). -/
def Dev.winDescErr (d : Dev) (r L off : Nat) (v : Word) : Dev :=
  match winPtr off with
  | some (k, 8) =>
    let reason := (d.tile L).winLenReason k v
    if reason = 0 then d else d.descErr r L k (bitsOf v 11 0) reason
  | _ => d

/-- An accepted window write. In a running column a `PTR_LEN` write is a request; a write to a memory of a source tile of a
move is made in the destination tile too, in Drain as before it (R263). -/
def Dev.winStore (d : Dev) (r c row off : Nat) (v : Word) (e : EccEvent) : Dev :=
  let busy := d.colBusy r c
  let L := d.loc r c row
  let req := match winPtr off with | some (k, 8) => if busy then some k else none | _ => none
  match req with
  | some k => if bitsOf v 11 0 = ((d.tile L).ptr k).len then d else d.lenRequest r c row k (bitsOf v 11 0)
  | none =>
    let d1 := d.tileDone r L ((TW.mk (d.tile L) TileFx.none).winWrite off v busy e)
    match d1.srcMove r c with
    | some m =>
      if off < 0x1800 then
        let L2 := d1.loc m.dreg (m.dcol + (c - m.src)) row
        d1.tileDone m.dreg L2 ((TW.mk (d1.tile L2) TileFx.none).winWrite off v busy .clean)
      else d1
    | none => d1

/-- `TILE_WINDOW_WRITE`. A window access wakes a dozing clock for the access alone (R224). -/
def Dev.winAccess (d : Dev) (src : Source) (t off : Nat) (v : Word) (e : EccEvent) (bind : Bool) : Dev :=
  let r := t / 256
  let c := t % 256 / 16
  let row := t % 16
  if winListed off = false then d
  else
    match d.winCause src t off v bind with
    | some cause =>
      let d1 := if cause = cBLOCK then d.winDescErr r (d.loc r c row) off v else d
      d1.winRefuse src r c row off cause v
    | none => d.winStore r c row off v e

/-- A dword of the window of tile `t`; in DARK it reads zero. -/
def Dev.winLoad (d : Dev) (t off : Nat) : Word :=
  let r := t / 256
  if d.pwrState (tregPg r) = 3 then 0 else (d.tile (d.loc r (t % 256 / 16) (t % 16))).winRead off

/-- A read of the window meets a poisoned row of the data or coefficient memory: it delivers zero with `POISON` (R217). -/
def Tile.winMeets (t : Tile) (off : Nat) : Bool :=
  (decide (off < 0x1000) && t.rowPois 0 (off / 8)) || (decide (0x1000 ≤ off ∧ off < 0x1800) && t.rowPois 1 ((off - 0x1000) / 8))

/-- What a window read at offset `off` does to the tile at location `L`. -/
def Dev.winTouch (d : Dev) (L off : Nat) : Dev :=
  if (d.tile L).winMeets off then d.setTile L { d.tile L with poison := true } else d

/-- What a read of a dword of the window of tile `t` does (R217). -/
def Dev.winReads (d : Dev) (t off : Nat) : Dev :=
  let r := t / 256
  if d.pwrState (tregPg r) = 3 then d else d.winTouch (d.loc r (t % 256 / 16) (t % 16)) off

/-! ### `TREG` registers -/

/-- The location code the spare registers address. -/
def Dev.spareLoc (d : Dev) (r : Nat) : Nat := locCode r 16 (d.fld (tregPg r) TREG.ROW)

/-- The column or entry an array register at `off` belongs to. -/
def arrIdx (f : Fld) (off : Nat) : Nat := (off - f.off) / f.stride

/-- Is `off` an element of the register array of a field with `n` entries? -/
def inArr (f : Fld) (n off : Nat) : Bool :=
  decide (f.off ≤ off ∧ off < f.off + f.stride * n) && decide ((off - f.off) % f.stride = 0)

/-- The tile, pointer and length a `LEN_CHG` entry asks for: column, row, pointer, length. -/
def Dev.lenEntry (d : Dev) (r i : Nat) (w : Word) : Nat × Nat × Nat × Nat :=
  (bitsOf w 15 12, bitsOf w 11 8, bitsOf w 2 0, d.fld (tregPg r) (TREG.LEN.at i))

/-- The reason a `LEN_CHG` entry is refused, 0 when it is not. -/
def Dev.lenEntryReason (d : Dev) (r i : Nat) (w : Word) : Nat :=
  let e := d.lenEntry r i w
  (d.tile (d.loc r e.1 e.2.1)).lenReason e.2.2.1 e.2.2.2

/-- A column of the region is RUNNING or MOVING. -/
def Dev.regBusy (d : Dev) (r : Nat) : Bool := anyIf 16 fun c => d.colBusy r c

/-- Legal values the field table does not hold. -/
def Dev.tregValueBad (d : Dev) (r off : Nat) (new : Word) : Bool :=
  if off = TREG.SPARE_ADDR.off then decide (bitsOf new 1 0 ≠ 0)
  else if off = TREG.SPARE_DATA.off then
    (d.tile (d.spareLoc r)).winValueBad (d.fld (tregPg r) TREG.SPARE_ADDR_OFFSET) new
  else false

/-- A direct write is refused with cause BLOCK (R214, R226, R229, R256). -/
def Dev.tregBlocked (d : Dev) (src : Source) (r off : Nat) (old new : Word) : Bool :=
  let p := tregPg r
  if off = HDR.PAGE_CTL.off then decide (2 ≤ fieldOf HDR.PWR_REQ new) && d.regBusy r
  else if inArr TREG.VALID 16 off then
    decide (fieldOf TREG.VALID new = 1) && decide (d.lenEntryReason r (arrIdx TREG.VALID off) new ≠ 0)
  else if off = TREG.SPARE_DATA.off then
    decide (d.fld p TREG.SPARE_STATE = 1) || (d.tile (d.spareLoc r)).winBlocked (d.fld p TREG.SPARE_ADDR_OFFSET) new false
  else if off = TREG.MOVE_CTL.off then
    decide (fieldOf TREG.GO new = 1 ∧ fieldOf TREG.GO old = 0) && d.moveRefused src r new
  else if inArr TREG.LAT 16 off then d.colBusy r (arrIdx TREG.LAT off)
  else false

/-- What a refusal with cause BLOCK raises beside itself. -/
def Dev.tregBlockNote (d : Dev) (r off : Nat) (new : Word) : Dev :=
  if inArr TREG.VALID 16 off then
    let e := d.lenEntry r (arrIdx TREG.VALID off) new
    d.descErr r (d.loc r e.1 e.2.1) e.2.2.1 e.2.2.2 (d.lenEntryReason r (arrIdx TREG.VALID off) new)
  else d

/-- `COL_CTL` has become live (R230); `RUN` is ignored while the column is FAILED or MOVING. -/
def Dev.colCtl (d : Dev) (r c : Nat) (old new : Word) : Dev :=
  let st := d.colSt r c
  let was := fieldOf TREG.RUN old
  let runs := fieldOf TREG.RUN new
  if 2 ≤ st then d.setRun r c was
  else if was = 0 ∧ runs = 1 ∧ st = 0 then d.colStart r c
  else if was = 1 ∧ runs = 0 ∧ st = 1 then d.colHalt r c else d

/-- A `LEN_CHG` entry acts (R231): `VALID` clears in both halves. -/
def Dev.lenChg (d : Dev) (r i : Nat) (new : Word) : Dev :=
  let e := d.lenEntry r i new
  let p := tregPg r
  let d1 := (d.setF p (TREG.VALID.at i) 0).setF p (TREG.VALID.at i).staged 0
  d1.lenRequest r e.1 e.2.1 e.2.2.1 e.2.2.2

/-- `MOVE_CTL` has been written. -/
def Dev.moveCtl (d : Dev) (r : Nat) (old new : Word) : Dev :=
  let d1 := if fieldOf TREG.GO new = 1 ∧ fieldOf TREG.GO old = 0 then d.moveGo r else d
  if fieldOf TREG.ABORT new = 1 then d1.moveCancel r else d1

/-- A register of a `TREG` page has become live. -/
def Dev.tregLive (d : Dev) (r off : Nat) (old new : Word) : Dev :=
  let p := tregPg r
  if inArr TREG.RUN 16 off then d.colCtl r (arrIdx TREG.RUN off) old new
  else if inArr TREG.VALID 16 off then
    if fieldOf TREG.VALID new = 1 then d.lenChg r (arrIdx TREG.VALID off) new else d
  else if off = TREG.SPARE_DATA.off then
    let L := d.spareLoc r
    (d.put (p + off) 0).tileDone r L ((TW.mk (d.tile L) TileFx.none).winWrite (d.fld p TREG.SPARE_ADDR_OFFSET) new false .clean)
  else if off = TREG.REG_CFG.off then (if fieldOf TREG.AUTODOZE_EN new = 0 then d.clockRuns r else d)
  else if off = TREG.MOVE_CTL.off then d.moveCtl r old new
  else d

/-- Registers of a `TREG` page computed from the tiles. -/
def Dev.tregView (d : Dev) (r off : Nat) (w : Word) : Word :=
  if off = TREG.SPARE_DATA.off then (d.tile (d.spareLoc r)).winRead (d.fld (tregPg r) TREG.SPARE_ADDR_OFFSET) else w

/-- Moves that hold a column of region `r` end: before Switch with outcome 5, later by completing. Their slots stay as they are
(R51). -/
def Dev.movesLeave (d : Dev) (r : Nat) : Dev :=
  d.ti.moves.foldl (fun (e : Dev) x =>
    if x.1 = r ∨ x.2.dreg = r then
      (if x.2.phase ≤ 4 then (e.jobLeave (.move x.1)).moveAbort x.1 5 else e.moveFinish x.1)
    else e) d

/-- The slots held for the repairs of a region's columns stay as they are when its page is reset (R51). -/
def Dev.repairsLeave (d : Dev) (r : Nat) : Dev := (List.range 16).foldl (fun (e : Dev) c => e.jobLeave (.colRepair (r * 16 + c))) d

/-- Columns of region `r` return HALTED, with `failed` the FAILED ones too; repairs are given up. -/
def Dev.colsHalt (d : Dev) (r : Nat) (failed : Bool) : Dev :=
  (List.range 16).foldl (fun e c =>
    let e1 := e.colRepairLost r c 0
    if e1.colSt r c = 2 ∧ failed = false then e1 else e1.colHalt r c) d

/-- Block reset of a `TREG` page: moves and repairs end, columns halt; the column mapping and failures stay. -/
def Dev.tregReset (d : Dev) (r : Nat) : Dev :=
  let p := tregPg r
  let d1 := ((d.movesLeave r).repairsLeave r).colsHalt r false
  let keep := fun off => decide (off = 0x44 ∨ (0xC0 ≤ off ∧ off < 0x100))
  let d2 := (d1.resetPage p keep).setF p TREG.DOZING 0
  (List.range 16).foldl (fun e c => ((e.setF p (TREG.BSH.at c) 0).setF p (TREG.CBEXP.at c) 31).setF p (TREG.MERGE_WAIT.at c) 0) d2

/-- What a tile loses in LULL (R225). -/
def Tile.lull (t : Tile) : Tile :=
  { t with acc := 0, exc := 0, treg := [], bexp := 0, sat := false, poison := false, unwr := false, mk0 := false, mk1 := false,
           halt := false, perr := false, loop0 := Loop.init, loop1 := Loop.init, pc := 0, tag := .fine, in0 := [], in1 := [],
           out0 := [], out1 := [], stall := .none }

/-- A region enters a power state (R225): DOZE stops its clock, LULL and DARK lose tile state. LULL returns every logical column
HALTED, a FAILED one too. -/
def Dev.tregPower (d : Dev) (r st : Nat) : Dev :=
  let p := tregPg r
  let all := fun (e : Dev) (f : Tile → Tile) => (List.range 17).foldl (fun e ph => e.mapCol r ph f) e
  if st = 1 then d.setF p TREG.DOZING 1
  else if st = 2 then all (d.colsHalt r true) Tile.lull
  else if st = 3 then all (d.colsHalt r false) fun _ => Tile.init
  else d.setF p TREG.DOZING 0

/-! ### Checker rules (R232, R265) -/

/-- The staged `LEN_CHG` entries with `VALID` = 1: index, word, length. -/
def View.lenEntries (v : View) (r : Nat) : List (Nat × Word × Nat) :=
  ((List.range 16).filter fun i => v.flag (tregPg r) (TREG.VALID.at i)).map fun i =>
    (i, v.raw (tregPg r + (TREG.VALID.at i).off), v.fld (tregPg r) (TREG.LEN.at i))

/-- The tile a staged entry names. -/
def View.entryTile (v : View) (r : Nat) (e : Nat × Word × Nat) : Tile :=
  v.d.tile (v.d.loc r (bitsOf e.2.1 15 12) (bitsOf e.2.1 11 8))

/-- CK-2001 on one entry: `LEN` 0, a live follower, or beyond its memory. -/
def View.entryBad (v : View) (r : Nat) (e : Nat × Word × Nat) : Bool :=
  let t := v.entryTile r e
  let k := bitsOf e.2.1 2 0
  decide (e.2.2 = 0 ∨ (t.ptr k).follow ≠ 0) || t.lenBeyond k e.2.2

/-- CK-2002 on one entry: growth of a MODULO leader without `MOD` +1, or a BITREV length that is no power of two. -/
def View.entryStep (v : View) (r : Nat) (e : Nat × Word × Nat) : Bool :=
  let t := v.entryTile r e
  let k := bitsOf e.2.1 2 0
  decide ((t.ptr k).follow = 0) && (t.lenStep k e.2.2 || t.lenOdd k e.2.2)

/-- Two entries name one pointer. -/
def samePtr (a b : Nat × Word × Nat) : Bool :=
  decide (a.1 ≠ b.1 ∧ bitsOf a.2.1 15 8 = bitsOf b.2.1 15 8 ∧ bitsOf a.2.1 2 0 = bitsOf b.2.1 2 0)

/-- *Tile region checker rules* and CK-2010. -/
def View.tregRules (v : View) (r : Nat) : List Viol :=
  let p := tregPg r
  let es := v.lenEntries r
  if v.has p = false then []
  else
    viol (es.any fun e => v.entryBad r e || es.any (samePtr e)) p 0x2001 ++
    viol (es.any fun e => v.entryStep r e) p 0x2002 ++
    viol (decide (2 ≤ v.fld p HDR.PWR_REQ) && (v.d.regBusy r || anyIf 16 fun c => v.flag p (TREG.RUN.at c))) p 0x2003 ++
    viol (anyIf 16 fun c => decide (2 ≤ v.d.colSt r c ∧ v.fld p (TREG.RUN.at c) ≠ v.d.fld p (TREG.RUN.at c))) p 0x2010

end Sys2Proof.Machine
end

