-- ==== Sys2Proof/Machine/Causeway.lean ====
section
/-! DEFINITION. Flows and bindings on the causeway (R268 to R279, R298): route records, who produces and consumes a flow, the
trees of its flits over the mesh, admission of class A, and the tests a binding must pass (R276). All of it is read through
a `View`, so that the checker and direct writes share it. -/

namespace Sys2Proof.Machine

/-- The `CWAY` page. -/
def cwPg : Nat := pg .cway 0

/-! ### Route records -/

/-- The route record a flow has after reset (R278). -/
def routeReset (f : Nat) : Word := if f < 144 then 0x8005DC00 else 0

/-- The route record of a flow, in the layout of `FLOW_ROUTE`. -/
def Dev.route (d : Dev) (f : Nat) : Word := (Tab.get d.cw.route f).getD (routeReset f)

/-- Store a route record. -/
def Dev.setRoute (d : Dev) (f : Nat) (w : Word) : Dev :=
  { d with cw := { d.cw with route := Tab.put d.cw.route f w (routeReset f) } }

/-- A flow may be bound. -/
def Dev.routeOk (d : Dev) (f : Nat) : Bool := decide (fieldOf CWAY.VALID (d.route f) = 1)

/-- The class of a flow: 0 A, 1 V, 2 C, 3 B. -/
def Dev.flowClass (d : Dev) (f : Nat) : Nat := fieldOf CWAY.CLASS (d.route f)

/-- The channel count of a flow. -/
def Dev.flowCh (d : Dev) (f : Nat) : Nat := fieldOf CWAY.NCH_M1 (d.route f) + 1

/-- Timestamps per second of a flow. -/
def Dev.flowRate (d : Dev) (f : Nat) : Nat := fieldOf CWAY.RATE (d.route f)

/-! ### Endpoints (R271) -/

/-- The router an endpoint is attached to. AES3 blocks (codes 0xE000 up, the model's own) have none in the table. -/
def Dev.epRouter (d : Dev) (ep : Nat) : Option Nat :=
  let k := ep / 8192
  let i := ep % 8192
  if k = 0 then
    let t := i / 2
    some (4 * (t / 256) + Nat.min 3 (d.phys (t / 256) (t % 256 / 16) / 4))
  else if k = 1 then (if i < 256 then some (2 * (i / 8)) else if i < 264 then some 27 else some 36)
  else if k = 2 then some (2 * i + 1)
  else if k = 3 then some (8 * i + 7)
  else if k = 4 then some (16 * i)
  else if k = 5 then some 56
  else if k = 6 then some 35
  else none

/-- The endpoint code of port `p` of region `n` (32 K0, 33 K1). -/
def fportEp (n p : Nat) : Nat := if n < 32 then 8192 + 8 * n + p else 8192 + 256 + 8 * (n - 32) + p

/-- The page of region `n` (32 K0, 33 K1). -/
def regionPg (n : Nat) : Nat := if n < 32 then pg .freg n else pg .keep (n - 32)

/-- The endpoint code of an AES3 block: the table gives it none; the model's own. -/
def aesEp (n : Nat) : Nat := 0xE000 + n

/-! ### Bindings (R276) -/

/-- A binding: the page that holds it, its endpoint, which of several bindings at one endpoint it is, producer or consumer,
flow, first channel, channels. -/
structure Binding where
  page : Nat
  ep : Nat
  sub : Nat
  prod : Bool
  flow : Nat
  ch : Nat
  n : Nat
  deriving DecidableEq, Repr

/-- `b` when a condition holds. -/
def bindIf (c : Bool) (b : Binding) : List Binding := if c then [b] else []

/-- Bindings of the ports of one tile. -/
def tileBinds (t : Tile) (n : Nat) : List Binding :=
  (List.range 4).flatMap fun i =>
    let w := t.strmReg i
    bindIf (bitAt w 31) ⟨tregPg (n / 256), 2 * n + i % 2, i, decide (2 ≤ i), bitsOf w 13 0, bitsOf w 21 16, bitsOf w 29 24 + 1⟩

/-- The logical tile that a location serves. -/
def Dev.logical (d : Dev) (L : Nat) : Option Nat :=
  ((List.range 16).find? fun c => decide (d.phys (L / 512) c = L / 16 % 32)).map fun c => L / 512 * 256 + c * 16 + L % 16

/-- Bindings of the tiles of a region. -/
def Dev.tregBinds (d : Dev) (r : Nat) : List Binding :=
  d.ti.tiles.flatMap fun e =>
    if e.1 / 512 = r then (match d.logical e.1 with | some n => tileBinds e.2 n | none => []) else []

/-- An output port consumes while `DIR` = 1 or its mode is LOOP. -/
def View.portConsumes (v : View) (i : Nat) : Bool :=
  v.flag (portPg i) PORT.DIR || decide (v.fld (portPg i) PORT.IN_MODE = 5)

/-- The binding of an output port. -/
def View.portBinds (v : View) (i : Nat) : List Binding :=
  let q := portPg i
  bindIf (v.portConsumes i) ⟨q, bridgeEp i, i, false, v.fld q PORT.SRC_FLOW, v.fld q PORT.SRC_CH, 1⟩

/-- The bindings of the input ports, held by `CWAY` (R278). -/
def View.cwayBinds (v : View) : List Binding :=
  (List.range 144).map fun i =>
    ⟨cwPg, bridgeEp i, i, true, v.fld cwPg (CWAY.PORT_FLOW_FLOW.at i), v.fld cwPg (CWAY.CH.at i), 1⟩

/-- The binding of a frame port. -/
def View.fmemBinds (v : View) (b : Nat) : List Binding :=
  let p := pg .fmem b
  bindIf (v.flag p FMEM.EN) ⟨p, 2 * 8192 + b, 0, v.flag p FMEM.DIR, v.fld p FMEM.FLOW, v.fld p FMEM.CH, v.fld p FMEM.NCH_M1 + 1⟩

/-- The words a region's stream-out ports produce do not reach the causeway: it is the new region of a handover before the
switch, or the old one after it (R404). -/
def Dev.outWithheld (d : Dev) (n : Nat) : Bool :=
  match d.ld.ho with
  | some h => h.pairs.any fun x => if h.switched then decide (x.1 = n) else decide (x.2 = n)
  | none => false

/-- The bindings of the causeway ports of a region (R362). -/
def View.regionBinds (v : View) (n : Nat) : List Binding :=
  let p := regionPg n
  (List.range 8).flatMap fun i =>
    bindIf (v.flag p (FREG.FPORT_CFG_EN.at i) && decide (v.fld p (FREG.MODE.at i) < 2) &&
        !(decide (v.fld p (FREG.MODE.at i) = 1) && v.d.outWithheld n))
      ⟨p, fportEp n i, i, decide (v.fld p (FREG.MODE.at i) = 1), v.fld p (FREG.FLOW.at i), v.fld p (FREG.CH.at i),
        v.fld p (FREG.NCH_M1.at i) + 1⟩

/-- The binding of an AES3 block (R430, R431). -/
def View.aesBinds (v : View) (n : Nat) : List Binding :=
  let p := pg .aes3 n
  bindIf (v.flag p HDR.ENABLE) ⟨p, aesEp n, 0, !(v.flag p AES3.DIR), v.fld p AES3.FLOW, v.fld p AES3.CH, 2⟩

/-- A flow-table word. -/
def Dev.ftWord (d : Dev) (f w : Nat) : Word := (Tab.get d.md.ft (f * 16 + w)).getD 0

/-- Channels of a flow-table entry: those of types 2 and 3, one for the others. -/
def Dev.ftCh (d : Dev) (f : Nat) : Nat :=
  let ty := bitsOf (d.ftWord f 0) 29 27
  if ty = 2 ∨ ty = 3 then bitsOf (d.ftWord f 9) 29 24 + 1 else 1

/-- The binding of a valid flow-table entry: a receive entry produces, a transmit entry consumes. -/
def Dev.ftBind (d : Dev) (f : Nat) : List Binding :=
  let w := d.ftWord f 0
  let m := bitsOf w 26 24
  bindIf (bitAt w 31) ⟨pg .media m, 3 * 8192 + m, f, !(bitAt w 30), f, 0, d.ftCh f⟩

/-- The flows whose flow-table entries are not all zero in word 0. -/
def Dev.ftFlows (d : Dev) : List Nat := (d.md.ft.filter fun e => decide (e.1 % 16 = 0)).map fun e => e.1 / 16

/-- Every binding in the view. -/
def View.bindings (v : View) : List Binding :=
  (List.range 16).flatMap (fun r => v.d.tregBinds r) ++ (List.range 144).flatMap (fun i => v.portBinds i) ++ v.cwayBinds ++
    (List.range 32).flatMap (fun b => v.fmemBinds b) ++ (List.range 34).flatMap (fun n => v.regionBinds n) ++
    (List.range 32).flatMap (fun n => v.aesBinds n) ++ v.d.ftFlows.flatMap fun f => v.d.ftBind f

/-- The bindings a page holds. -/
def View.pageBinds (v : View) (p : Nat) : List Binding :=
  match pageAt p with
  | some (.port, i) => v.portBinds i
  | some (.cway, _) => v.cwayBinds
  | some (.fmem, b) => v.fmemBinds b
  | some (.freg, n) => v.regionBinds n
  | some (.keep, k) => v.regionBinds (32 + k)
  | some (.aes3, n) => v.aesBinds n
  | _ => []

/-- Remove repeats. -/
def dedup (l : List Nat) : List Nat := l.foldl (fun s x => if s.contains x then s else s ++ [x]) []

/-- Producer endpoints of a flow, each with its channel count (R274). -/
def producersOf (bs : List Binding) (f : Nat) : List (Nat × Nat) :=
  let ps := bs.filter fun b => b.prod && decide (b.flow = f)
  (dedup (ps.map (·.ep))).map fun e => (e, (ps.filter fun b => decide (b.ep = e)).foldl (fun s b => s + b.n) 0)

/-- Consumer endpoints of a flow. -/
def consumersOf (bs : List Binding) (f : Nat) : List Nat :=
  dedup ((bs.filter fun b => !b.prod && decide (b.flow = f)).map (·.ep))

/-! ### Trees and loads (R268, R269, R279): a link is router × 8 + 0 N, 1 E, 2 S, 3 W, 4 local -/

/-- The links from router `a` to router `b`, along x first, then along y. -/
def xyLinks (a b : Nat) : List Nat :=
  let ax := a % 8
  let ay := a / 8
  let bx := b % 8
  let bY := b / 8
  let xs := if ax ≤ bx then (List.range (bx - ax)).map fun i => (ay * 8 + ax + i) * 8 + 1
    else (List.range (ax - bx)).map fun i => (ay * 8 + (ax - i)) * 8 + 3
  let ys := if ay ≤ bY then (List.range (bY - ay)).map fun i => ((ay + i) * 8 + bx) * 8 + 2
    else (List.range (ay - bY)).map fun i => ((ay - i) * 8 + bx) * 8
  xs ++ ys ++ [b * 8 + 4]

/-- The links of the tree of one producer to its consumers: each carries a flit once. -/
def Dev.treeLinks (d : Dev) (prod : Nat) (cons : List Nat) : List Nat :=
  match d.epRouter prod with
  | none => []
  | some a => dedup (cons.flatMap fun c => match d.epRouter c with | some b => xyLinks a b | none => [])

/-- The class A load of a flow in bit/s by link: one entry per producer and link (R279), and the forwarding of path B of a
dual receive entry to its home engine (R336). -/
def Dev.flowLoads (d : Dev) (bs : List Binding) (f : Nat) : List (Nat × Nat) :=
  if d.flowClass f ≠ 0 then []
  else
    let cons := consumersOf bs f
    let bps := fun c => (c + 12) / 13 * 512 * d.flowRate f
    let w := d.ftWord f 0
    let home := bitsOf w 26 24
    let other := bitsOf (d.ftWord f 1) 21 16 / 8
    let fwd := if bitAt w 31 && bitAt w 21 && !(bitAt w 30) && decide (other ≠ home) then
        (d.treeLinks (3 * 8192 + other) [3 * 8192 + home]).map fun l => (l, bps (d.ftCh f)) else []
    (producersOf bs f).flatMap (fun e => (d.treeLinks e.1 cons).map fun l => (l, bps e.2)) ++ fwd

/-- The flows named by bindings. -/
def boundFlows (bs : List Binding) : List Nat := dedup (bs.map (·.flow))

/-- Every class A load entry. -/
def View.loads (v : View) : List (Nat × Nat) :=
  let bs := v.bindings
  (boundFlows bs).flatMap fun f => v.d.flowLoads bs f

/-- Load of one link in bit/s. -/
def linkLoad (ls : List (Nat × Nat)) (l : Nat) : Nat := ls.foldl (fun s e => if e.1 = l then s + e.2 else s) 0

/-- The class A reservation of a link: 76.8 Gbit/s. -/
def linkLimit : Nat := 76800000000

/-! ### Tests of a binding (R276) -/

/-- The flow may not be bound, or a channel lies at or beyond its count. -/
def Dev.bindInvalid (d : Dev) (b : Binding) : Bool := !(d.routeOk b.flow) || decide (d.flowCh b.flow < b.ch + b.n)

/-- A channel has another producer, or the flow more than 64 consumers. -/
def bindClash (bs : List Binding) (b : Binding) : Bool :=
  if b.prod then bs.any fun x => x.prod && decide (x.flow = b.flow ∧ x.ch < b.ch + b.n ∧ b.ch < x.ch + x.n ∧ x ≠ b)
  else decide (64 < (consumersOf bs b.flow).length)

/-- A link of the binding's flow would carry more class A load than its reservation. -/
def Dev.bindOver (d : Dev) (bs : List Binding) (ls : List (Nat × Nat)) (b : Binding) : Bool :=
  (d.flowLoads bs b.flow).any fun e => decide (linkLimit < linkLoad ls e.1)

/-- An AES3 block's flow must be class A at its generator's rate × 2^`MULT` (R431). -/
def View.aesBad (v : View) (b : Binding) : Bool :=
  let p := b.page
  let m := v.fld p AES3.MCG
  decide (0xE000 ≤ b.ep) && !(decide (v.d.flowClass b.flow = 0) &&
    decide (v.d.flowRate b.flow = baseRate (v.fld (pg .mcg m) MCG.FAMILY) * 2 ^ v.fld p AES3.MULT))

/-- A binding in the view meets a condition of R276. -/
def View.bindBad (v : View) (b : Binding) : Bool :=
  v.d.bindInvalid b || v.aesBad b || bindClash v.bindings b || v.d.bindOver v.bindings v.loads b

/-- A direct write of `new` at address `a` makes a binding that R276 refuses. -/
def Dev.bindRefused (d : Dev) (a : Nat) (new : Word) : Bool :=
  let p := pageBase a
  let old := (View.mk d []).pageBinds p
  let v : View := ⟨d.put a new, []⟩
  (v.pageBinds p).any fun b => !(old.contains b) && v.bindBad b

/-- A write of a tile's stream register makes a binding that R276 refuses. -/
def Dev.strmRefused (d : Dev) (t i : Nat) (new : Word) : Bool :=
  let L := d.loc (t / 256) (t % 256 / 16) (t % 16)
  let d1 := d.setTile L { d.tile L with strm := Tab.put (d.tile L).strm i new 0 }
  let v : View := ⟨d1, []⟩
  ((tileBinds (d1.tile L) t).filter fun b => decide (b.sub = i)).any fun b => !((tileBinds (d.tile L) t).contains b) && v.bindBad b

/-- The staged bindings of a page that may not be made at the apply of the pages in the view (R276). -/
def View.badBinds (v : View) (p : Nat) : List Binding :=
  let old := (View.mk v.d []).pageBinds p
  (v.pageBinds p).filter fun b => !(old.contains b) && v.bindBad b

/-! ### `CWAY` and router registers -/

/-- A flow has a bound producer or consumer. -/
def Dev.flowBound (d : Dev) (f : Nat) : Bool := (View.mk d []).bindings.any fun b => decide (b.flow = f)

/-- A direct write to `CWAY` is refused with cause BLOCK (R298). -/
def Dev.cwayBlocked (d : Dev) (off : Nat) (new : Word) : Bool :=
  if off = CWAY.FLOW_ROUTE.off then
    let f := d.fld cwPg CWAY.FLOW_SEL_FLOW
    decide (new &&& 0xFF8FFFFF ≠ d.route f) && d.flowBound f
  else false

/-- The earliest word of a port whose flow binding has changed (R278). -/
def Dev.portFlowLive (d : Dev) (i : Nat) (via : Via) (old : Word) : Dev :=
  d.setPort i { d.port i with flowOld := some (fieldOf CWAY.PORT_FLOW_FLOW old, fieldOf CWAY.CH old, via.instant.getD d.now) }

/-- A register of `CWAY` has become live. -/
def Dev.cwayLive (d : Dev) (off : Nat) (via : Via) (old new : Word) : Dev :=
  if off = CWAY.FLOW_ROUTE.off then
    (d.setRoute (d.fld cwPg CWAY.FLOW_SEL_FLOW) (new &&& 0xFF8FFFFF)).put (cwPg + off) 0
  else if inArr CWAY.PORT_FLOW 144 off then
    if old = new then d else d.portFlowLive (arrIdx CWAY.PORT_FLOW off) via old
  else d

/-- Block reset of `CWAY`: route records return to their reset values. -/
def Dev.cwayReset (d : Dev) : Dev :=
  let d1 := d.resetPage cwPg (fun _ => false)
  { d1 with cw := { d1.cw with route := [] } }

/-- `FLOW_USE` of a flow. -/
def Dev.flowUse (d : Dev) (f : Nat) : Word :=
  let bs := (View.mk d []).bindings
  let ls := d.flowLoads bs f
  let busiest := ls.foldl (fun m e => Nat.max m (linkLoad ls e.1)) 0
  wd ((consumersOf bs f).length * 2 ^ 24 + (producersOf bs f).length * 65536 + busiest / 10000000)

/-- `A_LOAD_MAX`: the busiest link, the lowest-numbered of several. -/
def Dev.aLoadMax (d : Dev) : Word :=
  let ls := (View.mk d []).loads
  let best := (dedup (ls.map (·.1))).foldl (fun (m : Nat × Nat) l =>
    if m.2 < linkLoad ls l ∨ (m.2 = linkLoad ls l ∧ l < m.1) then (l, linkLoad ls l) else m) (0, 0)
  wd (best.1 % 8 * 2 ^ 29 + best.1 / 8 * 2 ^ 23 + best.2 / 1000000)

/-- Computed registers of `CWAY`. -/
def Dev.cwayView (d : Dev) (off : Nat) (w : Word) : Word :=
  let f := d.fld cwPg CWAY.FLOW_SEL_FLOW
  if off = CWAY.FLOW_ROUTE.off then d.route f
  else if off = CWAY.FLOW_USE.off then d.flowUse f
  else if off = CWAY.A_LOAD_MAX.off then d.aLoadMax
  else w

/-- `RT_LOAD` of a router: admitted load and the measured use of the last millisecond (R558). -/
def Dev.routerView (d : Dev) (k off : Nat) (w : Word) : Word :=
  if inArr ROUTER.RT_LOAD 5 off then
    let i := arrIdx ROUTER.RT_LOAD off
    wd (linkLoad (View.mk d []).loads (k * 8 + i) / 10000000 * 65536 + Config.linkUtil (k * 8 + i) d.mono % 10001)
  else w

/-! ### Checker rules (R296) -/

/-- CK-3001, CK-3002 and CK-3005 on the bindings of a page in the view. -/
def View.bindRules (v : View) (p : Nat) : List Viol :=
  match v.pageBinds p with
  | [] => []
  | x :: t =>
    let every := v.bindings
    let ls := v.loads
    viol ((x :: t).any fun b => v.d.bindOver every ls b) p 0x3001 ++ viol ((x :: t).any fun b => bindClash every b) p 0x3002 ++
      viol ((x :: t).any fun b => v.d.bindInvalid b || v.aesBad b) p 0x3005

/-- The output rate code of an input port in the view: the family of its group and its preset. -/
def View.inRate (v : View) (i : Nat) : Nat :=
  v.fld (pg .pgrp (i / 9)) PGRP.FAMILY * 8 + presetMult (v.fld (portPg i) PORT.PRESET)

/-- CK-3003: enabled input ports bound to one flow run at one rate; every input port's flow is class A and its channel lies
within the flow's count. -/
def View.cwayRules (v : View) : List Viol :=
  let ins := (List.range 144).filter fun i => !(v.flag (portPg i) PORT.DIR)
  let runs := ins.filter fun i => v.flag (portPg i) HDR.ENABLE
  let flow := fun i => v.fld cwPg (CWAY.PORT_FLOW_FLOW.at i)
  let bad := fun i => decide (v.d.flowClass (flow i) ≠ 0) || decide (v.d.flowCh (flow i) ≤ v.fld cwPg (CWAY.CH.at i)) ||
    (v.flag (portPg i) HDR.ENABLE && runs.any fun j => decide (flow j = flow i ∧ v.inRate j ≠ v.inRate i))
  let touched := v.has cwPg || anyIf 144 (fun i => v.has (portPg i)) || anyIf 16 fun g => v.has (pg .pgrp g)
  viol (touched && ins.any bad) cwPg 0x3003

end Sys2Proof.Machine
end

