-- ==== Sys2Proof/Machine/Mem.lean ====
section
/-! DEFINITION. Byte memory in its canonical form: addresses strictly rising, no entry equal to what an unlisted address
reads as. Frame memory (R282) and the user area of the image store (R369) are held so. -/

namespace Sys2Proof.Machine

/-- What an unlisted address reads as: the spec gives memory no contents after power-on (DESIGN CHOICE, see the assumption
log). -/
def memDefault : Byte := 0

/-- A byte. -/
def memGet (m : List Host.Cell) (a : Nat) : Byte := (Tab.get m a).getD memDefault

/-- Store a byte. -/
def memPut (m : List Host.Cell) (a : Nat) (b : Byte) : List Host.Cell := Tab.put m a b memDefault

/-- The canonical form holds. -/
def Memory.wf (m : List Host.Cell) : Bool := Tab.wf (fun _ => memDefault) m

/-- `n` bytes from `a` up as a number, the first in the low bits. -/
def memNum (m : List Host.Cell) (a n : Nat) : Nat :=
  (List.range n).foldl (fun s i => s + (memGet m (a + i)).toNat * 2 ^ (8 * i)) 0

/-- Store a number as `n` bytes, the low bits first. -/
def memSet (m : List Host.Cell) (a n v : Nat) : List Host.Cell :=
  (List.range n).foldl (fun m i => memPut m (a + i) (BitVec.ofNat 8 (v / 2 ^ (8 * i)))) m

/-- Bytes from `a` up. -/
def memBytes (m : List Host.Cell) (a n : Nat) : List Nat := (List.range n).map fun i => (memGet m (a + i)).toNat

/-- Store bytes from `a` up. -/
def memStore (m : List Host.Cell) (a : Nat) : List Nat → List Host.Cell
  | [] => m
  | b :: t => memStore (memPut m a (BitVec.ofNat 8 b)) (a + 1) t

/-- Store the enabled bytes of a 64-bit word; the others are those of `old`. -/
def mergeBytes (old new be : Nat) : Nat :=
  (List.range 8).foldl (fun s i => s + (if be / 2 ^ i % 2 = 1 then new / 2 ^ (8 * i) % 256 else old / 2 ^ (8 * i) % 256) * 2 ^ (8 * i)) 0

end Sys2Proof.Machine
end

