-- ==== Sys2Proof/Machine/Output.lean ====
section
/-! DEFINITION. The output chain (chapter 5): fetch of samples, ramps and holds, mutes, the monitor, load and line
survey. -/

namespace Sys2Proof.Machine

/-! ### Words at the port die -/

/-- The flows and channels an output port consumes now: its source, those that have become live and those of an ARMED slot
(R556, R276). -/
def Dev.consumes (d : Dev) (i flow ch : Nat) : Bool :=
  let q := portPg i
  let s := d.port i
  d.drives i &&
    (decide ((if s.run then s.src else (d.fld q PORT.SRC_FLOW, d.fld q PORT.SRC_CH)) = (flow, ch)) ||
      (s.srcNext ++ s.srcArmed.toList).any fun x => decide ((x.flow, x.ch) = (flow, ch)))

/-- A word arrives at the die bridge of an output port; a marker carries no sample (R137, R249). -/
def Dev.portRx (d : Dev) (i : Nat) (w : FlowWord) : Dev :=
  if d.consumes i w.flow w.ch ∧ w.marker = false then
    d.setPort i { d.port i with rx := (d.port i).rx ++ [⟨w.flow, w.ch, w.ts, w.word, w.poison, d.now⟩] }
  else d

/-- The fetch instant of output sample `n` (R136). -/
def Dev.fetchTime (d : Dev) (i n : Nat) : Nat := d.sampTime i (n - presetLat (d.port i).outPreset)

/-- A source supplies sample `n`: its timestamp is at or after the instant, and the instant was known by the fetch (R556). -/
def Dev.srcGives (d : Dev) (i n : Nat) (x : SrcNext) : Bool :=
  decide (x.instant ≤ d.sampTime i n ∧ x.known ≤ d.fetchTime i n)

/-- The source in use for sample `n` by the live settings, and those that have not taken over by then. -/
def Dev.srcTaken (d : Dev) (i n : Nat) : (Nat × Nat) × List SrcNext :=
  (d.port i).srcNext.foldl (fun acc x =>
    if d.srcGives i n x then ((x.flow, x.ch), []) else (acc.1, acc.2 ++ [x])) ((d.port i).src, [])

/-- The source that supplies sample `n`: that of an ARMED slot from its instant on, or the one in use (R556). -/
def Dev.srcFor (d : Dev) (i n : Nat) : Nat × Nat :=
  match (d.port i).srcArmed with
  | some x => if d.srcGives i n x then (x.flow, x.ch) else (d.srcTaken i n).1
  | none => (d.srcTaken i n).1

/-- What the chain fetched for a sample (R137): no word, or its value and tag. -/
inductive Fetched where
  | missing
  | got (v : Int) (tag : WordTag)

/-- Tag of a word by its bits 7:6 (R118). -/
def wordTag (w : Word) : WordTag :=
  match bitsOf w 7 6 with | 0 => .fine | 1 => .coarse | 2 => .flush | _ => .fault

/-- The value a word supplies (R137). -/
def rxValue (w : RxWord) : Fetched :=
  if w.poison then .got 0 .fault
  else
    match wordTag w.word with
    | .fine => .got (sext 24 (bitsOf w.word 31 8)) .fine
    | .coarse => .got (sext 24 (bitsOf w.word 31 8)) .coarse
    | t => .got 0 t

/-- Fetch sample `n`. -/
def Dev.fetch (d : Dev) (i n : Nat) : Fetched :=
  let src := d.srcFor i n
  let t := d.sampTime i n
  let f := d.fetchTime i n
  match (d.port i).rx.find? (fun w => decide ((w.flow, w.ch) = src ∧ w.ts = t ∧ w.arrived ≤ f)) with
  | some w => rxValue w
  | none => .missing

/-- The port leaves what it has fetched or can no longer fetch, and moves to a source that has taken over. -/
def Dev.fetchDone (d : Dev) (i n : Nat) : Dev :=
  let t := d.sampTime i n
  let sf := d.srcTaken i n
  let s := d.port i
  d.setPort i { s with rx := s.rx.filter (fun w => decide (t < w.ts)), src := sf.1, srcNext := sf.2, oidx := n + 1 }

/-! ### Ramps (R144, R145) -/

/-- N = round(`RAMP_TIME` × 0.1 ms × rate). -/
def Dev.rampLen (d : Dev) (i : Nat) : Nat := (d.fld (portPg i) PORT.RAMP_TIME * d.outRate i + 5000) / 10000

/-- H = ceil(200 µs × rate). -/
def Dev.holdLen (d : Dev) (i : Nat) : Nat := ceilDiv (d.outRate i) 5000

/-- The next gain of a ramp down of `n` samples. -/
def rampDown (fresh : Bool) (n : Nat) (g : Gain) : Gain :=
  if fresh then ⟨Nat.max 1 (ceilDiv (g.a * n) g.n), n⟩ else ⟨Nat.min n (g.a + 1), n⟩

/-- The next gain of a ramp up of `n` samples. -/
def rampUp (fresh : Bool) (n : Nat) (g : Gain) : Gain :=
  if fresh then ⟨Nat.min (n - 1) (g.a * n / g.n), n⟩ else ⟨g.a - 1, n⟩

/-- A ramp of `n` samples begins with the next sample: sequence 2 or 6 up, 4 down. -/
def Dev.startRamp (d : Dev) (i seq n : Nat) : Dev :=
  (d.setSeq i seq).setPort i { (d.setSeq i seq).port i with rampN := n, rampNew := true }

/-- The gain of the next sample while a ramp runs. -/
def Dev.rampStep (d : Dev) (i : Nat) (up : Bool) : Dev :=
  let s := d.port i
  let g := if up then rampUp s.rampNew s.rampN s.gain else rampDown s.rampNew s.rampN s.gain
  let d1 := d.setGain i g
  d1.setPort i { d1.port i with rampNew := false }

/-- What begins with sample `n`: a pre-placed stop ramp, or the ramp down of a change (R146, R148, R150). -/
def Dev.seqStart (d : Dev) (i n : Nat) : Dev :=
  let s := d.port i
  let stops := match s.stopRamp with | some (_, from_, _) => decide (from_ ≤ n) | none => false
  if stops then
    if s.stopOn ∨ s.seq < 2 ∨ s.seq = 7 then d
    else
      let d1 := d.startRamp i 4 ((s.stopRamp.map fun x => x.2.2).getD 1)
      d1.setPort i { d1.port i with stopOn := true }
  else if (s.seq = 2 ∨ s.seq = 3 ∨ s.seq = 6) ∧ s.change ∧ s.changeAt ≤ d.sampTime i n then
    let d1 := d.startRamp i 4 (d.rampLen i)
    d1.setPort i { d1.port i with spanSeq := false }
  else d

/-- The gain that sample `n` takes, and the end of an unmute ramp. -/
def Dev.seqStep (d : Dev) (i : Nat) : Dev :=
  match (d.port i).seq with
  | 2 =>
    let d1 := d.rampStep i true
    if (d1.port i).gain.a = 0 then
      let d2 := d1.setSeq i 3
      if (d2.port i).repRamp then (d2.suspendEnd i).setPort i { (d2.suspendEnd i).port i with repRamp := false } else d2
    else d1
  | 3 => d.setGain i Gain.one
  | 4 => d.rampStep i false
  | 5 => (d.setGain i Gain.zero).setPort i { (d.setGain i Gain.zero).port i with holdLeft := (d.port i).holdLeft - 1 }
  | 6 =>
    let d1 := d.rampStep i true
    if (d1.port i).gain.a = 0 then
      let d2 := if (d1.port i).spanSeq then d1 else d1.setSeq i 3
      if (d2.port i).repRamp then (d2.suspendEnd i).setPort i { (d2.suspendEnd i).port i with repRamp := false } else d2
    else d1
  | _ => d.setGain i Gain.zero

/-- The first unmuted sample: the unmute ramp starts, the port enters LIVE, `OUT_LIVE` (R143). DESIGN CHOICE (log 150): the
chain of a port in LOOP raises `OUT_LIVE` as it unmutes, though the port's state follows its capture side. -/
def Dev.unmute (d : Dev) (i t : Nat) : Dev :=
  let d1 := d.startRamp i 2 (d.rampLen i)
  let d2 := if d.flag (portPg i) PORT.DIR then d1.setSt (portPg i) 3 else d1
  d2.raiseAt (portPg i) PORT.E_OUT_LIVE t

/-- A missing sample in LIVE (R137, R164). -/
def Dev.underrun (d : Dev) (i t : Nat) : Dev :=
  let q := portPg i
  let d1 := d.count q PORT.UNDERRUN_CNT
  let ok := match (d1.port i).underAt with | none => true | some c => decide (c + 10000000 ≤ d1.mono)
  if ok then
    (d1.setPort i { d1.port i with underAt := some d1.mono }).raiseAt q PORT.E_UNDERRUN t (wd (d1.fld q PORT.SRC_FLOW))
  else d1

/-- The word starts the unmute of a port that waits for its first sample, unless a pre-placed stop has begun. -/
def Dev.unmutes (d : Dev) (i n : Nat) (f : Fetched) : Bool :=
  decide ((d.port i).seq = 1) &&
    (match (d.port i).stopRamp with | some (_, from_, _) => decide (n < from_) | none => true) &&
    (match f with
     | .got _ .fine => true
     | .got _ .coarse => !(d.flag (portPg i) PORT.UNMUTE_FINE)
     | _ => false)

/-- The peak of a mode and span: µV in VOLT, nA in CURR (*Output modes and spans*, R139). -/
def spanPeak (mode span : Nat) : Nat :=
  if mode = 2 then (match span with | 0 => 2000000 | 1 => 4000000 | _ => 8000000)
  else (match span with | 0 => 1000000 | 1 => 2000000 | _ => 4500000)

/-- The planned output handover of a port. -/
def Dev.outRot (d : Dev) (i : Nat) : Option Rot :=
  match (d.group (i / 9)).rot with
  | some r => if r.port = i % 9 ∧ r.kind = 2 then some r else none
  | none => none

/-- The share of sample `n` that the incoming slice's array drives: (k + 1) / L in the crossfade; the outgoing slice drives the
rest (R180). -/
def Dev.outShare (d : Dev) (i n : Nat) : Nat × Nat :=
  match d.outRot i with
  | some r =>
    let l := d.fld (pg .pgrp (i / 9)) PGRP.XFADE_OUT
    if r.phase < 5 ∨ n < r.instant then (0, 1) else if n < r.instant + l then (n - r.instant + 1, l) else (1, 1)
  | none => (0, 1)

/-- The voltages of the two pins in VOLT for a differential drive at gain 1, in 2^-24 µV: each swings about the 2.5 V common mode
by half of it (R140); none in CURR. -/
def pinLevels (mode : Nat) (drive : Int) : Int × Int :=
  if mode = 2 then (0, 0) else (2500000 * 2 ^ 24 + drive, 2500000 * 2 ^ 24 - drive)

/-- The stage drives a sample: the code times the span times the ramp gain, zero while a mute or a repair holds it (R140,
R149). In LOOP it drives the internal node (R162). -/
def Dev.driveSample (d : Dev) (i n t : Nat) (f : Fetched) : Dev :=
  let q := portPg i
  let s := d.port i
  let v := match f with | .got v _ => v | .missing => 0
  let mute := d.hidden i || decide (s.seq = 7) || decide (s.seq ≤ 1)
  let g := if mute then Gain.zero else s.gain
  let mode := d.fld q PORT.MODE_USE
  let span := d.fld q PORT.SPAN_USE
  let x := d.outShare i n
  let drive := v * (spanPeak mode span : Int)
  let pin := pinLevels mode drive
  d.send (.analogue i t (d.flag q PORT.DIR) drive pin.1 pin.2 g.a g.n mode span x.1 x.2)

/-- Comparison resumes once its 1 ms has passed and no cause stands (R157). -/
def Dev.suspRefresh (d : Dev) (i : Nat) : Dev :=
  let q := portPg i
  let s := d.port i
  let st := d.st q
  let cause := st ≤ 1 ∨ st = 5 ∨ s.seq = 5 ∨ d.flag q PORT.PF_MUTE ∨ s.repHold ∨ s.repRamp
  if d.flag q PORT.SUSP ∧ !cause ∧ s.suspTo ≤ d.mono then d.setF q PORT.SUSP 0 else d

/-- A word that is not there when it is due counts as an underrun of a port in LIVE (R137). -/
def Dev.fetchNote (d : Dev) (i t : Nat) (f : Fetched) : Dev :=
  match f with
  | .missing => if d.st (portPg i) = 3 then d.underrun i t else d
  | .got _ _ => d

/-- A handover on an output port follows its samples. -/
def Dev.outRotFollow (d : Dev) (i n : Nat) : Dev :=
  match d.outRot i with
  | some _ => d.rotFollow i n 64
  | none => d

/-- `OUTPUT_FETCH`: the next output sample, at the instant it appears at the pins (R136 to R149). -/
def Dev.outputFetch (d : Dev) (i : Nat) : Dev :=
  let q := portPg i
  let s := d.port i
  if d.drives i ∧ s.run ∧ d.portRuns i then
    let n := s.oidx
    let t := d.sampTime i n
    let d1 := d.reach t
    let f := d1.fetch i n
    let d2 := d1.fetchDone i n
    let d3 := d2.fetchNote i t f
    let d4 := if d3.unmutes i n f then d3.unmute i t else d3.seqStart i n
    let d5 := ((d4.seqStep i).driveSample i n t f).suspRefresh i
    if d.flag q PORT.DIR ∨ d.isLoop i then d5.outRotFollow i n else d5
  else d

/-! ### Span and mode changes (R146 to R148) -/

/-- The hold begins; outside LIVE it ends H samples of time later (R146, R147). -/
def Dev.holdBegin (d : Dev) (i : Nat) : Dev :=
  let d1 := ((d.setGain i Gain.zero).setSeq i 5).suspend i
  let d2 := d1.setPort i { d1.port i with
    holdLeft := d1.holdLen i, spanSeq := true, holdDue := d1.mono + ceilDiv (d1.holdLen i * 1000000000) (d1.outRate i) }
  d2.stageTakes i

/-- `SPAN_HOLD_START`: the ramp down of a change has driven its last sample. -/
def Dev.spanHoldStart (d : Dev) (i : Nat) : Dev :=
  let s := d.port i
  if s.seq = 4 ∧ s.change ∧ s.stopOn = false ∧ s.rampNew = false ∧ s.gain.n ≤ s.gain.a then d.holdBegin i else d

/-- `SPAN_HOLD_END`: H samples have passed; the live values at this moment are those the stage uses (R148). -/
def Dev.spanHoldEnd (d : Dev) (i : Nat) : Dev :=
  let q := portPg i
  let s := d.port i
  let st := d.st q
  if s.seq = 5 then
    if st = 3 then
      if s.holdLeft = 0 then ((d.stageTakes i).suspendEnd i).startRamp i 6 (d.rampLen i) else d
    else
      let d0 := (d.pass (s.holdDue - d.mono)).stageTakes i
      ((d0.setPort i { d0.port i with spanSeq := false }).suspendEnd i).setSeq i (if st = 2 then 1 else 0)
  else d

/-- `SPAN_DONE`: the ramp up has driven its last sample. -/
def Dev.spanDone (d : Dev) (i : Nat) : Dev :=
  let q := portPg i
  let s := d.port i
  if s.seq = 6 ∧ s.spanSeq ∧ s.rampNew = false ∧ s.gain.a = 0 then
    let d1 := (d.setSeq i 3).count q PORT.SPAN_CNT
    (d1.setPort i { d1.port i with spanSeq := false }).raiseAt q PORT.E_SPAN_DONE (d.sampTime i (s.oidx - 1))
  else d

/-- A change of mode or span becomes live, with the instant of its milestone where it has one. -/
def Dev.spanChange (d : Dev) (i : Nat) (instant : Nat) : Dev :=
  let q := portPg i
  let st := d.st q
  let s := d.port i
  if st = 0 ∨ st = 5 then d.stageTakes i
  else
    let d1 := d.setPort i { d.port i with change := true, changeAt := instant }
    if d.drives i = false then d1.stageTakes i
    else if st = 3 ∨ s.seq = 5 then d1
    else d1.holdBegin i

/-! ### Stops placed by milestones (R150, R151) -/

/-- A slot that stops an output at `instant` enters ARMED: the ramp down ends just before the instant. DESIGN CHOICE (log 150):
where no sample is left at arming, as for an IMMEDIATE trigger, there is no ramp, and the port takes the fast mute, counted. -/
def Dev.stopPlace (d : Dev) (i slot instant : Nat) : Dev :=
  let s := d.port i
  let e := d.sampAt i instant
  let m := Nat.min (d.rampLen i) (e - s.oidx)
  if d.drives i ∧ d.portRuns i ∧ s.run ∧ 0 < m ∧ d.flag (portPg i) PORT.STOP_RAMP then
    d.setPort i { s with stopRamp := some (slot, e - m, m), stopOn := false }
  else d

/-- A slot that holds a pre-placed ramp leaves ARMED without applying: an output whose stop ramp has begun ramps back up
(R151). -/
def Dev.stopRestore (d : Dev) (i slot : Nat) : Dev :=
  let s := d.port i
  match s.stopRamp with
  | some (m, _, _) =>
    if m = slot then
      let d1 := d.setPort i { s with stopRamp := none, stopOn := false }
      if s.stopOn ∧ s.seq = 4 then
        let d2 := d1.startRamp i 6 (d.rampLen i)
        d2.setPort i { d2.port i with spanSeq := false }
      else d1
    else d
  | none => d

/-! ### Faults, monitor and load (R152 to R159) -/

/-- A fault of the output chain (R152). -/
def Dev.outFault (d : Dev) (i why : Nat) : Dev :=
  let q := portPg i
  let t := d.sampTime i (d.port i).oidx
  let d1 := d.setF q PORT.FAULT_WHY why
  (d1.raiseAt q PORT.E_OUT_FAULT t).portFault i 4

/-- The monitor compares: an output in SYNCING or LIVE, or LOOP. -/
def Dev.compares (d : Dev) (i : Nat) : Bool := d.drives i && d.portRuns i

/-- Measured less expected of a monitor sample, in nV after the drop of the measured current across the 10 Ω output impedance,
or in nA in CURR (R155). -/
def monDelta (mode : Nat) (x : MonSample) : Int := if mode = 2 then x.cur - x.want else x.volt - (x.want - 10 * x.cur)

/-- A window of the monitor: the sum of the squared differences, and count × span², the span in the same unit (R156). -/
structure DevWin where
  sum : Nat
  ref : Nat

/-- The window that samples make in a mode and span. -/
def devWin (mode span : Nat) (xs : List MonSample) : DevWin :=
  let peak := if mode = 2 then spanPeak mode span else spanPeak mode span * 1000
  ⟨xs.foldl (fun n x => n + (monDelta mode x * monDelta mode x).natAbs) 0, xs.length * peak * peak⟩

/-- D = 20 log10(RMS / (span / √2)) exceeds −0.1 × `w` dB (R156). -/
def DevWin.over (x : DevWin) (w : Nat) : Bool := decide (x.ref ^ 100 < (2 * x.sum) ^ 100 * 10 ^ w)

/-- Largest `n` of at most `k` more bits above `n` with D ≤ −0.1 × (n − ½) dB. -/
def DevWin.search (x : DevWin) : Nat → Nat → Nat
  | 0, n => n
  | k + 1, n =>
    let m := n + 2 ^ k
    if (2 * x.sum) ^ 200 * 10 ^ (2 * m - 1) ≤ x.ref ^ 200 then x.search k m else x.search k n

/-- `DEV_STAT.DEV`: D as −0.1 × value dB to the nearest, 0 to 960. -/
def DevWin.code (x : DevWin) : Nat := Nat.min 960 (x.search 10 0)

/-- The warning level of an evaluated window: `WARN`, its counter, `DEV_WARN` on entry (R156). -/
def Dev.devWarn (d : Dev) (i : Nat) (x : DevWin) : Dev :=
  let q := portPg i
  let was := d.flag q PORT.WARN
  if x.over (d.fld q PORT.DEV_WARN) then
    let d1 := (d.setF q PORT.WARN 1).count q PORT.DEV_WARN_CNT
    if was then d1 else d1.raiseAt q PORT.E_DEV_WARN d1.now
  else d.setF q PORT.WARN 0

/-- The worst window of an output crossfade (R181, R192). -/
def Dev.devRot (d : Dev) (i : Nat) (x : DevWin) : Dev :=
  match d.outRot i with
  | some r =>
    if r.phase = 6 then
      d.setGroup (i / 9) { d.group (i / 9) with
        rot := some { r with worst := Nat.min r.worst x.code, ovr := r.ovr || x.over (d.fld (portPg i) PORT.DEV_WARN) } }
    else d
  | none => d

/-- The fault level of an evaluated window (R156). -/
def Dev.devPersist (d : Dev) (i : Nat) (x : DevWin) : Dev :=
  let q := portPg i
  let run := if x.over (d.fld q PORT.DEV_FAULT) then (d.port i).devRun + 1 else 0
  if run ≠ 0 ∧ d.fld q PORT.DEV_PERSIST ≤ run then (d.setPort i { d.port i with devRun := 0 }).outFault i 1
  else d.setPort i { d.port i with devRun := run }

/-- `DEV_WINDOW`: a 1 ms window of monitor samples, measured against the span in use (R155 to R157, R181). -/
def Dev.devWindow (d : Dev) (i : Nat) (xs : List MonSample) : Dev :=
  let q := portPg i
  if d.compares i then
    let d0 := d.suspRefresh i
    let x := devWin (d0.fld q PORT.MODE_USE) (d0.fld q PORT.SPAN_USE) xs
    if d0.flag q PORT.SUSP || (d0.port i).suspWin then
      d0.setPort i { d0.port i with devRun := 0, suspWin := d0.flag q PORT.SUSP }
    else (((d0.setF q PORT.DEV x.code).devWarn i x).devRot i x).devPersist i x
  else d

/-- The load flags change; any change raises `LOAD_CHANGE` (R159). -/
def Dev.loadFlags (d : Dev) (i flags : Nat) : Dev :=
  let q := portPg i
  let f : Fld := ⟨PORT.LOAD_STAT.off, 0, 3, 0⟩
  if d.fld q f = flags then d else (d.setF q f flags).raise q PORT.E_LOAD_CHANGE

/-- `LOAD_WINDOW`: a 100 ms window of the load estimator: RMS voltage in µV, RMS current in nA, parallel resistance in Ω
and capacitance in pF, and whether at least 10% of the power lies above 2 kHz (R158, R159). -/
def Dev.loadWindow (d : Dev) (i uv na r c : Nat) (hf : Bool) : Dev :=
  let q := portPg i
  if d.flag q PORT.DIR ∧ d.portRuns i ∧ d.flag q PORT.SUSP = false then
    let rv := decide (1000 ≤ uv ∨ 10000 ≤ na)
    let rr := if rv then (if uv < 1000 then 0 else Nat.min r 1000000) else 0
    let cv := decide (1000 ≤ uv) && hf
    let cc := if cv then Nat.min c 200000 else 0
    let d1 := d.setReg q PORT.LOAD_R (wd ((if rv then 2 ^ 31 else 0) + rr))
    let d2 := d1.setReg q PORT.LOAD_C (wd ((if cv then 2 ^ 31 else 0) + cc))
    let volt := decide (d.fld q PORT.MODE_USE = 1)
    let open_ := volt && decide (10000 ≤ uv ∧ na < 1000)
    let short := rv && decide (rr < 50)
    let ovr := volt && ((rv && decide (rr < 540)) || (cv && decide (11000 < cc)))
    let d3 := d2.loadFlags i ((if open_ then 1 else 0) + (if short then 2 else 0) + (if ovr then 8 else 0))
    if short ∧ volt then d3.outFault i 3 else d3
  else d

/-- `ILIMIT_TRIP`: the output current has been at its 25 mA limit for 16 monitor samples (R159). DESIGN CHOICE (log 150): the load
conditions act in SYNCING and LIVE, while comparison may run, and not in STOPPED. -/
def Dev.ilimitTrip (d : Dev) (i : Nat) : Dev :=
  let q := portPg i
  if d.flag q PORT.DIR ∧ d.portRuns i ∧ d.fld q PORT.MODE_USE = 1 then
    (d.loadFlags i (bitsOf (d.reg q PORT.LOAD_STAT ||| 4) 3 0)).outFault i 2
  else d

/-- `COMPLIANCE_TRIP`: in CURR the pins have been at 2.0 V or more for 16 monitor samples (R159). -/
def Dev.complianceTrip (d : Dev) (i : Nat) : Dev :=
  let q := portPg i
  if d.flag q PORT.DIR ∧ d.portRuns i ∧ d.fld q PORT.MODE_USE = 2 then
    (d.loadFlags i (bitsOf (d.reg q PORT.LOAD_STAT ||| 1) 3 0)).outFault i 4
  else d

/-! ### Line survey (R160, R161) -/

/-- A write of `LSV_GO` starts a line survey, unless one runs. -/
def Dev.lsvGo (d : Dev) (i : Nat) : Dev :=
  let q := portPg i
  if d.flag q HDR.BUSY then d
  else ((d.send (.testTone i true true)).setF q HDR.BUSY 1).setPort i { d.port i with due := d.mono + 50000000 }

/-- `LSV_END`: capacitance in pF, parallel resistance in kΩ, magnitude of the line's impedance at 10 kHz in Ω. -/
def Dev.lsvEnd (d : Dev) (i c rk z : Nat) : Dev :=
  let q := portPg i
  if d.flag q PORT.LSV_GO then
    let d0 := (d.pass ((d.port i).due - d.mono)).send (.testTone i true false)
    let status := if z < 50 then 3 else if c < 50 then 2 else if 200000 < c then 4 else 1
    let cpm := d.fld q PORT.CPM
    let len := if status = 1 then Nat.min 0xFFFF ((20 * c + cpm) / (2 * cpm)) else 0
    let d1 := d0.setReg q PORT.LSV_RES (wd (status * 2 ^ 28 + (if status = 1 then c else 0)))
    let d2 := d1.setReg q PORT.LSV_LEN (wd (Nat.min rk 1000 * 65536 + len))
    ((d2.setF q PORT.LSV_GO 0).setF q HDR.BUSY 0).raise q PORT.E_LSV_END
  else d

end Sys2Proof.Machine
end

