-- ==== Sys2Proof/Machine/Frame.lean ====
section
/-! DEFINITION. Flits (R272 to R274, R281), frame memory and its protection (R282 to R286), frame ports (R287, R288), the
scrubber (R289 to R292) and soft row repair (R293 to R295). -/

namespace Sys2Proof.Machine

/-- The `FMEM` page of bank `b`. -/
def fmPg (b : Nat) : Nat := pg .fmem b

/-- The `SCRB` page. -/
def scrbPg : Nat := pg .scrb 0

/-- The `LDR` page. -/
def ldrPg : Nat := pg .ldr 0

/-! ### Regions and their causeway ports -/

/-- A fabric or keeper region's state. -/
def Dev.region (d : Dev) (n : Nat) : RegionSt := (Tab.get d.fab.regions n).getD RegionSt.init

/-- Store a region. -/
def Dev.setRegion (d : Dev) (n : Nat) (x : RegionSt) : Dev :=
  { d with fab := { d.fab with regions := Tab.put d.fab.regions n x RegionSt.init } }

/-- The region's isolation is released: `ISO_STAT.STATE` RELEASED, and it is neither in LULL nor in DARK (R373, R392). -/
def Dev.regionLive (d : Dev) (n : Nat) : Bool :=
  decide (d.fld (regionPg n) FREG.STATE = 3) && decide (d.pwrState (regionPg n) ≤ 1)

/-- The region takes stream words: its isolation is released, or it runs in SHADOW (R404). -/
def Dev.regionTakes (d : Dev) (n : Nat) : Bool :=
  decide (3 ≤ d.fld (regionPg n) FREG.STATE) && decide (d.pwrState (regionPg n) ≤ 1)

/-- A region in DOZE wakes: live `PWR_REQ` becomes RUN (R373). -/
def Dev.regionWake (d : Dev) (n : Nat) : Dev :=
  let p := regionPg n
  if d.pwrState p = 1 then (d.setF p HDR.PWR_STATE 0).setF p HDR.PWR_REQ 0 else d

/-- A stream-out word of a region reaches consumers (R404): in a handover the old region's before the instant, the new
one's at or after it. -/
def Dev.outKeeps (d : Dev) (n ts : Nat) : Bool :=
  match d.ld.ho with
  | some h =>
    let t := h.instant.getD 0
    if h.pairs.any fun x => decide (x.2 = n) then h.switched && decide (t ≤ ts)
    else if h.pairs.any fun x => decide (x.1 = n) then !h.switched || decide (ts < t)
    else true
  | none => true

/-- The overlap of a new region of a handover. -/
def RegHo.ov (h : RegHo) (y : Nat) : RegOv := (Tab.get h.ovs y).getD ⟨none, 0, none⟩

/-- The outputs of a handover's regions are noted for the comparison: in Overlap and Compare, with `COMPARE` not 0. -/
def Dev.hoNotes (d : Dev) (h : RegHo) : Bool := !h.ready && decide (h.phase ≤ 3) && decide (d.fld ldrPg LDR.COMPARE ≠ 0)

/-- Stream-out words of port `p` of region `n` take part in the comparison of its handover (R404). -/
def Dev.hoOuts (d : Dev) (n p : Nat) (ws : List (Nat × Word × Bool)) : Dev :=
  match d.ld.ho with
  | none => d
  | some h =>
    match h.pairs.find? (fun x => decide (x.1 = n ∨ x.2 = n)) with
    | none => d
    | some x =>
      if d.hoNotes h then
        let hz := if h.phase = 3 then (h.ov x.2).hzn else none
        let f := fun (t : Tab CmpPort) (w : Nat × Word × Bool) =>
          cmpNote t (x.2 * 8 + p) (decide (x.2 = n)) ⟨0, 0, w.1, w.2.1, w.2.2, false⟩ d.mono hz (d.fld ldrPg LDR.COMPARE)
        { d with ld := { d.ld with ho := some { h with cmps := ws.foldl f h.cmps } } }
      else d

/-- The lowest-numbered enabled stream-in port of a region. -/
def Dev.firstIn (d : Dev) (n : Nat) : Option Nat :=
  (List.range 8).find? fun i => d.flag (regionPg n) (FREG.FPORT_CFG_EN.at i) && decide (d.fld (regionPg n) (FREG.MODE.at i) = 0)

/-- A new region of a handover has popped a word from a port: from its lowest-numbered stream-in port the first word starts the
overlap, word `HORIZON` fixes H (R69, R404). -/
def Dev.hoPop (d : Dev) (n p ts : Nat) : Dev :=
  match d.ld.ho with
  | none => d
  | some h =>
    if h.phase = 2 ∧ h.pairs.any (fun x => decide (x.2 = n)) = true ∧ d.firstIn n = some p then
      let o := h.ov n
      let hz := if o.hzn.isNone ∧ o.lead = d.fld ldrPg LDR.HORIZON then some ts else o.hzn
      { d with ld := { d.ld with ho := some { h with ovs := Tab.ins h.ovs n ⟨some (o.start.getD ts), o.lead + 1, hz⟩ } } }
    else d

/-- Words the region's logic gives an output port: timestamp, data, marker. They enter its FIFO of 32 on the port's channels
in rotation. -/
def Dev.fabricOut (d : Dev) (n p : Nat) (ws : List (Nat × Word × Bool)) : Dev :=
  let g := regionPg n
  let f := d.fld g (FREG.FLOW.at p)
  let c := d.fld g (FREG.NCH_M1.at p) + 1
  if d.regionTakes n && d.flag g (FREG.FPORT_CFG_EN.at p) && decide (d.fld g (FREG.MODE.at p) = 1) then
    (ws.filter fun w => d.outKeeps n w.1).foldl (fun (e : Dev) w =>
      let x := e.region n
      let q := (Tab.get x.outq p).getD []
      let rot := (Tab.get x.rot p).getD 0
      if q.length < 32 then
        (e.setRegion n { x with outq := Tab.put x.outq p (q ++ [⟨f, e.fld g (FREG.CH.at p) + rot, w.1, w.2.1, w.2.2, false⟩]) [],
                                rot := Tab.put x.rot p ((rot + 1) % c) 0 }).setF g (FREG.OUT_LVL.at p) (q.length + 1)
      else e) (d.hoOuts n p ws)
  else d

/-! ### Sending flits -/

/-- The words that wait at a producer's endpoint for a flow: those already handed over, else its FIFO. -/
def Dev.prodWords (d : Dev) (ep flow : Nat) : List FlowWord :=
  match d.txQueue ep flow with
  | [] =>
    if ep < 8192 then
      let t := ep / 2
      (d.tile (d.loc (t / 256) (t % 256 / 16) (t % 16))).outq (ep % 2)
    else if ep < 16384 then
      let i := ep - 8192
      (Tab.get (d.region (i / 8)).outq (i % 8)).getD []
    else []
  | q => q

/-- Take the first `k` words away. -/
def Dev.prodDrop (d : Dev) (ep flow k : Nat) : Dev :=
  match d.txQueue ep flow with
  | [] =>
    if ep < 8192 then
      let t := ep / 2
      let L := d.loc (t / 256) (t % 256 / 16) (t % 16)
      d.setTile L ((d.tile L).setOutq (ep % 2) (((d.tile L).outq (ep % 2)).drop k))
    else if ep < 16384 then
      let i := ep - 8192
      let x := d.region (i / 8)
      let q := ((Tab.get x.outq (i % 8)).getD []).drop k
      (d.setRegion (i / 8) { x with outq := Tab.put x.outq (i % 8) q [] }).setF (regionPg (i / 8)) (FREG.OUT_LVL.at (i % 8)) q.length
    else d
  | q => d.setTxQueue ep flow (q.drop k)

/-- The run of words one flit can carry: one flow and timestamp, consecutive channels, at most 13 (R272). -/
def flitRun : Nat → List FlowWord → List FlowWord
  | 0, _ => []
  | _, [] => []
  | n + 1, w :: rest =>
    match rest with
    | x :: _ => if x.flow = w.flow ∧ x.ts = w.ts ∧ x.ch = w.ch + 1 then w :: flitRun n rest else [w]
    | [] => [w]

/-- The last channel an endpoint produces of a flow. -/
def lastChannel (bs : List Binding) (ep flow : Nat) : Nat :=
  (bs.filter fun b => b.prod && decide (b.ep = ep ∧ b.flow = flow)).foldl (fun m b => Nat.max m (b.ch + b.n - 1)) 0

/-- The consumer endpoints that bind one of the channels of a run of words. -/
def flitDests (bs : List Binding) (flow : Nat) (ws : List FlowWord) : List Nat :=
  dedup ((bs.filter fun b => !b.prod && decide (b.flow = flow) && ws.any fun w => decide (b.ch ≤ w.ch ∧ w.ch < b.ch + b.n)).map (·.ep))

/-- The words that wait behind a run are of another timestamp or flow than its last word `w`: the flit is the producer's last for
the timestamp (R272). -/
def flitLast (q : List FlowWord) (w : FlowWord) : Bool :=
  match q with
  | x :: _ => decide (x.ts ≠ w.ts ∨ x.flow ≠ w.flow)
  | [] => false

/-- The words that wait behind a run do not continue it: another timestamp, flow or channel follows `w` (R274). -/
def flitNext (q : List FlowWord) (w : FlowWord) : Bool :=
  match q with
  | x :: _ => decide (x.ts ≠ w.ts ∨ x.flow ≠ w.flow ∨ x.ch ≠ w.ch + 1)
  | [] => false

/-- `FLIT_SEND`: the producer at `ep` sends a flit of its oldest words of `flow` when it holds 13 of them, has written its
last channel of the timestamp, or its next word carries another timestamp (R274). `ws` are words the logic of a fabric region
gives its port. -/
def Dev.flitSend (d : Dev) (ep flow : Nat) (ws : List (Nat × Word × Bool)) : Dev :=
  let d0 := if 8192 ≤ ep ∧ ep < 16384 then d.fabricOut ((ep - 8192) / 8) ((ep - 8192) % 8) ws else d
  let q := d0.prodWords ep flow
  let run := flitRun 13 q
  match run.getLast? with
  | none => d0
  | some w =>
    let bs := (View.mk d0 []).bindings
    let full := decide (run.length = 13)
    let last := decide (w.ch = lastChannel bs ep w.flow)
    let next := flitNext (q.drop run.length) w
    if full || last || next then
      let d1 := d0.prodDrop ep flow run.length
      let f : Flit := ⟨ep, w.flow, d1.flowClass w.flow, w.ts, run, last || flitLast (q.drop run.length) w,
        flitDests bs w.flow run, []⟩
      if f.dests = [] then d1 else { d1 with cw := { d1.cw with flight := d1.cw.flight ++ [f] } }
    else d0

/-! ### Arrival -/

/-- A full timestamp from its seconds modulo `m` and nanoseconds: the seconds nearest device time (R273, R288). -/
def restoreTime (now m sec ns : Nat) : Nat :=
  let base := now / 1000000000
  let cand := (List.range (m + 1)).map fun i => base + i - m / 2
  let ok := cand.filter fun s => decide (s % m = sec)
  let dist := fun s => (if s < base then base - s else s - base)
  (ok.foldl (fun (b : Nat) s => if dist s < dist b then s else b) (ok.headD base)) * 1000000000 + ns

/-- The bindings of a consumer endpoint on a flow. -/
def consBinds (bs : List Binding) (ep flow : Nat) : List Binding :=
  bs.filter fun b => !b.prod && decide (b.ep = ep ∧ b.flow = flow)

/-- One bit a word of a flit, from a test. -/
def flitMask (t : FlowWord → Bool) : List FlowWord → Nat
  | [] => 0
  | w :: rest => (if t w then 1 else 0) + 2 * flitMask t rest

/-- The 16 words of a stream flit (R272, *Stream flit*): bit 31 of word 0 is 0. -/
def Flit.encode (f : Flit) : List Word :=
  let ch := (f.words.map (·.ch)).headD 0
  let w0 := f.cls * 2 ^ 29 + f.flow * 2 ^ 15 + ch * 2 ^ 9 + (f.words.length - 1) * 2 ^ 5 + (if f.last then 16 else 0)
  let w1 := f.ts / 1000000000 % 4 * 2 ^ 30 + f.ts % 1000000000
  let w2 := flitMask (·.poison) f.words * 65536 + flitMask (·.marker) f.words
  [wd w0, wd w1, wd w2] ++ f.words.map (·.word) ++ List.replicate (13 - f.words.length) 0

/-- The 16 words of a memory request (R272, R275, *Memory flit*): bit 31 of word 0 is 1; a read carries no data. -/
def memEncode (m : MemFlit) : List Word :=
  let n := if m.write then m.data.length else m.count
  let op := if m.write then 1 else 0
  let w0 := 2 ^ 31 + m.cls.val * 2 ^ 29 + op * 2 ^ 27 + (n - 1) * 2 ^ 24 + m.tag.val * 2 ^ 16 + m.req.val
  let be := if n = 1 then m.be.toNat else 255
  let data := if m.write then m.data.flatMap fun w => [wd (w.toNat % 2 ^ 32), wd (w.toNat / 2 ^ 32)] else []
  [wd w0, wd m.addr, wd (m.pois.toNat * 65536 + be), 0] ++ data ++ List.replicate (12 - data.length) 0

/-- The words of a flit that a consumer endpoint takes. -/
def flitTake (bs : List Binding) (ep : Nat) (f : Flit) : List FlowWord :=
  f.words.filter fun w => (consBinds bs ep f.flow).any fun b => decide (b.ch ≤ w.ch ∧ w.ch < b.ch + b.n)

/-- The endpoint has space for `k` more words: stream ports of tiles hold 32; an isolated region accepts none. -/
def Dev.epRoom (d : Dev) (ep k : Nat) : Bool :=
  if ep < 8192 then
    let t := ep / 2
    decide (((d.tile (d.loc (t / 256) (t % 256 / 16) (t % 16))).inq (ep % 2)).length + k ≤ 32)
  else if ep < 16384 then d.regionTakes ((ep - 8192) / 8)
  else true

/-- A frame port's state. -/
def Dev.fmp (d : Dev) (b : Nat) : FmpSt := (Tab.get d.cw.fmp b).getD FmpSt.init

/-- Store a frame port and show it in `FMP_STAT`. -/
def Dev.setFmp (d : Dev) (b : Nat) (s : FmpSt) : Dev :=
  let d1 : Dev := { d with cw := { d.cw with fmp := Tab.put d.cw.fmp b s FmpSt.init } }
  (d1.setF (fmPg b) FMEM.BUF s.buf).setF (fmPg b) FMEM.READY s.ready.length

/-- A transmit flow. -/
def Dev.txFlow (d : Dev) (f : Nat) : TxFlow := (Tab.get d.md.tx f).getD TxFlow.init

/-- Store a transmit flow. -/
def Dev.setTxFlow (d : Dev) (f : Nat) (x : TxFlow) : Dev :=
  { d with md := { d.md with tx := Tab.put d.md.tx f x TxFlow.init } }

/-- A word reaches its consumer (R277, R286). -/
def Dev.deliver (d : Dev) (ep : Nat) (w : FlowWord) : Dev :=
  if ep < 8192 then d.streamWord (ep / 2) (ep % 2) w
  else if ep < 16384 then
    let n := (ep - 8192) / 8
    let sec := w.ts / 1000000000 % 4
    ((d.regionWake n).hoPop n ((ep - 8192) % 8) w.ts).send (.fabricWord n ((ep - 8192) % 8) w.ch (sec * 2 ^ 30 + w.ts % 1000000000)
      (if w.poison then 0 else w.word) w.marker w.poison)
  else if ep < 24576 then
    let b := ep - 16384
    d.setFmp b { d.fmp b with rx := (d.fmp b).rx ++ [w] }
  else if ep < 32768 then d.setTxFlow w.flow { d.txFlow w.flow with words := (d.txFlow w.flow).words ++ [w], last := some d.mono }
  else if ep < 0xA000 then (List.range 36).foldl (fun e k => e.portRx ((ep - 0x8000) * 36 + k) w) d
  else if 0xE000 ≤ ep then
    let n := ep - 0xE000
    { d with pn := { d.pn with aesTx := Tab.put d.pn.aesTx n ((Tab.get d.pn.aesTx n).getD [] ++ [w]) [] } }
  else d

/-- Replace or remove the flit at place `n`. -/
def Dev.setFlit (d : Dev) (n : Nat) (f : Flit) : Dev :=
  { d with cw := { d.cw with flight := if f.dests = [] then d.cw.flight.eraseIdx n else d.cw.flight.set n f } }

/-- The flit no longer has to reach an endpoint. -/
def Dev.flitDone (d : Dev) (n ep : Nat) (f : Flit) : Dev := d.setFlit n { f with dests := f.dests.filter fun x => decide (x ≠ ep) }

/-- A class A flit is lost for a consumer (R281). -/
def Dev.aDrop (d : Dev) (flow ep : Nat) : Dev :=
  (d.count cwPg CWAY.A_DROP_CNT).raise cwPg CWAY.E_A_DROP (wd (flow * 65536 + ep))

/-- A copy of the flit on the way to `ep` crosses the link from router `k` in direction `l` (R269). -/
def Dev.crosses (d : Dev) (f : Flit) (k l ep : Nat) : Bool :=
  match d.epRouter f.prod, d.epRouter ep with
  | some a, some b => (xyLinks a b).contains (k * 8 + l)
  | _, _ => false

/-- A flit fails the check of the link from router `k` in direction `l` (R270): sent again the first time, discarded the second
for every consumer it reaches over that link. Classes V, C and B recover by their credits. -/
def Dev.flitError (d : Dev) (n ep : Nat) (f : Flit) (k l : Nat) : Dev :=
  if d.crosses f k l ep then
    let d1 := (d.count (pg .router k) ROUTER.RT_LINK_ERR).raise cwPg CWAY.E_LINK_ERR (wd (l * 256 + k))
    let link := k * 8 + l
    if f.failed.contains link = false then d1.setFlit n { f with failed := f.failed ++ [link] }
    else
      let g := { f with failed := f.failed.filter fun x => decide (x ≠ link) }
      if f.cls = 0 then
        let lost := f.dests.filter fun e => d.crosses f k l e
        (lost.foldl (fun (e : Dev) c => e.aDrop f.flow c) d1).setFlit n { g with dests := f.dests.filter fun e => !(lost.contains e) }
      else d1.setFlit n g
  else d

/-- An older flit of the same producer is still on its way to the consumer: a consumer receives the words of each producer in
timestamp order (R277). -/
def Dev.flitBehind (d : Dev) (n ep : Nat) (f : Flit) : Bool :=
  (d.cw.flight.take n).any fun g => decide (g.prod = f.prod ∧ g.flow = f.flow) && g.dests.contains ep

/-- `FLIT_ARRIVE`: the flit at place `n` of those under way reaches the consumer at `ep`, or fails the check of a link on the
way. -/
def Dev.flitArrive (d : Dev) (n ep : Nat) (err : Option (Nat × Nat)) : Dev :=
  match d.cw.flight[n]? with
  | none => d
  | some f =>
    if f.dests.contains ep = false then d
    else
      match err with
      | some e => d.flitError n ep f e.1 e.2
      | none =>
        if d.flitBehind n ep f then d
        else if f.ts + 1000000000 < d.now then (d.count cwPg CWAY.STALE_CNT).flitDone n ep f
        else
          let ts := restoreTime d.now 4 (f.ts / 1000000000 % 4) (f.ts % 1000000000)
          let ws := flitTake (View.mk d []).bindings ep f
          if d.epRoom ep ws.length then
            (ws.foldl (fun e w => e.deliver ep { w with ts := ts }) d).flitDone n ep f
          else d

/-- `A_DROP`: a consumer has not taken a class A flit within 1 µs of its arrival (R281). -/
def Dev.aDropEvent (d : Dev) (n ep : Nat) : Dev :=
  match d.cw.flight[n]? with
  | some f => if f.cls = 0 ∧ f.dests.contains ep then (d.aDrop f.flow ep).flitDone n ep f else d
  | none => d

/-! ### Frame memory (R282 to R286) -/

/-- The bank of a byte address. -/
def fmBank (a : Nat) : Nat := a / 1024 % 32

/-- The row of a byte address. -/
def fmRow (a : Nat) : Nat := a / 32768 % 8192

/-- The byte address of a word of a row of a bank. -/
def fmAddr (b row word : Nat) : Nat := row * 32768 + b * 1024 + word * 8

/-- The 64-bit word at an aligned address. -/
def Dev.fmWord (d : Dev) (a : Nat) : Nat := memNum d.cw.mem a 8

/-- Is the word poisoned? -/
def Dev.fmPois (d : Dev) (a : Nat) : Bool := d.cw.pois.contains (a / 8)

/-- Set or clear a word's poison bit. -/
def Dev.fmSetPois (d : Dev) (a : Nat) (b : Bool) : Dev :=
  let w := a / 8
  let l := if b then (if d.cw.pois.contains w then d.cw.pois else d.cw.pois ++ [w]) else d.cw.pois.filter fun x => decide (x ≠ w)
  { d with cw := { d.cw with pois := l } }

/-- Store a 64-bit word. -/
def Dev.fmPut (d : Dev) (a v : Nat) : Dev := { d with cw := { d.cw with mem := memSet d.cw.mem a 8 v } }

/-- A corrected error (R284, R297). -/
def Dev.fmCe (d : Dev) (a : Nat) : Dev :=
  let b := fmBank a
  let p := fmPg b
  let d1 := (d.count p FMEM.CE_CNT).setReg p FMEM.ECC_CE_ADDR (wd (2 ^ 31 + a / 8 * 8))
  let due := match Tab.get d1.cw.ceAt b with | some t => decide (t + 10000000 ≤ d1.mono) | none => true
  if due then ({ d1 with cw := { d1.cw with ceAt := Tab.ins d1.cw.ceAt b d1.mono } } : Dev).raiseH p FMEM.E_FM_CE else d1

/-! ### Soft row repair (R293) -/

/-- The repair of a bank. -/
def Dev.rowRep? (d : Dev) (b : Nat) : Option RowRep := Tab.get d.cw.reps b

/-- Store the repair of a bank; `RPR_STAT` follows. -/
def Dev.setRowRep (d : Dev) (b : Nat) (x : RowRep) : Dev :=
  ({ d with cw := { d.cw with reps := Tab.ins d.cw.reps b x } } : Dev).setF (fmPg b) FMEM.PHASE x.phase

/-- Spare rows in service and bad of a bank. -/
def Dev.rowLists (d : Dev) (b : Nat) : List Nat × List Nat := ((Tab.get d.cw.used b).getD [], (Tab.get d.cw.bad b).getD [])

/-- Store them; `FM_STAT` follows. -/
def Dev.setRowLists (d : Dev) (b : Nat) (used bad : List Nat) : Dev :=
  let d1 : Dev := { d with cw := { d.cw with used := Tab.put d.cw.used b used [], bad := Tab.put d.cw.bad b bad [] } }
  (d1.setF (fmPg b) FMEM.SPARE_USED used.length).setF (fmPg b) FMEM.SPARE_BAD bad.length

/-- A repair of a row is requested: Prepare picks the lowest spare row that is neither in service nor bad and Overlap begins,
or `NO_SPARE_ROW` is raised. -/
def Dev.rowRepairStart (d : Dev) (b row : Nat) : Dev :=
  let p := fmPg b
  let l := d.rowLists b
  let d1 := (d.setF p FMEM.GO 0).setF p FMEM.RPR_STAT_ROW row
  match (List.range 64).find? fun k => !(l.1.contains k) && !(l.2.contains k) with
  | none => d1.raiseH p FMEM.E_NO_SPARE_ROW (wd row) (d1.reg p FMEM.FM_STAT)
  | some k => ((d1.setF p FMEM.RPR_BUSY 1).setF p FMEM.ACTIVE 1).setRowRep b ⟨row, k, 2, d1.mono, false, none, none, 0⟩

/-- The rows of a bank whose repairs wait. -/
def Dev.rowWaits (d : Dev) (b : Nat) : List Nat := (Tab.get d.cw.rowWait b).getD []

/-- Store them. -/
def Dev.setRowWaits (d : Dev) (b : Nat) (l : List Nat) : Dev :=
  { d with cw := { d.cw with rowWait := Tab.put d.cw.rowWait b l [] } }

/-- The scrubber's request (R292): while a repair runs on the bank or a firmware changeover runs, it waits (R72, R545). -/
def Dev.rowRequest (d : Dev) (b row : Nat) : Dev :=
  if d.flag scrbPg SCRB.AUTO_RPR then
    if (d.rowRep? b).isNone && !(d.fwActive) then d.rowRepairStart b row
    else if (d.rowWaits b).contains row then d
    else d.setRowWaits b (d.rowWaits b ++ [row])
  else d

/-- The oldest waiting request of a bank starts once nothing holds it up. -/
def Dev.rowNext (d : Dev) (b : Nat) : Dev :=
  match d.rowWaits b with
  | [] => d
  | row :: t => if (d.rowRep? b).isNone && !(d.fwActive) then (d.setRowWaits b t).rowRepairStart b row else d

/-- Nanoseconds a copy of a row, or its comparison, takes: 16 causeway cycles (R293). -/
def rowCopyNs : Nat := 11

/-- A repair whose copy has ended compares (R66, R293). -/
def Dev.rowCopied (d : Dev) (b : Nat) : Dev :=
  match d.rowRep? b with
  | some x => if x.phase = 2 ∧ x.at_ + rowCopyNs ≤ d.mono then d.setRowRep b { x with phase := 3 } else d
  | none => d

/-- What follows for the row repairs as time passes. -/
def Dev.rowsFollow (d : Dev) : Dev :=
  if d.cw.reps = [] ∧ d.cw.rowWait = [] then d
  else (List.range 32).foldl (fun (e : Dev) b => (e.rowNext b).rowCopied b) d

/-- The repair of a bank ends (R293, R295). -/
def Dev.rowRepairEnd (d : Dev) (b outcome : Nat) (x : RowRep) : Dev :=
  let p := fmPg b
  let d1 : Dev := { d with cw := { d.cw with reps := Tab.del d.cw.reps b } }
  let d2 := (((d1.jobCancel (.row b)).unwait (.row b)).setF p FMEM.ACTIVE 0).setF p FMEM.PHASE 0
  let d3 := (d2.setF p FMEM.RPR_BUSY 0).setF p FMEM.OUTCOME outcome
  let d4 := if outcome = 0 then d3.count p FMEM.RPR_CNT else d3
  (d4.raiseSev p FMEM.E_ROW_HO (hoSev outcome) (wd (6 * 2 ^ 28 + outcome * 2 ^ 24)) (wd (b * 2 ^ 27 + x.row))
    (wd (b * 2 ^ 27 + 32768 + x.spare)) (wd x.mismatch)).refreshHealth

/-- The supervisor takes a slot `RPR_LEAD` µs ahead, or waits with write-forwarding running. The 10 s run while the page is bound
or dirty; the want of a slot alone never ends the repair (R49). -/
def Dev.rowBind (d : Dev) (b : Nat) (x : RowRep) : Dev :=
  let t := d.now + d.fld (fmPg b) FMEM.LEAD * 1000
  match d.svcBind (.row b) [fmPg b] t with
  | some e => e.setRowRep b { x with phase := 4, ready := true, instant := some t, bindAt := none }
  | none =>
    (d.setRowRep b { x with ready := true,
                            bindAt := if d.pagesBusy [fmPg b] then some (x.bindAt.getD d.mono) else none }).svcWait (.row b)

/-- A waiting repair tries again. -/
def Dev.rowRetry (d : Dev) (b : Nat) : Dev :=
  match d.rowRep? b with
  | some x => if x.ready ∧ x.instant.isNone then d.rowBind b x else d.unwait (.row b)
  | none => d.unwait (.row b)

/-- `ROW_COMPARE_DONE`: the copy and the comparison have ended, with `bad` words that differ. -/
def Dev.rowCompare (d : Dev) (b bad : Nat) : Dev :=
  match d.rowRep? b with
  | none => d
  | some x =>
    if x.phase ≤ 3 ∧ x.ready = false then
      let e := (d.pass (x.at_ + 2 * rowCopyNs - d.mono)).setRowRep b { x with phase := 3 }
      if bad = 0 then e.rowBind b { x with phase := 3 }
      else
        let l := e.rowLists b
        (e.setRowLists b l.1 (l.2 ++ [x.spare])).rowRepairEnd b 1 { x with mismatch := bad }
    else d

/-- `ROW_REPAIR_TIMEOUT`: 10 s of waiting to bind the page. -/
def Dev.rowTimeout (d : Dev) (b : Nat) : Dev :=
  match d.rowRep? b with
  | some x =>
    match x.bindAt with
    | some t => if x.instant.isNone then (d.pass (t + 10000000000 - d.mono)).rowRepairEnd b 2 x else d
    | none => d
  | none => d

/-- A repair ends before Switch. -/
def Dev.rowAbort (d : Dev) (b outcome : Nat) : Dev :=
  match d.rowRep? b with
  | some x => d.rowRepairEnd b outcome x
  | none => d

/-- The milestone has applied: the spare row serves, the old row is retired; a spare row it replaces is never used again. -/
def Dev.rowApply (d : Dev) (b : Nat) : Dev :=
  match d.rowRep? b with
  | none => d
  | some x =>
    let l := d.rowLists b
    let key := b * 8192 + x.row
    let old := Tab.get d.cw.rows key
    let used := (match old with | some k => l.1.filter fun j => decide (j ≠ k) | none => l.1) ++ [x.spare]
    let bad := match old with | some k => l.2 ++ [k] | none => l.2
    let d1 : Dev := { d with cw := { d.cw with rows := Tab.ins d.cw.rows key x.spare } }
    (d1.setRowLists b used bad).rowRepairEnd b 0 x

/-! ### Errors and accesses -/

/-- An uncorrectable error (R284, R292). -/
def Dev.fmUe (d : Dev) (a : Nat) : Dev :=
  let b := fmBank a
  let p := fmPg b
  let d1 := ((d.fmSetPois a true).count p FMEM.UE_CNT).setReg p FMEM.ECC_UE_ADDR (wd (2 ^ 31 + a / 8 * 8))
  (d1.raiseH p FMEM.E_FM_UE).rowRequest b (fmRow a)

/-- What the code meets at a word's read. -/
def Dev.fmMeet (d : Dev) (a : Nat) (e : EccEvent) : Dev :=
  match e with
  | .clean => d
  | .corrected => if d.fmPois a then d else d.fmCe a
  | .uncorrectable => if d.fmPois a then d else d.fmUe a

/-- Read words: each with what its code meets; a poisoned word gives zero and a mask bit. -/
def Dev.fmRead (d : Dev) (a : Nat) : Nat → List EccEvent → Dev × List Nat × Nat
  | 0, _ => (d, [], 0)
  | n + 1, es =>
    let d1 := d.fmMeet a (es.headD .clean)
    let bad := d1.fmPois a
    let r := d1.fmRead (a + 8) n es.tail
    (r.1, (if bad then 0 else d1.fmWord a) :: r.2.1, (if bad then 1 else 0) + 2 * r.2.2)

/-- Write words: whole words, or the enabled bytes of a single one (R285); a poison mask bit poisons its word. -/
def Dev.fmWrite (d : Dev) (a be pois : Nat) (e : EccEvent) : List Nat → Dev
  | [] => d
  | v :: rest =>
    let d1 := if be = 255 then (d.fmPut a v).fmSetPois a (decide (pois % 2 = 1))
      else
        let m := d.fmMeet a e
        let old := if m.fmPois a then 0 else m.fmWord a
        (m.fmPut a (mergeBytes old v be)).fmSetPois a (decide (pois % 2 = 1))
    d1.fmWrite (a + 8) 255 (pois / 2) .clean rest

/-- Bytes of a loader buffer: 14 MiB. -/
def bufBytes : Nat := 14680064

/-- The first byte of the host buffer and of the slave buffer. -/
def Dev.hostBuf (d : Dev) : Nat := d.fld ldrPg LDR.BUF_BASE * 2 ^ 20
def Dev.slaveBuf (d : Dev) : Nat := d.fld ldrPg LDR.SBUF_BASE * 2 ^ 20

/-- The protected loader buffer that a write of `n` bytes at `a` meets (R387): 0 host buffer, 1 slave buffer. The slave
ports write the slave buffer except while it is being loaded. -/
def Dev.bufHit (d : Dev) (slavePort : Bool) (a n : Nat) : Option Nat :=
  let hit := fun (base : Nat) => decide (a < base + bufBytes ∧ base < a + n)
  let loads := fun (s : Nat) => match d.ld.job with | some j => decide (j.src = s) | none => false
  if hit d.slaveBuf && ((d.flag ldrPg LDR.SBUF_EN && !slavePort) || loads 2) then some 1
  else if hit d.hostBuf && loads 1 then some 0 else none

/-- A write of endpoint `ep` that met protected buffer `k`, or none. -/
def Dev.fmGuarded (d : Dev) (ep : Nat) (f : Dev → Dev) : Option Nat → Dev
  | some k => (d.count ldrPg LDR.BUF_DROP_CNT).raise ldrPg LDR.E_BUF_WRITE (wd k) (wd ep)
  | none => f d

/-- A write of endpoint `ep` into frame memory, unless a protected buffer discards it (`BUF_WRITE`). -/
def Dev.fmGuard (d : Dev) (ep a n : Nat) (f : Dev → Dev) : Dev := d.fmGuarded ep f (d.bufHit false a n)

/-- A memory flit is served by its bank controller (R275, R283 to R286). -/
def Dev.memServe (d : Dev) (m : MemFlit) (es : List EccEvent) : Dev :=
  if m.write then
    let be := if m.data.length = 1 then m.be.toNat else 255
    let vals := m.data.map (·.toNat)
    (d.fmGuard m.req.val m.addr (8 * m.data.length) fun e => e.fmWrite m.addr be m.pois.toNat (es.headD .clean) vals).send
      (.memAck m.req.val m.tag.val)
  else
    let r := d.fmRead m.addr m.count es
    r.1.send (.memData m.req.val m.tag.val r.2.1 r.2.2)

/-! ### Frame ports (R287, R288, R299) -/

/-- A frame port latches its registers at a buffer boundary. -/
def Dev.fmpLatch (d : Dev) (b : Nat) (dir : Nat) : Dev :=
  let p := fmPg b
  let s := d.fmp b
  let on := d.flag p FMEM.EN && decide (d.fld p FMEM.DIR = dir)
  let move := decide (d.reg p FMEM.FMP_BASE ≠ s.base ∨ d.reg p FMEM.FMP_SIZE ≠ s.size) || !s.run
  if on then
    d.setFmp b { s with run := true, cfg := d.reg p FMEM.FMP_CFG, base := d.reg p FMEM.FMP_BASE, size := d.reg p FMEM.FMP_SIZE,
                        tsAdd := d.reg p FMEM.FMP_TSADD, buf := if move then 0 else s.buf, ready := if move then [] else s.ready,
                        cnt := 0, ts := none, trunc := false, drop := false, rpos := none }
  else d.setFmp b { FmpSt.init with rx := if dir = 0 then [] else s.rx }

/-- Byte address of a buffer of the ring. -/
def FmpSt.bufAddr (s : FmpSt) (n : Nat) : Nat := (fieldOf FMEM.BASE s.base + n * fieldOf FMEM.BUF_KIB s.size) * 1024

/-- Stream words a buffer holds. -/
def FmpSt.cap (s : FmpSt) : Nat := (128 * fieldOf FMEM.BUF_KIB s.size - 1) * 2

/-- Buffers of the ring. -/
def FmpSt.nbuf (s : FmpSt) : Nat := fieldOf FMEM.NBUF_M1 s.size + 1

/-- Two frame ports share a ring. -/
def sameRing (a b : FmpSt) : Bool := decide (a.base = b.base ∧ a.size = b.size)

/-- A reader at work shares the ring of bank `b`'s writer. -/
def Dev.ringRead (d : Dev) (b : Nat) : Bool :=
  anyIf 32 fun k => decide (k ≠ b) && (d.fmp k).run && decide (fieldOf FMEM.DIR (d.fmp k).cfg = 1) && sameRing (d.fmp k) (d.fmp b)

/-- One 32-bit stream word of a buffer. -/
def Dev.fmpStore (d : Dev) (b a : Nat) (w : FlowWord) : Dev :=
  d.fmGuard (16384 + b) a 4 fun (e : Dev) =>
    ({ e with cw := { e.cw with mem := memSet e.cw.mem a 4 w.word.toNat } } : Dev).fmSetPois (a / 8 * 8)
    (w.poison || (decide (a % 8 = 4) && d.fmPois (a / 8 * 8)))

/-- A buffer's first word finds the buffer still to be read: the whole incoming buffer is discarded. -/
def Dev.fmpFirst (d : Dev) (b : Nat) : Dev :=
  let s := d.fmp b
  if s.ready.contains s.buf = false then d
  else if d.ringRead b then
    ((d.setFmp b { s with drop := true }).count (fmPg b) FMEM.FMP_OVR_CNT).raise (fmPg b) FMEM.E_FMP_OVR
  else d.setFmp b { s with ready := s.ready.filter fun n => decide (n ≠ s.buf) }

/-- The writer ends its buffer (R287). -/
def Dev.fmpEnd (d : Dev) (b ts : Nat) : Dev :=
  let s := d.fmp b
  if s.drop then d.setFmp b { s with cnt := 0, ts := none, trunc := false, drop := false }
  else
    let t := s.ts.getD ts
    let a := s.bufAddr s.buf
    let hdr := s.cnt * 2 ^ 32 + (if s.trunc then 2 ^ 31 else 0) + t / 1000000000 % 2 * 2 ^ 30 + t % 1000000000
    (d.fmGuard (16384 + b) a 8 fun e => (e.fmPut a hdr).fmSetPois a false).setFmp b
      { s with cnt := 0, ts := none, trunc := false, ready := s.ready ++ [s.buf], buf := (s.buf + 1) % s.nbuf }

/-- One arriving word of a writer. -/
def Dev.fmpTake (d : Dev) (b : Nat) (w : FlowWord) : Dev :=
  if w.marker then (d.fmpEnd b w.ts).fmpLatch b 0
  else
    let d1 := if (d.fmp b).ts.isNone then d.fmpFirst b else d
    let s := d1.fmp b
    let s1 := { s with ts := some (s.ts.getD w.ts) }
    if s.drop then d1.setFmp b s1
    else if s.cnt < s.cap then (d1.fmpStore b (s.bufAddr s.buf + 8 + 4 * s.cnt) w).setFmp b { s1 with cnt := s.cnt + 1 }
    else d1.setFmp b { s1 with trunc := true }

/-- `FRAME_PORT_WRITE`: the writer of bank `b` stores its oldest arrived word. -/
def Dev.framePortWrite (d : Dev) (b : Nat) : Dev :=
  let d1 := if (d.fmp b).run then d else
    let w := (d.fmp b).rx
    let e := d.fmpLatch b 0
    if (e.fmp b).run then e.setFmp b { e.fmp b with rx := w } else e
  let s := d1.fmp b
  match s.rx with
  | w :: rest => if s.run ∧ fieldOf FMEM.DIR s.cfg = 0 then (d1.setFmp b { s with rx := rest }).fmpTake b w else d1
  | [] => d1

/-- The bank whose writer fills the ring of a reader. -/
def Dev.ringWriter (d : Dev) (b : Nat) : Option Nat :=
  (List.range 32).find? fun k => decide (k ≠ b) && (d.fmp k).run && decide (fieldOf FMEM.DIR (d.fmp k).cfg = 0) &&
    sameRing (d.fmp k) (d.fmp b)

/-- A reader sends a word of its buffer. -/
def Dev.fmpSend (d : Dev) (b ts ch : Nat) (w : Word) (marker poison : Bool) : Dev :=
  d.pushFlow (16384 + b) ⟨fieldOf FMEM.FLOW (d.fmp b).cfg, ch, ts, w, marker, poison⟩

/-- Word `i` of the reader's buffer, or the marker after its last; `e` is what the word's code meets. -/
def Dev.fmpEmit (d : Dev) (b k i : Nat) (e : EccEvent) : Dev :=
  let s := d.fmp b
  let a := s.bufAddr s.buf
  let hdr := d.fmWord a
  let n := hdr / 2 ^ 32
  let t := restoreTime d.now 2 (hdr / 2 ^ 30 % 2) (hdr % 2 ^ 30) + fieldOf FMEM.TS_ADD s.tsAdd
  let ch := fieldOf FMEM.CH s.cfg
  if i < n then
    let wa := a + 8 + 4 * i
    let d1 := d.fmMeet (wa / 8 * 8) e
    let bad := d1.fmPois (wa / 8 * 8)
    (d1.fmpSend b t (ch + i % (fieldOf FMEM.NCH_M1 s.cfg + 1)) (if bad then 0 else wd (memNum d1.cw.mem wa 4)) false bad).setFmp b
      { s with rpos := some (i + 1) }
  else
    let d1 := d.fmpSend b t ch 0 true false
    let d2 := d1.setFmp k { d1.fmp k with ready := (d1.fmp k).ready.filter fun j => decide (j ≠ s.buf) }
    (d2.setFmp b { s with rpos := none, buf := (s.buf + 1) % s.nbuf }).fmpLatch b 1

/-- `FRAME_PORT_READ`: the reader of bank `b` emits its next word: of the buffer it reads, else of the oldest complete one. -/
def Dev.framePortRead (d : Dev) (b : Nat) (e : EccEvent) : Dev :=
  let d1 := if (d.fmp b).run then d else d.fmpLatch b 1
  let s := d1.fmp b
  if s.run ∧ fieldOf FMEM.DIR s.cfg = 1 then
    match d1.ringWriter b with
    | none => d1
    | some k =>
      match s.rpos with
      | some i => d1.fmpEmit b k i e
      | none =>
        match (d1.fmp k).ready with
        | [] => d1
        | n :: _ => (d1.setFmp b { s with buf := n, rpos := some 0 }).fmpEmit b k 0 e
  else d1

/-! ### The scrubber (R289 to R292) -/

/-- The scrubber restarts its pass (R291). -/
def Dev.scrubRestart (d : Dev) : Dev :=
  let old := d.reg scrbPg SCRB.SCRB_POS
  let d1 := ((d.setReg scrbPg SCRB.SCRB_POS 0).count scrbPg SCRB.RESTART_CNT).raise scrbPg SCRB.E_PASS_RESTART old
  { d1 with cw := { d1.cw with rowCe := 0 } }

/-- The scrubber moves to the next word; a pass ends after the last one. -/
def Dev.scrubNext (d : Dev) (b row word : Nat) : Dev :=
  let set := fun (e : Dev) b r w => ((e.setF scrbPg SCRB.BANK b).setF scrbPg SCRB.ROW r).setF scrbPg SCRB.WORD w
  let fresh := fun (e : Dev) => { e with cw := { e.cw with rowCe := 0 } }
  if word < 127 then set d b row (word + 1)
  else if row < 8191 then fresh (set d b (row + 1) 0)
  else if b < 31 then fresh (set d (b + 1) 0 0)
  else
    let e := (fresh (set d 0 0 0)).count scrbPg SCRB.PASS_CNT
    e.raise scrbPg SCRB.E_PASS_DONE

/-- What the scrubber's read meets (R290, R292). -/
def Dev.scrubMeet (d : Dev) (a : Nat) (e : EccEvent) (skip : Bool) : Dev :=
  match e with
  | .clean => d
  | .corrected =>
    if d.fmPois a then d
    else
      let d1 := (d.fmCe a).count scrbPg SCRB.SCRB_CE_CNT
      let d2 := if skip then d1.count scrbPg SCRB.WB_SKIP_CNT else d1
      let n := d2.cw.rowCe + 1
      let d3 : Dev := { d2 with cw := { d2.cw with rowCe := n } }
      if n = d3.fld scrbPg SCRB.RPR_THR then d3.rowRequest (fmBank a) (fmRow a) else d3
  | .uncorrectable => if d.fmPois a then d else (d.fmUe a).count scrbPg SCRB.SCRB_UE_CNT

/-- `SCRUB_READ`: the scrubber reads its next word. -/
def Dev.scrubRead (d : Dev) (e : EccEvent) (skip : Bool) (v : VoteEvent) : Dev :=
  if d.flag scrbPg SCRB.EN = false then d
  else
    match v with
    | .restart => d.scrubRestart
    | _ =>
      let d1 := if v = .fixed then d.count scrbPg SCRB.VOTE_FIX_CNT else d
      let b := d1.fld scrbPg SCRB.BANK
      let row := d1.fld scrbPg SCRB.ROW
      let w := d1.fld scrbPg SCRB.WORD
      (d1.scrubMeet (fmAddr b row w) e skip).scrubNext b row w

/-! ### `FMEM` registers -/

/-- A direct write is refused with cause BLOCK (R293, R299). -/
def Dev.fmemBlocked (d : Dev) (b off : Nat) (old new : Word) : Bool :=
  if off = FMEM.RPR_CTL.off then decide (fieldOf FMEM.GO new = 1 ∧ fieldOf FMEM.GO old = 0) && (d.rowRep? b).isSome
  else if off = FMEM.FMP_CFG.off then decide (fieldOf FMEM.EN old = 1 ∧ fieldOf FMEM.EN new = 1)
  else if off = FMEM.FMP_BASE.off ∨ off = FMEM.FMP_SIZE.off then d.flag (fmPg b) FMEM.EN
  else false

/-- A register of an `FMEM` page has become live. -/
def Dev.fmemLive (d : Dev) (b off : Nat) (old new : Word) : Dev :=
  if off = FMEM.RPR_CTL.off then
    let d1 := if fieldOf FMEM.GO new = 1 ∧ fieldOf FMEM.GO old = 0 ∧ d.fwActive = false then d.rowRepairStart b (fieldOf FMEM.RPR_CTL_ROW new) else d
    if fieldOf FMEM.ABORT new = 1 then (d1.setF (fmPg b) FMEM.ABORT 0).rowAbort b 5 else d1
  else d

/-- Block reset of an `FMEM` page: a repair ends with outcome 5 and leaves its slot as it is (R51), the frame port stops; rows and
memory stay. -/
def Dev.fmemReset (d : Dev) (b : Nat) : Dev :=
  let d1 := ((d.jobLeave (.row b)).rowAbort b 5).resetPage (fmPg b) (fun _ => false)
  let l := d1.rowLists b
  ({ d1 with cw := { d1.cw with fmp := Tab.del d1.cw.fmp b } } : Dev).setRowLists b l.1 l.2

/-- Block reset of `SCRB`: the scrubber's position and settings return to reset values. -/
def Dev.scrbReset (d : Dev) : Dev :=
  let d1 := d.resetPage scrbPg (fun _ => false)
  { d1 with cw := { d1.cw with rowCe := 0 } }

/-- The byte range of an enabled frame port's ring in the view. -/
def View.ring (v : View) (b : Nat) : Option (Nat × Nat) :=
  let p := fmPg b
  if v.flag p FMEM.EN then
    some (v.fld p FMEM.BASE * 1024, (v.fld p FMEM.BASE + (v.fld p FMEM.NBUF_M1 + 1) * v.fld p FMEM.BUF_KIB) * 1024)
  else none

/-- CK-3004; two ports with one base and one size share a ring. -/
def View.fmemRules (v : View) (b : Nat) : List Viol :=
  let p := fmPg b
  match v.ring b with
  | none => []
  | some r =>
    let same := fun k => decide (v.raw (fmPg k + FMEM.FMP_BASE.off) = v.raw (p + FMEM.FMP_BASE.off) ∧
      v.raw (fmPg k + FMEM.FMP_SIZE.off) = v.raw (p + FMEM.FMP_SIZE.off))
    let hit := anyIf 32 fun k => decide (k ≠ b) && !(same k) &&
      (match v.ring k with | some x => decide (x.1 < r.2 ∧ r.1 < x.2) | none => false)
    if v.has p then viol (decide (0x10000000 < r.2) || hit || !(v.d.routeOk (v.fld p FMEM.FLOW))) p 0x3004 else []

end Sys2Proof.Machine
end

