-- ==== Sys2Proof/Machine/Cells.lean ====
section
/-! DEFINITION. The cells of a fabric or keeper region (R343, R346 to R348, R356): look-up tables, carry chains and flip-flops.
What a frame's bits configure is `Config.cell`, which nothing evaluates (R382). -/

namespace Sys2Proof.Machine

open Sys2Proof.Config (Wire DSel FfCfg CellCfg)

/-! ### Look-up tables (R346): `i` is the index that L5 to L0 select, L0 least significant -/

/-- Output Z of a whole cell, and ZA and ZB of a split one, which L0 to L4 index. -/
def lutWhole (t : BitVec 64) (i : Nat) : Bool := t.getLsbD (i % 64)
def lutA (t : BitVec 64) (i : Nat) : Bool := t.getLsbD (i % 32)
def lutB (t : BitVec 64) (i : Nat) : Bool := t.getLsbD (32 + i % 32)

/-- Output Z, which reads as ZA in split mode. -/
def cellZ (x : CellCfg) (i : Nat) : Bool := if x.split then lutA x.lut i else lutWhole x.lut i

/-- Output ZB. -/
def cellZb (x : CellCfg) (i : Nat) : Bool := if x.split then lutB x.lut i else Config.wholeZb x.lut i

/-- The index of a list of input values, the first least significant. -/
def lutIndex : List Bool → Nat
  | [] => 0
  | b :: rest => (if b then 1 else 0) + 2 * lutIndex rest

/-! ### A region's nets -/

/-- What the nets of a region depend on: its number, its frames by cluster, its flip-flops, the elapsed time. -/
structure FabNets where
  region : Nat
  frames : List Nat
  ffs : Nat
  at_ : Nat

/-- The frame of a cell's cluster; a ZERO frame leaves every cell of its cluster unused (R382). -/
def FabNets.frame (x : FabNets) (c : Nat) : Nat := x.frames.getD (c / 16) 0

/-- Cell `c` as configured. -/
def FabNets.cell (x : FabNets) (c : Nat) : CellCfg := Config.cell x.region (c / 16) (x.frame c) (c % 16)

/-- Cell 0 of row 0 of a column: its chain takes its carry from a routed net (R348). -/
def chainHead (c : Nat) : Bool := decide (c % 512 = 0)

/-- The value of a wire, through at most `n` tables and carries. The carry into a cell is the carry out of the cell before it:
within a cluster, from cell 15 into cell 0 of the next row, and so to the end of the column (R348). -/
def FabNets.val (x : FabNets) : Nat → Wire → Bool
  | 0, _ => Config.wireLoop x.region x.at_
  | n + 1, w =>
    let idx := fun (c : Nat) => lutIndex ((x.cell c).l.map fun s => x.val n s)
    match w with
    | .q c j => x.ffs.testBit (2 * c + if j then 1 else 0)
    | .z c => cellZ (x.cell c) (idx c)
    | .zb c => cellZb (x.cell c) (idx c)
    | .sum c => Config.carrySum (x.cell c).lut (x.cell c).split (idx c) (x.val n (.cin c))
    | .cin c =>
      if chainHead c then x.val n (x.cell c).carry
      else Config.carryOut (x.cell (c - 1)).lut (x.cell (c - 1)).split (idx (c - 1)) (x.val n (.cin (c - 1)))
    | .ext k => Config.wireIn x.region k x.at_
    | .lit b => b

/-- Every acyclic path passes each output of each of the region's 8,192 cells at most once. -/
def FabNets.wire (x : FabNets) (w : Wire) : Bool := x.val 40000 w

/-! ### Flip-flops (R347) -/

/-- A flip-flop of cell `c` as configured. -/
def FabNets.ff (x : FabNets) (c : Nat) (j : Bool) : FfCfg := if j then (x.cell c).ff1 else (x.cell c).ff0

/-- The wire at a flip-flop's bypass input: L5 for the second flip-flop of a split cell. -/
def FabNets.bypass (x : FabNets) (c : Nat) (j : Bool) : Wire :=
  if j && (x.cell c).split then (x.cell c).l.getD 5 (x.ff c j).bypass else (x.ff c j).bypass

/-- The value at a flip-flop's D input. -/
def FabNets.d (x : FabNets) (c : Nat) (j : Bool) : Bool :=
  match (x.ff c j).d with
  | .z => x.wire (.z c)
  | .zb => x.wire (.zb c)
  | .sum => x.wire (.sum c)
  | .bypass => x.wire (x.bypass c j)

/-- A flip-flop's value after a moment at which its clock rises or not, with `v` at its D input. -/
def FabNets.next (x : FabNets) (c : Nat) (j : Bool) (edge : Bool) (v : Bool) : Bool :=
  let f := x.ff c j
  let sr := x.wire f.sr
  let ce := x.wire f.ce
  let old := x.ffs.testBit (2 * c + if j then 1 else 0)
  if f.async && sr then f.srVal
  else if edge then
    if sr && (ce || !Config.srNeedsCe) then f.srVal else if ce then v else old
  else old

/-- Cells of a region: 8,192, or 4,096 of a keeper region (R343). -/
def cellCount (n : Nat) : Nat := if n < 32 then 8192 else 4096

/-- The flip-flops of a region, each given its value; those of unused cells hold 0. -/
def FabNets.all (x : FabNets) (g : Nat → Bool → Bool) : Nat :=
  (List.range (cellCount x.region)).foldl (fun s c =>
    if x.frame c = 0 then s
    else s + (if g c false then 2 ^ (2 * c) else 0) + (if g c true then 2 ^ (2 * c + 1) else 0)) 0

/-- Every flip-flop at its init value. -/
def FabNets.inits (x : FabNets) : Nat := x.all fun c j => (x.ff c j).init

/-- The flip-flops after a nanosecond in which the nets that `rise` names have a rising edge: those with a regional net or clock
select. -/
def FabNets.clocked (x : FabNets) (rise : Fin 4 → Bool) : Nat :=
  x.all fun c j => match (x.ff c j).net with
    | some i => x.next c j (rise i) (x.d c j)
    | none => x.ffs.testBit (2 * c + if j then 1 else 0)

/-- The flip-flops that take their clock from a routed net, once the others have moved on from `old`: the net rises where it was
0 before; no set-up or hold relation holds, so what the flip-flop takes is free (R356). -/
def FabNets.routed (x old : FabNets) : Nat :=
  x.all fun c j => match (x.ff c j).net with
    | some _ => x.ffs.testBit (2 * c + if j then 1 else 0)
    | none =>
      x.next c j (!(old.wire (x.ff c j).routed) && x.wire (x.ff c j).routed) (Config.untimed x.region c j x.at_)

/-! ### In the device -/

/-- The nets of region `n`. -/
def Dev.nets (d : Dev) (n : Nat) : FabNets :=
  ⟨n, (List.range 512).map fun k => (Tab.get d.ld.frames (n * 512 + k)).getD 0, (d.region n).ffs, d.mono⟩

/-- The region's flip-flops take their init values (R347): at load, while it is held for loading, on wake from LULL, on block
reset of its page. -/
def Dev.ffsInit (d : Dev) (n : Nat) : Dev := d.setRegion n { d.region n with ffs := (d.nets n).inits }

/-- The region holds a configuration. -/
def Dev.regionFilled (d : Dev) (n : Nat) : Bool := d.ld.frames.any fun e => decide (e.1 / 512 = n)

end Sys2Proof.Machine
end

