-- ==== Sys2Proof/Machine/Time.lean ====
section
/-! DEFINITION. Device time and the servo (R318 to R324), media clock generators (R327, R328). -/

namespace Sys2Proof.Machine

/-- The `TIME` page. -/
def tmPg : Nat := pg .time 0

/-- The `MCG` page of generator `n`. -/
def mcgPg (n : Nat) : Nat := pg .mcg n

/-! ### Media clock generators (R327, R328) -/

/-- `MCG_COUNT` and `MCG_EPOCH` are brought up to date with device time. -/
def Dev.mcgSync (d : Dev) (n : Nat) : Dev :=
  if d.mcgRuns n then
    let k := edgeBefore (d.mcgRate n) d.now
    let old := (Tab.get d.tm.last n).getD 0
    let d1 : Dev := { d with tm := { d.tm with last := Tab.put d.tm.last n k 0 } }
    let d2 := d1.setReg (mcgPg n) MCG.MCG_COUNT (wd k)
    if old / 2 ^ 32 < k / 2 ^ 32 then d2.count (mcgPg n) MCG.MCG_EPOCH (k / 2 ^ 32 - old / 2 ^ 32) else d2
  else d

/-- The grid of a generator has moved, or its rate has changed: counting goes on from the latest edge. -/
def Dev.mcgRebase (d : Dev) (n : Nat) : Dev :=
  if d.mcgRuns n then
    let k := edgeBefore (d.mcgRate n) d.now
    ({ d with tm := { d.tm with last := Tab.put d.tm.last n k 0 } } : Dev).setReg (mcgPg n) MCG.MCG_COUNT (wd k)
  else d

/-- A generator is in use (R328): an enabled group, a valid flow-table entry, or a slot in CHECKING names it. -/
def Dev.mcgInUse (d : Dev) (n : Nat) : Bool :=
  anyIf 16 (fun g => d.flag (pg .pgrp g) HDR.ENABLE && decide (d.fld (pg .pgrp g) PGRP.MCG = n)) ||
  (d.ftFlows.any fun f => bitAt (d.ftWord f 0) 31 && decide (bitsOf (d.ftWord f 0) 23 22 = n)) ||
  anyIf 16 (fun m => decide ((d.slot m).state = .checking ∧ d.trig m = 2 ∧ d.fld mstPg (MST.MCG.at m) = n))

/-- A direct write to an `MCG` page is refused with cause BLOCK (R328, R341). -/
def Dev.mcgBlocked (d : Dev) (n off : Nat) (old new : Word) : Bool :=
  if off = HDR.PAGE_CTL.off then bitAt old 0 && !(bitAt new 0) && d.mcgInUse n
  else if off = MCG.MCG_CFG.off then
    (decide (old ≠ new) && d.mcgInUse n) || (decide (fieldOf MCG.VRATE new ≠ 0) && decide (fieldOf MCG.VLINES new < 2))
  else false

/-- Generator `n` stops. -/
def Dev.mcgStop (d : Dev) (n : Nat) : Dev :=
  let d0 := d.mcgSync n
  let d1 : Dev := { d0 with tm := { d0.tm with starts := Tab.del d0.tm.starts n, last := Tab.del d0.tm.last n } }
  if d1.mcgRuns n then (d1.setF (mcgPg n) MCG.RUNNING 0).raise (mcgPg n) MCG.E_MCG_STOP else d1

/-- A register of an `MCG` page has become live. With the family the grids of the generator's groups change (R99). -/
def Dev.mcgLive (d : Dev) (n off : Nat) (via : Via) (old new : Word) : Dev :=
  if off = HDR.PAGE_CTL.off then
    if bitAt new 0 && !(bitAt old 0) then
      { d with tm := { d.tm with starts := Tab.ins d.tm.starts n (via.instant.getD d.now) } }
    else if bitAt old 0 && !(bitAt new 0) then d.mcgStop n
    else d
  else if off = MCG.MCG_CFG.off ∧ fieldChanged MCG.FAMILY old new then
    ((List.range 16).filter fun g => decide (d.fld (pg .pgrp g) PGRP.MCG = n)).foldl (fun (e : Dev) g => e.regridGroup g)
      (d.mcgRebase n)
  else d

/-- `MCG_START`: the first base-rate edge at or after `ENABLE` became live. -/
def Dev.mcgStart (d : Dev) (n : Nat) : Dev :=
  match Tab.get d.tm.starts n with
  | none => d
  | some t =>
    let r := d.mcgRate n
    let k := edgeAt r t
    let d1 := d.reach (edgeTime r k)
    let d2 : Dev := { d1 with tm := { d1.tm with starts := Tab.del d1.tm.starts n } }
    ((d2.setF (mcgPg n) MCG.RUNNING 1).mcgRebase n).raise (mcgPg n) MCG.E_MCG_START

/-- Block reset of an `MCG` page stops its generator. -/
def Dev.mcgReset (d : Dev) (n : Nat) : Dev := (d.mcgStop n).resetPage (mcgPg n) (fun _ => false)

/-- CK-4101 and CK-4102 (R341). -/
def View.mcgRules (v : View) (n : Nat) : List Viol :=
  let p := mcgPg n
  let cfg := p + MCG.MCG_CFG.off
  let ctl := p + HDR.PAGE_CTL.off
  let vr := v.fld p MCG.VRATE
  viol (v.has p && v.d.mcgInUse n && (decide (v.raw cfg ≠ v.d.raw cfg) || decide (bitAt (v.raw ctl) 0 ≠ bitAt (v.d.raw ctl) 0)))
      p 0x4101 ++
    viol (v.has p && (decide (8 < vr) || (decide (vr ≠ 0) && decide (v.fld p MCG.VLINES < 2)))) p 0x4102

/-! ### Device time -/

/-- Signed saturation to 32 bits, as a word. -/
def sat32 (x : Int) : Word := wd (scode 32 (clampInt (-2147483648) 2147483647 x))

/-- A receive flow begins gap tracking afresh (R322). -/
def RxFlow.restart (x : RxFlow) : RxFlow := { x with started := false, held := [] }

/-- Device time jumps to `t` ns and `f` / 2^16 (R322): grids move, groups lose lock, receive flows begin gap tracking afresh. -/
def Dev.stepTo (d : Dev) (t f : Nat) : Dev :=
  let delta : Int := (t : Int) - (d.now : Int)
  let d0 := (List.range 4).foldl (fun e n => e.mcgSync n) d
  let rx : Tab RxFlow := d0.md.rx.foldl (fun t e => Tab.put t e.1 e.2.restart RxFlow.init) d0.md.rx
  let d1 : Dev := { d0 with now := t, frac := f, md := { d0.md with rx := rx } }
  let d2 := (List.range 4).foldl (fun e n => e.mcgRebase n) d1
  let d3 := (d2.count tmPg TIME.STEP_CNT).raise tmPg TIME.E_TIME_STEPPED (sat32 delta)
  (List.range 16).foldl (fun e g => e.grpUnlock g) d3

/-- `SNAP` on the `TIME` page latches device time into the source's snapshot (R319). -/
def Dev.timeSnap (d : Dev) (src : Source) : Dev :=
  let put := fun (t : Tab Word) (f : Fld) (v : Word) => Tab.put t (snapKey src (tmPg + f.off)) v 0
  let t1 := put d.snaps TIME.TIME_NS (nsWord d.now)
  let t2 := put t1 TIME.TIME_SEC_LO (secWord d.now)
  let t3 := put t2 TIME.TIME_SEC_HI (wd (d.frac % 65536 * 65536 + d.now / 1000000000 / 2 ^ 32 % 65536))
  { d with snaps := t3 }

/-- The servo's state. -/
def Dev.servo (d : Dev) : Nat := d.fld tmPg TIME.STATE

/-- The servo enters LOCKED. -/
def Dev.toLocked (d : Dev) : Dev :=
  ({ d with tm := { d.tm with bigSince := none } } : Dev).setF tmPg TIME.STATE 2 |>.raise tmPg TIME.E_TIME_LOCKED

/-- The servo enters HOLDOVER: 1 no push, 2 reference lost, 3 source or reference changed. -/
def Dev.toHoldover (d : Dev) (cause : Nat) : Dev :=
  ((d.setF tmPg TIME.STATE 3).count tmPg TIME.HOLDOVER_CNT).raise tmPg TIME.E_TIME_HOLDOVER 0 (wd cause)

/-- The servo enters ACQUIRE. -/
def Dev.toAcquire (d : Dev) : Dev :=
  (({ d with tm := { d.tm with small := 0, bigSince := none } } : Dev).setF tmPg TIME.STATE 1).setF tmPg TIME.STEP_WANT 0

/-- Device time minus an offset in 2^-16 ns; never before the epoch. -/
def Dev.timeLess (d : Dev) (off : Int) : Nat × Nat :=
  let t := ((d.now : Int) * 65536 + (d.frac : Int) - off).toNat
  (t / 65536, t % 65536)

/-- A measurement under the ACQUIRE rows. -/
def Dev.acquire (d : Dev) (off : Int) (big : Bool) : Dev :=
  if big then
    let t := d.timeLess off
    ({ d with tm := { d.tm with small := 0 } } : Dev).stepTo t.1 t.2
  else
    let d1 : Dev := { d with tm := { d.tm with small := d.tm.small + 1 } }
    if d1.tm.small = 16 then d1.toLocked else d1

/-- A measurement arrives: device time minus master time in 2^-16 ns (R320 to R323). -/
def Dev.measure (d : Dev) (off : Int) : Dev :=
  let ns := off / 65536
  let d1 := (d.count tmPg TIME.MEAS_CNT).setF tmPg TIME.OFFSET (scode 28 (clampInt (-134217727) 134217727 ns))
  let big := decide (d1.fld tmPg TIME.STEP_THR * 1000 * 65536 ≤ off.natAbs)
  match d1.servo with
  | 0 => (d1.toAcquire).acquire off big
  | 1 => d1.acquire off big
  | s =>
    let since := if big then some (d1.tm.bigSince.getD d1.mono) else none
    let d2 : Dev := { d1 with tm := { d1.tm with bigSince := since } }
    if s = 3 && !big && decide (d2.fld tmPg TIME.SRC ≠ 0) then d2.toLocked else d2

/-- A write to the `TIME` page is refused with cause BLOCK. -/
def Dev.timeBlocked (d : Dev) (off : Nat) (new : Word) : Bool :=
  if off = TIME.SRV_PUSH.off then bitAt new 31 && decide (d.fld tmPg TIME.SRC ≠ 1)
  else if off = TIME.TIME_CMD.off then
    (bitAt new 1 && decide (d.servo < 2)) || (bitAt new 0 && decide (d.servo ≠ 0))
  else false

/-- `SERVO_PUSH` (R323). -/
def Dev.servoPush (d : Dev) : Dev :=
  let off := sext 32 (d.reg tmPg TIME.SRV_OFS).toNat * 65536 + (d.fld tmPg TIME.SRV_PUSH_FRAC : Int)
  let d1 := d.setF tmPg TIME.GO 0
  ({ d1 with tm := { d1.tm with pushAt := d1.mono, pushTmo := d1.fld tmPg TIME.MEAS_TMO } } : Dev).measure off

/-- `SET` (R322): device time takes `TIME_SET`. -/
def Dev.timeSet (d : Dev) : Dev :=
  d.stepTo ((d.fld tmPg TIME.TIME_SET_SEC_HI_SEC_HI * 2 ^ 32 + (d.reg tmPg TIME.TIME_SET_SEC_LO).toNat) * 1000000000 +
    d.fld tmPg TIME.TIME_SET_NS_NS) 0

/-- `TIME_SRC_WRITE` (R320). -/
def Dev.timeSrc (d : Dev) (old new : Word) : Dev :=
  let ref := decide (fieldOf TIME.SRC new = 2) && (fieldChanged TIME.REFIN old new || fieldChanged TIME.REF_MCG old new)
  if (fieldChanged TIME.SRC old new || ref) && decide (d.servo = 2) then d.toHoldover 3 else d

/-- A register of the `TIME` page has become live. -/
def Dev.timeLive (d : Dev) (off : Nat) (old new : Word) : Dev :=
  if off = TIME.SRV_PUSH.off then (if bitAt new 31 then d.servoPush else d)
  else if off = TIME.TIME_CMD.off then
    let d1 := d.put (tmPg + off) 0
    if bitAt new 1 then d1.toAcquire else if bitAt new 0 then d1.timeSet else d1
  else if off = TIME.TIME_SRC.off then d.timeSrc old new
  else d

/-- `MEAS_TIMEOUT`: no push for `MEAS_TMO` ms. -/
def Dev.measTimeout (d : Dev) : Dev :=
  if d.servo = 2 ∧ d.fld tmPg TIME.SRC = 1 then
    (d.pass (d.tm.pushAt + d.tm.pushTmo * 1000000 - d.mono)).toHoldover 1
  else d

/-- `STEP_WANTED`: every offset has been large for 10 s. -/
def Dev.stepWanted (d : Dev) : Dev :=
  match d.tm.bigSince with
  | some t =>
    if 2 ≤ d.servo ∧ d.flag tmPg TIME.STEP_WANT = false then
      ((d.pass (t + 10000000000 - d.mono)).setF tmPg TIME.STEP_WANT 1).raise tmPg TIME.E_STEP_WANTED
    else d
  | none => d

/-! ### Reference inputs (R324) -/

/-- The grid point of `REF_MCG` nearest a device time: frame starts for video sync, base-rate edges for word clock. -/
def Dev.refGrid (d : Dev) (kind mcg t : Nat) : Option Nat :=
  let near := fun a b => if t - a ≤ b - t then a else b
  if !(d.mcgRuns mcg) then none
  else if kind = 1 then
    let vr := d.fld (mcgPg mcg) MCG.VRATE
    if vr = 0 then none
    else
      let f := frameAt vr t
      some (near (frameTime vr (f - 1)) (frameTime vr f))
  else
    let r := d.mcgRate mcg
    let k := edgeAt r t
    some (near (edgeTime r (k - 1)) (edgeTime r k))

/-- `REFIN_MEASUREMENT`: the reference the servo follows has shown a frame start, or the edges of 10 ms of word clock, at
these device times. -/
def Dev.refinMeasure (d : Dev) (edges : List Nat) : Dev :=
  let i := d.fld tmPg TIME.REFIN
  let p := pg .pdie (i / 2)
  let kind := d.fld p (PDIE.KIND.at (i % 2))
  let offs := edges.filterMap fun t => (d.refGrid kind (d.fld tmPg TIME.REF_MCG) t).map fun g => ((t : Int) - (g : Int))
  if d.fld tmPg TIME.SRC = 2 ∧ kind ≠ 0 ∧ d.flag p (PDIE.PRESENT.at (i % 2)) ∧ offs ≠ [] then
    d.measure (offs.foldl (· + ·) 0 * 65536 / (offs.length : Int))
  else d

/-- `REFIN_LOST` and `REFIN_FOUND`, with what the servo makes of the reference it follows. -/
def Dev.refinEvent (d : Dev) (k i mv : Nat) (found : Bool) : Dev :=
  let was := d.flag (pg .pdie k) (PDIE.PRESENT.at i)
  let d1 := d.refin k i mv found
  if was && !(d1.flag (pg .pdie k) (PDIE.PRESENT.at i)) && decide (d1.servo = 2 ∧ d1.fld tmPg TIME.SRC = 2 ∧ d1.fld tmPg TIME.REFIN = k * 2 + i)
  then d1.toHoldover 2 else d1

end Sys2Proof.Machine
end

