-- ==== Sys2Proof/Machine/Lanes.lean ====
section
/-! DEFINITION. Serial lanes, lane groups and Ethernet ports (chapter 10, R300 to R317, R544). -/

namespace Sys2Proof.Machine

/-- The `LGRP` page of group `g`. -/
def lgPg (g : Nat) : Nat := pg .lgrp g

/-- The `LANE` page of lane `l`. -/
def lnPg (l : Nat) : Nat := pg .lane l

/-- The `ETH` page of port `e`. -/
def ethPg (e : Nat) : Nat := pg .eth e

/-! ### Layouts (R301 to R304): `w` is an `LG_CFG` word, `k` a lane of the group -/

/-- The layout code of the half of lane `k`. -/
def halfCode (w : Word) (k : Nat) : Nat := if k < 4 then fieldOf LGRP.LAYOUT_LO w else fieldOf LGRP.LAYOUT_HI w

/-- The layout code of the port whose first lane is `k`, 0 for none. -/
def portCode (w : Word) (k : Nat) : Nat :=
  let c := halfCode w k
  if c = 1 ∨ c = 3 then c
  else if (c = 2 ∨ c = 5) ∧ k % 4 = 0 then c
  else if c = 4 ∧ k % 2 = 0 then c
  else if c = 6 ∧ k = 0 then c
  else 0

/-- Lanes of a port. -/
def codeLanes : Nat → Nat
  | 2 => 4 | 4 => 2 | 5 => 4 | 6 => 8 | _ => 1

/-- NRZ codes. -/
def codeNrz (c : Nat) : Bool := decide (c = 1 ∨ c = 2)

/-- PAM4 codes. -/
def codePam (c : Nat) : Bool := decide (3 ≤ c ∧ c ≤ 6)

/-- The group rate F in 10 kBd units. -/
def groupRate (w : Word) : Nat :=
  let lo := fieldOf LGRP.LAYOUT_LO w
  let hi := fieldOf LGRP.LAYOUT_HI w
  if codePam lo ∨ codePam hi then 2656250
  else if codeNrz lo ∨ codeNrz hi then 2578125
  else fieldOf LGRP.PLL_RATE w

/-- The live layout of the group of lane or port `e`. -/
def Dev.lgCfg (d : Dev) (e : Nat) : Word := d.reg (lgPg (e / 8)) LGRP.LG_CFG

/-- The layout code of port `e`, 0 when the lane is not the first lane of a port. -/
def Dev.ethCode (d : Dev) (e : Nat) : Nat := portCode (d.lgCfg e) (e % 8)

/-- The lanes of port `e`. -/
def Dev.ethLanes (d : Dev) (e : Nat) : List Nat :=
  let c := d.ethCode e
  if c = 0 then [] else (List.range (codeLanes c)).map (e + ·)

/-- The port that lane `l` belongs to. -/
def Dev.portOfLane (d : Dev) (l : Nat) : Option Nat :=
  ((List.range 8).map (l / 8 * 8 + ·)).find? fun e => (d.ethLanes e).contains l

/-- The lane runs as a raw lane (R312). -/
def Dev.rawLane (d : Dev) (l : Nat) : Bool :=
  decide (halfCode (d.lgCfg l) (l % 8) = 0) && decide (d.fld (lnPg l) LANE.RAW_MODE ≠ 0) && !(d.flag (lnPg l) LANE.RETIRE)

/-! ### Pattern generator and checker (R313) -/

/-- Degree and taps of the pattern a `PRBS` code names (IEEE 802.3): x⁷ + x⁶ + 1, x⁹ + x⁵ + 1, x¹⁵ + x¹⁴ + 1, x³¹ + x²⁸ + 1, and
for PRBS13Q x¹³ + x¹² + x² + x + 1. -/
def prbsTaps : Nat → Nat × List Nat
  | 1 => (7, [7, 6])
  | 2 => (9, [9, 5])
  | 3 => (15, [15, 14])
  | 5 => (13, [13, 12, 2, 1])
  | _ => (31, [31, 28])

/-- The next bit of a pattern after the bits `s`, the newest in bit 0, and the bits with `b` behind them. -/
def prbsBit (code s : Nat) : Bool := (prbsTaps code).2.foldl (fun b t => b ^^ s.testBit (t - 1)) false
def prbsPush (code s : Nat) (b : Bool) : Nat := (2 * s + if b then 1 else 0) % 2 ^ (prbsTaps code).1

/-- The next `n` bits of a pattern and the bits that follow them. -/
def prbsBits (code : Nat) : Nat → Nat → List Bool × Nat
  | 0, s => ([], s)
  | n + 1, s =>
    let b := prbsBit code s
    let r := prbsBits code n (prbsPush code s b)
    (b :: r.1, r.2)

/-- The layout gives the lane PAM4: two bits a symbol. -/
def Dev.lanePam (d : Dev) (l : Nat) : Bool :=
  let c := halfCode (d.lgCfg l) (l % 8)
  codePam c || (decide (c = 0) && decide (d.fld (lnPg l) LANE.RAW_MODE = 2))

/-- The generator and checker of lane `l` serve: `PRBS` names a pattern, the lane is a raw lane or one of a DISABLED port, and its
transmitter and clock run. -/
def Dev.prbsServes (d : Dev) (l : Nat) : Bool :=
  decide (d.fld (lnPg l) LANE.PRBS ≠ 0) && !(d.flag (lnPg l) LANE.RETIRE) && d.flag (lgPg (l / 8)) LGRP.LOCKED &&
    decide (d.pwrState (lgPg (l / 8)) ≤ 1) &&
    (d.rawLane l || match d.portOfLane l with | some e => decide (d.st (ethPg e) = 0) | none => false)

/-- The generator and checker of a lane stop or start again. -/
def Dev.prbsGone (d : Dev) (l : Nat) : Dev :=
  ({ d with ln := { d.ln with prbs := Tab.del d.ln.prbs l } } : Dev).setF (lnPg l) LANE.PRBS_LOCK 0

/-- A generator and checker that start. -/
def prbsInit (l code : Nat) : PrbsSt := ⟨1 + Config.prbsSeed l % (2 ^ (prbsTaps code).1 - 1), 0, 0, 0⟩

/-- The bits that reach the receiver as the lane sends `tx`: its own with `LOOP`, else those at the pins; both ends obey the
polarity bits. -/
def Dev.laneRx (d : Dev) (l k : Nat) (tx : List Bool) : List Bool :=
  let p := lnPg l
  let rx := d.flag p LANE.RX_INV
  if d.flag p LANE.LOOP then tx.map fun b => b ^^ d.flag p LANE.TX_INV ^^ rx
  else (List.range tx.length).map fun i => Config.laneBit l d.mono (2 * k + i) ^^ rx

/-- Bit errors of a symbol: bits that differ, and one at most in PAM4. -/
def bitErrors (pam : Bool) (a b : List Bool) : Nat :=
  let n := ((a.zip b).filter fun x => decide (x.1 ≠ x.2)).length
  if pam then Nat.min n 1 else n

/-- The checker takes a symbol: locked it predicts by itself and counts bit errors; else it follows what arrives until enough
symbols in succession came as predicted. -/
def Dev.prbsCheck (d : Dev) (l code : Nat) (x : PrbsSt) (pam : Bool) (rx : List Bool) : Dev × PrbsSt :=
  let p := lnPg l
  let want := prbsBits code rx.length x.chk
  let bad := bitErrors pam want.1 rx
  if d.flag p LANE.CDR_LOCK = false then (d, x)
  else if d.flag p LANE.PRBS_LOCK then ((if bad = 0 then d else d.count64 p LANE.PRBS_ERR bad), { x with chk := want.2 })
  else
    let good := if bad = 0 ∧ x.chk ≠ 0 then x.good + 1 else 0
    let y := { x with chk := rx.foldl (prbsPush code) x.chk, good := good }
    if 1 ≤ good ∧ Config.prbsLockAfter code ≤ good then (d.setF p LANE.PRBS_LOCK 1, y) else (d, y)

/-- One symbol of lane `l`, the `k`th of this nanosecond. -/
def Dev.prbsSymbol (d : Dev) (l k : Nat) : Dev :=
  let code := d.fld (lnPg l) LANE.PRBS
  let pam := d.lanePam l
  let x := (Tab.get d.ln.prbs l).getD (prbsInit l code)
  let tx := prbsBits code (if pam then 2 else 1) x.gen
  let r := d.prbsCheck l code { x with gen := tx.2 } pam (d.laneRx l k tx.1)
  { r.1 with ln := { r.1.ln with prbs := Tab.ins r.1.ln.prbs l r.2 } }

/-- A nanosecond of lane `l`'s generator and checker: the lane runs at F / D (R301), so F / D × 10 kBd is the sixteenth part of its
symbols in units of 1/1,600,000. -/
def Dev.prbsTick (d : Dev) (l : Nat) : Dev :=
  if d.prbsServes l then
    let code := d.fld (lnPg l) LANE.PRBS
    let x := (Tab.get d.ln.prbs l).getD (prbsInit l code)
    let a := x.phase + groupRate (d.lgCfg l) * 16 / 2 ^ d.fld (lnPg l) LANE.DIV
    let d1 : Dev := { d with ln := { d.ln with prbs := Tab.ins d.ln.prbs l { x with phase := a % 1600000 } } }
    (List.range (a / 1600000)).foldl (fun (e : Dev) k => e.prbsSymbol l k) d1
  else d

/-- Every lane's generator and checker. -/
def Dev.lanesTick (d : Dev) : Dev := (List.range 64).foldl (fun (e : Dev) l => e.prbsTick l) d

/-- The lane's pins send nothing: internal loopback, or a lane held off (R313, R314). -/
def Dev.laneSilent (d : Dev) (l : Nat) : Bool := d.flag (lnPg l) LANE.LOOP || d.flag (lnPg l) LANE.RETIRE

/-- A port's lanes reach its pins: none is in internal loopback. -/
def Dev.ethSend (d : Dev) (e : Nat) (m : OutMsg) : Dev := if (d.ethLanes e).any fun l => d.laneSilent l then d else d.send m

/-! ### Port states (R306) -/

/-- A port's state. -/
def Dev.eth (d : Dev) (e : Nat) : EthSt := (Tab.get d.ln.eth e).getD ⟨0, 0⟩

/-- Store a port's state. -/
def Dev.setEth (d : Dev) (e : Nat) (x : EthSt) : Dev := { d with ln := { d.ln with eth := Tab.put d.ln.eth e x ⟨0, 0⟩ } }

/-- A port enters a state: 0 DISABLED, 1 AN, 2 TRAINING, 3 UP, 4 DOWN, 5 SURVEY. Pattern generators of its lanes serve in DISABLED
only (R313). -/
def Dev.ethTo (d : Dev) (e st : Nat) : Dev :=
  let d1 := ((d.setSt (ethPg e) st).setF (ethPg e) ETH.STATE st).setEth e { d.eth e with since := d.mono }
  if st = 0 then d1 else (d.ethLanes e).foldl (fun (x : Dev) l => if x.fld (lnPg l) LANE.PRBS = 0 then x else x.prbsGone l) d1

/-- The receivers of a port's lanes: 0 off, 1 acquiring, 2 tracking, which `FREEZE` turns into 3. -/
def Dev.lanesAdapt (d : Dev) (e n : Nat) : Dev :=
  (d.ethLanes e).foldl (fun x l => x.setF (lnPg l) LANE.ADAPT (if n = 2 ∧ x.flag (lnPg l) LANE.FREEZE then 3 else n)) d

/-- A port goes to DOWN with a cause; leaving UP raises `LINK_DOWN`. -/
def Dev.ethDown (d : Dev) (e cause : Nat) : Dev :=
  let p := ethPg e
  let was := decide (d.st p = 3)
  let d1 := (((d.ethTo e 4).setF p ETH.DOWN_CAUSE cause).setF p ETH.PCS_LOCK 0).setF p ETH.FEC_LOCK 0
  if was then (d1.count64 p ETH.LINK_DOWN_CNT).raise p ETH.E_LINK_DOWN else d1

/-- A port that is UP goes to DOWN. -/
def Dev.ethLose (d : Dev) (e cause : Nat) : Dev := if d.st (ethPg e) = 3 then d.ethDown e cause else d

/-- A port with a retired lane. -/
def Dev.ethRetired (d : Dev) (e : Nat) : Bool := (d.ethLanes e).any fun l => d.flag (lnPg l) LANE.RETIRE

/-- Bring-up may run: a port with `ENABLE` = 1 whose group is locked and runs, with no lane retired. -/
def Dev.ethMay (d : Dev) (e : Nat) : Bool :=
  d.flag (ethPg e) HDR.ENABLE && decide (d.ethCode e ≠ 0) && d.flag (lgPg (e / 8)) LGRP.LOCKED &&
    decide (d.pwrState (lgPg (e / 8)) ≤ 1) && !(d.ethRetired e)

/-- Bring-up as from DISABLED (R306). -/
def Dev.bringUp (d : Dev) (e : Nat) : Dev :=
  let p := ethPg e
  if d.ethMay e then
    let d1 := d.lanesAdapt e 1
    if d1.flag p ETH.AN_EN then d1.ethTo e 1
    else if d1.flag p ETH.TRAIN_EN then d1.ethTo e 2
    else d1.ethDown e 0
  else d

/-- A survey ends with a status; the port returns to the state it left (R311). -/
def Dev.surveyDone (d : Dev) (e status : Nat) : Dev :=
  let p := ethPg e
  let d1 := ((d.setF p ETH.SV_GO 0).setF p ETH.STATUS status).ethTo e (d.eth e).from_
  let d2 := d1.raise p ETH.E_SURVEY_END
  if d2.st p = 4 ∨ d2.flag p HDR.ENABLE then d2.bringUp e else d2

/-- `ENABLE` of a port has changed (`ETH_ENABLE`). -/
def Dev.ethEnable (d : Dev) (e : Nat) (on : Bool) : Dev :=
  let p := ethPg e
  if on then
    if d.st p = 5 then d.surveyDone e 3 else if d.st p = 0 then d.bringUp e else d
  else
    let d0 := if d.st p = 5 then (d.setF p ETH.SV_GO 0).setF p ETH.STATUS 3 |>.raise p ETH.E_SURVEY_END else d
    let was := decide (d0.st p = 3)
    let d1 := ((d0.ethTo e 0).setF p ETH.PCS_LOCK 0).setF p ETH.FEC_LOCK 0
    let d2 := d1.lanesAdapt e 0
    if was then (d2.count64 p ETH.LINK_DOWN_CNT).raise p ETH.E_LINK_DOWN else d2

/-- `AN_RESOLVED`. -/
def Dev.anResolved (d : Dev) (e : Nat) : Dev :=
  if d.st (ethPg e) = 1 then (if d.flag (ethPg e) ETH.TRAIN_EN then d.ethTo e 2 else d.ethDown e 0) else d

/-- `AN_FAIL`: 3,000 ms without a common ability. -/
def Dev.anFail (d : Dev) (e : Nat) : Dev :=
  if d.st (ethPg e) = 1 then
    ((d.pass ((d.eth e).since + 3000000000 - d.mono)).ethDown e 6).raise (ethPg e) ETH.E_AN_FAIL
  else d

/-- `TRAINING_DONE`: every lane is trained. -/
def Dev.trainingDone (d : Dev) (e : Nat) : Dev :=
  if d.st (ethPg e) = 2 then (d.lanesAdapt e 2).ethDown e 0 else d

/-- `TRAINING_TIMEOUT`: 3,000 ms. -/
def Dev.trainingTimeout (d : Dev) (e : Nat) : Dev :=
  if d.st (ethPg e) = 2 then (d.pass ((d.eth e).since + 3000000000 - d.mono)).ethDown e 7 else d

/-- `LINK_UP`: lock on every lane. A port whose managed module has failed stays DOWN (R315). -/
def Dev.linkUp (d : Dev) (e : Nat) : Dev :=
  let p := ethPg e
  if d.st p = 4 ∧ d.ethMay e ∧ (d.ln.modBad.contains (e / 8)) = false then
    let d1 := ((d.setF p ETH.PCS_LOCK 1).setF p ETH.FEC_LOCK (if d.fld p ETH.FEC = 0 then 0 else 1)).lanesAdapt e 2
    let d2 := (d1.ethLanes e).foldl (fun x l => (x.setF (lnPg l) LANE.SIG_DET 1).setF (lnPg l) LANE.CDR_LOCK 1) d1
    (d2.ethTo e 3).raise p ETH.E_LINK_UP
  else d

/-- `BRINGUP_RETRY`: 100 ms in DOWN. -/
def Dev.bringupRetry (d : Dev) (e : Nat) : Dev :=
  if d.st (ethPg e) = 4 ∧ d.ethMay e then (d.pass ((d.eth e).since + 100000000 - d.mono)).bringUp e else d

/-- `LINK_DOWN`: signal lost on a lane (cause 1), lock lost for 1 ms (2), high symbol error rate (3). -/
def Dev.linkDown (d : Dev) (e cause : Nat) (lane : Option Nat) : Dev :=
  if d.st (ethPg e) = 3 then
    let d1 := match lane with
      | some l => if cause = 1 ∧ (d.ethLanes e).contains l then d.setF (lnPg l) LANE.SIG_DET 0 else d
      | none => d
    d1.ethDown e cause
  else d

/-- `SV_GO`: a survey starts on a DISABLED or DOWN port (R306, R311). -/
def Dev.svGo (d : Dev) (e : Nat) : Dev :=
  let st := d.st (ethPg e)
  if (st = 0 ∨ st = 4) ∧ d.ethCode e ≠ 0 then (d.setEth e { d.eth e with from_ := st }).ethTo e 5
  else if st = 5 then d else d.setF (ethPg e) ETH.SV_GO 0

/-- What a survey reports on a lane: reflections, length, and insertion loss. -/
def Dev.laneSurvey (d : Dev) (l cls : Nat) (v : LaneSurvey) : Dev :=
  let p := lnPg l
  let at_ := fun i => v.refl.getD i (0, 0)
  let d1 := (List.range 4).foldl (fun e i => e.setReg p (LANE.LN_REFL.at i) (wd ((at_ i).1 % 65536 * 65536 + (at_ i).2 % 65536))) d
  let a := (at_ 0).1
  let b := (at_ 1).1
  let len := if cls = 3 ∨ v.refl.length < 2 then 0xFFF else (if a ≤ b then b - a else a - b) / 100
  let d2 := d1.setF p LANE.LEN len
  match v.il with
  | some x => ((d2.setF p LANE.IL x).setF p LANE.IL_VALID 1).setF p LANE.IL_SRC 0
  | none => d2

/-- `ETH_SURVEY_END`: the results by lane, and the partner's base page as its FEC request and ability bits. -/
def Dev.ethSurveyEnd (d : Dev) (e : Nat) (lanes : List LaneSurvey) (partner : Option (Nat × Nat)) : Dev :=
  let p := ethPg e
  if d.st p = 5 then
    let cls := d.fld p ETH.SV_CLASS
    let d1 := ((d.ethLanes e).zip lanes).foldl (fun x y => x.laneSurvey y.1 cls y.2) d
    let w := match partner with | some a => wd (2 ^ 31 + a.1 % 4 * 2 ^ 29 + a.2 % 2 ^ 23) | none => 0
    (d1.setReg p ETH.SV_PARTNER w).surveyDone e (if partner.isSome then 1 else 2)
  else d

/-! ### Group PLL and layout -/

/-- Ports and raw lanes of a group whose PLL has no lock. -/
def Dev.pllGone (d : Dev) (g : Nat) : Dev :=
  let d1 := d.setF (lgPg g) LGRP.LOCKED 0
  let d2 := (List.range 8).foldl (fun e k => e.ethLose (g * 8 + k) 4) d1
  (List.range 8).foldl (fun e k =>
    let e1 := if e.fld (lnPg (g * 8 + k)) LANE.PRBS = 0 then e else e.prbsGone (g * 8 + k)
    if e1.rawLane (g * 8 + k) then e1.setF (lnPg (g * 8 + k)) LANE.CDR_LOCK 0 else e1) d2

/-- `PLL_UNLOCK`. -/
def Dev.pllUnlock (d : Dev) (g : Nat) (refOk : Bool) : Dev :=
  let p := lgPg g
  if d.flag p LGRP.LOCKED then
    let d1 := ((d.setFlag p LGRP.REF_OK refOk).setF p LGRP.LOCKED 0).count p LGRP.PLL_UNLOCK_CNT
    (d1.raise p LGRP.E_PLL_UNLOCK).pllGone g
  else d

/-- `PLL_LOCK`: after a retune, 5 ms after it (R304). -/
def Dev.pllLock (d : Dev) (g : Nat) : Dev :=
  let p := lgPg g
  if d.flag p LGRP.LOCKED = false ∧ d.pwrState p ≤ 1 then
    let d0 := match Tab.get d.ln.tuneAt g with
      | some t => d.pass (t + 5000000 - d.mono)
      | none => d
    let d1 : Dev := { d0 with ln := { d0.ln with tuneAt := Tab.del d0.ln.tuneAt g } }
    let d2 := ((d1.setF p LGRP.LOCKED 1).setF p LGRP.REF_OK 1).setF p LGRP.F_USE (groupRate (d1.reg p LGRP.LG_CFG))
    let d3 := d2.raise p LGRP.E_PLL_LOCK
    (List.range 8).foldl (fun e k => if e.st (ethPg (g * 8 + k)) = 0 then e.bringUp (g * 8 + k) else e) d3
  else d

/-- The layout codes of the ports of a group are shown in `ETH_STAT.MODE`. -/
def Dev.showModes (d : Dev) (g : Nat) : Dev :=
  (List.range 8).foldl (fun e k => e.setF (ethPg (g * 8 + k)) ETH.MODE (e.ethCode (g * 8 + k))) d

/-- `LAYOUT_CHANGE` (R304): a change of F retunes the PLL. -/
def Dev.layoutLive (d : Dev) (g : Nat) (old new : Word) : Dev :=
  let d1 := d.showModes g
  if groupRate old = groupRate new then d1
  else
    let d2 : Dev := { d1 with ln := { d1.ln with tuneAt := Tab.ins d1.ln.tuneAt g d1.mono } }
    (d2.setF (lgPg g) LGRP.F_USE (groupRate new)).pllGone g

/-! ### Continuous adaptation (R308 to R310) -/

/-- `ADAPT_STEP`: a tracking lane reports a new margin, 0.1 dB two's complement; at most once per 1 ms. -/
def Dev.adaptStep (d : Dev) (l m : Nat) : Dev :=
  let p := lnPg l
  let due := match Tab.get d.ln.adaptAt l with | some t => decide (t + 1000000 ≤ d.mono) | none => true
  if d.fld p LANE.ADAPT = 2 ∧ due = true then
    let v := sext 16 (m % 65536)
    let thr : Int := d.fld p LANE.MRG_THR
    let neg := if v < 0 then Tab.ins d.ln.negAt l ((Tab.get d.ln.negAt l).getD d.mono) else Tab.del d.ln.negAt l
    let d1 := ({ d with ln := { d.ln with adaptAt := Tab.ins d.ln.adaptAt l d.mono, negAt := neg } } : Dev).setF p LANE.MARGIN m
    let was := d1.ln.low.contains l
    if !was ∧ v < thr then ({ d1 with ln := { d1.ln with low := d1.ln.low ++ [l] } } : Dev).raise p LANE.E_MARGIN_LOW
    else if was ∧ thr + 10 ≤ v then
      ({ d1 with ln := { d1.ln with low := d1.ln.low.filter fun x => decide (x ≠ l) } } : Dev).raise p LANE.E_MARGIN_OK
    else d1
  else d

/-- `MARGIN_RETRAIN`: a lane of an UP port with `AUTO_RETRAIN` has been below 0 for 1 s. -/
def Dev.marginRetrain (d : Dev) (l : Nat) : Dev :=
  match d.portOfLane l, Tab.get d.ln.negAt l with
  | some e, some t =>
    if d.st (ethPg e) = 3 ∧ d.flag (ethPg e) ETH.AUTO_RETRAIN then
      let d1 := d.pass (t + 1000000000 - d.mono)
      ({ d1 with ln := { d1.ln with negAt := Tab.del d1.ln.negAt l } } : Dev).ethDown e 5
    else d
  | _, _ => d

/-- `IL_ESTIMATE`: insertion loss in 0.1 dB, every 1 s while tracking. -/
def Dev.ilEstimate (d : Dev) (l il : Nat) : Dev :=
  let p := lnPg l
  let due := match Tab.get d.ln.ilAt l with | some t => decide (t + 1000000000 ≤ d.mono) | none => true
  if d.fld p LANE.ADAPT = 2 ∧ due = true then
    ((({ d with ln := { d.ln with ilAt := Tab.ins d.ln.ilAt l d.mono } } : Dev).setF p LANE.IL il).setF p LANE.IL_VALID 1).setF
      p LANE.IL_SRC 1
  else d

/-- `CDR_LOSS` (R313, R366): the receiver's pattern checker loses its lock with the clock. -/
def Dev.cdrLoss (d : Dev) (l : Nat) : Dev :=
  let p := lnPg l
  if d.flag p LANE.CDR_LOCK then
    let d0 := if d.fld p LANE.PRBS = 0 then d else d.prbsGone l
    let d1 := (d0.setF p LANE.CDR_LOCK 0).count p LANE.CDR_LOSS_CNT
    if d1.fld p LANE.ADAPT = 0 then d1 else d1.setF p LANE.ADAPT 1
  else d

/-- `CDR_LOCK`: the group's PLL is locked and the lane is not retired. -/
def Dev.cdrLock (d : Dev) (l : Nat) : Dev :=
  let p := lnPg l
  if d.flag (lgPg (l / 8)) LGRP.LOCKED ∧ d.flag p LANE.RETIRE = false then
    let d1 := (d.setF p LANE.CDR_LOCK 1).setF p LANE.SIG_DET 1
    if d1.rawLane l ∨ d1.fld p LANE.ADAPT ≠ 0 then d1.setF p LANE.ADAPT (if d1.flag p LANE.FREEZE then 3 else 2) else d1
  else d

/-! ### Retiring a lane (R314, R544) -/

/-- A flow-table entry that a retirement of port `e` would silence. -/
def Dev.flowNeeds (d : Dev) (e f : Nat) : Bool :=
  let w := d.ftWord f 0
  let w1 := d.ftWord f 1
  let ty := bitsOf w 29 27
  let onA := decide (bitsOf w1 29 24 = e)
  let onB := bitAt w 21 && decide (bitsOf w1 21 16 = e)
  let w14 := d.ftWord f 14
  let otherUp := if onA then bitAt w14 28 else bitAt w14 29
  bitAt w 31 && (onA || onB) && (!(bitAt w 21) || (decide (ty = 2 ∨ ty = 3) && !otherUp))

/-- A direct write to a `LANE` page is refused with cause BLOCK. -/
def Dev.laneBlocked (d : Dev) (l off : Nat) (new : Word) : Bool :=
  if off = LANE.LN_CTL.off then
    bitAt new 0 && (match d.portOfLane l with
      | some e => d.ftFlows.any fun f => d.flowNeeds e f
      | none => false)
  else if off = LANE.LN_TXEQ.off then
    match d.portOfLane l with
    | some e => d.flag (ethPg e) ETH.TRAIN_EN && decide (d.st (ethPg e) ≠ 0)
    | none => false
  else false

/-- A value of `LN_TXEQ` beyond full swing. -/
def laneValueBad (off : Nat) (new : Word) : Bool :=
  decide (off = LANE.LN_TXEQ.off) &&
    decide (64 < (sext 8 (fieldOf LANE.PRE2 new)).natAbs + (sext 8 (fieldOf LANE.PRE1 new)).natAbs + fieldOf LANE.MAIN new +
      (sext 8 (fieldOf LANE.POST1 new)).natAbs)

/-- A register of a `LANE` page has become live. -/
def Dev.laneLive (d : Dev) (l off : Nat) (old new : Word) : Dev :=
  let p := lnPg l
  if off = LANE.LN_CTL.off then
    if bitAt new 0 && !(bitAt old 0) then
      let d1 := (((d.prbsGone l).setF p LANE.ADAPT 0).setF p LANE.SIG_DET 0).setF p LANE.CDR_LOCK 0
      let d2 := match d1.portOfLane l with
        | some e => if d1.flag (ethPg e) HDR.ENABLE then d1.ethDown e 8 else d1
        | none => d1
      d2.refreshHealth
    else if bitAt old 0 && !(bitAt new 0) then
      let d1 := match d.portOfLane l with | some e => d.bringUp e | none => d
      d1.refreshHealth
    else d
  else if off = LANE.LN_ADAPT.off then
    if bitAt new 31 && decide (d.fld p LANE.ADAPT = 2) then d.setF p LANE.ADAPT 3
    else if !(bitAt new 31) && decide (d.fld p LANE.ADAPT = 3) then d.setF p LANE.ADAPT 2
    else d
  else if off = LANE.LN_CFG.off ∧ old ≠ new then
    let d1 := d.prbsGone l
    if fieldChanged LANE.RAW_MODE old new ∧ (d1.portOfLane l).isNone then d1.setF p LANE.ADAPT (if d1.rawLane l then 1 else 0) else d1
  else d

/-! ### Modules (R315) -/

/-- Controller `n` belongs to the module manager. -/
def Dev.i2cManaged (d : Dev) (n : Nat) : Bool :=
  anyIf 8 fun g => d.flag (lgPg g) LGRP.MGMT_EN && decide (d.fld (lgPg g) LGRP.I2C = n)

/-- `MODULE_POLL`: the module-present level and what the module reports; `DPSTATE` 4 is data-path-activated (CMIS). -/
def Dev.modulePoll (d : Dev) (g : Nat) (present : Bool) (mstate dpstate rev flags : Nat) : Dev :=
  let p := lgPg g
  if d.flag p LGRP.MGMT_EN then
    let w := if present then wd (2 ^ 31 + mstate % 8 * 2 ^ 28 + dpstate % 16 * 2 ^ 24 + rev % 256 * 65536 + flags % 65536) else 0
    let d1 := if w = d.reg p LGRP.MOD_STAT then d else (d.setReg p LGRP.MOD_STAT w).raise p LGRP.E_MOD_CHANGE
    let way := present && decide (dpstate % 16 ≠ 4)
    let at_ := if way then Tab.ins d1.ln.modAt g ((Tab.get d1.ln.modAt g).getD d1.mono) else Tab.del d1.ln.modAt g
    let bad := if way then d1.ln.modBad else d1.ln.modBad.filter fun x => decide (x ≠ g)
    { d1 with ln := { d1.ln with modAt := at_, modBad := bad } }
  else d

/-- `MOD_FAULT`: 10 s without the data-path-activated state; the ports of the group stay DOWN with cause 1. -/
def Dev.modFault (d : Dev) (g : Nat) : Dev :=
  match Tab.get d.ln.modAt g with
  | some t =>
    if d.flag (lgPg g) LGRP.MGMT_EN ∧ (d.ln.modBad.contains g) = false then
      let d1 := d.pass (t + 10000000000 - d.mono)
      let d2 := ({ d1 with ln := { d1.ln with modBad := d1.ln.modBad ++ [g] } } : Dev).raise (lgPg g) LGRP.E_MOD_FAULT
      (List.range 8).foldl (fun x k =>
        let e := g * 8 + k
        if x.ethCode e ≠ 0 ∧ x.flag (ethPg e) HDR.ENABLE then x.ethDown e 1 else x) d2
    else d
  | none => d

/-- `MOD_ACC.GO`: one byte to or from the module. -/
def Dev.modAcc (d : Dev) (g : Nat) : Dev :=
  let p := lgPg g
  let key := d.fld p LGRP.PAGE * 256 + d.fld p LGRP.ADDR
  let ack := Config.moduleAck g key d.mono
  let d1 := (d.setF p LGRP.GO 0).setFlag p LGRP.ERR !ack
  if ack && !(d.flag p LGRP.WR) then d1.setF p LGRP.DATA (Config.moduleByte g key d.mono).toNat else d1

/-! ### Writes to `LGRP` and `ETH` pages -/

/-- A direct write to an `LGRP` page is refused with cause BLOCK (R304, R315). -/
def Dev.lgrpBlocked (d : Dev) (g off : Nat) (old new : Word) : Bool :=
  if off = LGRP.LG_CFG.off then
    anyIf 8 fun k => decide (portCode old k ≠ 0 ∧ portCode old k ≠ portCode new k) && d.flag (ethPg (g * 8 + k)) HDR.ENABLE
  else if off = LGRP.MOD_ACC.off then
    bitAt new 31 && d.flag (lgPg g) LGRP.MGMT_EN && decide (fieldOf LGRP.PAGE new = 0x10 ∨ fieldOf LGRP.PAGE new = 0x11)
  else false

/-- A layout code that is illegal. -/
def lgrpValueBad (off : Nat) (new : Word) : Bool :=
  decide (off = LGRP.LG_CFG.off) && decide (6 < fieldOf LGRP.LAYOUT_LO new ∨ 6 < fieldOf LGRP.LAYOUT_HI new)

/-- A register of an `LGRP` page has become live. -/
def Dev.lgrpLive (d : Dev) (g off : Nat) (old new : Word) : Dev :=
  if off = LGRP.LG_CFG.off then (if old = new then d else d.layoutLive g old new)
  else if off = LGRP.MOD_ACC.off then (if bitAt new 31 then d.modAcc g else d)
  else if off = LGRP.MOD_CFG.off ∧ bitAt new 31 = false then
    { d with ln := { d.ln with modAt := Tab.del d.ln.modAt g, modBad := d.ln.modBad.filter fun x => decide (x ≠ g) } }
  else d

/-- The group leaves RUN (R306): UP ports go DOWN with cause 9 and surveys are aborted. -/
def Dev.lgrpPower (d : Dev) (g st : Nat) : Dev :=
  if st ≤ 1 then
    (List.range 8).foldl (fun x k => if x.st (ethPg (g * 8 + k)) = 0 then x.bringUp (g * 8 + k) else x) d
  else
    (List.range 8).foldl (fun x k =>
      let e := g * 8 + k
      let x1 := if x.st (ethPg e) = 5 then x.surveyDone e 3 else x
      x1.ethLose e 9) d

/-- Block reset of an `LGRP` page: layout code 0 in both halves leaves no port. -/
def Dev.lgrpReset (d : Dev) (g : Nat) : Dev :=
  let d1 := (List.range 8).foldl (fun x k =>
    let e := g * 8 + k
    let x1 := if x.st (ethPg e) = 5 then x.surveyDone e 3 else x
    if x1.st (ethPg e) = 0 then x1 else (x1.ethLose e 4).ethTo e 0) d
  let d2 := d1.resetPage (lgPg g) (fun _ => false)
  let bad := d2.ln.modBad.filter fun x => decide (x ≠ g)
  let d3 : Dev := { d2 with ln := { d2.ln with modAt := Tab.del d2.ln.modAt g, tuneAt := Tab.del d2.ln.tuneAt g, modBad := bad } }
  d3.showModes g

/-- A direct write to an `ETH` page is refused with cause BLOCK (R302, R307). -/
def Dev.ethBlocked (d : Dev) (e off : Nat) (old new : Word) : Bool :=
  let st := d.st (ethPg e)
  if off = HDR.PAGE_CTL.off then bitAt new 0 && !(bitAt old 0) && decide (d.ethCode e = 0)
  else if off = ETH.ETH_CFG.off then d.flag (ethPg e) HDR.ENABLE
  else if off = ETH.ETH_CTL.off then bitAt new 30 && decide (1 ≤ st ∧ st ≤ 3)
  else false

/-- A register of an `ETH` page has become live; `ENABLE` where there is no port brings nothing up. -/
def Dev.ethLive (d : Dev) (e off : Nat) (old new : Word) : Dev :=
  if off = HDR.PAGE_CTL.off then
    if bitAt new 0 = bitAt old 0 then d else d.ethEnable e (bitAt new 0)
  else if off = ETH.ETH_CFG.off then
    let st := d.st (ethPg e)
    if old ≠ new ∧ d.flag (ethPg e) HDR.ENABLE ∧ st ≠ 0 ∧ st ≠ 5 then d.ethDown e 5 else d
  else if off = ETH.ETH_CTL.off then
    let d1 := if bitAt new 31 then (d.setF (ethPg e) ETH.RETRAIN 0).ethLose e 5 else d
    if bitAt new 30 && !(bitAt old 30) then d1.svGo e else d1
  else d

/-- Block reset of an `ETH` page: `ENABLE` is 0. -/
def Dev.ethReset (d : Dev) (e : Nat) : Dev :=
  let d1 := (d.ethEnable e false).resetPage (ethPg e) (fun _ => false)
  ({ d1 with md := { d1.md with txts := Tab.del d1.md.txts e } } : Dev).setF (ethPg e) ETH.MODE (d1.ethCode e)

/-- Block reset of a `LANE` page; retirement is kept in the store (R314). -/
def Dev.laneReset (d : Dev) (l : Nat) : Dev :=
  let d1 := d.resetPage (lnPg l) (fun _ => false)
  let low := d1.ln.low.filter fun x => decide (x ≠ l)
  let at_ := Tab.del d1.ln.adaptAt l
  { d1 with ln := { d1.ln with low := low, negAt := Tab.del d1.ln.negAt l, adaptAt := at_, ilAt := Tab.del d1.ln.ilAt l,
                               prbs := Tab.del d1.ln.prbs l } }

/-! ### Checker rules (R316) -/

/-- CK-4001 and CK-4002. -/
def View.lgrpRules (v : View) (g : Nat) : List Viol :=
  let p := lgPg g
  let w := v.raw (p + LGRP.LG_CFG.off)
  let old := v.d.raw (p + LGRP.LG_CFG.off)
  let lo := fieldOf LGRP.LAYOUT_LO w
  let hi := fieldOf LGRP.LAYOUT_HI w
  let bad := decide (6 < lo ∨ 6 < hi ∨ (lo = 6 ∧ hi ≠ 6) ∨ (lo ≠ 6 ∧ hi = 6)) ||
    (codeNrz lo && codePam hi) || (codePam lo && codeNrz hi)
  let moved := anyIf 8 fun k => decide (portCode old k ≠ 0 ∧ portCode old k ≠ portCode w k) &&
    (v.d.flag (ethPg (g * 8 + k)) HDR.ENABLE || v.flag (ethPg (g * 8 + k)) HDR.ENABLE)
  viol (v.has p && bad) p 0x4001 ++ viol (v.has p && moved) p 0x4002

/-- CK-4003. -/
def View.ethRules (v : View) (e : Nat) : List Viol :=
  let p := ethPg e
  let c := portCode (v.raw (lgPg (e / 8) + LGRP.LG_CFG.off)) (e % 8)
  let fec := v.fld p ETH.FEC
  let pmd := v.fld p ETH.PMD
  let badFec := (codeNrz c && decide (1 < fec)) || (codePam c && decide (fec ≠ 2))
  let badAn := (v.flag p ETH.AN_EN || v.flag p ETH.TRAIN_EN) && decide (pmd = 0)
  viol ((v.has p || v.has (lgPg (e / 8))) && decide (c ≠ 0) && (badFec || badAn || decide (c = 6 ∧ pmd ≠ 0))) p 0x4003

/-- CK-4004. -/
def View.laneRules (v : View) (l : Nat) : List Viol :=
  let p := lnPg l
  let w := v.raw (lgPg (l / 8) + LGRP.LG_CFG.off)
  let raw := v.fld p LANE.RAW_MODE
  let div := v.fld p LANE.DIV
  let slow := decide (fieldOf LGRP.PLL_RATE w < 125000 * 2 ^ div) || decide (raw = 2 ∧ groupRate w < 125000 * 2 ^ div)
  viol ((v.has p || v.has (lgPg (l / 8))) && (decide (raw ≠ 0 ∧ halfCode w (l % 8) ≠ 0) || slow)) p 0x4004

end Sys2Proof.Machine
end

