-- ==== Sys2Proof/Machine/FlowTable.lean ====
section
/-! DEFINITION. The flow table and its admission (R330 to R332), and what its words read as. -/

namespace Sys2Proof.Machine

/-- The `MEDIA` page of engine `m`. -/
def mdPg (m : Nat) : Nat := pg .media m

/-- A flow-table entry by its fields (R331). -/
structure Ent where
  valid : Bool
  tx : Bool
  ty : Nat
  engine : Nat
  mcg : Nat
  dual : Bool
  v6 : Bool
  vlan : Bool
  portA : Nat
  portB : Nat
  nch : Nat
  ptime : Nat
  enc : Nat
  mult : Nat
  raw : Bool
  sampling : Nat
  scan : Bool
  height : Nat
  width : Nat
  cbr : Nat
  pacing : Nat
  pktBytes : Nat
  txOfs : Nat
  linkOfs : Nat
  skew : Nat
  fillLen : Nat
  deriving DecidableEq, Repr

/-- The entry of flow `f`. -/
def Dev.ent (d : Dev) (f : Nat) : Ent :=
  let w := d.ftWord f
  let n := fun i hi lo => bitsOf (w i) hi lo
  let b := fun i k => bitAt (w i) k
  ⟨b 0 31, b 0 30, n 0 29 27, n 0 26 24, n 0 23 22, b 0 21, b 0 20, b 0 19, n 1 29 24, n 1 21 16,
   n 9 29 24 + 1, n 9 23 20, n 9 19 18, n 9 17 16, b 9 15, n 9 31 28, b 9 27, n 9 25 13, n 9 12 0, n 9 31 0,
   n 10 31 30, n 10 29 16, n 10 15 0, n 11 31 16, n 11 15 0, n 14 3 0⟩

/-- The entry is of type 2 or 3. -/
def Ent.audio (e : Ent) : Bool := decide (e.ty = 2 ∨ e.ty = 3)

/-- Base samples per packet P of a `PTIME` code. -/
def ptimeSamples : Nat → Nat
  | 0 => 6 | 1 => 12 | 2 => 16 | 3 => 48 | _ => 192

/-- Slots per packet S = P × 2^`MULT` (R338). -/
def Ent.slots (e : Ent) : Nat := ptimeSamples e.ptime * 2 ^ e.mult

/-- Bits per pixel of a `SAMPLING` code. -/
def samplingBits : Nat → Nat
  | 0 => 20 | 1 => 16 | 2 => 30 | 3 => 36 | 4 => 30 | _ => 36

/-- Payload bytes of one line (type 0). -/
def Ent.lineBytes (e : Ent) : Nat := ceilDiv (e.width * samplingBits e.sampling) 8

/-- Packets of one line (type 0): none spans a line. -/
def Ent.linePkts (e : Ent) : Nat := ceilDiv e.lineBytes e.pktBytes

/-- The sample rate of an audio entry: the base rate of its generator's family × 2^`MULT`. -/
def Dev.entRate (d : Dev) (e : Ent) : Nat := d.mcgRate e.mcg * 2 ^ e.mult

/-- The frame-rate code of a video entry's generator. -/
def Dev.entVrate (d : Dev) (e : Ent) : Nat := d.fld (mcgPg e.mcg) MCG.VRATE

/-- The packet period (audio) or the frame period (else) in ns. -/
def Dev.entPeriod (d : Dev) (e : Ent) : Nat :=
  if e.audio then e.slots * 1000000000 / d.entRate e
  else (framePeriod (d.entVrate e)).1 / (framePeriod (d.entVrate e)).2

/-- How long a path or a flow may be silent: 10 packet periods or 2 frame periods (R331, R336). -/
def Dev.entSilence (d : Dev) (e : Ent) : Nat := d.entPeriod e * (if e.audio then 10 else 2)

/-- Video quarters of an entry (R330). -/
def Dev.quarters (d : Dev) (e : Ent) : Nat :=
  if e.ty = 0 then
    let p := framePeriod (d.entVrate e)
    ceilDiv (4 * e.width * e.height * p.2 * 1000000000) (p.1 * 497664000)
  else if e.ty = 1 then ceilDiv e.cbr 2500000
  else 0

/-- The valid entries but flow `f`. -/
def Dev.validBut (d : Dev) (f : Nat) : List Ent :=
  ((d.ftFlows.filter fun g => decide (g ≠ f)).map d.ent).filter (·.valid)

/-- Bytes of a frame built from an entry, from the MAC destination through the frame check sequence. -/
def Ent.frameBytes (e : Ent) : Nat :=
  let payload :=
    if e.ty = 2 then e.slots * e.nch * (if e.enc = 0 then 2 else 3)
    else if e.ty = 3 then e.slots * e.nch * 4
    else if e.ty = 0 then e.pktBytes + 8
    else e.pktBytes
  payload + 12 + 8 + (if e.v6 then 40 else 20) + 18 + (if e.vlan then 4 else 0)

/-- A field of the entry holds an illegal value. -/
def Ent.illegal (e : Ent) : Bool :=
  decide (4 < e.ty) || decide (e.engine ≠ e.portA / 8) || decide (2000 < e.skew) ||
  (e.audio && decide (4 < e.ptime ∨ 1 < e.enc ∨ (e.ty = 3 ∧ e.enc ≠ 1))) ||
  (decide (e.ty = 0) && (decide (5 < e.sampling ∨ e.height = 0 ∨ 4320 < e.height ∨ e.width = 0 ∨ 7680 < e.width ∨
    e.fillLen = 0 ∨ 8 < e.fillLen) || (e.tx && decide (e.pacing = 3)))) ||
  (!e.audio && decide (e.pktBytes < 64 ∨ 8960 < e.pktBytes))

/-- The route record of the flow disagrees with the entry. -/
def Dev.entRoute (d : Dev) (f : Nat) (e : Ent) : Bool :=
  let c := d.flowClass f
  let ok := if e.audio then decide (c = 0 ∧ d.flowCh f = e.nch ∧ d.flowRate f = d.entRate e)
    else decide (d.flowCh f = 1) && (if e.ty = 4 then decide (c ≠ 0) else decide (c = 1 ∨ c = 3))
  d.routeOk f && ok

/-- A write that sets `VALID` is refused (R332); `d` holds the new word. -/
def Dev.ftRefused (d : Dev) (f : Nat) : Bool :=
  let e := d.ent f
  let same := (d.validBut f).filter fun x => decide (x.engine = e.engine)
  let aud := (d.validBut f).filter (·.audio)
  let vq := (same.filter fun x => decide (x.tx = e.tx)).foldl (fun s x => s + d.quarters x) 0
  let tooLong := fun p => decide (d.fld (ethPg p) ETH.MTU < e.frameBytes)
  let v : View := ⟨d, []⟩
  e.illegal || !(d.entRoute f e) || !(d.mcgRuns e.mcg) || (!e.audio && decide (d.entVrate e = 0)) ||
    (e.tx && (tooLong e.portA || (e.dual && tooLong e.portB))) ||
    (e.audio && (decide (1024 ≤ (same.filter (·.audio)).length) || decide (8192 ≤ aud.length))) ||
    decide (128 < vq + d.quarters e) || (d.ftBind f).any fun b => v.bindBad b

/-- Writable bits of the words of an entry (R331). Which bits of word 9 are reserved depends on `TYPE`, which may be written
after it, so a reader's view drops them. -/
def ftMask (w : Nat) : Word :=
  match w with
  | 0 => 0xFFFF0000 | 1 => 0x3F3F0FFF | 7 => 0xFFFF3F7F | 14 => 0xF | 15 => 0 | _ => 0xFFFFFFFF

/-- Store a word of an entry. -/
def Dev.setFt (d : Dev) (f w : Nat) (v : Word) : Dev := { d with md := { d.md with ft := Tab.put d.md.ft (f * 16 + w) v 0 } }

/-- A refused write to the flow table, recorded on the home engine's page (R332). -/
def Dev.ftRefuse (d : Dev) (src : Source) (f w cause : Nat) (v : Word) : Dev :=
  let p := mdPg (d.ent f).engine
  (d.setReg p MEDIA.FT_REFUSE (wd (cause * 2 ^ 28 + f * 16 + w))).refuse src p 0xFFF cause v

/-- `VALID` has been set: a transmit flow starts at the next multiple of its packet length. -/
def Dev.ftStart (d : Dev) (f : Nat) : Dev :=
  let e := d.ent f
  let d1 := d.setFt f 14 (d.ftWord f 14 &&& 0xF)
  if e.tx then
    let k := edgeAt (d1.entRate e) d1.now
    let s := e.slots
    d1.setTxFlow f { TxFlow.init with seq := Config.rtpSeq f d1.mono % 65536, edge := ceilDiv k s * s }
  else { d1 with md := { d1.md with rx := Tab.del d1.md.rx f } }

/-- `VALID` has been cleared: the flow stops. -/
def Dev.ftStop (d : Dev) (f : Nat) : Dev :=
  let d1 := d.setFt f 14 (d.ftWord f 14 &&& 0xF)
  { d1 with md := { d1.md with rx := Tab.del d1.md.rx f, tx := Tab.del d1.md.tx f } }

/-- The word a write leaves in an entry. -/
def Dev.ftNew (d : Dev) (f w : Nat) (v : Word) : Word := (d.ftWord f w &&& ~~~(ftMask w)) ||| (v &&& ftMask w)

/-- The refusal cause of a flow-table write, 0 when it is accepted: a write of less than a dword (R16); a valid entry takes
only a clear of `VALID`; an entry is admitted when `VALID` is set (R332). -/
def Dev.ftCause (d : Dev) (f w : Nat) (v : Word) (whole : Bool) : Nat :=
  let old := d.ftWord f w
  let new := d.ftNew f w v
  if !whole then cWIDTH
  else if w = 15 then 0
  else if bitAt (d.ftWord f 0) 31 then (if w = 0 ∧ new = old &&& 0x7FFFFFFF then 0 else cBLOCK)
  else if w = 0 ∧ bitAt new 31 ∧ (d.setFt f w new).ftRefused f then cBLOCK else 0

/-- `FLOW_TABLE_WRITE`: word `w` of entry `f`. -/
def Dev.ftWrite (d : Dev) (src : Source) (f w : Nat) (v : Word) (whole : Bool) : Dev :=
  let cause := d.ftCause f w v whole
  if cause ≠ 0 then d.ftRefuse src f w cause v
  else if w = 15 then d
  else
    let d1 := d.setFt f w (d.ftNew f w v)
    if w ≠ 0 then d1
    else if bitAt (d.ftWord f 0) 31 then d1.ftStop f
    else if bitAt v 31 then d1.ftStart f else d1

/-- `STATE` of an entry: 0 idle, 1 active, 2 stalled. -/
def Dev.ftState (d : Dev) (f : Nat) : Nat :=
  let e := d.ent f
  let last := if e.tx then (Tab.get d.md.tx f).bind (·.last)
    else match Tab.get d.md.rx f with
      | some x => if x.started then some (Nat.max x.lastA x.lastB) else none
      | none => none
  if !e.valid then 0
  else match last with
    | none => 0
    | some t => if t + d.entSilence e ≤ d.mono then 2 else 1

/-- The bits of word 9 that an entry of a type defines (R331); the others are reserved and read zero (R12). -/
def ftDefined9 (ty : Nat) : Word :=
  match ty with
  | 0 => 0xFBFFFFFF | 1 => 0xFFFFFFFF | 2 => 0x3FFF0000 | 3 => 0x3FFF8000 | _ => 0

/-- A word of the flow table as a reader sees it. -/
def Dev.ftRead (d : Dev) (f w : Nat) : Word :=
  if w = 14 then setBits (d.ftWord f 14) 31 30 (d.ftState f)
  else if w = 9 then d.ftWord f 9 &&& ftDefined9 (d.ent f).ty
  else d.ftWord f w

/-- The flow is an active ST 2110-20 or -22 flow (R53). -/
def Dev.videoActive (d : Dev) (f : Nat) : Bool := decide ((d.ent f).ty < 2) && decide (d.ftState f = 1)

/-- `MEDIA_USE` of engine `m`. -/
def Dev.mediaUse (d : Dev) (m : Nat) : Word :=
  let es := ((d.ftFlows.map d.ent).filter (·.valid)).filter fun e => decide (e.engine = m)
  let q := fun b => (es.filter fun e => decide (e.tx = b)).foldl (fun s e => s + d.quarters e) 0
  wd (q false * 2 ^ 24 + q true * 65536 + (es.filter (·.audio)).length)

/-- A direct write to a `MEDIA` page is refused with cause BLOCK: the shared IPv6 prefixes while an entry uses them. -/
def Dev.mediaBlocked (d : Dev) (m off : Nat) : Bool :=
  decide (0x44 ≤ off ∧ off < 0x5C) && d.ftFlows.any fun f => (d.ent f).valid && (d.ent f).v6 && decide ((d.ent f).engine = m)

/-- `SNAP_CLR` of a `MEDIA` page clears `LOST` of the entries it is home to (R331). -/
def Dev.mediaClr (d : Dev) (m : Nat) : Dev :=
  d.ftFlows.foldl (fun x f => if (x.ent f).engine = m then x.setFt f 15 0 else x) d

/-- The engine processes packets: it is neither in LULL nor in DARK. -/
def Dev.mediaRuns (d : Dev) (m : Nat) : Bool := decide (d.pwrState (mdPg m) ≤ 1)

/-- One packet lost, or sent with missing or poisoned words, in `LOST` of the entry. -/
def Dev.entLost (d : Dev) (f n : Nat) : Dev :=
  let r := bump (d.ftWord f 15) n
  let d1 := d.setFt f 15 r.1
  if r.2 then d1.raiseCode (mdPg (d.ent f).engine) 1 0x0003 0 (wd 0xFFF) 0 0 0 else d1

end Sys2Proof.Machine
end

