-- ==== Sys2Proof/Machine/Media.lean ====
section
/-! DEFINITION. Media engines: receiving (R325, R326, R329, R333 to R337) and sending (R338 to R340). -/

namespace Sys2Proof.Machine

/-! ### Receiving: shared -/

/-- A receive flow. -/
def Dev.rxFlow (d : Dev) (f : Nat) : RxFlow := (Tab.get d.md.rx f).getD RxFlow.init

/-- Store a receive flow. -/
def Dev.setRxFlow (d : Dev) (f : Nat) (x : RxFlow) : Dev :=
  { d with md := { d.md with rx := Tab.put d.md.rx f x RxFlow.init } }

/-- The count nearest to `k0` that equals `ts` mod 2^32. -/
def nearestCount (k0 ts : Nat) : Nat :=
  let back := (k0 + 2 ^ 32 - ts % 2 ^ 32) % 2 ^ 32
  if k0 < back ∨ 2 ^ 31 < back then k0 + (2 ^ 32 - back) else k0 - back

/-- The edge of a clock of `r` Hz that an RTP timestamp names (R333). -/
def Dev.rtpEdge (d : Dev) (r ts : Nat) : Nat := nearestCount (edgeBefore r d.now) ts

/-- The frame start a 90 kHz timestamp names: the latest at or before the end of that count (R333, R339). -/
def Dev.rtpFrame (d : Dev) (vrate ts : Nat) : Nat :=
  let t := edgeTime 90000 (d.rtpEdge 90000 ts)
  frameTime vrate (frameAt vrate (t + 11112) - 1)

/-- The engine hands a word of a flow to the causeway. -/
def Dev.rxWord (d : Dev) (f ch ts : Nat) (w : Word) (marker : Bool) : Dev :=
  let e := d.ent f
  d.pushFlow (3 * 8192 + e.engine) ⟨f, ch, ts + e.linkOfs * 1000, w, marker, false⟩

/-- The modulus of a type's sequence numbers: 32-bit extended for types 0 and 1 (R334). -/
def Ent.seqMod (e : Ent) : Nat := if e.ty < 2 then 2 ^ 32 else 2 ^ 16

/-! ### Audio (R329, R333 to R335) -/

/-- FAULT words for every channel of `n` slots from the next edge on. -/
def Dev.rxFault (d : Dev) (f n : Nat) : Dev :=
  let e := d.ent f
  let r := d.entRate e
  let x := d.rxFlow f
  let d1 := (List.range n).foldl (fun y j =>
    (List.range e.nch).foldl (fun z c => z.rxWord f c (edgeTime r (x.edge + j)) (wd 0xC0) false) y) d
  d1.setRxFlow f { x with edge := x.edge + n }

/-- A sample subframe as a flow word (R329). -/
def Ent.subWord (e : Ent) (s : Word × Bool) : Word :=
  if e.ty = 3 then (if e.raw then s.1 else if s.2 then wd 0xC0 else s.1 &&& 0xFFFFFF00)
  else if e.enc = 0 then s.1 &&& 0xFFFF0000
  else s.1 &&& 0xFFFFFF00

/-- The slots of an audio packet that have not been supplied yet. False when the packet is too late for all of them. -/
def Dev.rxAudio (d : Dev) (f : Nat) (p : RtpPacket) : Dev × Bool :=
  let e := d.ent f
  let r := d.entRate e
  let x := d.rxFlow f
  let k := d.rtpEdge r p.ts
  let s := p.subs.length / e.nch
  let skip := if x.pos = 0 then 0 else x.edge - k
  if s ≤ skip then (d, false)
  else
    let d1 := (List.range (s - skip)).foldl (fun y j =>
      (List.range e.nch).foldl (fun z c =>
        z.rxWord f c (edgeTime r (k + skip + j)) (e.subWord (p.subs.getD ((skip + j) * e.nch + c) (0, true))) false) y) d
    (d1.setRxFlow f { x with edge := k + s, mark := d1.mono }, true)

/-! ### Video (R329, R334): raster order -/

/-- Lines of the first field, or of the frame. -/
def Ent.field0 (e : Ent) : Nat := if e.scan then (e.height + 1) / 2 else e.height

/-- The line of a frame that a packet's field and row name. -/
def Ent.lineOf (e : Ent) (s : LineSeg) : Nat := if e.scan ∧ s.field = 1 then e.field0 + s.row else s.row

/-- The row number of a line, from which its timestamp is counted. -/
def Ent.rowOf (e : Ent) (line : Nat) : Nat := if e.scan ∧ e.field0 ≤ line then line - e.field0 else line

/-- The timestamp of a line of the frame that starts at `fs` (R327, R333). -/
def Dev.lineTime (d : Dev) (e : Ent) (fs line : Nat) : Nat :=
  let p := framePeriod (d.entVrate e)
  fs + e.rowOf line * p.1 / (p.2 * d.fld (mcgPg e.mcg) MCG.VLINES)

/-- Four bytes as a word, the first in bits 31:24. -/
def packWord (b : List Nat) : Word :=
  wd (b.getD 0 0 % 256 * 2 ^ 24 + b.getD 1 0 % 256 * 65536 + b.getD 2 0 % 256 * 256 + b.getD 3 0 % 256)

/-- Whole words of a list of bytes, and the bytes left over. -/
def packWords : Nat → List Nat → List Word × List Nat
  | 0, b => ([], b)
  | n + 1, b =>
    if b.length < 4 then ([], b)
    else
      let r := packWords n (b.drop 4)
      (packWord b :: r.1, r.2)

/-- Words of one line at one timestamp. -/
def Dev.rxWords (d : Dev) (f ts : Nat) (ws : List Word) : Dev := ws.foldl (fun y w => y.rxWord f 0 ts w false) d

/-- Bytes of the present line; its end pads to a whole word, and the last line of a frame or field is followed by a marker. -/
def Dev.rxBytes (d : Dev) (f : Nat) (b : List Nat) : Dev :=
  let e := d.ent f
  let x := d.rxFlow f
  let fs := x.fstart.getD 0
  let ts := d.lineTime e fs x.line
  let p := packWords (b.length + 4) (x.carry ++ b)
  let off := x.off + b.length
  if e.lineBytes ≤ off then
    let tail := if p.2 = [] then [] else [packWord p.2]
    let d1 := d.rxWords f ts (p.1 ++ tail)
    let last := decide (x.line + 1 = e.height ∨ (e.scan ∧ x.line + 1 = e.field0))
    let d2 := if last then d1.rxWord f 0 ts 0 true else d1
    d2.setRxFlow f { x with line := x.line + 1, off := 0, carry := [] }
  else (d.rxWords f ts p.1).setRxFlow f { x with off := off, carry := p.2 }

/-- Byte `o` of a line of fill (R334). -/
def Dev.fillByte (d : Dev) (f o : Nat) : Nat :=
  let n := (d.ent f).fillLen
  let i := if n = 0 then 0 else o % n
  bitsOf (d.ftWord f (12 + i / 4)) (31 - i % 4 * 8) (24 - i % 4 * 8)

/-- Fill from byte `a` up to byte `b` of the present line. -/
def Dev.rxFillTo (d : Dev) (f b : Nat) : Dev :=
  let a := (d.rxFlow f).off
  if a < b then d.rxBytes f ((List.range (b - a)).map fun i => d.fillByte f (a + i)) else d

/-- Fill the raster of the present frame up to byte `off` of `line`. -/
def Dev.rxFill (d : Dev) (f line off : Nat) : Dev :=
  let e := d.ent f
  let d1 := (List.range (line - (d.rxFlow f).line)).foldl (fun y _ => y.rxFillTo f e.lineBytes) d
  if (d1.rxFlow f).line = line then d1.rxFillTo f off else d1

/-- The raster moves to the start of another frame, filling what the present one lacks and any whole frames between. -/
def Dev.rxNewFrame (d : Dev) (f fs : Nat) : Dev :=
  let e := d.ent f
  let x := d.rxFlow f
  match x.fstart with
  | none => d.setRxFlow f { x with fstart := some fs, line := 0, off := 0, carry := [] }
  | some old =>
    if old = fs then d
    else
      let d1 := d.rxFill f e.height 0
      let vr := d1.entVrate e
      let a := frameAt vr old + 1
      let d2 := (List.range (frameAt vr fs - a)).foldl (fun y i =>
        (y.setRxFlow f { y.rxFlow f with fstart := some (frameTime vr (a + i)), line := 0, off := 0, carry := [] }).rxFill f
          e.height 0) d1
      d2.setRxFlow f { d2.rxFlow f with fstart := some fs, line := 0, off := 0, carry := [] }

/-- One line piece of a packet of the frame that starts at `fs`: what lies before it is filled; what lies behind the raster
is not delivered again. -/
def Dev.rxSeg (d : Dev) (f : Nat) (first : Bool) (s : LineSeg) : Dev :=
  let e := d.ent f
  let x := d.rxFlow f
  let line := e.lineOf s
  if first then (d.setRxFlow f { x with line := line, off := s.off, carry := [] }).rxBytes f s.bytes
  else if line < x.line ∨ (line = x.line ∧ s.off < x.off) ∨ e.height ≤ line then d
  else (d.rxFill f line s.off).rxBytes f s.bytes

/-- A type 0 packet. The first packet of a flow sets where its raster begins. -/
def Dev.rxVideo (d : Dev) (f : Nat) (p : RtpPacket) : Dev :=
  let fs := d.rtpFrame (d.entVrate (d.ent f)) p.ts
  let first := (d.rxFlow f).fstart.isNone
  let d1 := d.rxNewFrame f fs
  match p.segs with
  | [] => d1
  | s :: rest => rest.foldl (fun y t => y.rxSeg f false t) (d1.rxSeg f first s)

/-- A type 1 or 4 packet: its payload, padded to a whole word, and a marker word after the RTP marker bit. -/
def Dev.rxPayload (d : Dev) (f : Nat) (p : RtpPacket) : Dev :=
  let ts := d.rtpFrame (d.entVrate (d.ent f)) p.ts
  let w := packWords (p.bytes.length + 4) p.bytes
  let d1 := d.rxWords f ts (w.1 ++ if w.2 = [] then [] else [packWord w.2])
  if p.mark then d1.rxWord f 0 ts 0 true else d1

/-! ### Order (R334, R336) -/

/-- The next packet in order becomes words; a packet whose slots have all been supplied counts as late. -/
def Dev.rxDeliver (d : Dev) (f : Nat) (p : RtpPacket) : Dev :=
  let e := d.ent f
  let r := if e.audio then d.rxAudio f p else (if e.ty = 0 then d.rxVideo f p else d.rxPayload f p, true)
  let d1 := if r.2 then r.1 else r.1.count (mdPg e.engine) MEDIA.LATE_CNT
  let x := d1.rxFlow f
  d1.setRxFlow f { x with next := (p.seq + 1) % e.seqMod, pos := x.pos + 1 }

/-- Distance of a sequence number ahead of the next expected. -/
def Dev.rxAhead (d : Dev) (f seq : Nat) : Nat :=
  let m := (d.ent f).seqMod
  (seq % m + m - (d.rxFlow f).next % m) % m

/-- Held packets that are next in order are delivered. -/
def Dev.rxDrain (d : Dev) (f : Nat) : Nat → Dev
  | 0 => d
  | n + 1 =>
    let x := d.rxFlow f
    match x.held.find? fun h => decide (d.rxAhead f h.2.seq = 0) with
    | some h => Dev.rxDrain ((d.setRxFlow f { x with held := x.held.filter fun y => decide (y ≠ h) }).rxDeliver f h.2) f n
    | none => d

/-- A packet of flow `f` in its place: delivered, held behind a gap, a later copy, or late. -/
def Dev.rxPlace (d : Dev) (f : Nat) (p : RtpPacket) : Dev :=
  let e := d.ent f
  let m := mdPg e.engine
  let x := d.rxFlow f
  let a := d.rxAhead f p.seq
  if a = 0 then (d.rxDeliver f p).rxDrain f (x.held.length + 1)
  else if a < e.seqMod / 2 then
    if x.held.any fun h => decide (h.2.seq % e.seqMod = p.seq % e.seqMod) then d.count m MEDIA.DUP_CNT
    else d.setRxFlow f { x with held := x.held ++ [(d.mono, p)] }
  else
    let back := e.seqMod - a
    if e.dual ∧ back ≤ x.pos ∧ (x.lost.contains (x.pos - back)) = false then d.count m MEDIA.DUP_CNT
    else d.count m MEDIA.LATE_CNT

/-- A path has delivered a packet: it is up (R336). -/
def Dev.pathSeen (d : Dev) (f : Nat) (b : Bool) : Dev :=
  let x := d.rxFlow f
  let bit := if b then 28 else 29
  let d1 := d.setRxFlow f (if b then { x with lastB := d.mono } else { x with lastA := d.mono })
  if bitAt (d1.ftWord f 14) bit then d1
  else (d1.setFt f 14 (setBits (d1.ftWord f 14) bit bit 1)).raise (mdPg (d1.ent f).engine) MEDIA.E_PATH_UP
    (wd ((if b then 65536 else 0) + f))

/-- A packet of flow `f` on path B (`b`) or A. -/
def Dev.rxPacket (d : Dev) (f : Nat) (b : Bool) (p : RtpPacket) : Dev :=
  let d1 := (d.count64 (mdPg (d.ent f).engine) MEDIA.RX_PKTS).pathSeen f b
  let x := d1.rxFlow f
  if x.started then d1.rxPlace f p
  else (d1.setRxFlow f { x with started := true, next := p.seq % (d1.ent f).seqMod, pos := 0, lost := [], held := [],
                                mark := d1.mono, fstart := none }).rxPlace f p

/-- The packet matches path B (`b`) or A of entry `f` (R331, R336). -/
def Dev.rxMatch (d : Dev) (f : Nat) (b : Bool) (p : RtpPacket) : Bool :=
  let e := d.ent f
  let i := if b then 4 else 2
  let src := d.ftWord f (i + 1)
  let udp := if b then bitsOf (d.ftWord f 6) 15 0 else bitsOf (d.ftWord f 6) 31 16
  let pt := bitsOf (d.ftWord f 7) 6 0
  e.valid && !e.tx && (e.dual || !b) && decide ((if b then e.portB else e.portA) = p.port.val) && decide (e.v6 = p.v6) &&
    decide (d.ftWord f i = p.dst) && (decide (src = 0) || decide (src = p.src)) && decide (udp = p.udp) &&
    (decide (pt = 0) || decide (pt = p.pt)) && (decide (d.ftWord f 8 = 0) || decide (d.ftWord f 8 = p.ssrc))

/-- The entry and path a packet matches. -/
def Dev.rxFind (d : Dev) (p : RtpPacket) : Option (Nat × Bool) :=
  d.ftFlows.findSome? fun f => if d.rxMatch f false p then some (f, false) else if d.rxMatch f true p then some (f, true) else none

/-! ### Frames at a port -/

/-- A frame goes to the host queue of engine `m`. -/
def Dev.toHost (d : Dev) (m port : Nat) (bytes : List Nat) (stamp : Option Nat) : Dev :=
  { d with md := { d.md with hostq := d.md.hostq ++ [(d.fld (mdPg m) MEDIA.HOSTQ, ⟨port, bytes, stamp⟩)] } }

/-- A multicast frame that matches no entry. -/
def Dev.rxMulticast (d : Dev) (m port : Nat) (bytes : List Nat) : Dev :=
  if d.flag (mdPg m) MEDIA.MC_PROMISC then d.toHost m port bytes none else d.count (mdPg m) MEDIA.MC_DROP_CNT

/-- The receive timestamp of a PTP event message: device time plus `ASYM` (R325). -/
def Dev.rxStamp (d : Dev) (port : Nat) : Nat := ((d.now : Int) + sext 16 (d.fld (ethPg port) ETH.ASYM)).toNat

/-- The octets of a frame. -/
def ethOctets : EthFrame → List Nat
  | .rtp _ b => b | .ptp _ b => b | .host b => b | .multicast b => b | .control b => b | .badFcs b => b

/-- What an engine in RUN makes of a frame (chapter 11, *Media engines*). -/
def Dev.engineRx (d : Dev) (port : Nat) : EthFrame → Dev
  | .rtp p b =>
    match d.rxFind p with
    | some (f, path) => if d.mediaRuns (d.ent f).engine then d.rxPacket f path p else d
    | none => d.rxMulticast (port / 8) port b
  | .ptp ev b => d.toHost (port / 8) port b (if ev ∧ d.flag (ethPg port) ETH.TS_EN then some (d.rxStamp port) else none)
  | .host b => d.toHost (port / 8) port b none
  | .multicast b => d.rxMulticast (port / 8) port b
  | _ => d

/-- `PACKET_RECEIVE`: a frame at an `ETH` port, which passes frames in UP only; MAC control frames, frames longer than `MTU`
and frames with a bad check sequence are counted and discarded (R305). -/
def Dev.packetReceive (d : Dev) (port : Nat) (x : EthFrame) : Dev :=
  let p := ethPg port
  let b := ethOctets x
  if d.st p ≠ 3 then d
  else
    match x with
    | .badFcs _ => d.count64 p ETH.RX_FCS_ERR
    | _ =>
      if d.fld p ETH.MTU < b.length then d.count64 p ETH.RX_TOO_LONG
      else
        match x with
        | .control _ => d.count64 p ETH.RX_CTRL
        | _ =>
          let d1 := (d.count64 p ETH.RX_FRAMES).count64 p ETH.RX_OCTETS b.length
          if d1.mediaRuns (port / 8) then d1.engineRx port x else d1

/-! ### Timeouts of receive flows -/

/-- `PKT_LOST`, at most once in any 10 ms per engine. -/
def Dev.raiseLost (d : Dev) (f : Nat) : Dev :=
  let m := (d.ent f).engine
  let due := match Tab.get d.md.lostAt m with | some t => decide (t + 10000000 ≤ d.mono) | none => true
  if due then
    ({ d with md := { d.md with lostAt := Tab.ins d.md.lostAt m d.mono } } : Dev).raise (mdPg m) MEDIA.E_PKT_LOST (wd f) (d.ftWord f 15)
  else d

/-- The held packet that stands first in order. -/
def Dev.rxFirstHeld (d : Dev) (f : Nat) : Option RtpPacket :=
  ((d.rxFlow f).held.foldl (fun (b : Option RtpPacket) h =>
    match b with
    | some p => if d.rxAhead f h.2.seq < d.rxAhead f p.seq then some h.2 else b
    | none => some h.2) none)

/-- The slots of lost audio packets before a packet of count `ts`: FAULT words. -/
def Dev.rxFaultGap (d : Dev) (f n ts : Nat) : Dev :=
  let e := d.ent f
  let k := d.rtpEdge (d.entRate e) ts
  d.rxFault f (Nat.min (k - (d.rxFlow f).edge) (n * e.slots))

/-- `GAP_TIMEOUT`: `SKEW` µs after the gap opened its missing packets count as lost and are filled (R334). -/
def Dev.gapTimeout (d : Dev) (f : Nat) : Dev :=
  let e := d.ent f
  let x := d.rxFlow f
  match d.rxFirstHeld f with
  | none => d
  | some p =>
    if e.valid && !e.tx && d.mediaRuns e.engine then
      let opened := x.held.foldl (fun t h => Nat.min t h.1) d.mono
      let d1 := d.pass (opened + e.skew * 1000 - d.mono)
      let n := d1.rxAhead f p.seq
      let d2 := (d1.entLost f n).count (mdPg e.engine) MEDIA.LOST_CNT n
      let d3 := if e.audio then d2.rxFaultGap f n p.ts else d2
      let y := d3.rxFlow f
      let lost := y.lost ++ (List.range n).map (y.pos + ·)
      let d4 := (d3.setRxFlow f { y with next := p.seq % e.seqMod, pos := y.pos + n, lost := lost }).raiseLost f
      d4.rxDrain f (y.held.length + 1)
    else d

/-- `AUDIO_PACKET_TIMEOUT`: a packet period plus `SKEW` has passed without a packet (R335). -/
def Dev.audioTimeout (d : Dev) (f : Nat) : Dev :=
  let e := d.ent f
  let x := d.rxFlow f
  if e.valid && !e.tx && e.audio && x.started && d.mediaRuns e.engine then
    let due := x.mark + d.entPeriod e
    let d1 := (d.pass (due + e.skew * 1000 - d.mono)).rxFault f e.slots
    d1.setRxFlow f { d1.rxFlow f with mark := due }
  else d

/-- `PATH_DOWN`: no packet on a path for 10 packet or 2 frame periods (R336). -/
def Dev.pathDown (d : Dev) (f : Nat) (b : Bool) : Dev :=
  let e := d.ent f
  let x := d.rxFlow f
  let bit := if b then 28 else 29
  if e.valid && bitAt (d.ftWord f 14) bit then
    let d1 := d.pass ((if b then x.lastB else x.lastA) + d.entSilence e - d.mono)
    (d1.setFt f 14 (setBits (d1.ftWord f 14) bit bit 0)).raise (mdPg e.engine) MEDIA.E_PATH_DOWN (wd ((if b then 65536 else 0) + f))
  else d

/-! ### Sending -/

/-- A packet leaves on a port that is UP; its engine counts it. -/
def Dev.rtpOut (d : Dev) (port f seq ts : Nat) (mark : Bool) (data : List Nat) (octets : Nat) : Dev :=
  let p := ethPg port
  if d.st p = 3 then
    ((((d.count64 (mdPg (port / 8)) MEDIA.TX_PKTS).count64 p ETH.TX_FRAMES).count64 p ETH.TX_OCTETS octets)).ethSend port
      (.rtp port f seq (ts % 2 ^ 32) mark data)
  else d

/-- The packet leaves on path A, and with `DUAL` = 1 also on path B (R340). -/
def Dev.txOut (d : Dev) (f seq ts : Nat) (mark : Bool) (data : List Nat) (octets : Nat) : Dev :=
  let e := d.ent f
  let d1 := d.rtpOut e.portA f seq ts mark data octets
  if e.dual then d1.rtpOut e.portB f seq ts mark data octets else d1

/-- `TX_MISS`, at most once in any 10 ms per engine (R340). -/
def Dev.raiseMissTx (d : Dev) (f : Nat) : Dev :=
  let m := (d.ent f).engine
  let due := match Tab.get d.md.missAt m with | some t => decide (t + 10000000 ≤ d.mono) | none => true
  if due then ({ d with md := { d.md with missAt := Tab.ins d.md.missAt m d.mono } } : Dev).raise (mdPg m) MEDIA.E_TX_MISS (wd f)
  else d

/-- What a packet with `miss` counts of missing words and perhaps poisoned ones leaves behind (R338, R340). -/
def Dev.txMarks (d : Dev) (f miss : Nat) (pois : Bool) : Dev :=
  let p := mdPg (d.ent f).engine
  let d1 := if 0 < miss then (d.count p MEDIA.TX_MISS_CNT miss).raiseMissTx f else d
  let d2 := if pois then (d1.count p MEDIA.POISON_CNT).raise p MEDIA.E_TX_POISON (wd f) else d1
  if 0 < miss ∨ pois then d2.entLost f 1 else d2

/-- An audio subframe as it is sent: L24 or L16 code; AM824 as audio × 4 + B × 2 + V; with `RAW` = 1 the word (R338). -/
def Ent.encode (e : Ent) (slot : Nat) (w : Option FlowWord) : Nat :=
  let v := match w with | some x => if x.poison ∨ x.marker then (0 : Word) else x.word | none => 0
  let bad := match w with | some x => x.poison || decide (2 ≤ bitsOf x.word 7 6) | none => true
  if e.ty = 3 then
    if e.raw then v.toNat
    else bitsOf v 31 8 * 4 + (if slot % 192 = 0 then 2 else 0) + (if bad then 1 else 0)
  else if e.enc = 0 then bitsOf v 31 16
  else bitsOf v 31 8

/-- The next packet of an audio flow, at t_last + `TX_OFS` (R338). -/
def Dev.txAudio (d : Dev) (f : Nat) : Dev :=
  let e := d.ent f
  let r := d.entRate e
  let x := d.txFlow f
  let s := e.slots
  let d1 := d.reach (edgeTime r (x.edge + s - 1) + e.txOfs * 1000)
  let at_ := fun i => x.words.find? fun w => decide (w.ch = i % e.nch ∧ w.ts = edgeTime r (x.edge + i / e.nch))
  let ws := (List.range (s * e.nch)).map at_
  let data := (List.range (s * e.nch)).map fun i => e.encode (x.edge + i / e.nch) (at_ i)
  let miss := (ws.filter (·.isNone)).length
  let pois := ws.any fun w => match w with | some y => y.poison | none => false
  let d2 := (d1.txOut f x.seq x.edge false data e.frameBytes).txMarks f miss pois
  let rest := x.words.filter fun w => decide (edgeTime r (x.edge + s) ≤ w.ts)
  d2.setTxFlow f { x with seq := (x.seq + 1) % 65536, edge := x.edge + s, words := rest }

/-- Words up to and with the first marker are dropped; whether the marker was among them. -/
def dropFrame : List FlowWord → List FlowWord × Bool
  | [] => ([], false)
  | w :: t => if w.marker then (t, true) else dropFrame t

/-- Words that belong to packets already sent are discarded. -/
def TxFlow.settle (x : TxFlow) : TxFlow :=
  if x.skip then
    let r := dropFrame x.words
    { x with words := r.1, skip := !r.2 }
  else x

/-- The frame a type 0, 1 or 4 flow sends: its start and its words up to the marker. -/
def Dev.txFrame (d : Dev) (e : Ent) (x : TxFlow) : Option Nat :=
  match x.first with
  | some t => some t
  | none => match x.words with
    | w :: _ =>
      let vr := d.entVrate e
      some (frameTime vr (frameAt vr (w.ts + 1) - 1))
    | [] => none

/-- Byte `i` of the words of a frame: missing, poisoned, or its value. -/
def frameByte (ws : List FlowWord) (i : Nat) : Option (Option Nat) :=
  match ws[i / 4]? with
  | some w => if w.poison then some none else some (some (bitsOf w.word (31 - i % 4 * 8) (24 - i % 4 * 8)))
  | none => none

/-- Send time of packet `k` of `n` of a type 0 frame that starts at `t` (R339). -/
def Dev.txTime0 (d : Dev) (e : Ent) (t k n : Nat) : Nat :=
  let p := framePeriod (d.entVrate e)
  t + e.txOfs * 1000 + (if e.pacing = 1 then k * p.1 / (p.2 * n)
    else k * p.1 * e.height / (p.2 * d.fld (mcgPg e.mcg) MCG.VLINES * n))

/-- The next packet of a type 0 flow (R339, R340). -/
def Dev.txVideo (d : Dev) (f : Nat) : Dev :=
  let e := d.ent f
  let x := (d.txFlow f).settle
  match d.txFrame e x with
  | none => d.setTxFlow f x
  | some t =>
    let lines := e.field0
    let ppl := e.linePkts
    let n := lines * ppl
    let line := x.pkt / ppl
    let a := x.pkt % ppl * e.pktBytes
    let b := Nat.min e.lineBytes (a + e.pktBytes)
    let d1 := d.reach (d.txTime0 e t x.pkt n)
    let ws := x.words.takeWhile fun w => !w.marker
    let base := line * ceilDiv e.lineBytes 4 * 4
    let bytes := (List.range (b - a)).map fun i => frameByte ws (base + a + i)
    let data := (List.range (b - a)).map fun i =>
      match bytes.getD i none with | some (some v) => v | _ => d1.fillByte f (a + i)
    let miss := bytes.any (·.isNone)
    let pois := bytes.any fun y => decide (y = some none)
    let last := decide (x.pkt + 1 = n)
    let octets := b - a + 8 + e.frameBytes - (e.pktBytes + 8)
    let d2 := (d1.txOut f x.seq (edgeBefore 90000 t) last data octets).txMarks f (if miss then 1 else 0) pois
    let y := { x with seq := (x.seq + 1) % 65536, pkt := x.pkt + 1, first := some t }
    d2.setTxFlow f (if last then ({ y with pkt := 0, first := none, skip := true } : TxFlow).settle else y)

/-- The next packet of a type 1 or 4 flow: words up to `PKT_BYTES` or the marker; type 1 evenly at `CBR_KBPS` (R339). -/
def Dev.txPayload (d : Dev) (f : Nat) : Dev :=
  let e := d.ent f
  let x := d.txFlow f
  let ws := x.words.takeWhile fun w => !w.marker
  let full := e.pktBytes / 4
  let marked := decide (ws.length < x.words.length)
  if full ≤ ws.length ∨ marked then
    match d.txFrame e x with
    | none => d
    | some t =>
      let take := ws.take full
      let last := marked && decide (ws.length ≤ full)
      let gap := if e.ty = 1 ∧ e.cbr ≠ 0 then x.pkt * e.pktBytes * 8 * 1000000 / e.cbr else 0
      let d1 := d.reach (t + e.txOfs * 1000 + gap)
      let data := (List.range (take.length * 4)).map fun i =>
        match frameByte take i with | some (some v) => v | _ => d1.fillByte f i
      let pois := take.any (·.poison)
      let d2 := (d1.txOut f x.seq (edgeBefore 90000 t) last data (take.length * 4 + e.frameBytes - e.pktBytes)).txMarks f 0 pois
      let rest := x.words.drop (if last then take.length + 1 else take.length)
      d2.setTxFlow f { x with seq := (x.seq + 1) % 65536, words := rest, pkt := if last then 0 else x.pkt + 1,
                              first := if last then none else some t }
  else d

/-- The transmit timestamps of a port are shown in `TXTS_SEQ`, `TXTS_NS` and `TXTS_SEC_LO`. -/
def Dev.showTxts (d : Dev) (port : Nat) : Dev :=
  let p := ethPg port
  let l := (Tab.get d.md.txts port).getD []
  let w := match l with | h :: _ => (wd (2 ^ 31 + l.length * 65536 + h.1 % 65536), nsWord h.2, secWord h.2) | [] => (0, 0, 0)
  ((d.setReg p ETH.TXTS_SEQ w.1).setReg p ETH.TXTS_NS w.2.1).setReg p ETH.TXTS_SEC_LO w.2.2

/-- A PTP event message has been sent: its timestamp and sequenceId enter the FIFO of 16, or are counted (R326). -/
def Dev.txStamp (d : Dev) (port seq : Nat) : Dev :=
  let l := (Tab.get d.md.txts port).getD []
  if 16 ≤ l.length then d.count (ethPg port) ETH.TXTS_OVR_CNT
  else
    (({ d with md := { d.md with txts := Tab.put d.md.txts port (l ++ [(seq, d.now)]) [] } } : Dev).showTxts port).raise
      (ethPg port) ETH.E_PTP_TXTS

/-- `TXTS_POP` removes the head entry. -/
def Dev.txtsPop (d : Dev) (port : Nat) : Dev :=
  ({ d with md := { d.md with txts := Tab.put d.md.txts port (((Tab.get d.md.txts port).getD []).drop 1) [] } } : Dev).showTxts port

/-- A frame of a host queue leaves (R325, R326). A one-step Sync carries its timestamp; every other event message leaves it in
the FIFO. -/
def Dev.hostOut (d : Dev) (port : Nat) (bytes : List Nat) (ptp : Option (Bool × Nat)) : Dev :=
  let p := ethPg port
  if d.st p = 3 ∧ d.mediaRuns (port / 8) then
    let oneStep := match ptp with | some s => s.1 && d.flag p ETH.ONE_STEP && d.flag p ETH.TS_EN | none => false
    let d1 := ((d.count64 p ETH.TX_FRAMES).count64 p ETH.TX_OCTETS bytes.length).ethSend port (.ethFrame port bytes)
    match ptp with
    | some s => if d.flag p ETH.TS_EN ∧ oneStep = false then d1.txStamp port s.2
                else if oneStep then d1.ethSend port (.ethStamp port d1.now) else d1
    | none => d1
  else d

/-- `PACKET_SEND`. -/
def Dev.packetSend (d : Dev) : TxItem → Dev
  | .flow f =>
    let e := d.ent f.val
    if e.valid && e.tx && d.mediaRuns e.engine then
      if e.audio then d.txAudio f.val else if e.ty = 0 then d.txVideo f.val else d.txPayload f.val
    else d
  | .host port ptp =>
    match d.hs.txq.find? fun x => decide (x.1 = port.val) with
    | some x => ({ d with hs := { d.hs with txq := d.hs.txq.erase x } } : Dev).hostOut port.val x.2 ptp
    | none => d

/-- A register of an `ETH` page in the range of chapter 11 has become live. -/
def Dev.ethTimeLive (d : Dev) (e off : Nat) (new : Word) : Dev :=
  if off = ETH.TXTS_POP.off ∧ bitAt new 0 then d.txtsPop e else d

end Sys2Proof.Machine
end

