-- ==== Sys2Proof/Machine/Fabric.lean ====
section
/-! DEFINITION. The logic fabric (chapter 12): trunk taps and their arbitration (R350 to R353), clock sources (R354 to
R357), block RAM (R358 to R361), oscillators (R367, R368), the user store port (R369), power states (R373, R374). -/

namespace Sys2Proof.Machine

/-- The `FREG` page of region `n`. -/
def frPg (n : Nat) : Nat := pg .freg n

/-! ### Trunks (R350 to R353) -/

/-- The region tap `i` of trunk `w` lies in. -/
def tapRegion (w i : Nat) : Nat := (w / 128 + 4 * i) % 32

/-- The bit index of tap `i` of trunk `w`. -/
def tapBit (w i : Nat) : Nat := i * 128 + w % 128

/-- The trunk of bit index `b` in region `n`; its tap is b / 128. -/
def tapTrunk (n b : Nat) : Nat := (n + 32 - 4 * (b / 128) % 32) % 32 * 128 + b % 128

/-- Taps in arbitration on a trunk. -/
def Dev.arb (d : Dev) (w : Nat) : Nat := (Tab.get d.fab.arb w).getD 0

/-- Store the taps in arbitration on a trunk. -/
def Dev.setArb (d : Dev) (w v : Nat) : Dev := { d with fab := { d.fab with arb := Tab.put d.fab.arb w v 0 } }

/-- The tap that drives a trunk. -/
def Dev.trunkWinner (d : Dev) (w : Nat) : Option Nat := (List.range 8).find? fun i => d.arb w / 2 ^ i % 2 = 1

/-- Tap `i` of trunk `w` becomes lost to tap `win` (R353). -/
def Dev.tapLost (d : Dev) (w i win : Nat) : Dev :=
  let p := frPg (tapRegion w i)
  let b := tapBit w i
  let f := FREG.TAP_LOST.at (b / 32)
  let d1 := (d.setArb w (d.arb w - 2 ^ i)).setReg p f (d.reg p f ||| wd (2 ^ (b % 32)))
  let d2 := (d1.setF p FREG.TAP_LOST_ANY 1).setReg p FREG.TRUNK_CONFLICT (wd (2 ^ 31 + w * 65536 + win * 4096 + i * 256))
  (d2.count p FREG.TAP_LOST_CNT).raise p FREG.E_TAP_CONFLICT

/-- The arbiter of a trunk: of the taps in arbitration only the lowest-numbered stays. -/
def Dev.settleTrunk (d : Dev) (w : Nat) : Dev :=
  match d.trunkWinner w with
  | none => d
  | some win => (List.range 8).foldl (fun e i => if win < i ∧ e.arb w / 2 ^ i % 2 = 1 then e.tapLost w i win else e) d

/-- A drive tap enters arbitration. -/
def Dev.tapIn (d : Dev) (n b : Nat) : Dev :=
  let w := tapTrunk n b
  if d.arb w / 2 ^ (b / 128) % 2 = 1 then d else d.setArb w (d.arb w + 2 ^ (b / 128))

/-- A drive tap leaves arbitration. -/
def Dev.tapOut (d : Dev) (n b : Nat) : Dev :=
  let w := tapTrunk n b
  if d.arb w / 2 ^ (b / 128) % 2 = 1 then d.setArb w (d.arb w - 2 ^ (b / 128)) else d

/-- The drive taps of several regions enter arbitration on one edge (`TAP_ENTER`). -/
def Dev.tapsEnter (d : Dev) (ns : List Nat) : Dev :=
  let taps := ns.flatMap fun n => (d.region n).drives.map fun b => (n, b)
  let d1 := taps.foldl (fun e x => e.tapIn x.1 x.2) d
  taps.foldl (fun e x => e.settleTrunk (tapTrunk x.1 x.2)) d1

/-- The region's isolation engages: its taps leave arbitration and none is lost any more. -/
def Dev.tapsLeave (d : Dev) (n : Nat) : Dev :=
  let d1 := (d.region n).drives.foldl (fun e b => e.tapOut n b) d
  if n < 32 then
    ((List.range 32).foldl (fun e j => e.setReg (frPg n) (FREG.TAP_LOST.at j) 0) d1).setF (frPg n) FREG.TAP_LOST_ANY 0
  else d1

/-- `TAP_REARM`: every lost tap of the region is put back into arbitration. -/
def Dev.tapRearm (d : Dev) (n : Nat) : Dev :=
  let p := frPg n
  let lost := (List.range 1024).filter fun b => bitAt (d.reg p (FREG.TAP_LOST.at (b / 32))) (b % 32)
  let d1 := ((List.range 32).foldl (fun e j => e.setReg p (FREG.TAP_LOST.at j) 0) d).setF p FREG.TAP_LOST_ANY 0
  let d2 := lost.foldl (fun e b => e.tapIn n b) (d1.setF p FREG.TAP_REARM 0)
  lost.foldl (fun e b => e.settleTrunk (tapTrunk n b)) d2

/-! ### Clocks (R354 to R357) -/

/-- A net's source may be selected by region `n` (32 K0, 33 K1). -/
def Dev.srcLegal (d : Dev) (n src : Nat) : Bool :=
  if src < 64 then true
  else if src < 72 then d.flag (frPg (4 * (src - 64))) FREG.OSC_CFG_EN
  else if src = 72 then true
  else if src < 128 then false
  else
    let l := (src - 128) / 2
    decide (d.fld (pg .lane l) LANE.RAW_MODE ≠ 0) && decide (d.fld (pg .lane l) LANE.RAW_REG = n)

/-- A regional net or clock select uses oscillator `k`. -/
def Dev.oscUsed (d : Dev) (k : Nat) : Bool :=
  anyIf 34 fun n => anyIf 4 fun i => d.flag (regionPg n) (FREG.REG_CLK_EN.at i) && decide (d.fld (regionPg n) (FREG.SRC.at i) = 64 + k)

/-- Net `i` of region `n` runs: enabled, its source live, and the region's power state lets it (R355, R373). -/
def Dev.netRuns (d : Dev) (n i : Nat) : Bool :=
  let p := regionPg n
  let src := d.fld p (FREG.SRC.at i)
  let pw := d.pwrState p
  let live :=
    if 64 ≤ src ∧ src < 72 then d.flag (frPg (4 * (src - 64))) FREG.OSC_CFG_EN
    else if 128 ≤ src then
      let l := (src - 128) / 2
      if src % 2 = 0 then d.flag (lgPg (l / 8)) LGRP.LOCKED else d.flag (lnPg l) LANE.CDR_LOCK
    else true
  d.flag p (FREG.REG_CLK_EN.at i) && live && (decide (pw = 0) || (decide (pw = 1) && decide (src = 72)))

/-- Net `i` of region `n` has a rising edge in this nanosecond. -/
def Dev.netRises (d : Dev) (n i : Nat) : Bool := d.netRuns n i && Config.clockEdge (d.fld (regionPg n) (FREG.SRC.at i)) d.mono

/-- A nanosecond of a region's flip-flops (R347, R356): those of a region that is neither isolated nor gated. -/
def Dev.ffsStep (d : Dev) (n : Nat) : Dev :=
  if d.regionTakes n && d.regionFilled n then
    let x := d.nets n
    let y : FabNets := { x with ffs := x.clocked fun i => d.netRises n i }
    d.setRegion n { d.region n with ffs := y.routed { x with at_ := x.at_ - 1 } }
  else d

/-- Every region's flip-flops. -/
def Dev.fabricTick (d : Dev) : Dev := (List.range 34).foldl (fun (e : Dev) n => e.ffsStep n) d

/-- `FREG_STAT` with `CLK_RUN`. -/
def Dev.fregStat (d : Dev) (n : Nat) (w : Word) : Word :=
  setBits w 11 8 ((List.range 4).foldl (fun s i => s + if d.netRuns n i then 2 ^ i else 0) 0)

/-! ### Block RAM (R358 to R361) -/

/-- A word's place in a region's block RAM. -/
def bramKey (b w : Nat) : Nat := b * 512 + w

/-- Block `b` of region `n` is in ECC mode. -/
def Dev.bramEcc (d : Dev) (n b : Nat) : Bool := bitAt (d.reg (frPg n) FREG.BRAM_MODE) b

/-- Store a word and its poison bit. -/
def Dev.bramPut (d : Dev) (n b w v : Nat) (pois : Bool) : Dev :=
  let x := d.region n
  let k := bramKey b w
  let l := x.bpois.filter fun y => decide (y ≠ k)
  d.setRegion n { x with bram := Tab.put x.bram k v 0, bpois := if pois then l ++ [k] else l }

/-- A corrected error: counted, and raised at most once in any 10 ms per region. -/
def Dev.bramCe (d : Dev) (n b : Nat) : Dev :=
  let d1 := d.count (frPg n) FREG.BRAM_CE_CNT
  let due := match Tab.get d1.fab.ceAt n with | some t => decide (t + 10000000 ≤ d1.mono) | none => true
  if due then ({ d1 with fab := { d1.fab with ceAt := Tab.ins d1.fab.ceAt n d1.mono } } : Dev).raise (frPg n) FREG.E_BRAM_CE (wd b)
  else d1

/-- An uncorrectable error: the word is poisoned and reported (`BRAM_UE`). -/
def Dev.bramUe (d : Dev) (n b w : Nat) : Dev :=
  let p := frPg n
  let d1 := (d.bramPut n b w 0 true).setReg p FREG.BRAM_UE_ADDR (wd (2 ^ 31 + b * 65536 + w))
  (d1.count p FREG.BRAM_UE_CNT).raise p FREG.E_BRAM_UE

/-- A read of a word: device, value, poison. -/
def Dev.bramRead (d : Dev) (n b w : Nat) (e : EccEvent) : Dev × Nat × Bool :=
  let x := d.region n
  let v := (Tab.get x.bram (bramKey b w)).getD 0
  if !(d.bramEcc n b) then (d, v, false)
  else if x.bpois.contains (bramKey b w) then (d, 0, true)
  else match e with
    | .clean => (d, v, false)
    | .corrected => (d.bramCe n b, v, false)
    | .uncorrectable => (d.bramUe n b w, 0, true)

/-- A write of a word: all 64 bits, or the enabled bytes merged into what is read (R360). -/
def Dev.bramWrite (d : Dev) (n b : Nat) (o : BramOp) : Dev :=
  let w := o.word.val
  if !(d.bramEcc n b) then d.bramPut n b w (o.data % 2 ^ 80) false
  else if o.be = 255 then d.bramPut n b w (o.data % 2 ^ 64) false
  else
    let r := d.bramRead n b w o.ecc
    r.1.bramPut n b w (mergeBytes (if r.2.2 then 0 else r.2.1) o.data o.be.toNat) false

/-- One port's read of an access, and its answer. -/
def Dev.bramPort (d : Dev) (n b : Nat) (o : BramOp) : Dev :=
  if o.write then d
  else
    let r := d.bramRead n b o.word.val o.ecc
    if o.walk then r.1 else r.1.send (.fabricRsp n 3 r.2.2 [r.2.1])

/-- `BRAM_ACCESS`: the accesses of ports A and B on one edge: reads return the words as they stood; of two writes to one word
port A's is stored (R359). -/
def Dev.bramAccess (d : Dev) (n b : Nat) (pa pb : Option BramOp) : Dev :=
  if 2 ≤ d.pwrState (frPg n) then d
  else
    let rd := fun (e : Dev) (o : Option BramOp) => match o with | some x => e.bramPort n b x | none => e
    let wr := fun (e : Dev) (o : Option BramOp) => match o with | some x => if x.write then e.bramWrite n b x else e | none => e
    wr (wr (rd (rd d pa) pb) pb) pa

/-- `WALK_STALE`: a block's walk has not completed for 1 s; or, `stale` false, a walk has completed (R361). -/
def Dev.walkStale (d : Dev) (n b : Nat) (stale : Bool) : Dev :=
  let x := d.region n
  let p := frPg n
  let was := decide (x.stale / 2 ^ b % 2 = 1)
  if !(d.bramEcc n b) then d
  else if stale ∧ was = false then
    ((d.setRegion n { x with stale := x.stale + 2 ^ b }).setF p FREG.WALK_STALE 1).raise p FREG.E_WALK_STALE (wd b)
  else if stale = false ∧ was then
    let s := x.stale - 2 ^ b
    (d.setRegion n { x with stale := s }).setF p FREG.WALK_STALE (if s = 0 then 0 else 1)
  else d

/-! ### Oscillators (R367, R368) -/

/-- `OSC_MEASURE`: the frequency of oscillator `k` in kHz, every 1 ms. -/
def Dev.oscMeasure (d : Dev) (k khz : Nat) : Dev :=
  let p := frPg (4 * k)
  if d.flag p FREG.OSC_CFG_EN then
    let d1 := d.setReg p FREG.OSC_MEAS (wd (2 ^ 31 + khz % 2 ^ 20))
    if khz < 45000 ∨ 880000 < khz then d1.raise p FREG.E_OSC_RANGE else d1
  else d

/-! ### User store (R369) -/

/-- The store address of the user area. -/
def userBase : Nat := 0x3800000

/-- The window of a region: first byte and bytes; nothing when it is disabled. -/
def winOf (w : Word) : Option (Nat × Nat) :=
  if bitAt w 31 then some (fieldOf FREG.BASE w * 65536, (fieldOf FREG.SIZE_M1 w + 1) * 65536) else none

/-- Two windows overlap. -/
def winOverlap (a b : Option (Nat × Nat)) : Bool :=
  match a, b with
  | some x, some y => decide (x.1 < y.1 + y.2 ∧ y.1 < x.1 + x.2)
  | _, _ => false

/-- A request that fails: 1 outside the window, 2 the store cannot complete it. -/
def Dev.ustoreErr (d : Dev) (q : UReq) (why : Nat) : Dev :=
  let p := regionPg q.region
  ((d.count p FREG.USTORE_ERR_CNT).raise p FREG.E_USTORE_ERR (wd (why * 2 ^ 28 + q.addr % 2 ^ 22))).send
    (.fabricRsp q.region 1 true [])

/-- The next request to serve: regions in round robin after the one served last; no write begins while PFAIL is reported
(R493). -/
def Dev.ustoreNext (d : Dev) : Dev :=
  match d.fab.ubusy with
  | some _ => d
  | none =>
    let hold := d.flag (pg .pwr 0) PWR.PFAIL
    let order := (List.range 34).map fun i => (d.fab.ulast + 1 + i) % 34
    match order.findSome? fun n => d.fab.ureqs.find? fun q => decide (q.region = n) && !(hold && q.write) with
    | none => d
    | some q => { d with fab := { d.fab with ubusy := some q, ureqs := d.fab.ureqs.erase q, ulast := q.region } }

/-- How the requests of a region's memory, register and user-store ports are served (R404): 0 not at all, 1 fully, 2 reads
served and writes discarded and acknowledged: the new region before the instant of its handover, the old one after. -/
def Dev.portServe (d : Dev) (n : Nat) : Nat :=
  if 2 ≤ d.pwrState (regionPg n) then 0
  else match d.ld.ho with
    | some h =>
      if h.pairs.any fun x => decide (x.2 = n) then (if h.switched then 1 else if d.fld (regionPg n) FREG.STATE = 4 then 2 else 0)
      else if h.switched ∧ h.pairs.any (fun x => decide (x.1 = n)) = true then 2
      else if d.regionLive n then 1 else 0
    | none => if d.regionLive n then 1 else 0

/-- `USTORE_REQUEST`: a region presents a request for user-area bytes. -/
def Dev.ustoreRequest (d : Dev) (n : Nat) (write : Bool) (addr : Nat) (data : List Nat) (len : Nat) : Dev :=
  if d.portServe n = 2 ∧ write then d.send (.fabricRsp n 1 false [])
  else if d.portServe n ≠ 0 then
    let bytes := if write then data.length else len
    let q : UReq := ⟨n, write, addr, data, bytes⟩
    match winOf (d.reg (regionPg n) FREG.USTORE_WIN) with
    | some w =>
      if w.1 ≤ addr ∧ addr + bytes ≤ w.1 + w.2 then
        ({ d with fab := { d.fab with ureqs := d.fab.ureqs ++ [q] } } : Dev).ustoreNext
      else d.ustoreErr q 1
    | none => d.ustoreErr q 1
  else d

/-! ### Registers of a region's page: `n` is 32 for K0 and 33 for K1 -/

/-- A port of the region is enabled on a class A flow (R374). -/
def View.regionClassA (v : View) (n : Nat) : Bool :=
  anyIf 8 fun i =>
    let p := regionPg n
    v.flag p (FREG.FPORT_CFG_EN.at i) && decide (v.fld p (FREG.MODE.at i) < 2) && decide (v.d.flowClass (v.fld p (FREG.FLOW.at i)) = 0)

/-- Ports in register mode. -/
def View.regPorts (v : View) (n : Nat) : Nat := countIf 8 fun i => decide (v.fld (regionPg n) (FREG.MODE.at i) = 3)

/-- The window of region `n` in the view passes 4 MiB. -/
def View.winLong (v : View) (n : Nat) : Bool :=
  match winOf (v.raw (regionPg n + FREG.USTORE_WIN.off)) with
  | some w => decide (0x400000 < w.1 + w.2)
  | none => false

/-- It overlaps another enabled window. -/
def View.winClash (v : View) (n : Nat) : Bool :=
  let w := fun k => winOf (v.raw (regionPg k + FREG.USTORE_WIN.off))
  anyIf 34 fun k => decide (k ≠ n) && winOverlap (w n) (w k)

/-- A direct write of `new` has a value outside the encoding (cause VALUE). -/
def Dev.fregValueBad (d : Dev) (n off : Nat) (new : Word) : Bool :=
  if inArr FREG.REG_CLK 4 off then !(d.srcLegal n (fieldOf FREG.SRC new))
  else if off = FREG.USTORE_WIN.off then
    match winOf new with
    | some w => decide (0x400000 < w.1 + w.2)
    | none => false
  else if inArr FREG.FPORT_CFG 8 off then decide (63 < fieldOf FREG.CH new + fieldOf FREG.NCH_M1 new)
  else false

/-- A direct write is refused with cause BLOCK (R355, R364, R367, R374). -/
def Dev.fregBlocked (d : Dev) (n off : Nat) (old new : Word) : Bool :=
  let p := regionPg n
  let v : View := ⟨d, []⟩
  let u : View := ⟨d.put (p + off) new, []⟩
  if off = HDR.PAGE_CTL.off then
    decide (n < 32) && (decide (2 ≤ fieldOf HDR.PWR_REQ new ∧ fieldOf HDR.PWR_REQ new ≠ fieldOf HDR.PWR_REQ old) || bitAt new 1) &&
      v.regionClassA n
  else if inArr FREG.REG_CLK 4 off then fieldChanged FREG.SRC old new && bitAt old 31
  else if off = FREG.USTORE_WIN.off then u.winClash n
  else if inArr FREG.FPORT_CFG 8 off then
    (bitAt old 31 && bitAt new 31) || (decide (fieldOf FREG.MODE new = 3) && decide (1 < u.regPorts n))
  else if off = FREG.OSC_CFG.off then bitAt old 31 && !(bitAt new 31) && d.oscUsed (n / 4)
  else false

/-- A register of a region's page has become live. -/
def Dev.fregLive (d : Dev) (n off : Nat) (old new : Word) : Dev :=
  let p := regionPg n
  if off = FREG.TAP_CTL.off then (if bitAt new 0 then d.tapRearm n else d)
  else if off = FREG.OSC_CFG.off ∧ bitAt new 31 ∧ bitAt old 31 = false then d.setReg p FREG.OSC_MEAS 0
  else if inArr FREG.FPORT_CFG 8 off then
    let i := arrIdx FREG.FPORT_CFG off
    if bitAt old 31 ∧ old ≠ new then
      let x := d.region n
      (d.setRegion n { x with outq := Tab.del x.outq i, rot := Tab.del x.rot i }).setF p (FREG.OUT_LVL.at i) 0
    else d
  else d

/-- The region reaches a power state (R373): in LULL and DARK its taps are out; on wake from LULL its flip-flops take their init
values; DARK loses configuration and block RAM. -/
def Dev.fregPower (d : Dev) (n old new : Nat) : Dev :=
  if old ≤ 1 ∧ 2 ≤ new then d.tapsLeave n
  else if 2 ≤ old ∧ new ≤ 1 then
    let d1 := if d.regionFilled n then d.ffsInit n else d
    if d1.fld (regionPg n) FREG.STATE = 3 then d1.tapsEnter [n] else d1
  else d

/-- Block reset of a region's page (R368, R374): what shows the configuration, the taps and an oscillator in use stay; the
flip-flops take their init values. -/
def Dev.fregReset (d : Dev) (n : Nat) : Dev :=
  let p := regionPg n
  let osc := decide (n < 32 ∧ n % 4 = 0) && d.oscUsed (n / 4)
  let keep := fun off => decide (off = FREG.ISO_STAT.off ∨ off = FREG.ISO_CTL.off ∨ off = FREG.REGION_VER.off ∨
    off = FREG.BRAM_MODE.off ∨ off = FREG.FREG_STAT.off ∨ (0x100 ≤ off ∧ off < 0x180)) ||
    (osc && decide (off = FREG.OSC_CFG.off ∨ off = FREG.OSC_MEAS.off))
  let d1 := d.resetPage p keep
  let d2 := if d1.regionFilled n then d1.ffsInit n else d1
  let x := d2.region n
  d2.setRegion n { x with outq := [], rot := [] }

/-! ### Checker rules (R375) -/

/-- CK-5001 to CK-5004 on a region's page. -/
def View.fregRules (v : View) (n : Nat) : List Viol :=
  let p := regionPg n
  let pw := v.fld p HDR.PWR_REQ
  viol (v.has p && anyIf 4 fun i => !(v.d.srcLegal n (v.fld p (FREG.SRC.at i)))) p 0x5001 ++
  viol (v.has p && (v.winLong n || v.winClash n)) p 0x5002 ++
  viol (v.has p && decide (n < 32) && decide (2 ≤ pw ∧ pw ≠ v.d.fld p HDR.PWR_REQ) && (v.regionClassA n || (View.mk v.d []).regionClassA n)) p 0x5003 ++
  viol (v.has p && decide (1 < v.regPorts n)) p 0x5004

end Sys2Proof.Machine
end

