-- ==== Sys2Proof/Machine/Pins.lean ====
section
/-! DEFINITION. Pins and pin peripherals (chapter 14): levels (R416 to R420), masked writes (R421), holds (R392, R423,
R424), locks (R425, R426), partitioned mode (R427, R428), AES3 (R430 to R432), LTC and word clock (R433, R434), serial blocks
(R435). -/

namespace Sys2Proof.Machine

/-- The `IOB` page of bank `b`. -/
def ioPg (b : Nat) : Nat := pg .iob b

/-! ### Levels (R416, R417) -/

/-- `PIN_FUNC` of pin `g`. -/
def funcFld (g : Nat) : Fld := ⟨0x130 + 4 * (g % 16 / 8), 4, 4 * (g % 8) + 3, 4 * (g % 8)⟩

/-- `PIN_OWN` of pin `g`. -/
def ownFld (g : Nat) : Fld := ⟨0x120 + 4 * (g % 16 / 4), 4, 8 * (g % 4) + 5, 8 * (g % 4)⟩

/-- The pins of a peripheral (R429). -/
def perPins (c : Cls) (i : Nat) : List Nat :=
  match c with
  | .aes3 => [i]
  | .ltc => [28 + 2 * i, 29 + 2 * i]
  | .wclk => [32 + 2 * i, 33 + 2 * i]
  | .spi => if i = 3 then [48, 49, 50, 51] else [36 + 4 * i, 37 + 4 * i, 38 + 4 * i, 39 + 4 * i]
  | .i2c => [52 + 2 * i, 53 + 2 * i]
  | .uart =>
    if i = 0 then [60, 61, 62, 63] else if i = 1 then [48, 49, 50, 51] else if i = 2 then [44, 45, 46, 47] else [40, 41, 42, 43]
  | _ => []

/-- The level of a peripheral class. -/
def perFunc : Cls → Nat
  | .aes3 => 4 | .ltc => 5 | .wclk => 6 | .spi => 7 | .i2c => 8 | .uart => 9 | _ => 0

/-- A block claims its pins: enabled and in RUN. -/
def Dev.perOn (d : Dev) (c : Cls) (i : Nat) : Bool := d.flag (pg c i) HDR.ENABLE && decide (d.pwrState (pg c i) = 0)

/-- Some block of a class claims pin `g`. -/
def Dev.perClaims (d : Dev) (c : Cls) (g : Nat) : Bool :=
  anyIf c.info.count fun i => (perPins c i).contains g && d.perOn c i

/-- The module manager claims pin `g`. -/
def Dev.modClaims (d : Dev) (g : Nat) : Bool :=
  anyIf 8 fun k => d.flag (lgPg k) LGRP.MGMT_EN && decide (d.fld (lgPg k) LGRP.SEL_PIN = g)

/-- The functions of the hard peripheral level that claim pin `g`, the highest first. -/
def Dev.hardClaims (d : Dev) (g : Nat) : List Nat :=
  (([Cls.aes3, .ltc, .wclk, .spi, .i2c, .uart].filter fun c => d.perClaims c g).map perFunc) ++
    (if d.modClaims g then [10] else [])

/-- The bank is partitioned (R427). -/
def Dev.partOf (d : Dev) (b : Nat) : Bool := d.flag (ioPg b) IOB.PART

/-- The keeper that claims pin `g`: 2 for K0, 3 for K1 (R418, R427). -/
def Dev.keeperClaim (d : Dev) (g : Nat) : Option Nat :=
  let p := ioPg (g / 16)
  let own := d.fld p (ownFld g)
  let part := d.partOf (g / 16)
  if bitAt (d.reg p IOB.KCLAIM) (g % 16) || (part && decide (own = 32)) then some 2
  else if bitAt (d.reg p IOB.KCLAIM) (16 + g % 16) || (part && decide (own = 33)) then some 3
  else none

/-- Pin `g` is locked. -/
def Dev.pinLocked (d : Dev) (g : Nat) : Bool := bitAt (d.reg (ioPg (g / 16)) IOB.LOCK_STAT) (g % 16)

/-- The level that owns pin `g`, as a `PIN_FUNC` code. -/
def Dev.pinLevel (d : Dev) (g : Nat) : Nat :=
  if d.pn.extest then 1
  else if d.pinLocked g then (Tab.get d.pn.lockFn g).getD 0
  else match d.keeperClaim g with
    | some k => k
    | none => (d.hardClaims g).headD 0

/-- The fabric region whose nets pin `g` takes at the user level. -/
def Dev.pinRegion (d : Dev) (g : Nat) : Option Nat :=
  let p := ioPg (g / 16)
  if d.partOf (g / 16) then (if d.fld p (ownFld g) < 32 then some (d.fld p (ownFld g)) else none)
  else some (d.fld p (IOB.REGION.at (g % 16)))

/-- A net of a fabric region is a source of pin `g`: `SRC_EN` bits 1 and 2. -/
def Dev.pinNets (d : Dev) (g : Nat) : Bool := decide (d.fld (ioPg (g / 16)) (IOB.SRC_EN.at (g % 16)) / 2 % 4 ≠ 0)

/-- The region a pin at level `f` takes its value from. -/
def Dev.levelRegion (d : Dev) (g f : Nat) : Option Nat :=
  if f = 2 then some 32 else if f = 3 then some 33 else if f = 0 ∧ d.pinNets g then d.pinRegion g else none

/-! ### Pads (R392, R419, R422 to R424) -/

/-- The pad latch of pin `g`. -/
def Dev.pad (d : Dev) (g : Nat) : Nat := (Tab.get d.pn.pads g).getD 0

/-- A region's nets reach its pins: it is released, or has taken over in a handover (R404). -/
def Dev.netsLive (d : Dev) (n : Nat) : Bool :=
  d.regionLive n || (match d.ld.ho with
    | some h => h.switched && h.pairs.any fun x => decide (x.2 = n)
    | none => false)

/-- The hold of a pin at level `f`: 11 pad latch, 12 `PRELOAD_STATE`. -/
def Dev.pinHold (d : Dev) (g f : Nat) : Option Nat :=
  if f = 1 then none
  else if !(d.pn.live.contains (g / 16)) then some 12
  else match d.levelRegion g f with
    | some n => if d.netsLive n then none else if d.pad g / 8 % 2 = 1 then some 11 else some 12
    | none => none

/-- The event output of a pin (R419): a gate line; the pulses of the other codes last 40 ns and are sent as they occur. -/
def Dev.pinEvent (d : Dev) (g : Nat) : Bool :=
  let s := d.fld (ioPg (g / 16)) (IOB.SRC.at (g % 16))
  decide (s < 256) && d.gateLine s

/-- Value and enable at the user level. -/
def Dev.padUser (d : Dev) (g : Nat) : Bool × Bool :=
  let p := ioPg (g / 16)
  let s := d.fld p (IOB.SRC_EN.at (g % 16))
  let net := fun (k : Nat) => match d.pinRegion g with
    | some n => d.netsLive n && Config.pinNet n g k d.mono
    | none => false
  let on := fun (k : Nat) => decide (s / 2 ^ k % 2 = 1)
  ((on 0 && bitAt (d.reg p IOB.OUT_MW) (g % 16)) || (on 1 && net 0) || (on 2 && net 2) || (on 3 && d.pinEvent g),
    bitAt (d.reg p IOB.DIR_MW) (g % 16) || (on 1 && net 1) || (on 2 && net 3))

/-- Pin `g` is in an LVDS pair (R415). -/
def Dev.lvds (d : Dev) (g : Nat) : Bool := decide (8 ≤ g / 16) && d.flag (ioPg (g / 16)) (IOB.LVDS.at (g % 16 / 2 * 2))

/-- Value and enable at the user level with pairs: the odd pin of a pair carries the complement of the even one, and a pair
drives only at 2.5 V. -/
def Dev.padPair (d : Dev) (g : Nat) : Bool × Bool :=
  if d.lvds g then
    let mv := d.fld (ioPg (g / 16)) IOB.VIO_MV
    let u := d.padUser (g / 2 * 2)
    (if g % 2 = 1 then !u.1 else u.1, u.2 && decide (2375 ≤ mv ∧ mv ≤ 2625))
  else d.padUser g

/-- A hard peripheral at level `f` drives pin `g`. -/
def Dev.perDrives (d : Dev) (g f : Nat) : Bool :=
  if f = 4 then d.flag (pg .aes3 g) AES3.DIR
  else if f = 5 then decide (g % 2 = 1) && d.flag (pg .ltc ((g - 28) / 2)) LTC.GEN_EN
  else if f = 6 then decide (g % 2 = 1) && d.flag (pg .wclk ((g - 32) / 2)) WCLK.OUT_EN
  else if f = 7 then decide (g % 4 ≠ 2)
  else if f = 8 then Config.pinNet 35 g 1 d.mono
  else if f = 9 then decide (g % 4 = 0 ∨ g % 4 = 2)
  else decide (f = 10)

/-- Value and enable of the pad of pin `g` at level `f` and hold `h`. -/
def Dev.padNow (d : Dev) (g f : Nat) (h : Option Nat) : Bool × Bool :=
  let x := d.pad g
  let p := ioPg (g / 16)
  let latch := (decide (x % 2 = 1), decide (x / 2 % 2 = 1))
  let r : Bool × Bool := match h with
    | some 11 => latch
    | some _ => if d.fld p IOB.PRELOAD_STATE = 2 ∧ x / 4 % 2 = 1 then latch else (false, false)
    | none =>
      if f = 0 then d.padPair g
      else if f ≤ 3 then
        let n := if f = 1 then 34 else 30 + f
        (Config.pinNet n g 0 d.mono || Config.pinNet n g 2 d.mono, Config.pinNet n g 1 d.mono || Config.pinNet n g 3 d.mono)
      else (Config.pinNet 35 g 0 d.mono, d.perDrives g f)
  (r.1, r.2 && d.flag p IOB.VIO_OK)

/-- Blocks that lose pin `g` to level `f` are counted and reported when they lose it (R417). -/
def Dev.pinBlocks (d : Dev) (g f : Nat) : Dev :=
  let lost := (d.hardClaims g).filter fun c => decide (c ≠ f)
  let new := lost.filter fun c => !(d.pn.blocked.contains (g * 16 + c))
  let p := ioPg (g / 16)
  let kept := d.pn.blocked.filter fun k => decide (k / 16 ≠ g)
  let d1 : Dev := { d with pn := { d.pn with blocked := kept ++ lost.map fun c => g * 16 + c } }
  new.foldl (fun e c => (e.count p IOB.BLOCK_CNT).raise p IOB.E_PIN_BLOCKED (wd (c * 4096 + f * 256 + g))) d1

/-- Store the pad of pin `g`; a change is seen outside. -/
def Dev.setPad (d : Dev) (g : Nat) (v en byRegion : Bool) : Dev :=
  let x := d.pad g
  let b := fun (c : Bool) (n : Nat) => if c then n else 0
  let y := b v 1 + b en 2 + b (en || decide (x / 4 % 2 = 1)) 4 + b ((en && byRegion) || decide (x / 8 % 2 = 1)) 8
  let d1 : Dev := { d with pn := { d.pn with pads := Tab.put d.pn.pads g y 0 } }
  if x / 2 % 2 = y / 2 % 2 ∧ (en = false ∨ x % 2 = y % 2) then d1 else d1.send (.pin g en v)

/-- One pin-control edge for pin `g`. -/
def Dev.refreshPin (d : Dev) (g : Nat) : Dev :=
  let f := d.pinLevel g
  let h := d.pinHold g f
  let d1 := (d.setF (ioPg (g / 16)) (funcFld g) (h.getD f)).pinBlocks g f
  let x := d1.padNow g f h
  d1.setPad g x.1 x.2 ((d1.levelRegion g f).isSome && h.isNone)

/-- One pin-control edge for several pins. -/
def Dev.refreshPins (d : Dev) (l : List Nat) : Dev := l.foldl (fun e g => e.refreshPin g) d

/-- One pin-control edge for a bank. -/
def Dev.refreshBank (d : Dev) (b : Nat) : Dev := d.refreshPins ((List.range 16).map (16 * b + ·))

/-- One pin-control edge for the pins of a region. -/
def Dev.refreshRegion (d : Dev) (n : Nat) : Dev :=
  d.refreshPins ((List.range 192).filter fun g => decide (d.levelRegion g (d.pinLevel g) = some n))

/-- A pulse of event source `s` at the pins that select it. -/
def Dev.pinPulse (d : Dev) (s : Nat) : Dev :=
  (List.range 192).foldl (fun e g =>
    let p := ioPg (g / 16)
    let x := e.pad g
    if e.fld p (funcFld g) = 0 ∧ e.fld p (IOB.SRC.at (g % 16)) = s ∧ 8 ≤ e.fld p (IOB.SRC_EN.at (g % 16)) ∧ x / 2 % 2 = 1 then
      (e.send (.pin g true true)).send (.pin g true (decide (x % 2 = 1)))
    else e) d

/-- The input of pin `g` as a reader sees it (R420). -/
def Dev.pinInput (d : Dev) (g : Nat) : Bool :=
  if d.pad g / 2 % 2 = 1 then decide (d.pad g % 2 = 1) else Config.padIn g d.mono

/-- `IN` of bank `b`. -/
def Dev.bankIn (d : Dev) (b : Nat) : Word :=
  wd ((List.range 16).foldl (fun s k => s + if d.pinInput (16 * b + k) then 2 ^ k else 0) 0)

/-- A peripheral at level `f` samples pin `g`: it owns it and the bank is supplied. -/
def Dev.pinSampled (d : Dev) (g f : Nat) : Bool :=
  decide (d.fld (ioPg (g / 16)) (funcFld g) = f) && d.flag (ioPg (g / 16)) IOB.VIO_OK

/-! ### Supplies (R414) -/

/-- `VIO_LOST`: the rail of bank `b` falls below 1.6 V. -/
def Dev.vioLost (d : Dev) (b mv : Nat) : Dev :=
  let p := ioPg b
  if d.flag p IOB.VIO_OK ∧ mv < 1600 then
    (((d.setF p IOB.VIO_MV mv).setF p IOB.VIO_OK 0).refreshBank b).raise p IOB.E_VIO_LOST
  else d

/-- `VIO_BACK`: the rail of bank `b` is at 1.6 V or above again. -/
def Dev.vioBack (d : Dev) (b mv : Nat) : Dev :=
  let p := ioPg b
  if d.flag p IOB.VIO_OK = false ∧ 1600 ≤ mv then
    (((d.setF p IOB.VIO_MV mv).setF p IOB.VIO_OK 1).refreshBank b).raise p IOB.E_VIO_BACK
  else d

/-! ### Partitioned mode (R428) -/

/-- The source owns pin `g` of a partitioned bank. -/
def Dev.ownsPin (d : Dev) (src : Source) (g : Nat) : Bool :=
  let o := d.fld (ioPg (g / 16)) (ownFld g)
  match src with
  | .sup => true
  | .region n => decide (o = n.val)
  | .keeper k => decide (o = 32 + k.val)
  | .pcie => decide (o = 34)
  | .brizel => decide (o = 35)
  | _ => false

/-- Is the register one whose write concerns pins by a mask in bits 31:16? -/
def iobMasked (off : Nat) : Bool :=
  decide (off = IOB.OUT_MW.off ∨ off = IOB.DIR_MW.off ∨ off = IOB.PULL_MW.off ∨ off = IOB.PIN_LOCK.off)

/-- The pins of a bank a write at an offset of its half concerns. -/
def iobPins (off : Nat) (v : Word) : Nat :=
  if iobMasked off then v.toNat / 65536
  else if inArr IOB.PIN_CFG 16 off then 2 ^ arrIdx IOB.PIN_CFG off
  else if inArr IOB.EVT_SEL 16 off then 2 ^ arrIdx IOB.EVT_SEL off
  else 0

/-- The pins of a partitioned bank whose bits a write drops. -/
def Dev.iobDropped (d : Dev) (src : Source) (b off : Nat) (v : Word) : Nat :=
  if d.partOf b then
    (List.range 16).foldl (fun s k => s + if iobPins off v / 2 ^ k % 2 = 1 ∧ d.ownsPin src (16 * b + k) = false then 2 ^ k else 0) 0
  else 0

/-- What remains of a write to bank `b`: nothing when it concerned one pin of another owner; the drop is counted once and
reported. -/
def Dev.iobFilter (d : Dev) (src : Source) (b off : Nat) (v : Word) : Dev × Option Word :=
  let m := d.iobDropped src b off v
  if m = 0 then (d, some v)
  else
    let p := ioPg b
    let d1 := (d.count p IOB.IGN_CNT).raise p IOB.E_PIN_IGNORED (wd m) (wd src.code)
    (d1, if iobMasked off then some (v &&& ~~~(wd (m * 65536))) else none)

/-! ### Masked writes and locks (R421, R425, R426) -/

/-- The word a masked register takes: the pins of the mask change, the mask reads 0. -/
def maskedWord (old v : Word) : Word :=
  let m := v.toNat / 65536
  (old &&& ~~~(wd m) &&& 0xFFFF) ||| (v &&& wd m)

/-- A write that would leave a locked pin's `PIN_CFG`, `EVT_SEL`, `DIR` or `PULL` other than it is. -/
def Dev.iobLocked (d : Dev) (b off : Nat) (old new : Word) : Bool :=
  let l := fun (k : Nat) => bitAt (d.reg (ioPg b) IOB.LOCK_STAT) k
  if inArr IOB.PIN_CFG 16 off then l (arrIdx IOB.PIN_CFG off) && decide (old ≠ new)
  else if inArr IOB.EVT_SEL 16 off then l (arrIdx IOB.EVT_SEL off) && decide (old ≠ new)
  else if off = IOB.DIR_MW.off ∨ off = IOB.PULL_MW.off then anyIf 16 fun k => l k && decide (bitAt old k ≠ bitAt new k)
  else false

/-- What an apply makes live at an offset of bank `b`: locked pins keep their fields (R426). -/
def Dev.iobApply (d : Dev) (b off : Nat) (old new : Word) : Word :=
  let l := d.reg (ioPg b) IOB.LOCK_STAT
  if inArr IOB.PIN_CFG 16 off then (if bitAt l (arrIdx IOB.PIN_CFG off) then old else new)
  else if inArr IOB.EVT_SEL 16 off then (if bitAt l (arrIdx IOB.EVT_SEL off) then old else new)
  else if off = IOB.DIR_MW.off ∨ off = IOB.PULL_MW.off then (old &&& l) ||| (new &&& ~~~l)
  else new

/-- Every pin of a mask locks at its present level. -/
def Dev.lockPins (d : Dev) (b m : Nat) : Dev :=
  let p := ioPg b
  let ks := (List.range 16).filter fun k => m / 2 ^ k % 2 = 1 && !(d.pinLocked (16 * b + k))
  let d1 := ks.foldl (fun (e : Dev) k => { e with pn := { e.pn with lockFn := Tab.ins e.pn.lockFn (16 * b + k) (d.pinLevel (16 * b + k)) } }) d
  d1.setF p IOB.LOCKED (bitsOf (d.reg p IOB.LOCK_STAT ||| wd m) 15 0)

/-- `PIN_LOCK`: the sequence 0x5A5A, 0xA5A5, 0x5A5A from one source with one mask. -/
def Dev.pinLock (d : Dev) (src : Source) (b : Nat) (v : Word) : Dev :=
  let key := v.toNat % 65536
  let m := v.toNat / 65536
  let st := Tab.get d.pn.lockSeq b
  let set := fun (n : Nat) => ({ d with pn := { d.pn with lockSeq := Tab.ins d.pn.lockSeq b (n, src.tag, m) } } : Dev)
  let clr : Dev := { d with pn := { d.pn with lockSeq := Tab.del d.pn.lockSeq b } }
  let n := match st with | some x => if x.2 = (src.tag, m) then x.1 else 0 | none => 0
  if n = 1 ∧ key = 0xA5A5 then set 2
  else if n = 2 ∧ key = 0x5A5A then (clr.lockPins b m).refreshBank b
  else if key = 0x5A5A then set 1
  else clr

/-- Any other write to the page restarts the sequence. -/
def Dev.pinLockBreak (d : Dev) (b : Nat) : Dev := { d with pn := { d.pn with lockSeq := Tab.del d.pn.lockSeq b } }

/-- The locks of the pins of a mask are cleared (R479). -/
def Dev.unlockPins (d : Dev) (b m : Nat) : Dev :=
  let p := ioPg b
  let d1 := d.setF p IOB.LOCKED (bitsOf (d.reg p IOB.LOCK_STAT &&& ~~~(wd m)) 15 0)
  ({ d1 with pn := { d1.pn with lockFn := Tab.keep d1.pn.lockFn fun g => !(decide (g / 16 = b) && decide (m / 2 ^ (g % 16) % 2 = 1)) } } : Dev).refreshBank b

/-! ### Registers of a bank -/

/-- A direct write of `new` is refused with cause VALUE beyond its field limits (R418, R420). -/
def iobValueBad (off : Nat) (new : Word) : Bool :=
  if inArr IOB.EVT_SEL 16 off then decide (280 ≤ fieldOf IOB.SRC new)
  else if off = IOB.KCLAIM.off then decide (fieldOf IOB.K0 new &&& fieldOf IOB.K1 new ≠ 0)
  else false

/-- `PART` follows `PART_EN` and the partition fuse (R427). -/
def Dev.partFollow (d : Dev) (b : Nat) : Dev :=
  d.setFlag (ioPg b) IOB.PART (d.flag (ioPg b) IOB.PART_EN || d.flag (pg .sec 0) SEC.PART)

/-- A register of bank `b` has become live. -/
def Dev.iobLive (d : Dev) (b off : Nat) (old new : Word) : Dev :=
  if off = IOB.IOB_CTL.off then
    let d1 := d.partFollow b
    ({ d1 with pn := { d1.pn with live := if d1.pn.live.contains b then d1.pn.live else d1.pn.live ++ [b] } } : Dev).refreshBank b
  else if old = new then d
  else if inArr IOB.PIN_CFG 16 off then d.refreshPins [16 * b + arrIdx IOB.PIN_CFG off, 16 * b + arrIdx IOB.PIN_CFG off / 2 * 2 + 1]
  else if inArr IOB.EVT_SEL 16 off then d.refreshPin (16 * b + arrIdx IOB.EVT_SEL off)
  else if off = IOB.KCLAIM.off ∨ off = IOB.OUT_MW.off ∨ off = IOB.DIR_MW.off ∨ inArr IOB.PIN_OWN 4 off then d.refreshBank b
  else d

/-- Block reset of bank `b` (R426): unlocked pins take reset values; locked pins, `KCLAIM`, `PIN_OWN`, `PART_EN`, the
measured rail and the pad levels stay. -/
def Dev.iobReset (d : Dev) (b : Nat) : Dev :=
  let p := ioPg b
  let l := d.reg p IOB.LOCK_STAT
  let lk := fun (f : Fld) (off : Nat) => inArr f 16 off && bitAt l (arrIdx f off)
  let keep := fun o => decide (o = IOB.IOB_STAT.off ∨ o = IOB.LOCK_STAT.off ∨ o = IOB.KCLAIM.off ∨ (0x120 ≤ o ∧ o < 0x138)) ||
    lk IOB.PIN_CFG (o % 0x800) || lk IOB.EVT_SEL (o % 0x800)
  let d1 := (d.resetPage p keep).setF p IOB.PART_EN (d.fld p IOB.PART_EN)
  let put := fun (e : Dev) (f : Fld) => (e.setReg p f (d.reg p f &&& l)).setReg p f.staged (d.reg p f.staged &&& l)
  (put (put (put d1 IOB.OUT_MW) IOB.DIR_MW) IOB.PULL_MW).refreshBank b

/-- CK-6001 and CK-6003 on a bank. -/
def View.iobRules (v : View) (b : Nat) : List Viol :=
  let p := ioPg b
  let mv := v.d.fld p IOB.VIO_MV
  let bad := fun (k : Nat) =>
    (v.flag p (IOB.LVDS.at k) && (decide (b < 8) || decide (k % 2 = 1))) || decide (5 < v.fld p (IOB.DRIVE.at k)) ||
      decide (31 < v.fld p (IOB.REGION.at k))
  let drv := fun (k : Nat) => decide (8 ≤ b) && v.flag p (IOB.LVDS.at k) && bitAt (v.raw (p + IOB.DIR_MW.off)) k
  viol (v.has p && anyIf 16 bad) p 0x6001 ++
  viol (v.has p && (decide (mv < 2375) || decide (2625 < mv)) && anyIf 8 fun k => drv (2 * k)) p 0x6003

/-- CK-6002 on a peripheral's page. -/
def View.perRules (v : View) (c : Cls) (i : Nat) : List Viol :=
  let p := pg c i
  viol (v.has p && v.flag p HDR.ENABLE && (perPins c i).any fun g =>
    v.d.pinLocked g && decide ((Tab.get v.d.pn.lockFn g).getD 0 ≠ perFunc c)) p 0x6002

/-! ### AES3 (R430 to R432) -/

/-- The AES3 page. -/
def aesPg (n : Nat) : Nat := pg .aes3 n

/-- The rate of block `n`'s grid. -/
def Dev.aesRate (d : Dev) (n : Nat) : Nat := d.mcgRate (d.fld (aesPg n) AES3.MCG) * 2 ^ d.fld (aesPg n) AES3.MULT

/-- The block runs in the given direction on a running generator. -/
def Dev.aesRuns (d : Dev) (n : Nat) (tx : Bool) : Bool :=
  d.perOn .aes3 n && decide (d.flag (aesPg n) AES3.DIR = tx) && d.mcgRuns (d.fld (aesPg n) AES3.MCG)

/-- Next edge to serve. -/
def Dev.aesNext (d : Dev) (n dflt : Nat) : Nat := (Tab.get d.pn.aesEdge n).getD dflt

/-- Store the next edge to serve. -/
def Dev.setAesNext (d : Dev) (n k : Nat) : Dev := { d with pn := { d.pn with aesEdge := Tab.ins d.pn.aesEdge n k } }

/-- The two words of a frame for edge `k`. -/
def Dev.aesPush (d : Dev) (n k : Nat) (a b : Word) : Dev :=
  let p := aesPg n
  let f := d.fld p AES3.FLOW
  let c := d.fld p AES3.CH
  let t := edgeTime (d.aesRate n) k
  (d.pushFlow (aesEp n) ⟨f, c, t, a, false, false⟩).pushFlow (aesEp n) ⟨f, c + 1, t, b, false, false⟩

/-- One slip. -/
def Dev.aesSlip (d : Dev) (n : Nat) : Dev := (d.count (aesPg n) AES3.SLIP_CNT).raise (aesPg n) AES3.E_AES_SLIP

/-- FAULT words for the edges before edge `k` that have had no frame; each is a slip while the receiver is locked. -/
def Dev.aesFill (d : Dev) (n k : Nat) (slips : Bool) : Dev :=
  let s := d.aesNext n k
  let d1 := (List.range (k - s)).foldl (fun e j =>
    let e1 := e.aesPush n (s + j) 0xC0 0xC0
    if slips then e1.aesSlip n else e1) d
  d1.setAesNext n (Nat.max s k)

/-- Subframe of a received frame: 24 bits, V, parity error. -/
def aesWord (sample : Nat) (v bad : Bool) : Word := if v || bad then 0xC0 else wd (sample % 2 ^ 24 * 256)

/-- `AES3_RX_FRAME`: a frame arrives now; `cs` is the 24 bytes of channel status when its block ends. -/
def Dev.aesRxFrame (d : Dev) (n : Nat) (a b : Nat) (va vb pa pb : Bool) (cs : Option (List Word)) : Dev :=
  let p := aesPg n
  if d.aesRuns n false && d.flag p AES3.LOCK && d.pinSampled n 4 then
    let k := edgeAt (d.aesRate n) d.now
    let d1 := match cs with
      | some l => ((List.range 6).foldl (fun (e : Dev) (i : Nat) => e.setReg p (AES3.CS_RX.at i) (l.getD i 0)) d).setF p AES3.PRO ((l.getD 0 0).toNat % 2)
      | none => d
    let d2 := (if pa then d1.count p AES3.PARITY_CNT else d1)
    let d3 := (if pb then d2.count p AES3.PARITY_CNT else d2)
    if k < d3.aesNext n k then d3.aesSlip n
    else ((d3.aesFill n k true).aesPush n k (aesWord a va pa) (aesWord b vb pb)).setAesNext n (k + 1)
  else d

/-- `AES_LOCK`: the receiver locks at a frame rate; FAULT words stand for the edges before. -/
def Dev.aesLock (d : Dev) (n hz : Nat) : Dev :=
  let p := aesPg n
  if d.aesRuns n false && d.pinSampled n 4 && !(d.flag p AES3.LOCK) then
    let d1 := d.aesFill n (edgeAt (d.aesRate n) d.now) false
    ((d1.setF p AES3.RATE hz).setF p AES3.LOCK 1).raise p AES3.E_AES_LOCK
  else d

/-- `AES_UNLOCK`: the receiver loses lock; FAULT words follow. -/
def Dev.aesUnlock (d : Dev) (n : Nat) : Dev :=
  let p := aesPg n
  if d.flag p AES3.LOCK then
    let d1 := if d.aesRuns n false then d.aesFill n (edgeAt (d.aesRate n) d.now) true else d
    (d1.setF p AES3.LOCK 0).raise p AES3.E_AES_UNLOCK
  else d

/-- The flow's word for a channel and timestamp, as 24 audio bits and V. -/
def aesTake (q : List FlowWord) (ch t : Nat) : Nat × Bool :=
  match q.find? fun w => decide (w.ch = ch ∧ w.ts = t) with
  | some w => if w.poison ∨ 128 ≤ w.word.toNat % 256 then (0, true) else (w.word.toNat / 256, false)
  | none => (0, true)

/-- `AES3_TX_FRAME`: the frame of the next edge starts at the pin at its timestamp. The message holds A in bits 23:0, B in
bits 55:32, V in 24 and 56, the channel-status bit in 25 and 57, and the block start in 26. -/
def Dev.aesTxFrame (d : Dev) (n : Nat) : Dev :=
  let p := aesPg n
  if d.aesRuns n true then
    let r := d.aesRate n
    let k := Nat.max (d.aesNext n 0) (edgeAt r d.now)
    let t := edgeTime r k
    let d1 := d.reach t
    let q := (Tab.get d1.pn.aesTx n).getD []
    let c := d1.fld p AES3.CH
    let a := aesTake q c t
    let b := aesTake q (c + 1) t
    let i := k % 192
    let cs := if bitAt (d1.reg p (AES3.CS_TX.at (i / 32))) (i % 32) then 1 else 0
    let v := fun (x : Bool) => if x then 1 else 0
    let w := a.1 + v a.2 * 2 ^ 24 + cs * 2 ^ 25 + (if i = 0 then 2 ^ 26 else 0) + b.1 * 2 ^ 32 + v b.2 * 2 ^ 56 + cs * 2 ^ 57
    let rest := q.filter fun x => decide (t < x.ts)
    let d2 : Dev := { d1 with pn := { d1.pn with aesTx := Tab.put d1.pn.aesTx n rest [] } }
    let d3 := d2.setAesNext n (k + 1)
    if d3.pinSampled n 4 then d3.send (.serial p w) else d3
  else d

/-! ### LTC (R433) -/

/-- The `LTC` page. -/
def ltcPg (k : Nat) : Nat := pg .ltc k

/-- A byte of two BCD digits and back. -/
def toBcd (n : Nat) : Nat := n / 10 % 10 * 16 + n % 10
def ofBcd (n : Nat) : Nat := n / 16 % 16 * 10 + n % 16

/-- `LTC_SYNC`: a sync word has ended: time address and user bits. -/
def Dev.ltcSync (d : Dev) (k : Nat) (addr ub : Word) : Dev :=
  let p := ltcPg k
  if d.perOn .ltc k && d.flag p LTC.RD_EN && d.pinSampled (28 + 2 * k) 5 then
    let d1 := (d.setReg p LTC.LTC_RX addr).setReg p LTC.LTC_RX_UB ub
    let d2 := (d1.setReg p LTC.LTC_RX_NS (nsWord d.now)).setReg p LTC.LTC_RX_SEC (secWord d.now)
    { d2 with pn := { d2.pn with ltcAt := Tab.ins d2.pn.ltcAt k d2.mono } }
  else d

/-- `LTC_LOST`: 200 ms have passed without a valid codeword. -/
def Dev.ltcLost (d : Dev) (k : Nat) : Dev :=
  let p := ltcPg k
  match Tab.get d.pn.ltcAt k with
  | none => d
  | some t =>
    if d.perOn .ltc k && d.flag p LTC.RD_EN then
      let d1 := d.pass (t + 200000000 - d.mono)
      ({ d1 with pn := { d1.pn with ltcAt := Tab.del d1.pn.ltcAt k } } : Dev).raise p LTC.E_LTC_LOST
    else d

/-- Codeword rate of a frame-rate code. -/
def ltcFps (vrate : Nat) : Nat := if vrate ≤ 2 then 24 else if vrate = 3 then 25 else 30

/-- The time address one frame later; drop-frame counting leaves out frames 0 and 1 of each minute but every tenth
(SMPTE ST 12-1). -/
def ltcNext (w fps : Nat) (drop : Bool) : Nat :=
  let f := ofBcd (w % 256) + 1
  let s := ofBcd (w / 256 % 256) + f / fps
  let m := ofBcd (w / 65536 % 256) + s / 60
  let h := (ofBcd (w / 2 ^ 24 % 256) + m / 60) % 24
  let f' := if drop ∧ fps = 30 ∧ f % fps = 0 ∧ s % 60 = 0 ∧ m % 60 % 10 ≠ 0 then 2 else f % fps
  toBcd h * 2 ^ 24 + toBcd (m % 60) * 65536 + toBcd (s % 60) * 256 + toBcd f'

/-- `LTC_CODEWORD_START`: the generator starts a codeword on the next frame start. -/
def Dev.ltcCodeword (d : Dev) (k : Nat) : Dev :=
  let p := ltcPg k
  let m := d.fld p LTC.MCG
  let vr := d.fld (pg .mcg m) MCG.VRATE
  if d.perOn .ltc k && d.flag p LTC.GEN_EN && d.mcgRuns m && decide (1 ≤ vr ∧ vr ≤ 5) then
    let f := Nat.max ((Tab.get d.pn.ltcFrame k).getD 0) (frameAt vr d.now)
    let d1 := d.reach (frameTime vr f)
    let w := d1.reg p LTC.LTC_SET
    let d2 := d1.setReg p LTC.LTC_SET (wd (ltcNext w.toNat (ltcFps vr) (d1.flag p LTC.DROP)))
    let d3 : Dev := { d2 with pn := { d2.pn with ltcFrame := Tab.ins d2.pn.ltcFrame k (f + 1) } }
    if d3.pinSampled (29 + 2 * k) 5 then d3.send (.serial p w.toNat) else d3
  else d

/-- A word-clock register as it reads. -/
def Dev.wclkView (d : Dev) (k off : Nat) (w : Word) : Word :=
  let on := d.perOn .wclk k && d.flag (pg .wclk k) WCLK.IN_EN && d.pinSampled (32 + 2 * k) 6
  if off = WCLK.WCLK_STAT.off then
    (if on && Config.wclkHere k d.mono then wd (2 ^ 31 + (Config.wclkHz k d.mono).toNat) else 0)
  else if off = WCLK.WCLK_OFS.off then (if on && Config.wclkHere k d.mono then Config.wclkOfs k d.mono else 0)
  else w

/-! ### Serial blocks (R370, R435) -/

/-- Offsets of a serial page. -/
def serCTL : Nat := 0x40
def serDATA : Nat := 0x44
def serSTAT : Nat := 0x48
def serRATE : Nat := 0x50

/-- `ATTACH` and `REGION` of a serial page. -/
def Dev.serAttach (d : Dev) (p : Nat) : Bool := bitAt (d.raw (p + serCTL)) 31
def Dev.serRegion (d : Dev) (p : Nat) : Nat := bitsOf (d.raw (p + serCTL)) 29 24

/-- The FIFOs of a serial page. -/
def Dev.serTx (d : Dev) (p : Nat) : List Nat := (Tab.get d.pn.serTx p).getD []
def Dev.serRx (d : Dev) (p : Nat) : List Nat := (Tab.get d.pn.serRx p).getD []

/-- `SER_STAT`. -/
def Dev.serStat (d : Dev) (p : Nat) : Word := wd ((d.serTx p).length * 256 + (d.serRx p).length)

/-- A write to `SER_DATA`: a byte enters the transmit FIFO of 16. -/
def Dev.serPush (d : Dev) (p byte : Nat) : Dev :=
  let q := d.serTx p
  if d.serAttach p ∨ 16 ≤ q.length then d
  else
    let d1 : Dev := { d with pn := { d.pn with serTx := Tab.put d.pn.serTx p (q ++ [byte % 256]) [] } }
    if q = [] then { d1 with pn := { d1.pn with serAt := Tab.ins d1.pn.serAt p d1.mono } } else d1

/-- A read of `SER_DATA`: value and device. -/
def Dev.serPop (d : Dev) (p : Nat) : Word × Dev :=
  match d.serRx p with
  | [] => (0, d)
  | b :: t => (wd (256 + b), { d with pn := { d.pn with serRx := Tab.put d.pn.serRx p t [] } })

/-- The pin on which a serial block receives, and its level. -/
def serIn (c : Cls) (i : Nat) : Nat × Nat :=
  let l := perPins c i
  (l.getD (if c = .spi then 2 else 1) 0, perFunc c)

/-- `SER_RX_BYTE`: a byte arrives; a full FIFO drops it. -/
def Dev.serRxByte (d : Dev) (c : Cls) (i byte : Nat) : Dev :=
  let p := pg c i
  let x := serIn c i
  if d.perOn c i && d.pinSampled x.1 x.2 then
    if d.serAttach p then
      (if d.regionLive (d.serRegion p) then (d.regionWake (d.serRegion p)).send (.fabricRsp (d.serRegion p) 4 false [byte % 256]) else d)
    else if (d.serRx p).length < 16 then
      { d with pn := { d.pn with serRx := Tab.put d.pn.serRx p (d.serRx p ++ [byte % 256]) [] } }
    else d
  else d

/-- Bit times of a byte: a UART frame has a start bit, a stop bit and its parity; an I²C byte has its acknowledge. -/
def Dev.serBits (d : Dev) (c : Cls) (p : Nat) : Nat :=
  match c with
  | .uart => if bitsOf (d.raw (p + serCTL)) 21 20 = 0 then 10 else 11
  | .i2c => 9
  | _ => 8

/-- The bytes whose time has come leave the transmit FIFOs. -/
def Dev.serTick (d : Dev) : Dev :=
  d.pn.serTx.foldl (fun e x =>
    match pageAt x.1, x.2 with
    | some (c, i), b :: t =>
      let rate := bitsOf (e.raw (x.1 + serRATE)) 25 0
      let at_ := (Tab.get e.pn.serAt x.1).getD e.mono
      if e.perOn c i && decide (at_ + ceilDiv (e.serBits c x.1 * 1000000000) rate ≤ e.mono) then
        let e1 : Dev := { e with pn := { e.pn with serTx := Tab.put e.pn.serTx x.1 t [], serAt := Tab.ins e.pn.serAt x.1 e.mono } }
        if e1.pinSampled ((perPins c i).getD 1 0) (perFunc c) || e1.pinSampled ((perPins c i).getD 0 0) (perFunc c)
        then e1.send (.serial x.1 b) else e1
      else e
    | _, _ => e) d

/-- A direct write of `SER_CTL` or `SER_RATE` while the block is enabled is refused with cause BLOCK. -/
def Dev.serBlocked (d : Dev) (p off : Nat) : Bool := decide (off = serCTL ∨ off = serRATE) && d.flag p HDR.ENABLE

/-- A rate outside R435. -/
def serValueBad (c : Cls) (off : Nat) (new : Word) : Bool :=
  let r := bitsOf new 25 0
  decide (off = serRATE) && !(match c with
    | .uart => decide (300 ≤ r ∧ r ≤ 25000000)
    | .spi => decide (100000 ≤ r ∧ r ≤ 50000000)
    | _ => decide (r = 100000 ∨ r = 400000 ∨ r = 1000000))

/-! ### Peripheral pages -/

/-- A register of a peripheral page has become live: pins follow `ENABLE`, directions and generators. -/
def Dev.perLive (d : Dev) (c : Cls) (i off : Nat) (old new : Word) : Dev :=
  let p := pg c i
  let d1 :=
    if c = .aes3 ∧ (off = HDR.PAGE_CTL.off ∨ off = AES3.AES_CTL.off) ∧ old ≠ new then
      ({ d with pn := { d.pn with aesEdge := Tab.del d.pn.aesEdge i, aesTx := Tab.del d.pn.aesTx i } } : Dev).setF p AES3.LOCK 0
    else if c = .ltc ∧ off = LTC.LTC_CTL.off ∧ bitAt new 31 ∧ bitAt old 31 = false then
      { d with pn := { d.pn with ltcAt := Tab.ins d.pn.ltcAt i d.mono } }
    else d
  if old = new then d1 else d1.refreshPins (perPins c i)

/-- A peripheral reaches a power state: in DARK it releases its pins. -/
def Dev.perPower (d : Dev) (c : Cls) (i : Nat) : Dev := d.refreshPins (perPins c i)

/-- Block reset of a peripheral page: registers and FIFOs. -/
def Dev.perReset (d : Dev) (c : Cls) (i : Nat) : Dev :=
  let p := pg c i
  let d1 := d.resetPage p fun _ => false
  let x := d1.pn
  let y : PinSt := { x with serTx := Tab.del x.serTx p, serRx := Tab.del x.serRx p, serAt := Tab.del x.serAt p }
  let z : PinSt :=
    if c = .aes3 then { y with aesEdge := Tab.del y.aesEdge i, aesTx := Tab.del y.aesTx i }
    else if c = .ltc then { y with ltcAt := Tab.del y.ltcAt i, ltcFrame := Tab.del y.ltcFrame i } else y
  ({ d1 with pn := z } : Dev).refreshPins (perPins c i)

end Sys2Proof.Machine
end

