-- ==== Sys2Proof/Machine/Image.lean ====
section
/-! DEFINITION. Presy images (R377 to R385): header, manifest, section table, records, decryption and signature, read from
the bytes of the image store or of frame memory. -/

namespace Sys2Proof.Machine

/-- The pages of the loader's neighbours. -/
def stPg : Nat := pg .store 0
def secPg : Nat := pg .sec 0
def pwrPg : Nat := pg .pwr 0

/-- A little-endian number. -/
def leNum (l : List Nat) : Nat := l.foldr (fun b s => b + 256 * s) 0

/-- A number as `n` little-endian bytes. -/
def leBytes (n v : Nat) : List Nat := (List.range n).map fun i => v / 256 ^ i % 256

/-- Bytes of the signature block. -/
def sigBytes : Nat := 29860

/-- Where an image stands: its memory and first byte. -/
structure Img where
  mem : List Host.Cell
  base : Nat
  deriving DecidableEq, Repr

/-- A little-endian field of an image. -/
def Img.le (i : Img) (ofs n : Nat) : Nat := memNum i.mem (i.base + ofs) n

/-- Bytes of an image. -/
def Img.bytes (i : Img) (ofs n : Nat) : List Nat := memBytes i.mem (i.base + ofs) n

/-- The fields of the header (R378). -/
def Img.kind (i : Img) : Nat := i.le 0x06 2
def Img.ver (i : Img) : Nat := i.le 0x0C 4
def Img.arc (i : Img) : Nat := i.le 0x10 1
def Img.groups (i : Img) : Nat := i.le 0x11 1
def Img.keysel (i : Img) : Nat := i.le 0x12 1
def Img.ownerKey (i : Img) : Nat := i.le 0x13 1
def Img.nRegions (i : Img) : Nat := i.le 0x14 2
def Img.nSections (i : Img) : Nat := i.le 0x16 2
def Img.len (i : Img) : Nat := i.le 0x18 4
def Img.sigOfs (i : Img) : Nat := i.le 0x1C 4
def Img.nonce (i : Img) : List Nat := i.bytes 0x20 16

/-- Every byte is zero. -/
def zeros (l : List Nat) : Bool := l.all fun b => decide (b = 0)

/-- The header is as R378 says for an image of a kind. -/
def Img.headerOk (i : Img) (kind : Nat) : Bool :=
  decide (i.le 0 4 = 0x59535250 ∧ i.le 4 2 = 1 ∧ i.kind = kind ∧ i.le 8 4 = 0x9144 ∧ i.arc ≤ 128) &&
  decide (1 ≤ i.groups ∧ i.groups ≤ 8 ∧ i.keysel ≤ 2 ∧ i.ownerKey ≤ (if kind = 1 then 0 else 1)) &&
  decide (i.nRegions ≤ 50 ∧ 1 ≤ i.nSections ∧ i.nSections ≤ 4096) &&
  decide (i.len ≤ bufBytes ∧ 128 + 8 * i.nRegions + 32 * i.nSections + sigBytes ≤ i.len ∧ i.sigOfs + sigBytes = i.len) &&
  zeros (i.bytes 0x30 80)

/-- The digest of R385. -/
def Img.digest (i : Img) : List Nat := Config.shake256 (i.bytes 0 i.sigOfs) 64

/-- The bytes of eight hash registers of the `SEC` page, little-endian. -/
def Dev.hashBytes (d : Dev) (f : Fld) : List Nat := (List.range 8).flatMap fun k => leBytes 4 (d.reg secPg (f.at k)).toNat

/-- The key hash that `OWNER_KEY` names (R385, R466): OPK0 unless revoked, OPK1 once set; the vendor key for firmware. -/
def Dev.imgKeyHash (d : Dev) (kind owner : Nat) : Option (List Nat) :=
  if kind = 1 then some Config.vendorKey
  else if owner = 0 then
    (if d.flag secPg SEC.OWNED ∧ d.flag secPg SEC.OPK0_REVOKED = false then some (d.hashBytes SEC.OPK0_HASH) else none)
  else if d.flag secPg SEC.OPK1_SET then some (d.hashBytes SEC.OPK1_HASH) else none

/-- The signature block verifies (R385). -/
def Dev.sigOk (d : Dev) (i : Img) : Bool :=
  let o := i.sigOfs
  let pk := i.bytes (o + 4) 64
  match d.imgKeyHash i.kind i.ownerKey with
  | none => false
  | some h => decide (i.le o 2 = 1 ∧ i.le (o + 2) 2 = 0) && decide (Config.shake256 pk 32 = h) &&
    Config.slhVerify pk i.digest (i.bytes (o + 68) 29792)

/-- Manifest entry `k` (R379). -/
def Img.manif (i : Img) (k : Nat) : Manif :=
  let o := 0x80 + 8 * k
  ⟨i.le o 1, i.le (o + 1) 1, i.le (o + 2) 1, i.le (o + 3) 1, i.le (o + 4) 1, i.le (o + 5) 1, i.le (o + 6) 2⟩

/-- The manifest. -/
def Img.manifs (i : Img) : List Manif := (List.range i.nRegions).map i.manif

/-- The entry is a new owner of a handover. -/
def Manif.partner (m : Manif) : Bool := decide (m.flags % 2 = 1)

/-- The number of a region in this model: 0 to 31 fabric, 32 and 33 keeper, 34 up tile regions. -/
def Manif.region (m : Manif) : Nat := if m.kind = 0 then m.index else if m.kind = 1 then 32 + m.index else 34 + m.index

/-- An entry has the form of R379. -/
def Manif.ok (m : Manif) (groups : Nat) : Bool :=
  decide (m.kind ≤ 2 ∧ m.index < (if m.kind = 0 then 32 else if m.kind = 1 then 2 else 16) ∧ m.group < groups) &&
  decide (m.flags ≤ 1 ∧ m.zero = 0) && (m.partner || decide (m.repl = 0)) && (decide (m.kind = 2) || decide (m.cols = 0))

/-- No region stands in two entries. -/
def manifsDistinct : List Manif → Bool
  | [] => true
  | m :: t => t.all (fun n => decide (n.region ≠ m.region)) && manifsDistinct t

/-- Section table entry `j` (R380). -/
def Img.sect (i : Img) (j : Nat) : Sect :=
  let o := 0x80 + 8 * i.nRegions + 32 * j
  ⟨i.le o 1, i.le (o + 1) 1, i.le (o + 2) 1, i.le (o + 3) 1, i.le (o + 4) 4, i.le (o + 8) 4⟩

/-- The section table. -/
def Img.sects (i : Img) : List Sect := (List.range i.nSections).map i.sect

/-- The section is encrypted. -/
def Sect.enc (s : Sect) : Bool := decide (s.flags % 2 = 1)

/-- Two bodies overlap. -/
def Sect.meets (a b : Sect) : Bool := decide (a.ofs < b.ofs + b.len ∧ b.ofs < a.ofs + a.len)

/-- Section `j` has the form of R380 and R381. -/
def Img.sectOk (i : Img) (ms : List Manif) (ss : List Sect) (j : Nat) : Bool :=
  let s := ss.getD j ⟨0, 0, 0, 0, 0, 0⟩
  let o := 0x80 + 8 * i.nRegions + 32 * j
  let kind := (ms[s.region]?.map (·.kind)).getD 3
  decide (1 ≤ s.ty ∧ s.ty ≤ 5 ∧ s.flags ≤ 1) && decide (s.region = 255 ∨ s.region < i.nRegions) &&
  decide (s.group < i.groups) && zeros (i.bytes (o + 12) 4) && (s.enc || zeros (i.bytes (o + 16) 16)) &&
  decide (0x80 + 8 * i.nRegions + 32 * i.nSections ≤ s.ofs ∧ s.ofs + s.len ≤ i.sigOfs) &&
  (!(s.enc) || decide (1 ≤ i.keysel)) &&
  (decide (s.ty ≠ 1) || decide (kind ≤ 1)) && (decide (s.ty ≠ 2) || decide (kind = 0)) && (decide (s.ty ≠ 3) || decide (kind = 2)) &&
  (List.range j).all fun k => !(s.meets (ss.getD k ⟨0, 0, 0, 0, 0, 0⟩))

/-- The key that `KEYSEL` names. -/
def Dev.imgKey (d : Dev) (keysel : Nat) : Option Nat := if keysel = 1 then d.sec.kimgF else if keysel = 2 then d.sec.kimgB else none

/-- The body of section `j`, decrypted when it is encrypted (R384); nothing when its tag is wrong. -/
def Dev.sectBody (d : Dev) (i : Img) (s : Sect) (j : Nat) : Option (List Nat) :=
  let body := i.bytes s.ofs s.len
  if s.enc then
    let o := 0x80 + 8 * i.nRegions + 32 * j
    let jb := leBytes 4 j
    match d.imgKey i.keysel with
    | none => none
    | some k => Config.gcmOpen (leNum (Config.kmac k (i.nonce ++ jb) 32 0)) (i.nonce.take 8 ++ jb)
        (i.bytes o 16 ++ List.replicate 16 0) body (i.bytes (o + 16) 16)
  else some body

/-! ### Records (R381 to R383) -/

/-- A record of a section. -/
inductive LRec where
  | frame (cl v : Nat)
  | rep (first n ref : Nat)
  | zero (first n : Nat)
  | drive (b : Nat)
  | tile (col mask off : Nat) (ws : List Word)
  | mem (target addr : Nat) (bytes : List Nat)
  | fill (target addr n b : Nat)
  | staged (off : Nat) (v : Word)
  | direct (off : Nat) (v : Word)
  deriving DecidableEq, Repr

/-- Field of `n` bytes at place `k`. -/
def fieldLe (l : List Nat) (k n : Nat) : Nat := leNum ((l.drop k).take n)

/-- The record at the head of a section body of a type and the bytes after it; nothing when it is no record. -/
def parseRec (ty : Nat) (l : List Nat) : Option (LRec × List Nat) :=
  let need := fun (n : Nat) (r : LRec) => if n ≤ l.length then some (r, l.drop n) else none
  match ty, l.headD 0 with
  | 1, 0x01 => need 323 (.frame (fieldLe l 1 2) (fieldLe l 3 320))
  | 1, 0x02 => need 7 (.rep (fieldLe l 1 2) (fieldLe l 3 2) (fieldLe l 5 2))
  | 1, 0x03 => need 5 (.zero (fieldLe l 1 2) (fieldLe l 3 2))
  | 3, 0x11 =>
    let n := fieldLe l 6 2
    need (8 + 4 * n) (.tile (fieldLe l 1 1) (fieldLe l 2 2) (fieldLe l 4 2) ((List.range n).map fun k => wd (fieldLe l (8 + 4 * k) 4)))
  | 4, 0x21 =>
    let n := fieldLe l 6 4
    need (10 + n) (.mem (fieldLe l 1 1) (fieldLe l 2 4) ((l.drop 10).take n))
  | 4, 0x22 => need 11 (.fill (fieldLe l 1 1) (fieldLe l 2 4) (fieldLe l 6 4) (fieldLe l 10 1))
  | 5, 0x31 => need 9 (.staged (fieldLe l 1 4) (wd (fieldLe l 5 4)))
  | 5, 0x32 => need 9 (.direct (fieldLe l 1 4) (wd (fieldLe l 5 4)))
  | _, _ => none

/-- Every record of a body that ends with the code 0x00; `fuel` bounds their number. -/
def parseRecs (ty : Nat) : Nat → List Nat → Option (List LRec)
  | 0, _ => none
  | fuel + 1, l =>
    if l = [0] then some []
    else match parseRec ty l with
      | some (r, rest) => (parseRecs ty fuel rest).map (r :: ·)
      | none => none

/-- The drive taps of a trunk-drive section. -/
def parseDrives (l : List Nat) : Option (List LRec) :=
  let n := fieldLe l 0 2
  if l.length = 2 + 2 * n then some ((List.range n).map fun k => .drive (fieldLe l (2 + 2 * k) 2)) else none

/-- The records of a section body. -/
def parseSect (ty : Nat) (l : List Nat) : Option (List LRec) := if ty = 2 then parseDrives l else parseRecs ty (l.length + 1) l

/-- The clusters a record names. -/
def LRec.clusters : LRec → List Nat
  | .frame c _ => [c]
  | .rep a n _ => (List.range n).map (a + ·)
  | .zero a n => (List.range n).map (a + ·)
  | _ => []

/-- REPEAT records refer to clusters that earlier FRAME records have set. -/
def refsOk : List Nat → List LRec → Bool
  | _, [] => true
  | seen, .frame c _ :: t => refsOk (c :: seen) t
  | seen, .rep _ _ r :: t => seen.contains r && refsOk seen t
  | seen, _ :: t => refsOk seen t

/-- No number stands twice. -/
def distinct : List Nat → Bool
  | [] => true
  | x :: t => !(t.contains x) && distinct t

/-- The records name every one of `n` clusters once (R382). -/
def coversOk (n : Nat) (rs : List LRec) : Bool :=
  let cs := rs.flatMap LRec.clusters
  decide (cs.length = n) && cs.all (fun c => decide (c < n)) && distinct cs && refsOk [] rs

/-- Frames by cluster that a fabric-frame section sets; ZERO frames leave no entry. -/
def framesOf (rs : List LRec) : Tab Nat :=
  rs.foldl (fun (t : Tab Nat) r =>
    match r with
    | .frame c v => Tab.put t c v 0
    | .rep a n ref =>
      let v := (Tab.get t ref).getD 0
      (List.range n).foldl (fun (u : Tab Nat) k => Tab.put u (a + k) v 0) t
    | _ => t) []

/-- BAR0 is 128 MiB. -/
def bar0Bytes : Nat := 0x8000000

/-- A record other than a frame is as R383 says, for a region of kind `kind` and number `n` and tile columns `cols`. -/
def Dev.recOk (d : Dev) (kind n cols : Nat) (r : LRec) : Bool :=
  let outside := fun (a k : Nat) =>
    let free := fun (b : Nat) => !(decide (a < b + bufBytes ∧ b < a + k))
    decide (a + k ≤ 0x10000000) && free d.hostBuf && free d.slaveBuf
  let bram := fun (a k : Nat) => decide (kind = 0 ∧ a < 0x200000 ∧ a / 512 % 128 = 0) &&
    decide ((k % 8 = 0 ∧ a % 512 + k / 8 ≤ 512) ∨ (k % 10 = 0 ∧ a % 512 + k / 10 ≤ 512))
  let place := fun (t a k : Nat) => if t = 0 then outside a k else if t = 1 then bram a k else false
  match r with
  | .drive b => decide (b < 32768 ∧ tapRegion (b % 4096) (b / 4096) = n)
  | .tile c _ off ws => decide (c < 16 ∧ cols / 2 ^ c % 2 = 1 ∧ off % 4 = 0 ∧ off + 4 * ws.length ≤ 0x4000)
  | .mem t a bs => place t a bs.length
  | .fill t a k _ => place t a k
  | .staged off _ => decide (off % 4 = 0 ∧ 0x800 ≤ off % 0x1000 ∧ off < bar0Bytes)
  | .direct off _ => decide (off % 4 = 0 ∧ off < bar0Bytes)
  | _ => true

/-- The records of a section, when its body decrypts, parses and is as R381 to R383 say. -/
def Dev.sectRecs (d : Dev) (ms : List Manif) (s : Sect) (body : List Nat) : Option (List LRec) :=
  let m := ms[s.region]?
  let kind := (m.map (·.kind)).getD 3
  let n := (m.map (·.region)).getD 255
  match parseSect s.ty body with
  | none => none
  | some rs =>
    let ok := if s.ty = 1 then coversOk (if kind = 0 then 512 else 256) rs else rs.all (d.recOk kind n ((m.map (·.cols)).getD 0))
    if ok then some rs else none

end Sys2Proof.Machine
end

