-- ==== Sys2Proof/Machine/Loader.lean ====
section
/-! DEFINITION. The loader (R386 to R408): its phases, writing and isolating regions, release, handover of regions, the
personality, readback. What issues register writes and checks stands with them, after the blocks. -/

namespace Sys2Proof.Machine

/-! ### State -/

/-- Store the load under way. -/
def Dev.setLoad (d : Dev) (j : Option LoadJob) : Dev := { d with ld := { d.ld with job := j } }

/-- `ISO_STAT.STATE` of a region: 0 EMPTY, 1 LOADING, 2 HELD, 3 RELEASED, 4 SHADOW. -/
def Dev.iso (d : Dev) (n : Nat) : Nat := d.fld (regionPg n) FREG.STATE

/-- Set it. -/
def Dev.setIso (d : Dev) (n st : Nat) : Dev := d.setF (regionPg n) FREG.STATE st

/-- `LDR_STAT.PHASE`. -/
def Dev.ldPhase (d : Dev) : Nat := d.fld ldrPg LDR.LDR_STAT_PHASE

/-- Set it. -/
def Dev.setLdPhase (d : Dev) (n : Nat) : Dev := d.setF ldrPg LDR.LDR_STAT_PHASE n

/-- The image of a load. -/
def Dev.jobImg (d : Dev) (j : LoadJob) : Img := ⟨if j.src = 0 then d.sto.bytes else d.cw.mem, j.base⟩

/-- The store address of a slot and of a firmware bank (R409). -/
def slotBase (s : Nat) : Nat := s * 0xE00000
def bankBase (b : Nat) : Nat := 0x3C00000 + b * 0x180000

/-- A region's isolation engages (R390): its taps leave arbitration, its live `RELEASE` is 0, its flip-flops are held at their
init values (R347), its pins are held. -/
def Dev.isolate (d : Dev) (n st : Nat) : Dev :=
  let d1 := ((d.tapsLeave n).setF (regionPg n) FREG.RELEASE 0).setIso n st
  (if d1.regionFilled n then d1.ffsInit n else d1).refreshRegion n

/-! ### Start, failure and end of a load (R388, R389) -/

/-- A load starts in Digest. -/
def Dev.loadStart (d : Dev) (src slot : Nat) (who : Source) (priv boot verify : Bool) : Dev :=
  let base := if src = 0 then slotBase slot else if src = 1 then d.hostBuf else d.slaveBuf
  let j : LoadJob := ⟨src, slot, base, who, priv, boot, verify, 0, 0, 0, [], [], [], [], [], [], []⟩
  let d1 := (d.setLoad (some j)).setReg ldrPg LDR.LDR_STAT (wd (2 ^ 28))
  (d1.setF ldrPg LDR.LDR_CTL_GO 1).count ldrPg LDR.LOAD_CNT

/-- `PERS_DONE`, and the source of the personality: 0 to 3 a slot, 4 host. -/
def Dev.persDone (d : Dev) (src : Nat) : Dev :=
  (({ d with ld := { d.ld with persSrc := some src } } : Dev).setFlag pwrPg PWR.PERS_DONE true).audioReady

/-- The milestone slots the supervisor holds for a load are let go. -/
def Dev.loadSlotsFree (d : Dev) : Dev :=
  (List.range 16).foldl (fun (e : Dev) m =>
    match (e.slot m).job with
    | some (.release _) => if (e.slot m).state.terminal then e else e.slotIdle m
    | _ => e) d

/-- The regions a load has isolated and not released: LOADING or HELD. -/
def Dev.loadReached (d : Dev) (j : LoadJob) : List Nat :=
  ((j.mans.filter fun m => decide (m.kind ≤ 1)).map (·.region)).filter fun n =>
    decide (d.iso n = 1 ∨ d.iso n = 2 ∨ d.iso n = 4) && !j.verify

/-- The load ends with an error; the regions it has isolated stay isolated in state EMPTY. -/
def Dev.loadEnd (d : Dev) (j : LoadJob) (err detail : Nat) : Dev :=
  let d1 := (d.loadReached j).foldl (fun (e : Dev) n => (e.setIso n 0).refreshRegion n) d
  let d2 := (d1.loadSlotsFree.setLoad none).setF ldrPg LDR.LDR_CTL_GO 0
  let d3 := ((d2.setLdPhase 6).setF ldrPg LDR.ERR err).setF ldrPg LDR.DETAIL detail
  (d3.count ldrPg LDR.FAIL_CNT).raise ldrPg LDR.E_LOAD_FAIL

/-- `LOAD_FAIL`; a power-up load from a slot falls back once when `FB_EN` is 1 (R399). -/
def Dev.loadFail (d : Dev) (j : LoadJob) (err detail : Nat) : Dev :=
  let d1 := d.loadEnd j err detail
  if j.boot ∧ j.src = 0 ∧ d1.ld.fellBack = false ∧ d1.flag stPg STORE.FB_EN then
    ({ d1 with ld := { d1.ld with fellBack := true } } : Dev).loadStart 0 (d1.fld stPg STORE.FALLBACK) .sup true true false
  else d1

/-- A write of `GO` is refused with cause BLOCK (R386, R388, R410). -/
def Dev.loadBlocked (d : Dev) (src : Source) (ctl : Word) : Bool :=
  let slave := match src with | .ssp => true | .psp => true | _ => false
  let s := fieldOf LDR.SRC ctl
  bitAt ctl 31 && (d.ld.job.isSome || (decide (s = 2) && !slave) ||
    (decide (s = 0) && decide (d.fld stPg (STORE.STATE.at (fieldOf LDR.LDR_CTL_SLOT ctl)) = 1)))

/-- `LOAD_GO`: `LDR_CTL` has taken a word with `GO` = 1. Under HOST the first load from PCIe out of the host buffer makes the
personality. -/
def Dev.loadGo (d : Dev) (src : Source) (ctl : Word) : Dev :=
  let s := fieldOf LDR.SRC ctl
  let host := d.ld.awaitHost && decide (src = .pcie ∧ s = 1)
  ({ d with ld := { d.ld with awaitHost := d.ld.awaitHost && !host } } : Dev).loadStart s (fieldOf LDR.LDR_CTL_SLOT ctl) src false host
    (fieldOf LDR.VERIFY ctl = 1)

/-! ### Verify (R382, R383, R386, R388, R395, R403, R466, R470) -/

/-- The regions an image loads in place or beside. -/
def imgRegions (ms : List Manif) : List Nat := ms.map (·.region)

/-- The tap bits of the trunk-drive sections of manifest entry `k`. -/
def drivesOf (recs : List (Sect × List LRec)) (k : Nat) : List Nat :=
  (recs.filter fun x => decide (x.1.ty = 2 ∧ x.1.region = k)).flatMap fun x => x.2.filterMap fun r =>
    match r with | .drive b => some (tapBit (b % 4096) (b / 4096)) | _ => none

/-- Every section with its records: those of encrypted sections are read in Write only. Nothing for a section that fails,
with its index. -/
def Dev.plainRecs (d : Dev) (i : Img) (ms : List Manif) (ss : List Sect) : Except Nat (List (Sect × List LRec)) :=
  (List.range ss.length).foldl (fun (acc : Except Nat (List (Sect × List LRec))) j =>
    match acc with
    | .error e => .error e
    | .ok l =>
      let s := ss.getD j ⟨0, 0, 0, 0, 0, 0⟩
      if s.enc then .ok l
      else match d.sectRecs ms s (i.bytes s.ofs s.len) with
        | some rs => .ok (l ++ [(s, rs)])
        | none => .error j) (.ok [])

/-- A region drives trunk `w` in arbitration or would after its release. -/
def Dev.drivesTrunk (d : Dev) (n w : Nat) : Bool := (d.region n).drives.any fun b => decide (tapTrunk n b = w)

/-- A trunk one of the taps `l` of region `n` shares with a RELEASED region outside `out` (TRUNK). -/
def Dev.trunkClash (d : Dev) (n : Nat) (l out : List Nat) : Option Nat :=
  (l.map (tapTrunk n)).find? fun w => anyIf 32 fun k =>
    decide (k ≠ n) && !(out.contains k) && decide (d.iso k = 3) && d.drivesTrunk k w

/-- The first number below `n` that satisfies `p`. -/
def firstIdx (n : Nat) (p : Nat → Bool) : Option Nat := (List.range n).find? p

/-- The pages whose STAGED records group `g` holds. -/
def stagedPages (recs : List (Sect × List LRec)) (g : Nat) : List Nat :=
  dedup ((recs.filter fun x => decide (x.1.ty = 5 ∧ x.1.group = g)).flatMap fun x => x.2.filterMap fun r =>
    match r with | .staged off _ => some (pageBase off) | _ => none)

/-- The page of a manifest entry. -/
def Manif.page (m : Manif) : Nat := if m.kind ≤ 1 then regionPg m.region else tregPg m.index

/-- The pages group `g` binds (R395): those of its regions, new owners of handovers apart, and those of its STAGED records. -/
def groupPages (ms : List Manif) (recs : List (Sect × List LRec)) (g : Nat) : List Nat :=
  dedup (((ms.filter fun m => decide (m.group = g) && !(m.partner)).map Manif.page) ++ stagedPages recs g)

/-- A partner entry is valid (R403): `k` its index. -/
def Dev.partnerOk (d : Dev) (ms : List Manif) (recs : List (Sect × List LRec)) (k : Nat) (m : Manif) : Bool :=
  let y := m.index
  let drives := drivesOf recs k
  decide (m.kind = 0 ∧ m.repl < 32) && decide (d.iso m.repl = 3) && ms.all (fun x => decide (x.kind ≠ 0 ∨ x.index ≠ m.repl)) &&
  decide (d.iso y = 0) && decide (d.pwrState (regionPg y) ≤ 1) && (d.trunkClash y drives [m.repl]).isNone &&
  (List.range 8).all fun g => !((stagedPages recs g).contains (regionPg y))

/-- The page of group `g` that cannot be bound (BIND): for a named slot, the slot must be in STAGING and the writer of `GO`
must be able to write the page. -/
def Dev.groupBindErr (d : Dev) (j : LoadJob) (g : Nat) (pages : List Nat) : Option Nat :=
  if d.flag ldrPg (LDR.VALID.at g) then
    let m := d.fld ldrPg (LDR.LDR_REL_SLOT.at g)
    if (d.slot m).state ≠ .staging then some (pages.headD ldrPg)
    else pages.find? fun p => (pageAt p).isNone || ((d.bind p).bound && decide ((d.bind p).slot ≠ m)) || !(d.mayWrite j.who p)
  else pages.find? fun p => (pageAt p).isNone || (d.bind p).bound

/-- What Verify has read. -/
structure Verified where
  ms : List Manif
  ss : List Sect
  recs : List (Sect × List LRec)
  deriving Repr

/-- The first error of a list of tests. -/
def firstErr : List (Option (Nat × Nat)) → Option (Nat × Nat)
  | [] => none
  | some e :: _ => some e
  | none :: t => firstErr t

/-- An error when a test fails. -/
def errIf (b : Bool) (err detail : Nat) : Option (Nat × Nat) := if b then some (err, detail) else none

/-- The tests of an image that need no records: header, signature, anti-rollback, key, privilege, manifest and table. -/
def Dev.verifyHead (d : Dev) (j : LoadJob) (i : Img) (ms : List Manif) (ss : List Sect) : Option (Nat × Nat) :=
  let encOk := fun (s : Sect) => s.enc || decide (s.ty = 2 ∨ s.ty = 5)
  let noKey := decide (i.keysel ≠ 0) && (d.imgKey i.keysel).isNone
  let slave := decide (j.src = 2) || (decide (j.src = 0) && d.flag stPg (STORE.SLAVE.at j.slot))
  let keeper := firstIdx ms.length fun k => decide ((ms.getD k ⟨0, 0, 0, 0, 0, 0, 0⟩).kind = 1)
  firstErr [
    errIf (!(i.headerOk 0)) 1 0,
    errIf (!(d.sigOk i)) 2 0,
    errIf (decide (i.arc < d.fld secPg SEC.IMG_ARC)) 3 (d.fld secPg SEC.IMG_ARC),
    errIf noKey 4 ((firstIdx ss.length fun k => (ss.getD k ⟨0, 0, 0, 0, 0, 0⟩).enc).getD 0),
    errIf (d.flag secPg SEC.ENC_REQ && (decide (i.keysel = 0) || !(ss.all encOk))) 4
      ((firstIdx ss.length fun k => !(encOk (ss.getD k ⟨0, 0, 0, 0, 0, 0⟩))).getD 0),
    keeper.bind fun k => errIf (!(j.priv && slave)) 5 k,
    errIf (!(ms.all fun m => m.ok i.groups) || !(manifsDistinct ms)) 1 0,
    (firstIdx ss.length fun k => !(i.sectOk ms ss k)).map fun k => (1, k)]

/-- Every fabric and keeper region has one frame section and at most one trunk-drive section (R382, R383). -/
def coverErr (ms : List Manif) (ss : List Sect) : Option (Nat × Nat) :=
  let n := fun (k ty : Nat) => (ss.filter fun s => decide (s.ty = ty ∧ s.region = k)).length
  (firstIdx ms.length fun k =>
    decide ((ms.getD k ⟨0, 0, 0, 0, 0, 0, 0⟩).kind ≤ 1) && (decide (n k 1 ≠ 1) || decide (1 < n k 2))).map fun _ => (1, 0)

/-- The tests of what a load would change: trunks, columns, class A, partners, bindings. -/
def Dev.verifyUse (d : Dev) (j : LoadJob) (v : Verified) : Option (Nat × Nat) :=
  let ms := v.ms
  let at_ := fun (k : Nat) => ms.getD k ⟨0, 0, 0, 0, 0, 0, 0⟩
  let n := ms.length
  let trunk := (List.range n).findSome? fun k =>
    if (at_ k).kind = 0 ∧ (at_ k).partner = false then d.trunkClash (at_ k).index (drivesOf v.recs k) (imgRegions ms) else none
  let col := (List.range n).findSome? fun k =>
    if (at_ k).kind = 2 then
      firstIdx 16 fun c => decide ((at_ k).cols / 2 ^ c % 2 = 1) && decide (d.colSt (at_ k).index c ≠ 0)
    else none
  let clsA := (List.range n).find? fun k =>
    decide ((at_ k).kind = 0) && !((at_ k).partner) && decide (d.iso (at_ k).index = 3) && (View.mk d []).regionClassA (at_ k).index
  let part := firstIdx n fun k => (at_ k).partner && !(d.partnerOk ms v.recs k (at_ k))
  let bind := (List.range j.groups).findSome? fun g => d.groupBindErr j g (groupPages ms v.recs g)
  firstErr [trunk.map fun w => (6, w), col.map fun c => (8, c), clsA.map fun k => (9, (at_ k).index), part.map fun k => (12, k),
    bind.map fun p => (7, p / 4096)]

/-- The regions a verify load names are HELD or RELEASED (R408). -/
def Dev.verifyRegions (d : Dev) (ms : List Manif) : Option (Nat × Nat) :=
  (firstIdx ms.length fun k =>
    let m := ms.getD k ⟨0, 0, 0, 0, 0, 0, 0⟩
    decide (m.kind ≤ 1) && !(decide (d.iso m.region = 2 ∨ d.iso m.region = 3))).map fun _ => (1, 0)

/-- The groups of a load without a named slot take supervisor slots with an IMMEDIATE trigger (R395); nothing while too few
are free. -/
def Dev.groupSlots (d : Dev) (j : LoadJob) (v : Verified) : Nat → Option (Dev × LoadJob)
  | 0 => some (d, j)
  | g + 1 =>
    match d.groupSlots j v g with
    | none => none
    | some (e, k) =>
      let pages := groupPages v.ms v.recs g
      if e.flag ldrPg (LDR.VALID.at g) then
        let m := e.fld ldrPg (LDR.LDR_REL_SLOT.at g)
        some (e.bindPages m pages, { k with slots := Tab.ins k.slots g m })
      else match e.freeSvcSlot with
        | none => none
        | some m =>
          let e1 := (e.setSlot m ⟨.staging, [], none, false, false, some (.release g)⟩).setF mstPg (MST.TYPE.at m) 0
          some (e1.bindPages m pages, { k with slots := Tab.ins k.slots g m })

/-- The first manifest entry not written yet. -/
def LoadJob.next (j : LoadJob) : Option Nat := firstIdx j.mans.length fun k => !(j.done.contains k)

/-- The loader reaches the next region: its isolation engages (R390). -/
def Dev.loadReach (d : Dev) (j : LoadJob) : Dev :=
  match j.next with
  | none => d
  | some k =>
    let m := j.mans.getD k ⟨0, 0, 0, 0, 0, 0, 0⟩
    if m.kind ≤ 1 ∧ j.verify = false then (d.isolate m.region 1).setF (regionPg m.region) FREG.GROUP m.group else d

/-! ### Write (R390 to R394, R408) -/

/-- Records of a memory section. -/
def Dev.writeMem (d : Dev) (n target addr : Nat) (bytes : List Nat) : Dev :=
  if target = 0 then
    let d1 : Dev := { d with cw := { d.cw with mem := memStore d.cw.mem addr bytes } }
    (List.range ((addr % 8 + bytes.length + 7) / 8)).foldl (fun (e : Dev) k => e.fmSetPois (addr / 8 * 8 + 8 * k) false) d1
  else
    let b := addr / 65536 % 32
    let w := if d.bramEcc n b then 8 else 10
    (List.range (bytes.length / w)).foldl (fun (e : Dev) k => e.bramPut n b (addr % 512 + k) (fieldLe bytes (w * k) w) false) d

/-- The frames of a region are those of a section; its flip-flops take their init values (R347), and `BRAM_MODE` follows. -/
def Dev.writeFrames (d : Dev) (n : Nat) (rs : List LRec) : Dev :=
  let t := framesOf rs
  let old := Tab.keep d.ld.frames fun k => decide (k / 512 ≠ n)
  let new := t.foldl (fun (u : Tab Nat) x => Tab.put u (n * 512 + x.1) x.2 0) old
  let d1 := ({ d with ld := { d.ld with frames := new } } : Dev).ffsInit n
  if n < 32 then
    d1.setReg (regionPg n) FREG.BRAM_MODE (wd (Config.bramMode ((List.range 512).map fun c => (Tab.get t c).getD 0)))
  else d1

/-- One record of a section of region `n`; a column that is no longer HALTED gives its number. -/
def Dev.writeRec (d : Dev) (n : Nat) (r : LRec) : Dev × Option Nat :=
  match r with
  | .drive b =>
    let x := d.region n
    (d.setRegion n { x with drives := x.drives ++ [tapBit (b % 4096) (b / 4096)] }, none)
  | .tile c mask off ws =>
    let reg := n - 34
    if d.colSt reg c ≠ 0 then (d, some c)
    else
      let rows := (List.range 16).filter fun k => decide (mask / 2 ^ k % 2 = 1)
      let ops := rows.flatMap fun row => (List.range ws.length).map fun k => (row, k)
      (ops.foldl (fun (e : Dev) x => e.winAccess .sup (reg * 256 + c * 16 + x.1) (off + 4 * x.2) (ws.getD x.2 0) .clean false) d, none)
  | .mem t a bs => (d.writeMem n t a bs, none)
  | .fill t a k b => (d.writeMem n t a (List.replicate k b), none)
  | _ => (d, none)

/-- The records of a section. -/
def Dev.writeRecs (d : Dev) (n : Nat) : List LRec → Dev × Option Nat
  | [] => (d, none)
  | r :: t =>
    match d.writeRec n r with
    | (e, some c) => (e, some c)
    | (e, none) => e.writeRecs n t

/-- One section of region `n`: frames, drives, tile contents or memory. An error ends the load: KEY for a wrong tag, FORMAT
for records that prove invalid, COLUMN. -/
def Dev.writeSect (d : Dev) (j : LoadJob) (n k : Nat) : Dev × Option (Nat × Nat) :=
  let i := d.jobImg j
  let s := j.sects.getD k ⟨0, 0, 0, 0, 0, 0⟩
  match d.sectBody i s k with
  | none => (d, some (4, k))
  | some body =>
    match d.sectRecs j.mans s body with
    | none => (d, some (1, k))
    | some rs =>
      if s.ty = 1 then (d.writeFrames n rs, none)
      else
        let r := d.writeRecs n rs
        (r.1, r.2.map fun c => (8, c))

/-- Sections in order, until one fails. -/
def Dev.writeSects (d : Dev) (j : LoadJob) (n : Nat) : List Nat → Dev × Option (Nat × Nat)
  | [] => (d, none)
  | k :: t =>
    match d.writeSect j n k with
    | (e, some err) => (e, some err)
    | (e, none) => e.writeSects j n t

/-- The sections of manifest entry `m` (255 for none) that hold no register records. -/
def LoadJob.sectsOf (j : LoadJob) (m : Nat) : List Nat :=
  (List.range j.sects.length).filter fun k =>
    let s := j.sects.getD k ⟨0, 0, 0, 0, 0, 0⟩
    decide (s.region = m ∧ s.ty ≠ 5)

/-- The frames of a section that differ from those the region holds (R408). -/
def Dev.frameDiffs (d : Dev) (n : Nat) (rs : List LRec) : Nat :=
  let t := framesOf rs
  countIf (if n < 32 then 512 else 256) fun c => decide ((Tab.get t c).getD 0 ≠ (Tab.get d.ld.frames (n * 512 + c)).getD 0)

/-- A verify load compares one region. -/
def Dev.verifyRegion (d : Dev) (j : LoadJob) (n m : Nat) : Dev :=
  (j.sectsOf m).foldl (fun (e : Dev) k =>
    let s := j.sects.getD k ⟨0, 0, 0, 0, 0, 0⟩
    if s.ty = 1 then
      match (e.sectBody (e.jobImg j) s k).bind (e.sectRecs j.mans s) with
      | some rs =>
        let x := e.frameDiffs n rs
        if x = 0 then e else (e.count ldrPg LDR.RB_MISMATCH_CNT x).raise ldrPg LDR.E_VERIFY_FAIL
      | none => e
    else e) d

/-- A new owner takes the port, clock and user-store registers of the old one (R404). -/
def Dev.partnerCopy (d : Dev) (x y : Nat) : Dev :=
  let cp := fun (e : Dev) (f : Fld) => e.setReg (regionPg y) f (e.reg (regionPg x) f)
  let d1 := (List.range 8).foldl (fun (e : Dev) i => cp e (FREG.FPORT_CFG.at i)) d
  cp ((List.range 4).foldl (fun (e : Dev) i => cp e (FREG.REG_CLK.at i)) d1) FREG.USTORE_WIN

/-- Every entry of a load has been written: a verify load is done. -/
def Dev.verifyLoadDone (d : Dev) (j : LoadJob) : Dev :=
  if j.verify ∧ j.next = none then ((d.setLoad none).setLdPhase 5).setF ldrPg LDR.LDR_CTL_GO 0 else d

/-- `REGION_WRITE_DONE`: the region under way has been written and completes; the loader reaches the next. -/
def Dev.regionWriteDone (d : Dev) : Dev :=
  match d.ld.job with
  | none => d
  | some j =>
    match j.next, decide (d.ldPhase = 3) with
    | some k, true =>
      let m := j.mans.getD k ⟨0, 0, 0, 0, 0, 0, 0⟩
      let n := m.region
      let j1 := { j with done := j.done ++ [k] }
      if j.verify then ((d.verifyRegion j n k).setLoad (some j1)).verifyLoadDone j1
      else
        let d0 := if m.kind = 0 then d.setRegion n { d.region n with drives := [] } else d
        match d0.writeSects j n (j.sectsOf k) with
        | (e, some err) => e.loadFail j err.1 err.2
        | (e, none) =>
          let e1 := if m.kind ≤ 1 then e.setReg (regionPg n) FREG.REGION_VER (wd j.ver)
            else { e with ld := { e.ld with tileImgs := Tab.ins e.ld.tileImgs m.index ⟨j.src, j.base, (d.jobImg j).digest⟩ } }
          let e2 := if m.partner then e1.partnerCopy m.repl n else e1
          (e2.setLoad (some j1)).loadReach j1
    | _, _ => d

/-- `DIGEST_DONE`: Verify starts. -/
def Dev.digestDone (d : Dev) : Dev := if d.ld.job.isSome ∧ d.ldPhase = 1 then d.setLdPhase 2 else d

/-- Verify passes: the pages are bound and Write begins with the sections that belong to no region. -/
def Dev.writeBegin (d : Dev) (j : LoadJob) (v : Verified) : Dev :=
  let d1 := (d.setReg ldrPg LDR.LOAD_VER (wd j.ver)).setLdPhase 3
  if j.verify then (d1.setLoad (some j)).verifyLoadDone j
  else match d1.groupSlots j v j.groups with
    | none => d
    | some (e, k) =>
      match (e.setLoad (some k)).writeSects k 255 (k.sectsOf 255) with
      | (e1, some err) => e1.loadFail k err.1 err.2
      | (e1, none) => e1.loadReach k

/-- The last tests of a load: what the image uses, or for a verification the regions. A pass begins Write. -/
def Dev.verifyEnd (d : Dev) (o j : LoadJob) (v : Verified) (err : Option (Nat × Nat)) : Dev :=
  match err with
  | some e => d.loadFail o e.1 e.2
  | none => d.writeBegin j v

/-- The records of the sectors once they are plain: a sector that cannot be read ends the load with cause 1. -/
def Dev.verifyRecs (d : Dev) (o j : LoadJob) (r : Except Nat (List (Sect × List LRec))) : Dev :=
  match r with
  | .error k => d.loadFail o 1 k
  | .ok recs =>
    d.verifyEnd o j ⟨j.mans, j.sects, recs⟩ (if j.verify then d.verifyRegions j.mans else d.verifyUse j ⟨j.mans, j.sects, recs⟩)

/-- The tests of the header and of what the manifests cover. -/
def Dev.verifyTests (d : Dev) (o j : LoadJob) (i : Img) (err : Option (Nat × Nat)) : Dev :=
  match err with
  | some e => d.loadFail o e.1 e.2
  | none => d.verifyRecs o j (d.plainRecs i j.mans j.sects)

/-- The job with what its image says of itself. -/
def LoadJob.read (o : LoadJob) (i : Img) : LoadJob :=
  { o with ver := i.ver, keysel := i.keysel, groups := i.groups, mans := i.manifs, sects := i.sects }

/-- `VERIFY_DONE`: the tests of R388 end the load or begin Write; without enough free supervisor slots the loader waits. -/
def Dev.verifyDone (d : Dev) : Dev :=
  match d.ld.job with
  | none => d
  | some o =>
    if d.ldPhase ≠ 2 then d
    else
      let i := d.jobImg o
      let j := o.read i
      d.verifyTests o j i (firstErr [d.verifyHead j i j.mans j.sects, coverErr j.mans j.sects])

/-- The regions of a release group, new owners of handovers apart. -/
def LoadJob.groupRegions (j : LoadJob) (g : Nat) : List Nat :=
  ((j.mans.filter fun m => decide (m.group = g ∧ m.kind ≤ 1) && !(m.partner))).map (·.region)

/-- The handover pairs of a load or of one of its groups. -/
def LoadJob.pairs (j : LoadJob) (p : Nat → Bool) : List (Nat × Nat) :=
  (j.mans.filter fun m => m.partner && p m.group).map fun m => (m.repl, m.index)

/-- The image's number for the attestation report (R474): 0 to 3 a slot, 4 host buffer, 5 slave buffer. -/
def LoadJob.srcCode (j : LoadJob) : Nat := if j.src = 0 then j.slot else 3 + j.src

/-- A load that reaches DONE is entered among the eight latest (R474). -/
def Dev.loadEntry (d : Dev) (j : LoadJob) : Dev :=
  let i := d.jobImg j
  let rs := j.mans.map (·.region)
  let old := d.sec.entries.map fun e => { e with regions := e.regions.filter fun n => !(rs.contains n) }
  { d with sec := { d.sec with entries := (⟨i.digest, j.ver, i.arc, j.srcCode, rs⟩ :: old).take 8 } }

/-- `LOAD_DONE`: every group is released (R396, R401). -/
def Dev.loadDone (d : Dev) (j : LoadJob) : Dev :=
  let d1 := ((d.loadEntry j).setLoad none).setLdPhase 5
  let d2 := (d1.setF ldrPg LDR.LDR_CTL_GO 0).raise ldrPg LDR.E_LOAD_DONE
  if j.boot then d2.persDone (if j.src = 0 then j.slot else 4) else d2

/-- Release group `g` is released. -/
def Dev.groupReleased (d : Dev) (g : Nat) : Dev :=
  match d.ld.job with
  | none => d
  | some j =>
    if j.released.contains g ∨ g ∉ j.complete then d
    else
      let j1 := { j with released := j.released ++ [g] }
      let d1 := (d.setLoad (some j1)).setF ldrPg LDR.REL_DONE (d.fld ldrPg LDR.REL_DONE ||| 2 ^ g)
      if (List.range j1.groups).all fun k => j1.released.contains k then d1.loadDone j1 else d1

/-- The groups whose regions are all released, new owners included. -/
def Dev.groupsFollow (d : Dev) : Dev :=
  match d.ld.job with
  | none => d
  | some j => (List.range j.groups).foldl (fun (e : Dev) g =>
      let rs := j.groupRegions g ++ (j.pairs fun k => decide (k = g)).map (·.2)
      if rs ≠ [] ∧ rs.all (fun n => decide (e.iso n = 3)) then e.groupReleased g else e) d

/-- A HELD region is released: its flip-flops leave their init values, taps enter arbitration, pins pass to its logic. -/
def Dev.regionRelease (d : Dev) (n : Nat) : Dev :=
  let d1 := d.setIso n 3
  ((if d1.pwrState (regionPg n) ≤ 1 then d1.tapsEnter [n] else d1).refreshRegion n).groupsFollow

/-- `RELEASE` of a region has become live. -/
def Dev.isoLive (d : Dev) (n : Nat) (new : Word) : Dev := if bitAt new 0 ∧ d.iso n = 2 then d.regionRelease n else d

/-- The loader waits to check the group of region `n`: the region is complete and its group's check is not issued. -/
def Dev.loaderWaits (d : Dev) (n : Nat) : Bool :=
  match d.ld.job with
  | none => false
  | some j => j.mans.any fun m => decide (m.kind ≤ 1 ∧ m.region = n) && !(j.checked.contains m.group)

/-- A direct write of `ISO_CTL` is refused with cause BLOCK (R398). -/
def Dev.isoBlocked (d : Dev) (n : Nat) (new : Word) : Bool :=
  if bitAt new 0 then decide (d.iso n = 1 ∨ d.iso n = 4) || (decide (d.iso n = 2) && d.loaderWaits n)
  else decide (d.iso n = 3)

/-- The load's group that slot `m` releases. -/
def LoadJob.slotGroup (j : LoadJob) (m : Nat) : Option Nat :=
  firstIdx 8 fun g => decide (Tab.get j.slots g = some m) && j.checked.contains g && !(j.released.contains g)

/-- A release slot has applied: a group of register records only is released with it. -/
def Dev.relApplied (d : Dev) (m : Nat) : Dev :=
  match d.ld.job with
  | none => d
  | some j =>
    match j.slotGroup m with
    | some g => if j.groupRegions g = [] ∧ j.pairs (fun k => decide (k = g)) = [] then d.groupReleased g else d
    | none => d

/-- A release slot has ended REFUSED or EXPIRED: the group stays HELD (`REL_MISS`). -/
def Dev.relMiss (d : Dev) (m : Nat) : Dev :=
  match d.ld.job with
  | none => d
  | some j =>
    match j.slotGroup m with
    | some g => (d.setLdPhase 4).raise ldrPg LDR.E_REL_MISS (wd (m * 65536 + g))
    | none => d

/-! ### Replacing a region by handover (R403 to R406) -/

/-- Store the handover. -/
def Dev.setRegHo (d : Dev) (h : Option RegHo) : Dev := { d with ld := { d.ld with ho := h } }

/-- The handover enters a phase. -/
def Dev.hoPhase (d : Dev) (n : Nat) (h : RegHo) : Dev := (d.setF ldrPg LDR.HO_STAT_PHASE n).setRegHo (some { h with phase := n })

/-- The handover begins: the new regions run in SHADOW. The horizon of one without a stream-in port is its entry into SHADOW. -/
def Dev.hoBegin (d : Dev) (pairs : List (Nat × Nat)) : Dev :=
  let d1 := pairs.foldl (fun (e : Dev) x => e.setIso x.2 4) d
  let d2 := ((d1.setReg ldrPg LDR.HO_STAT (wd (2 ^ 32 - 2 ^ 28))).setF ldrPg LDR.ACTIVE 1).setLdPhase 7
  let ovs := pairs.foldl (fun (t : Tab RegOv) x =>
    if (d2.firstIn x.2).isNone then Tab.ins t x.2 ⟨some d2.now, 0, some d2.now⟩ else t) []
  d2.hoPhase 2 ⟨pairs, 2, ovs, [], 0, false, none, none, 0, 0, false, 0⟩

/-- `REGION_HO` for each pair (R73, R406). -/
def Dev.hoNotices (d : Dev) (h : RegHo) (outcome : Nat) : Dev :=
  let w7 := if outcome = 6 then 0 else Nat.min h.compared 32767 * 65536 + Nat.min h.bad 0xFFFF
  h.pairs.foldl (fun (e : Dev) x => e.raiseSev ldrPg LDR.E_REGION_HO (hoSev outcome) (wd (4 * 2 ^ 28 + outcome * 2 ^ 24)) (wd x.1)
    (wd x.2) (wd w7)) d

/-- The handover leaves the registers. -/
def Dev.hoClose (d : Dev) (h : RegHo) (outcome : Nat) : Dev :=
  let d1 := (((d.jobCancel .region).unwait .region).setRegHo none).setF ldrPg LDR.OUTCOME outcome
  ((d1.setF ldrPg LDR.ACTIVE 0).setF ldrPg LDR.HO_STAT_PHASE 0).hoNotices h outcome

/-- A region becomes EMPTY and DARK: configuration and block RAM are lost (R373). -/
def Dev.regionDark (d : Dev) (n : Nat) : Dev :=
  let p := regionPg n
  let d1 := ((d.isolate n 0).setF p HDR.PWR_REQ 3).setF p HDR.PWR_STATE 3
  let d2 := d1.setRegion n RegionSt.init
  let ents := d2.sec.entries.map fun e => { e with regions := e.regions.filter fun k => decide (k ≠ n) }
  ({ d2 with ld := { d2.ld with frames := Tab.keep d2.ld.frames fun k => decide (k / 512 ≠ n) },
             sec := { d2.sec with entries := ents } } : Dev).refreshRegion n

/-- The handover ends before Switch (R406): the new regions become EMPTY and DARK; its load ends. -/
def Dev.hoEnd (d : Dev) (outcome : Nat) : Dev :=
  match d.ld.ho with
  | none => d
  | some h =>
    if h.switched then d
    else
      let d1 := h.pairs.foldl (fun (e : Dev) x => e.regionDark x.2) d
      let d2 := d1.hoClose h outcome
      match d2.ld.job with
      | some _ => (((d2.loadSlotsFree.setLoad none).setLdPhase 6).setF ldrPg LDR.ERR 11).setF ldrPg LDR.LDR_CTL_GO 0
      | none => d2

/-- The handover's pages: those of the regions, and the banks with pins the new ones claim. -/
def Dev.hoPages (d : Dev) (h : RegHo) : List Nat :=
  let claimed := fun (b : Nat) => anyIf 16 fun k =>
    let w := d.merged (ioPg b + (IOB.PIN_CFG.at k).off)
    h.pairs.any (fun x => decide (fieldOf IOB.REGION w = x.2)) && decide (fieldOf IOB.SRC_EN w / 2 % 4 ≠ 0)
  dedup (h.pairs.flatMap fun x => [regionPg x.1, regionPg x.2]) ++ ((List.range 12).filter claimed).map ioPg

/-- Arm: the supervisor takes a slot `LEAD` µs ahead, or waits. The 10 s run while a page is bound; the want of a slot alone
never ends the handover (R49). -/
def Dev.hoArm (d : Dev) (h : RegHo) : Dev :=
  let t := d.now + d.fld ldrPg LDR.LEAD * 1000
  let ps := d.hoPages h
  let r := d.svcTake .region ps t
  if r.2 then r.1.hoPhase 4 { h with ready := true, instant := some t, since := none }
  else
    r.1.setRegHo (some { h with ready := true,
                                since := if ps.all (fun p => d.unbound p) then none else some (h.since.getD d.mono) })

/-- Every new region's H is known, and the comparison has not begun. -/
def RegHo.due (h : RegHo) : Bool :=
  decide (h.phase = 2) && !h.ready && h.pairs.all fun x => (h.ov x.2).hzn.isSome

/-- Every new region's H is known: the comparison begins, or with `COMPARE` 0 the handover arms (R404). -/
def Dev.hoDue (d : Dev) : Dev :=
  match d.ld.ho with
  | none => d
  | some h =>
    if h.due then
      let lim := d.fld ldrPg LDR.COMPARE
      if lim = 0 then d.hoArm h
      else d.hoPhase 3 { h with cmpAt := d.mono, cmps := h.cmps.map fun e => (e.1, e.2.run (h.ov (e.1 / 8)).hzn lim) }
    else d

/-- The enabled stream-out ports of the new regions, as the comparison names them. -/
def Dev.hoPorts (d : Dev) (h : RegHo) : List Nat :=
  h.pairs.flatMap fun x => ((List.range 8).filter fun i =>
    d.flag (regionPg x.2) (FREG.FPORT_CFG_EN.at i) && decide (d.fld (regionPg x.2) (FREG.MODE.at i) = 1)).map (x.2 * 8 + ·)

/-- `REGION_HO_COMPARE_DONE`: every enabled stream-out port has compared `COMPARE` words (R404). -/
def Dev.hoCompareDone (d : Dev) : Dev :=
  match d.ld.ho with
  | none => d
  | some h =>
    if h.phase = 3 ∧ h.ready = false ∧ cmpDone h.cmps (d.hoPorts h) (d.fld ldrPg LDR.COMPARE) = true then
      let k := cmpTotals h.cmps
      let h1 := { h with compared := k.1, bad := k.2 }
      let d1 := (d.setF ldrPg LDR.MISMATCH (Nat.min k.2 0xFFFF)).setRegHo (some h1)
      if k.2 = 0 then d1.hoArm h1 else d1.hoEnd 1
    else d

/-- `REGION_HO_SILENT`: a stream-out port has been silent for 100 ms of the comparison. -/
def Dev.hoSilent (d : Dev) : Dev :=
  match d.ld.ho with
  | none => d
  | some h =>
    if h.phase = 3 ∧ h.ready = false then
      match cmpSilent h.cmps (d.hoPorts h) (d.fld ldrPg LDR.COMPARE) h.cmpAt with
      | some t => (d.pass (t + 100000000 - d.mono)).hoEnd 2
      | none => d
    else d

/-- The supervisor seeks a slot again. -/
def Dev.hoRetry (d : Dev) : Dev :=
  match d.ld.ho with
  | none => d.unwait .region
  | some h => if h.ready ∧ h.instant = none then d.hoArm h else d.unwait .region

/-- `REGION_HO_BIND_TIMEOUT`: the pages could not be bound within 10 s. -/
def Dev.hoBindTimeout (d : Dev) : Dev :=
  match d.ld.ho with
  | none => d
  | some h =>
    match h.since, h.instant with
    | some t, none => (d.pass (t + 10000000000 - d.mono)).hoEnd 2
    | _, _ => d

/-- The violations the checker finds for a region handover's milestone: CK-0006 (R69). -/
def Dev.hoRules (d : Dev) : List Viol :=
  match d.ld.ho with
  | none => []
  | some h => h.pairs.flatMap fun x =>
      viol (match (h.ov x.2).hzn, h.instant with | some u, some t => decide (t < u) | _, _ => false) (regionPg x.2) 0x0006

/-- The milestone of the handover was refused or has expired. -/
def Dev.hoMiss (d : Dev) : Dev := d.hoEnd 3

/-- The masked ECC blocks are copied from the old region to the new one (`BLOCK_COPY`, R405). -/
def Dev.blockCopy (d : Dev) (x y : Nat) : Dev :=
  let m := d.reg ldrPg LDR.HO_COPY
  (List.range 32).foldl (fun (e : Dev) b =>
    if bitAt m b ∧ e.bramEcc x b ∧ e.bramEcc y b then
      (List.range 512).foldl (fun (f : Dev) w =>
        let r := f.region x
        f.bramPut y b w ((Tab.get r.bram (bramKey b w)).getD 0) (r.bpois.contains (bramKey b w))) e
    else e) d

/-- Switch: ownership passes at the instant; Drain follows. -/
def Dev.hoApply (d : Dev) : Dev :=
  match d.ld.ho with
  | none => d
  | some h =>
    let t := h.instant.getD d.now
    let d1 := h.pairs.foldl (fun (e : Dev) x => e.blockCopy x.1 x.2) d
    let d2 := h.pairs.foldl (fun (e : Dev) x => e.tapsLeave x.1) d1
    let d3 := d2.tapsEnter (h.pairs.map (·.2))
    let d4 := d3.hoPhase 6 { h with switched := true, drainAt := t + d.fld ldrPg LDR.DRAIN * 1000 }
    h.pairs.foldl (fun (e : Dev) x => (e.refreshRegion x.1).refreshRegion x.2) d4

/-- `REGION_HO_DRAIN_END`: after `DRAIN` µs the old regions become EMPTY and DARK, the new ones RELEASED. -/
def Dev.hoDrainEnd (d : Dev) : Dev :=
  match d.ld.ho with
  | none => d
  | some h =>
    if h.switched then
      let d1 := d.reach h.drainAt
      let d2 := h.pairs.foldl (fun (e : Dev) x => (e.regionDark x.1).setIso x.2 3) d1
      let d3 := h.pairs.foldl (fun (e : Dev) x => (e.setF (regionPg x.2) FREG.RELEASE 1).refreshRegion x.2) d2
      let d4 := (d3.hoClose h 0)
      (if d4.ldPhase = 7 ∧ d4.ld.job.isSome then d4.setLdPhase 4 else d4).groupsFollow
    else d

/-- `BRAM_UE` in the new region before Switch ends the handover with outcome 4. -/
def Dev.hoBramUe (d : Dev) (n : Nat) : Dev :=
  match d.ld.ho with
  | some h => if h.switched = false ∧ h.pairs.any (fun x => decide (x.2 = n)) = true then d.hoEnd 4 else d
  | none => d

/-- `LOAD_ABORT`: a load or a handover ends before Release or Switch. -/
def Dev.loadAbort (d : Dev) : Dev :=
  let d0 := d.setF ldrPg LDR.ABORT 0
  match d0.ld.ho with
  | some h => if h.switched then d0 else d0.hoEnd 5
  | none =>
    match d0.ld.job with
    | some j => if d0.ldPhase ≤ 4 then d0.loadFail j 11 0 else d0
    | none => d0

/-! ### The personality (R399 to R402) -/

/-- The bare personality. -/
def Dev.persBare (d : Dev) : Dev :=
  ({ d with ld := { d.ld with bare := true } } : Dev).raise ldrPg LDR.E_BARE

/-- `PERSONALITY_LOAD`: once the supervisor runs it follows `BOOT_SLOT`. A slot a write has left WRITING fails (R410). -/
def Dev.personalityLoad (d : Dev) : Dev :=
  if d.pw.supRun ∧ d.ld.job = none ∧ d.ld.persSrc = none ∧ d.ld.bare = false ∧ d.ld.awaitHost = false then
    let s := d.fld stPg STORE.BOOT_SLOT
    if s < 4 then
      let d1 := d.loadStart 0 s .sup true true false
      if d1.fld stPg (STORE.STATE.at s) = 1 then
        match d1.ld.job with | some j => d1.loadFail j 1 0 | none => d1
      else d1
    else if s = 4 then { d with ld := { d.ld with awaitHost := true } }
    else d.persBare
  else d

/-- `PERS_DEADLINE`: the deadline passes before the personality is complete. -/
def Dev.persDeadline (d : Dev) : Dev :=
  match d.ld.persAt with
  | none => d
  | some t =>
    if d.ld.persSrc = none ∧ d.ld.bare = false then
      let d1 := d.pass (t + d.ld.deadline * 1000000 - d.mono)
      let d2 : Dev := { d1 with ld := { d1.ld with persAt := none, awaitHost := false, fellBack := true } }
      match d2.ld.job with
      | some j =>
        let reached := (j.mans.filter fun m => decide (m.kind ≤ 1 ∧ d2.iso m.region ≠ 0)).map (·.region)
        (reached.foldl (fun (e : Dev) n => e.regionDark n) (d2.loadFail j 11 0)).persBare
      | none => d2.persBare
    else d

/-- `PERS_STAT` (R400). -/
def Dev.persStat (d : Dev) : Word :=
  wd ((if d.ld.persSrc.isSome then 1 else 0) + (if d.ld.bare then 2 else 0) + d.ld.persSrc.getD 0 * 16)

/-- A write of `PERS_DEADLINE`: 1 to 1,000 ms. -/
def Dev.setDeadline (d : Dev) (ms : Nat) : Dev :=
  if 1 ≤ ms ∧ ms ≤ 1000 then { d with ld := { d.ld with deadline := ms } } else d

/-! ### Readback (R407) -/

/-- The region `RB_CTL` names. -/
def rbRegion (ctl : Word) : Nat := (if fieldOf LDR.KIND ctl = 1 then 32 else 0) + fieldOf LDR.INDEX ctl

/-- A readback is refused with cause BLOCK while a load writes the region. -/
def Dev.readbackBlocked (d : Dev) (ctl : Word) : Bool := bitAt ctl 31 && decide (d.iso (rbRegion ctl) = 1)

/-- `READBACK`: one frame into `RB_DATA`. -/
def Dev.readback (d : Dev) (ctl : Word) : Dev :=
  let v := (Tab.get d.ld.frames (rbRegion ctl * 512 + fieldOf LDR.CLUSTER ctl)).getD 0
  let d1 := (List.range 80).foldl (fun (e : Dev) k => e.setReg ldrPg (LDR.RB_DATA.at k) (wd (v / 2 ^ (32 * k)))) d
  d1.setF ldrPg LDR.RB_CTL_GO 0

/-! ### Column repair from an image (R264) -/

/-- The image that last loaded a tile region, while it still stands where it was read. -/
def Dev.tileImage (d : Dev) (r : Nat) : Option Img :=
  match Tab.get d.ld.tileImgs r with
  | none => none
  | some x =>
    let i : Img := ⟨if x.src = 0 then d.sto.bytes else d.cw.mem, x.base⟩
    if i.digest = x.digest then some i else none

/-- The records of an image's sections for tile region `r`. -/
def Dev.tileRecs (d : Dev) (i : Img) (r : Nat) : List LRec :=
  let ms := i.manifs
  (List.range i.nSections).flatMap fun k =>
    let s := i.sect k
    let mine := match ms[s.region]? with | some m => decide (m.kind = 2 ∧ m.index = r) | none => false
    if s.ty = 3 ∧ mine = true then ((d.sectBody i s k).bind (d.sectRecs ms s)).getD [] else []

/-- The dword that tile records give offset `a` of the window of the tile in row `row` of column `c`. -/
def recWord (rs : List LRec) (c row a : Nat) : Option Word :=
  rs.foldl (fun o x =>
    match x with
    | .tile cc mask off ws =>
      if cc = c ∧ mask / 2 ^ row % 2 = 1 ∧ off ≤ a ∧ a < off + 4 * ws.length then ws[(a - off) / 4]? else o
    | _ => o) none

/-- The 64 bits that an image gives a row of the coefficient (0) or instruction (1) memory. -/
def recRow (rs : List LRec) (c row mem k : Nat) : Option Nat :=
  let a := (if mem = 0 then 0x1000 else 0x1800) + 8 * k
  match recWord rs c row a, recWord rs c row (a + 4) with
  | some lo, some hi => some (hi.toNat * 2 ^ 32 + lo.toNat)
  | _, _ => none

/-- The rows the copy of physical column `ph` reads uncorrectable: those it meets now, and those already poisoned. -/
def Dev.badRows (d : Dev) (r ph : Nat) (met : List (Nat × Nat × Nat)) : List (Nat × Nat × Nat) :=
  met ++ (List.range 16).flatMap fun row =>
    ((d.tile (locCode r ph row)).cpois.map fun k => (row, 0, k)).filter fun x => !(met.contains x)

/-- The rows of a list as the image that last loaded the region gives them; nothing when no image does. -/
def Dev.imageRows (d : Dev) (r c : Nat) (l : List (Nat × Nat × Nat)) : Option (List (Nat × Nat × Nat × Nat)) :=
  if l = [] then some []
  else
    match d.tileImage r with
    | none => none
    | some i =>
      let rs := d.tileRecs i r
      l.mapM fun x => (recRow rs c x.1 x.2.1 x.2.2).map fun v => (x.1, x.2.1, x.2.2, v)

/-- `REPAIR_PREPARE_DONE`: the copy to the spare column has ended; the rows it met uncorrectable come from the image that last
loaded the region, and without one the repair ends with outcome 4. -/
def Dev.repairPrepared (d : Dev) (r c : Nat) (met : List (Nat × Nat × Nat)) : Dev :=
  match Tab.get d.ti.repairs (r * 16 + c) with
  | none => d
  | some x =>
    if x.prepared then d
    else
      match d.imageRows r c (d.badRows r x.phys met) with
      | none => d.colRepairLost r c 2
      | some rows =>
        let p := tregPg r
        let d1 := ((d.colCopy r x.phys rows).setF p (TREG.BSH.at c) 0).setF p (TREG.CBSH.at c) 0
        d1.colRepairBind r c { x with prepared := true, instant := d.now + d.fld p TREG.LEAD * 1000, image := !rows.isEmpty }

/-! ### Registers of the `LDR` page -/

/-- A direct write of `new` is refused with cause BLOCK. -/
def Dev.ldrBlocked (d : Dev) (src : Source) (off : Nat) (old new : Word) : Bool :=
  let loading := d.ld.job.isSome
  let ovr := fun (a b : Nat) => decide (a < b + 14 ∧ b < a + 14)
  if off = LDR.LDR_CTL.off then d.loadBlocked src new
  else if off = LDR.LDR_BUF.off then loading && decide (old ≠ new)
  else if off = LDR.LDR_SBUF.off then ovr (fieldOf LDR.SBUF_BASE new) (d.fld ldrPg LDR.BUF_BASE)
  else if off = LDR.RB_CTL.off then d.readbackBlocked new
  else false

/-- A register of the `LDR` page has become live. -/
def Dev.ldrLive (d : Dev) (src : Source) (off : Nat) (new : Word) : Dev :=
  if off = LDR.LDR_CTL.off then
    let d1 := if bitAt new 30 then d.loadAbort else d
    if bitAt new 31 then d1.loadGo src new else d1
  else if off = LDR.RB_CTL.off ∧ bitAt new 31 then d.readback new
  else d

/-- Block reset of the `LDR` page: a load, a handover and what shows them go on. -/
def Dev.ldrReset (d : Dev) : Dev :=
  let run := d.ld.job.isSome || d.ld.ho.isSome
  let keep := fun o => run && (decide (o = LDR.LDR_CTL.off ∨ o = LDR.LDR_STAT.off ∨ o = LDR.HO_STAT.off ∨
    o = LDR.HO_CFG.off ∨ o = LDR.HO_TIME.off ∨ o = LDR.HO_COPY.off ∨ o = LDR.LDR_BUF.off))
  d.resetPage ldrPg keep

/-- CK-5101 and CK-5102 on region `n`. -/
def View.isoRules (v : View) (n : Nat) : List Viol :=
  let p := regionPg n
  let rel := fun (k : Nat) => v.has (regionPg k) && v.flag (regionPg k) FREG.RELEASE && decide (v.d.iso k ≠ 3)
  let staged := v.has p && v.flag p FREG.RELEASE
  let st := v.d.iso n
  let clash := (v.d.region n).drives.any fun b => anyIf 32 fun k =>
    decide (k ≠ n) && (decide (v.d.iso k = 3) || rel k) && v.d.drivesTrunk k (tapTrunk n b)
  viol (staged && !(decide (st = 2 ∨ st = 3))) p 0x5101 ++ viol (staged && clash) p 0x5102

end Sys2Proof.Machine
end

