-- ==== Sys2Proof/Machine/Store.lean ====
section
/-! DEFINITION. The image store (R409 to R411): write units and wear, slot writes, the user store's completions (R369). -/

namespace Sys2Proof.Machine

/-- Wear counter of a sector. -/
def Dev.wearOf (d : Dev) (s : Nat) : Nat := (Tab.get d.sto.wear s).getD 0

/-- `WEAR_MAX` is the highest wear counter it has seen. -/
def Dev.wearMax (d : Dev) (n : Nat) : Dev := d.setReg stPg STORE.WEAR_MAX (wd (Nat.max n (d.reg stPg STORE.WEAR_MAX).toNat))

/-- A sector is retired to a spare one, whose wear begins at 0; with no spare left it keeps serving (`SECTOR_RETIRED`). -/
def Dev.retireSector (d : Dev) (s : Nat) : Dev :=
  let left := d.fld stPg STORE.SPARE_LEFT
  if left = 0 then d.raiseH stPg STORE.E_SPARE_OUT
  else
    let d1 := (d.setF stPg STORE.SPARE_LEFT (left - 1)).setF stPg STORE.RETIRED (d.fld stPg STORE.RETIRED + 1)
    let d2 : Dev := { d1 with sto := { d1.sto with wear := Tab.del d1.sto.wear s } }
    let d3 := d2.raiseH stPg STORE.E_SECTOR_RETIRED (wd s)
    if left = 64 then d3.raiseH stPg STORE.E_SPARE_LOW else d3

/-- One 64-byte write unit at a store address: its bytes are stored, the sector's wear counts and saturates; at 100,000,000
or when the read-back fails the sector is retired (R411). -/
def Dev.storeUnit (d : Dev) (addr : Nat) (bytes : List Nat) (bad : Bool) : Dev :=
  let s := addr / 4096
  let n := Nat.min (d.wearOf s + 1) 0xFFFFFFFF
  let d1 : Dev := { d with sto := { d.sto with bytes := memStore d.sto.bytes addr (bytes.take 64), wear := Tab.put d.sto.wear s n 0 } }
  let d2 := d1.wearMax n
  if bad ∨ n = 100000000 then d2.retireSector s else d2

/-- The store's target address and the buffer of the write under way. -/
def StoreJob.dest (j : StoreJob) : Nat := if j.target = 0 then slotBase j.index else bankBase j.index
def Dev.storeSrc (d : Dev) (j : StoreJob) : Nat := if j.slave then d.slaveBuf else d.hostBuf

/-- The image a store write copies. -/
def Dev.storeImg (d : Dev) (j : StoreJob) : Img := ⟨d.cw.mem, d.storeSrc j⟩

/-- A slot or bank write starts: `WR_STAT` shows it, a slot reads WRITING, a bank no longer holds what it was shipped with. -/
def Dev.storeStart (d : Dev) (target index : Nat) (slave : Bool) : Dev :=
  let cap := if target = 0 then bufBytes else 0x180000
  let j0 : StoreJob := ⟨target, index, slave, 0, 0⟩
  let j := { j0 with len := Nat.min (d.storeImg j0).len cap }
  let kept := if target = 0 then d.sto.shipped else d.sto.shipped.filter fun b => decide (b ≠ index)
  let d1 : Dev := { d with sto := { d.sto with job := some j, shipped := kept } }
  let d2 := d1.setReg stPg STORE.WR_STAT (wd (2 ^ 31 + target * 2 ^ 29 + index * 2 ^ 26))
  if target = 0 then d2.setF stPg (STORE.STATE.at index) 1 else d2

/-- Every unit of the write under way has been copied. -/
def StoreJob.copied (j : StoreJob) : Bool := decide (j.len ≤ 64 * j.units)

/-- `STORE_WRITE_UNIT`: the store commits one unit: the next of the slot or bank write under way, or one the supervisor
writes into the identity and log area. No write begins while PFAIL is reported (R493). -/
def Dev.storeWriteUnit (d : Dev) (log : Option (Nat × List Nat)) (bad : Bool) : Dev :=
  if d.flag pwrPg PWR.PFAIL then d
  else match log with
    | some x => if 0x3F00000 ≤ x.1 ∧ x.1 + 64 ≤ 0x4000000 ∧ x.1 % 64 = 0 then d.storeUnit x.1 x.2 bad else d
    | none =>
      match d.sto.job with
      | none => d
      | some j =>
        if j.copied then d
        else
          let k := 64 * j.units
          let bytes := memBytes d.cw.mem (d.storeSrc j + k) 64
          let d1 := d.storeUnit (j.dest + k) bytes bad
          ({ d1 with sto := { d1.sto with job := some { j with units := j.units + 1 } } } : Dev).setF stPg STORE.UNITS (j.units + 1)

/-- `WR_STAT` no longer shows a write. -/
def Dev.storeEnd (d : Dev) : Dev := ({ d with sto := { d.sto with job := none } } : Dev).setF stPg STORE.ACTIVE 0

/-- The image at a store address has keeper sections. -/
def Img.hasKeeper (i : Img) : Bool := i.manifs.any fun m => decide (m.kind = 1)

/-- `SLOT_WRITE_DONE`: the stored copy is verified under R385 and the descriptor written. -/
def Dev.slotWriteDone (d : Dev) : Dev :=
  match d.sto.job with
  | none => d
  | some j =>
    if j.target = 0 ∧ j.copied then
      let i : Img := ⟨d.sto.bytes, j.dest⟩
      let keeper := i.hasKeeper
      let good := i.headerOk 0 && d.sigOk i && !(keeper && !j.slave)
      let p := stPg
      let d1 := d.storeEnd
      let w := (if good then 2 else 3) * 2 ^ 30 + (if j.slave then 2 ^ 29 else 0) + (if keeper then 2 ^ 28 else 0) + i.arc % 256 * 65536
      let d2 := (d1.setReg p (STORE.SLOT_STAT.at j.index) (wd w)).setReg p (STORE.SLOT_VER.at j.index) (wd i.ver)
      let d3 := d2.count p STORE.SLOT_WR_CNT
      d3.raise p (if good then STORE.E_SLOT_WRITTEN else STORE.E_SLOT_BAD) (wd w)
    else d

/-- Sectors and units a byte range of the store touches are written; the units keep their other bytes. -/
def Dev.storeRange (d : Dev) (addr : Nat) (bytes : List Nat) (bad : Bool) : Dev :=
  let first := addr / 64
  let n := (addr + bytes.length + 63) / 64 - first
  let mem := memStore d.sto.bytes addr bytes
  (List.range n).foldl (fun (e : Dev) k => e.storeUnit ((first + k) * 64) (memBytes mem ((first + k) * 64) 64) (bad && decide (k = 0))) d

/-- `USTORE_DONE`: the request under way completes and is acknowledged; one the store cannot complete gives an error
(R369). -/
def Dev.ustoreDone (d : Dev) (fault bad : Bool) : Dev :=
  match d.fab.ubusy with
  | none => d
  | some q =>
    let d1 : Dev := { d with fab := { d.fab with ubusy := none } }
    let d2 :=
      if fault then d1.ustoreErr q 2
      else if q.write then (d1.storeRange (userBase + q.addr) q.data bad).send (.fabricRsp q.region 1 false [])
      else d1.send (.fabricRsp q.region 1 false (memBytes d1.sto.bytes (userBase + q.addr) q.len))
    (d2.regionWake q.region).ustoreNext

/-- `BOOT_SLOT` 6 and 7 are refused with cause VALUE. -/
def storeValueBad (off : Nat) (new : Word) : Bool := decide (off = STORE.BOOT_CFG.off) && decide (5 < fieldOf STORE.BOOT_SLOT new)

/-- Block reset of the `STORE` page: what the store holds and a write under way stay. -/
def Dev.storeReset (d : Dev) : Dev := d.resetPage stPg fun o => decide (o = STORE.WR_STAT.off) && d.sto.job.isSome

end Sys2Proof.Machine
end

