-- ==== Sys2Proof/Machine/Power.lean ====
section
/-! DEFINITION. Power requests, the supply-fail input, clocks and monitors (R490 to R515, R550): what they do short of a
reset. Rails, the dark device, the thermal trip and what a power state does to a block stand with the resets. -/

namespace Sys2Proof.Machine

/-- The `CLK` and `MON` pages. -/
def clkPg : Nat := pg .clk 0
def monPg : Nat := pg .mon 0

/-! ### Power requests (R496 to R498) -/

/-- A page wakes from LULL or DARK. -/
def Dev.wakes (d : Dev) (p st : Nat) : Bool := decide (st ≤ 1 ∧ 2 ≤ d.pwrState p)

/-- The transition wakes a page at elapsed time `t`. -/
def PwrTrans.wakesAt (x : PwrTrans) (t : Nat) : Bool := decide (x.at_ = t) && x.lag.isSome

/-- Page `p` wakes at the same instant as the pages already in the table: its switch closes 0.5 µs after each of a lower base,
and those of a higher base 0.5 µs later than before (R537). -/
def Dev.wakeLag (d : Dev) (p : Nat) : Nat :=
  500 * (d.pw.trans.filter fun e => decide (e.1 < p) && e.2.wakesAt d.mono).length
def Dev.wakeShift (d : Dev) (p : Nat) : Tab PwrTrans :=
  d.pw.trans.map fun e =>
    if p < e.1 ∧ e.2.wakesAt d.mono = true then (e.1, { e.2 with lag := e.2.lag.map (· + 500) }) else e

/-- A request for a power state has become live: it starts a transition, or waits for the one under way in place of a
request that waited (R497). -/
def Dev.reqPower (d : Dev) (p st : Nat) : Dev :=
  match Tab.get d.pw.trans p with
  | some x => { d with pw := { d.pw with trans := Tab.ins d.pw.trans p { x with wait := some st } } }
  | none =>
    if d.pwrState p = st then d
    else if d.wakes p st then
      { d with pw := { d.pw with trans := Tab.ins (d.wakeShift p) p ⟨st, none, d.mono, some (d.wakeLag p)⟩ } }
    else { d with pw := { d.pw with trans := Tab.ins d.pw.trans p ⟨st, none, d.mono, none⟩ } }

/-- A bound class A flow of the page's block in a view (R498). -/
def View.classABound (v : View) (p : Nat) : Bool := (v.pageBinds p).any fun b => decide (v.d.flowClass b.flow = 0)

/-- A port of group `g` is not OFF. -/
def Dev.grpPortOn (d : Dev) (g : Nat) : Bool := anyIf 9 fun k => decide (d.st (portPg (g * 9 + k)) ≠ 0)

/-- A direct write of `PAGE_CTL` asks for LULL or DARK where R498 bars it (cause BLOCK). -/
def Dev.powerBarred (d : Dev) (c : Cls) (i : Nat) (old new : Word) : Bool :=
  let st := fieldOf HDR.PWR_REQ new
  decide (2 ≤ st ∧ st ≠ fieldOf HDR.PWR_REQ old) &&
    ((⟨d, []⟩ : View).classABound (pg c i) || (decide (c = .pgrp) && d.grpPortOn i))

/-- CK-9001 on a page of the view. -/
def View.powerRules (v : View) (p : Nat) : List Viol :=
  let grp := match pageAt p with
    | some (.pgrp, g) => v.d.grpPortOn g || anyIf 9 fun k => v.flag (portPg (g * 9 + k)) HDR.ENABLE
    | _ => false
  let bars := v.classABound p || (⟨v.d, []⟩ : View).classABound p || grp
  viol (v.has p && decide (2 ≤ v.fld p HDR.PWR_REQ) && bars) p 0x9001

/-! ### PFAIL_N (R493) -/

/-- `PFAIL`: outputs mute, store writes stop after the unit in progress. -/
def Dev.pfailStart (d : Dev) : Dev :=
  if d.flag pwrPg PWR.PFAIL then d
  else (((d.setF pwrPg PWR.PFAIL 1).count pwrPg PWR.PFAIL_CNT).raise pwrPg PWR.E_PFAIL).pfMuteAll

/-- `PFAIL_END`: PFAIL_N has been high for 10 ms. -/
def Dev.pfailEnd (d : Dev) : Dev :=
  if d.flag pwrPg PWR.PFAIL then ((d.setF pwrPg PWR.PFAIL 0).raise pwrPg PWR.E_PFAIL_END).ustoreNext else d

/-! ### XIN (R503) -/

/-- XIN, in kHz, is inside ±5 % of 25 MHz. -/
def xinOk (khz : Nat) : Bool := decide (23750 ≤ khz ∧ khz ≤ 26250)

/-- `XIN_LOST`: no edge for 2 µs (0 kHz), or out of range. -/
def Dev.xinLost (d : Dev) (khz : Nat) : Dev :=
  if xinOk khz ∨ d.flag clkPg CLK.HOLD then d
  else
    let d1 := d.setReg clkPg CLK.XIN_STAT (wd (2 ^ 30 + khz % 65536))
    (d1.count clkPg CLK.XIN_LOST_CNT).raise clkPg CLK.E_XIN_LOST

/-- `XIN_BACK`: XIN has been present for 10 ms; its first presence after a reset is no return. -/
def Dev.xinBack (d : Dev) (khz : Nat) : Dev :=
  if !(xinOk khz) ∨ d.flag clkPg CLK.XIN_OK then d
  else
    let held := d.flag clkPg CLK.HOLD
    let d1 := d.setReg clkPg CLK.XIN_STAT (wd (2 ^ 31 + khz % 65536))
    if held then d1.raise clkPg CLK.E_XIN_BACK else d1

/-! ### Core PLL pairs (R499, R504 to R508) -/

/-- Failures of a PLL (0 even, 1 odd) of a pair. -/
def failsFld (k x : Nat) : Fld := if x = 0 then CLK.FAILS_EVEN.at k else CLK.FAILS_ODD.at k

/-- An event of a pair: word 4 the pair, word 5 `PAIR_STAT`. -/
def Dev.pairEvent (d : Dev) (k : Nat) (e : Evt) : Dev := d.raiseH clkPg e (wd k) (d.reg clkPg (CLK.PAIR_STAT.at k))

/-- A PLL fails once more; the third failure since PORST_N retires it. -/
def Dev.pllFails (d : Dev) (k x : Nat) : Dev :=
  let n := Nat.min (d.fld clkPg (failsFld k x) + 1) 3
  let d1 := d.setF clkPg (failsFld k x) n
  let d2 := if n = 3 then d1.setF clkPg (CLK.RETIRED.at k) (d1.fld clkPg (CLK.RETIRED.at k) ||| 2 ^ x) else d1
  { d2 with pw := { d2.pw with failAt := Tab.ins d2.pw.failAt k d2.mono, lockAt := Tab.del d2.pw.lockAt k } }

/-- The pair is left without a usable standby: reported once. -/
def Dev.pairBare (d : Dev) (k : Nat) : Dev :=
  let d1 := d.setF clkPg (CLK.STANDBY_OK.at k) 0
  if d1.pw.noSpare.contains k then d1
  else ({ d1 with pw := { d1.pw with noSpare := d1.pw.noSpare ++ [k] } } : Dev).pairEvent k CLK.E_PLL_NO_SPARE

/-- The pair switches to its standby. -/
def Dev.pairSwitch (d : Dev) (k : Nat) : Dev :=
  let d1 := (d.setF clkPg (CLK.IN_USE.at k) (1 - d.fld clkPg (CLK.IN_USE.at k))).count clkPg CLK.FAILOVER_CNT
  d1.pairEvent k CLK.E_PLL_FAILOVER

/-- The active PLL of a pair fails with a usable standby: HOT switches at once, COLD stops the fed domains until the standby
locks. -/
def Dev.pllFailover (d : Dev) (k : Nat) : Dev :=
  if d.flag clkPg (CLK.STANDBY_OK.at k) = false ∨ d.pw.cold.contains k then d
  else
    let d1 := d.pllFails k (d.fld clkPg (CLK.IN_USE.at k))
    if d.fld clkPg (CLK.MODE.at k) = 1 then { d1 with pw := { d1.pw with cold := d1.pw.cold ++ [k] } }
    else (d1.pairSwitch k).pairBare k

/-- `PLL_COLD_RELOCK`: the standby has locked and the fed domains restart. -/
def Dev.pllRelock (d : Dev) (k : Nat) : Dev :=
  if d.pw.cold.contains k then
    (({ d with pw := { d.pw with cold := d.pw.cold.filter fun x => decide (x ≠ k) } } : Dev).pairSwitch k).pairBare k
  else d

/-- The failed PLL of a pair and whether it is retired. -/
def Dev.failedPll (d : Dev) (k : Nat) : Nat := 1 - d.fld clkPg (CLK.IN_USE.at k)
def Dev.pllRetired (d : Dev) (k : Nat) : Bool := decide (d.fld clkPg (CLK.RETIRED.at k) / 2 ^ (d.failedPll k) % 2 = 1)

/-- `PLL_RETRY`: 10 s after its failure the PLL is tried again; it locks, or fails once more. -/
def Dev.pllRetry (d : Dev) (k : Nat) (ok : Bool) : Dev :=
  match Tab.get d.pw.failAt k with
  | none => d
  | some t =>
    if d.pllRetired k ∨ d.flag clkPg (CLK.STANDBY_OK.at k) ∨ d.pw.cold.contains k then d
    else
      let d1 := d.pass (t + 10000000000 - d.mono)
      if ok then { d1 with pw := { d1.pw with lockAt := Tab.ins d1.pw.lockAt k d1.mono, failAt := Tab.del d1.pw.failAt k } }
      else d1.pllFails k (d1.failedPll k)

/-- `PLL_RESTORED`: 60 s locked and free of faults. -/
def Dev.pllRestored (d : Dev) (k : Nat) : Dev :=
  match Tab.get d.pw.lockAt k with
  | none => d
  | some t =>
    let d1 := d.pass (t + 60000000000 - d.mono)
    let ns := d1.pw.noSpare.filter fun x => decide (x ≠ k)
    let d2 : Dev := { d1 with pw := { d1.pw with lockAt := Tab.del d1.pw.lockAt k, noSpare := ns } }
    (d2.setF clkPg (CLK.STANDBY_OK.at k) 1).pairEvent k CLK.E_PLL_RESTORED

/-- A running domain takes a clock from the pair (R499). -/
def Dev.pairUsed (d : Dev) (k : Nat) : Bool :=
  if k = 1 then anyIf 16 fun r => decide (d.pwrState (pg .treg r) ≤ 1)
  else if k = 2 then anyIf 64 fun n => d.flag clkPg (CLK.EN.at n) && decide (d.fld clkPg (CLK.SRC.at n) ≤ 15)
  else true

/-- The pairs start with the device: both PLLs of each lock, but for a retired one. -/
def Dev.pairsStart (d : Dev) : Dev :=
  (List.range 4).foldl (fun (e : Dev) k =>
    let e1 := e.setF clkPg (CLK.PWR.at k) 1
    if e1.fld clkPg (CLK.RETIRED.at k) = 0 then e1.setF clkPg (CLK.STANDBY_OK.at k) 1 else e1) d

/-! ### `CLK` registers -/

/-- Cause VALUE: COLD on pair A or D, a source outside *Global net sources*. -/
def clkValueBad (off : Nat) (new : Word) : Bool :=
  if inArr CLK.PAIR_CFG 4 off then
    let k := arrIdx CLK.PAIR_CFG off
    bitAt new 1 && decide (k = 0 ∨ k = 3)
  else if inArr CLK.GCLK_SRC 64 off then decide (21 < fieldOf CLK.SRC new)
  else false

/-- Cause BLOCK (R508 to R510). -/
def Dev.clkBlocked (d : Dev) (off : Nat) (old new : Word) : Bool :=
  if inArr CLK.PAIR_CFG 4 off then
    let k := arrIdx CLK.PAIR_CFG off
    decide (fieldOf CLK.ACTIVE new ≠ d.fld clkPg (CLK.IN_USE.at k)) && !(d.flag clkPg (CLK.STANDBY_OK.at k))
  else if inArr CLK.TILE_DIV 16 off then decide (old ≠ new) && d.regBusy (arrIdx CLK.TILE_DIV off)
  else if inArr CLK.GCLK_SRC 64 off then fieldChanged CLK.SRC old new && bitAt old 31
  else false

/-- A register of the `CLK` page has become live: `ACTIVE` naming the standby makes a planned switch. -/
def Dev.clkLive (d : Dev) (off : Nat) (new : Word) : Dev :=
  if inArr CLK.PAIR_CFG 4 off then
    let k := arrIdx CLK.PAIR_CFG off
    if fieldOf CLK.ACTIVE new ≠ d.fld clkPg (CLK.IN_USE.at k) then d.pairSwitch k else d
  else d

/-- `PAIR_STAT.PWR` as a reader sees it. -/
def Dev.clkView (d : Dev) (off : Nat) (w : Word) : Word :=
  if inArr CLK.PAIR_STAT 4 off then
    let k := arrIdx CLK.PAIR_STAT off
    if bitAt w 31 && !(d.pairUsed k) then setBits w 31 31 0 else w
  else w

/-- Block reset of the `CLK` page: what is in use, failures since PORST_N and retirements stay. -/
def Dev.clkReset (d : Dev) : Dev :=
  d.resetPage clkPg fun o => inArr CLK.PAIR_STAT 4 o || decide (o = CLK.XIN_STAT.off)

/-- CK-9002 and CK-9003. -/
def View.clkRules (v : View) : List Viol :=
  let div := anyIf 16 fun r =>
    let w := v.d.raw (clkPg + (CLK.TILE_DIV.at r).off)
    decide (v.raw (clkPg + (CLK.TILE_DIV.at r).off) ≠ w) &&
      (v.d.regBusy r || anyIf 16 fun c => v.flag (tregPg r) (TREG.RUN.at c))
  let src := anyIf 64 fun n => v.has clkPg && decide (21 < v.fld clkPg (CLK.SRC.at n))
  viol div clkPg 0x9002 ++ viol src clkPg 0x9003

/-! ### `PWR` and `MON` registers (R512, R513, R550) -/

/-- `PWR_EST` as a reader sees it. -/
def Dev.pwrView (d : Dev) (off : Nat) (w : Word) : Word :=
  if off = PWR.PWR_EST.off then
    (if d.pw.supRun then wd (2 ^ 31 + (Config.packagePower (d.mono / 10000000)).toNat) else 0)
  else w

/-- Rails and VCORE current as a reader sees them. -/
def Dev.monView (d : Dev) (off : Nat) (w : Word) : Word :=
  let ms := d.mono / 1000000
  if inArr MON.RAIL_MV 7 off then
    let i := arrIdx MON.RAIL_MV off
    wd ((if d.fld pwrPg PWR.RAIL_OK / 2 ^ i % 2 = 1 then 2 ^ 31 else 0) + (Config.railMv i ms).toNat)
  else if off = MON.VCORE_A.off then wd (Config.vcoreAmps ms).toNat
  else w

/-- `THERM_CFG` outside its rules (cause VALUE). -/
def monValueBad (off : Nat) (new : Word) : Bool :=
  decide (off = MON.THERM_CFG.off) && decide (fieldOf MON.FAULT new ≤ fieldOf MON.WARN new)

/-- The highest of the last readings. -/
def Dev.tempMax (d : Dev) : Int :=
  if d.flag monPg MON.TEMP_MAX_VALID then sext 8 (d.fld monPg MON.TEMP_MAX_C) else -128

/-- The highest of a list of readings, in two's complement of 8 bits. -/
def hottest (ts : List Nat) : Int := ts.foldl (fun (m : Int) t => if m < sext 8 t then sext 8 t else m) (-128)

/-- The readings of the eight sensors stand in the registers. -/
def Dev.setTemps (d : Dev) (ts : List Nat) : Dev :=
  let reg := fun (t : Nat) => wd (2 ^ 31 + t % 256)
  let d1 := (List.range 8).foldl (fun (e : Dev) i => e.setReg monPg (MON.TEMP.at i) (reg (ts.getD i 0))) d
  d1.setReg monPg MON.TEMP_MAX (reg (scode 8 (hottest ts)))

/-- `THERM_SAMPLE`: the sensors report. -/
def Dev.thermSample (d : Dev) (ts : List Nat) : Dev :=
  let was := d.tempMax
  let m := hottest ts
  let w : Int := d.fld monPg MON.WARN
  let f : Int := d.fld monPg MON.FAULT
  let d0 := d.setTemps ts
  let d1 : Dev := { d0 with pw := { d0.pw with hotHour := d0.pw.hotHour || decide (95 < m) } }
  let d2 :=
    if was < w ∧ w ≤ m then
      ((({ d1 with pw := { d1.pw with warm := true } } : Dev).count monPg MON.THERM_WARN_CNT).raise monPg MON.E_THERM_WARN)
    else d1
  let d3 := if was < f ∧ f ≤ m then (d2.count monPg MON.THERM_FAULT_CNT).raise monPg MON.E_THERM_FAULT else d2
  if d3.pw.warm ∧ m < w - 5 then ({ d3 with pw := { d3.pw with warm := false } } : Dev).raise monPg MON.E_THERM_OK else d3

/-- `AGE_MEASURE`: the slowing of the eight oscillators in 0.01 %, two's complement of 16 bits. -/
def Dev.ageMeasure (d : Dev) (ss : List Nat) : Dev :=
  let d1 := (List.range 8).foldl (fun (e : Dev) i => e.setReg monPg (MON.AGE_SHIFT.at i) (wd (2 ^ 31 + ss.getD i 0 % 65536))) d
  let lvl : Int := d1.fld monPg MON.SHIFT_WARN
  match (List.range 8).find? fun i => decide (lvl ≤ sext 16 (d1.fld monPg (MON.SHIFT.at i))) with
  | some i =>
    if d1.pw.aged then d1
    else ({ d1 with pw := { d1.pw with aged := true } } : Dev).raise monPg MON.E_AGE_WARN (wd i) (d1.reg monPg (MON.AGE_SHIFT.at i))
  | none => d1

/-- `HOURS_UPDATE`: another hour; a hot one counts twice in `EQ_HOURS`. -/
def Dev.hoursUpdate (d : Dev) : Dev :=
  let d1 := d.pass (d.pw.hourAt + 3600000000000 - d.mono)
  let add := fun (w : Word) (n : Nat) => wd (Nat.min (w.toNat + n) 0xFFFFFFFF)
  let d2 := d1.setReg monPg MON.AGE_HOURS (add (d1.reg monPg MON.AGE_HOURS) 1)
  let d3 := d2.setReg monPg MON.AGE_EQ (add (d2.reg monPg MON.AGE_EQ) (if d2.pw.hotHour then 2 else 1))
  let d4 : Dev := { d3 with pw := { d3.pw with hotHour := false, hourAt := d3.mono } }
  if d4.pw.worn = false ∧ d4.fld monPg MON.LIFE_HOURS ≤ (d4.reg monPg MON.AGE_EQ).toNat then
    ({ d4 with pw := { d4.pw with worn := true } } : Dev).raise monPg MON.E_LIFE_WARN
  else d4

end Sys2Proof.Machine
end

