-- ==== Sys2Proof/Machine/Security.lean ====
section
/-! DEFINITION. Security (chapter 16) short of the commands themselves: fuses and keys as registers, firmware banks and the
boot (R468, R469), attestation (R472 to R474), the debug port (R487, R488), owner signatures (R481). -/

namespace Sys2Proof.Machine

/-! ### Identity and state -/

/-- The device is owned (R466). -/
def Dev.owned (d : Dev) : Bool := d.flag secPg SEC.OWNED

/-- The serial number, and as 8 little-endian bytes. -/
def Dev.serial (d : Dev) : Nat := (d.reg secPg SEC.SERIAL_HI).toNat * 2 ^ 32 + (d.reg secPg SEC.SERIAL_LO).toNat
def Dev.serialBytes (d : Dev) : List Nat := leBytes 8 d.serial

/-- A `SEC` register as a reader sees it: the keys present and VBAT. -/
def Dev.secView (d : Dev) (off : Nat) (w : Word) : Word :=
  if off = SEC.SEC_KEYS.off then
    wd ((if d.sec.kcmd.isSome then 2 ^ 31 else 0) + (if d.sec.kimgB.isSome then 2 ^ 30 else 0) +
      (if d.fld pwrPg PWR.RAIL_OK / 64 % 2 = 1 then 2 ^ 29 else 0))
  else w

/-- A key of the battery domain: 0 KCMD, 1 KIMG_B (R479). -/
def Dev.setKey (d : Dev) (k : Nat) (v : Option Nat) : Dev :=
  if k = 0 then { d with sec := { d.sec with kcmd := v } } else { d with sec := { d.sec with kimgB := v } }

/-! ### The boot chain (R468, R469) -/

/-- Why a firmware bank fails: 0 it passes, 1 format, 2 signature, 3 rollback. A bank that holds the firmware it was shipped
with passes unless the anti-rollback count has been raised (DESIGN CHOICE: a device as shipped starts). -/
def Dev.bankFail (d : Dev) (b : Nat) : Nat :=
  let i : Img := ⟨d.sto.bytes, bankBase b⟩
  if d.sto.shipped.contains b then (if d.fld secPg SEC.FW_ARC = 0 then 0 else 3)
  else if !(i.headerOk 1) ∨ i.keysel ≠ 0 ∨ 0x180000 < i.len then 1
  else if d.sigOk i = false then 2
  else if i.arc < d.fld secPg SEC.FW_ARC then 3 else 0

/-- The version of the image in a bank. -/
def Dev.bankVer (d : Dev) (b : Nat) : Nat :=
  if d.sto.shipped.contains b then (Config.shippedVer b).toNat else (⟨d.sto.bytes, bankBase b⟩ : Img).ver

/-- A new debug challenge (R488). -/
def Dev.newChal (d : Dev) : Dev :=
  let r := d.takeFresh
  (List.range 8).foldl (fun (e : Dev) k => e.setReg secPg (SEC.DBG_CHAL.at k) (Config.challenge r.1 k)) r.2

/-- The supervisor runs on bank `b`. -/
def Dev.supUp (d : Dev) (b : Nat) : Dev :=
  ({ d with pw := { d.pw with supRun := true }, sec := { d.sec with bank := b } } : Dev).setF pwrPg PWR.SUP_RUN 1

/-- Boot ROM enters recovery (R469). -/
def Dev.recover (d : Dev) : Dev := ({ d with sec := { d.sec with recovery := true } } : Dev).setF secPg SEC.RECOVERY 1

/-- The supervisor starts on bank `b`; slices calibrate, and what has happened before is reported (R492, R468, R486). -/
def Dev.supStart (d : Dev) (b : Nat) : Dev :=
  let a := d.sec.activeBank
  let srv := pg .srv 0
  let d1 := ((d.setF secPg SEC.BANK b).setF secPg SEC.FALLBACK (if b = a then 0 else 1)).setReg secPg SEC.FW_VER (wd (d.bankVer b))
  let d2 := ((d1.setF srv SRV.RUN_BANK b).setF srv SRV.ACT_BANK a).supUp b
  let d3 := (d2.pairsStart.newChal).raise pwrPg PWR.E_RESTART
  let d4 := if b = a then d3 else d3.raise secPg SEC.E_BOOT_FALLBACK
  let d5 := if d4.sec.tamperDue then ({ d4 with sec := { d4.sec with tamperDue := false } } : Dev).raise secPg SEC.E_TAMPER else d4
  (List.range 4).foldl (fun (e : Dev) k => e.dieCalStart k) d5

/-- VCORE, VSRAM, VAON and VST are valid (R494). -/
def Dev.coreRails (d : Dev) : Bool :=
  let w := d.fld pwrPg PWR.RAIL_OK
  [0, 1, 2, 5].all fun i => decide (w / 2 ^ i % 2 = 1)

/-- `BOOT_VERIFY`: Boot ROM tries the active bank and then the other, or enters recovery. -/
def Dev.bootVerify (d : Dev) : Dev :=
  if d.pw.supRun || d.sec.recovery || !(d.coreRails) || d.pw.tripped || d.pw.dark then d
  else
    let a := d.sec.activeBank
    let f0 := d.bankFail a
    let f1 := d.bankFail (1 - a)
    let d0 := d.setF secPg SEC.FAIL0 f0
    if f0 = 0 then d0.supStart a
    else if f1 = 0 then d0.supStart (1 - a)
    else (d0.setF secPg SEC.FAIL1 f1).recover

/-! ### Owner signatures (R385, R481, R488) -/

/-- A signature block of an owner key over a message. -/
def Dev.ownerSig (d : Dev) (blk msg : List Nat) : Bool :=
  let pk := (blk.drop 4).take 64
  let h := Config.shake256 pk 32
  decide (blk.length = sigBytes ∧ leNum (blk.take 2) = 1 ∧ leNum ((blk.drop 2).take 2) = 0) &&
  (decide (d.imgKeyHash 0 0 = some h) || decide (d.imgKeyHash 0 1 = some h)) &&
  Config.slhVerify pk msg ((blk.drop 68).take 29792)

/-! ### The debug port (R487, R488) -/

/-- The port is unlocked. -/
def Dev.jtagOpen (d : Dev) : Bool := d.flag secPg SEC.UNLOCKED || !(d.owned)

/-- The pins follow boundary scan. -/
def Dev.setExtest (d : Dev) (on : Bool) : Dev :=
  if d.pn.extest = on then d
  else ({ d with pn := { d.pn with extest := on } } : Dev).refreshPins (List.range 192)

/-- `JTAG_INSTRUCTION`: 0 IDCODE, 1 BYPASS, 2 SAMPLE/PRELOAD, 3 EXTEST, 4 INTEST, 5 another; while the port is locked all but
the first three load as BYPASS. -/
def Dev.jtagLoad (d : Dev) (i : Nat) : Dev :=
  let k := if d.jtagOpen ∨ i ≤ 2 then i else 1
  ({ d with sec := { d.sec with jtag := k } } : Dev).setExtest (decide (k = 3 ∨ k = 4))

/-- The port locks: an instruction it no longer offers gives way to BYPASS. -/
def Dev.jtagLock (d : Dev) : Dev :=
  if d.owned then
    let d1 := d.setF secPg SEC.UNLOCKED 0
    (if 2 < d1.sec.jtag then { d1 with sec := { d1.sec with jtag := 1 } } else d1).setExtest false
  else d

/-- The port unlocks; word 4 of the notice tells how. -/
def Dev.jtagUnlock (d : Dev) (how : Nat) : Dev := ((d.setF secPg SEC.UNLOCKED 1).raise secPg SEC.E_DEBUG_UNLOCKED (wd how))

/-- The present challenge. -/
def Dev.chalBytes (d : Dev) : List Nat := d.hashBytes SEC.DBG_CHAL

/-- `CHAL_RD`. -/
def Dev.chalRd (d : Dev) : Dev := d.send (.jtag ((List.range 8).map fun k => d.reg secPg (SEC.DBG_CHAL.at k)))

/-- `UNLOCK`: a signature block shifted in at the port; the challenge is renewed after every attempt. -/
def Dev.jtagUnlockSig (d : Dev) (blk : List Nat) : Dev :=
  let ok := !(d.flag secPg SEC.JTAG_OFF) && d.ownerSig blk (Config.shake256 (d.chalBytes ++ d.serialBytes) 64)
  (if ok then d.jtagUnlock 1 else d).newChal

/-! ### Attestation (R472 to R474) -/

/-- Bytes of a report and of the certificate. -/
def attBytes (mode : Nat) : Nat := if mode = 0 then 50448 else 29920

/-- The identity public key. -/
def Dev.identity (d : Dev) : List Nat := (List.range 64).map fun k => (Config.identityKey d.serial k).toNat

/-- The vendor certificate (R473). -/
def Dev.certificate (d : Dev) : List Nat :=
  [0x57, 0x43, 0x52, 0x54] ++ leBytes 2 1 ++ leBytes 2 0 ++ d.serialBytes ++ d.identity ++ leBytes 4 Config.vendorKeyId.toNat ++
    List.replicate 44 0 ++ (List.range 29792).map fun k => (Config.certSig k).toNat

/-- One image entry of 48 bytes. -/
def ImgEntry.bytes (e : ImgEntry) : List Nat :=
  (e.digest.take 32 ++ List.replicate (32 - e.digest.length) 0) ++ leBytes 4 e.ver ++ [e.arc, e.src] ++ leBytes 2 0 ++
    leBytes 8 ((e.regions.map fun n => 2 ^ n).foldl (· + ·) 0)

/-- The dwords of the security measurement, in R474's order. -/
def Dev.secDwords (d : Dev) : List Word :=
  let r := fun (f : Fld) => d.reg secPg f
  [r SEC.SEC_FUSE, d.secView SEC.SEC_KEYS.off 0] ++ (List.range 8).map (fun k => r (SEC.OPK0_HASH.at k)) ++
    (List.range 8).map (fun k => r (SEC.OPK1_HASH.at k)) ++ [r SEC.TAMPER_CFG, r SEC.DBG_STAT, d.reg stPg STORE.BOOT_CFG,
    d.reg (pg .pcie 0) PCIE.PCIE_CTL, d.reg (pg .slv 0) SLV.SLV_CFG]

/-- The signed part of a report whose build began at device time `t`. -/
def Dev.reportBody (d : Dev) (t : Nat) : List Nat :=
  let fw : Img := ⟨d.sto.bytes, bankBase d.sec.bank⟩
  let sec := Config.shake256 (d.secDwords.flatMap fun w => leBytes 4 w.toNat) 32
  let es := d.sec.entries.flatMap ImgEntry.bytes
  [0x57, 0x41, 0x54, 0x54] ++ leBytes 2 1 ++ leBytes 2 0 ++ d.serialBytes ++ d.hashBytes SEC.ATT_NONCE ++
    leBytes 8 (t / 1000000000 % 2 ^ 48) ++ leBytes 4 (t % 1000000000) ++ leBytes 4 0 ++ fw.digest.take 32 ++ sec ++
    leBytes 4 d.sec.entries.length ++ List.replicate 12 0 ++ es ++ List.replicate (384 - es.length) 0 ++ d.identity

/-- The report: the body and its signature by the identity key. -/
def Dev.report (d : Dev) (t : Nat) : List Nat :=
  let b := d.reportBody t
  b ++ (List.range 49856).map fun k => (Config.identitySig d.serial b k).toNat

/-- Bytes stored in frame memory by endpoint `ep`: whole new bytes, the words they touch no longer poisoned. -/
def Dev.fmStore (d : Dev) (ep a : Nat) (bytes : List Nat) : Dev :=
  d.fmGuard ep a bytes.length fun (e : Dev) =>
    let lo := a / 8
    let hi := (a + bytes.length + 7) / 8
    { e with cw := { e.cw with mem := memStore e.cw.mem a bytes,
                               pois := e.cw.pois.filter fun w => !(decide (lo ≤ w ∧ w < hi)) } }

/-- The endpoint of the supervisor. -/
def supEp : Nat := 6 * 8192

/-- `ATT_DONE`: the report or the copy under way is complete. -/
def Dev.attDone (d : Dev) : Dev :=
  match d.sec.att with
  | none => d
  | some (mode, addr, t) =>
    let d1 := d.fmStore supEp addr (if mode = 0 then d.report t else d.certificate)
    let d2 : Dev := { d1 with sec := { d1.sec with att := none } }
    let d3 := (d2.setF secPg SEC.GO 0).setReg secPg SEC.ATT_STAT (wd (2 ^ 30 + attBytes mode))
    (d3.count secPg SEC.ATT_CNT).raise secPg SEC.E_ATT_DONE

/-! ### `SEC` and `AUTH` registers -/

/-- Cause VALUE: `ATT_CTL.ADDR` not a multiple of 8; a mailbox length outside 28 to 752. -/
def secValueBad (off : Nat) (new : Word) : Bool := decide (off = SEC.ATT_CTL.off ∧ fieldOf SEC.ADDR new % 8 ≠ 0)

/-- Cause BLOCK: an attestation runs, or the range written would pass the end of frame memory. -/
def Dev.secBlocked (d : Dev) (off : Nat) (new : Word) : Bool :=
  decide (off = SEC.ATT_CTL.off) && bitAt new 31 &&
    (d.sec.att.isSome || decide (0x10000000 < fieldOf SEC.ADDR new + attBytes (fieldOf SEC.MODE new)))

/-- A register of the `SEC` page has become live. -/
def Dev.secLive (d : Dev) (off : Nat) (new : Word) : Dev :=
  if off = SEC.ATT_CTL.off then
    if bitAt new 31 ∧ d.sec.att = none then
      ({ d with sec := { d.sec with att := some (fieldOf SEC.MODE new, fieldOf SEC.ADDR new, d.now) } } : Dev).setReg secPg
        SEC.ATT_STAT (wd (2 ^ 31))
    else d
  else if off = SEC.DBG_CTL.off then
    let d1 := if bitAt new 31 then d.newChal else d
    (if bitAt new 30 then d1.jtagLock else d1).setReg secPg SEC.DBG_CTL 0
  else d

/-- Block reset of the `SEC` page; an attestation under way is dropped, the debug challenge stays (DEDUCED: no reset value is
given), and the port of an owned device locks. -/
def Dev.secReset (d : Dev) : Dev :=
  let d1 := ({ d with sec := { d.sec with att := none } } : Dev).resetPage secPg fun o => inArr SEC.DBG_CHAL 8 o
  if d1.owned then d1.setF secPg SEC.UNLOCKED 0 else d1

/-- The `AUTH` page and the sources of its mailboxes. -/
def authPg : Nat := pg .auth 0
def mailboxOk (m : Nat) (src : Source) : Bool :=
  match src with
  | .pcie => decide (m = 0)
  | .ssp => decide (m = 1)
  | .psp => decide (m = 1)
  | _ => false

/-- The mailbox a register of the `AUTH` page belongs to. -/
def mailboxOf (off : Nat) : Nat := if off < 0x100 then (off - 0x40) / 0x10 % 2 else if off < 0x400 then 0 else 1

/-- Cause VALUE: a length outside 28 to 752. -/
def authValueBad (off : Nat) (new : Word) : Bool :=
  inArr AUTH.AUTH_CTL 2 off && !(decide (28 ≤ fieldOf AUTH.LEN new ∧ fieldOf AUTH.LEN new ≤ 752))

/-- Cause BLOCK: a source the mailbox does not serve; the buffer of a running command (R482). -/
def Dev.authBlocked (d : Dev) (src : Source) (off : Nat) : Bool :=
  let m := mailboxOf off
  !(mailboxOk m src) || (decide (0x100 ≤ off) && d.flag authPg (AUTH.BUSY.at m))

/-- `GO` hands the envelope to the supervisor; while `BUSY` is 1 it is ignored (R482). -/
def Dev.authLive (d : Dev) (off : Nat) (new : Word) : Dev :=
  if inArr AUTH.AUTH_CTL 2 off ∧ bitAt new 31 then
    let m := arrIdx AUTH.AUTH_CTL off
    let d1 := d.setF authPg (AUTH.GO.at m) 0
    if d.flag authPg (AUTH.BUSY.at m) then d1 else (d1.setF authPg (AUTH.BUSY.at m) 1).setF authPg (AUTH.DONE.at m) 0
  else d

/-- Block reset of the `AUTH` page: a command already handed over goes on. -/
def Dev.authReset (d : Dev) : Dev := d.resetPage authPg fun o => inArr AUTH.AUTH_STAT 2 o && d.flag authPg (AUTH.BUSY.at (mailboxOf o))

end Sys2Proof.Machine
end

