-- ==== Sys2Proof/Machine/Host.lean ====
section
/-! DEFINITION. The PCIe function, its DMA queues, MSI-X and the host rings (R438 to R453), and the Brizel link's framing and
NOTICE frames (R454 to R458). What reads or writes registers over a link stands with the accesses. -/

namespace Sys2Proof.Machine

/-- The pages of the links. -/
def pciPg : Nat := pg .pcie 0
def ntcPg : Nat := pg .ntc 0
def blkPg : Nat := pg .blk 0
def slvPg : Nat := pg .slv 0

/-! ### MSI-X (R438, R453) -/

/-- A dword of the MSI-X table: an unlisted vector is masked. -/
def Dev.msixWord (d : Dev) (k : Nat) : Word := (Tab.get d.hs.msix k).getD (if k % 4 = 3 then 1 else 0)

/-- A vector's message can be sent. -/
def Dev.msixOpen (d : Dev) (v : Nat) : Bool := d.hs.msixOn && !d.hs.msixMask && !(bitAt (d.msixWord (4 * v + 3)) 0)

/-- Raise a vector: its message, or its pending bit. -/
def Dev.raiseVector (d : Dev) (v : Nat) : Dev :=
  if d.msixOpen v then d.send (.msix v)
  else if d.hs.pba.contains v then d else { d with hs := { d.hs with pba := d.hs.pba ++ [v] } }

/-- Pending vectors that have become unmasked are sent. -/
def Dev.msixFlush (d : Dev) : Dev :=
  d.hs.pba.foldl (fun (e : Dev) v =>
    if e.msixOpen v then ({ e with hs := { e.hs with pba := e.hs.pba.filter fun x => decide (x ≠ v) } } : Dev).send (.msix v) else e) d

/-- A write of the MSI-X table. -/
def Dev.msixWrite (d : Dev) (k : Nat) (v : Word) : Dev :=
  ({ d with hs := { d.hs with msix := Tab.put d.hs.msix k (if k % 4 = 3 then v &&& 1 else v) (if k % 4 = 3 then 1 else 0) } } : Dev).msixFlush

/-- A write of the MSI-X control of the configuration space: enable and function mask. -/
def Dev.msixControl (d : Dev) (on mask : Bool) : Dev :=
  ({ d with hs := { d.hs with msixOn := on, msixMask := mask } } : Dev).msixFlush

/-! ### DMA queues (R440 to R443) -/

/-- A queue. -/
def Dev.dmaQ (d : Dev) (q : Nat) : DmaQ := (Tab.get d.hs.dma q).getD DmaQ.init

/-- Store a queue. -/
def Dev.setDmaQ (d : Dev) (q : Nat) (x : DmaQ) : Dev := { d with hs := { d.hs with dma := Tab.put d.hs.dma q x DmaQ.init } }

/-- Offsets in a queue block. -/
def qSQLO : Nat := 0x00
def qCQLO : Nat := 0x08
def qCQHI : Nat := 0x0C
def qCFG : Nat := 0x10
def qSQT : Nat := 0x14
def qSQH : Nat := 0x18
def qCQH : Nat := 0x1C
def qCQT : Nat := 0x20
def qNOBUF : Nat := 0x28

/-- A register of the queue block of queue `q`; `VECTOR` resets to `q`. -/
def DmaQ.reg (x : DmaQ) (q off : Nat) : Word := (Tab.get x.regs off).getD (if off = qCFG then wd q else 0)
def DmaQ.set (x : DmaQ) (off : Nat) (v : Word) : DmaQ := { x with regs := Tab.ins x.regs off v }

/-- Fields of `Q_CFG`. -/
def DmaQ.on (x : DmaQ) : Bool := bitAt (x.reg 0 qCFG) 31
def DmaQ.packet (x : DmaQ) : Bool := bitAt (x.reg 0 qCFG) 16
def DmaQ.size (x : DmaQ) : Nat := 2 ^ bitsOf (x.reg 0 qCFG) 27 24

/-- An index of the queue block. -/
def DmaQ.idx (x : DmaQ) (off : Nat) : Nat := (x.reg 0 off).toNat

/-- The completion ring has room. -/
def DmaQ.room (x : DmaQ) : Bool := decide ((x.idx qCQT + 1) % x.size ≠ x.idx qCQH % x.size)

/-- A completion record is written: the phase inverts on each wrap; `IRQ` raises the vector. -/
def Dev.cqWrite (d : Dev) (q : Nat) (rec : List Word) (irq : Bool) : Dev :=
  let x := d.dmaQ q
  let t := x.idx qCQT
  let base := (x.reg q qCQHI).toNat * 2 ^ 32 + (x.reg q qCQLO).toNat
  let w0 := rec.headD 0 ||| (if x.phase then 0x80000000 else 0)
  let n := (t + 1) % x.size
  let y := { x.set qCQT (wd n) with phase := if n = 0 then !x.phase else x.phase }
  let d1 := (d.setDmaQ q y).send (.hostWrite (base + 32 * t) (w0 :: rec.tail))
  if irq then d1.raiseVector (bitsOf (x.reg q qCFG) 5 0) else d1

/-- Waiting completion records go out while the ring has room; `fuel` bounds their number. -/
def Dev.cqDrain (d : Dev) (q : Nat) : Nat → Dev
  | 0 => d
  | fuel + 1 =>
    let x := d.dmaQ q
    match x.pend with
    | [] => d
    | (r, irq) :: t => if x.room then ((d.setDmaQ q { x with pend := t }).cqWrite q r irq).cqDrain q fuel else d

/-- The device fetches what has been submitted unless completion records wait. -/
def Dev.sqFetch (d : Dev) (q : Nat) : Dev :=
  let x := d.dmaQ q
  if x.on && x.pend.isEmpty then
    d.setDmaQ q { x.set qSQH (x.reg q qSQT) with work := x.work ++ x.rung, rung := [] }
  else d

/-- A completion record (R441): status, tag, bytes, and of a received frame its timestamp and port. -/
def cqRecord (status tag done : Nat) (frame : Option HostFrame) : List Word :=
  let st := match frame with | some f => f.stamp | none => none
  let port := match frame with | some f => f.port | none => 0
  [wd (status * 65536 + tag), wd done] ++
    (match st with | some t => [nsWord t, secWord t, wd (2 ^ 31 + port * 256)] | none => [0, 0, wd (port * 256)]) ++ [0, 0, 0]

/-- A descriptor has ended; an error status raises `DMA_ERR`. -/
def Dev.descEnd (d : Dev) (q : Nat) (c : Desc) (status done : Nat) (frame : Option HostFrame) : Dev :=
  let x := d.dmaQ q
  let d1 := (d.setDmaQ q { x with pend := x.pend ++ [(cqRecord status c.tag done frame, c.irq)] }).cqDrain q 8192
  if status = 0 ∨ status = 1 ∨ status = 3 ∨ status = 6 then d1
  else d1.raise pciPg PCIE.E_DMA_ERR (wd (status * 65536 + q))

/-- The queue stops: unfinished descriptors end ABORTED. -/
def Dev.dmaStop (d : Dev) (q : Nat) : Dev :=
  let x := d.dmaQ q
  let l := x.work ++ x.rung
  let d1 := d.setDmaQ q { x.set qSQH (x.reg q qSQT) with work := [], rung := [] }
  l.foldl (fun (e : Dev) c => e.descEnd q c 5 0 none) d1

/-- The writable bits of `Q_CFG`. -/
def qcfgMask : Word := 0x8F01003F

/-- `Q_CFG_WRITE`. -/
def Dev.qCfgWrite (d : Dev) (q : Nat) (v : Word) : Dev :=
  let x := d.dmaQ q
  let w := v &&& qcfgMask
  let l := bitsOf w 27 24
  if x.on then
    if bitAt v 31 then d
    else
      let d1 := d.dmaStop q
      d1.setDmaQ q ((d1.dmaQ q).set qCFG w)
  else d.setDmaQ q (x.set qCFG (if l < 4 ∨ 12 < l then w &&& 0x7FFFFFFF else w))

/-- A write of a ring base: 64-byte aligned, ignored while the queue is enabled. -/
def Dev.qBaseWrite (d : Dev) (q off : Nat) (v : Word) : Dev :=
  let x := d.dmaQ q
  if x.on then d else d.setDmaQ q (x.set off (if off = qSQLO ∨ off = qCQLO then v &&& 0xFFFFFFC0 else v))

/-- `SQ_DOORBELL`: the index one past the last descriptor written; `ds` is what the ring holds from the old index on. -/
def Dev.sqDoorbell (d : Dev) (q : Nat) (v : Word) (ds : List Desc) : Dev :=
  let x := d.dmaQ q
  if x.on then
    let old := x.idx qSQT
    let n := (v.toNat + x.size - old % x.size) % x.size
    let new := (List.range n).map fun k => ds.getD k ⟨0, false, 0, 0, 0, 0, 0⟩
    (d.setDmaQ q { x.set qSQT (wd (v.toNat % x.size)) with rung := x.rung ++ new }).sqFetch q
  else d.setDmaQ q (x.set qSQT v)

/-- `CQ_HEAD_WRITE`: room for completion records that wait; fetching resumes. -/
def Dev.cqHeadWrite (d : Dev) (q : Nat) (v : Word) : Dev :=
  let x := d.dmaQ q
  ((d.setDmaQ q (x.set qCQH (if x.on then wd (v.toNat % x.size) else v))).cqDrain q 8192).sqFetch q

/-- Words of a byte list, little-endian. -/
def wordsOf (l : List Nat) : List Word := (List.range ((l.length + 3) / 4)).map fun k => wd (leNum ((l.drop (4 * k)).take 4))

/-- A range of frame memory passes its end or meets a protected buffer (R442). -/
def Dev.dmaBad (d : Dev) (a n : Nat) : Bool := decide (0x10000000 < a + n) || (d.bufHit false a n).isSome

/-- A poisoned word stands in a range of frame memory. -/
def Dev.poisIn (d : Dev) (a n : Nat) : Bool := d.cw.pois.any fun w => decide (a / 8 ≤ w ∧ w < (a + n + 7) / 8 ∧ 0 < n)

/-- Bytes read from frame memory; those of poisoned words read zero. -/
def Dev.fmLoad (d : Dev) (a n : Nat) : List Nat :=
  (List.range n).map fun k => if d.fmPois (a + k) then 0 else (memGet d.cw.mem (a + k)).toNat

/-- Copy within frame memory: poison goes with the words that lie alike, and marks every word it touches otherwise. -/
def Dev.fmCopy (d : Dev) (ep a b n : Nat) : Dev :=
  let src := d.cw.pois.filter fun w => decide (a / 8 ≤ w ∧ w < (a + n + 7) / 8 ∧ 0 < n)
  let d1 := d.fmStore ep b (d.fmLoad a n)
  src.foldl (fun (e : Dev) w =>
    let lo := Nat.max (8 * w) a
    let hi := Nat.min (8 * w + 8) (a + n)
    let e1 := e.fmSetPois ((b + (lo - a)) / 8 * 8) true
    e1.fmSetPois ((b + (hi - 1 - a)) / 8 * 8) true) d1

/-- Operations 0 to 2: `host` is what the host memory holds, `err` the byte at which the host answered with an error. -/
def Dev.dmaMemory (d : Dev) (q : Nat) (c : Desc) (host : List Nat) (err : Option Nat) : Dev :=
  let ep := 5 * 8192 + q
  let n := match err with | some k => Nat.min k c.len | none => c.len
  let st := fun (pois : Bool) => if err.isSome then 2 else if pois then 1 else 0
  if c.op = 0 then
    let bytes := (List.range n).map fun k => host.getD k 0
    (d.fmStore ep c.faddr bytes).descEnd q c (st false) n none
  else if c.op = 1 then
    let m := d.fmLoad c.faddr n
    (d.send (.hostWrite c.haddr (wordsOf m))).descEnd q c (st (d.poisIn c.faddr n)) n none
  else (d.fmCopy ep c.faddr c.fdst c.len).descEnd q c (if d.poisIn c.faddr c.len then 1 else 0) c.len none

/-- Operation 3: a frame to send. -/
def Dev.dmaTransmit (d : Dev) (q : Nat) (c : Desc) (host : List Nat) (err : Option Nat) : Dev :=
  let port := c.faddr % 64
  if d.st (ethPg port) ≠ 3 then d.descEnd q c 7 0 none
  else if d.fld (ethPg port) ETH.MTU < c.len then d.descEnd q c 6 0 none
  else
    match err with
    | some k => d.descEnd q c 2 (Nat.min k c.len) none
    | none =>
      let bytes := (List.range c.len).map fun k => host.getD k 0
      ({ d with hs := { d.hs with txq := d.hs.txq ++ [(port, bytes)] } } : Dev).descEnd q c 0 c.len none

/-- Operation 4: the oldest frame for the queue fills the buffer. -/
def Dev.dmaReceive (d : Dev) (q : Nat) (c : Desc) (f : HostFrame) (err : Option Nat) : Dev :=
  let n := f.bytes.length
  if c.len < n then d.descEnd q c 6 n (some f)
  else
    let k := match err with | some k => Nat.min k n | none => n
    (d.send (.hostWrite c.haddr (wordsOf (f.bytes.take k)))).descEnd q c (if err.isSome then 2 else 0) k (some f)

/-- The descriptor's operation is one of its queue's kind. -/
def descLegal (packet : Bool) (c : Desc) : Bool := if packet then decide (c.op = 3 ∨ c.op = 4) else decide (c.op ≤ 2)

/-- A memory operation's ranges are bad. -/
def Dev.descBad (d : Dev) (c : Desc) : Bool :=
  decide (c.op ≤ 2) && (d.dmaBad c.faddr c.len || (decide (c.op = 2) && d.dmaBad c.fdst c.len))

/-- `DMA_DESCRIPTOR_DONE`: the oldest descriptor of a queue ends with the first status of R442 that applies; a receive buffer
ends when a frame has arrived for it. -/
def Dev.dmaDone (d : Dev) (q : Nat) (host : List Nat) (err : Option Nat) : Dev :=
  let x := d.dmaQ q
  match x.work with
  | [] => d
  | c :: t =>
    if x.on && x.pend.isEmpty then
      let d1 := d.setDmaQ q { x with work := t }
      if !(descLegal x.packet c) then d1.descEnd q c 4 0 none
      else if d1.descBad c then d1.descEnd q c 3 0 none
      else if c.op ≤ 2 then d1.dmaMemory q c host err
      else if c.op = 3 then d1.dmaTransmit q c host err
      else
        match d.md.hostq.find? fun y => decide (y.1 = q) with
        | some y => ({ d1 with md := { d1.md with hostq := d1.md.hostq.erase y } } : Dev).dmaReceive q c y.2 err
        | none => d
    else d

/-- Receive buffers a queue has posted. -/
def Dev.posted (d : Dev) (q : Nat) : Nat :=
  let x := d.dmaQ q
  if x.on && x.packet then (x.work.filter fun c => decide (c.op = 4)).length else 0

/-- Frames for queues with no buffer posted are discarded and counted (R443). -/
def Dev.hostqTrim (d : Dev) : Dev :=
  let keep := d.md.hostq.foldl (fun (k : List (Nat × HostFrame)) y =>
    if (k.filter fun z => decide (z.1 = y.1)).length < d.posted y.1 then k ++ [y] else k) []
  let lost := fun (q : Nat) => (d.md.hostq.filter fun y => decide (y.1 = q)).length - (keep.filter fun y => decide (y.1 = q)).length
  let d1 : Dev := { d with md := { d.md with hostq := keep } }
  (List.range 16).foldl (fun (e : Dev) q =>
    if lost q = 0 then e
    else
      let x := e.dmaQ q
      e.setDmaQ q (x.set qNOBUF (bump (x.reg q qNOBUF) (lost q)).1)) d1

/-- A BAR4 dword as the host reads it. -/
def Dev.bar4Read (d : Dev) (a : Nat) : Word :=
  if a < 0x10000 then (let q := a / 0x1000; (d.dmaQ q).reg q (a % 0x1000))
  else if 0x80000 ≤ a ∧ a < 0x80400 then d.msixWord ((a - 0x80000) / 4)
  else if 0x81000 ≤ a ∧ a < 0x81008 then
    wd ((d.hs.pba.map fun v => if v / 32 = (a - 0x81000) / 4 then 2 ^ (v % 32) else 0).foldl (· + ·) 0)
  else 0

/-- A BAR4 write by the host. -/
def Dev.bar4Write (d : Dev) (a : Nat) (v : Word) : Dev :=
  let q := a / 0x1000
  let o := a % 0x1000
  if a < 0x10000 then
    if o < 0x10 then d.qBaseWrite q o v
    else if o = qCFG then d.qCfgWrite q v
    else if o = qSQT then d.sqDoorbell q v []
    else if o = qCQH then d.cqHeadWrite q v
    else d
  else if 0x80000 ≤ a ∧ a < 0x80400 then d.msixWrite ((a - 0x80000) / 4) v
  else d

/-! ### The link and host resets (R439, R444, R446) -/

/-- The host-facing state resets (R444); with `link` the link's own status is kept, as at an FLR. -/
def Dev.hostReset (d : Dev) (link : Bool) : Dev :=
  let d1 : Dev := { d with hs := HostSt.init, md := { d.md with hostq := [] } }
  let keep := fun o => decide (0x60 ≤ o ∧ o < 0x74) || decide (o = HDR.REFUSE_CNT.off) || (link && decide (o = PCIE.PCIE_STAT.off))
  let d2 := d1.resetPage pciPg keep
  (List.range 4).foldl (fun (e : Dev) q =>
    let e1 := ((e.setF ntcPg (NTC.RING_EN.at q) 0).setReg ntcPg (NTC.NQ_HEAD.at q) 0).setReg ntcPg (NTC.NQ_TAIL.at q) 0
    e1.setQueue q { e1.queue q with irqCount := 0, irqSince := none }) d2

/-- `HOST_RESET`: word 4 tells PERST_N, FLR or link loss. -/
def Dev.hostResetDone (d : Dev) (why : Nat) : Dev := d.raise pciPg PCIE.E_HOST_RESET (wd (2 ^ why))

/-- `PCIE_LINK_DOWN`. -/
def Dev.pcieDown (d : Dev) : Dev :=
  if d.flag pciPg PCIE.LINK_UP then
    let d1 := (d.setF pciPg PCIE.LINK_UP 0).count pciPg PCIE.LINK_DOWN_CNT
    (((d1.raise pciPg PCIE.E_PCIE_LINK_DOWN).hostReset false)).hostResetDone 2
  else d

/-- `PCIE_LINK_UP` at a generation and width. -/
def Dev.pcieUp (d : Dev) (gen width : Nat) : Dev :=
  if d.flag pciPg PCIE.LINK_UP then d
  else
    let d1 := (d.setReg pciPg PCIE.PCIE_STAT (wd (2 ^ 31 + gen * 2 ^ 24 + width * 65536))).raise pciPg PCIE.E_PCIE_LINK_UP
    if gen = 5 ∧ width = 8 then d1 else d1.raise pciPg PCIE.E_PCIE_DEGRADED

/-! ### Host rings (R447 to R453) -/

/-- The dwords of a record (R447) and of a NOTICE_LOST record (R451) of queue `q` for destination `dst` (0 host, 1 Brizel). -/
def QEnt.words (e : QEnt) (q dst : Nat) : List Word :=
  match e with
  | .record n => [wd (n.code * 65536 + n.sev * 4096 + n.queue * 256 + n.seq % 256), wd n.page, wd n.sec, wd n.ns, n.w4, n.w5, n.w6, n.w7]
  | .lost c first sec ns => [wd (65536 + 4096 + q * 256 + first % 256), wd ntcPg, wd sec, wd ns, wd c, wd first, wd dst, 0]

/-- The record's severity. -/
def QEnt.sev : QEnt → Nat
  | .record n => n.sev
  | .lost .. => 1

/-- The ring of a queue has room. -/
def Dev.ringSize (d : Dev) (q : Nat) : Nat := 2 ^ d.fld ntcPg (NTC.LOG2.at q)
def Dev.ringRoom (d : Dev) (q : Nat) : Bool :=
  decide ((d.fld ntcPg (NTC.NQ_HEAD_INDEX.at q) + 1) % d.ringSize q ≠ d.fld ntcPg (NTC.NQ_TAIL_INDEX.at q) % d.ringSize q)

/-- The queue raises its vector; both conditions start again. -/
def Dev.queueRaise (d : Dev) (q : Nat) : Dev :=
  (d.setQueue q { d.queue q with irqCount := 0, irqSince := none }).raiseVector (d.fld ntcPg (NTC.VECTOR.at q))

/-- `NOTICE_RING_WRITE`: the next record goes to the ring, then the head index to its write-back address. -/
def Dev.ringWrite (d : Dev) (q : Nat) : Dev :=
  let x := d.queue q
  match x.host with
  | [] => d
  | e :: t =>
    if d.flag ntcPg (NTC.RING_EN.at q) && d.ringRoom q then
      let addr := fun (lo hi : Fld) => (d.reg ntcPg (hi.at q)).toNat * 2 ^ 32 + (d.reg ntcPg (lo.at q)).toNat
      let h := d.fld ntcPg (NTC.NQ_HEAD_INDEX.at q)
      let n := (h + 1) % d.ringSize q
      let d1 := d.setQueue q { x with host := t, irqCount := x.irqCount + 1, irqSince := some (x.irqSince.getD d.mono) }
      let d2 := (d1.send (.hostWrite (addr NTC.NQ_BASE_LO NTC.NQ_BASE_HI + 32 * h) (e.words q 0))).setReg ntcPg (NTC.NQ_HEAD.at q) (wd n)
      let d3 := d2.send (.hostWrite (addr NTC.NQ_HWB_LO NTC.NQ_HWB_HI) [wd n])
      if e.sev = 3 ∨ d.fld ntcPg (NTC.COAL_CNT.at q) ≤ x.irqCount + 1 then d3.queueRaise q else d3
    else d

/-- `MSIX_COALESCE_TIMEOUT`: `COAL_US` µs after the first record since the last interrupt. -/
def Dev.coalesce (d : Dev) (q : Nat) : Dev :=
  let us := d.fld ntcPg (NTC.COAL_US.at q)
  match (d.queue q).irqSince with
  | some t => if us = 0 then d else (d.pass (t + us * 1000 - d.mono)).queueRaise q
  | none => d

/-- The place of a register of an `NTC` queue block. -/
def ntcQueue (off : Nat) : Nat := (off - 0x80) / 0x40
def ntcReg (off : Nat) : Nat := if 0x80 ≤ off ∧ off < 0x180 then (off - 0x80) % 0x40 else 0x3C

/-- Cause VALUE (R452, `NQ_CFG`). -/
def Dev.ntcValueBad (d : Dev) (off : Nat) (new : Word) : Bool :=
  let q := ntcQueue off
  let r := ntcReg off
  if r = 0x10 then decide (q ≤ 1 ∧ fieldOf NTC.DEST new = 0)
  else if r = 0x1C then
    let n := d.ringSize q
    let t := d.fld ntcPg (NTC.NQ_TAIL_INDEX.at q)
    let h := d.fld ntcPg (NTC.NQ_HEAD_INDEX.at q)
    let v := fieldOf NTC.NQ_TAIL_INDEX new
    decide (n ≤ v ∨ (h + n - t % n) % n < (v + n - t % n) % n)
  else false

/-- Cause BLOCK: addresses and size of a ring in use. -/
def Dev.ntcBlocked (d : Dev) (off : Nat) (old new : Word) : Bool :=
  let r := ntcReg off
  if r < 0x10 then d.flag ntcPg (NTC.RING_EN.at (ntcQueue off))
  else if r = 0x10 then bitAt old 31 && bitAt new 31 && fieldChanged NTC.LOG2 old new
  else false

/-- Block reset of the `NTC` page: records go on waiting. -/
def Dev.ntcReset (d : Dev) : Dev :=
  (List.range 4).foldl (fun (e : Dev) q => e.setQueue q { e.queue q with irqCount := 0, irqSince := none })
    (d.resetPage ntcPg fun _ => false)

/-! ### Brizel frames (R454 to R458) -/

/-- The link is synchronised. -/
def Dev.synced (d : Dev) : Bool := d.flag blkPg BLK.SYNC

/-- A frame leaves. -/
def Dev.brzFrame (d : Dev) (ty chan seq : Nat) (payload : List Nat) : Dev := d.send (.brizel ty chan seq payload)

/-- Credits the manager holds on a channel. -/
def Dev.credit (d : Dev) (c : Nat) : Nat := (Tab.get d.bz.credit c).getD 0
def Dev.setCredit (d : Dev) (c n : Nat) : Dev := { d with bz := { d.bz with credit := Tab.put d.bz.credit c n 0 } }

/-- A receive buffer is free again: one CREDIT. -/
def Dev.freeBuf (d : Dev) (c : Nat) : Dev := (d.setCredit c (d.credit c + 1)).brzFrame 6 c 0 [1]

/-- The link is lost. -/
def Dev.blkLose (d : Dev) : Dev :=
  if d.synced then
    (({ d with bz := { d.bz with bad := 0, polls := [] } } : Dev).setReg blkPg BLK.BLK_STAT 0).raise blkPg BLK.E_BLK_LOST
  else d

/-- `BRIZEL_BREAK`: after a break the rate is taken from the next 0x00 byte; the link synchronises. -/
def Dev.brzBreak (d : Dev) (baud : Nat) : Dev :=
  let d1 := d.blkLose
  if 115200 ≤ baud ∧ baud ≤ 25000000 then
    let d2 := (d1.setReg blkPg BLK.BLK_STAT (wd (2 ^ 31 + baud))).setF blkPg BLK.WINDOW 0
    let d3 : Dev := { d2 with bz := { d2.bz with last := [], bad := 0, polls := [] } }
    (List.range 4).foldl (fun (e : Dev) c => (e.setCredit c 4).brzFrame 6 c 0 [4]) (d3.raise blkPg BLK.E_BLK_SYNC)
  else d1

/-- A frame is rejected with NAK; the 16th in a row loses the link (R454, R456). -/
def Dev.brzNak (d : Dev) (chan seq cause : Nat) : Dev :=
  let d1 := (d.brzFrame 5 chan seq [cause]).count blkPg BLK.NAK_TX_CNT
  let d2 := if cause = 1 then d1.count blkPg BLK.CRC_ERR_CNT else d1
  let d3 : Dev := { d2 with bz := { d2.bz with bad := d2.bz.bad + 1 } }
  if 16 ≤ d3.bz.bad then d3.blkLose else d3

/-- `BRIZEL_FRAME_REJECT`: channel and `SEQ` as far as they could be read. -/
def Dev.brzReject (d : Dev) (chan : Nat) (seq : Option Nat) (cause : Nat) : Dev :=
  if d.synced then d.brzNak chan (seq.getD 0xFFFF) cause else d

/-- A frame has been accepted. -/
def Dev.brzGood (d : Dev) : Dev := { d with bz := { d.bz with bad := 0 } }

/-- The RSP to a command, kept for a retry while the command is the channel's last. -/
def Dev.brzRsp (d : Dev) (c seq : Nat) (payload : List Nat) : Dev :=
  let keep := match Tab.get d.bz.last c with | some x => decide (x.1 = seq) | none => false
  let d1 : Dev := if keep then { d with bz := { d.bz with last := Tab.ins d.bz.last c (seq, payload) } } else d
  (d1.brzFrame 2 c seq payload).freeBuf c

/-- A CMD or AUTHCMD frame (R456): channel, credit, then `SEQ`; the command itself runs when both hold, and answers when it has a
payload for its RSP. -/
def Dev.brzCmd (d : Dev) (c seq : Nat) (f : Dev → Dev × Option (List Nat)) : Dev :=
  if d.synced then
    if 3 < c then d.brzNak c seq 6
    else if d.credit c = 0 then d.brzNak c seq 5
    else
      let d1 := (d.brzGood).setCredit c (d.credit c - 1)
      let run := fun (e : Dev) =>
        let r := f { e with bz := { e.bz with last := Tab.ins e.bz.last c (seq, []) } }
        match r.2 with
        | some p => r.1.brzRsp c seq p
        | none => r.1
      match Tab.get d1.bz.last c with
      | none => run d1
      | some x =>
        if x.1 = seq then (if x.2 = [] then d1 else (d1.count blkPg BLK.RESEND_CNT).brzFrame 2 c seq x.2).freeBuf c
        else if (x.1 + 1) % 65536 = seq then run d1
        else (d.brzNak c seq 4)
  else d

/-- The header of an RSP (R459). -/
def rspHead (status count : Nat) : List Nat := [status, 0] ++ leBytes 2 count

/-- NOTICE frames not acknowledged. -/
def Dev.setFlight (d : Dev) (l : List (InFlight × Nat)) : Dev :=
  ({ d with bz := { d.bz with flight := l } } : Dev).setF blkPg BLK.IN_FLIGHT l.length

/-- The coalescing condition of R453 for the Brizel link, with the elapsed time at which it holds. -/
def Dev.brzReady (d : Dev) (q : Nat) : Option Nat :=
  let x := d.queue q
  let us := d.fld ntcPg (NTC.COAL_US.at q)
  if x.briz = [] then none
  else if d.fld ntcPg (NTC.COAL_CNT.at q) ≤ x.briz.length ∨ x.briz.any (fun e => decide (e.sev = 3)) = true then some d.mono
  else if us = 0 then none
  else some (x.brizSince.getD d.mono + us * 1000)

/-- `NOTICE_FRAME_SEND`: up to 128 records of a queue. -/
def Dev.noticeSend (d : Dev) (q : Nat) : Dev :=
  match d.brzReady q with
  | none => d
  | some t =>
    if d.synced ∧ d.bz.flight.length < d.fld blkPg BLK.WINDOW then
      let d1 := d.pass (t - d.mono)
      let x := d1.queue q
      let now := x.briz.take 128
      let rest := x.briz.drop 128
      let d2 := d1.setQueue q { x with briz := rest, brizSince := if rest = [] then none else some d1.mono }
      let n := d2.bz.nseq
      let d3 : Dev := { d2 with bz := { d2.bz with nseq := (n + 1) % 65536 } }
      (d3.setFlight (d3.bz.flight ++ [(⟨n, q, now, 1⟩, d3.mono)])).send (.brizelNotice n now)
    else d

/-- The sequence number and number of records of an entry. -/
def QEnt.first : QEnt → Nat
  | .record n => n.seq
  | .lost _ f _ _ => f
def QEnt.num : QEnt → Nat
  | .record _ => 1
  | .lost c .. => c

/-- The records of a NOTICE frame given up after 8 sends count as lost, and a NOTICE_LOST takes their place (R451, R458). -/
def Dev.noticeLost (d : Dev) (x : InFlight) : Dev :=
  let n := (x.recs.filter fun e => match e with | .record _ => true | .lost .. => false).length
  let all := (x.recs.map QEnt.num).foldl (· + ·) 0
  let q := d.queue x.queue
  let mark := QEnt.lost (Nat.min all 0xFFFFFFFF) ((x.recs.head?.map QEnt.first).getD 0) (d.now / 1000000000 % 2 ^ 32) (d.now % 1000000000)
  (d.setQueue x.queue { q with briz := mark :: q.briz, brizSince := some (q.brizSince.getD d.mono) }).count ntcPg
    (NTC.NQ_LOST_B_CNT.at x.queue) n

/-- A NOTICE frame goes out again with the same `SEQ`, or is given up after 8 sends. -/
def Dev.noticeAgain (d : Dev) (x : InFlight × Nat) : Dev :=
  if 8 ≤ x.1.sends then (d.setFlight (d.bz.flight.filter fun y => decide (y.1.seq ≠ x.1.seq))).noticeLost x.1
  else
    let y := ({ x.1 with sends := x.1.sends + 1 }, d.mono)
    ((d.setFlight (d.bz.flight.map fun z => if z.1.seq = x.1.seq then y else z)).count blkPg BLK.RESEND_CNT).send
      (.brizelNotice x.1.seq x.1.recs)

/-- A NOTICE frame in flight by its `SEQ`. -/
def Dev.inFlight (d : Dev) (seq : Nat) : Option (InFlight × Nat) := d.bz.flight.find? fun x => decide (x.1.seq = seq)

/-- `NOTICE_RESEND`: `RETX_MS` after the last send. -/
def Dev.noticeResend (d : Dev) (seq : Nat) : Dev :=
  match d.inFlight seq with
  | some x => if d.synced then (d.pass (x.2 + d.fld blkPg BLK.RETX_MS * 1000000 - d.mono)).noticeAgain x else d
  | none => d

/-- `ACK`, `NAK` and `CREDIT` from the manager on the NOTICE channel. -/
def Dev.brzAck (d : Dev) (seq : Nat) : Dev :=
  if d.synced then d.brzGood.setFlight (d.bz.flight.filter fun x => decide (x.1.seq ≠ seq)) else d
def Dev.brzNakRx (d : Dev) (seq : Nat) : Dev :=
  if d.synced then
    let d1 := d.brzGood.count blkPg BLK.NAK_RX_CNT
    match d1.inFlight seq with
    | some x => d1.noticeAgain x
    | none => d1
  else d
def Dev.brzCredit (d : Dev) (chan n : Nat) : Dev :=
  if d.synced then (if chan = 0x80 then d.brzGood.setF blkPg BLK.WINDOW n else d.brzGood) else d

/-- Block reset of the `BLK` page: synchronisation, window and frames in flight are the link's. -/
def Dev.blkReset (d : Dev) : Dev :=
  let w := d.reg blkPg BLK.BLK_CFG
  let d1 := d.resetPage blkPg fun o => decide (o = BLK.BLK_STAT.off)
  (d1.setF blkPg BLK.WINDOW (fieldOf BLK.WINDOW w)).setF blkPg BLK.IN_FLIGHT (fieldOf BLK.IN_FLIGHT w)


end Sys2Proof.Machine
end

