-- ==== Sys2Proof/Machine/Rotation.lean ====
section
/-! DEFINITION. Lay-by rotation, calibration and repair of slices (chapter 6): the commands of the lay-by and the phases of
slice handovers. -/

namespace Sys2Proof.Machine

/-! ### Starting a handover -/

/-- The supervisor opens, binds and checks a slot for a slice handover in one operation, when the group's page is
unbound and clean and a slot is free (R173, R174). -/
def Dev.rotBind (d : Dev) (g : Nat) (job : Job) (instant : Nat) : Option Dev :=
  let p := pg .pgrp g
  if d.unbound p ∧ d.reg p HDR.STAGE_DIRTY = 0 then
    match d.freeSvcSlot with
    | some m => some (d.svcArm m job [p] instant)
    | none => none
  else none

/-- Time of index `n` on the grid a handover of kind `kind` counts on. -/
def Dev.hoTime (d : Dev) (i kind n : Nat) : Nat := if kind = 1 then d.wordTime i n else d.sampTime i n

/-- Arm, or defer when the page or a slot is not free (R174). `n` is the index of the instant, `t` its time. -/
def Dev.rotArm (d : Dev) (g : Nat) (r : Rot) (n t : Nat) : Dev :=
  let p := pg .pgrp g
  match d.rotBind g (.slice (g * 9 + r.port) r.kind false) t with
  | some e =>
    let e1 := ((e.setF p PGRP.PHASE 4).setF p PGRP.DEFERRED 0)
    e1.setGroup g { e1.group g with rot := some { r with phase := 4, instant := n, defer := none } }
  | none =>
    let e := d.setF p PGRP.DEFERRED 1
    e.setGroup g { e.group g with rot := some { r with defer := some (r.defer.getD d.mono), result := r.result + 64 } }

/-- `ARM_LEAD` of a group. -/
def Dev.armLead (d : Dev) (g : Nat) : Nat := d.fld (pg .pgrp g) PGRP.ARM_LEAD

/-- A rotation handover of port index `k` starts: `old` is the serving slice, `new` the incoming one (R170, R171, R176,
R180). -/
def Dev.rotStart (d : Dev) (g k old new kind : Nat) : Dev :=
  let p := pg .pgrp g
  let i := g * 9 + k
  let q := portPg i
  let stopped := decide (d.st q = 1)
  let d1 := (d.connect g new 4 k).setF p (PGRP.STATE.at old) 5
  let d2 := if d.isLoop i then d1 else d1.setF q PORT.SLICE_B new
  let d3 := ((((d2.setF p PGRP.PHASE 1).setF p PGRP.ROT_STAT_KIND kind).setF p PGRP.ROT_STAT_PORT k).setF p PGRP.OLD old).setF p
    PGRP.NEW new
  let start := if kind = 1 then d.wordAt i (edgeTime (d.grpRate i) (edgeAt (d.grpRate i) d.now)) else d.sampAt i d.now
  let result := if kind = 1 then start + presetO (d.fld q PORT.PRESET) + 8 else start + 136
  let r : Rot := ⟨k, old, new, kind, stopped, 1, start, result, none, 0, none, 960, false⟩
  let d4 := d3.setGroup g { d3.group g with
    rot := some r, dueAt := d.mono + d.fld p PGRP.ROT_PERIOD * 100000000, waits := false,
    urgent := if (d3.group g).urgent = some (k, old) then none else (d3.group g).urgent }
  let d5 := d4.refreshGroup g
  if stopped then
    let rate := if kind = 1 then d.capRate i else d.outRate i
    d5.rotArm g r 0 (edgeTime rate (edgeAt rate d.now + d.armLead g))
  else d5

/-- The serving slices of a group that rotation may take: port index, slice, kind; by port, the ADC slice of a LOOP port
first (R170, R171). -/
def Dev.rotCands (d : Dev) (g : Nat) : List (Nat × Nat × Nat) :=
  (List.range 9).flatMap fun k =>
    let i := g * 9 + k
    let q := portPg i
    let busy := (d.group g).reps.any fun r => decide (r.port = k)
    if (d.st q = 1 ∨ d.st q = 3) ∧ !busy then
      let a := d.fld q PORT.SLICE_A
      let b := d.fld q PORT.SLICE_B
      (if a < 10 then [(k, a, if d.flag q PORT.DIR then 2 else 1)] else []) ++
        (if d.isLoop i ∧ b < 10 then [(k, b, 2)] else [])
    else []

/-- The candidate with the largest `AGE`, the first among equals. -/
def Dev.rotOldest (d : Dev) (g : Nat) : Option (Nat × Nat × Nat) :=
  (d.rotCands g).foldl (fun best c =>
    match best with
    | none => some c
    | some b => if d.sliceAge g b.2.1 < d.sliceAge g c.2.1 then some c else some b) none

/-- No rotation handover may start: frozen, held by the reference, one running, group not running (R170, R172). -/
def Dev.rotBarred (d : Dev) (g : Nat) : Bool :=
  let p := pg .pgrp g
  !(d.grpOn g) || d.flag p PGRP.FREEZE || d.flag p PGRP.REF_HOLD || (d.group g).rot.isSome || d.fwActive

/-- The handover that `HO_REQ.GO` asks for and that waits: for the end of a repair on its port (R72), of a reference hold
(R169), of a firmware changeover (R545). -/
def Dev.hoAsked (d : Dev) (g : Nat) : Option (Nat × Nat × Nat) :=
  if d.flag (pg .pgrp g) PGRP.GO then
    (d.rotCands g).find? fun c => decide (c.1 = d.fld (pg .pgrp g) PGRP.HO_REQ_PORT)
  else none

/-- The handover that R181 asks for. -/
def Dev.hoUrgent (d : Dev) (g : Nat) : Option (Nat × Nat × Nat) :=
  match (d.group g).urgent with
  | some (k, s) => (d.rotCands g).find? fun c => decide (c.1 = k ∧ c.2.1 = s)
  | none => none

/-- A handover that waits starts when a slice is LAYBY_READY, and waits on otherwise: the one that R181 asks for goes first,
then a requested one, then the one that is due. -/
def Dev.rotTry (d : Dev) (g : Nat) : Dev :=
  if d.rotBarred g then d
  else
    let due := if (d.group g).waits then d.rotOldest g else none
    match (d.hoUrgent g).or ((d.hoAsked g).or due), d.bestIn g 0 with
    | some (k, old, kind), some new => d.rotStart g k old new kind
    | _, _ => d

/-- `ROTATION_DUE` (R170). -/
def Dev.rotationDue (d : Dev) (g : Nat) : Dev :=
  if d.rotBarred g then d
  else
    let d1 := d.pass ((d.group g).dueAt - d.mono)
    let gs := d1.group g
    match d1.rotOldest g with
    | some _ => (d1.setGroup g { gs with waits := true }).rotTry g
    | none => d1.setGroup g { gs with dueAt := d1.mono + d1.fld (pg .pgrp g) PGRP.ROT_PERIOD * 100000000 }

/-- Port `HO_REQ.PORT` may be rotated at once (R172). -/
def Dev.hoReqMay (d : Dev) (g k : Nat) : Bool :=
  let st := d.st (portPg (g * 9 + k))
  !(d.flag (pg .pgrp g) PGRP.FREEZE) && (d.group g).rot.isNone && (d.bestIn g 0).isSome && decide (st = 1 ∨ st = 3)

/-- `HO_REQ.GO` on a port that may be rotated: at once, or once nothing keeps it waiting. -/
def Dev.hoReqStart (d : Dev) (g : Nat) : Dev :=
  if d.rotBarred g then d
  else
    match d.hoAsked g, d.bestIn g 0 with
    | some (k, old, kind), some new => d.rotStart g k old new kind
    | _, _ => d

/-! ### Repairs (R186 to R189) -/

/-- The port of a repair. -/
def Rep.at_ (r : Rep) (g : Nat) : Nat := g * 9 + r.port

/-- What the supervisor uses a slot for in a repair. -/
def Rep.job (r : Rep) (g : Nat) : Job := .slice (r.at_ g) r.kind true

/-- A running input sends FAULT words until the instant of its repair, which is open until its milestone is bound; word
`index` carries the marker, and tags count from the replacement's reset (R188, R50). -/
def Dev.repWords (d : Dev) (i start : Nat) (instant : Option Nat) : Dev :=
  let s := d.port i
  match instant with
  | none => d.setPort i { s with cap := { s.cap with faultTo := 2 ^ 64 } }
  | some t => d.setPort i { s with cap := { s.cap with faultTo := d.wordAt i t, rst := d.wordAt i start }, mark := some (d.wordAt i t) }

/-- The repair asks for its milestone, with the instant `t`; it joins those that wait when it gets none (R50, R173). -/
def Dev.repArm (d : Dev) (g : Nat) (r : Rep) (t : Nat) : Dev :=
  let i := r.at_ g
  match d.rotBind g (r.job g) t with
  | some e =>
    let e1 := (e.unwait (r.job g)).setRep g { r with instant := t }
    if r.kind = 1 then e1.repWords i r.start (some t) else e1
  | none =>
    let e := (d.svcWait (r.job g)).setRep g r
    if r.kind = 1 then e.repWords i r.start none else e

/-- Overlap of a repair in words or samples: F of the preset for an input (R188), 128 output samples (R189). -/
def Dev.repLen (d : Dev) (i kind : Nat) : Nat := if kind = 1 then presetFlush (d.fld (portPg i) PORT.PRESET) else 128

/-- Rate on which a repair of a kind counts. -/
def Dev.repRate (d : Dev) (i kind : Nat) : Nat := if kind = 1 then d.capRate i else d.outRate i

/-- The timestamp `n` periods of a clock of `rate` Hz after its edge at `t`. -/
def edgeAfter (rate t n : Nat) : Nat := edgeTime rate (edgeAt rate t + n)

/-- A replacement is connected and the repair's milestone is asked for: an input's replacement makes its synchronising reset at
the first base-rate edge, an output's overlap counts from the first sample (R187 to R189). -/
def Dev.repConnect (d : Dev) (g : Nat) (r : Rep) (new : Nat) : Dev :=
  let i := r.at_ g
  let q := portPg i
  let d1 := d.connect g new 4 r.port
  let d2 := if d.isLoop i then d1 else d1.setF q PORT.SLICE_B new
  let rate := d.repRate i r.kind
  let start := if r.kind = 1 then edgeTime (d.grpRate i) (edgeAt (d.grpRate i) d.now) else edgeTime rate (edgeAt rate d.now)
  (d2.repArm g { r with new := some new, start := start, again := false } (edgeAfter rate start (d.repLen i r.kind))).refreshGroup g

/-- A repair with no slice: it ends, and the port enters FAULT with cause NO_SLICE (R187). A port that stands in FAULT takes that
cause. -/
def Dev.repNone (d : Dev) (g : Nat) (r : Rep) : Dev :=
  let i := r.at_ g
  let d1 := ((d.dropRep g r).hoNotice g r.port r.kind 5 r.old none 0).cellSlice i r.kind 15
  if d1.st (portPg i) = 5 then ((d1.releaseSlices i).setF (portPg i) PORT.FAULT_CAUSE 1).refreshGroup g
  else (d1.portFault i 1).refreshGroup g

/-- The repair takes a replacement; with none eligible it takes the incoming slice of a rotation handover before Arm,
waits for one that has armed, or the port enters FAULT (R187). -/
def Dev.repTake (d : Dev) (g : Nat) (r : Rep) : Dev :=
  match d.pickSlice g with
  | some new => d.repConnect g r new
  | none =>
    match (d.group g).rot with
    | some x =>
      if x.phase ≤ 3 then
        let e := d.endRot g 5 0
        match e.pickSlice g with
        | some new => e.repConnect g r new
        | none => e.repNone g r
      else d.setRep g { r with again := false }
    | none => d.repNone g r

/-- The condition of a port between the trip and the instant of its repair: a running input sends FAULT words, an output holds
zero scale, counted (R188, R189). -/
def Dev.repHolds (d : Dev) (i kind : Nat) : Dev :=
  let q := portPg i
  let st := d.st q
  if kind = 1 then (if (d.port i).run then d.repWords i 0 none else d)
  else if 1 ≤ st ∧ st ≤ 3 then
    let e := (d.suspend i).count q PORT.MUTE_CNT
    (e.setPort i { e.port i with repHold := true }).showSeq i
  else d

/-- A slice that serves a port fails: it becomes SUSPECT, the port names it no more, and a repair starts (R186 to R189). -/
def Dev.repStart (d : Dev) (g s kind code : Nat) : Dev :=
  let k := d.fld (pg .pgrp g) (PGRP.SLICE_MAP_PORT.at s)
  let i := g * 9 + k
  (((d.suspect g s code).cellSlice i kind 15).repHolds i kind).repTake g ⟨k, s, none, kind, 0, 0, false⟩

/-- The instant of a repair: the replacement serves the port (R188, R189). -/
def Dev.repApply (d : Dev) (i kind : Nat) : Dev :=
  let g := i / 9
  match d.repOf i kind with
  | some r =>
    match r.new with
    | some n =>
      let d1 := ((d.dropRep g r).setSl g n (servState r.kind) r.port).cellSlice i r.kind n
      let d2 := if r.kind = 2 then
          ((d1.setPort i { d1.port i with repHold := false, repRamp := decide (d1.st (portPg i) = 3) }).unhide i).suspendEnd i
        else d1
      ((d2.hoNotice g r.port r.kind 6 r.old (some n) 0).refreshGroup g).rotTry g
    | none => d
  | none => d

/-- A repair asks again for its milestone. An instant that its chapter's rule gives and that has passed is replaced by the first
timestamp after the check of the slot can end, for a scope of one page (R50, R57). -/
def Dev.repRebind (d : Dev) (i kind : Nat) : Dev :=
  let g := i / 9
  match d.repOf i kind with
  | some r =>
    if r.new.isNone then d.unwait (r.job g)
    else
      let rate := d.repRate i kind
      d.repArm g r (Nat.max (edgeAfter rate r.start (d.repLen i kind)) (edgeAfter rate (d.now + 10501) 0))
  | none => d.unwait (.slice i kind true)

/-- `REPAIR_RESUME`: a repair that waited takes the released slice (R187). -/
def Dev.repairResume (d : Dev) (g : Nat) : Dev :=
  match (d.group g).reps.find? (fun r => r.new.isNone && !r.again), (d.group g).rot with
  | some r, none => d.repTake g r
  | _, _ => d

/-- Repairs that ended with their ports' leaving SYNCING or LIVE start again (R94, R186). -/
def Dev.repsAgain (d : Dev) (g : Nat) : Dev :=
  ((d.group g).reps.filter fun r => r.again).foldl (fun (e : Dev) r => (e.repHolds (r.at_ g) r.kind).repTake g r) d

/-- After a slice has become eligible: ports that wait for one, then a rotation that waits. -/
def Dev.sliceFreed (d : Dev) (g : Nat) : Dev := (d.groupSettle g).rotTry g

/-! ### Calibration -/

/-- The correction values of a completed calibration come into use, in the registers and in the record kept for the family
(R166, R167). -/
def Dev.setTrims (d : Dev) (g s : Nat) (adc dac : Word) : Dev :=
  let p := pg .pgrp g
  let v := d.slice g s
  let d1 := (d.setReg p (PGRP.SLICE_TRIM_ADC.at s) adc).setReg p (PGRP.SLICE_TRIM_DAC.at s) dac
  if d.fld p PGRP.FAMILY = 0 then d1.setSlice g s { v with adc48 := adc, dac48 := dac }
  else d1.setSlice g s { v with adc44 := adc, dac44 := dac }

/-- A calibration completes: its values, LAYBY_READY and `CAL_DONE` (R165, R167, R184, R193). -/
def Dev.calDone (d : Dev) (g s : Nat) : Dev :=
  let p := pg .pgrp g
  let d0 := d.setTrims g s (d.slice g s).newAdc (d.slice g s).newDac
  let v := d0.slice g s
  let v1 := if d.fld p PGRP.FAMILY = 0 then { v with cal48 := some d.mono, ext := false }
    else { v with cal44 := some d.mono, ext := false }
  let d1 := (((d0.setSlice g s v1).setF p (PGRP.CAL_VALID.at s) 1).setSl g s 0 15).setF p (PGRP.STEP.at s) 0
  let d2 := (d1.count p PGRP.CAL_CNT).raise p PGRP.E_CAL_DONE (globalSlice g s) (d1.reg p (PGRP.SLICE_TRIM_ADC.at s))
    (d1.reg p (PGRP.SLICE_TRIM_DAC.at s))
  (d2.refreshGroup g).sliceFreed g

/-- The new correction values of a step: offsets in step 1, gains in step 2. -/
def stepTrim (step : Nat) (old new : Word) : Word :=
  if step = 1 then setBits old 31 16 (bitsOf new 31 16) else if step = 2 then setBits old 15 0 (bitsOf new 15 0) else old

/-- The step after a step that passed; none when the procedure is complete (R165, R184, R193). -/
def Dev.nextStep (d : Dev) (g s step : Nat) : Option Nat :=
  if step = 3 then some (if (d.die (g / 4)).toneFault then 5 else 4)
  else if step = 5 then (if (d.slice g s).ext then some 6 else none)
  else if step = 6 then none else some (step + 1)

/-- `CAL_STEP_DONE`: the running step of a slice ends within its limit or outside it. -/
def Dev.calStepDone (d : Dev) (g s : Nat) (pass : Bool) (adc dac : Word) : Dev :=
  let p := pg .pgrp g
  let step := d.fld p (PGRP.STEP.at s)
  if step = 0 then d
  else
    let quick := (d.slice g s).boot
    let dq := d.pass ((d.slice g s).stepDue - d.mono)
    let d0 := if quick ∧ (pass = false ∨ step = 3) then dq.setSlice g s { dq.slice g s with boot := false } else dq
    if pass ∧ quick ∧ step = 3 then (((d0.setSl g s 0 15).calStep g s 0).refreshGroup g).sliceFreed g |>.calsDone
    else if pass then
      let v := d0.slice g s
      let was := fun (reg new : Word) => if step = 1 then reg else new
      let d1 := d0.setSlice g s { v with
        newAdc := stepTrim step (was (d.reg p (PGRP.SLICE_TRIM_ADC.at s)) v.newAdc) adc,
        newDac := stepTrim step (was (d.reg p (PGRP.SLICE_TRIM_DAC.at s)) v.newDac) dac }
      match d1.nextStep g s step with
      | some n => d1.calStep g s n
      | none => d1.calDone g s
    else
      let code := if step = 6 then 10 else step
      ((if (d.slice g s).ext then d0.retire g s code else d0.suspect g s code).refreshGroup g).calsDone

/-- The groups of a die. -/
def dieGroups (k : Nat) : List Nat := (List.range 4).map (k * 4 + ·)

/-- `REF_CHECK`: the deviation of the precision reference in ppm (R169). -/
def Dev.refCheck (d : Dev) (k : Nat) (ppm : Int) : Dev :=
  let p := pg .pdie k
  let good := decide (ppm.natAbs ≤ 500)
  let hold := d.flag (pg .pgrp (k * 4)) PGRP.REF_HOLD
  let d1 := d.setF p PDIE.REF_DEV (scode 16 ppm)
  if good then
    if hold then d1.setDie k { d1.die k with refGood := some ((d1.die k).refGood.getD d1.mono) }
    else ((d1.setF p PDIE.REF_OK 1).setDie k { d1.die k with refFirst := false }).audioReady
  else
    let d2 := (d1.setF p PDIE.REF_OK 0).setDie k { d1.die k with refGood := none }
    if hold then d2
    else
      let d3 := d2.raise p PDIE.E_REF_FAULT
      (dieGroups k).foldl (fun e g => (e.setF (pg .pgrp g) PGRP.REF_HOLD 1).calRestart g) d3

/-- Every lay-by slice of a group starts again at step 1. -/
def Dev.laybyRestart (d : Dev) (g : Nat) : Dev :=
  (List.range 10).foldl (fun e s =>
    if e.slState g s = 0 then (e.setSl g s 1 15).calStart g s else e.calStart g s) d

/-- `REF_OK`: the deviation has stayed within ±500 ppm for 10 s (R169). -/
def Dev.refOk (d : Dev) (k : Nat) : Dev :=
  let p := pg .pdie k
  match (d.die k).refGood with
  | some t =>
    if d.flag (pg .pgrp (k * 4)) PGRP.REF_HOLD then
      let d0 := d.pass (t + 10000000000 - d.mono)
      let d1 := ((d0.setDie k { d0.die k with refGood := none, refFirst := false }).setF p PDIE.REF_OK 1).raise p PDIE.E_REF_OK
      ((dieGroups k).foldl (fun e g => (e.setF (pg .pgrp g) PGRP.REF_HOLD 0).laybyRestart g) d1).audioReady
    else d
  | none => d

/-- `TONE_CHECK`: the measured THD as −0.1 × `thd` dB (R169, R193). -/
def Dev.toneCheck (d : Dev) (k thd : Nat) : Dev :=
  let p := pg .pdie k
  let d1 := d.setF p PDIE.TONE_THD (Nat.min thd 1600)
  if 1300 < thd then ((d1.setF p PDIE.TONE_OK 1).setDie k { d1.die k with toneFault := false }).audioReady
  else
    let d2 := d1.setF p PDIE.TONE_OK 0
    if (d.die k).toneFault then d2
    else (d2.setDie k { d2.die k with toneFault := true }).raise p PDIE.E_TONE_FAULT

/-- A slice is reinstated: its count is zero and it is LAYBY_CAL (R185). -/
def Dev.reinstate (d : Dev) (g s : Nat) : Dev :=
  let p := pg .pgrp g
  if 6 ≤ d.slState g s then
    (((d.setF p (PGRP.SUSPECTS.at s) 0).setSl g s 1 15).setSlice g s { d.slice g s with ext := false, marked := false }
      |>.calStart g s |>.refreshGroup g).sliceFreed g
  else d.setF p (PGRP.SUSPECTS.at s) 0

/-! ### Comparison, arming, switch and drain -/

/-- What a comparison of words of the outgoing and the incoming slice gives: their count, the sum of the squared differences, and
the count of mismatches. -/
structure Cmp where
  count : Nat
  sum : Nat
  bad : Nat

/-- The comparison of pairs of words for the same timestamps. -/
def cmpWords (ws : List (Int × Int)) : Cmp :=
  ws.foldl (fun c w => ⟨c.count + 1, c.sum + ((w.1 - w.2) * (w.1 - w.2)).natAbs, if w.1 = w.2 then c.bad else c.bad + 1⟩) ⟨0, 0, 0⟩

/-- D = 20 log10(RMS / 2^23) is below −0.1 × `tol` + 0.1 × `allow` dB (R177). -/
def Cmp.below (c : Cmp) (tol allow : Nat) : Bool :=
  decide (c.sum ^ 100 * 10 ^ tol < (c.count * 2 ^ 46) ^ 100 * 10 ^ allow)

/-- Largest `n` of at most `k` more bits above `n` with D ≤ −0.1 × (n − ½) dB. -/
def Cmp.search (c : Cmp) : Nat → Nat → Nat
  | 0, n => n
  | k + 1, n =>
    let m := n + 2 ^ k
    if c.sum ^ 200 * 10 ^ (2 * m - 1) ≤ (c.count * 2 ^ 46) ^ 200 then c.search k m else c.search k n

/-- The measure of a comparison: −10 × D to the nearest, at most 1,440, or the count of mismatching samples (R192). -/
def Cmp.measure (c : Cmp) (kind : Nat) : Nat := if kind = 1 then Nat.min 1440 (c.search 11 0) else Nat.min 0xFFFF c.bad

/-- The comparison of a slice handover passes (R177, R180). -/
def Dev.cmpPass (d : Dev) (g : Nat) (r : Rot) (c : Cmp) : Bool :=
  if r.kind = 1 then
    c.below (d.fld (pg .pgrp g) PGRP.HANDOVER_TOL) (presetAllow (d.fld (portPg (g * 9 + r.port)) PORT.PRESET))
  else decide (c.bad = 0)

/-- A comparison result: `HO_CMP`, then abort with outcome 1, or arm. A handover of a STOPPED port has none, and arms. -/
def Dev.cmpResult (d : Dev) (g : Nat) (r : Rot) (c : Cmp) : Dev :=
  let p := pg .pgrp g
  let i := g * 9 + r.port
  if r.stopped then
    let rate := d.repRate i r.kind
    d.rotArm g r 0 (edgeAfter rate d.now (d.armLead g))
  else
    let ok := d.cmpPass g r c
    let m := c.measure r.kind
    let d1 := d.setReg p PGRP.HO_CMP (wd ((if ok then 1 else 2) * 2 ^ 30 + r.kind * 2 ^ 28 + m))
    let r1 := { r with measure := some m }
    let d2 := d1.setGroup g { d1.group g with rot := some r1 }
    if ok then d2.rotArm g r1 (r.result + d.armLead g) (d2.hoTime i r.kind (r.result + d.armLead g)) else d2.endRot g 1 0

/-- `HO_COMPARE_RESULT`: the words that the two slices gave for the same timestamps over the comparison window: 24-bit samples of
an input handover, interpolator outputs of an output one. -/
def Dev.hoCompare (d : Dev) (g : Nat) (ws : List (Int × Int)) : Dev :=
  match (d.group g).rot with
  | some r =>
    if r.phase ≤ 3 ∧ r.stopped = false ∧ r.defer = none then
      (d.reach (d.hoTime (g * 9 + r.port) r.kind r.result)).cmpResult g { r with phase := 3 } (cmpWords ws)
    else d
  | none => d

/-- `HO_DEFER_BLOCK`: the next block of 64 words or samples of a deferred handover is judged (R174). -/
def Dev.hoDeferBlock (d : Dev) (g : Nat) (ws : List (Int × Int)) : Dev :=
  match (d.group g).rot with
  | some r =>
    if r.phase ≤ 3 ∧ r.defer.isSome then
      let d1 := if r.stopped then d else d.reach (d.hoTime (g * 9 + r.port) r.kind r.result)
      d1.cmpResult g r (cmpWords ws)
    else d
  | none => d

/-- `HO_DEFER_TIMEOUT`: the deferral has lasted `DEFER_MAX` (R174). -/
def Dev.hoDeferTimeout (d : Dev) (g : Nat) : Dev :=
  match (d.group g).rot with
  | some r =>
    match r.defer with
    | some t =>
      if r.phase ≤ 3 then
        (((d.pass (t + d.fld (pg .pgrp g) PGRP.DEFER_MAX * 100000000 - d.mono)).endRot g 2 0).sliceFreed g)
      else d
    | none => d
  | none => d

/-- The comparison so far is discarded at an input switch: the window becomes the 32 words from the first FINE word
after the switch (R179). -/
def Dev.rotSwitched (d : Dev) (i : Nat) : Dev :=
  let g := i / 9
  match d.inRot i with
  | some r =>
    if (r.phase = 2 ∨ r.phase = 3) then
      let fine := d.wordAt i d.now + presetLat (d.fld (portPg i) PORT.PRESET) + 63
      d.setGroup g { d.group g with rot := some { r with result := fine + 40 } }
    else d
  | none => d

/-- The instant of a planned handover (R67, R176, R178, R180). -/
def Dev.rotApply (d : Dev) (i : Nat) : Dev :=
  let g := i / 9
  let p := pg .pgrp g
  match (d.group g).rot with
  | some r =>
    if r.port = i % 9 ∧ r.phase = 4 then
      let d1 := (d.setSl g r.new (servState r.kind) r.port).setGroup g { d.group g with rot := some { r with phase := 6 } }
      let d2 := (d1.setF p PGRP.PHASE 6).cellSlice i r.kind r.new
      if r.stopped then (d2.endRot g 0 0).sliceFreed g
      else if r.kind = 1 then
        (d2.setF (portPg i) PORT.XFADE 1).setPort i
          { d2.port i with xf := some (r.instant, d.fld p PGRP.XFADE_IN), mark := some r.instant }
      else d2
    else d
  | none => d

/-- The milestone of a planned handover was refused or expired: outcome 3 (R183). -/
def Dev.rotMiss (d : Dev) (i : Nat) : Dev :=
  match (d.group (i / 9)).rot with
  | some r => if r.port = i % 9 ∧ r.phase = 4 then (d.endRot (i / 9) 3 0).sliceFreed (i / 9) else d
  | none => d

/-- The last word or sample of the crossfade has passed. -/
def Dev.xfadeOver (d : Dev) (g : Nat) (r : Rot) : Bool :=
  let i := g * 9 + r.port
  if r.kind = 1 then
    match (d.port i).xf with
    | some (s, l) => decide (s + l ≤ (d.cap i).idx)
    | none => true
  else decide (r.instant + d.fld (pg .pgrp g) PGRP.XFADE_OUT ≤ (d.port i).oidx)

/-- `XFADE_END`: Drain ends, outcome 0 (R176, R180, R181). -/
def Dev.xfadeEnd (d : Dev) (g : Nat) : Dev :=
  match (d.group g).rot with
  | some r => if r.phase = 6 ∧ d.xfadeOver g r then ((d.endRot g 0 0).sliceFreed g) else d
  | none => d

/-! ### Slice failures (R186) -/

/-- Code of word 6 of the slice notices for a detector (R193). -/
def detCode : SliceDetector → Nat
  | .stability => 6 | .elementCurrent => 7 | .parity => 8

/-- The replacement of a repair fails: outcome 4, and the repair takes another slice (R183, R186). -/
def Dev.repNewFails (d : Dev) (g s code : Nat) : Dev :=
  match (d.group g).reps.find? (fun x => decide (x.new = some s)) with
  | some x =>
    let d1 := (((d.jobCancel (x.job g)).unwait (x.job g)).suspect g s code).hoNotice g x.port x.kind 4 x.old (some s) 0
    let d2 := d1.cellSlice (x.at_ g) x.kind 15
    let d3 := if x.kind = 1 ∧ (d2.port (x.at_ g)).run then d2.repWords (x.at_ g) 0 none else d2
    d3.repTake g { x with new := none }
  | none => d.suspect g s code

/-- The incoming slice of a handover fails (R179, R182, R183, R186): outcome 4. -/
def Dev.incomingFails (d : Dev) (g s code : Nat) : Dev :=
  match (d.group g).rot with
  | some r => if r.new = s then d.endRot g 4 code else d.repNewFails g s code
  | none => d.repNewFails g s code

/-- The slice is the incoming slice of the planned handover in Drain. -/
def Dev.drainingNew (d : Dev) (g s : Nat) : Bool :=
  match (d.group g).rot with | some r => decide (r.new = s ∧ 5 ≤ r.phase) | none => false

/-- The outgoing slice of a handover fails: before Switch the handover ends with outcome 5 and a repair starts; in Drain
the incoming slice carries on alone (R179, R182, R186). -/
def Dev.outgoingFails (d : Dev) (g s code : Nat) : Dev :=
  match (d.group g).rot with
  | some r =>
    if r.phase ≤ 4 then (d.endRot g 5 0).repStart g s r.kind code
    else (d.endRot g 0 0).suspect g s code
  | none => d.suspect g s code

/-- `SLICE_FAIL`: a detector trips on a slice. -/
def Dev.sliceFail (d : Dev) (g s : Nat) (det : SliceDetector) : Dev :=
  let p := pg .pgrp g
  let st := d.slState g s
  let k := d.fld p (PGRP.SLICE_MAP_PORT.at s)
  let code := detCode det
  if st = 7 then d
  else
    let port := if st = 2 ∨ st = 3 ∨ st = 5 then g * 9 + k else 255
    let d1 := d.raiseH p PGRP.E_SLICE_FAIL (wd (port * 65536 + (g * 10 + s))) (wd (code - 5))
    let d2 :=
      if st = 4 then d1.incomingFails g s code
      else if st = 5 then d1.outgoingFails g s code
      else if st = 2 ∨ st = 3 then
        if d.drainingNew g s then d1.endRot g 4 code else d1.repStart g s (st - 1) code
      else d1.suspect g s code
    d2.refreshGroup g

/-- `CAL_STALE`: the age of a serving slice exceeds `AGE_MAX` (R191). -/
def Dev.calStale (d : Dev) (g s : Nat) : Dev :=
  let st := d.slState g s
  let v := d.slice g s
  if (st = 2 ∨ st = 3 ∨ st = 5) ∧ v.stale = false ∧ d.fld (pg .pgrp g) PGRP.AGE_MAX * 10 < d.sliceAge g s then
    (d.setSlice g s { v with stale := true }).raise (pg .pgrp g) PGRP.E_CAL_STALE (globalSlice g s) (d.sliceCalWord g s)
  else d

end Sys2Proof.Machine
end

