-- ==== Sys2Proof/Machine/PortReact.lean ====
section
/-! DEFINITION. The `PORT`, `PGRP` and `PDIE` pages as registers: direct writes a block refuses (R96, R100, R110, R111, R147,
R161, R172), what a value that becomes live does, block reset (R26, R557), and the checker rules of chapters 3 to 5. -/

namespace Sys2Proof.Machine

/-! ### Ports -/

/-- A direct write of `new` over `old` to the register at `off` is refused with cause BLOCK, flow bindings apart. -/
def Dev.portBlocked (d : Dev) (i off : Nat) (old new : Word) : Bool :=
  let q := portPg i
  let st := d.st q
  let dir := d.flag q PORT.DIR
  if off = PORT.CELL_CTL.off then
    let mode := fieldOf PORT.IN_MODE new
    let out := fieldOf PORT.DIR new
    (fieldChanged PORT.DIR old new && decide (2 ≤ st)) || (decide (out = 1) && decide (mode ≠ 0)) ||
      (decide (mode = 4) && decide (40 < d.fld q PORT.PGA)) ||
      (decide (mode = 5) && decide (d.fld q PORT.OUT_MODE ≠ 1)) ||
      (decide (mode = 6) && fieldChanged PORT.IN_MODE old new && d.flag q PORT.DC_PRESENT)
  else if off = PORT.CELL_GAIN.off then decide (40 < fieldOf PORT.PGA new) && decide (d.fld q PORT.IN_MODE = 4)
  else if off = PORT.CAP_CTL.off then
    (fieldChanged PORT.PRESET old new || fieldChanged PORT.FIR_LAT old new) && !dir && decide (2 ≤ st)
  else if 0x100 ≤ off ∧ off < 0x200 then d.flag q PORT.SWAP_PENDING || d.held q
  else if off = PORT.OUT_CTL.off then
    let mode := fieldOf PORT.OUT_MODE new
    (decide (mode ≠ 1) && decide (d.fld q PORT.IN_MODE = 5)) ||
      (d.drives i && decide (st = 2 ∨ st = 3 ∨ st = 5) &&
        (fieldChanged PORT.SPAN old new || fieldChanged PORT.OUT_PRESET old new ||
          (fieldChanged PORT.OUT_MODE old new && decide (mode ≠ 0))))
  else if off = PORT.LSV_CTL.off then decide (fieldOf PORT.LSV_GO new = 1) && !(decide (st = 1) && dir)
  else false

/-- A direction change of a port that holds a slice: the slice serves the other way, the output stage follows; words of an ended
run go no further. -/
def Dev.dirChanged (d : Dev) (i : Nat) : Dev :=
  let q := portPg i
  let s := d.fld q PORT.SLICE_A
  let d0 := (d.hoPortLeaves i).lsvAbort i
  let d1 := if s < 10 then d0.setF (pg .pgrp (i / 9)) (PGRP.STATE.at s) (if d.flag q PORT.DIR then 3 else 2) else d0
  let d2 := d1.setPort i { d1.port i with tail := [] }
  (if d.st q = 1 then d2.enterStopped i else d2).pfCheck i

/-- The slices a port in LOOP holds beyond its ADC slice follow its mode; the rest clamp holds the pins in LOOP (R77, R162). A
port that enters LOOP while it runs fetches from the first sample it can still fetch. -/
def Dev.loopSlices (d : Dev) (i : Nat) (wasLoop : Bool) : Dev :=
  let q := portPg i
  let g := i / 9
  if d.isLoop i = wasLoop then d
  else if wasLoop then
    let e := d.hoPortLeaves i
    let e1 := e.releaseSlice g (e.fld q PORT.SLICE_B)
    (((e1.setF q PORT.SLICE_B 15).outQuiet i 0).clamp i false).refreshGroup g
  else
    let e := (d.hoPortLeaves i).clamp i true
    let starts := fun (x : Dev) =>
      if x.portRuns i then
        let y := (x.stageTakes i).setSeq i 1
        y.setPort i { y.port i with
          outPreset := y.fld q PORT.OUT_PRESET, src := (y.fld q PORT.SRC_FLOW, y.fld q PORT.SRC_CH), srcNext := [] } |> fun z =>
            z.setPort i { z.port i with oidx := z.sampAt i z.now + presetLat (z.fld q PORT.OUT_PRESET) }
      else (x.stageTakes i).suspend i
    if e.fld q PORT.SLICE_B < 10 then (starts e).refreshGroup g
    else
      match e.pickSlice g with
      | some b => (starts ((e.connect g b 3 (i % 9)).setF q PORT.SLICE_B b)).refreshGroup g
      | none => (e.portFault i 1).refreshGroup g

/-- A change of input mode on a port that holds slices (R82, R88, R97, R124). The words of an earlier switch's 3 µs that are
still in the chain keep their tag. -/
def Dev.modeChanged (d : Dev) (i : Nat) (old : Nat) : Dev :=
  let q := portPg i
  let mode := d.fld q PORT.IN_MODE
  let st := d.st q
  if st = 4 then (d.surveyAbort i).surveyLeave i
  else if mode = 6 then (if 1 ≤ st ∧ st ≤ 3 then (d.loopSlices i (decide (old = 5))).surveyStart i else d)
  else
    let d1 := d.loopSlices i (decide (old = 5))
    if d1.portRuns i then
      let r := d1.cap i
      let d2 := (d1.setF q PORT.NET mode).setCap i { r with
        switches := d1.now :: r.switches.filter fun ts => decide (r.time r.idx < ts + 3000) }
      d2.rotSwitched i
    else if st = 1 then (d1.setF q PORT.NET mode).runCheck i else d1

/-- A port that has just left OFF with mode SURVEY starts its survey (R97). DEDUCED (log 148): writing SURVEY to `IN_MODE` of an
enabled port in OFF makes the mode SURVEY, as a milestone with `ENABLE` and SURVEY does, and takes the port through STOPPED to
SURVEY; `ENABLE` written on a port whose mode is SURVEY already leaves it in STOPPED until `SURVEY_GO`. -/
def Dev.surveyFromOff (d : Dev) (i : Nat) : Dev :=
  let q := portPg i
  if d.st q = 1 ∧ d.flag q PORT.DIR = false ∧ d.fld q PORT.IN_MODE = 6 then d.surveyStart i else d

/-- `CELL_CTL` has become live: `RUN`, `DIR`, `IN_MODE`, `SURVEY_GO` (R87, R97, R98, R150). A stop whose milestone placed a ramp
finds the output ramped down. -/
def Dev.cellCtl (d : Dev) (i : Nat) (via : Via) (old new : Word) : Dev :=
  let q := portPg i
  let ramped := via.instant.isSome && (d.port i).stopRamp.isSome
  if d.portWanted i = false then (d.portOff i ramped).setF q PORT.SURVEY_GO 0
  else if d.st q = 0 then ((d.portLeaveOff i).setF q PORT.SURVEY_GO 0).surveyFromOff i
  else
    let ran := fieldOf PORT.RUN old
    let runs := fieldOf PORT.RUN new
    let d1 := if ran = 1 ∧ runs = 0 then d.portStop i ramped else d
    let d2 := if fieldChanged PORT.DIR old new then d1.dirChanged i else d1
    let d3 := if fieldChanged PORT.IN_MODE old new ∧ d2.flag q PORT.DIR = false then
        d2.modeChanged i (fieldOf PORT.IN_MODE old) else d2
    let d4 := if fieldOf PORT.SURVEY_GO new = 1 ∧ fieldOf PORT.SURVEY_GO old = 0 then
        if d3.st q = 1 ∧ d3.fld q PORT.IN_MODE = 6 ∧ d3.flag q PORT.DIR = false then d3.surveyStart i
        else d3.setF q PORT.SURVEY_GO (if d3.st q = 4 then 1 else 0)
      else d3
    if ran = 0 ∧ runs = 1 then
      if (d4.st q = 4 ∨ d4.st q = 5) ∧ d4.flag q PORT.DIR = false then (d4.gridGoesOn i).regrid i
      else (d4.lsvAbort i).runCheck i
    else d4

/-- A new source becomes live (R556). A source known since its slot armed keeps that moment. -/
def Dev.srcLive (d : Dev) (i : Nat) (via : Via) (new : Word) : Dev :=
  let f := fieldOf PORT.SRC_FLOW new
  let c := fieldOf PORT.SRC_CH new
  let s := d.port i
  let t := via.instant.getD d.now
  let x : SrcNext := match s.srcArmed with
    | some y => if y.flow = f ∧ y.ch = c ∧ via.instant = some y.instant then y else ⟨f, c, t, d.now⟩
    | none => ⟨f, c, t, d.now⟩
  let armed := if via.instant.isSome then none else s.srcArmed
  if s.run then d.setPort i { s with srcNext := s.srcNext ++ [x], srcArmed := armed }
  else d.setPort i { s with src := (f, c), srcNext := [], srcArmed := armed }

/-- `OUT_CTL` has become live. A change of `OUT_PRESET` in STOPPED takes the hold of a span change (R147). -/
def Dev.outCtl (d : Dev) (i : Nat) (via : Via) (old new : Word) : Dev :=
  let q := portPg i
  let d1 := d.setF q PORT.LAT_OUT (presetLat (d.fld q PORT.OUT_PRESET))
  if d1.portWanted i = false then
    (d1.portOff i (via.instant.isSome && (d.port i).stopRamp.isSome)).stageTakes i
  else if d1.st q = 0 then (d1.stageTakes i).portLeaveOff i
  else if fieldChanged PORT.OUT_MODE old new || fieldChanged PORT.SPAN old new ||
      (fieldChanged PORT.OUT_PRESET old new && decide (d1.st q = 1)) then
    d1.spanChange i (via.instant.getD d.now)
  else d1

/-- Registers of detector `k` become live: at once, or with the first word at or after the instant of their milestone (R63,
R130). -/
def Dev.thrLive (d : Dev) (i k off : Nat) (via : Via) (old : Word) : Dev :=
  let d1 := d.capKeep i off via.instant old
  if via.instant.isSome ∧ (d.port i).run then d1 else d1.thrWrite i k

/-- A register of a `PORT` page has become live with the value `new`. -/
def Dev.portLive (d : Dev) (i off : Nat) (via : Via) (old new : Word) : Dev :=
  let q := portPg i
  if off = HDR.PAGE_CTL.off then
    if d.portWanted i then d.portLeaveOff i else d.portOff i (via.instant.isSome && (d.port i).stopRamp.isSome)
  else if off = PORT.CELL_CTL.off then d.cellCtl i via old new
  else if off = PORT.CELL_GAIN.off then
    if d.flag q PORT.GLIDE then d else d.setPort i { d.port i with pga := d.fld q PORT.PGA }
  else if off = PORT.CAP_CTL.off then
    let d1 := (d.setF q PORT.LAT_TOT (d.latTot i)).capKeep i off via.instant old
    if fieldChanged PORT.ACT_BANK old new then d1.bankRequest i via.instant else d1
  else if off = PORT.CAP_FIR_CTL.off then
    if d.flag q PORT.FORCE ∧ d.flag q PORT.SWAP_PENDING = false then d.setF q PORT.FORCE 0 else d
  else if off = (PORT.THR_CFG.at 0).off ∨ off = (PORT.THR_HOLD.at 0).off then d.thrLive i 0 off via old
  else if off = (PORT.THR_CFG.at 1).off ∨ off = (PORT.THR_HOLD.at 1).off then d.thrLive i 1 off via old
  else if 0x100 ≤ off ∧ off < 0x200 then (d.coefWrite i ((off - 0x100) / 4) new).put (q + off) (resetWord (q + off))
  else if off = PORT.OUT_CTL.off then d.outCtl i via old new
  else if off = PORT.OUT_SRC.off then d.srcLive i via new
  else if off = PORT.LSV_CTL.off then
    if fieldOf PORT.LSV_GO new = 1 ∧ fieldOf PORT.LSV_GO old = 0 then d.lsvGo i else d
  else d

/-- The handovers of a port leave the slots that the supervisor holds for them (R51). -/
def Dev.portJobsLeave (d : Dev) (i : Nat) : Dev :=
  [(1, false), (2, false), (1, true), (2, true)].foldl (fun (e : Dev) x => e.jobLeave (.slice i x.1 x.2)) d

/-- Block reset of a `PORT` page: the port goes to OFF, both halves and both banks take reset values; slots and the checker
stay as they are (R51). -/
def Dev.portReset (d : Dev) (i : Nat) : Dev :=
  let q := portPg i
  let d1 := ((d.portJobsLeave i).portOff i).resetPage q (fun _ => false)
  let d2 : Dev := { d1 with an := { d1.an with ports := Tab.del d1.an.ports i,
                                               coef := Tab.keep d1.an.coef fun k => decide (k / 128 ≠ i) } }
  ((d2.clamp i true).refreshGroup (i / 9)).sliceFreed (i / 9)

/-- A slot that changes a port's output is ARMED: a stop is ramped down before the instant, a new source is consumed
(R150, R556). -/
def Dev.portArmed (d : Dev) (i slot instant : Nat) (manual : Bool) : Dev :=
  let q := portPg i
  let v : View := ⟨d, [q]⟩
  let stops := !(v.flag q PORT.RUN) || !(v.flag q HDR.ENABLE) || (v.flag q PORT.DIR && decide (v.fld q PORT.OUT_MODE = 0))
  let d1 := if stops && !manual then d.stopPlace i slot instant else d
  let src := v.raw (q + PORT.OUT_SRC.off)
  if src ≠ d.reg q PORT.OUT_SRC ∧ !manual then
    d1.setPort i { d1.port i with
      srcArmed := some ⟨fieldOf PORT.SRC_FLOW src, fieldOf PORT.SRC_CH src, instant, d.now⟩ }
  else d1

/-- The slot leaves ARMED without applying: the old source continues (R151, R556). -/
def Dev.portDisarmed (d : Dev) (i slot : Nat) : Dev :=
  let d1 := d.stopRestore i slot
  d1.setPort i { d1.port i with srcArmed := none }

/-! ### Groups and dies -/

/-- A port of the group is SYNCING, LIVE or SURVEY. -/
def Dev.grpBusy (d : Dev) (g : Nat) : Bool := anyIf 9 fun k => decide (2 ≤ d.st (portPg (g * 9 + k)) ∧ d.st (portPg (g * 9 + k)) ≤ 4)

/-- A direct write to a `PGRP` page is refused with cause BLOCK (R96, R172). -/
def Dev.grpBlocked (d : Dev) (g off : Nat) (old new : Word) : Bool :=
  if off = PGRP.GRP_CLK.off then decide (old ≠ new) && d.grpBusy g
  else if off = PGRP.HO_REQ.off then decide (fieldOf PGRP.GO new = 1) && !(d.hoReqMay g (fieldOf PGRP.HO_REQ_PORT new))
  else false

/-- A change of family: the values completed for it, and its corrections, are those in use (R167). -/
def Dev.familyChanged (d : Dev) (g : Nat) : Dev :=
  let p := pg .pgrp g
  let f := d.fld p PGRP.FAMILY
  (List.range 10).foldl (fun e s =>
    let v := e.slice g s
    let cal := if f = 0 then v.cal48 else v.cal44
    ((e.setFlag p (PGRP.CAL_VALID.at s) cal.isSome).setReg p (PGRP.SLICE_TRIM_ADC.at s) (if f = 0 then v.adc48 else v.adc44)).setReg p
      (PGRP.SLICE_TRIM_DAC.at s) (if f = 0 then v.dac48 else v.dac44)) d

/-- `FREEZE` has been written (R172). -/
def Dev.freeze (d : Dev) (g : Nat) : Dev :=
  let p := pg .pgrp g
  let on := d.flag p PGRP.FREEZE
  let d1 := d.setFlag p PGRP.FROZEN on
  if on then
    match (d1.group g).rot with
    | some r => if r.phase ≤ 3 then d1.endRot g 5 0 else d1
    | none => d1
  else d1.rotTry g

/-- A register of a `PGRP` page has become live. -/
def Dev.grpLive (d : Dev) (g off : Nat) (old new : Word) : Dev :=
  if off = HDR.PAGE_CTL.off then (if d.grpOn g then d else d.grpUnlock g)
  else if off = PGRP.GRP_CLK.off then
    if old = new then d
    else
      let d1 := (d.grpUnlock g).regridGroup g
      if fieldChanged PGRP.FAMILY old new then d1.familyChanged g else d1
  else if off = PGRP.ROT_CTL.off then d.freeze g
  else if off = PGRP.HO_REQ.off then
    if fieldOf PGRP.GO new = 1 then d.hoReqStart g else d
  else d

/-- Block reset of a `PGRP` page (R557): early handovers end with outcome 5, and leave their slot as it is (R51); slice states,
counts, retirements, calibration values and repair handovers stay. The group stops with its `ENABLE`. -/
def Dev.grpReset (d : Dev) (g : Nat) : Dev :=
  let p := pg .pgrp g
  let d1 := match (d.group g).rot with
    | some r => if r.phase ≤ 3 then d.endRot g 5 0 else d.jobLeave (.slice (g * 9 + r.port) r.kind false)
    | none => d
  let reps := (d1.group g).reps
  let d2 := (d1.setGroup g { d1.group g with reps := [] }).grpUnlock g
  let d3 := d2.setGroup g { d2.group g with reps := reps }
  let keep := fun off => decide ((0x44 ≤ off ∧ off < 0x70) ∨ off = 0x118 ∨ (0x140 ≤ off ∧ off < 0x168))
  let d4 := (d3.resetPage p keep).setF p PGRP.FROZEN 0
  (d4.familyChanged g).refreshGroup g

/-- Block reset of a `PDIE` page. -/
def Dev.dieReset (d : Dev) (k : Nat) : Dev := d.resetPage (pg .pdie k) (fun _ => false)

/-! ### Checker rules -/

/-- Slices a port needs with the values of the view. -/
def View.portDemand (v : View) (i : Nat) : Nat :=
  let q := portPg i
  if v.has q then
    let dir := v.flag q PORT.DIR
    let mode := if dir then v.fld q PORT.OUT_MODE else v.fld q PORT.IN_MODE
    if v.flag q HDR.ENABLE = false ∨ mode = 0 then 0 else if dir = false ∧ mode = 5 then 2 else 1
  else if v.d.st q = 0 then 0 else if v.d.isLoop i then 2 else 1

/-- Slice demand of a group in the view. -/
def View.grpDemand (v : View) (g : Nat) : Nat := (List.range 9).foldl (fun n k => n + v.portDemand (g * 9 + k)) 0

/-- *Port cell*, *Capture* and *Output checker rules* on a port page that is read staged (R102, R131, R163). DESIGN CHOICE (log
134): CK-1203 reads the staged `DIR`. -/
def View.portRules (v : View) (i : Nat) : List Viol :=
  let q := portPg i
  let d := v.d
  let st := d.st q
  let dir := v.flag q PORT.DIR
  let mode := v.fld q PORT.IN_MODE
  let runs := v.flag q HDR.ENABLE && v.flag q PORT.RUN
  let diff := fun f => decide (v.fld q f ≠ d.fld q f)
  if v.has q = false then [] else
  viol (diff PORT.DIR && decide (2 ≤ st ∧ st ≤ 4)) q 0x1002 ++
  viol (dir && decide (mode ≠ 0)) q 0x1003 ++
  viol (decide (mode = 4 ∧ 40 < v.fld q PORT.PGA)) q 0x1004 ++
  viol (decide (mode = 5 ∧ v.fld q PORT.OUT_MODE ≠ 1)) q 0x1005 ++
  viol (decide (mode = 6) && d.flag q PORT.DC_PRESENT) q 0x1008 ++
  viol ((diff PORT.PRESET || diff PORT.FIR_LAT) && decide (2 ≤ st) && decide (d.fld q PORT.DIR = 0) && runs) q 0x1101 ++
  viol (diff PORT.ACT_BANK && d.flag q PORT.SWAP_PENDING) q 0x1102 ++
  viol (decide (4 < v.fld q PORT.PRESET ∨ 1440 < v.fld q (PORT.LEVEL.at 0) ∨ 1440 < v.fld q (PORT.LEVEL.at 1))) q 0x1103 ++
  viol (decide (v.fld q PORT.OUT_MODE = 3 ∨ v.fld q PORT.SPAN = 3 ∨ 4 < v.fld q PORT.OUT_PRESET ∨
    v.fld q PORT.RAMP_TIME < 5 ∨ 500 < v.fld q PORT.RAMP_TIME ∨ 960 < v.fld q PORT.DEV_WARN ∨
    960 < v.fld q PORT.DEV_FAULT ∨ v.fld q PORT.DEV_PERSIST = 0)) q 0x1201 ++
  viol (decide (v.fld q PORT.DEV_WARN ≤ v.fld q PORT.DEV_FAULT)) q 0x1202 ++
  viol (diff PORT.OUT_PRESET && decide (st = 2 ∨ st = 3 ∨ st = 5) && dir && runs) q 0x1203

/-- Rules on a group: its demand, its clock (CK-1001, CK-1006, CK-1007). -/
def View.grpRules (v : View) (g : Nat) : List Viol :=
  let p := pg .pgrp g
  let d := v.d
  let now := (View.grpDemand ⟨d, []⟩ g)
  let want := v.grpDemand g
  let clk := v.fld p PGRP.FAMILY ≠ d.fld p PGRP.FAMILY ∨ v.fld p PGRP.MCG ≠ d.fld p PGRP.MCG
  let active := d.grpBusy g || anyIf 9 fun k => v.has (portPg (g * 9 + k)) && v.flag (portPg (g * 9 + k)) PORT.RUN
  let m := v.fld p PGRP.MCG
  viol (decide (now < want ∧ d.fld p PGRP.HEALTHY < want + 1)) p 0x1001 ++
  viol (decide clk && active) p 0x1006 ++
  viol (v.has p && !(d.mcgRuns m && decide (v.fld (pg .mcg m) MCG.FAMILY = v.fld p PGRP.FAMILY))) p 0x1007

end Sys2Proof.Machine
end

