-- ==== Sys2Proof/Machine/Service.lean ====
section
/-! DEFINITION. The supervisor's firmware changeover (R545, R546) and the `SYS`, `SVC` and `SRV` pages. -/

namespace Sys2Proof.Machine

/-- The `SRV` page. -/
def srvPg : Nat := pg .srv 0

/-- Store the changeover; `FW_STAT.PHASE` follows. -/
def Dev.setFw (d : Dev) (phase : Nat) (x : FwSt) : Dev := ({ d with fw := some x } : Dev).setF srvPg SRV.PHASE phase

/-- A handover that the supervisor drives is between Arm and Drain. -/
def Dev.handoverArmed (d : Dev) : Bool :=
  let at_ := fun (n : Nat) => decide (4 ≤ n)
  anyIf 16 (fun g => match (d.group g).rot with | some r => at_ r.phase | none => false) ||
  d.ti.moves.any (fun x => at_ x.2.phase) || d.cw.reps.any (fun x => at_ x.2.phase) ||
  (match d.ld.ho with | some h => at_ h.phase | none => false)

/-- Another slot of the supervisor is pending. -/
def Dev.svcPending (d : Dev) : Bool := anyIf 16 fun m => d.svcSlot m && (d.slot m).state.pending

/-- What waited for the end of the changeover starts: moves, rotations, row repairs. -/
def Dev.fwResume (d : Dev) : Dev :=
  let d1 := (List.range 16).foldl (fun (e : Dev) g =>
    e.rotTry g) d.moveDeferred
  (List.range 32).foldl (fun (e : Dev) b =>
    if e.flag (fmPg b) FMEM.GO && (e.rowRep? b).isNone then e.rowRepairStart b (e.fld (fmPg b) FMEM.RPR_CTL_ROW) else e) d1

/-- Words 5 and 6 of `FW_HO`: a bank and bits 15:0 of its version. -/
def Dev.bankWord (d : Dev) (b : Nat) : Word := wd (d.bankVer b % 65536 * 65536 + b)

/-- The changeover ends with notice `FW_HO`. -/
def Dev.fwEnd (d : Dev) (outcome : Nat) : Dev :=
  match d.fw with
  | none => d
  | some x =>
    let d1 := ((({ d with fw := none } : Dev).jobCancel .firmware).unwait .firmware).setF srvPg SRV.OUTCOME outcome
    let d2 := ((d1.setF srvPg SRV.ACTIVE 0).setF srvPg SRV.PHASE 0).setF srvPg SRV.GO 0
    let d3 := d2.raiseSev srvPg SRV.E_FW_HO (hoSev outcome) (wd (5 * 2 ^ 28 + outcome * 2 ^ 24)) (d.bankWord x.old)
      (d.bankWord x.new) (wd (d.fld srvPg SRV.DIFF))
    d3.refreshHealth.fwResume

/-- `FW_CHG`: `GO` has been accepted; Prepare begins. -/
def Dev.fwGo (d : Dev) : Dev :=
  let b := d.sec.bank
  let d1 := (((d.setF srvPg SRV.OUTCOME 15).setF srvPg SRV.ACTIVE 1).setF srvPg SRV.FAIL 0).setF srvPg SRV.DIFF 0
  d1.setFw 1 ⟨b, 1 - b, false, none, none, false⟩

/-- `FW_PREPARE_DONE`: the other bank is verified and loaded, and the overlap starts. -/
def Dev.fwPrepared (d : Dev) : Dev :=
  match d.fw with
  | none => d
  | some x =>
    if d.fld srvPg SRV.PHASE = 1 then
      let f := d.bankFail x.new
      if f = 0 then d.setFw 2 { x with since := some d.mono } else (d.setF srvPg SRV.FAIL f).fwEnd 4
    else d

/-- Why an agreed changeover waits though a slot may be free: another slot of the supervisor is pending, a handover stands
between Arm and Drain, or the `SRV` page is bound or dirty. -/
def Dev.fwHeld (d : Dev) : Bool := d.svcPending || d.handoverArmed || d.pagesBusy [srvPg]

/-- Arm: the supervisor takes a slot `FW_LEAD` µs ahead, or the changeover stays in Compare. The 10 s of waiting run while
`fwHeld`; a changeover that lacks only a slot is deferred and not aborted (R49). -/
def Dev.fwArm (d : Dev) (x : FwSt) : Dev :=
  let wait := fun (s : Option Nat) => (d.setFw 3 { x with ready := true, since := s }).svcWait .firmware
  if d.fwHeld then wait (some (x.since.getD d.mono))
  else
    let t := d.now + d.fld srvPg SRV.LEAD * 1000
    match d.svcBind .firmware [srvPg] t with
    | some e => e.setFw 4 { x with ready := true, since := none, instant := some t }
    | none => wait none

/-- A waiting changeover tries again. -/
def Dev.fwRetry (d : Dev) : Dev :=
  match d.fw with
  | some x => if x.ready ∧ x.instant = none then d.fwArm x else d.unwait .firmware
  | none => d.unwait .firmware

/-- `FW_COMPARE_DONE`: at the end of the overlap, with the largest difference in 0.01 ppb; in ACQUIRE the overlap goes on. -/
def Dev.fwCompare (d : Dev) (diff : Nat) : Dev :=
  match d.fw with
  | none => d
  | some x =>
    let ph := d.fld srvPg SRV.PHASE
    if (ph = 2 ∨ ph = 3) ∧ x.ready = false then
      let d0 := if ph = 2 then d.pass (x.since.getD d.mono + d.fld srvPg SRV.OVERLAP * 1000000 - d.mono) else d
      if d0.servo = 1 then (if ph = 2 then d0.setFw 3 { x with since := some d0.mono } else d0)
      else
        let k := if d0.fld tmPg TIME.SRC = 0 then 0 else diff
        let d1 := d0.setF srvPg SRV.DIFF (Nat.min k 0xFFFF)
        if d1.fld srvPg SRV.TOL < k then (d1.setF srvPg SRV.PHASE 3).fwEnd 1 else (d1.setF srvPg SRV.PHASE 3).fwArm { x with since := none }
    else d

/-- `FW_ARM_TIMEOUT`: 10 s of waiting to arm, or to leave ACQUIRE. -/
def Dev.fwTimeout (d : Dev) : Dev :=
  match d.fw with
  | none => d
  | some x =>
    let ph := d.fld srvPg SRV.PHASE
    match x.since with
    | some t => if ph = 3 ∧ x.instant = none then (d.pass (t + 10000000000 - d.mono)).fwEnd 2 else d
    | none => d

/-- The milestone applies: jobs accepted from the instant on belong to the new unit, and its bank is the active one. -/
def Dev.fwApply (d : Dev) : Dev :=
  match d.fw with
  | none => d
  | some x =>
    let d1 : Dev := { d with sec := { d.sec with activeBank := x.new } }
    let d2 := ((d1.setF srvPg SRV.ACT_BANK x.new).setF srvPg SRV.RUN_BANK x.new).setFw 6 { x with switched := true }
    (({ d2 with sec := { d2.sec with bank := x.new } } : Dev).setF secPg SEC.BANK x.new).setF secPg SEC.FALLBACK 0

/-- The milestone was refused or has expired. -/
def Dev.fwMiss (d : Dev) : Dev := d.fwEnd 3

/-- `FW_DRAIN_END`: the old unit halts. -/
def Dev.fwDrainEnd (d : Dev) : Dev :=
  match d.fw with
  | some x => if x.switched then (d.setReg secPg SEC.FW_VER (wd (d.bankVer x.new))).fwEnd 0 else d
  | none => d

/-- `FW_ABORT` before Switch. -/
def Dev.fwAbort (d : Dev) : Dev :=
  let d1 := d.setF srvPg SRV.ABORT 0
  match d1.fw with
  | some x => if x.switched then d1 else d1.fwEnd 5
  | none => d1

/-- A write of `GO` is refused with cause BLOCK (R545). -/
def Dev.srvBlocked (d : Dev) (off : Nat) (new : Word) : Bool :=
  let writing := match d.fab.ubusy with | some q => q.write | none => false
  decide (off = SRV.FW_CHG.off) && bitAt new 31 &&
    (d.fw.isSome || d.sto.job.isSome || writing || d.sec.recovery)

/-- `FW_CHG` has been written. -/
def Dev.srvLive (d : Dev) (off : Nat) (new : Word) : Dev :=
  if off = SRV.FW_CHG.off then
    let d1 := if bitAt new 31 then d.fwGo else d
    if bitAt new 30 then d1.fwAbort else d1
  else d

/-- Block reset of the `SRV` page: a changeover before Switch ends with outcome 5 and leaves its slot as it is (R51), a later one
goes on. -/
def Dev.srvReset (d : Dev) : Dev :=
  let d1 := if (match d.fw with | some x => x.switched | none => true) then d.setF srvPg SRV.ABORT 0 else (d.jobLeave .firmware).fwAbort
  if d1.fw.isSome then d1.resetPage srvPg fun o => decide (o = SRV.FW_STAT.off ∨ o = SRV.FW_CHG.off)
  else d1.resetPage srvPg fun _ => false

end Sys2Proof.Machine
end

