-- ==== Sys2Proof/Machine/Resets.lean ====
section
/-! DEFINITION. The wider reset scopes (R40), rails (R490 to R492), the dark device (R500, R501), the thermal trip (R512),
tamper (R485, R486), host resets (R444, R445). Block resets stand with their blocks. -/

namespace Sys2Proof.Machine

/-! ### What a reset keeps -/

/-- The register at an address is held outside its page: in the store, the fuses, the battery domain or, but for PORST_N, the
always-on domain (R40). -/
def keptReg (porst : Bool) (a : Nat) : Bool :=
  match pageAt a with
  | none => false
  | some (c, _) =>
    match findReg c (a % 0x800) with
    | none => false
    | some r => decide (r.scope ≠ .page) && !(porst && decide (r.scope = .alwaysOn))

/-- A field keeps its value. -/
def Dev.keepF (old e : Dev) (p : Nat) (f : Fld) : Dev := e.setF p f (old.fld p f)

/-- Calibration, `SUSPECTS` counts and retirements of the slices of a group are kept in the store (R167, R185); a slice whose
retirement was pending serves no more. -/
def Dev.keepSlices (old e : Dev) (g : Nat) : Dev :=
  let p := pg .pgrp g
  let e1 := (List.range 10).foldl (fun (e : Dev) s =>
    let v := { old.slice g s with stepDue := 0, ext := false, marked := false, stale := false, boot := false, hist := [], fasts := [] }
    let e2 := old.keepF (e.setSlice g s v) p (PGRP.SUSPECTS.at s)
    if old.fld p (PGRP.SUSPECTS.at s) = 2 then e2.setSl g s 7 15 else e2) e
  let n := countIf 10 fun s => decide (old.fld p (PGRP.SUSPECTS.at s) ≠ 2)
  (((e1.familyChanged g).setF p PGRP.HEALTHY n).setF p PGRP.LAYBY n).setFlag p PGRP.NO_SPARE (decide (n = 0))

/-- Column mapping and retirements of a tile region are restored from the store's record (R223). -/
def Dev.keepCols (old e : Dev) (r : Nat) : Dev :=
  let p := tregPg r
  let e1 := old.keepF (old.keepF (old.keepF e p TREG.SPARE_STATE) p TREG.SPARE_FOR) p TREG.RETIRED
  (List.range 16).foldl (fun (e : Dev) c =>
    let e2 := old.keepF e p (TREG.PHYS.at c)
    if old.fld p TREG.RETIRED / 2 ^ old.phys r c % 2 = 1 then e2.setCol r c 2 else e2) e1

/-- Row repairs of a bank are restored at power-up (R294). -/
def Dev.keepRows (old e : Dev) (b : Nat) : Dev := old.keepF (old.keepF e (fmPg b) FMEM.SPARE_USED) (fmPg b) FMEM.SPARE_BAD

/-- The failures and retirements of a core PLL pair last until PORST_N (R507). -/
def Dev.keepPair (old e : Dev) (k : Nat) : Dev :=
  old.keepF (old.keepF (old.keepF e clkPg (CLK.RETIRED.at k)) clkPg (CLK.FAILS_ODD.at k)) clkPg (CLK.FAILS_EVEN.at k)

/-- A column of the record that `CAL_OVERWRITE` cleared is mapped again (R223): `x` is region × 17 + physical column. -/
def Dev.colReturn (d : Dev) (x : Nat) : Dev :=
  let r := x / 17
  let c := x % 17
  let p := tregPg r
  let left := d.fld p TREG.RETIRED
  let d1 := d.setF p TREG.RETIRED (left - (left / 2 ^ c % 2) * 2 ^ c)
  if c = 16 then
    match (List.range 16).find? fun k => decide (d1.fld p (TREG.PHYS.at k) = 16) with
    | some k => (d1.setF p TREG.SPARE_STATE 1).setF p TREG.SPARE_FOR k
    | none => d1.setF p TREG.SPARE_STATE 0
  else if d1.fld p (TREG.PHYS.at c) = 16 then
    let d2 := (d1.setF p (TREG.PHYS.at c) c).setF p TREG.SPARE_FOR 0
    if d2.fld p TREG.RETIRED / 65536 = 0 then d2.setF p TREG.SPARE_STATE 0 else d2
  else d1

/-- The security state that every reset keeps: keys, the active bank, a trip still to be reported. -/
def SecSt.kept (s : SecSt) : SecSt :=
  { SecSt.init with kimgF := s.kimgF, kimgB := s.kimgB, kcmd := s.kcmd, activeBank := s.activeBank, tamperDue := s.tamperDue,
                    colBack := s.colBack }

/-- Frame memory and its row repairs: no reset clears the memory itself. -/
def CwSt.kept (c : CwSt) : CwSt := { CwSt.init with rows := c.rows, used := c.used, bad := c.bad, mem := c.mem, pois := c.pois }

/-- Power state through a reset: what holds the core, the time of PORST_N, the hour under way. The thermal trip is held in
the always-on domain (R502), which PORST_N clears. -/
def PowerSt.kept (x : PowerSt) (porst : Bool) : PowerSt :=
  { PowerSt.init with tripped := x.tripped && !porst, railsOut := x.railsOut, hotHour := x.hotHour, hourAt := x.hourAt, porstAt := x.porstAt }

/-- The device with everything cleared that both columns of *Reset scopes* mark. -/
def Dev.cleared (d : Dev) (porst : Bool) : Dev :=
  let e : Dev := { Dev.reset with
    regs := Tab.keep d.regs (keptReg porst), mono := d.mono, fresh := d.fresh, out := d.out,
    cw := d.cw.kept, sto := { d.sto with job := none }, sec := d.sec.kept, pw := d.pw.kept porst }
  let e1 := d.keepF (d.keepF e pwrPg PWR.RAIL_OK) pwrPg PWR.PFAIL
  let e2 := (List.range 16).foldl (fun (e : Dev) g => d.keepSlices e g) e1
  let e3 := (List.range 16).foldl (fun (e : Dev) r => d.keepCols e r) e2
  let e4 := (List.range 32).foldl (fun (e : Dev) b => d.keepRows e b) e3
  if e4.owned then e4.setF secPg SEC.UNLOCKED 0 else e4

/-- A SYS reset (R40): `RESET_CAUSE` tells why. -/
def Dev.sysReset (d : Dev) (cause : Nat) : Dev :=
  let e := (List.range 4).foldl (fun (e : Dev) k => d.keepPair e k) (d.cleared false)
  (e.setF pwrPg PWR.CAUSE cause).count pwrPg PWR.RESTART_CNT

/-- A reset as under PORST_N (R40): cause 0, or 1 for the loss of VAON. -/
def Dev.porst (d : Dev) (cause : Nat) : Dev :=
  let d1 : Dev := d.sec.colBack.foldl (fun (e : Dev) x => e.colReturn x) d
  let e := (({ d1 with sec := { d1.sec with colBack := [] } } : Dev).cleared true).setF pwrPg PWR.CAUSE cause
  { e with pw := { e.pw with porstAt := e.mono } }

/-- The core runs: the device is not dark, no thermal trip and no lost rail holds it. -/
def Dev.coreOn (d : Dev) : Bool := !(d.pw.dark || d.pw.tripped || d.pw.railsOut)

/-! ### Host resets (R444, R445) -/

/-- Scope 1 widens a host reset to a SYS reset. -/
def Dev.hostScope (d : Dev) : Dev := if d.fld pciPg PCIE.HOST_RESET_SCOPE = 1 then d.sysReset 7 else d

/-- The personality deadline runs from the first rising PERST_N of a device without a personality (R401). -/
def Dev.deadlineRuns (d : Dev) : Dev :=
  if d.ld.persSrc = none ∧ d.ld.bare = false ∧ d.ld.persAt = none then { d with ld := { d.ld with persAt := some d.mono } } else d

/-- PERST_N falls and rises on a running core. -/
def Dev.perst (d : Dev) : Dev :=
  let d1 := (d.count pciPg PCIE.PERST_CNT).hostReset false
  (d1.hostScope.hostResetDone 0).deadlineRuns

/-- A function-level reset. -/
def Dev.flr (d : Dev) : Dev := ((d.count pciPg PCIE.FLR_CNT).hostReset true).hostScope.hostResetDone 1

/-! ### The dark device (R500, R501) -/

/-- `DARK_CTL.ENTER` is refused with cause BLOCK: a bound class A flow, a load, a store write. -/
def Dev.darkBlocked (d : Dev) (new : Word) : Bool :=
  bitAt new 0 && (((⟨d, []⟩ : View).bindings.any fun b => decide (d.flowClass b.flow = 0)) || d.ld.job.isSome || d.sto.job.isSome ||
    d.fab.ubusy.isSome)

/-- `DARK_ENTER`: ports OFF, regions DARK, the PCIe link down. -/
def Dev.darkEnter (d : Dev) : Dev :=
  let d1 := (List.range 144).foldl (fun (e : Dev) i => if e.st (portPg i) = 0 then e else e.portOff i) (d.setF pwrPg PWR.ENTER 0)
  let d2 := (List.range 34).foldl (fun (e : Dev) n => e.regionDark n) d1
  let d3 := (List.range 16).foldl (fun (e : Dev) r => (e.tregPower r 3).setF (tregPg r) HDR.PWR_STATE 3) d2
  let d4 := d3.pcieDown
  { d4 with pw := { d4.pw with dark := true } }

/-- The pin number of WAKE_N among pin messages. -/
def wakePin : Nat := 280

/-- `DARK_WAKE`: as after a SYS reset, with cause 5; after a break WAKE_N is driven low. -/
def Dev.darkWake (d : Dev) (k : WakeKind) : Dev :=
  if d.pw.dark then
    match k with
    | .porst => d.porst 0
    | .perst => (d.sysReset 5).deadlineRuns
    | .brk => (d.sysReset 5).send (.pin wakePin true false)
  else d

/-! ### Rails (R490 to R492, R513) -/

/-- The event of a rail, while the supervisor runs. -/
def Dev.railEvent (d : Dev) (i : Nat) (e : Evt) : Dev := if d.pw.supRun then d.raise pwrPg e 0 (wd i) else d

/-- A rail of the core: VCORE, VSRAM, VST. -/
def coreRail (i : Nat) : Bool := decide (i = 0 ∨ i = 1 ∨ i = 5)

/-- Set one bit of `RAIL_OK`. -/
def Dev.setRail (d : Dev) (i : Nat) (b : Bool) : Dev :=
  let w := d.fld pwrPg PWR.RAIL_OK
  d.setF pwrPg PWR.RAIL_OK (w - (w / 2 ^ i % 2) * 2 ^ i + if b then 2 ^ i else 0)

/-- Rail `i` of `RAIL_OK` is valid. -/
def Dev.railOk (d : Dev) (i : Nat) : Bool := decide (d.fld pwrPg PWR.RAIL_OK / 2 ^ i % 2 = 1)

/-- The keys of the battery domain are gone (R467). -/
def Dev.keysLost (d : Dev) : Dev := { d with sec := { d.sec with kcmd := none, kimgB := none } }

/-- Frame memory and its poison are gone. -/
def Dev.fmLost (d : Dev) : Dev := { d with cw := { d.cw with mem := [], pois := [] } }

/-- `RAIL_LOST`: the rail leaves its range, and the table *Loss of a rail* applies. -/
def Dev.railLost (d : Dev) (i : Nat) : Dev :=
  if d.railOk i = false then d
  else
    let d1 := ((d.setRail i false).count pwrPg PWR.RAIL_LOSS_CNT).railEvent i PWR.E_RAIL_LOST
    if i = 2 then
      let d2 := (d1.porst 1).fmLost
      let d3 : Dev := { d2 with pw := { d2.pw with railsOut := true } }
      if d3.railOk 6 then d3 else d3.keysLost
    else if coreRail i then
      let d2 := d1.sysReset 2
      let d3 := if i = 1 then d2.fmLost else d2
      { d3 with pw := { d3.pw with railsOut := true } }
    else if i = 6 then (if d1.railOk 2 then d1 else d1.keysLost)
    else ((List.range 8).foldl (fun (e : Dev) g => e.pllUnlock g true) d1).pcieDown

/-- `RAIL_BACK`: the rail has been inside its range for 1 ms; the core starts once all its rails are valid. -/
def Dev.railBack (d : Dev) (i : Nat) : Dev :=
  if d.railOk i then d
  else
    let d1 := (d.setRail i true).railEvent i PWR.E_RAIL_BACK
    if d1.coreRails then { d1 with pw := { d1.pw with railsOut := false } } else d1

/-! ### The thermal trip (R512) -/

/-- `THERMAL_TRIP`: a sensor reads 125 °C; the core is held in SYS reset. -/
def Dev.thermalTrip (d : Dev) : Dev :=
  let d1 := d.sysReset 4
  { d1 with pw := { d1.pw with tripped := true } }

/-- A sample of the sensors while the trip holds the core: every sensor below 105 °C releases it. -/
def Dev.tripRelease (d : Dev) (ts : List Nat) : Dev :=
  if d.pw.tripped ∧ hottest ts < 105 then { d with pw := { d.pw with tripped := false } } else d

/-! ### Tamper (R485, R486) -/

/-- `TAMPER_TRIP`: input `i` has held `level` for 10 µs. -/
def Dev.tamperTrip (d : Dev) (i : Nat) (level : Bool) : Dev :=
  let en := if i = 0 then SEC.EN0 else SEC.EN1
  let pol := if i = 0 then SEC.POL0 else SEC.POL1
  if d.flag secPg en ∧ d.flag secPg pol = level then
    let n := Nat.min (d.fld secPg SEC.COUNT + 1) 0xFFFF
    let w := d.fld secPg SEC.WHICH
    let d1 := (((d.keysLost).setF secPg SEC.LATCHED 1).setF secPg SEC.WHICH (w - (w / 2 ^ i % 2) * 2 ^ i + 2 ^ i)).setF secPg
      SEC.COUNT n
    if d1.pw.supRun then
      let d2 := d1.raise secPg SEC.E_TAMPER
      if d2.flag secPg SEC.ACT then (d2.fmLost).sysReset 6 else d2
    else { d1 with sec := { d1.sec with tamperDue := true } }
  else d

end Sys2Proof.Machine
end

