-- ==== Sys2Proof/Machine/React.lean ====
section
/-! DEFINITION. Which block answers for a page: what it says about a direct write (R21, R31), what it does when a register has
become live, its block reset (R26, R40), its checker rules (R56), and its part in a power transition (R496). -/

namespace Sys2Proof.Machine

/-- The region number of a fabric or keeper page (32 K0, 33 K1). -/
def regIdx (c : Cls) (i : Nat) : Nat := if c = .keep then 32 + i else i

/-! ### A direct write -/

/-- A power state absent from `PWR_STATES` (R554). -/
def pwrAbsent (c : Cls) (new : Word) : Bool := decide (c.info.pwr / 2 ^ fieldOf HDR.PWR_REQ new % 2 = 0)

/-- Cause VALUE beyond the limits of the field table. -/
def Dev.classValueBad (d : Dev) (c : Cls) (i off : Nat) (new : Word) : Bool :=
  if off = HDR.PAGE_CTL.off then pwrAbsent c new
  else
    match c with
    | .treg => d.tregValueBad i off new
    | .freg => d.fregValueBad i off new
    | .keep => d.fregValueBad (32 + i) off new
    | .lgrp => lgrpValueBad off new
    | .lane => laneValueBad off new
    | .iob => iobValueBad off new
    | .uart => serValueBad c off new
    | .spi => serValueBad c off new
    | .i2c => serValueBad c off new
    | .clk => clkValueBad off new
    | .mon => monValueBad off new
    | .ntc => d.ntcValueBad off new
    | .sec => secValueBad off new
    | .auth => authValueBad off new
    | .store => storeValueBad off new
    | _ => false

/-- Classes whose registers bind flows (R276). -/
def Cls.binds : Cls → Bool
  | .port => true | .cway => true | .fmem => true | .freg => true | .keep => true | .aes3 => true | _ => false

/-- Cause BLOCK by the rules of the block itself. -/
def Dev.ruleBlocked (d : Dev) (src : Source) (c : Cls) (i off : Nat) (old new : Word) : Bool :=
  match c with
  | .port => d.portBlocked i off old new
  | .pgrp => d.grpBlocked i off old new
  | .treg => d.tregBlocked src i off old new
  | .freg => d.fregBlocked i off old new || (decide (off = FREG.ISO_CTL.off) && d.isoBlocked i new)
  | .keep => d.fregBlocked (32 + i) off old new || (decide (off = FREG.ISO_CTL.off) && d.isoBlocked (32 + i) new)
  | .cway => d.cwayBlocked off new
  | .fmem => d.fmemBlocked i off old new
  | .lgrp => d.lgrpBlocked i off old new
  | .lane => d.laneBlocked i off new
  | .eth => d.ethBlocked i off old new
  | .media => d.mediaBlocked i off
  | .time => d.timeBlocked off new
  | .mcg => d.mcgBlocked i off old new
  | .ldr => d.ldrBlocked src off old new
  | .uart => d.serBlocked (pg c i) off
  | .spi => d.serBlocked (pg c i) off
  | .i2c => d.serBlocked (pg c i) off || (decide (src ≠ .sup) && d.i2cManaged i)
  | .clk => d.clkBlocked off old new
  | .srv => d.srvBlocked off new
  | .sec => d.secBlocked off new
  | .auth => d.authBlocked src off
  | .ntc => d.ntcBlocked off old new
  | .pwr => decide (off = PWR.DARK_CTL.off) && d.darkBlocked new
  | _ => false

/-- Cause BLOCK: the block's rules, R498, R276. -/
def Dev.classBlocked (d : Dev) (src : Source) (c : Cls) (i off : Nat) (old new : Word) : Bool :=
  d.ruleBlocked src c i off old new || (decide (off = HDR.PAGE_CTL.off) && d.powerBarred c i old new) ||
    (c.binds && d.bindRefused (pg c i + off) new)

/-- What a refusal with cause BLOCK raises beside itself. -/
def Dev.blockNote (d : Dev) (c : Cls) (i off : Nat) (new : Word) : Dev :=
  match c with
  | .treg => d.tregBlockNote i off new
  | _ => d

/-! ### A register becomes live -/

/-- The block's reaction. `old` and `new` are the words before and after; W1S and WO fields of `new` are as written. -/
def Dev.classLive (d : Dev) (src : Source) (c : Cls) (i off : Nat) (via : Via) (old new : Word) : Dev :=
  match c with
  | .port => d.portLive i off via old new
  | .pgrp => d.grpLive i off old new
  | .treg => d.tregLive i off old new
  | .freg => (d.fregLive i off old new) |> fun e => if off = FREG.ISO_CTL.off then e.isoLive i new else e
  | .keep => (d.fregLive (32 + i) off old new) |> fun e => if off = FREG.ISO_CTL.off then e.isoLive (32 + i) new else e
  | .cway => d.cwayLive off via old new
  | .fmem => d.fmemLive i off old new
  | .lgrp => d.lgrpLive i off old new
  | .lane => d.laneLive i off old new
  | .eth => (d.ethLive i off old new).ethTimeLive i off new
  | .time => d.timeLive off old new
  | .mcg => d.mcgLive i off via old new
  | .ldr => d.ldrLive src off new
  | .iob => d.iobLive i off old new
  | .uart => d.perLive c i off old new
  | .spi => d.perLive c i off old new
  | .i2c => d.perLive c i off old new
  | .aes3 => d.perLive c i off old new
  | .ltc => d.perLive c i off old new
  | .wclk => d.perLive c i off old new
  | .clk => d.clkLive off new
  | .srv => d.srvLive off new
  | .sec => d.secLive off new
  | .auth => d.authLive off new
  | .pwr => if off = PWR.DARK_CTL.off ∧ bitAt new 0 then d.darkEnter else d
  | _ => d

/-- A register has become live: the block reacts, and a new `PWR_REQ` is a request (R497). -/
def Dev.react (d : Dev) (src : Source) (c : Cls) (i off : Nat) (via : Via) (old new : Word) : Dev :=
  let d1 := d.classLive src c i off via old new
  if off = HDR.PAGE_CTL.off ∧ fieldChanged HDR.PWR_REQ old new then d1.reqPower (pg c i) (fieldOf HDR.PWR_REQ new) else d1

/-! ### Block resets -/

/-- `PCIE`: R40 keeps the host-facing state; the statistics counters clear. -/
def Dev.pcieReset (d : Dev) : Dev := (pciPg + HDR.REFUSE_CNT.off) :: Cls.statOffs .pcie |>.foldl (fun (e : Dev) a =>
  if a < 0x1000 then e.put (pciPg + a) 0 else e.put a 0) d

/-- `PWR`: the rail monitors and PFAIL_N sensing are always-on (R502), so `RAIL_OK` and `PFAIL` stay. -/
def Dev.pwrReset (d : Dev) : Dev :=
  ((d.resetPage pwrPg fun _ => false).setF pwrPg PWR.RAIL_OK (d.fld pwrPg PWR.RAIL_OK)).setF pwrPg PWR.PFAIL (d.fld pwrPg PWR.PFAIL)

/-- The registers of a page and what its block does. -/
def Dev.classReset (d : Dev) (c : Cls) (i : Nat) : Dev :=
  match c with
  | .port => d.portReset i
  | .pgrp => d.grpReset i
  | .pdie => d.dieReset i
  | .treg => d.tregReset i
  | .freg => d.fregReset i
  | .keep => d.fregReset (32 + i)
  | .cway => d.cwayReset
  | .fmem => d.fmemReset i
  | .scrb => d.scrbReset
  | .lgrp => d.lgrpReset i
  | .lane => d.laneReset i
  | .eth => d.ethReset i
  | .mcg => d.mcgReset i
  | .ldr => d.ldrReset
  | .store => d.storeReset
  | .iob => d.iobReset i
  | .uart => d.perReset c i
  | .spi => d.perReset c i
  | .i2c => d.perReset c i
  | .aes3 => d.perReset c i
  | .ltc => d.perReset c i
  | .wclk => d.perReset c i
  | .clk => d.clkReset
  | .srv => d.srvReset
  | .sec => d.secReset
  | .auth => d.authReset
  | .ntc => d.ntcReset
  | .blk => d.blkReset
  | .pcie => d.pcieReset
  | .pwr => d.pwrReset
  | .svc => (d.resetPage (pg c i) fun _ => false).refreshHealth
  | _ => d.resetPage (pg c i) fun _ => false

/-- Block reset of a page other than `SYS`, `MST` and `CHK`: the power state goes on from where it is, toward the RUN that
`PWR_REQ` now asks for. -/
def Dev.pageReset (d : Dev) (c : Cls) (i : Nat) : Dev :=
  let p := pg c i
  let st := d.pwrState p
  let d1 := ((d.classReset c i).setF p HDR.PWR_STATE st).setF p HDR.BLK_RST 0
  if st = 0 then d1 else d1.reqPower p 0

/-! ### Checker rules -/

/-- CK-0003 and CK-0004 (R61) on a page. -/
def View.ctlRules (v : View) (c : Cls) (p : Nat) : List Viol :=
  let w := v.raw (p + HDR.PAGE_CTL.off)
  let dark := decide (fieldOf HDR.PWR_REQ w = 3) || decide (v.d.fld p HDR.PWR_REQ = 3)
  viol (v.has p && pwrAbsent c w) p 0x0003 ++ viol (v.has p && bitAt w 0 && dark) p 0x0004

/-- The rules of the page's block. -/
def View.classRules (v : View) (c : Cls) (i : Nat) : List Viol :=
  match c with
  | .port => v.portRules i
  | .pgrp => v.grpRules i
  | .treg => v.tregRules i
  | .freg => v.fregRules i ++ v.isoRules i
  | .keep => v.fregRules (32 + i) ++ v.isoRules (32 + i)
  | .cway => v.cwayRules
  | .fmem => v.fmemRules i
  | .lgrp => v.lgrpRules i
  | .lane => v.laneRules i
  | .eth => v.ethRules i
  | .mcg => v.mcgRules i
  | .iob => v.iobRules i
  | .uart => v.perRules c i
  | .spi => v.perRules c i
  | .i2c => v.perRules c i
  | .aes3 => v.perRules c i
  | .ltc => v.perRules c i
  | .wclk => v.perRules c i
  | .clk => v.clkRules
  | _ => []

/-- Every rule on one page, by code. -/
def View.pageRules (v : View) (c : Cls) (i : Nat) : List Viol :=
  let p := pg c i
  v.ctlRules c p ++ v.classRules c i ++ (if c.binds then v.bindRules p else []) ++ v.powerRules p

/-! ### Power states (R496, R497) -/

/-- What the block does when its page reaches RUN, DOZE or LULL. -/
def Dev.classPower (d : Dev) (c : Cls) (i old new : Nat) : Dev :=
  match c with
  | .port => if d.portWanted i then d.portLeaveOff i else d
  | .pgrp => if d.grpOn i then d else d.grpUnlock i
  | .treg => d.tregPower i new
  | .freg => d.fregPower i old new
  | .keep => d.fregPower (32 + i) old new
  | .lgrp => d.lgrpPower i new
  | .uart => d.perPower c i
  | .spi => d.perPower c i
  | .i2c => d.perPower c i
  | .aes3 => d.perPower c i
  | .ltc => d.perPower c i
  | .wclk => d.perPower c i
  | _ => d

/-- The registers of a page take their reset values. -/
def Dev.bareReset (d : Dev) (p : Nat) : Dev := d.resetPage p fun _ => false

/-- An engine in DARK loses its flow-table entries. -/
def Dev.mediaDark (d : Dev) (m : Nat) : Dev :=
  d.ftFlows.foldl (fun (e : Dev) f =>
    if (e.ent f).engine = m then
      let e1 := (List.range 16).foldl (fun (x : Dev) w => x.setFt f w 0) e
      { e1 with md := { e1.md with rx := Tab.del e1.md.rx f, tx := Tab.del e1.md.tx f } }
    else e) d

/-- The block loses its state in DARK (R23, R496): its registers take their reset values in both halves, but for what the store
keeps. -/
def Dev.classDark (d : Dev) (c : Cls) (i : Nat) : Dev :=
  let p := pg c i
  match c with
  | .port => d.portReset i
  | .pgrp =>
    let d1 := (d.grpUnlock i).bareReset p
    d.keepSlices ({ d1 with an := { d1.an with groups := Tab.del d1.an.groups i } } : Dev) i
  | .treg => d.keepCols ((d.tregPower i 3).bareReset p) i
  | .freg => (d.regionDark i).bareReset p
  | .lgrp => d.lgrpReset i
  | .media => (d.mediaDark i).bareReset p
  | .uart => d.perReset c i
  | .spi => d.perReset c i
  | .i2c => d.perReset c i
  | .aes3 => d.perReset c i
  | .ltc => d.perReset c i
  | .wclk => d.perReset c i
  | _ => d.bareReset p

/-- The header of a page outlives DARK. -/
def Dev.keepHeader (old e : Dev) (p : Nat) : Dev :=
  let e1 := [0x08, 0x808, 0x14, 0x18, 0x30, 0x34, 0x38, 0x3C].foldl (fun (x : Dev) o => x.put (p + o) (old.raw (p + o))) e
  (e1.setReg p HDR.EVT_STAT (e1.reg p HDR.EVT_STAT ||| old.reg p HDR.EVT_STAT)).setBind p (old.bind p)

/-- Registers of the page that a milestone changed in LULL act now (R64). -/
def Dev.lateActs (d : Dev) (c : Cls) (i : Nat) : Dev :=
  let p := pg c i
  let mine := d.pw.late.filter fun x => decide (pageBase x.1 = p)
  let d1 : Dev := { d with pw := { d.pw with late := Tab.keep d.pw.late fun a => decide (pageBase a ≠ p) } }
  mine.foldl (fun (e : Dev) x => e.classLive .sup c i (x.1 % 0x1000) Via.direct x.2 (e.raw x.1)) d1

/-- The page has reached power state `st`. -/
def Dev.powerAt (d : Dev) (c : Cls) (i st : Nat) : Dev :=
  let p := pg c i
  let old := d.pwrState p
  let d1 := d.setF p HDR.PWR_STATE st
  if st = 3 then (d1.keepHeader (d1.classDark c i) p).setF p HDR.PWR_STATE 3
  else
    let d2 := d1.classPower c i old st
    if st ≤ 1 then d2.lateActs c i else d2

/-- The power switch of a page that wakes has closed (R537). -/
def Dev.switchClosed (d : Dev) (x : PwrTrans) : Dev :=
  match x.lag with
  | some n => d.pass (x.at_ + n - d.mono)
  | none => d

/-- `POWER_STATE_REACHED` (R496, R497, R537): a transition ends, at the earliest as the page's switch closes; a request that
waits starts. -/
def Dev.powerReached (d : Dev) (p : Nat) : Dev :=
  match Tab.get d.pw.trans p, pageAt p with
  | some x, some (c, i) =>
    let d0 := d.switchClosed x
    let d1 := ({ d0 with pw := { d0.pw with trans := Tab.del d0.pw.trans p } } : Dev).powerAt c i x.to_
    match x.wait with
    | some st => d1.reqPower p st
    | none => d1
  | _, _ => d

end Sys2Proof.Machine
end

