-- ==== Sys2Proof/Machine/Checker.lean ====
section
/-! DEFINITION. The milestone unit and the checker (R45 to R61, R555): commands of a slot, triggers, checks and their results.
The apply stands in `Stones`. -/

namespace Sys2Proof.Machine

/-! ### Triggers (R52, R53) -/

/-- Slot `m` has a trigger of type: 0 IMMEDIATE, 1 DEVICE_TIME, 2 MEDIA_EDGE, 3 FLOW_FRAME, 4 MANUAL. -/
def Dev.leadNs (d : Dev) (m : Nat) : Nat := d.fld mstPg (MST.LEAD.at m) * 1000

/-- The first sample edge of `MCG` whose count is a multiple of k at or after `t`, while the generator runs. -/
def Dev.edgeInstant (d : Dev) (m t : Nat) : Option Nat :=
  let n := d.fld mstPg (MST.MCG.at m)
  if d.mcgRuns n then
    let k := d.fld mstPg (MST.K_M1.at m) + 1
    some (edgeTime (d.mcgRate n) (ceilDiv (edgeAt (d.mcgRate n) t) k * k))
  else none

/-- The first frame start of an active ST 2110-20 or -22 flow at or after `t`. -/
def Dev.frameInstant (d : Dev) (m t : Nat) : Option Nat :=
  let f := d.fld mstPg (MST.FLOW.at m)
  let v := d.entVrate (d.ent f)
  if d.videoActive f ∧ v ≠ 0 then some (frameTime v (frameAt v t)) else none

/-- The instant a `CHECK` or `TRY` accepted at `t` resolves; none for IMMEDIATE and MANUAL. -/
def Dev.resolve (d : Dev) (m t : Nat) : Option Nat :=
  match d.trig m with
  | 1 => some (d.atRegs m)
  | 2 => d.edgeInstant m (t + d.leadNs m)
  | 3 => d.frameInstant m (t + d.leadNs m)
  | _ => none

/-! ### Slots that end (R45, R46, R50) -/

/-- The block of a port in the scope hears that its slot has left ARMED without applying (R151). -/
def Dev.disarmPages (d : Dev) (m : Nat) (pages : List Nat) : Dev :=
  pages.foldl (fun (e : Dev) p => match pageAt p with | some (.port, i) => e.portDisarmed i m | _ => e) d

/-- The supervisor's handover hears that its milestone was refused or has expired (R73). -/
def Dev.jobMiss (d : Dev) (job : Job) : Dev :=
  match job with
  | .slice i k r => if r then d.repRebind i k else d.rotMiss i
  | .move r => d.moveMiss r
  | .colRepair k => d.colRepairRetry k
  | .row b => d.rowAbort b 3
  | .region => d.hoMiss
  | .release _ => d
  | .firmware => d.fwMiss
  | .done => d

/-- A deferred planned handover of a group whose last comparison passed asks for a slot again. -/
def Dev.rotRetry (d : Dev) (i kind : Nat) : Dev :=
  let g := i / 9
  match (d.group g).rot with
  | some r =>
    if r.phase ≤ 3 ∧ r.defer.isSome ∧ g * 9 + r.port = i then
      let n := (if r.kind = 1 then d.wordAt i d.now else d.sampAt i d.now) + 1 + d.armLead g
      d.rotArm g r n (d.hoTime i r.kind n)
    else d.unwait (.slice i kind false)
  | none => d.unwait (.slice i kind false)

/-- A handover that waits for a slot seeks one again (R50). -/
def Dev.jobRetry (d : Dev) (job : Job) : Dev :=
  match job with
  | .slice i k r => if r then d.repRebind i k else d.rotRetry i k
  | .move r => d.moveRetry r
  | .colRepair k => d.colRepairRetry k
  | .row b => d.rowRetry b
  | .region => d.hoRetry
  | .release _ => d.unwait job
  | .firmware => d.fwRetry
  | .done => d.unwait job

/-- The job is a repair: a slice or column repair, or a segment move whose source has failed (R263). -/
def Dev.jobRepair (d : Dev) (job : Job) : Bool :=
  match job with
  | .move r => match d.move? r with | some m => m.repair | none => false
  | j => j.repair

/-- The job waits for bound or dirty pages too, and its 10 s follow them (R259, R293, R404). -/
def Job.pageWait : Job → Bool
  | .move _ => true
  | .row _ => true
  | .region => true
  | .firmware => true
  | _ => false

/-- Handovers that wait for a slot seek one: repairs first, then planned handovers, oldest first (R50). -/
def Dev.slotFreed (d : Dev) : Dev :=
  let w := d.mst.waiting
  (w.filter (fun j => d.jobRepair j) ++ w.filter (fun j => !(d.jobRepair j))).foldl (fun (e : Dev) j =>
    if (e.freeSvcSlot.isSome ∨ j.pageWait = true) ∧ e.mst.waiting.contains j then e.jobRetry j else e) d

/-- The slot's own end: state, bindings, and, when the supervisor took it under R50, the return to IDLE. -/
def Dev.slotDone (d : Dev) (m : Nat) : Dev :=
  let job := (d.slot m).job
  let d1 := d.setSlot m { d.slot m with job := none, cancel := false, instant := none }
  if job.isSome ∧ d1.fld mstPg MST.SVC_SLOTS = 0 then d1.slotTo m .idle else d1

/-- A slot ends with nothing applied, REFUSED or EXPIRED: pages are unbound and raise `MS_MISS` (R46, R65). -/
def Dev.slotMiss (d : Dev) (m : Nat) (st : SlotState) (e : Evt) (cnt : Fld) (w7 : Word) : Dev :=
  let s := d.slot m
  let d1 := (d.slotTo m st).unbindAll m
  let d2 := if s.state = .armed then d1.disarmPages m s.scope else d1
  let d3 := s.scope.foldl (fun (x : Dev) p => x.raiseMiss p) (d2.count mstPg cnt)
  let d4 := d3.slotEvent m e w7
  let d5 := (d4.relMiss m).slotDone m
  (match s.job with | some j => d5.jobMiss j | none => d5).slotFreed

/-- Result 3, not checked, on every page of the scope. -/
def Dev.notChecked (d : Dev) (m : Nat) : Dev := (d.slot m).scope.foldl (fun (e : Dev) p => e.setCheckRes p 3 0 0) d

/-- Slot `m` goes to EXPIRED; `step` tells that a step of device time did it. -/
def Dev.slotExpire (d : Dev) (m : Nat) (step : Bool) : Dev :=
  let d1 := if (d.slot m).state = .armed then d else d.notChecked m
  (d1.dropChecks m).slotMiss m .expired MST.E_SLOT_EXPIRED MST.MS_EXPIRED_CNT (wd (if step then 1 else 0))

/-- Slot `m` is cancelled and returns to IDLE. -/
def Dev.slotCancel (d : Dev) (m : Nat) : Dev :=
  let s := d.slot m
  let d1 := (d.count mstPg MST.MS_CANCEL_CNT).slotEvent m MST.E_SLOT_CANCELLED 0
  let d2 := d1.slotIdle m
  (if s.state = .armed then d2.disarmPages m s.scope else d2).slotFreed

/-- A CHECKING slot whose instant is reached before its check ends: expired, or IDLE when a `CANCEL` waits (R45). -/
def Dev.slotLate (d : Dev) (m : Nat) (step : Bool) : Dev :=
  if (d.slot m).cancel then ((d.notChecked m).dropChecks m).slotCancel m else d.slotExpire m step

/-- The `TRY` of slot `m` that waits for the checker. -/
def Dev.waitTry (d : Dev) (m : Nat) : Option CheckJob := d.mst.queue.find? fun j => decide (j.slot = m) && j.isTry

/-- The instant that ends a slot which counts as CHECKING: the resolved one, or for a `TRY` that waits the one it resolved,
unless that was past already when it was accepted (R56: the wait counts towards expiry). -/
def Dev.lateAt (d : Dev) (m : Nat) : Option Nat :=
  if (d.slot m).state = .checking then (d.slot m).instant
  else
    match d.waitTry m with
    | some j => j.inst.bind fun t => if j.at_ < t then some t else none
    | none => none

/-- `SLOT_EXPIRED`: device time reaches the instant of a slot that is CHECKING, or counts as it. -/
def Dev.slotExpired (d : Dev) (m : Nat) : Dev :=
  match d.lateAt m with
  | some t => (d.reach t).slotLate m false
  | none => d

/-- The state of a slot under R45: a slot whose `TRY` waits counts as CHECKING (R56). -/
def Dev.slotPhase (d : Dev) (m : Nat) : SlotState := if (d.waitTry m).isSome then .checking else (d.slot m).state

/-- Device time has been stepped: CHECKING and ARMED slots whose instants it has passed expire (R55). -/
def Dev.stepSlots (d : Dev) : Dev :=
  (List.range 16).foldl (fun (e : Dev) m =>
    match (e.slot m).instant with
    | some t =>
      if t < e.now ∧ (e.slot m).state = .checking then e.slotLate m true
      else if t < e.now ∧ (e.slot m).state = .armed then e.slotExpire m true else e
    | none => e) d

/-! ### Commands (R45, R47 to R50) -/

/-- The command stands in *Slot transitions* for the slot's present state. -/
def Dev.cmdListed (d : Dev) (m cmd : Nat) : Bool :=
  let st := d.slotPhase m
  match cmd with
  | 1 => decide (st = .idle) || st.terminal
  | 2 => decide (st = .staging)
  | 3 => decide (st = .staging)
  | 4 => decide (st = .armed ∧ d.trig m = 4)
  | 5 =>
    decide (st = .staging ∨ st = .checking) ||
      (decide (st = .armed) && (match (d.slot m).instant with | some t => decide (d.now < t) | none => true))
  | 6 => st.terminal
  | _ => true

/-- `OPEN`. -/
def Dev.msOpen (d : Dev) (m : Nat) : Dev := d.setSlot m ⟨.staging, [], none, false, false, none⟩

/-- A check or try joins the queue with the instant it resolves (R555). -/
def Dev.enqueue (d : Dev) (m : Nat) (isTry : Bool) (inst : Option Nat) : Dev :=
  { d with mst := { d.mst with queue := d.mst.queue ++ [⟨m, isTry, d.now, inst, none⟩] } }

/-- `CHECK`: the instant is resolved; a DEVICE_TIME that is not after T expires at once (R53). -/
def Dev.msCheck (d : Dev) (m : Nat) : Dev :=
  let inst := d.resolve m d.now
  let d1 := match inst with | some t => d.setAtRegs m t | none => d
  let d2 := d1.setSlot m { d1.slot m with state := .checking, instant := inst }
  if d.trig m = 1 ∧ d.atRegs m ≤ d.now then d2.slotExpire m false else d2.enqueue m false inst

/-- `TRY`. -/
def Dev.msTry (d : Dev) (m : Nat) : Dev := d.enqueue m true (d.resolve m d.now)

/-- `CANCEL`: a slot that is CHECKING, or counts as it, leaves when its check ends. -/
def Dev.msCancel (d : Dev) (m : Nat) : Dev :=
  if d.slotPhase m = .checking then d.setSlot m { d.slot m with cancel := true } else d.slotCancel m

/-- `RELEASE`. -/
def Dev.msRelease (d : Dev) (m : Nat) : Dev := (d.slotTo m .idle).slotFreed

/-! ### Binding (R48) -/

/-- The pages a bind request names. -/
def bindReqPages (w : Word) : List Nat :=
  (List.range (fieldOf MST.COUNT_M1 w + 1)).map fun k => (fieldOf MST.PAGE w + k) * 0x1000

/-- A bind or unbind request is refused with cause BLOCK. -/
def Dev.bindReqBlocked (d : Dev) (src : Source) (w : Word) : Bool :=
  let m := fieldOf MST.SLOT w
  let pages := bindReqPages w
  decide (d.slotPhase m ≠ .staging) || (decide (src ≠ .sup) && d.svcSlot m) ||
    (!(bitAt w 31) && pages.any fun p => (pageAt p).isNone || ((d.bind p).bound && decide ((d.bind p).slot ≠ m)) || !(d.mayWrite src p))

/-- `MS_UNBIND`: pages leave the scope of a slot. -/
def Dev.unbindPages (d : Dev) (m : Nat) (pages : List Nat) : Dev :=
  let s := d.slot m
  let mine := pages.filter fun p => s.scope.contains p
  let d1 := mine.foldl (fun (e : Dev) p => e.setBind p ⟨m, false, s.state.code⟩) d
  d1.setSlot m { d1.slot m with scope := s.scope.filter fun p => !(mine.contains p) }

/-- `MS_BIND_REQ` accepted. -/
def Dev.bindReq (d : Dev) (w : Word) : Dev :=
  let m := fieldOf MST.SLOT w
  if bitAt w 31 then d.unbindPages m (bindReqPages w) else d.bindPages m (bindReqPages w)

/-! ### Writes to the `MST` page -/

/-- Slot of a slot-block offset, and the offset in the block; 16 beyond the blocks. -/
def mstSlotOf (off : Nat) : Nat := if 0x40 ≤ off ∧ off < 0x440 then (off - 0x40) / 0x40 else 16
def mstRegOf (off : Nat) : Nat := (off - 0x40) % 0x40

/-- A direct write to the `MST` page is refused with cause BLOCK. -/
def Dev.mstBlocked (d : Dev) (src : Source) (off : Nat) (new : Word) : Bool :=
  let m := mstSlotOf off
  let st := (d.slot m).state
  let svc := decide (src ≠ .sup) && d.svcSlot m
  if off = MST.MS_BIND_REQ.off then d.bindReqBlocked src new
  else if m = 16 then false
  else if mstRegOf off = 0 then decide (fieldOf MST.CMD new ≠ 0) && (svc || !(d.cmdListed m (fieldOf MST.CMD new)))
  else if 8 ≤ mstRegOf off ∧ mstRegOf off < 0x20 then svc || !(decide (st = .idle ∨ st = .staging)) ||
      (decide (0x14 ≤ mstRegOf off) && (d.slot m).held)
  else false

/-! ### The checker (R56 to R60, R555) -/

/-- The pages of a slot whose staged values take part: a page without staged registers that the supervisor binds is only the
holder of the instant (R48). -/
def Dev.viewPages (d : Dev) (m : Nat) : List Nat :=
  (d.slot m).scope.filter fun p =>
    !(d.svcSlot m && (match pageAt p with | some (c, _) => !(c.hasStaged) | none => false))

/-- The ARMED slots other than `m`. -/
def Dev.armedSlots (d : Dev) (m : Nat) : List Nat := (List.range 16).filter fun k => decide (k ≠ m ∧ (d.slot k).state = .armed)

/-- ARMED slot `k` is in the view of a check with an instant (R555). -/
def Dev.inView (d : Dev) (inst : Option Nat) (k : Nat) : Bool :=
  match inst, (d.slot k).instant with
  | some t, some u => decide (u ≤ t)
  | _, _ => true

/-- ARMED slot `k` is re-run after a check with an instant passes (R58). -/
def Dev.rerunOf (d : Dev) (inst : Option Nat) (k : Nat) : Bool :=
  match (d.slot k).instant, inst with
  | none, _ => true
  | some u, some t => decide (t < u)
  | some _, none => false

/-- The view of a check of slot `m`. -/
def Dev.checkView (d : Dev) (m : Nat) (inst : Option Nat) : View :=
  ⟨d, d.viewPages m ++ ((d.armedSlots m).filter (d.inView inst)).flatMap fun k => d.viewPages k⟩

/-- The view of a re-run of slot `k` with the staged values of slot `m`. -/
def Dev.rerunView (d : Dev) (m k : Nat) : View :=
  ⟨d, d.viewPages k ++ d.viewPages m ++
    ((d.armedSlots k).filter fun j => d.inView (d.slot k).instant j).flatMap fun j => d.viewPages j⟩

/-- A violation comes before another: page base, then rule code (R60). -/
def violBefore (x y : Viol) : Bool := decide (x.1 < y.1) || (decide (x.1 = y.1) && decide (x.2 < y.2))

/-- Put a violation in its place; one already there is not repeated. -/
def violIns (x : Viol) : List Viol → List Viol
  | [] => [x]
  | y :: t => if x = y then y :: t else if violBefore x y then x :: y :: t else y :: violIns x t

/-- Every rule of every page, in order. -/
def View.allRules (v : View) : List Viol :=
  (Cls.all.flatMap fun c => (List.range c.info.count).flatMap fun i => v.pageRules c i).foldr violIns []

/-- The rules of the milestone unit on a check of slot `m` (R61). -/
def Dev.slotRules (d : Dev) (m : Nat) (inst : Option Nat) : List Viol :=
  viol (decide ((d.slot m).scope = [])) mstPg 0x0001 ++
    viol (decide (d.trig m = 2 ∨ d.trig m = 3) && inst.isNone) mstPg 0x0002 ++
    (match (d.slot m).job with | some (.move r) => d.moveRules r | some .region => d.hoRules | _ => [])

/-- A violation as reported, with the later slot when a re-run found it. -/
structure Found where
  v : Viol
  later : Option Nat
  deriving DecidableEq, Repr

/-- What a check of slot `m` finds: its own violations, or those of its re-runs. -/
def Dev.findings (d : Dev) (m : Nat) (inst : Option Nat) : List Found :=
  let own := (d.slotRules m inst).foldr violIns (d.checkView m inst).allRules
  if own ≠ [] then own.map fun x => ⟨x, none⟩
  else
    let re := ((d.armedSlots m).filter (d.rerunOf inst)).flatMap fun k =>
      (d.rerunView m k).allRules.map fun x => (⟨x, some k⟩ : Found)
    re.foldr (fun x l => l.takeWhile (fun y => violBefore y.v x.v) ++ x :: l.dropWhile (fun y => violBefore y.v x.v)) []

/-- The most a check may take (R57). -/
def Dev.checkBound (d : Dev) (m : Nat) (inst : Option Nat) : Nat :=
  let one := fun k => 10000 + 500 * (d.slot k).scope.length
  one m + ((d.armedSlots m).filter (d.rerunOf inst)).foldl (fun n k => n + one k) 0

/-- The instant a check goes by: for an IMMEDIATE trigger the present device time (R52). A `TRY` of an IMMEDIATE slot does the
same, though R555 names no instant for it (DESIGN CHOICE). -/
def Dev.checkInst (d : Dev) (j : CheckJob) : Option Nat :=
  if d.trig j.slot = 0 then some d.now else if j.isTry then j.inst else (d.slot j.slot).instant

/-- The time the running check may still take. -/
def Dev.checkLeft (d : Dev) (j : CheckJob) : Nat := j.start.getD d.mono + d.checkBound j.slot (d.checkInst j) - d.mono

/-- The `CHK_VIOL` registers list the findings (R60). -/
def Dev.listViols (d : Dev) (fs : List Found) : Dev :=
  (List.range 32).foldl (fun (e : Dev) i =>
    match fs[i]? with
    | some f =>
      let code := f.v.2 + match f.later with | some k => 2 ^ 31 + k * 2 ^ 24 | none => 0
      (e.setReg chkPg (CHK.CHK_VIOL_CODE.at i) (wd code)).setReg chkPg (CHK.CHK_VIOL_PAGE.at i) (wd f.v.1)
    | none => (e.setReg chkPg (CHK.CHK_VIOL_CODE.at i) 0).setReg chkPg (CHK.CHK_VIOL_PAGE.at i) 0) d

/-- `CHK_STAT` of the check that has ended. -/
def Dev.setChkStat (d : Dev) (m res n : Nat) (more isTry : Bool) : Dev :=
  d.setReg chkPg CHK.CHK_STAT
    (wd (m * 65536 + res * 16384 + Nat.min n 32 * 256 + (if more then 128 else 0) + if isTry then 64 else 0))

/-- The result of a check or try in the `CHK` page, in the slot and on the pages of its scope (R60). -/
def Dev.checkReport (d : Dev) (m : Nat) (isTry : Bool) (fs : List Found) : Dev :=
  let res := if fs = [] then 1 else 2
  let more := decide (32 < fs.length)
  let d1 := (((d.setChkStat m res fs.length more isTry).listViols fs).count chkPg CHK.CHK_RUN_CNT)
  let d2 := if fs = [] then d1 else d1.count chkPg CHK.CHK_FAIL_CNT
  let d3 := (d2.setF mstPg (MST.VIOL_COUNT.at m) (Nat.min fs.length 32)).setFlag mstPg (MST.VIOL_MORE.at m) more
  let d4 := if isTry then d3.setF mstPg (MST.TRY_RES.at m) res else d3
  (d4.slot m).scope.foldl (fun (e : Dev) p =>
    let mine := fs.filter fun f => decide (f.v.1 = p)
    e.setCheckRes p res mine.length (match mine with | f :: _ => f.v.2 | [] => 0)) d4

/-- `CHECK_START`: the checker takes the oldest of the queue once it is free (R56); a `TRY` that has waited past its instant
ends its slot instead. -/
def Dev.checkStart (d : Dev) : Dev :=
  match d.mst.running, d.mst.queue with
  | none, j :: t =>
    let late := match d.lateAt j.slot with | some u => j.isTry && decide (u ≤ d.now) | none => false
    if late then d.slotLate j.slot false
    else
      ({ d with mst := { d.mst with running := some { j with start := some d.mono }, queue := t } } : Dev).setF chkPg HDR.BUSY 1
  | _, _ => d

/-- The checker is free again. -/
def Dev.checkFree (d : Dev) : Dev := ({ d with mst := { d.mst with running := none } } : Dev).setF chkPg HDR.BUSY 0

/-- The blocks of the ports in the scope hear that their slot is ARMED (R150, R556). -/
def Dev.armPages (d : Dev) (m : Nat) : Dev :=
  let s := d.slot m
  (d.viewPages m).foldl (fun (e : Dev) p =>
    match pageAt p with
    | some (.port, i) => e.portArmed i m (s.instant.getD 0) s.instant.isNone
    | _ => e) d

/-- A check with violations ends: the slot is REFUSED. -/
def Dev.slotRefuse (d : Dev) (m first : Nat) : Dev :=
  d.slotMiss m .refused MST.E_SLOT_REFUSED MST.MS_REFUSED_CNT (wd first)

end Sys2Proof.Machine
end

