-- ==== Sys2Proof/Machine/Stones.lean ====
section
/-! DEFINITION. The apply instant (R62 to R65, R20), the end of a check (R57, R58), `FIRE`, and the block resets of the
milestone pages (R51). -/

namespace Sys2Proof.Machine

/-! ### What a page makes live -/

/-- Offsets of the staged registers of a page class. -/
def Cls.stagedOffs (c : Cls) : List Nat :=
  ((hdrRegs ++ c.regs).filter (·.isStaged)).flatMap fun r => (List.range r.count).map fun i => r.off + r.stride * i

/-- The fields that hold a binding that may not be made (R276): they keep their live values. -/
def bindFields (c : Cls) (b : Binding) : List Fld :=
  match c with
  | .port => [PORT.OUT_SRC, PORT.DIR, PORT.IN_MODE]
  | .cway => [CWAY.PORT_FLOW.at b.sub]
  | .fmem => [FMEM.FMP_CFG]
  | .freg => [FREG.FPORT_CFG.at b.sub]
  | .keep => [FREG.FPORT_CFG.at b.sub]
  | .aes3 => [AES3.AES_CTL, HDR.ENABLE]
  | _ => []

/-- The part of a register that keeps its live value at an apply. -/
def keptMask (c : Cls) (bad : List Binding) (off : Nat) : Word :=
  bad.foldl (fun w b => (bindFields c b).foldl (fun w f => if f.off = off then w ||| fmask f.hi f.lo else w) w) 0

/-- What register `off` of a page becomes at its apply. -/
def Dev.applied (d : Dev) (c : Cls) (i : Nat) (bad : List Binding) (off : Nat) : Word :=
  let a := pg c i + off
  let old := d.raw a
  let k := keptMask c bad off
  let new := (d.merged a &&& ~~~k) ||| (old &&& k)
  if c = .iob then d.iobApply i off old new else new

/-- A register changed by an apply: class, instance, offset, old and new word. -/
structure Change where
  cls : Cls
  idx : Nat
  off : Nat
  old : Word
  new : Word
  deriving DecidableEq, Repr

/-- The changes of a page: every staged field, or those of `PAGE_CTL` alone in DARK (R64). -/
def Dev.pageChanges (d : Dev) (pages : List Nat) (p : Nat) : List Change :=
  match pageAt p with
  | none => []
  | some (c, i) =>
    let bad := (⟨d, pages⟩ : View).badBinds p
    let offs := if d.pwrState p = 3 then [HDR.PAGE_CTL.off] else c.stagedOffs
    (offs.map fun off => (⟨c, i, off, d.raw (p + off), d.applied c i bad off⟩ : Change)).filter fun x => decide (x.old ≠ x.new)

/-- A binding that is not made at the apply edge is recorded as a refusal on its page (R276). -/
def Dev.bindNotes (d : Dev) (pages : List Nat) (p : Nat) : Dev :=
  match pageAt p with
  | none => d
  | some (c, _) =>
    ((⟨d, pages⟩ : View).badBinds p).foldl (fun (e : Dev) b =>
      match bindFields c b with
      | f :: _ => e.refuse .sup p f.off cBLOCK (e.raw (p + f.off + 0x800))
      | [] => e) d

/-- A changed register acts: at once, or when its block has left LULL (R64). -/
def Dev.changeActs (d : Dev) (t m : Nat) (x : Change) : Dev :=
  let p := pg x.cls x.idx
  if d.pwrState p = 2 ∧ x.off ≠ HDR.PAGE_CTL.off then
    { d with pw := { d.pw with late := if (Tab.get d.pw.late (p + x.off)).isSome then d.pw.late else Tab.ins d.pw.late (p + x.off) x.old } }
  else d.react .sup x.cls x.idx x.off ⟨some t, m⟩ x.old x.new

/-! ### Slots that apply -/

/-- The supervisor's handover hears that its milestone has applied. -/
def Dev.jobApply (d : Dev) (job : Job) : Dev :=
  match job with
  | .slice i k r => if r then d.repApply i k else d.rotApply i
  | .move r => d.moveApply r
  | .colRepair k => d.colRepairApply k
  | .row b => d.rowApply b
  | .region => d.hoApply
  | .release _ => d
  | .firmware => d.fwApply
  | .done => d

/-- Slot `m` reaches APPLIED: its pages are unbound and raise `MS_APPLIED`, `STAGE_DIRTY` clears (R20, R46, R65). -/
def Dev.slotApplied (d : Dev) (m : Nat) : Dev :=
  let s := d.slot m
  let d1 := (d.viewPages m).foldl (fun (e : Dev) p => e.setReg p HDR.STAGE_DIRTY 0) d
  let d2 := (d1.slotTo m .applied).unbindAll m
  let d3 := s.scope.foldl (fun (e : Dev) p => e.raiseApplied p) (d2.count mstPg MST.MS_APPLIED_CNT)
  (d3.slotEvent m MST.E_SLOT_APPLIED 0).pinPulse (256 + m)

/-- What follows the apply of slot `m`: its load group, its handover, the slot itself. -/
def Dev.slotAfter (d : Dev) (m : Nat) : Dev :=
  let job := (d.slot m).job
  let d1 := (d.relApplied m).slotDone m
  (match job with | some j => d1.jobApply j | none => d1).slotFreed

/-- The slots `ms` apply at `t`: all fields of all their pages change together, then the blocks act (R62). -/
def Dev.applySlots (d : Dev) (ms : List Nat) (t : Nat) : Dev :=
  let pages := ms.flatMap fun m => d.viewPages m
  let xs := pages.flatMap fun p => d.pageChanges pages p
  let d1 := pages.foldl (fun (e : Dev) p => e.bindNotes pages p) d
  let d2 := xs.foldl (fun (e : Dev) x => e.put (pg x.cls x.idx + x.off) x.new) d1
  let d3 := ms.foldl (fun (e : Dev) m => (e.setAtRegs m t).slotApplied m) d2
  let d4 := xs.foldl (fun (e : Dev) x => e.changeActs t (match ms with | m :: _ => m | [] => 0) x) d3
  ms.foldl (fun (e : Dev) m => e.slotAfter m) d4

/-- The ARMED slots whose instant is `t`. -/
def Dev.slotsAt (d : Dev) (t : Nat) : List Nat :=
  (List.range 16).filter fun m => decide ((d.slot m).state = .armed ∧ (d.slot m).instant = some t)

/-- An ARMED slot applies before `t`. -/
def Dev.armedBefore (d : Dev) (t : Nat) : Bool :=
  anyIf 16 fun m => decide ((d.slot m).state = .armed) && (match (d.slot m).instant with | some u => decide (u < t) | none => false)

/-- `MILESTONE_APPLY`: device time reaches the instant of an ARMED slot; slots of equal instant apply on the same edges. -/
def Dev.milestoneApply (d : Dev) (m : Nat) : Dev :=
  match (d.slot m).state, (d.slot m).instant with
  | .armed, some t => if d.armedBefore t then d else (d.reach t).applySlots (d.slotsAt t) t
  | _, _ => d

/-- `FIRE`: an ARMED MANUAL slot applies now. -/
def Dev.msFire (d : Dev) (m : Nat) : Dev := d.applySlots (m :: d.slotsAt d.now) d.now

/-- A check of a CHECKING slot passes: IMMEDIATE applies now, the others are ARMED. -/
def Dev.checkPass (d : Dev) (m : Nat) : Dev :=
  if d.trig m = 0 then d.applySlots (m :: d.slotsAt d.now) d.now else (d.slotTo m .armed).armPages m

/-- A check of slot `m` for arming ends `dt` ns later. -/
def Dev.checkEnds (d : Dev) (m : Nat) : Dev :=
  let s := d.slot m
  let inst := if d.trig m = 0 then some d.now else s.instant
  let late := match s.instant with | some t => decide (t ≤ d.now) | none => false
  if s.state ≠ .checking then d.checkFree
  else if late then (d.checkFree.setChkStat m 3 0 false false).slotLate m false
  else
    let fs := d.findings m inst
    let d1 := d.checkFree.checkReport m false fs
    if s.cancel then d1.slotCancel m
    else
      match fs with
      | [] => d1.checkPass m
      | f :: _ => d1.slotRefuse m f.v.2

/-- A try ends: its result, and the end of a slot whose `CANCEL` was accepted while it waited. -/
def Dev.tryEnds (d : Dev) (j : CheckJob) : Dev :=
  let e := d.checkFree.checkReport j.slot true (d.findings j.slot (d.checkInst j))
  if (e.slot j.slot).cancel then e.slotCancel j.slot else e

/-- `CHECK_END`: the running check or try ends, `dt` ns from now, within the bound of R57. The end of a `TRY` of an IMMEDIATE
slot uses the device time at that end (`Dev.checkInst`). -/
def Dev.checkEnd (d : Dev) (dt : Nat) : Dev :=
  match d.mst.running with
  | none => d
  | some j =>
    let e := d.pass (Nat.min dt (d.checkLeft j))
    if j.isTry then e.tryEnds j else e.checkEnds j.slot

/-- A check that has taken all the time it may take ends (R57). -/
def Dev.checkDue (d : Dev) : Dev :=
  match d.mst.running with
  | some j => if d.checkLeft j = 0 then d.checkEnd 0 else d
  | none => d

/-- Handovers that wait for a slot or for their pages seek them after every command (R50, R259). -/
def Dev.waitsDue (d : Dev) : Dev := if d.mst.waiting = [] then d else d.slotFreed

/-! ### Block resets of the milestone pages (R51) -/

/-- `MST`: the slots the supervisor does not hold return to IDLE; its own keep everything, and so does `MST_RESV`. -/
def Dev.mstReset (d : Dev) : Dev :=
  let free := (List.range 16).filter fun m => !(d.svcSlot m)
  let d1 := free.foldl (fun (e : Dev) m =>
    let s := e.slot m
    let e0 := if s.state = .idle then e else e.slotIdle m
    let e1 := e0.setSlot m { e0.slot m with held := false }
    if s.state = .armed then e1.disarmPages m s.scope else e1) d
  let d2 := d1.resetPage mstPg fun o =>
    decide (o = MST.MST_RESV.off) || (decide (mstSlotOf o < 16) && !(free.contains (mstSlotOf o)))
  d2.slotFreed

/-- `CHK`: its registers alone. -/
def Dev.chkReset (d : Dev) : Dev :=
  let busy := d.fld chkPg HDR.BUSY
  (d.resetPage chkPg fun _ => false).setF chkPg HDR.BUSY busy

/-- `BLK_RST` of any page; that of `SYS` is a SYS reset (R41). -/
def Dev.blockReset (d : Dev) (c : Cls) (i : Nat) : Dev :=
  match c with
  | .sys => d.sysReset 3
  | .mst => d.mstReset
  | .chk => d.chkReset
  | _ => d.pageReset c i

end Sys2Proof.Machine
end

