-- ==== Sys2Proof/Machine/Bus.lean ====
section
/-! DEFINITION. A register access as every path makes it (R11, R16 to R39, R553): what a read returns, the refusal causes of
a write in their order, and what an accepted write does. -/

namespace Sys2Proof.Machine

/-! ### Which register answers -/

/-- The register of page `i` at an offset of either half. The oscillator registers stand on every fourth `FREG` page. -/
def regAt (c : Cls) (i off : Nat) : Option RegSpec :=
  if c = .freg ∧ i % 4 ≠ 0 ∧ (off % 0x800 = FREG.OSC_CFG.off ∨ off % 0x800 = FREG.OSC_MEAS.off) then none
  else findReg c (off % 0x800)

/-- The page answers: in recovery only `SEC`, `AUTH`, `SLV` and `STORE` do (R469). -/
def Dev.answers (d : Dev) (c : Cls) : Bool :=
  !(d.sec.recovery) || (match c with | .sec => true | .auth => true | .slv => true | .store => true | _ => false)

/-- Serial blocks. -/
def Cls.serial : Cls → Bool
  | .uart => true | .spi => true | .i2c => true | _ => false

/-! ### Reads -/

/-- Seconds since PORST_N (`SYS.UPTIME`). -/
def Dev.uptime (d : Dev) : Nat := (d.mono - d.pw.porstAt) / 1000000000

/-- Registers of a block that show other state of it. -/
def Dev.blockView (d : Dev) (c : Cls) (i off : Nat) (w : Word) : Word :=
  match c with
  | .clk => d.clkView off w
  | .pwr => d.pwrView off w
  | .mon => d.monView off w
  | .sec => d.secView off w
  | .pgrp => if inArr PGRP.SLICE_CAL 10 off then d.sliceCalWord i (arrIdx PGRP.SLICE_CAL off) else w
  | .port => if 0x100 ≤ off ∧ off < 0x200 then d.coefCode i (d.fld (portPg i) PORT.RD_BANK) ((off - 0x100) / 4) else w
  | .treg => d.tregView i off w
  | .cway => d.cwayView off w
  | .router => d.routerView i off w
  | .freg => if off = FREG.FREG_STAT.off then d.fregStat i w else w
  | .keep => if off = FREG.FREG_STAT.off then d.fregStat (32 + i) w else w
  | .media => if off = MEDIA.MEDIA_USE.off then d.mediaUse i else w
  | .iob => if off = IOB.IN.off then d.bankIn i else w
  | .uart => if off = SER.SER_STAT.off then d.serStat (pg c i) else w
  | .spi => if off = SER.SER_STAT.off then d.serStat (pg c i) else w
  | .i2c => if off = SER.SER_STAT.off then d.serStat (pg c i) else w
  | .wclk => d.wclkView i off w
  | _ => w

/-- A live register that is no counter as a reader sees it. -/
def Dev.liveRead (d : Dev) (c : Cls) (i off : Nat) : Word := d.blockView c i off (d.view (pg c i + off))

/-- The device-time registers are read from the reader's snapshot, as counters are (R319). -/
def snapped (c : Cls) (off : Nat) : Bool := decide (c = .time ∧ 0x40 ≤ off ∧ off < 0x4C)

/-- A read of register `r` at a live offset: value, and what the read does. -/
def Dev.readLive (d : Dev) (src : Source) (c : Cls) (i off : Nat) (r : RegSpec) : Word × Dev :=
  let a := pg c i + off
  if r.isCounter ∨ snapped c off then (d.snapRead src a, d)
  else if c.serial ∧ off = SER.SER_DATA.off then d.serPop (pg c i)
  else
    let w := d.liveRead c i off &&& ~~~(r.mask fun f => decide (f.acc = .wo))
    let rc := r.mask fun f => decide (f.acc = .rc)
    (w, if rc = 0 then d else d.put a (d.raw a &&& ~~~rc))

/-- A read of a page (R17, R23, R24, R38). -/
def Dev.readPage (d : Dev) (src : Source) (c : Cls) (i off : Nat) : Word × Dev :=
  match regAt c i off with
  | none => (0, d)
  | some r =>
    if 0x40 ≤ off % 0x800 ∧ d.pwrState (pg c i) = 3 then (0, d)
    else if 0x800 ≤ off then (d.raw (pg c i + off) &&& r.mask (·.staged), d)
    else if c = .treg ∧ off = TREG.SPARE_DATA.off then
      ((d.readLive src c i off r).1, d.winTouch (d.spareLoc i) (d.fld (tregPg i) TREG.SPARE_ADDR_OFFSET))
    else d.readLive src c i off r

/-- A read of the dword at a BAR0 offset. -/
def Dev.busRead (d : Dev) (src : Source) (a : Nat) : Word × Dev :=
  if a % 4 ≠ 0 ∨ 0x8000000 ≤ a then (0, d)
  else if 0x4000000 ≤ a then
    if d.answers .treg then
      (d.winLoad ((a - 0x4000000) / 0x4000) (a % 0x4000), d.winReads ((a - 0x4000000) / 0x4000) (a % 0x4000))
    else (0, d)
  else if 0x600000 ≤ a ∧ a < 0x700000 then
    (if d.answers .media then d.ftRead ((a - 0x600000) / 64) (a % 64 / 4) else 0, d)
  else
    match pageAt a with
    | none => (0, d)
    | some (c, i) => if d.answers c then d.readPage src c i (a % 0x1000) else (0, d)

/-- Consecutive dwords. -/
def Dev.readRun (d : Dev) (src : Source) (a : Nat) : Nat → List Word × Dev
  | 0 => ([], d)
  | n + 1 =>
    let x := d.busRead src a
    let y := x.2.readRun src (a + 4) n
    (x.1 :: y.1, y.2)

/-! ### What a write makes of a register (R24) -/

/-- The fields of a register that a direct write acts on. -/
def RegSpec.acting (r : RegSpec) : Word :=
  r.mask fun f => decide (f.acc = .rw ∨ f.acc = .wo ∨ f.acc = .w1s ∨ f.acc = .w1c)

/-- The register with the fields a write acts on as written. -/
def RegSpec.asked (r : RegSpec) (old v : Word) : Word := (old &&& ~~~r.acting) ||| (v &&& r.acting)

/-- The word stored: W1S bits are set, W1C bits clear, WO bits read zero. -/
def RegSpec.stored (r : RegSpec) (old v : Word) : Word :=
  let rw := r.mask fun f => decide (f.acc = .rw)
  let s := r.mask fun f => decide (f.acc = .w1s)
  let c := r.mask fun f => decide (f.acc = .w1c)
  ((old &&& ~~~rw) ||| (v &&& rw) ||| (v &&& s)) &&& ~~~(v &&& c)

/-- A direct write to a masked register of a pin bank. -/
def maskedAt (c : Cls) (off : Nat) : Bool := decide (c = .iob) && iobMasked (off % 0x800)

/-- The word a write asks for: masked registers of pins take the pins of the mask. -/
def RegSpec.want (r : RegSpec) (c : Cls) (off : Nat) (old v : Word) : Word :=
  if maskedAt c off then maskedWord old v else r.asked old v

/-! ### Refusal causes (R31, R553) -/

/-- Cause OWNER: the page's owner (R32, R33); PCIe never writes a keeper page (R372). -/
def Dev.ownerBars (d : Dev) (src : Source) (c : Cls) (i : Nat) : Bool :=
  !(d.ownerOk src (pg c i)) || decide (c = .keep ∧ src = .pcie)

/-- Cause LOCKED: the page lock (R34), and the locks of pins (R425). -/
def Dev.lockBars (d : Dev) (c : Cls) (i off : Nat) (r : RegSpec) (v : Word) : Bool :=
  let p := pg c i
  (d.flag p HDR.LOCKED && !(decide (off = HDR.EVT_STAT.off ∨ off = HDR.SNAP_CTL.off))) ||
    (decide (c = .iob) && decide (off % 0x800 ≠ IOB.PIN_LOCK.off) &&
      d.iobLocked i (off % 0x800) (d.raw (p + off % 0x800)) (r.want c off (d.raw (p + off)) v))

/-- Cause CRITICAL: a plain write that would change a critical field (R25). -/
def Dev.critBars (d : Dev) (c : Cls) (i off : Nat) (r : RegSpec) (v : Word) : Bool :=
  let m := r.mask fun f => f.crit && decide (f.acc = .rw)
  let k := r.mask fun f => f.crit && decide (f.acc = .w1c)
  decide (off < 0x800) && (decide (v &&& m ≠ d.raw (pg c i + off) &&& m) || decide (v &&& k ≠ 0))

/-- Cause POWER (R23): live writes in LULL, every write in DARK; the header answers in every state. -/
def Dev.powerBars (d : Dev) (c : Cls) (i off : Nat) : Bool :=
  let st := d.pwrState (pg c i)
  decide (0x40 ≤ off % 0x800) && (decide (st = 3) || (decide (st = 2) && decide (off < 0x800)))

/-- The third key of the page-lock sequence. -/
def Dev.lastKey (d : Dev) (src : Source) (p off : Nat) (v : Word) : Bool :=
  decide (off = HDR.PAGE_LOCK.off) && decide (Tab.get d.lockSeq p = some (2, src.tag)) && decide (fieldOf HDR.KEY v = 0x5A5A)

/-- A write of 1 to `BLK_RST`. -/
def blkRst (off : Nat) (v : Word) : Bool := decide (off = HDR.PAGE_CTL.off) && bitAt v 1

/-- Cause BOUND (R18, R21, R26, R35). -/
def Dev.boundBars (d : Dev) (src : Source) (c : Cls) (i off : Nat) (r : RegSpec) (v : Word) : Bool :=
  let p := pg c i
  (r.isStaged && d.held p) || (d.lastKey src p off v && (d.bind p).bound)

/-- Cause VALUE (R21): a live value outside the encoding. -/
def Dev.valueBars (d : Dev) (c : Cls) (i off : Nat) (r : RegSpec) (new : Word) : Bool :=
  (r.flds.any fun f => decide (f.acc = .rw ∨ f.acc = .wo) && !(f.lim.ok (bitsOf new f.hi f.lo))) || d.classValueBad c i off new

/-- Cause BLOCK. -/
def Dev.blockBars (d : Dev) (src : Source) (c : Cls) (i off : Nat) (old new : Word) : Bool :=
  if c = .mst then d.mstBlocked src off new else d.classBlocked src c i off old new

/-- The causes that concern a live value; a write that sets `BLK_RST` carries none (R26). -/
def Dev.liveCause (d : Dev) (src : Source) (c : Cls) (i off : Nat) (r : RegSpec) (v : Word) : Nat :=
  let old := d.raw (pg c i + off)
  let new := r.want c off old v
  if 0x800 ≤ off ∨ blkRst off v then 0
  else if d.valueBars c i off r new then cVALUE
  else if d.blockBars src c i off old new then cBLOCK else 0

/-- The first cause that applies to a write, 0 when it is accepted (R553). -/
def Dev.cause (d : Dev) (src : Source) (c : Cls) (i off : Nat) (r : RegSpec) (v : Word) (full : Bool) : Nat :=
  if !full then cWIDTH
  else if d.ownerBars src c i then cOWNER
  else if d.lockBars c i off r v then cLOCKED
  else if d.critBars c i off r v then cCRITICAL
  else if d.powerBars c i off then cPOWER
  else if d.boundBars src c i off r v then cBOUND
  else d.liveCause src c i off r v

/-! ### Forced events (R29) -/

/-- A forced common event: bit, code, severity and the words the table names as registers. -/
def Dev.forceCommon (d : Dev) (p k : Nat) : Dev :=
  let m := forcedMark true 0
  match k with
  | 0 => d.raiseCode p 0 0x0002 1 (d.view (p + HDR.REFUSE_INFO.off)) 0 0 m
  | 1 => d.raiseCode p 1 0x0003 0 0 0 0 m
  | 2 => d.raiseCode p 2 0x0004 0 (d.view (p + HDR.MS_BIND.off)) 0 0 m
  | _ => d.raiseCode p 3 0x0005 1 (d.view (p + HDR.MS_BIND.off)) (d.view (p + HDR.CHECK_RES.off)) 0 m

/-- The registers in words 4 to 6 of a forced notice. Where the event's table names the register of one of several (an
input, a slice, a pair, an oscillator, a slot), the notice's index is zero, and the register of the page's first one stands
(DESIGN CHOICE). -/
def Evt.forcedWords (e : Evt) : PW × PW × PW :=
  match e.code with
  | 0x0010 | 0x0011 | 0x0012 | 0x0013 => (.none, .reg MST.MS_AT_NS.off, .reg MST.MS_AT_SEC_LO.off)
  | 0x1025 | 0x1026 => (.none, .reg PDIE.REFIN_STAT.off, .none)
  | 0x1207 => (.bits PORT.SRC_FLOW.off PORT.SRC_FLOW.hi PORT.SRC_FLOW.lo, .none, .none)
  | 0x1304 | 0x1305 | 0x1307 => (.none, .reg PGRP.SLICE_CAL.off, .none)
  | 0x1308 => (.none, .reg PGRP.SLICE_TRIM_ADC.off, .reg PGRP.SLICE_TRIM_DAC.off)
  | 0x5110 | 0x5111 => (.reg STORE.SLOT_STAT.off, .none, .none)
  | 0x9010 | 0x9011 | 0x9012 => (.none, .reg CLK.PAIR_STAT.off, .none)
  | 0xA010 => (.none, .reg MON.AGE_SHIFT.off, .none)
  | _ => (e.p4, e.p5, e.p6)

/-- A payload word of a forced notice: a register of the page as a reader sees it. `EXC_STUCK` carries `DP_STAT` of the
region's first tile, and `PKT_LOST` the `LOST` of flow 0. -/
def Dev.forcedWord (d : Dev) (c : Cls) (i : Nat) (e : Evt) (k : Nat) (w : PW) : Word :=
  if e.code = 0x2005 ∧ k = 5 then d.winLoad (i * 256) 0x200C
  else if e.code = 0x4120 ∧ k = 5 then d.ftRead 0 15
  else
    match w with
    | .reg off => d.liveRead c i off
    | w => d.payload (pg c i) w

/-- A forced block event. -/
def Dev.forceBlock (d : Dev) (c : Cls) (i : Nat) (e : Evt) : Dev :=
  let w := e.forcedWords
  d.raiseCode (pg c i) e.bit e.code e.sev (d.forcedWord c i e 4 w.1) (d.forcedWord c i e 5 w.2.1) (d.forcedWord c i e 6 w.2.2)
    (forcedMark true (d.payload (pg c i) e.p7))

/-- A write to `EVT_FORCE`. -/
def Dev.forceEvents (d : Dev) (c : Cls) (i : Nat) (v : Word) : Dev :=
  let d1 := ((List.range 4).filter fun k => bitAt v k).foldl (fun (e : Dev) k => e.forceCommon (pg c i) k) d
  (c.evts.filter fun e => bitAt v e.bit).foldl (fun (x : Dev) e => x.forceBlock c i e) d1

/-! ### Snapshots (R38, R39) -/

/-- Counters that are computed when they are looked at are brought up to date. -/
def Dev.snapReady (d : Dev) (c : Cls) (i : Nat) : Dev :=
  match c with
  | .mcg => d.mcgSync i
  | .sys => d.setReg (pg .sys 0) SYS.UPTIME (wd d.uptime)
  | _ => d

/-- A write to `SNAP_CTL`. -/
def Dev.snapWrite (d : Dev) (src : Source) (c : Cls) (i : Nat) (v : Word) : Dev :=
  let p := pg c i
  if bitAt v 1 ∨ bitAt v 0 then
    let d1 := d.snapReady c i
    let d2 := if bitAt v 1 then d1.snapClr c p src else d1.snap c p src
    match c with
    | .time => d2.timeSnap src
    | .media => if bitAt v 1 then d2.mediaClr i else d2
    | _ => d2
  else d

/-! ### Page locks (R34, R35) -/

/-- The sequences of keys under way on a page are broken by any other write to it. -/
def Dev.breakLock (d : Dev) (c : Cls) (i off : Nat) : Dev :=
  let d1 : Dev := if off = HDR.PAGE_LOCK.off then d else { d with lockSeq := Tab.del d.lockSeq (pg c i) }
  if c = .iob ∧ off ≠ IOB.PIN_LOCK.off then d1.pinLockBreak i else d1

/-- A key written to `PAGE_LOCK`. -/
def Dev.lockKey (d : Dev) (src : Source) (p key : Nat) : Dev :=
  let n := match Tab.get d.lockSeq p with | some x => if x.2 = src.tag then x.1 else 0 | none => 0
  let set := fun (k : Nat) => ({ d with lockSeq := Tab.ins d.lockSeq p (k, src.tag) } : Dev)
  let clr : Dev := { d with lockSeq := Tab.del d.lockSeq p }
  if n = 1 ∧ key = 0xA5A5 then set 2
  else if n = 2 ∧ key = 0x5A5A then clr.setFlag p HDR.LOCKED true
  else if key = 0x5A5A then set 1
  else clr

/-! ### Accepted writes -/

/-- A command of a milestone slot (R45). -/
def Dev.msCmd (d : Dev) (m cmd : Nat) : Dev :=
  match cmd with
  | 1 => d.msOpen m
  | 2 => d.msCheck m
  | 3 => d.msTry m
  | 4 => d.msFire m
  | 5 => d.msCancel m
  | 6 => d.msRelease m
  | _ => d

/-- Accepted writes of the common header that do more than set a field. -/
def Dev.headerWrite (d : Dev) (src : Source) (c : Cls) (i off : Nat) (r : RegSpec) (v : Word) : Option Dev :=
  let p := pg c i
  if blkRst off v then some (d.blockReset c i)
  else if off = HDR.EVT_EN.off ∨ off = HDR.EVT_NOTICE.off then
    some (d.put (p + off) (r.stored (d.raw (p + off)) v ||| c.alwaysMask))
  else if off = HDR.EVT_FORCE.off then some (d.forceEvents c i v)
  else if off = HDR.SNAP_CTL.off then some (d.snapWrite src c i v)
  else if off = HDR.PAGE_LOCK.off then some (d.lockKey src p (fieldOf HDR.KEY v))
  else none

/-- Accepted writes of block registers that are commands or have no stored word. -/
def Dev.specialWrite (d : Dev) (src : Source) (c : Cls) (i off : Nat) (v : Word) : Option Dev :=
  if c = .mst ∧ off = MST.MS_BIND_REQ.off then some (d.bindReq v)
  else if c = .mst ∧ mstSlotOf off < 16 ∧ mstRegOf off = 0 then some (d.msCmd (mstSlotOf off) (fieldOf MST.CMD v))
  else if c = .iob ∧ off = IOB.PIN_LOCK.off then some (d.pinLock src i v)
  else if c.serial ∧ off = SER.SER_DATA.off then some (d.serPush (pg c i) (v.toNat % 256))
  else none

/-- An accepted write becomes live: the word is stored and the block reacts (R21). -/
def Dev.liveWrite (d : Dev) (src : Source) (c : Cls) (i off : Nat) (r : RegSpec) (v : Word) : Dev :=
  let a := pg c i + off
  let old := d.raw a
  let keep := if maskedAt c off then maskedWord old v else r.stored old v
  (d.put a keep).react src c i off Via.direct old (r.want c off old v)

/-- An accepted staged write (R18): the staged fields take the value, and the bit of `STAGE_DIRTY` is set. -/
def Dev.stageWrite (d : Dev) (c : Cls) (i off : Nat) (r : RegSpec) (v : Word) : Dev :=
  let p := pg c i
  let old := d.raw (p + off)
  let m := r.mask (·.staged)
  let new := if maskedAt c off then maskedWord old v &&& m else v &&& m
  let d1 := d.put (p + off) new
  d1.setReg p HDR.STAGE_DIRTY (d1.reg p HDR.STAGE_DIRTY ||| wd (2 ^ ((off - 0x800) / 0x40)))

/-- An accepted write. -/
def Dev.acceptWrite (d : Dev) (src : Source) (c : Cls) (i off : Nat) (r : RegSpec) (v : Word) : Dev :=
  if 0x800 ≤ off then d.stageWrite c i off r v
  else
    match d.headerWrite src c i off r v with
    | some e => e
    | none =>
      match d.specialWrite src c i off v with
      | some e => e
      | none => d.liveWrite src c i off r v

/-! ### Writes -/

/-- `REFUSE_INFO` of a refusal (R31). -/
def refuseWord (src : Source) (off cause : Nat) : Word := wd (cause * 2 ^ 28 + src.code * 2 ^ 24 + off % 0x1000)

/-- A write to a register: the device after it, and `REFUSE_INFO` when it is refused. -/
def Dev.writeReg (d : Dev) (src : Source) (c : Cls) (i off : Nat) (r : RegSpec) (v : Word) (full : Bool) : Dev × Option Word :=
  let k := d.cause src c i off r v full
  if k = 0 then ((d.acceptWrite src c i off r v).breakLock c i off, none)
  else
    let d1 := (d.refuse src (pg c i) off k v).breakLock c i off
    let d2 : Dev := if off = HDR.PAGE_LOCK.off then { d1 with lockSeq := Tab.del d1.lockSeq (pg c i) } else d1
    (if k = cBLOCK then d2.blockNote c i off (r.want c off (d.raw (pg c i + off)) v) else d2, some (refuseWord src off k))

/-- A write to a page: a hole and the staged copy of a register that is not staged ignore it (R16, R17); a write to a
partitioned bank first loses the pins the writer does not own (R428). -/
def Dev.writePage (d : Dev) (src : Source) (c : Cls) (i off : Nat) (v : Word) (full : Bool) : Dev × Option Word :=
  match regAt c i off with
  | none => (d, none)
  | some r =>
    if 0x800 ≤ off ∧ r.isStaged = false then (d, none)
    else if c = .iob ∧ 0x40 ≤ off % 0x800 then
      let x := d.iobFilter src i (off % 0x800) v
      match x.2 with
      | none => (x.1, none)
      | some w => x.1.writeReg src c i off r w full
    else d.writeReg src c i off r v full

/-- A write to a tile window. -/
def Dev.writeTile (d : Dev) (src : Source) (t off : Nat) (v : Word) (full : Bool) (ecc : EccEvent) : Dev × Option Word :=
  if winListed off = false then (d, none)
  else if !full then (d.winRefuse src (t / 256) (t % 256 / 16) (t % 16) off cWIDTH v, some (refuseWord src 0xFFF cWIDTH))
  else
    let bind := decide (0x20D0 ≤ off ∧ off < 0x20E0) && d.strmRefused t ((off - 0x20D0) / 4) v
    (d.winAccess src t off v ecc bind, (d.winCause src t off v bind).map fun k => refuseWord src 0xFFF k)

/-- A write to the flow table. -/
def Dev.writeFlow (d : Dev) (src : Source) (f w : Nat) (v : Word) (full : Bool) : Dev × Option Word :=
  let k := d.ftCause f w v full
  (d.ftWrite src f w v full, if k = 0 then none else some (refuseWord src 0xFFF k))

/-- A write of the dword at a BAR0 offset; `ecc` is what the memory of a tile meets. Offsets outside the map ignore it
(R42). -/
def Dev.busWrite (d : Dev) (src : Source) (a : Nat) (v : Word) (full : Bool) (ecc : EccEvent) : Dev × Option Word :=
  if a % 4 ≠ 0 ∨ 0x8000000 ≤ a then (d, none)
  else if 0x4000000 ≤ a then
    if d.answers .treg then d.writeTile src ((a - 0x4000000) / 0x4000) (a % 0x4000) v full ecc else (d, none)
  else if 0x600000 ≤ a ∧ a < 0x700000 then
    if d.answers .media then d.writeFlow src ((a - 0x600000) / 64) (a % 64 / 4) v full else (d, none)
  else
    match pageAt a with
    | none => (d, none)
    | some (c, i) => if d.answers c then d.writePage src c i (a % 0x1000) v full else (d, none)

/-- A whole dword written, with nothing to meet in a memory. -/
def Dev.regWrite (d : Dev) (src : Source) (a : Nat) (v : Word) : Dev := (d.busWrite src a v true .clean).1

end Sys2Proof.Machine
end

