-- ==== Sys2Proof/Machine/Access.lean ====
section
/-! DEFINITION. What issues register writes and checks from inside the device: the end of a release group (R395), and a fabric
port in register mode (R364). -/

namespace Sys2Proof.Machine

/-! ### `GROUP_COMPLETE` (R388, R395, R397, R404) -/

/-- The register sections of a group. -/
def LoadJob.regSects (j : LoadJob) (g : Nat) : List Nat :=
  (List.range j.sects.length).filter fun k =>
    let s := j.sects.getD k ⟨0, 0, 0, 0, 0, 0⟩
    decide (s.ty = 5 ∧ s.group = g)

/-- The manifest entries of a group are written. -/
def LoadJob.groupWritten (j : LoadJob) (g : Nat) : Bool :=
  (List.range j.mans.length).all fun k => decide ((j.mans.getD k ⟨0, 0, 0, 0, 0, 0, 0⟩).group ≠ g) || j.done.contains k

/-- The records of a register section, or the load error it proves. -/
def Dev.regRecs (d : Dev) (j : LoadJob) (k : Nat) : Except (Nat × Nat) (List LRec) :=
  let s := j.sects.getD k ⟨0, 0, 0, 0, 0, 0⟩
  match d.sectBody (d.jobImg j) s k with
  | none => .error (4, k)
  | some body =>
    match d.sectRecs j.mans s body with
    | none => .error (1, k)
    | some rs => .ok rs

/-- The records of several sections, in order. -/
def Dev.allRegRecs (d : Dev) (j : LoadJob) : List Nat → Except (Nat × Nat) (List LRec)
  | [] => .ok []
  | k :: t =>
    match d.regRecs j k, d.allRegRecs j t with
    | .error e, _ => .error e
    | .ok _, .error e => .error e
    | .ok a, .ok b => .ok (a ++ b)

/-- The pages of STAGED records that the group's slot does not hold yet: those of encrypted sections. -/
def Dev.lateBinds (d : Dev) (m : Nat) (rs : List LRec) : List Nat :=
  dedup (rs.filterMap fun r =>
    match r with
    | .staged off _ => if (d.slot m).scope.contains (pageBase off) then none else some (pageBase off)
    | _ => none)

/-- A page that cannot be bound to the group's slot. -/
def Dev.lateBindErr (d : Dev) (m : Nat) (pages : List Nat) : Option Nat :=
  pages.find? fun p => (pageAt p).isNone || (d.bind p).bound

/-- The register records of a group are written as the writer of `GO`; a refused DIRECT record gives its offset. -/
def Dev.writeRegs (d : Dev) (who : Source) : List LRec → Dev × Option Nat
  | [] => (d, none)
  | .staged off v :: t => (d.regWrite who off v).writeRegs who t
  | .direct off v :: t =>
    let x := d.busWrite who off v true .clean
    if x.2.isSome then (x.1, some off) else x.1.writeRegs who t
  | _ :: t => d.writeRegs who t

/-- Staged `RELEASE` = 1 of a region. -/
def Dev.stageRelease (d : Dev) (n : Nat) : Dev :=
  let p := regionPg n
  let d1 := d.setF p FREG.RELEASE.staged 1
  d1.setReg p HDR.STAGE_DIRTY (d1.reg p HDR.STAGE_DIRTY ||| wd (2 ^ (FREG.ISO_CTL.off / 0x40)))

/-- The loader issues `CHECK` on a group's slot; a slot with nothing in its scope is let go. -/
def Dev.groupCheck (d : Dev) (j : LoadJob) (g : Nat) : Dev :=
  match Tab.get j.slots g with
  | none => d
  | some m =>
    if (d.slot m).state ≠ .staging then d
    else if (d.slot m).scope = [] then (if (d.slot m).job.isSome then d.slotIdle m else d)
    else d.msCheck m

/-- Every group of a load has its check issued: the loader waits for release. -/
def Dev.loadWaits (d : Dev) : Dev :=
  match d.ld.job with
  | some j => if d.ldPhase = 3 ∧ (List.range j.groups).all (fun g => j.checked.contains g) = true then d.setLdPhase 4 else d
  | none => d

/-- The new owners of an image hand over together, once the groups of all of them are complete (R403, R404). -/
def Dev.partnersBegin (d : Dev) : Dev :=
  match d.ld.job with
  | some j =>
    let ps := j.pairs fun _ => true
    if ps ≠ [] ∧ d.ld.ho = none ∧ (j.mans.filter (·.partner)).all (fun m => j.complete.contains m.group) = true then d.hoBegin ps
    else d
  | none => d

/-- Group `g` is complete, its records written. -/
def Dev.groupChecked (d : Dev) (j : LoadJob) (g : Nat) : Dev :=
  let j1 := { j with complete := j.complete ++ [g], checked := j.checked ++ [g] }
  let d1 := (j.groupRegions g).foldl (fun (e : Dev) n => e.stageRelease n) d
  ((((d1.setLoad (some j1)).groupCheck j1 g).loadWaits).partnersBegin)

/-- The regions of a group are HELD. -/
def Dev.groupHeld (d : Dev) (j : LoadJob) (g : Nat) : Dev :=
  (j.groupRegions g ++ (j.pairs fun k => decide (k = g)).map (·.2)).foldl (fun (e : Dev) n => (e.setIso n 2).refreshRegion n) d

/-- The records of group `g` are written. -/
def Dev.groupRecords (d : Dev) (j : LoadJob) (g : Nat) (rs : List LRec) : Dev :=
  let m := (Tab.get j.slots g).getD 16
  let late := d.lateBinds m rs
  match d.lateBindErr m late with
  | some p => d.loadFail j 7 (p / 4096)
  | none =>
    let x := (if late = [] then d else d.bindPages m late).writeRegs j.who rs
    match x.2 with
    | some off => x.1.loadFail j 10 (off / 4 % 65536)
    | none => x.1.groupChecked j g

/-- `GROUP_COMPLETE`: every region of release group `g` is written: the group is HELD, its register records are written and the
loader issues `CHECK`; new owners of handovers enter SHADOW. -/
def Dev.groupComplete (d : Dev) (g : Nat) : Dev :=
  match d.ld.job with
  | none => d
  | some j =>
    if d.ldPhase = 3 ∧ j.verify = false ∧ g < j.groups ∧ j.complete.contains g = false ∧ j.groupWritten g = true then
      let d1 := d.groupHeld j g
      match d1.allRegRecs j (j.regSects g) with
      | .error e => d1.loadFail j e.1 e.2
      | .ok rs => d1.groupRecords j g rs
    else d

/-! ### `FPORT_REG_ACCESS` (R364) -/

/-- A region (32 K0, 33 K1) as a source (R33). -/
def regionSrc (n : Fin 34) : Source :=
  if h : n.val < 32 then .region ⟨n.val, h⟩ else .keeper ⟨n.val - 32, by omega⟩

/-- Port `p` of region `n` is enabled in register mode. -/
def Dev.regPort (d : Dev) (n p : Nat) : Bool :=
  d.flag (regionPg n) (FREG.FPORT_CFG_EN.at p) && decide (d.fld (regionPg n) (FREG.MODE.at p) = 3)

/-- One BAR0 read or write of a fabric port; a refused write is answered with `RSP_ERR` = 1. In a handover the new region's
writes before the switch and the old one's after it are discarded and acknowledged (R404). -/
def Dev.fportAccess (d : Dev) (n : Fin 34) (p addr : Nat) (write : Option Word) : Dev :=
  let k := d.portServe n.val
  if d.regPort n.val p = false ∨ k = 0 then d
  else
    match write with
    | some v =>
      if k = 2 then d.send (.fabricRsp n.val 0 false [])
      else
        let x := d.busWrite (regionSrc n) addr v true .clean
        x.1.send (.fabricRsp n.val 0 x.2.isSome [])
    | none =>
      let x := d.busRead (regionSrc n) addr
      x.2.send (.fabricRsp n.val 0 false [x.1.toNat])

end Sys2Proof.Machine
end

