-- ==== Sys2Proof/Machine/Link.lean ====
section
/-! DEFINITION. The commands of the Brizel link that reach registers and frame memory (R458, R459), and the slave ports (R460 to
R462). -/

namespace Sys2Proof.Machine

/-! ### Brizel commands -/

/-- A dword as bytes, low byte first. -/
def wordBytes (w : Word) : List Nat := leBytes 4 w.toNat

/-- The RSP of a command refused at dword `k`. -/
def rspRefused (info : Word) (k : Nat) : List Nat := rspHead 1 0 ++ wordBytes info ++ leBytes 2 k

/-- The BAR0 offset and count of a command are good. -/
def brzAddrOk (addr count hi : Nat) : Bool := decide (1 ≤ count ∧ count ≤ hi ∧ addr % 4 = 0 ∧ addr + 4 * count ≤ 0x8000000)

/-- `BRIZEL_READ`. -/
def Dev.brzRead (d : Dev) (c seq count addr : Nat) : Dev :=
  d.brzCmd c seq fun e =>
    if brzAddrOk addr count 1023 then
      let x := e.readRun .brizel addr count
      (x.2, some (rspHead 0 count ++ x.1.flatMap wordBytes))
    else (e, some (rspHead 3 0))

/-- Dwords written to consecutive offsets; the index of a refused one with its `REFUSE_INFO`. -/
def Dev.writeRun (d : Dev) (src : Source) (addr k : Nat) : List Word → Dev × Option (Word × Nat)
  | [] => (d, none)
  | v :: t =>
    let x := d.busWrite src (addr + 4 * k) v true .clean
    match x.2 with
    | some info => (x.1, some (info, k))
    | none => x.1.writeRun src addr (k + 1) t

/-- `BRIZEL_WRITE`. -/
def Dev.brzWrite (d : Dev) (c seq count addr : Nat) (ws : List Word) : Dev :=
  d.brzCmd c seq fun e =>
    if brzAddrOk addr count 1022 ∧ ws.length = count then
      let x := e.writeRun .brizel addr 0 ws
      match x.2 with
      | some r => (x.1, some (rspRefused r.1 r.2))
      | none => (x.1, some (rspHead 0 0))
    else (e, some (rspHead 3 0))

/-- `MWRITE`: (value AND mask) OR (present value AND NOT mask). -/
def Dev.brzMwrite (d : Dev) (c seq count addr : Nat) (mask v : Word) : Dev :=
  d.brzCmd c seq fun e =>
    if brzAddrOk addr count 1 then
      let x := e.busWrite .brizel addr ((v &&& mask) ||| ((e.busRead .brizel addr).1 &&& ~~~mask)) true .clean
      match x.2 with
      | some info => (x.1, some (rspRefused info 0))
      | none => (x.1, some (rspHead 0 0))
    else (e, some (rspHead 3 0))

/-- `POLL`: its RSP follows at its end. -/
def Dev.brzPoll (d : Dev) (c seq count addr : Nat) (mask v : Word) (ms : Nat) : Dev :=
  d.brzCmd c seq fun e =>
    if brzAddrOk addr count 1 then
      ({ e with bz := { e.bz with polls := e.bz.polls ++ [⟨c, seq, addr, mask, v, e.mono + ms * 1000000⟩] } }, none)
    else (e, some (rspHead 3 0))

/-- `POLL_DONE`: the oldest POLL of a channel ends on a match, or else at its timeout. -/
def Dev.pollDone (d : Dev) (c : Nat) : Dev :=
  match d.bz.polls.find? fun q => decide (q.chan = c) with
  | none => d
  | some q =>
    let d1 : Dev := { d with bz := { d.bz with polls := d.bz.polls.erase q } }
    let x := d1.busRead .brizel q.addr
    if x.1 &&& q.mask = q.value then x.2.brzRsp c q.seq (rspHead 0 1 ++ wordBytes x.1)
    else
      let y := (d1.pass (q.due - d1.mono)).busRead .brizel q.addr
      y.2.brzRsp c q.seq (rspHead 4 1 ++ wordBytes y.1)

/-- The address and count of a frame-memory command are good. -/
def fmAddrOk (addr count : Nat) : Bool := decide (1 ≤ count ∧ count ≤ 511 ∧ addr % 8 = 0 ∧ addr + 8 * count ≤ 0x10000000)

/-- `FMREAD`; `es` is what the code of each word meets. -/
def Dev.brzFmread (d : Dev) (c seq count addr : Nat) (es : List EccEvent) : Dev :=
  d.brzCmd c seq fun e =>
    if fmAddrOk addr count then
      let r := e.fmRead addr count es
      (r.1, some (rspHead (if r.2.2 = 0 then 0 else 5) count ++ r.2.1.flatMap fun v => leBytes 8 v))
    else (e, some (rspHead 3 0))

/-- Words written to frame memory, split at 1 KiB boundaries (R275). -/
def Dev.fmSplit (d : Dev) (addr : Nat) : Nat → List Nat → Dev
  | 0, _ => d
  | _, [] => d
  | fuel + 1, v :: t =>
    let n := Nat.min (t.length + 1) ((1024 - addr % 1024) / 8)
    let d1 := d.fmGuard supEp addr (8 * n) fun e => e.fmWrite addr 255 0 .clean ((v :: t).take n)
    d1.fmSplit (addr + 8 * n) fuel ((v :: t).drop n)

/-- `FMWRITE`. -/
def Dev.brzFmwrite (d : Dev) (c seq count addr : Nat) (ws : List (BitVec 64)) : Dev :=
  d.brzCmd c seq fun e =>
    if fmAddrOk addr count ∧ ws.length = count then (e.fmSplit addr count (ws.map (·.toNat)), some (rspHead 0 0))
    else (e, some (rspHead 3 0))

/-- `INFO`, operation 0x07; an operation the table *Brizel commands* does not list is answered with status 2, and a listed one
that comes without what it needs with status 3. -/
def Dev.brzInfo (d : Dev) (c seq op count : Nat) : Dev :=
  d.brzCmd c seq fun e =>
    if op = 7 ∧ count = 0 then
      (e, some (rspHead 0 0 ++ wordBytes (e.raw (pg .sys 0)) ++ leBytes 2 1 ++ leBytes 2 4096))
    else (e, some (rspHead (if 1 ≤ op ∧ op ≤ 7 then 3 else 2) 0))

/-! ### The slave ports -/

/-- A slave-port transaction ends in error (R462). -/
def Dev.slvError (d : Dev) (psp : Bool) (info : Word) : Dev :=
  let d1 := (d.setF slvPg (if psp then SLV.PSP_ERR else SLV.SSP_ERR) 1).count slvPg (if psp then SLV.PSP_ERR_CNT else SLV.SSP_ERR_CNT)
  d1.raise slvPg SLV.E_SLV_ERR (wd (if psp then 2 else 1)) info

/-- The port answers. -/
def Dev.slvOn (d : Dev) (psp : Bool) : Bool := d.flag slvPg (if psp then SLV.PSP_EN else SLV.SSP_EN)

/-- The source of a slave port. -/
def slvSrc (psp : Bool) : Source := if psp then .psp else .ssp

/-- Register dwords of a slave port; the refused one ends the transaction. -/
def Dev.slvWrite (d : Dev) (psp : Bool) (addr : Nat) (ws : List Word) : Dev :=
  let x := d.writeRun (slvSrc psp) addr 0 ws
  match x.2 with
  | some r => x.1.slvError psp r.1
  | none => x.1

/-- Bytes stored in frame memory, word by word, with the byte enables of each. -/
def Dev.fmBytes (d : Dev) (addr : Nat) (bs : List Nat) : Dev :=
  (List.range ((addr % 8 + bs.length + 7) / 8)).foldl (fun (e : Dev) k =>
    let a := addr / 8 * 8 + 8 * k
    let at_ := fun (i : Nat) => decide (addr ≤ a + i ∧ a + i < addr + bs.length)
    let v := (List.range 8).foldl (fun s i => if at_ i then s + bs.getD (a + i - addr) 0 * 256 ^ i else s) 0
    let be := (List.range 8).foldl (fun s i => if at_ i then s + 2 ^ i else s) 0
    e.fmWrite a be 0 .clean [v]) d

/-- Bytes written into the slave buffer (R462, R387). -/
def Dev.slvBuffer (d : Dev) (off : Nat) (bs : List Nat) : Dev :=
  let a := d.slaveBuf + off
  if bs = [] then d
  else match d.bufHit true a bs.length with
    | some k => (d.count ldrPg LDR.BUF_DROP_CNT).raise ldrPg LDR.E_BUF_WRITE (wd k) (wd supEp)
    | none => d.fmBytes a bs

/-- A slave-buffer transaction of a port: what lies beyond 14 MiB, or beyond the first `most` bytes, is not written and is an
error. -/
def Dev.slvBuf (d : Dev) (psp : Bool) (off most : Nat) (bs : List Nat) : Dev :=
  let n := Nat.min (Nat.min bs.length most) (bufBytes - off)
  let d1 := d.slvBuffer off (bs.take n)
  if n < bs.length then d1.slvError psp 0 else d1

/-- `WRITE_REG`. -/
def Dev.sspWriteReg (d : Dev) (addr : Nat) (ws : List Word) : Dev := if d.slvOn false then d.slvWrite false addr ws else d

/-- A dword as bytes, most significant byte first. -/
def wordBytesBe (w : Word) : List Nat := (wordBytes w).reverse

/-- `READ_REG`. -/
def Dev.sspReadReg (d : Dev) (addr n : Nat) : Dev :=
  if d.slvOn false then
    let x := d.readRun .ssp addr n
    x.2.send (.sspData (x.1.flatMap wordBytesBe))
  else d

/-- `WRITE_BUF`: at most 4,096 bytes. -/
def Dev.sspWriteBuf (d : Dev) (off : Nat) (bs : List Nat) : Dev := if d.slvOn false then d.slvBuf false off 4096 bs else d

/-- `STATUS`: bit 0 `BUSY`, bit 1 `ERR`; `ERR` clears. -/
def Dev.sspStatus (d : Dev) : Dev :=
  if d.slvOn false then
    (d.setF slvPg SLV.SSP_ERR 0).send (.sspData [(if d.flag slvPg SLV.SSP_BUSY then 1 else 0) + if d.flag slvPg SLV.SSP_ERR then 2 else 0])
  else d

/-- The dwords of the slave buffer from an offset, up to its end. -/
def Dev.slvLoad (d : Dev) (off n : Nat) : List Word × Nat :=
  let k := Nat.min n ((bufBytes - off) / 4)
  ((List.range k).map fun i =>
    let a := d.slaveBuf + off + 4 * i
    if d.fmPois (a / 8 * 8) then 0 else wd (leNum (memBytes d.cw.mem a 4)), k)

/-- `PSP_TRANSACTION`: address bit 31 selects the slave buffer; a write carries dwords, a read asks for `n`. -/
def Dev.pspAccess (d : Dev) (write : Bool) (addr : Nat) (ws : List Word) (n : Nat) : Dev :=
  let off := addr % 2 ^ 31
  if d.slvOn true = false then d
  else if 2 ^ 31 ≤ addr then
    if write then d.slvBuf true off (4 * ws.length) (ws.flatMap wordBytes)
    else
      let x := d.slvLoad off n
      let d1 := d.send (.readData .psp x.1)
      if x.2 < n then d1.slvError true 0 else d1
  else if write then d.slvWrite true off ws
  else
    let x := d.readRun .psp off n
    x.2.send (.readData .psp x.1)

end Sys2Proof.Machine
end

