-- ==== Sys2Proof/Machine/Crit.lean ====
section
/-! DEFINITION. Critical commands (R475 to R484): the tests of an envelope in their order, what each command does, and how its
result is reported. -/

namespace Sys2Proof.Machine

/-! ### Envelopes (R475 to R477) -/

/-- Result codes of *Command results*. -/
def rOK : Nat := 0
def rTAG : Nat := 1
def rCOUNTER : Nat := 2
def rEXHAUSTED : Nat := 3
def rNO_KEY : Nat := 4
def rBAD_OP : Nat := 5
def rBAD_ARG : Nat := 6
def rBAD_STATE : Nat := 7
def rSOURCE : Nat := 8
def rFAILED : Nat := 9

/-- The opcodes of *Critical commands*. -/
def critOps : List Nat := [0x01, 0x02, 0x10, 0x11, 0x12, 0x20, 0x30, 0x31, 0x32, 0x40, 0x50, 0x60]

/-- The parts of an envelope. -/
def envOp (b : List Nat) : Nat := fieldLe b 0 2
def envLen (b : List Nat) : Nat := fieldLe b 2 2
def envCtr (b : List Nat) : Nat := fieldLe b 4 8
def envArgs (b : List Nat) : List Nat := (b.drop 12).take (envLen b)
def envTag (b : List Nat) : List Nat := (b.drop (12 + envLen b)).take 16

/-- The last accepted counter of a source identifier: 1 PCIe, 2 Brizel link, 3 either slave port (R478). -/
def Dev.cmdCtr (d : Dev) (id : Nat) : Nat :=
  (d.reg secPg (SEC.CMD_CTR_HI.at (id - 1))).toNat * 2 ^ 32 + (d.reg secPg (SEC.CMD_CTR_LO.at (id - 1))).toNat

/-- Journal it. -/
def Dev.setCmdCtr (d : Dev) (id n : Nat) : Dev :=
  (d.setReg secPg (SEC.CMD_CTR_LO.at (id - 1)) (wd n)).setReg secPg (SEC.CMD_CTR_HI.at (id - 1)) (wd (n / 2 ^ 32))

/-- The length and the opcode are good; in recovery only `BANK_WRITE` is served (R469). -/
def Dev.envOk (d : Dev) (b : List Nat) : Bool :=
  decide (12 ≤ b.length ∧ b.length = 28 + envLen b ∧ envLen b ≤ 724) && critOps.contains (envOp b) &&
    (!(d.sec.recovery) || decide (envOp b = 0x32))

/-- The source is allowed for the opcode and the device's state (R466, R479). -/
def Dev.sourceOk (d : Dev) (op id : Nat) : Bool :=
  (d.owned || decide (id ≠ 1)) && (decide (op ≠ 0x11) || decide (id = 3)) && (decide (op ≠ 0x32 ∧ op ≠ 0x50) || decide (id ≠ 1))

/-- The tag is right: of KCMD on an owned device, zeros on a virgin one; the signed key load carries a signature instead. -/
def Dev.tagOk (d : Dev) (id : Nat) (b : List Nat) : Bool :=
  if d.owned = false then decide (envTag b = List.replicate 16 0)
  else if envOp b = 0x11 then true
  else match d.sec.kcmd with
    | none => false
    | some k => decide (envTag b = Config.kmac k (id :: d.serialBytes ++ b.take (12 + envLen b)) 16 1)

/-- The first test of R477 that fails, 0 when none does. -/
def Dev.envTest (d : Dev) (id : Nat) (b : List Nat) : Nat :=
  if d.envOk b = false then rBAD_OP
  else if d.sourceOk (envOp b) id = false then rSOURCE
  else if d.owned ∧ envOp b ≠ 0x11 ∧ d.sec.kcmd = none then rNO_KEY
  else if d.cmdCtr id = 2 ^ 64 - 1 then rEXHAUSTED
  else if envCtr b ≤ d.cmdCtr id then rCOUNTER
  else if d.tagOk id b = false then rTAG else rOK

/-- What a failed test counts; after a failed tag the source's next envelope waits 10 ms. -/
def Dev.testFailed (d : Dev) (id res : Nat) : Dev :=
  if res = rCOUNTER then d.count secPg SEC.CTR_FAIL_CNT
  else if res = rTAG then
    let d1 := d.count secPg SEC.TAG_FAIL_CNT
    { d1 with sec := { d1.sec with tagWait := Tab.put d1.sec.tagWait id (d1.mono + 10000000) 0 } }
  else d

/-! ### `WRITE_CRIT` and `LOCK_OVERRIDE` -/

/-- The slots that `SVC_SLOTS` reserves. -/
def resvSlots (r : Nat) : List Nat := if r = 0 then [] else if r = 1 then [15] else if r = 2 then [14, 15] else [12, 13, 14, 15]

/-- A change of `SVC_SLOTS` reserves or frees a pending slot. -/
def Dev.resvBars (d : Dev) (old new : Nat) : Bool :=
  (List.range 16).any fun m => decide ((resvSlots old).contains m ≠ (resvSlots new).contains m) && (d.slot m).state.pending

/-- The critical write to a register: value tests, state tests, then the fields change and the block reacts. -/
def Dev.critWrite (d : Dev) (c : Cls) (i off : Nat) (r : RegSpec) (v mask : Word) : Dev × Nat :=
  let a := pg c i + off
  let old := d.raw a
  let crit := r.mask (·.crit)
  let w1c := r.mask fun f => decide (f.acc = .w1c)
  let ask := (v &&& mask) ||| (old &&& ~~~mask &&& ~~~w1c)
  let new := r.asked old ask
  if mask &&& ~~~crit ≠ 0 ∨ d.valueBars c i off r new then (d, rBAD_ARG)
  else if d.blockBars .sup c i off old new || (decide (c = .mst) && d.resvBars (fieldOf MST.SVC_SLOTS old) (fieldOf MST.SVC_SLOTS new)) then
    (d, rBAD_STATE)
  else ((d.put a (r.stored old ask)).react .sup c i off Via.direct old new, rOK)

/-- 0x0001 `WRITE_CRIT`. -/
def Dev.doWriteCrit (d : Dev) (args : List Nat) : Dev × Nat :=
  let a := fieldLe args 0 4
  match pageAt a with
  | some (c, i) =>
    match regAt c i (a % 0x1000), decide (args.length = 12 ∧ a % 4 = 0 ∧ a % 0x1000 < 0x800) with
    | some r, true => d.critWrite c i (a % 0x1000) r (wd (fieldLe args 4 4)) (wd (fieldLe args 8 4))
    | _, _ => (d, rBAD_ARG)
  | none => (d, rBAD_ARG)

/-- 0x0002 `LOCK_OVERRIDE`. -/
def Dev.doLockOverride (d : Dev) (args : List Nat) : Dev × Nat :=
  let p := fieldLe args 0 4
  let m := fieldLe args 4 4 % 65536
  match pageAt p with
  | some (c, i) =>
    if args.length ≠ 8 ∨ p % 0x1000 ≠ 0 then (d, rBAD_ARG)
    else
      let pins := decide (c = .iob) && decide (d.reg (ioPg i) IOB.LOCK_STAT &&& wd m ≠ 0)
      if d.flag p HDR.LOCKED = false ∧ pins = false then (d, rBAD_STATE)
      else
        let d1 := d.setFlag p HDR.LOCKED false
        (if pins then d1.unlockPins i m else d1, rOK)
  | none => (d, rBAD_ARG)

/-! ### Keys (R480, R481) -/

/-- The key that 48 bytes wrap; the clear key on a virgin device without a KCMD. -/
def Dev.unwrap (d : Dev) (env blob : List Nat) : Option Nat :=
  match d.sec.kcmd with
  | none => if blob.drop 32 = List.replicate 16 0 then some (leNum (blob.take 32)) else none
  | some k =>
    let wrap := leNum (Config.kmac k d.serialBytes 32 2)
    (Config.gcmOpen wrap ((env.drop 4).take 8 ++ [0, 0, 0, 0]) (env.take 12) (blob.take 32) (blob.drop 32)).map leNum

/-- A key is loaded; a new KCMD resets the three counters (R478). -/
def Dev.loadKey (d : Dev) (k v : Nat) : Dev :=
  let d1 := d.setKey k (some v)
  if k = 0 then ((d1.setCmdCtr 1 0).setCmdCtr 2 0).setCmdCtr 3 0 else d1

/-- 0x0010 `KEY_LOAD`. -/
def Dev.doKeyLoad (d : Dev) (env args : List Nat) : Dev × Nat :=
  let k := args.headD 255
  if args.length ≠ 52 ∨ 1 < k then (d, rBAD_ARG)
  else match d.unwrap env (args.drop 4) with
    | none => (d, rBAD_ARG)
    | some v => if d.flag secPg SEC.LATCHED then (d, rFAILED) else (d.loadKey k v, rOK)

/-- 0x0011 `KEY_LOAD_SIGNED`: the signature block stands in the slave buffer. -/
def Dev.doKeyLoadSigned (d : Dev) (env args : List Nat) : Dev × Nat :=
  let k := args.headD 255
  let off := fieldLe args 36 4
  let blk := memBytes d.cw.mem (d.slaveBuf + off) sigBytes
  if args.length ≠ 40 ∨ 1 < k ∨ bufBytes < off + sigBytes ∨ d.ownerSig blk (Config.shake256 (env.take 48) 64) = false then
    (d, rBAD_ARG)
  else ((d.setF secPg SEC.LATCHED 0).loadKey k (fieldLe args 4 32), rOK)

/-- 0x0012 `KEY_ERASE`. -/
def Dev.doKeyErase (d : Dev) (args : List Nat) : Dev × Nat :=
  if args.length ≠ 1 ∨ 1 < args.headD 255 then (d, rBAD_ARG) else (d.setKey (args.headD 0) none, rOK)

/-! ### Fuses -/

/-- Data bytes of a fuse field; nothing for a field the table does not hold. -/
def fuseBytes (f : Nat) : Option Nat :=
  match f with
  | 0 => some 32 | 1 => some 32 | 2 => some 48 | 3 => some 0 | 4 => some 1 | 5 => some 1 | 6 => some 0 | 7 => some 0 | 8 => some 0
  | _ => none

/-- A fuse field is programmed. -/
def Dev.blow (d : Dev) (f : Nat) (set : Dev → Dev) (ok : Bool) : Dev × Nat :=
  if ok then ((set d).raise secPg SEC.E_FUSE_DONE (wd f), rOK) else (d.raise secPg SEC.E_FUSE_FAIL (wd f), rFAILED)

/-- An owner key hash in its registers. -/
def Dev.setHash (d : Dev) (f : Fld) (h : List Nat) : Dev :=
  (List.range 8).foldl (fun (e : Dev) k => e.setReg secPg (f.at k) (wd (fieldLe h (4 * k) 4))) d

/-- OPK0 makes the device owned: its JTAG port locks (R466, R487). -/
def Dev.blowOpk (d : Dev) (f : Nat) (h : List Nat) (ok : Bool) : Dev × Nat :=
  let set := if f = 0 then d.owned else d.flag secPg SEC.OPK1_SET
  let reg := if f = 0 then SEC.OPK0_HASH else SEC.OPK1_HASH
  if f = 1 ∧ d.owned = false then (d, rBAD_STATE)
  else if set ∧ d.hashBytes reg ≠ h then (d, rBAD_STATE)
  else d.blow f (fun (e : Dev) =>
    let e1 := e.setHash reg h
    if f = 0 then (if set then e1 else (e1.setF secPg SEC.OWNED 1).jtagLock) else e1.setF secPg SEC.OPK1_SET 1) ok

/-- KIMG_F, in its wrap. -/
def Dev.blowKimg (d : Dev) (env blob : List Nat) (ok : Bool) : Dev × Nat :=
  match d.unwrap env blob with
  | none => (d, rBAD_ARG)
  | some v =>
    if d.sec.kimgF.isSome ∧ d.sec.kimgF ≠ some v then (d, rBAD_STATE)
    else d.blow 2 (fun (e : Dev) => ({ e with sec := { e.sec with kimgF := some v } } : Dev).setF secPg SEC.KIMG_F_SET 1) ok

/-- An anti-rollback count (R471). -/
def Dev.blowArc (d : Dev) (f n : Nat) (ok : Bool) : Dev × Nat :=
  let c := if f = 4 then SEC.FW_ARC else SEC.IMG_ARC
  if n ≤ d.fld secPg c ∨ 128 < n then (d, rBAD_ARG)
  else d.blow f (fun (e : Dev) =>
    let e1 := e.setF secPg c n
    if 120 ≤ n then e1.raise secPg SEC.E_ARC_LOW else e1) ok

/-- A single configuration fuse; `PART` partitions every bank (R427). -/
def Dev.blowBit (d : Dev) (f : Nat) (ok : Bool) : Dev × Nat :=
  if f = 3 then
    if d.flag secPg SEC.OPK1_SET then d.blow f (fun (e : Dev) => e.setF secPg SEC.OPK0_REVOKED 1) ok else (d, rBAD_STATE)
  else if f = 6 then d.blow f (fun (e : Dev) => (List.range 12).foldl (fun (x : Dev) b => x.partFollow b) (e.setF secPg SEC.PART 1)) ok
  else if f = 7 then d.blow f (fun (e : Dev) => e.setF secPg SEC.JTAG_OFF 1) ok
  else d.blow f (fun (e : Dev) => e.setF secPg SEC.ENC_REQ 1) ok

/-- 0x0020 `FUSE_PROG`; `ok` tells whether the data verifies. -/
def Dev.doFuseProg (d : Dev) (env args : List Nat) (ok : Bool) : Dev × Nat :=
  let f := args.headD 255
  let data := args.drop 4
  match fuseBytes f with
  | none => (d, rBAD_ARG)
  | some n =>
    if args.length ≠ 4 + n then (d, rBAD_ARG)
    else if f ≤ 1 then d.blowOpk f data ok
    else if f = 2 then d.blowKimg env data ok
    else if f = 4 ∨ f = 5 then d.blowArc f (data.headD 0) ok
    else d.blowBit f ok

/-! ### Store, loader, calibration, debug -/

/-- The store or the loader serves another operation (R484). -/
def Dev.storeBusy (d : Dev) : Bool :=
  d.sto.job.isSome || (match d.ld.job with | some j => decide (j.src = 0) | none => false)

/-- 0x0030 `SLOT_WRITE`. -/
def Dev.doSlotWrite (d : Dev) (args : List Nat) : Dev × Nat :=
  if args.length ≠ 2 ∨ 3 < args.headD 255 ∨ 1 < args.getD 1 255 then (d, rBAD_ARG)
  else if d.storeBusy then (d, rBAD_STATE)
  else (d.storeStart 0 (args.headD 0) (decide (args.getD 1 0 = 1)), rOK)

/-- 0x0031 `SLOT_ERASE`. -/
def Dev.doSlotErase (d : Dev) (args : List Nat) : Dev × Nat :=
  if args.length ≠ 1 ∨ 3 < args.headD 255 then (d, rBAD_ARG)
  else if d.storeBusy then (d, rBAD_STATE)
  else (d.setF stPg (STORE.STATE.at (args.headD 0)) 0, rOK)

/-- 0x0032 `BANK_WRITE`. -/
def Dev.doBankWrite (d : Dev) (args : List Nat) : Dev × Nat :=
  let b := args.headD 255
  if args.length ≠ 1 ∨ 1 < b then (d, rBAD_ARG)
  else if (d.pw.supRun && decide (d.sec.bank = b)) || d.storeBusy || d.fw.isSome then (d, rBAD_STATE)
  else (d.storeStart 1 b true, rOK)

/-- `BANK_WRITE_DONE`: the copy of a bank is complete and is verified under R468; in recovery success restarts the device. -/
def Dev.bankWriteDone (d : Dev) : Dev :=
  match d.sto.job with
  | none => d
  | some j =>
    if j.target = 1 ∧ j.copied then
      let d1 := d.storeEnd
      if d1.bankFail j.index = 0 then
        let d2 := d1.raise stPg STORE.E_SLOT_WRITTEN
        if d2.sec.recovery then d2.sysReset 8 else d2
      else d1.raise stPg STORE.E_SLOT_BAD
    else d

/-- 0x0040 `CAL_OVERWRITE`. -/
def Dev.doCalOverwrite (d : Dev) (args : List Nat) : Dev × Nat :=
  let k := args.headD 255
  let n := fieldLe args 2 2
  if args.length ≠ 4 ∨ 1 < k ∨ (k = 0 ∧ 160 ≤ n) ∨ (k = 1 ∧ 272 ≤ n) then (d, rBAD_ARG)
  else if k = 0 then
    if d.fld (pg .pgrp (n / 10)) (PGRP.SUSPECTS.at (n % 10)) = 0 then (d, rBAD_STATE) else (d.reinstate (n / 10) (n % 10), rOK)
  else if d.fld (tregPg (n / 17)) TREG.RETIRED / 2 ^ (n % 17) % 2 = 0 ∨ d.sec.colBack.contains n then (d, rBAD_STATE)
  else ({ d with sec := { d.sec with colBack := d.sec.colBack ++ [n] } }, rOK)

/-- 0x0050 `KEEPER_RELOAD`. -/
def Dev.doKeeperReload (d : Dev) (id : Nat) (args : List Nat) : Dev × Nat :=
  let s := args.headD 255
  let who : Source := if id = 2 then .brizel else .ssp
  if args.length ≠ 1 ∨ 4 < s then (d, rBAD_ARG)
  else if d.ld.job.isSome then (d, rBAD_STATE)
  else if s = 4 then (d.loadStart 2 0 who true false false, rOK)
  else if d.flag stPg (STORE.SLAVE.at s) = false ∨ d.fld stPg (STORE.STATE.at s) = 1 then (d, rBAD_STATE)
  else (d.loadStart 0 s who true false false, rOK)

/-- 0x0060 `DEBUG_UNLOCK`: the challenge is renewed after every attempt (R488). -/
def Dev.doDebugUnlock (d : Dev) (args : List Nat) : Dev × Nat :=
  if args.length ≠ 32 ∨ args ≠ d.chalBytes then (d.newChal, rBAD_ARG)
  else if d.flag secPg SEC.JTAG_OFF then (d.newChal, rBAD_STATE)
  else ((d.jtagUnlock 0).newChal, rOK)

/-! ### Execution and report (R477, R482 to R484) -/

/-- The command of an envelope. -/
def Dev.critDo (d : Dev) (id : Nat) (b : List Nat) (ok : Bool) : Dev × Nat :=
  let args := envArgs b
  match envOp b with
  | 0x01 => d.doWriteCrit args
  | 0x02 => d.doLockOverride args
  | 0x10 => d.doKeyLoad b args
  | 0x11 => d.doKeyLoadSigned b args
  | 0x12 => d.doKeyErase args
  | 0x20 => d.doFuseProg b args ok
  | 0x30 => d.doSlotWrite args
  | 0x31 => d.doSlotErase args
  | 0x32 => d.doBankWrite args
  | 0x40 => d.doCalOverwrite args
  | 0x50 => d.doKeeperReload id args
  | 0x60 => d.doDebugUnlock args
  | _ => (d, rBAD_OP)

/-- `CMD_DONE` or `CMD_REFUSED`. -/
def Dev.critNote (d : Dev) (id res : Nat) (b : List Nat) : Dev :=
  d.raise authPg (if res = rOK then AUTH.E_CMD_DONE else AUTH.E_CMD_REFUSED) (wd (res * 2 ^ 24 + envOp b)) (wd id) (wd (envCtr b))

/-- An envelope of a source is tested, journaled and executed: the device and the result. -/
def Dev.critExec (d : Dev) (id : Nat) (b : List Nat) (ok : Bool) : Dev × Nat :=
  let d0 := d.pass ((Tab.get d.sec.tagWait id).getD 0 - d.mono)
  let t := d0.envTest id b
  if t = rOK then
    let r := (d0.setCmdCtr id (envCtr b)).critDo id b ok
    (r.1.critNote id r.2 b, r.2)
  else ((d0.testFailed id t).critNote id t b, t)

/-- An envelope is a row's own: it carries its opcode, or one that no command has. -/
def envMine (op : Nat) (b : List Nat) : Bool := decide (envOp b = op) || !(critOps.contains (envOp b))

/-- The supervisor, or Boot ROM in recovery, serves critical commands. -/
def Dev.critServed (d : Dev) : Bool := d.pw.supRun || d.sec.recovery

/-- The envelope in mailbox `m`. -/
def Dev.mailEnv (d : Dev) (m : Nat) : List Nat :=
  let f := if m = 0 then AUTH.AUTH_BUF0 else AUTH.AUTH_BUF1
  ((List.range 188).flatMap fun k => wordBytes (d.reg authPg (f.at k))).take (d.fld authPg (AUTH.LEN.at m))

/-- A command in mailbox `m` ends (R482). -/
def Dev.mailDone (d : Dev) (m op res : Nat) : Dev :=
  d.setReg authPg (AUTH.AUTH_STAT.at m) (wd (2 ^ 30 + res * 2 ^ 24 + op))

/-- The command of mailbox `m`, while `BUSY` is 1. -/
def Dev.mailCmd (d : Dev) (op m : Nat) (ok : Bool) : Dev :=
  let b := d.mailEnv m
  if d.critServed ∧ d.flag authPg (AUTH.BUSY.at m) ∧ envMine op b then
    let r := d.critExec (if m = 0 then 1 else 3) b ok
    r.1.mailDone m (envOp b) r.2
  else d

/-- The RSP to an AUTHCMD (R483). -/
def Dev.critRsp (d : Dev) (res : Nat) : List Nat :=
  if res = rOK then rspHead 0 0 else rspHead 6 0 ++ [res, 0, 0, 0] ++ leBytes 8 (d.cmdCtr 2)

/-- An AUTHCMD frame. -/
def Dev.authCmd (d : Dev) (op c seq : Nat) (b : List Nat) (ok : Bool) : Dev :=
  if d.critServed ∧ envMine op b then
    d.brzCmd c seq fun e =>
      let r := e.critExec 2 b ok
      (r.1, some (r.1.critRsp r.2))
  else d

end Sys2Proof.Machine
end

