-- ==== Sys2Proof/Machine/System.lean ====
section
/-! DEFINITION. How a command runs: what every meaning shares, and the passage of time when no command waits. -/

namespace Sys2Proof.Machine

/-! ### What every command shares -/

/-- Device time has moved otherwise than by time elapsing: it was stepped (R322) or cleared. -/
def Dev.stepped (old d : Dev) : Bool := decide (d.now + old.mono ≠ old.now + d.mono)

/-- Repairs whose ports left SYNCING or LIVE start again where their ports have come back (R94, R186). -/
def Dev.repsDue (d : Dev) : Dev :=
  (d.an.groups.filter fun x => x.2.reps.any (·.again)).foldl (fun (e : Dev) x => e.repsAgain x.1) d

/-- What falls due: repairs and handovers that wait go on (R50, R72, R186, R259, R404), and a check that has reached its bound
ends (R57). -/
def Dev.dues (d : Dev) : Dev := d.repsDue.rowsFollow.hoDue.waitsDue.checkDue

/-- Nothing falls due: no repair waits to start again, no row is repaired or waits for it, no region handover comes to its
comparison, no slot waits, and no check has run for the 10 µs that every check may take (R57). -/
def Dev.calm (d : Dev) : Bool :=
  d.an.groups.all (fun x => x.2.reps.all fun r => !r.again) && d.cw.reps.isEmpty && d.cw.rowWait.isEmpty &&
  d.ld.ho.all (fun h => !h.due) && d.mst.waiting.isEmpty &&
  d.mst.running.all fun j => j.start.all fun t => decide (d.mono < t + 10000)

/-- What follows a command: slots whose instants a step of device time has passed expire (R55), what falls due happens, and
`SYS.UPTIME_EPOCH` counts the wraps of `UPTIME` (R37). -/
def Dev.settle (old d : Dev) : Dev :=
  let d0 := if Dev.stepped old d then d.stepSlots else d
  let d1 := d0.dues
  if old.uptime / 2 ^ 32 < d1.uptime / 2 ^ 32 then
    d1.count (pg .sys 0) SYS.UPTIME_EPOCH (d1.uptime / 2 ^ 32 - old.uptime / 2 ^ 32) else d1

/-- The messages of the last command are gone. -/
def Dev.quiet (d : Dev) : Dev := { d with out := [] }

/-- A device runs a command when `on` holds; otherwise nothing happens. -/
def Dev.ran (d : Dev) (on : Bool) (f : Dev → Dev) : Dev := if on then Dev.settle d.quiet (f d.quiet) else d.quiet

/-- A command of the core: a device that is dark, or whose core is held in reset, does nothing (R490, R500, R512). -/
def act (f : Dev → Dev) (s : State) : Host.Outcome State Fault Refusal := .next { s with dev := s.dev.ran s.dev.coreOn f }

/-- An event that the always-on domain sees at any time (R502). -/
def actAlways (f : Dev → Dev) (s : State) : Host.Outcome State Fault Refusal := .next { s with dev := s.dev.ran true f }

/-- The tile clock runs: core PLL pair B does not wait for its standby to lock (R499, R506). -/
def Dev.tilesOn (d : Dev) : Bool := d.coreOn && !d.pw.cold.contains 1

/-- An instruction of a tile. -/
def actTile (f : Dev → Dev) (s : State) : Host.Outcome State Fault Refusal := .next { s with dev := s.dev.ran s.dev.tilesOn f }

/-! ### Register writes that are commands of their own -/

/-- The word that makes a write the command of a field: its bits are 1. -/
def trig (f : Fld) (v : Word) : Word := v ||| fmask f.hi f.lo

/-- A word with a field set. -/
def setField (f : Fld) (n : Nat) (v : Word) : Word := setBits v f.hi f.lo n

/-- A write of the register of a field of page `i` of a class. -/
def Dev.cmdWrite (d : Dev) (src : Source) (c : Cls) (i : Nat) (f : Fld) (v : Word) : Dev := d.regWrite src (pg c i + f.off) v

/-- A write of a header register of the page with a number. -/
def Dev.hdrWrite (d : Dev) (src : Source) (page : Nat) (f : Fld) (v : Word) : Dev := d.regWrite src (page * 0x1000 + f.off) v

/-- `MS_BIND_REQ`: unbind, slot, first page, pages beyond it. -/
def bindReqWord (unbind : Bool) (m page more : Nat) : Word :=
  setField MST.UNBIND (if unbind then 1 else 0) (setField MST.PAGE page (setField MST.COUNT_M1 more (setField MST.SLOT m 0)))

/-- `PAGE_CTL` with `ENABLE` given and `BLK_RST` 0. -/
def enableWord (on : Bool) (v : Word) : Word := setField HDR.BLK_RST 0 (setField HDR.ENABLE (if on then 1 else 0) v)

/-- `PAGE_CTL` with `PWR_REQ` given and `BLK_RST` 0. -/
def pwrReqWord (st : Nat) (v : Word) : Word := setField HDR.BLK_RST 0 (setField HDR.PWR_REQ st v)

/-- `REGISTER_WRITE`. -/
def Dev.targetWrite (d : Dev) : RegTarget → Dev
  | .bar0 src a v full => (d.busWrite src a.toNat v full .clean).1
  | .bar4 a v => d.bar4Write a.toNat v
  | .persDeadline ms => d.setDeadline ms.toNat
  | .msix on mask => d.msixControl on mask

/-- The page class of a region (32 K0, 33 K1), and the instance. -/
def regionCls (n : Fin 34) : Cls := if n.val < 32 then .freg else .keep
def regionInst (n : Fin 34) : Nat := if n.val < 32 then n.val else n.val - 32

/-- The register of a masked write. -/
def PinMask.fld : PinMask → Fld
  | .out => IOB.OUT_MW | .dir => IOB.DIR_MW | .pull => IOB.PULL_MW

/-- The page class of a serial block. -/
def SerKind.cls : SerKind → Cls
  | .uart => .uart | .spi => .spi | .i2c => .i2c

/-- A read of a dword whose value goes to the reader. -/
def Dev.readOut (d : Dev) (src : Source) (a : Nat) : Dev := (d.busRead src a).2.send (.readData src [(d.busRead src a).1])

/-! ### Commands made of shared parts -/

/-- An uncorrectable row as a column repair takes it. -/
def ColRow.tuple (x : ColRow) : Nat × Nat × Nat := (x.row.val, x.mem.val, x.at_)

/-- A word of a region's logic as its port takes it. -/
def LogicWord.tuple (x : LogicWord) : Nat × Word × Bool := (x.ts, x.word, x.marker)

/-- A word that reaches a tile on the flow its port is bound to. -/
def Dev.arriving (d : Dev) (t port ch ts : Nat) (w : Word) (marker poison : Bool) : FlowWord :=
  ⟨((d.tile (d.loc (t / 256) (t % 256 / 16) (t % 16))).strmReg port).toNat % 16384, ch, ts, w, marker, poison⟩

/-- A block RAM access, and what an uncorrectable error in the new region of a handover does to it (R406). -/
def Dev.bramStep (d : Dev) (n b : Nat) (pa pb : Option BramOp) : Dev :=
  let d1 := d.bramAccess n b pa pb
  if d.reg (frPg n) FREG.BRAM_UE_CNT ≠ d1.reg (frPg n) FREG.BRAM_UE_CNT then d1.hoBramUe n else d1

/-- A critical command by what carries it. -/
def Dev.critCmd (d : Dev) (op : Nat) (x : Carrier) (ok : Bool) : Dev :=
  match x with
  | .mailbox m => d.mailCmd op m ok
  | .authcmd c seq env => d.authCmd op c.toNat seq.toNat (env.map BitVec.toNat) ok

/-! ### Time (no command waits) -/

/-- The pulses of the media clock generators at the pins that select them (R419). -/
def Dev.mcgPulses (d : Dev) : Dev :=
  (List.range 4).foldl (fun (e : Dev) n =>
    if e.mcgRuns n then
      let r := e.mcgRate n
      let v := e.fld (mcgPg n) MCG.VRATE
      let e1 := if edgeTime r (edgeAt r e.now) = e.now then e.pinPulse (272 + n) else e
      if frameTime v (frameAt v e1.now) = e1.now then e1.pinPulse (276 + n) else e1
    else e) d

/-- One nanosecond passes: device time goes on, serial bytes whose time has come leave, media clocks pulse. -/
def Dev.tick (d : Dev) : Dev :=
  let d1 := d.quiet.pass 1
  Dev.settle d.quiet (if d1.coreOn then d1.lanesTick.fabricTick.serTick.mcgPulses else d1)

end Sys2Proof.Machine
end

