-- ==== Sys2Proof/Machine/CmdCauseway.lean ====
section
/-! DEFINITION. The meanings of the commands of the causeway and frame memory (chapter 9), one definition each. -/

namespace Sys2Proof.Machine

/-- `FLIT_SEND` (R274): A producer sends a stream flit when it holds 13 words, writes its last channel, or its next word
changes timestamp. -/
def execFlitSend (ep : Fin 65536) (flow : Fin 16384) (ws : List LogicWord) (s : State) : Host.Outcome State Fault Refusal :=
  act (fun d => d.flitSend ep flow (ws.map LogicWord.tuple)) s

/-- `FLIT_ARRIVE` (R272): A flit arrives at a router or endpoint and is forwarded, copied, delivered or discarded as
stale. -/
def execFlitArrive (n : Nat) (ep : Fin 65536) (err : Option (Fin 64 × Fin 8)) (s : State) : Host.Outcome State Fault Refusal :=
  act (fun d => d.flitArrive n ep (err.map fun x => (x.1.val, x.2.val))) s

/-- `A_DROP` (R281): A class A flit not accepted by its consumer within 1 µs is discarded for that consumer and A_DROP is
raised. -/
def execADrop (n : Nat) (ep : Fin 65536) (s : State) : Host.Outcome State Fault Refusal :=
  act (fun d => d.aDropEvent n ep) s

/-- `MEMORY_ACCESS` (R284): A memory flit reaches a bank controller and is read or written with DEC-TED correction and
poison handling. -/
def execMemoryAccess (m : MemFlit) (es : List EccEvent) (s : State) : Host.Outcome State Fault Refusal :=
  act (fun d => d.memServe m es) s

/-- `FRAME_PORT_WRITE` (R287): A frame-port writer stores an arriving word, and a marker word ends the buffer and writes
its header. -/
def execFramePortWrite (b : Fin 32) (s : State) : Host.Outcome State Fault Refusal :=
  act (fun d => d.framePortWrite b) s

/-- `FRAME_PORT_READ` (R288): A frame-port reader emits a complete buffer, oldest first, as its consumers' credits allow,
followed by a marker word. -/
def execFramePortRead (b : Fin 32) (e : EccEvent) (s : State) : Host.Outcome State Fault Refusal :=
  act (fun d => d.framePortRead b e) s

/-- `SCRUB_READ` (R289): The scrubber reads and corrects the next frame-memory word at the pass rate, requesting row
repair where R292 applies. -/
def execScrubRead (e : EccEvent) (skip : Bool) (v : VoteEvent) (s : State) : Host.Outcome State Fault Refusal :=
  act (fun d => d.scrubRead e skip v) s

/-- `ROW_REPAIR_GO` (R293): RPR_CTL.GO or a scrubber request starts soft repair of a row onto the lowest free spare row. -/
def execRowRepairGo (src : Source) (b : Fin 32) (v : Word) (s : State) : Host.Outcome State Fault Refusal :=
  act (fun d => d.cmdWrite src .fmem b FMEM.RPR_CTL (trig FMEM.GO v)) s

/-- `ROW_COMPARE_DONE` (R293): The spare-row copy and bit-exact comparison complete; a pass arms the repair, a mismatch
ends it with outcome 1. -/
def execRowCompareDone (b : Fin 32) (bad : Nat) (s : State) : Host.Outcome State Fault Refusal :=
  act (fun d => d.rowCompare b bad) s

/-- `ROW_REPAIR_TIMEOUT` (R293): After 10 s of waiting to bind the FMEM page, the repair ends with outcome 2. -/
def execRowRepairTimeout (b : Fin 32) (s : State) : Host.Outcome State Fault Refusal :=
  act (fun d => d.rowTimeout b) s

/-- `ROW_REPAIR_ABORT` (R293): RPR_CTL.ABORT before Switch ends the repair with outcome 5. -/
def execRowRepairAbort (src : Source) (b : Fin 32) (v : Word) (s : State) : Host.Outcome State Fault Refusal :=
  act (fun d => d.cmdWrite src .fmem b FMEM.RPR_CTL (trig FMEM.ABORT v)) s

/-- `FLOW_BIND` (R276): A write binding a producer or consumer to a flow is made, or refused with cause BLOCK against the
route record and class A load. -/
def execFlowBind (src : Source) (addr : Nat) (v : Word) (s : State) : Host.Outcome State Fault Refusal :=
  act (fun d => d.regWrite src addr v) s

/-- `FLOW_ROUTE` (R298): A write to FLOW_ROUTE changes a flow's route record, or is refused while the flow has a bound
producer or consumer. -/
def execFlowRoute (src : Source) (v : Word) (s : State) : Host.Outcome State Fault Refusal :=
  act (fun d => d.cmdWrite src .cway 0 CWAY.FLOW_ROUTE v) s

end Sys2Proof.Machine
end

