-- ==== Sys2Proof/Machine/CmdConfig.lean ====
section
/-! DEFINITION. The meanings of the commands of configuration (chapter 13), one definition each. -/

namespace Sys2Proof.Machine

/-- `LOAD_GO` (R388): LDR_CTL.GO starts a load with Digest, or is refused while a load runs. -/
def execLoadGo (src : Source) (v : Word) (s : State) : Host.Outcome State Fault Refusal :=
  act (fun d => d.cmdWrite src .ldr 0 LDR.LDR_CTL (trig LDR.LDR_CTL_GO v)) s

/-- `LOAD_ABORT` (R389): LDR_CTL.ABORT ends a load before Release with ERR ABORTED. -/
def execLoadAbort (src : Source) (v : Word) (s : State) : Host.Outcome State Fault Refusal :=
  act (fun d => d.cmdWrite src .ldr 0 LDR.LDR_CTL (trig LDR.ABORT v)) s

/-- `DIGEST_DONE` (R388): The image digest completes and Verify starts. -/
def execDigestDone (s : State) : Host.Outcome State Fault Refusal :=
  act (fun d => d.digestDone) s

/-- `VERIFY_DONE` (R388): Verify completes, binding release groups and starting Write, or failing the load. -/
def execVerifyDone (s : State) : Host.Outcome State Fault Refusal :=
  act (fun d => d.verifyDone) s

/-- `REGION_WRITE_DONE` (R390): A region's frames, block RAM and memory records have been written behind isolation and the
region completes. -/
def execRegionWriteDone (s : State) : Host.Outcome State Fault Refusal :=
  act (fun d => d.regionWriteDone) s

/-- `GROUP_COMPLETE` (R395): All regions of a release group complete and the loader issues CHECK on the group's slot, or
enters SHADOW for partners. -/
def execGroupComplete (g : Fin 8) (s : State) : Host.Outcome State Fault Refusal :=
  act (fun d => d.groupComplete g) s

/-- `ISO_RELEASE` (R398): A direct write of ISO_CTL.RELEASE = 1 releases a HELD region. -/
def execIsoRelease (src : Source) (n : Fin 34) (v : Word) (s : State) : Host.Outcome State Fault Refusal :=
  act (fun d => d.cmdWrite src (regionCls n) (regionInst n) FREG.ISO_CTL (trig FREG.RELEASE v)) s

/-- `PERSONALITY_LOAD` (R399): Once the supervisor runs after reset it starts the power-up load from BOOT_SLOT, or waits
for the host, or takes the bare personality. -/
def execPersonalityLoad (s : State) : Host.Outcome State Fault Refusal :=
  act (fun d => d.personalityLoad) s

/-- `PERS_DEADLINE` (R401): The personality deadline passing before the load completes aborts it, returns its regions to
DARK and raises BARE. -/
def execPersDeadline (s : State) : Host.Outcome State Fault Refusal :=
  act (fun d => d.persDeadline) s

/-- `REGION_HO_COMPARE_DONE` (R404): The partner region's comparison completes; a pass arms the region handover, a
mismatch ends it with outcome 1. It comes `dt` ns after the command before it (log 164). -/
def execRegionHoCompareDone (dt : Nat) (s : State) : Host.Outcome State Fault Refusal :=
  act (fun d => (d.pass dt).hoCompareDone) s

/-- `REGION_HO_SILENT` (R404): A stream-out port silent for 100 ms during comparison ends the region handover with outcome
2. -/
def execRegionHoSilent (s : State) : Host.Outcome State Fault Refusal :=
  act (fun d => d.hoSilent) s

/-- `REGION_HO_BIND_TIMEOUT` (R404): Failing to bind the handover pages within 10 s ends the region handover with outcome
2. -/
def execRegionHoBindTimeout (s : State) : Host.Outcome State Fault Refusal :=
  act (fun d => d.hoBindTimeout) s

/-- `REGION_HO_DRAIN_END` (R404): After DRAIN µs the old region is isolated, becomes EMPTY and DARK, the new region is
RELEASED and REGION_HO is raised. -/
def execRegionHoDrainEnd (s : State) : Host.Outcome State Fault Refusal :=
  act (fun d => d.hoDrainEnd) s

/-- `READBACK` (R407): RB_CTL.GO reads one cluster's configuration frame into RB_DATA within 2 µs. -/
def execReadback (src : Source) (v : Word) (s : State) : Host.Outcome State Fault Refusal :=
  act (fun d => d.cmdWrite src .ldr 0 LDR.RB_CTL (trig LDR.RB_CTL_GO v)) s

/-- `SLOT_WRITE_DONE` (R410): A store slot write completes its copy and verification, raising SLOT_WRITTEN or SLOT_BAD. -/
def execSlotWriteDone (s : State) : Host.Outcome State Fault Refusal :=
  act (fun d => d.slotWriteDone) s

/-- `STORE_WRITE_UNIT` (R411): The store commits one 64-byte write unit, counting wear and retiring the sector when its
limit or read-back fails. -/
def execStoreWriteUnit (log : Option (BitVec 26 × List Byte)) (bad : Bool) (s : State) : Host.Outcome State Fault Refusal :=
  act (fun d => d.storeWriteUnit (log.map fun x => (x.1.toNat, x.2.map BitVec.toNat)) bad) s

end Sys2Proof.Machine
end

