-- ==== Sys2Proof/Machine/CmdFabric.lean ====
section
/-! DEFINITION. The meanings of the commands of the logic fabric (chapter 12), one definition each. -/

namespace Sys2Proof.Machine

/-- `TAP_REARM` (R353): TAP_REARM returns every lost tap of the region to arbitration. -/
def execTapRearm (src : Source) (n : Fin 32) (v : Word) (s : State) : Host.Outcome State Fault Refusal :=
  act (fun d => d.cmdWrite src .freg n FREG.TAP_CTL (trig FREG.TAP_REARM v)) s

/-- `BRAM_ACCESS` (R360): A block RAM read or write in ECC mode corrects errors, poisons on uncorrectable errors and
merges byte writes. -/
def execBramAccess (n : Fin 32) (b : Fin 32) (pa pb : Option BramOp) (s : State) : Host.Outcome State Fault Refusal :=
  act (fun d => d.bramStep n b pa pb) s

/-- `WALK_STALE` (R361): A block RAM walk not complete within 1 s sets and raises WALK_STALE. -/
def execWalkStale (n : Fin 32) (b : Fin 32) (stale : Bool) (s : State) : Host.Outcome State Fault Refusal :=
  act (fun d => d.walkStale n b stale) s

/-- `OSC_MEASURE` (R367): Every 1 ms a user ring oscillator is measured against XIN, raising OSC_RANGE outside 45–880 MHz. -/
def execOscMeasure (k : Fin 8) (khz : BitVec 20) (s : State) : Host.Outcome State Fault Refusal :=
  act (fun d => d.oscMeasure k khz.toNat) s

/-- `USTORE_REQUEST` (R369): A region's user store request is served in round robin, or answered with an error and
USTORE_ERR. -/
def execUstoreRequest (n : Fin 34) (write : Bool) (addr : BitVec 32) (data : List Byte) (len : Nat) (s : State) : Host.Outcome State Fault Refusal :=
  act (fun d => d.ustoreRequest n write addr.toNat (data.map BitVec.toNat) len) s

/-- `USTORE_DONE` (R369): A user store read or journaled write completes and is acknowledged to the region. -/
def execUstoreDone (fault bad : Bool) (s : State) : Host.Outcome State Fault Refusal :=
  act (fun d => d.ustoreDone fault bad) s

/-- `FPORT_REG_ACCESS` (R364): A fabric port in register mode issues one BAR0 access as the fabric source. -/
def execFportRegAccess (n : Fin 34) (p : Fin 8) (addr : BitVec 27) (write : Option Word) (s : State) : Host.Outcome State Fault Refusal :=
  act (fun d => d.fportAccess n p addr.toNat write) s

end Sys2Proof.Machine
end

