-- ==== Sys2Proof/Machine/CmdHost.lean ====
section
/-! DEFINITION. The meanings of the commands of host and management links (chapter 15), one definition each. -/

namespace Sys2Proof.Machine

/-- `Q_CFG_WRITE` (R441): A write to Q_CFG enables or disables a DMA queue, aborting unfinished descriptors when EN
clears. -/
def execQCfgWrite (q : Fin 16) (v : Word) (s : State) : Host.Outcome State Fault Refusal :=
  act (fun d => d.qCfgWrite q v) s

/-- `SQ_DOORBELL` (R441): A write to SQ_TAIL makes new descriptors available to the DMA engine. -/
def execSqDoorbell (q : Fin 16) (v : Word) (ds : List Desc) (s : State) : Host.Outcome State Fault Refusal :=
  act (fun d => d.sqDoorbell q v ds) s

/-- `DMA_DESCRIPTOR_DONE` (R442): A DMA descriptor completes with its status and a completion record is written when the
ring has room. -/
def execDmaDescriptorDone (q : Fin 16) (host : List Byte) (err : Option Nat) (s : State) : Host.Outcome State Fault Refusal :=
  act (fun d => d.dmaDone q (host.map BitVec.toNat) err) s

/-- `NOTICE_RING_WRITE` (R452): A waiting notice record is written to the host ring when RING_EN is 1 and the ring has
room, and NQ_HEAD is written back. -/
def execNoticeRingWrite (q : Fin 4) (s : State) : Host.Outcome State Fault Refusal :=
  act (fun d => d.ringWrite q) s

/-- `NQ_TAIL_WRITE` (R452): A write of NQ_TAIL frees ring space, or is refused outside the span to NQ_HEAD. -/
def execNqTailWrite (src : Source) (q : Fin 4) (v : Word) (s : State) : Host.Outcome State Fault Refusal :=
  act (fun d => d.cmdWrite src .ntc 0 (NTC.NQ_TAIL.at q) v) s

/-- `MSIX_COALESCE_TIMEOUT` (R453): COAL_US µs after the first record since the last interrupt, the queue raises its MSI-X
vector. -/
def execMsixCoalesceTimeout (q : Fin 4) (s : State) : Host.Outcome State Fault Refusal :=
  act (fun d => d.coalesce q) s

/-- `PCIE_LINK_DOWN` (R446): The PCIe link leaving its active state without PERST_N is treated as PERST_N at scope 0 and
raises PCIE_LINK_DOWN. -/
def execPcieLinkDown (s : State) : Host.Outcome State Fault Refusal :=
  act (fun d => d.pcieDown) s

/-- `PCIE_LINK_UP` (R446): The PCIe link retrains, raising PCIE_LINK_UP and PCIE_DEGRADED when below ×8 Gen5. -/
def execPcieLinkUp (gen : Fin 8) (width : Fin 32) (s : State) : Host.Outcome State Fault Refusal :=
  act (fun d => d.pcieUp gen width) s

/-- `BRIZEL_BREAK` (R454): MLK_RX low for 1 ms starts rate detection on the next 0x00 byte, setting SYNC and raising
BLK_SYNC. -/
def execBrizelBreak (baud : BitVec 25) (s : State) : Host.Outcome State Fault Refusal :=
  act (fun d => d.brzBreak baud.toNat) s

/-- `BRIZEL_FRAME_REJECT` (R456): A received Brizel frame failing COBS, CRC, length, type, channel, credit or sequence
checks is answered with NAK. -/
def execBrizelFrameReject (chan : Byte) (seq : Option (BitVec 16)) (why : Fin 16) (s : State) : Host.Outcome State Fault Refusal :=
  act (fun d => d.brzReject chan.toNat (seq.map BitVec.toNat) why) s

/-- `BRIZEL_READ` (R458): A Brizel READ command returns dwords from consecutive BAR0 offsets. -/
def execBrizelRead (c : Byte) (seq : BitVec 16) (count : BitVec 16) (addr : Word) (s : State) : Host.Outcome State Fault Refusal :=
  act (fun d => d.brzRead c.toNat seq.toNat count.toNat addr.toNat) s

/-- `BRIZEL_WRITE` (R459): A Brizel WRITE command writes dwords and stops at the first refused one. -/
def execBrizelWrite (c : Byte) (seq : BitVec 16) (count : BitVec 16) (addr : Word) (ws : List Word) (s : State) : Host.Outcome State Fault Refusal :=
  act (fun d => d.brzWrite c.toNat seq.toNat count.toNat addr.toNat ws) s

/-- `MWRITE` (R459): MWRITE writes a masked value with no other access to the register in between. -/
def execMwrite (c : Byte) (seq : BitVec 16) (count : BitVec 16) (addr mask v : Word) (s : State) : Host.Outcome State Fault Refusal :=
  act (fun d => d.brzMwrite c.toNat seq.toNat count.toNat addr.toNat mask v) s

/-- `POLL` (R459): POLL starts re-reading a register every 10 µs until it matches the value under the mask. -/
def execPoll (c : Byte) (seq : BitVec 16) (count : BitVec 16) (addr mask v : Word) (ms : BitVec 16) (s : State) : Host.Outcome State Fault Refusal :=
  act (fun d => d.brzPoll c.toNat seq.toNat count.toNat addr.toNat mask v ms.toNat) s

/-- `POLL_DONE` (R459): A POLL ends on a match or its timeout and its RSP is sent. -/
def execPollDone (c : Byte) (s : State) : Host.Outcome State Fault Refusal :=
  act (fun d => d.pollDone c.toNat) s

/-- `FMREAD` (R459): FMREAD returns 64-bit frame-memory words, poisoned words as zero with status POISON. -/
def execFmread (c : Byte) (seq : BitVec 16) (count : BitVec 16) (addr : Word) (es : List EccEvent) (s : State) : Host.Outcome State Fault Refusal :=
  act (fun d => d.brzFmread c.toNat seq.toNat count.toNat addr.toNat es) s

/-- `FMWRITE` (R459): FMWRITE writes 64-bit words to frame memory as class B. -/
def execFmwrite (c : Byte) (seq : BitVec 16) (count : BitVec 16) (addr : Word) (ws : List (BitVec 64)) (s : State) : Host.Outcome State Fault Refusal :=
  act (fun d => d.brzFmwrite c.toNat seq.toNat count.toNat addr.toNat ws) s

/-- `INFO` (R458): INFO returns SYS PAGE_ID, protocol version and largest payload. -/
def execBrizelInfo (c : Byte) (seq : BitVec 16) (op : Byte) (count : BitVec 16) (s : State) : Host.Outcome State Fault Refusal :=
  act (fun d => d.brzInfo c.toNat seq.toNat op.toNat count.toNat) s

/-- `ACK` (R458): An ACK from the manager acknowledges a NOTICE frame and frees its place in the window. -/
def execBrizelAck (seq : BitVec 16) (s : State) : Host.Outcome State Fault Refusal :=
  act (fun d => d.brzAck seq.toNat) s

/-- `NAK` (R458): A NAK from the manager causes the named NOTICE frame to be resent. -/
def execBrizelNak (seq : BitVec 16) (s : State) : Host.Outcome State Fault Refusal :=
  act (fun d => d.brzNakRx seq.toNat) s

/-- `CREDIT` (R457): A CREDIT from the manager sets the NOTICE window or grants command credit. -/
def execBrizelCredit (chan : Byte) (n : Byte) (s : State) : Host.Outcome State Fault Refusal :=
  act (fun d => d.brzCredit chan.toNat n.toNat) s

/-- `NOTICE_FRAME_SEND` (R458): A NOTICE frame of up to 128 records is sent when the queue's coalescing condition holds
and the window allows. -/
def execNoticeFrameSend (q : Fin 4) (s : State) : Host.Outcome State Fault Refusal :=
  act (fun d => d.noticeSend q) s

/-- `NOTICE_RESEND` (R458): A NOTICE frame unacknowledged after RETX_MS is resent, and after 8 sends its records count as
lost. -/
def execNoticeResend (seq : BitVec 16) (s : State) : Host.Outcome State Fault Refusal :=
  act (fun d => d.noticeResend seq.toNat) s

/-- `WRITE_REG` (R460): The SSP WRITE_REG command writes dwords to consecutive BAR0 offsets. -/
def execSspWriteReg (addr : Word) (ws : List Word) (s : State) : Host.Outcome State Fault Refusal :=
  act (fun d => d.sspWriteReg addr.toNat ws) s

/-- `READ_REG` (R460): The SSP READ_REG command returns dwords from BAR0 after 8 dummy clocks. -/
def execSspReadReg (addr : Word) (n : Nat) (s : State) : Host.Outcome State Fault Refusal :=
  act (fun d => d.sspReadReg addr.toNat n) s

/-- `WRITE_BUF` (R462): The SSP WRITE_BUF command writes up to 4,096 bytes into the slave buffer, setting ERR on
violations. -/
def execSspWriteBuf (off : Word) (bs : List Byte) (s : State) : Host.Outcome State Fault Refusal :=
  act (fun d => d.sspWriteBuf off.toNat (bs.map BitVec.toNat)) s

/-- `STATUS` (R460): The SSP STATUS command returns BUSY and ERR and clears ERR. -/
def execSspStatus (s : State) : Host.Outcome State Fault Refusal :=
  act (fun d => d.sspStatus) s

/-- `PSP_TRANSACTION` (R461): A PSP transaction writes or reads BAR0 or the slave buffer at the 32-bit address it carries. -/
def execPspTransaction (write : Bool) (addr : Word) (ws : List Word) (n : Nat) (s : State) : Host.Outcome State Fault Refusal :=
  act (fun d => d.pspAccess write addr.toNat ws n) s

/-- `CQ_HEAD_WRITE` (R441): A host write of a queue's CQ_HEAD frees completion-ring space, so a DMA queue waiting for room
writes its pending completion record and resumes fetching descriptors. -/
def execCqHeadWrite (q : Fin 16) (v : Word) (s : State) : Host.Outcome State Fault Refusal :=
  act (fun d => d.cqHeadWrite q v) s

end Sys2Proof.Machine
end

