-- ==== Sys2Proof/Machine/CmdLanes.lean ====
section
/-! DEFINITION. The meanings of the commands of serial lanes and Ethernet (chapter 10), one definition each. -/

namespace Sys2Proof.Machine

/-- `LAYOUT_CHANGE` (R304): A change of LG_CFG layout or rate retunes the lane-group PLL, or is refused while an affected
port is enabled. -/
def execLayoutChange (src : Source) (g : Fin 8) (v : Word) (s : State) : Host.Outcome State Fault Refusal :=
  act (fun d => d.cmdWrite src .lgrp g LGRP.LG_CFG v) s

/-- `PLL_LOCK` (R304): The lane-group PLL locks after retuning and raises PLL_LOCK. -/
def execPllLock (g : Fin 8) (s : State) : Host.Outcome State Fault Refusal :=
  act (fun d => d.pllLock g) s

/-- `PLL_UNLOCK` (R306): The lane-group PLL unlocks, raising PLL_UNLOCK and taking UP ports to DOWN with cause 4. -/
def execPllUnlock (g : Fin 8) (refOk : Bool) (s : State) : Host.Outcome State Fault Refusal :=
  act (fun d => d.pllUnlock g refOk) s

/-- `ETH_ENABLE` (R306): ENABLE of an ETH port starts bring-up in AN, TRAINING or DOWN; ENABLE = 0 takes it to DISABLED. -/
def execEthEnable (src : Source) (e : Fin 64) (on : Bool) (v : Word) (s : State) : Host.Outcome State Fault Refusal :=
  act (fun d => d.cmdWrite src .eth e HDR.PAGE_CTL (enableWord on v)) s

/-- `AN_RESOLVED` (R306): The partner offers the advertised mode and FEC and the port passes to TRAINING. -/
def execAnResolved (e : Fin 64) (s : State) : Host.Outcome State Fault Refusal :=
  act (fun d => d.anResolved e) s

/-- `AN_FAIL` (R306): No common ability within 3,000 ms takes the port to DOWN with cause 6 and raises AN_FAIL. -/
def execAnFail (e : Fin 64) (s : State) : Host.Outcome State Fault Refusal :=
  act (fun d => d.anFail e) s

/-- `TRAINING_DONE` (R306): Every lane of the port is trained and the port goes DOWN seeking lock. -/
def execTrainingDone (e : Fin 64) (s : State) : Host.Outcome State Fault Refusal :=
  act (fun d => d.trainingDone e) s

/-- `TRAINING_TIMEOUT` (R306): Training not complete in 3,000 ms takes the port to DOWN with cause 7. -/
def execTrainingTimeout (e : Fin 64) (s : State) : Host.Outcome State Fault Refusal :=
  act (fun d => d.trainingTimeout e) s

/-- `LINK_UP` (R306): Block or alignment lock, and FEC lock where on, on every lane takes the port to UP and raises
LINK_UP. -/
def execLinkUp (e : Fin 64) (s : State) : Host.Outcome State Fault Refusal :=
  act (fun d => d.linkUp e) s

/-- `BRINGUP_RETRY` (R306): A port not UP 100 ms after entering DOWN starts bring-up again. -/
def execBringupRetry (e : Fin 64) (s : State) : Host.Outcome State Fault Refusal :=
  act (fun d => d.bringupRetry e) s

/-- `LINK_DOWN` (R306): Signal or lock loss, high error rate or another listed cause takes an UP port to DOWN and raises
LINK_DOWN. -/
def execLinkDown (e : Fin 64) (why : Fin 16) (lane : Option (Fin 64)) (s : State) : Host.Outcome State Fault Refusal :=
  act (fun d => d.linkDown e why (lane.map Fin.val)) s

/-- `RETRAIN` (R306): ETH_CTL.RETRAIN takes an UP port to DOWN with cause 5. -/
def execRetrain (src : Source) (e : Fin 64) (v : Word) (s : State) : Host.Outcome State Fault Refusal :=
  act (fun d => d.cmdWrite src .eth e ETH.ETH_CTL (trig ETH.RETRAIN v)) s

/-- `SV_GO` (R311): SV_GO starts a channel survey of reflection, partner and loss on a DISABLED or DOWN port. -/
def execSvGo (src : Source) (e : Fin 64) (v : Word) (s : State) : Host.Outcome State Fault Refusal :=
  act (fun d => d.cmdWrite src .eth e ETH.ETH_CTL (trig ETH.SV_GO v)) s

/-- `ETH_SURVEY_END` (R311): The channel survey completes or is aborted, reports its results and raises SURVEY_END. -/
def execEthSurveyEnd (e : Fin 64) (lanes : List LaneSurvey) (partner : Option (Fin 4 × BitVec 23)) (s : State) : Host.Outcome State Fault Refusal :=
  act (fun d => d.ethSurveyEnd e lanes (partner.map fun x => (x.1.val, x.2.toNat))) s

/-- `ADAPT_STEP` (R308): At most once per 1 ms per lane, continuous adaptation changes one equaliser setting by one step
and updates MARGIN. -/
def execAdaptStep (l : Fin 64) (margin : BitVec 16) (s : State) : Host.Outcome State Fault Refusal :=
  act (fun d => d.adaptStep l margin.toNat) s

/-- `MARGIN_RETRAIN` (R309): With AUTO_RETRAIN, a lane below 0 margin for 1 s takes its port to DOWN with cause 5. -/
def execMarginRetrain (l : Fin 64) (s : State) : Host.Outcome State Fault Refusal :=
  act (fun d => d.marginRetrain l) s

/-- `IL_ESTIMATE` (R310): Every 1 s adaptation writes its insertion-loss estimate into LN_SV.IL. -/
def execIlEstimate (l : Fin 64) (il : BitVec 10) (s : State) : Host.Outcome State Fault Refusal :=
  act (fun d => d.ilEstimate l il.toNat) s

/-- `LANE_RETIRE` (R544): A write of LN_CTL.RETIRE retires or releases a lane, refused while a single-path flow would go
silent. -/
def execLaneRetire (src : Source) (l : Fin 64) (v : Word) (s : State) : Host.Outcome State Fault Refusal :=
  act (fun d => d.cmdWrite src .lane l LANE.LN_CTL v) s

/-- `MODULE_POLL` (R315): Every 100 ms the supervisor polls a managed module's CMIS flags and advances its state. -/
def execModulePoll (g : Fin 8) (present : Bool) (mstate : BitVec 3) (dpstate : BitVec 4) (rev : BitVec 8) (flags : BitVec 16) (s : State) : Host.Outcome State Fault Refusal :=
  act (fun d => d.modulePoll g present mstate.toNat dpstate.toNat rev.toNat flags.toNat) s

/-- `MOD_FAULT` (R315): A module not reaching data-path-activated within 10 s raises MOD_FAULT. -/
def execModFault (g : Fin 8) (s : State) : Host.Outcome State Fault Refusal :=
  act (fun d => d.modFault g) s

/-- `MOD_ACC` (R315): MOD_ACC.GO performs one byte transfer to the module, refused for pages 10h and 11h while managed. -/
def execModAcc (src : Source) (g : Fin 8) (v : Word) (s : State) : Host.Outcome State Fault Refusal :=
  act (fun d => d.cmdWrite src .lgrp g LGRP.MOD_ACC (trig LGRP.GO v)) s

/-- `CDR_LOSS` (R366): A lane's receiver loses clock recovery, CDR_LOCK falls, CDR_LOSS_CNT counts and a raw lane's fabric
interface sees LOCK = 0. -/
def execCdrLoss (l : Fin 64) (s : State) : Host.Outcome State Fault Refusal :=
  act (fun d => d.cdrLoss l) s

/-- `CDR_LOCK` (R366): A lane's receiver recovers the clock and CDR_LOCK and a raw lane's LOCK return to 1. -/
def execCdrLock (l : Fin 64) (s : State) : Host.Outcome State Fault Refusal :=
  act (fun d => d.cdrLock l) s

end Sys2Proof.Machine
end

