-- ==== Sys2Proof/Machine/CmdMedia.lean ====
section
/-! DEFINITION. The meanings of the commands of time, media clocks and media flows (chapter 11), one definition each. -/

namespace Sys2Proof.Machine

/-- `SERVO_PUSH` (R323): SRV_PUSH.GO delivers one PTP offset measurement to the servo. -/
def execServoPush (src : Source) (v : Word) (s : State) : Host.Outcome State Fault Refusal :=
  act (fun d => d.cmdWrite src .time 0 TIME.SRV_PUSH (trig TIME.GO v)) s

/-- `REFIN_MEASUREMENT` (R324): A reference frame start, or a 10 ms word-clock interval, yields one offset measurement for
the servo. -/
def execRefinMeasurement (edges : List Nat) (s : State) : Host.Outcome State Fault Refusal :=
  act (fun d => d.refinMeasure edges) s

/-- `MEAS_TIMEOUT` (R320): No push for MEAS_TMO ms in LOCKED takes the servo to HOLDOVER. -/
def execMeasTimeout (s : State) : Host.Outcome State Fault Refusal :=
  act (fun d => d.measTimeout) s

/-- `STEP_WANTED` (R320): Large offsets on every measurement for 10 s in LOCKED or HOLDOVER set STEP_WANT and raise
STEP_WANTED. -/
def execStepWanted (s : State) : Host.Outcome State Fault Refusal :=
  act (fun d => d.stepWanted) s

/-- `TIME_SRC_WRITE` (R320): A write of TIME_SRC that changes the source or reference takes a LOCKED servo to HOLDOVER. -/
def execTimeSrcWrite (src : Source) (v : Word) (s : State) : Host.Outcome State Fault Refusal :=
  act (fun d => d.cmdWrite src .time 0 TIME.TIME_SRC v) s

/-- `REACQUIRE` (R320): TIME_CMD.REACQUIRE takes a LOCKED or HOLDOVER servo to ACQUIRE. -/
def execReacquire (src : Source) (v : Word) (s : State) : Host.Outcome State Fault Refusal :=
  act (fun d => d.cmdWrite src .time 0 TIME.TIME_CMD (trig TIME.REACQUIRE v)) s

/-- `SET` (R322): TIME_CMD.SET loads TIME_SET into device time in FREERUN, as a step. -/
def execTimeSet (src : Source) (v : Word) (s : State) : Host.Outcome State Fault Refusal :=
  act (fun d => d.cmdWrite src .time 0 TIME.TIME_CMD (trig TIME.SET v)) s

/-- `TXTS_POP` (R326): A write to TXTS_POP removes the head entry of the PTP transmit-timestamp FIFO. -/
def execTxtsPop (src : Source) (e : Fin 64) (v : Word) (s : State) : Host.Outcome State Fault Refusal :=
  act (fun d => d.cmdWrite src .eth e ETH.TXTS_POP (trig ETH.POP v)) s

/-- `MCG_START` (R328): A media clock generator starts on the first base-rate edge at or after its ENABLE becomes live and
raises MCG_START. -/
def execMcgStart (n : Fin 4) (s : State) : Host.Outcome State Fault Refusal :=
  act (fun d => d.mcgStart n) s

/-- `FLOW_TABLE_WRITE` (R332): A write to a flow-table entry sets or clears VALID or changes its fields, subject to the
admission checks. -/
def execFlowTableWrite (src : Source) (f : Fin 16384) (k : Fin 16) (v : Word) (full : Bool) (s : State) : Host.Outcome State Fault Refusal :=
  act (fun d => (d.busWrite src (0x600000 + f * 64 + 4 * k) v full .clean).1) s

/-- `PACKET_RECEIVE` (R334): A media engine receives an Ethernet frame and turns it into flow words, opens a gap, or
passes it to the host queue. -/
def execPacketReceive (port : Fin 64) (x : EthFrame) (s : State) : Host.Outcome State Fault Refusal :=
  act (fun d => (d.packetReceive port x).hostqTrim) s

/-- `GAP_TIMEOUT` (R334): SKEW µs after a gap opens without its packet, the gap closes as lost, fill is supplied and
PKT_LOST is raised. -/
def execGapTimeout (f : Fin 16384) (s : State) : Host.Outcome State Fault Refusal :=
  act (fun d => d.gapTimeout f) s

/-- `AUDIO_PACKET_TIMEOUT` (R335): A packet period plus SKEW without a packet makes an audio receive flow emit FAULT words
for its slots. -/
def execAudioPacketTimeout (f : Fin 16384) (s : State) : Host.Outcome State Fault Refusal :=
  act (fun d => d.audioTimeout f) s

/-- `PATH_DOWN` (R336): A path without a packet for 10 packet or 2 frame periods is marked down and raises PATH_DOWN. -/
def execPathDown (f : Fin 16384) (b : Bool) (s : State) : Host.Outcome State Fault Refusal :=
  act (fun d => d.pathDown f b) s

/-- `PACKET_SEND` (R338): At its send time a media engine builds and sends a transmit packet, filling missing or poisoned
words. -/
def execPacketSend (x : TxItem) (s : State) : Host.Outcome State Fault Refusal :=
  act (fun d => d.packetSend x) s

end Sys2Proof.Machine
end

