-- ==== Sys2Proof/Machine/CmdPins.lean ====
section
/-! DEFINITION. The meanings of the commands of pins and peripherals (chapter 14), one definition each. -/

namespace Sys2Proof.Machine

/-- `MASKED_WRITE` (R421): A write to OUT_MW, DIR_MW or PULL_MW changes only the masked pins, all on one pin-control edge. -/
def execMaskedWrite (src : Source) (b : Fin 12) (which : PinMask) (v : Word) (s : State) : Host.Outcome State Fault Refusal :=
  act (fun d => d.cmdWrite src .iob b (PinMask.fld which) v) s

/-- `PIN_LOCK` (R425): A PIN_LOCK write advances the three-key sequence and locks the masked pins on the third. -/
def execPinLock (src : Source) (b : Fin 12) (mask key : BitVec 16) (s : State) : Host.Outcome State Fault Refusal :=
  act (fun d => d.cmdWrite src .iob b IOB.PIN_LOCK (wd (mask.toNat * 65536 + key.toNat))) s

/-- `VIO_LOST` (R414): VIOb falling below 1.6 V makes the bank's pins high impedance and raises VIO_LOST. -/
def execVioLost (b : Fin 12) (mv : BitVec 12) (s : State) : Host.Outcome State Fault Refusal :=
  act (fun d => d.vioLost b mv.toNat) s

/-- `VIO_BACK` (R414): VIOb returning to 1.6 V or above raises VIO_BACK. -/
def execVioBack (b : Fin 12) (mv : BitVec 12) (s : State) : Host.Outcome State Fault Refusal :=
  act (fun d => d.vioBack b mv.toNat) s

/-- `AES3_RX_FRAME` (R431): A locked AES3 receiver turns one received frame into two stamped flow words, counting slips. -/
def execAes3RxFrame (n : Fin 32) (a b : Sample) (va vb pa pb : Bool) (cs : Option (List Word)) (s : State) : Host.Outcome State Fault Refusal :=
  act (fun d => d.aesRxFrame n a.toNat b.toNat va vb pa pb cs) s

/-- `AES_LOCK` (R431): An AES3 receiver locks to its input and raises AES_LOCK. -/
def execAesLock (n : Fin 32) (hz : BitVec 20) (s : State) : Host.Outcome State Fault Refusal :=
  act (fun d => d.aesLock n hz.toNat) s

/-- `AES_UNLOCK` (R431): An AES3 receiver loses lock, sends FAULT words and raises AES_UNLOCK. -/
def execAesUnlock (n : Fin 32) (s : State) : Host.Outcome State Fault Refusal :=
  act (fun d => d.aesUnlock n) s

/-- `AES3_TX_FRAME` (R432): An AES3 transmitter starts the frame for timestamp t at the pin at t. -/
def execAes3TxFrame (n : Fin 32) (s : State) : Host.Outcome State Fault Refusal :=
  act (fun d => d.aesTxFrame n) s

/-- `LTC_SYNC` (R433): An LTC reader latches time address, user bits and device time on each sync word. -/
def execLtcSync (k : Fin 2) (addr ub : Word) (s : State) : Host.Outcome State Fault Refusal :=
  act (fun d => d.ltcSync k addr ub) s

/-- `LTC_LOST` (R433): 200 ms without a valid codeword raises LTC_LOST. -/
def execLtcLost (k : Fin 2) (s : State) : Host.Outcome State Fault Refusal :=
  act (fun d => d.ltcLost k) s

/-- `SER_DATA_WRITE` (R435): A write to SER_DATA pushes a byte into the serial block's transmit FIFO. -/
def execSerDataWrite (src : Source) (c : SerKind) (i : Fin 4) (v : Word) (s : State) : Host.Outcome State Fault Refusal :=
  act (fun d => d.cmdWrite src (SerKind.cls c) i SER.SER_DATA v) s

/-- `SER_DATA_READ` (R435): A read of SER_DATA pops the receive FIFO. -/
def execSerDataRead (src : Source) (c : SerKind) (i : Fin 4) (s : State) : Host.Outcome State Fault Refusal :=
  act (fun d => d.readOut src (pg (SerKind.cls c) i + SER.SER_DATA.off)) s

/-- `LTC_CODEWORD_START` (R433): An enabled LTC generator starts a codeword on a frame start of its media clock generator,
counting on from LTC_SET. -/
def execLtcCodewordStart (k : Fin 2) (s : State) : Host.Outcome State Fault Refusal :=
  act (fun d => d.ltcCodeword k) s

/-- `SER_RX_BYTE` (R435): A UART, SPI or I2C block receives a byte on its pins and places it in its receive FIFO, or in
the attached region's FIFO. -/
def execSerRxByte (c : SerKind) (i : Fin 4) (byte : Byte) (s : State) : Host.Outcome State Fault Refusal :=
  act (fun d => d.serRxByte (SerKind.cls c) i byte.toNat) s

end Sys2Proof.Machine
end

