-- ==== Sys2Proof/Machine/CmdPorts.lean ====
section
/-! DEFINITION. The meanings of the commands of ports, capture, output, rotation (chapters 3 to 6), one definition each. -/

namespace Sys2Proof.Machine

/-- `CM_UPDATE` (R83): Every 1 ms the common-mode monitor of a port updates CM_MV and the EXT_DC estimate. -/
def execCmUpdate (i : Fin 144) (mv : BitVec 13) (s : State) : Host.Outcome State Fault Refusal :=
  act (fun d => d.cmUpdate i mv.toNat) s

/-- `DC_PRESENT_CHANGE` (R83): When the common-mode deviation has been above, or at or below, the threshold for HOLD ms,
DC_PRESENT changes and DC_ON or DC_OFF is raised. -/
def execDcPresentChange (i : Fin 144) (s : State) : Host.Outcome State Fault Refusal :=
  act (fun d => d.dcChange i) s

/-- `SURVEY_GO` (R87): A write of SURVEY_GO starts a source-impedance survey on a STOPPED port in SURVEY mode, or refuses
it while DC_PRESENT is 1. -/
def execSurveyGo (src : Source) (i : Fin 144) (v : Word) (s : State) : Host.Outcome State Fault Refusal :=
  act (fun d => d.cmdWrite src .port i PORT.SURVEY_GO (trig PORT.SURVEY_GO v)) s

/-- `SURVEY_END` (R85): After 120 ms the survey reports R and X, raises SURVEY_END and returns the port to STOPPED. -/
def execSurveyEnd (i : Fin 144) (ohms : Nat) (x : Int) (s : State) : Host.Outcome State Fault Refusal :=
  act (fun d => d.surveyEnd i ohms x) s

/-- `PORT_RECOVER` (R97): When a port's fault cause clears, for example a slice becoming eligible, the port leaves FAULT
and raises PORT_RECOVER. -/
def execPortRecover (i : Fin 144) (temp : Option (BitVec 8)) (s : State) : Host.Outcome State Fault Refusal :=
  act (fun d => d.portRecoverCmd i (temp.map BitVec.toNat)) s

/-- `GROUP_LOCK` (R95): The group's modulator synthesiser locks, aligns modulator cycle 0 to a base-rate edge and lets
waiting ports enter SYNCING. -/
def execGroupLock (g : Fin 16) (s : State) : Host.Outcome State Fault Refusal :=
  act (fun d => d.grpLock g) s

/-- `GROUP_UNLOCK` (R97): The group's synthesiser loses lock; its running ports enter FAULT with cause GROUP_CLOCK and the
die bridge sends FAULT words. -/
def execGroupUnlock (g : Fin 16) (s : State) : Host.Outcome State Fault Refusal :=
  act (fun d => d.grpUnlock g) s

/-- `VAP_DROOP` (R153): The VAP droop detector of a port die becomes active and every output port mutes. -/
def execVapDroop (k : Fin 4) (mv : BitVec 16) (s : State) : Host.Outcome State Fault Refusal :=
  act (fun d => d.vapDroop k mv.toNat) s

/-- `SUPPLY_LOST` (R97): VAP or VAPL of a port die leaves range and its ports enter FAULT with cause SUPPLY. -/
def execSupplyLost (k : Fin 4) (vap vapl : BitVec 16) (s : State) : Host.Outcome State Fault Refusal :=
  act (fun d => d.supplyLost k vap.toNat vapl.toNat) s

/-- `SUPPLY_BACK` (R97): VAP and VAPL of a port die return to range and cause SUPPLY clears. -/
def execSupplyBack (k : Fin 4) (vap vapl : BitVec 16) (s : State) : Host.Outcome State Fault Refusal :=
  act (fun d => d.supplyBack k vap.toNat vapl.toNat) s

/-- `TEMP_WARN` (R104): The port-die temperature reaches WARN and TEMP_WARN is raised. -/
def execTempWarn (k : Fin 4) (t : BitVec 8) (s : State) : Host.Outcome State Fault Refusal :=
  act (fun d => d.tempWarn k t.toNat) s

/-- `TEMP_FAULT` (R104): The port-die temperature reaches 115 °C and every port of the die enters FAULT with cause TEMP. -/
def execTempFault (k : Fin 4) (t : BitVec 8) (s : State) : Host.Outcome State Fault Refusal :=
  act (fun d => d.tempFault k t.toNat) s

/-- `REFIN_LOST` (R324): A reference input loses its signal; PRESENT falls and REFIN_LOST is raised. -/
def execRefinLost (k : Fin 4) (i : Fin 2) (mv : BitVec 16) (s : State) : Host.Outcome State Fault Refusal :=
  act (fun d => d.refinEvent k i mv.toNat false) s

/-- `REFIN_FOUND` (R324): A reference input shows signal of the selected kind; PRESENT rises and REFIN_FOUND is raised. -/
def execRefinFound (k : Fin 4) (i : Fin 2) (mv : BitVec 16) (s : State) : Host.Outcome State Fault Refusal :=
  act (fun d => d.refinEvent k i mv.toNat true) s

/-- `SYNC_RESET` (R122): A port entering SYNCING performs its synchronising reset at the first base-rate edge at or after
entry and records CAP_T0. -/
def execSyncReset (i : Fin 144) (s : State) : Host.Outcome State Fault Refusal :=
  act (fun d => d.syncReset i) s

/-- `WORD_EMIT` (R123): Each output period an input port assembles and sends a sample word tagged FLUSH, COARSE, FINE or
FAULT across its die bridge. -/
def execWordEmit (i : Fin 144) (a : SliceWord) (b : Option SliceWord) (s : State) : Host.Outcome State Fault Refusal :=
  act (fun d => d.wordEmit i a b) s

/-- `THR_FALL` (R128): A detector in ABOVE enters BELOW after HOLD consecutive output periods below the release level and
raises FALL. -/
def execThrFall (i : Fin 144) (k : Fin 2) (s : State) : Host.Outcome State Fault Refusal :=
  act (fun d => d.thrFall i k) s

/-- `FIR_COEF_WRITE` (R111): A write to FIR_COEF lands in the inactive bank, or is refused while a swap is pending or the
page is bound. -/
def execFirCoefWrite (src : Source) (i : Fin 144) (k : Fin 64) (v : Word) (s : State) : Host.Outcome State Fault Refusal :=
  act (fun d => d.cmdWrite src .port i (PORT.FIR_COEF.at k) v) s

/-- `BANK_SWAP` (R112): A change of ACT_BANK requests a swap of the compensation filter bank. -/
def execBankSwap (src : Source) (i : Fin 144) (v : Word) (s : State) : Host.Outcome State Fault Refusal :=
  act (fun d => d.cmdWrite src .port i PORT.CAP_CTL v) s

/-- `SWAP_DONE` (R112): The new bank takes effect on the first word computed entirely with it, updating BANK_IN_USE and
SWAP_TS. -/
def execSwapDone (i : Fin 144) (s : State) : Host.Outcome State Fault Refusal :=
  act (fun d => d.swapDone i) s

/-- `FORCE` (R114): FORCE with a swap pending ends the crossfade and completes the swap on the next computed word. -/
def execSwapForce (src : Source) (i : Fin 144) (v : Word) (s : State) : Host.Outcome State Fault Refusal :=
  act (fun d => d.cmdWrite src .port i PORT.CAP_FIR_CTL (trig PORT.FORCE v)) s

/-- `OUTPUT_FETCH` (R136): For each output timestamp the chain fetches the word at t − LAT_OUT and drives its value, or
zero, at the pins. -/
def execOutputFetch (i : Fin 144) (s : State) : Host.Outcome State Fault Refusal :=
  act (fun d => d.outputFetch i) s

/-- `SPAN_HOLD_START` (R146): At the end of the ramp down of a span or mode change the port holds zero and switches the
element arrays and output stage. -/
def execSpanHoldStart (i : Fin 144) (s : State) : Host.Outcome State Fault Refusal :=
  act (fun d => d.spanHoldStart i) s

/-- `SPAN_HOLD_END` (R146): After H hold samples the port starts the ramp up with the new mode and span. -/
def execSpanHoldEnd (i : Fin 144) (s : State) : Host.Outcome State Fault Refusal :=
  act (fun d => d.spanHoldEnd i) s

/-- `SPAN_DONE` (R146): The last sample of the ramp up reaches full gain and raises SPAN_DONE. -/
def execSpanDone (i : Fin 144) (s : State) : Host.Outcome State Fault Refusal :=
  act (fun d => d.spanDone i) s

/-- `PF_MUTE_RELEASE` (R153): 10 ms after the droop detector is inactive and PFAIL_N is high, the supply-fail mute
releases through an unmute ramp. -/
def execPfMuteRelease (s : State) : Host.Outcome State Fault Refusal :=
  act (fun d => d.pfRelease) s

/-- `DEV_WINDOW` (R156): Each 1 ms window of monitor samples yields the deviation D, raising DEV_WARN or a DEVIATION
output fault. -/
def execDevWindow (i : Fin 144) (xs : List MonSample) (s : State) : Host.Outcome State Fault Refusal :=
  act (fun d => d.devWindow i xs) s

/-- `LOAD_WINDOW` (R158): Each 100 ms window the load estimator reports LOAD_R and LOAD_C and classifies the load. -/
def execLoadWindow (i : Fin 144) (uv na ohms pf : Nat) (hf : Bool) (s : State) : Host.Outcome State Fault Refusal :=
  act (fun d => d.loadWindow i uv na ohms pf hf) s

/-- `ILIMIT_TRIP` (R159): Output current at its 25 mA limit for 16 monitor samples raises an output fault with reason
CURRENT_LIMIT. -/
def execIlimitTrip (i : Fin 144) (s : State) : Host.Outcome State Fault Refusal :=
  act (fun d => d.ilimitTrip i) s

/-- `COMPLIANCE_TRIP` (R159): In CURR, a pin differential of 2.0 V or more for 16 monitor samples raises an output fault
with reason COMPLIANCE. -/
def execComplianceTrip (i : Fin 144) (s : State) : Host.Outcome State Fault Refusal :=
  act (fun d => d.complianceTrip i) s

/-- `LSV_GO` (R160): A write of LSV_GO starts a line survey on a STOPPED output port, or is refused in any other state. -/
def execLsvGo (src : Source) (i : Fin 144) (v : Word) (s : State) : Host.Outcome State Fault Refusal :=
  act (fun d => d.cmdWrite src .port i PORT.LSV_CTL (trig PORT.LSV_GO v)) s

/-- `LSV_END` (R160): After 50 ms the line survey reports capacitance, resistance and length and raises LSV_END. -/
def execLsvEnd (i : Fin 144) (pf kohm z : Nat) (s : State) : Host.Outcome State Fault Refusal :=
  act (fun d => d.lsvEnd i pf kohm z) s

/-- `CAL_STEP_DONE` (R165): A lay-by calibration step completes; the slice passes to the next step, to LAYBY_READY after
step 5, or to SUSPECT on a failed limit. -/
def execCalStepDone (g : Fin 16) (sl : Fin 10) (pass : Bool) (adc dac : Word) (s : State) : Host.Outcome State Fault Refusal :=
  act (fun d => d.calStepDone g sl pass adc dac) s

/-- `REF_CHECK` (R169): Once per second the precision reference is compared with the check bandgap, raising REF_FAULT and
REF_HOLD on a deviation beyond ±500 ppm. -/
def execRefCheck (k : Fin 4) (ppm : Int) (s : State) : Host.Outcome State Fault Refusal :=
  act (fun d => d.refCheck k ppm) s

/-- `REF_OK` (R169): After the deviation has stayed within ±500 ppm for 10 s, the hold clears and REF_OK is raised. -/
def execRefOk (k : Fin 4) (s : State) : Host.Outcome State Fault Refusal :=
  act (fun d => d.refOk k) s

/-- `TONE_CHECK` (R169): The tone generator's own check measures THD, setting TONE_OK or raising TONE_FAULT. -/
def execToneCheck (k : Fin 4) (thd : Nat) (s : State) : Host.Outcome State Fault Refusal :=
  act (fun d => d.toneCheck k thd) s

/-- `ROTATION_DUE` (R170): Every ROT_PERIOD a rotation handover falls due, and the supervisor picks the oldest serving
slice and a LAYBY_READY incoming slice. -/
def execRotationDue (g : Fin 16) (s : State) : Host.Outcome State Fault Refusal :=
  act (fun d => d.rotationDue g) s

/-- `HO_REQ` (R172): HO_REQ.GO starts a rotation handover on the named port at once. -/
def execHoReq (src : Source) (g : Fin 16) (port : Fin 16) (s : State) : Host.Outcome State Fault Refusal :=
  act (fun d => d.cmdWrite src .pgrp g PGRP.HO_REQ (trig PGRP.GO (setField PGRP.HO_REQ_PORT port 0))) s

/-- `FREEZE` (R172): A write of FREEZE = 1 cancels early-phase rotation handovers and stops new ones. -/
def execFreeze (src : Source) (g : Fin 16) (v : Word) (s : State) : Host.Outcome State Fault Refusal :=
  act (fun d => d.cmdWrite src .pgrp g PGRP.ROT_CTL (trig PGRP.FREEZE v)) s

/-- `HO_COMPARE_RESULT` (R176): The slice handover comparison completes; a pass binds the PGRP page to a supervisor slot
at ARM_LEAD, a fail aborts with outcome 1. -/
def execHoCompareResult (g : Fin 16) (words : List (Int × Int)) (s : State) : Host.Outcome State Fault Refusal :=
  act (fun d => d.hoCompare g words) s

/-- `HO_DEFER_BLOCK` (R174): During deferral each further block of 64 compared words is judged and binding is retried. -/
def execHoDeferBlock (g : Fin 16) (words : List (Int × Int)) (s : State) : Host.Outcome State Fault Refusal :=
  act (fun d => d.hoDeferBlock g words) s

/-- `HO_DEFER_TIMEOUT` (R174): A deferral lasting DEFER_MAX ends the handover with outcome 2. -/
def execHoDeferTimeout (g : Fin 16) (s : State) : Host.Outcome State Fault Refusal :=
  act (fun d => d.hoDeferTimeout g) s

/-- `XFADE_END` (R178): The last crossfade word or sample passes; the outgoing slice enters LAYBY_CAL, SUSPECT or RETIRED
and the handover ends. -/
def execXfadeEnd (g : Fin 16) (s : State) : Host.Outcome State Fault Refusal :=
  act (fun d => d.xfadeEnd g) s

/-- `SLICE_FAIL` (R186): A stability, element-current or parity detector trips on a slice, starting a repair handover or
abandoning its handover or calibration. -/
def execSliceFail (g : Fin 16) (sl : Fin 10) (det : SliceDetector) (s : State) : Host.Outcome State Fault Refusal :=
  act (fun d => d.sliceFail g sl det) s

/-- `REPAIR_RESUME` (R187): A repair waiting for a rotation handover's Drain takes the released slice when that Drain
ends. -/
def execRepairResume (g : Fin 16) (s : State) : Host.Outcome State Fault Refusal :=
  act (fun d => d.repairResume g) s

/-- `CAL_STALE` (R191): A serving slice whose AGE exceeds AGE_MAX raises CAL_STALE once. -/
def execCalStale (g : Fin 16) (sl : Fin 10) (s : State) : Host.Outcome State Fault Refusal :=
  act (fun d => d.calStale g sl) s

end Sys2Proof.Machine
end

