-- ==== Sys2Proof/Machine/CmdPower.lean ====
section
/-! DEFINITION. The meanings of the commands of power, clocks and sleep (chapter 17), one definition each. -/

namespace Sys2Proof.Machine

/-- `RAIL_LOST` (R492): A supply rail leaving its range for 2 µs acts as the Loss of a rail table states and raises
RAIL_LOST. -/
def execRailLost (i : Fin 7) (s : State) : Host.Outcome State Fault Refusal :=
  actAlways (fun d => d.railLost i) s

/-- `RAIL_BACK` (R490): A rail inside its range for 1 ms becomes valid and raises RAIL_BACK. -/
def execRailBack (i : Fin 7) (s : State) : Host.Outcome State Fault Refusal :=
  actAlways (fun d => d.railBack i) s

/-- `PFAIL` (R493): PFAIL_N falling mutes outputs, stops new store writes and raises PFAIL. -/
def execPfail (s : State) : Host.Outcome State Fault Refusal :=
  actAlways (fun d => d.pfailStart) s

/-- `PFAIL_END` (R493): PFAIL_N high for 10 ms resumes store writes and raises PFAIL_END. -/
def execPfailEnd (s : State) : Host.Outcome State Fault Refusal :=
  actAlways (fun d => d.pfailEnd) s

/-- `PWR_REQ` (R497): A live PWR_REQ starts the block's power transition, queued behind one already running. -/
def execPwrReq (src : Source) (page : Fin 32768) (st : Fin 4) (v : Word) (s : State) : Host.Outcome State Fault Refusal :=
  act (fun d => d.hdrWrite src page HDR.PAGE_CTL (pwrReqWord st v)) s

/-- `POWER_STATE_REACHED` (R496): A block's power transition completes and PAGE_STAT.PWR_STATE shows the new state. -/
def execPowerStateReached (page : Fin 32768) (s : State) : Host.Outcome State Fault Refusal :=
  act (fun d => d.powerReached (page * 0x1000)) s

/-- `DARK_ENTER` (R500): DARK_CTL.ENTER takes the whole device dark, or is refused while class A flows, loads or store
writes run. -/
def execDarkEnter (src : Source) (v : Word) (s : State) : Host.Outcome State Fault Refusal :=
  act (fun d => d.cmdWrite src .pwr 0 PWR.DARK_CTL (trig PWR.ENTER v)) s

/-- `DARK_WAKE` (R501): A break on MLK_RX, a rising PERST_N or PORST_N wakes a dark device as after a SYS reset. -/
def execDarkWake (k : WakeKind) (s : State) : Host.Outcome State Fault Refusal :=
  actAlways (fun d => d.darkWake k) s

/-- `XIN_LOST` (R503): XIN without edges for 2 µs or out of range puts the core PLLs in holdover and raises XIN_LOST. -/
def execXinLost (khz : BitVec 16) (s : State) : Host.Outcome State Fault Refusal :=
  act (fun d => d.xinLost khz.toNat) s

/-- `XIN_BACK` (R503): XIN present for 10 ms returns the PLLs to it by slew and raises XIN_BACK. -/
def execXinBack (khz : BitVec 16) (s : State) : Host.Outcome State Fault Refusal :=
  act (fun d => d.xinBack khz.toNat) s

/-- `PLL_FAILOVER` (R505): The active core PLL of a pair fails and the pair switches to its standby, raising PLL_FAILOVER. -/
def execPllFailover (k : Fin 4) (s : State) : Host.Outcome State Fault Refusal :=
  act (fun d => d.pllFailover k) s

/-- `PLL_COLD_RELOCK` (R506): In COLD mode the standby PLL locks after a fault and the fed domains restart. -/
def execPllColdRelock (k : Fin 4) (s : State) : Host.Outcome State Fault Refusal :=
  act (fun d => d.pllRelock k) s

/-- `PLL_RETRY` (R507): Every 10 s the device retries a failed PLL, retiring it on its third failure. -/
def execPllRetry (k : Fin 4) (ok : Bool) (s : State) : Host.Outcome State Fault Refusal :=
  act (fun d => d.pllRetry k ok) s

/-- `PLL_RESTORED` (R507): A PLL locked and fault-free for 60 s becomes the standby again and raises PLL_RESTORED. -/
def execPllRestored (k : Fin 4) (s : State) : Host.Outcome State Fault Refusal :=
  act (fun d => d.pllRestored k) s

/-- `PLANNED_PLL_SWITCH` (R508): A write to PAIR_CFG.ACTIVE naming the standby makes a planned switch. -/
def execPlannedPllSwitch (src : Source) (k : Fin 4) (v : Word) (s : State) : Host.Outcome State Fault Refusal :=
  act (fun d => d.cmdWrite src .clk 0 (CLK.PAIR_CFG.at k) v) s

/-- `THERM_SAMPLE` (R512): Every 1 ms the core-die sensors report and THERM_WARN, THERM_FAULT or THERM_OK is raised on
crossings. -/
def execThermSample (ts : List (BitVec 8)) (s : State) : Host.Outcome State Fault Refusal :=
  actAlways (fun d => (d.thermSample (ts.map BitVec.toNat)).tripRelease (ts.map BitVec.toNat)) s

/-- `THERMAL_TRIP` (R512): A sensor at 125 °C holds the core in SYS reset until every sensor reads below 105 °C. -/
def execThermalTrip (s : State) : Host.Outcome State Fault Refusal :=
  actAlways (fun d => d.thermalTrip) s

end Sys2Proof.Machine
end

