-- ==== Sys2Proof/Machine/CmdRegs.lean ====
section
/-! DEFINITION. The meanings of the commands of registers, resets and milestones (chapters 1 and 2), one definition each. -/

namespace Sys2Proof.Machine

/-- `REGISTER_WRITE` (R21): A write to a register that has no row of its own: the shared checks (width, owner, lock,
critical, power, bound, value) run and the live field takes the value at the next edge of its domain. -/
def execRegisterWrite (x : RegTarget) (s : State) : Host.Outcome State Fault Refusal :=
  act (fun d => d.targetWrite x) s

/-- `STAGED_WRITE` (R18): A write to a staged offset is accepted when the page is unbound or bound in STAGING, and sets
the matching STAGE_DIRTY bit; otherwise it is refused with cause BOUND. -/
def execStagedWrite (src : Source) (page : Fin 32768) (k : Fin 512) (v : Word) (full : Bool) (s : State) : Host.Outcome State Fault Refusal :=
  act (fun d => (d.busWrite src (page * 0x1000 + 0x800 + 4 * k) v full .clean).1) s

/-- `BLK_RST` (R26): A write of 1 to PAGE_CTL.BLK_RST resets both halves of the page to reset values, except where the
page's chapter states otherwise. -/
def execBlkRst (src : Source) (page : Fin 32768) (v : Word) (s : State) : Host.Outcome State Fault Refusal :=
  act (fun d => d.hdrWrite src page HDR.BLK_RST (trig HDR.BLK_RST v)) s

/-- `EVT_FORCE` (R29): A 1 written to an EVT_FORCE bit raises that event as if it had occurred, with the forced marker in
word 7 bit 31. -/
def execEvtForce (src : Source) (page : Fin 32768) (v : Word) (s : State) : Host.Outcome State Fault Refusal :=
  act (fun d => d.hdrWrite src page HDR.EVT_FORCE v) s

/-- `SNAP` (R38): SNAP latches every counter on the page into the writing source's snapshot in one cycle. -/
def execSnap (src : Source) (page : Fin 32768) (s : State) : Host.Outcome State Fault Refusal :=
  act (fun d => d.hdrWrite src page HDR.SNAP_CTL 1) s

/-- `SNAP_CLR` (R39): SNAP_CLR latches the snapshot and clears every statistics counter and CEIL flag on the page in the
same cycle. -/
def execSnapClr (src : Source) (page : Fin 32768) (v : Word) (s : State) : Host.Outcome State Fault Refusal :=
  act (fun d => d.hdrWrite src page HDR.SNAP_CTL (trig HDR.SNAP_CLR v)) s

/-- `PAGE_LOCK` (R34): A PAGE_LOCK.KEY write advances the three-write lock sequence and locks the page on the third
correct key. -/
def execPageLock (src : Source) (page : Fin 32768) (key : BitVec 16) (s : State) : Host.Outcome State Fault Refusal :=
  act (fun d => d.hdrWrite src page HDR.PAGE_LOCK (setField HDR.KEY key.toNat 0)) s

/-- `PORST_N` (R40): Assertion of PORST_N clears every state that the PORST_N column of the Reset scopes table marks. -/
def execPorstN (s : State) : Host.Outcome State Fault Refusal :=
  actAlways (fun d => d.porst 0) s

/-- `PERST_N` (R444): PERST_N resets the host-facing state at scope 0, or also performs a SYS reset at HOST_RESET_SCOPE 1. -/
def execPerstN (s : State) : Host.Outcome State Fault Refusal :=
  act (fun d => d.perst) s

/-- `FLR` (R444): A function-level reset resets the host-facing state as PERST_N does, under HOST_RESET_SCOPE. -/
def execFlr (s : State) : Host.Outcome State Fault Refusal :=
  act (fun d => d.flr) s

/-- `OPEN` (R45): OPEN takes an IDLE or terminal slot to STAGING with an empty scope. -/
def execMsOpen (src : Source) (m : Fin 16) (s : State) : Host.Outcome State Fault Refusal :=
  act (fun d => d.cmdWrite src .mst 0 (MST.MS_CMD.at m) 1) s

/-- `CHECK` (R45): CHECK resolves the slot's instant and puts the slot in CHECKING in the check queue. -/
def execMsCheck (src : Source) (m : Fin 16) (s : State) : Host.Outcome State Fault Refusal :=
  act (fun d => d.cmdWrite src .mst 0 (MST.MS_CMD.at m) 2) s

/-- `TRY` (R555): TRY queues a check of a STAGING slot without arming it and reports the result in TRY_RES. -/
def execMsTry (src : Source) (m : Fin 16) (s : State) : Host.Outcome State Fault Refusal :=
  act (fun d => d.cmdWrite src .mst 0 (MST.MS_CMD.at m) 3) s

/-- `FIRE` (R45): FIRE applies an ARMED MANUAL slot at the device time of its acceptance. -/
def execMsFire (src : Source) (m : Fin 16) (s : State) : Host.Outcome State Fault Refusal :=
  act (fun d => d.cmdWrite src .mst 0 (MST.MS_CMD.at m) 4) s

/-- `CANCEL` (R45): CANCEL returns a STAGING, CHECKING or ARMED slot to IDLE with nothing applied. -/
def execMsCancel (src : Source) (m : Fin 16) (s : State) : Host.Outcome State Fault Refusal :=
  act (fun d => d.cmdWrite src .mst 0 (MST.MS_CMD.at m) 5) s

/-- `RELEASE` (R45): RELEASE returns a slot in a terminal state to IDLE. -/
def execMsRelease (src : Source) (m : Fin 16) (s : State) : Host.Outcome State Fault Refusal :=
  act (fun d => d.cmdWrite src .mst 0 (MST.MS_CMD.at m) 6) s

/-- `MS_BIND` (R48): A bind request binds all the named pages to a STAGING slot, or none of them. -/
def execMsBind (src : Source) (m : Fin 16) (page : Fin 32768) (more : Fin 256) (s : State) : Host.Outcome State Fault Refusal :=
  act (fun d => d.cmdWrite src .mst 0 MST.MS_BIND_REQ (bindReqWord false m page more)) s

/-- `MS_UNBIND` (R48): An unbind request removes pages from the scope of a STAGING slot. -/
def execMsUnbind (src : Source) (m : Fin 16) (page : Fin 32768) (more : Fin 256) (s : State) : Host.Outcome State Fault Refusal :=
  act (fun d => d.cmdWrite src .mst 0 MST.MS_BIND_REQ (bindReqWord true m page more)) s

/-- `CHECK_START` (R56): The checker starts the next queued check or try once the running check has ended. -/
def execCheckStart (s : State) : Host.Outcome State Fault Refusal :=
  act (fun d => d.checkStart) s

/-- `CHECK_END` (R57): A check completes, re-runs later ARMED slots, and takes the slot to ARMED, APPLIED or REFUSED,
updating CHECK_RES on each page in scope. -/
def execCheckEnd (dt : Nat) (s : State) : Host.Outcome State Fault Refusal :=
  act (fun d => d.checkEnd dt) s

/-- `MILESTONE_APPLY` (R62): When device time reaches the instant of an ARMED slot, each staged register becomes live at
the first edge of its clock domain at or after the instant. -/
def execMilestoneApply (m : Fin 16) (s : State) : Host.Outcome State Fault Refusal :=
  act (fun d => d.milestoneApply m) s

/-- `SLOT_EXPIRED` (R45): Device time reaching the instant of a CHECKING slot before its check ends takes the slot to
EXPIRED with nothing applied. -/
def execSlotExpired (m : Fin 16) (s : State) : Host.Outcome State Fault Refusal :=
  act (fun d => d.slotExpired m) s

end Sys2Proof.Machine
end

