-- ==== Sys2Proof/Machine/CmdSecurity.lean ====
section
/-! DEFINITION. The meanings of the commands of security (chapter 16), one definition each. -/

namespace Sys2Proof.Machine

/-- `WRITE_CRIT` (R479): WRITE_CRIT writes a masked value to critical fields after the envelope tests of R477. -/
def execWriteCrit (x : Carrier) (s : State) : Host.Outcome State Fault Refusal :=
  act (fun d => d.critCmd 0x01 x true) s

/-- `LOCK_OVERRIDE` (R479): LOCK_OVERRIDE clears a page lock and, on an IOB page, the locks of masked pins. -/
def execLockOverride (x : Carrier) (s : State) : Host.Outcome State Fault Refusal :=
  act (fun d => d.critCmd 0x02 x true) s

/-- `KEY_LOAD` (R480): KEY_LOAD unwraps a key and loads it into the battery domain. -/
def execKeyLoad (x : Carrier) (s : State) : Host.Outcome State Fault Refusal :=
  act (fun d => d.critCmd 0x10 x true) s

/-- `KEY_LOAD_SIGNED` (R481): KEY_LOAD_SIGNED loads a key under an owner signature, clearing LATCHED. -/
def execKeyLoadSigned (x : Carrier) (s : State) : Host.Outcome State Fault Refusal :=
  act (fun d => d.critCmd 0x11 x true) s

/-- `KEY_ERASE` (R479): KEY_ERASE erases KCMD or KIMG_B. -/
def execKeyErase (x : Carrier) (s : State) : Host.Outcome State Fault Refusal :=
  act (fun d => d.critCmd 0x12 x true) s

/-- `FUSE_PROG` (R479): FUSE_PROG programs one fuse field, raising FUSE_DONE or FUSE_FAIL. -/
def execFuseProg (x : Carrier) (ok : Bool) (s : State) : Host.Outcome State Fault Refusal :=
  act (fun d => d.critCmd 0x20 x ok) s

/-- `SLOT_WRITE` (R410): SLOT_WRITE starts copying an image from the host or slave buffer into a store slot. -/
def execSlotWrite (x : Carrier) (s : State) : Host.Outcome State Fault Refusal :=
  act (fun d => d.critCmd 0x30 x true) s

/-- `SLOT_ERASE` (R479): SLOT_ERASE sets a store slot EMPTY. -/
def execSlotErase (x : Carrier) (s : State) : Host.Outcome State Fault Refusal :=
  act (fun d => d.critCmd 0x31 x true) s

/-- `BANK_WRITE` (R479): BANK_WRITE writes and verifies a firmware bank from the slave buffer. -/
def execBankWrite (x : Carrier) (s : State) : Host.Outcome State Fault Refusal :=
  act (fun d => d.critCmd 0x32 x true) s

/-- `CAL_OVERWRITE` (R479): CAL_OVERWRITE reinstates a slice at once or clears a tile column's retirement record. -/
def execCalOverwrite (x : Carrier) (s : State) : Host.Outcome State Fault Refusal :=
  act (fun d => d.critCmd 0x40 x true) s

/-- `KEEPER_RELOAD` (R479): KEEPER_RELOAD starts the loader on a keeper-bearing image. -/
def execKeeperReload (x : Carrier) (s : State) : Host.Outcome State Fault Refusal :=
  act (fun d => d.critCmd 0x50 x true) s

/-- `DEBUG_UNLOCK` (R488): DEBUG_UNLOCK carrying the present challenge unlocks JTAG and raises DEBUG_UNLOCKED. -/
def execDebugUnlock (x : Carrier) (s : State) : Host.Outcome State Fault Refusal :=
  act (fun d => d.critCmd 0x60 x true) s

/-- `TAMPER_TRIP` (R485): A tamper input holding its trip level for 10 µs erases KIMG_B and KCMD, latches the trip, and
with ACT = 1 zeroes frame memory and resets. -/
def execTamperTrip (i : Fin 2) (level : Bool) (s : State) : Host.Outcome State Fault Refusal :=
  actAlways (fun d => d.tamperTrip i level) s

/-- `ATTESTATION_REPORT` (R474): ATT_CTL.GO with MODE 0 starts building a signed attestation report in frame memory. -/
def execAttestationReport (src : Source) (v : Word) (s : State) : Host.Outcome State Fault Refusal :=
  act (fun d => d.cmdWrite src .sec 0 SEC.ATT_CTL (trig SEC.GO (setField SEC.MODE 0 v))) s

/-- `CERTIFICATE_COPY` (R474): ATT_CTL.GO with MODE 1 copies the vendor certificate to frame memory. -/
def execCertificateCopy (src : Source) (v : Word) (s : State) : Host.Outcome State Fault Refusal :=
  act (fun d => d.cmdWrite src .sec 0 SEC.ATT_CTL (trig SEC.GO (trig SEC.MODE v))) s

/-- `ATT_DONE` (R474): An attestation report or certificate copy completes and raises ATT_DONE. -/
def execAttDone (s : State) : Host.Outcome State Fault Refusal :=
  act (fun d => d.attDone) s

/-- `NEW_CHAL` (R488): NEW_CHAL renews the debug challenge. -/
def execNewChal (src : Source) (v : Word) (s : State) : Host.Outcome State Fault Refusal :=
  act (fun d => d.cmdWrite src .sec 0 SEC.DBG_CTL (trig SEC.NEW_CHAL v)) s

/-- `RELOCK` (R488): RELOCK locks the JTAG port again. -/
def execRelock (src : Source) (v : Word) (s : State) : Host.Outcome State Fault Refusal :=
  act (fun d => d.cmdWrite src .sec 0 SEC.DBG_CTL (trig SEC.RELOCK v)) s

/-- `CHAL_RD` (R488): The JTAG instruction CHAL_RD reads the present challenge. -/
def execChalRd (s : State) : Host.Outcome State Fault Refusal :=
  act (fun d => d.chalRd) s

/-- `UNLOCK` (R488): The JTAG instruction UNLOCK shifts in an owner signature over the challenge and serial and unlocks
JTAG. -/
def execJtagUnlock (blk : List Byte) (s : State) : Host.Outcome State Fault Refusal :=
  act (fun d => d.jtagUnlockSig (blk.map BitVec.toNat)) s

/-- `BOOT_VERIFY` (R468): Boot ROM verifies the firmware banks and starts the supervisor, or enters recovery. -/
def execBootVerify (s : State) : Host.Outcome State Fault Refusal :=
  act (fun d => d.bootVerify) s

/-- `BANK_WRITE_DONE` (R484): A firmware bank write from the slave buffer finishes its copy and verification some time
after BANK_WRITE returned OK, reporting completion and, in recovery, restarting the device as a SYS reset. -/
def execBankWriteDone (s : State) : Host.Outcome State Fault Refusal :=
  act (fun d => d.bankWriteDone) s

/-- `JTAG_INSTRUCTION` (R487): An IEEE 1149.1 instruction loads at the JTAG port; on an owned, locked device every
instruction but IDCODE, BYPASS and SAMPLE/PRELOAD loads as BYPASS, and an active EXTEST or INTEST takes the pins at
the boundary-scan level. -/
def execJtagInstruction (i : Fin 6) (s : State) : Host.Outcome State Fault Refusal :=
  act (fun d => d.jtagLoad i) s

end Sys2Proof.Machine
end

