-- ==== Sys2Proof/Machine/CmdService.lean ====
section
/-! DEFINITION. The meanings of the commands of service and repair (chapter 19), one definition each. -/

namespace Sys2Proof.Machine

/-- `FW_CHG` (R545): FW_CHG.GO starts a firmware changeover to the bank not running. -/
def execFwChg (src : Source) (v : Word) (s : State) : Host.Outcome State Fault Refusal :=
  act (fun d => d.cmdWrite src .srv 0 SRV.FW_CHG (trig SRV.GO v)) s

/-- `FW_ABORT` (R546): FW_CHG.ABORT ends a changeover before Switch with outcome 5. -/
def execFwAbort (src : Source) (v : Word) (s : State) : Host.Outcome State Fault Refusal :=
  act (fun d => d.cmdWrite src .srv 0 SRV.FW_CHG (trig SRV.ABORT v)) s

/-- `FW_PREPARE_DONE` (R545): The new bank is verified and loaded into the idle unit and its shadow overlap starts, or the
changeover ends with outcome 4. -/
def execFwPrepareDone (s : State) : Host.Outcome State Fault Refusal :=
  act (fun d => d.fwPrepared) s

/-- `FW_COMPARE_DONE` (R545): At the end of the overlap the servo updates of both units are compared; a pass arms the
switch, a fail ends with outcome 1. -/
def execFwCompareDone (diff : Nat) (s : State) : Host.Outcome State Fault Refusal :=
  act (fun d => d.fwCompare diff) s

/-- `FW_ARM_TIMEOUT` (R545): Waiting more than 10 s to arm, or to leave ACQUIRE, ends the changeover with outcome 2. -/
def execFwArmTimeout (s : State) : Host.Outcome State Fault Refusal :=
  act (fun d => d.fwTimeout) s

/-- `FW_DRAIN_END` (R545): The old unit finishes its jobs and halts, FW_VER changes and FW_HO is raised. -/
def execFwDrainEnd (s : State) : Host.Outcome State Fault Refusal :=
  act (fun d => d.fwDrainEnd) s

/-- `AGE_MEASURE` (R550): Every 10 s the ageing oscillators are measured and AGE_WARN is raised once when SHIFT_WARN is
reached. -/
def execAgeMeasure (ss : List (BitVec 16)) (s : State) : Host.Outcome State Fault Refusal :=
  act (fun d => d.ageMeasure (ss.map BitVec.toNat)) s

/-- `HOURS_UPDATE` (R550): Every hour HOURS and EQ_HOURS are updated and LIFE_WARN is raised once at LIFE_HOURS. -/
def execHoursUpdate (s : State) : Host.Outcome State Fault Refusal :=
  act (fun d => d.hoursUpdate) s

end Sys2Proof.Machine
end

