-- ==== Sys2Proof/Machine/CmdTiles.lean ====
section
/-! DEFINITION. The meanings of the commands of tile instructions, columns and segment moves (chapters 7 and 8), one definition each. -/

namespace Sys2Proof.Machine

/-- `MAC_NONE` (R238): A MAC instruction with AOP NONE forms no product and may write back and side-move. -/
def execMacNone (t : Fin 4096) (ecc : MacEcc) (s : State) : Host.Outcome State Fault Refusal :=
  actTile (fun d => d.macExec t 0 ecc) s

/-- `LD` (R238): LD loads the accumulator with the product and clears EXC. -/
def execMacLd (t : Fin 4096) (ecc : MacEcc) (s : State) : Host.Outcome State Fault Refusal :=
  actTile (fun d => d.macExec t 1 ecc) s

/-- `ADD` (R238): ADD adds the product to the accumulator. -/
def execMacAdd (t : Fin 4096) (ecc : MacEcc) (s : State) : Host.Outcome State Fault Refusal :=
  actTile (fun d => d.macExec t 2 ecc) s

/-- `SUB` (R238): SUB subtracts the product from the accumulator. -/
def execMacSub (t : Fin 4096) (ecc : MacEcc) (s : State) : Host.Outcome State Fault Refusal :=
  actTile (fun d => d.macExec t 3 ecc) s

/-- `LDC` (R238): LDC loads the accumulator with the cascade input plus the product. -/
def execMacLdc (t : Fin 4096) (ecc : MacEcc) (s : State) : Host.Outcome State Fault Refusal :=
  actTile (fun d => d.macExec t 4 ecc) s

/-- `ADDC` (R238): ADDC adds the cascade input and the product to the accumulator. -/
def execMacAddc (t : Fin 4096) (ecc : MacEcc) (s : State) : Host.Outcome State Fault Refusal :=
  actTile (fun d => d.macExec t 5 ecc) s

/-- `SUBC` (R238): SUBC adds the cascade input minus the product to the accumulator. -/
def execMacSubc (t : Fin 4096) (ecc : MacEcc) (s : State) : Host.Outcome State Fault Refusal :=
  actTile (fun d => d.macExec t 6 ecc) s

/-- `LDR` (R238): LDR loads the rounding preload 2^(SHIFT−1) plus the product. -/
def execMacLdr (t : Fin 4096) (ecc : MacEcc) (s : State) : Host.Outcome State Fault Refusal :=
  actTile (fun d => d.macExec t 7 ecc) s

/-- `MOVE_NOP` (R241): The MOVE NOP does nothing. -/
def execMoveNop (t : Fin 4096) (s : State) : Host.Outcome State Fault Refusal :=
  actTile (fun d => d.moveExec t 0 (fun _ u => u)) s

/-- `LDT` (R241): LDT loads a T register with IMM32. -/
def execMoveLdt (t : Fin 4096) (s : State) : Host.Outcome State Fault Refusal :=
  actTile (fun d => d.moveExec t 1 tileLdt) s

/-- `MOVT` (R241): MOVT copies one T register to another. -/
def execMoveMovt (t : Fin 4096) (s : State) : Host.Outcome State Fault Refusal :=
  actTile (fun d => d.moveExec t 2 tileMovt) s

/-- `ADDT` (R241): ADDT adds IMM32 to a T register modulo 2^32. -/
def execMoveAddt (t : Fin 4096) (s : State) : Host.Outcome State Fault Refusal :=
  actTile (fun d => d.moveExec t 3 tileAddt) s

/-- `CLRA` (R241): CLRA clears ACC, ACCX and EXC. -/
def execMoveClra (t : Fin 4096) (s : State) : Host.Outcome State Fault Refusal :=
  actTile (fun d => d.moveExec t 4 tileClra) s

/-- `LDA` (R241): LDA loads the 72-bit accumulator from a shifted T register and clears EXC. -/
def execMoveLda (t : Fin 4096) (s : State) : Host.Outcome State Fault Refusal :=
  actTile (fun d => d.moveExec t 5 tileLda) s

/-- `SETOFF` (R241): SETOFF sets a pointer's OFF. -/
def execMoveSetoff (t : Fin 4096) (s : State) : Host.Outcome State Fault Refusal :=
  actTile (fun d => d.moveExec t 6 tileSetoff) s

/-- `GETOFF` (R241): GETOFF copies a pointer's OFF to a T register. -/
def execMoveGetoff (t : Fin 4096) (s : State) : Host.Outcome State Fault Refusal :=
  actTile (fun d => d.moveExec t 7 tileGetoff) s

/-- `SETTAG` (R241): SETTAG sets TAGACC. -/
def execMoveSettag (t : Fin 4096) (s : State) : Host.Outcome State Fault Refusal :=
  actTile (fun d => d.moveExec t 8 tileSettag) s

/-- `CONTROL_NOP` (R242): The CONTROL NOP does nothing. -/
def execCtlNop (t : Fin 4096) (s : State) : Host.Outcome State Fault Refusal :=
  actTile (fun d => d.ctlExec t 0 ctlNop) s

/-- `LOOP0` (R245): LOOP0 starts loop 0 with its count, start and end. -/
def execLoop0 (t : Fin 4096) (s : State) : Host.Outcome State Fault Refusal :=
  actTile (fun d => d.ctlExec t 1 (ctlLoop 0)) s

/-- `LOOP1` (R245): LOOP1 starts loop 1 with its count, start and end. -/
def execLoop1 (t : Fin 4096) (s : State) : Host.Outcome State Fault Refusal :=
  actTile (fun d => d.ctlExec t 2 (ctlLoop 1)) s

/-- `BR` (R242): BR branches to ADDR when its condition holds. -/
def execBr (t : Fin 4096) (s : State) : Host.Outcome State Fault Refusal :=
  actTile (fun d => d.ctlExec t 3 ctlBr) s

/-- `WAIT` (R242): WAIT stalls the tile until its condition holds. -/
def execWait (t : Fin 4096) (s : State) : Host.Outcome State Fault Refusal :=
  actTile (fun d => d.ctlExec t 4 ctlWait) s

/-- `HALT` (R246): HALT stops the tile; when all 16 tiles have halted the column enters HALTED, clears live RUN and raises
SEG_HALTED. -/
def execHalt (t : Fin 4096) (s : State) : Host.Outcome State Fault Refusal :=
  actTile (fun d => d.ctlExec t 5 ctlHalt) s

/-- `BMERGE` (R206): BMERGE stalls a masked row until every masked row has issued it. -/
def execBmerge (t : Fin 4096) (s : State) : Host.Outcome State Fault Refusal :=
  actTile (fun d => d.ctlExec t 6 ctlBmerge) s

/-- `BMERGE_RESUME` (R206): Two cycles after the last masked row issues BMERGE, the column sets CBEXP, BSH and CBSH and
all masked tiles resume. -/
def execBmergeResume (r : Fin 16) (c : Fin 16) (s : State) : Host.Outcome State Fault Refusal :=
  actTile (fun d => d.mergeResume r c) s

/-- `EMARK` (R252): EMARK writes a marker word carrying CBSH to an output port. -/
def execEmark (t : Fin 4096) (s : State) : Host.Outcome State Fault Refusal :=
  actTile (fun d => d.ctlExec t 7 ctlEmark) s

/-- `SETLEN` (R242): SETLEN requests a new LEN for a leader pointer. -/
def execSetlen (t : Fin 4096) (s : State) : Host.Outcome State Fault Refusal :=
  actTile (fun d => d.ctlExec t 8 ctlSetlen) s

/-- `CPOST` (R253): CPOST stalls the tile until its right neighbour has read the cascade. -/
def execCpost (t : Fin 4096) (s : State) : Host.Outcome State Fault Refusal :=
  actTile (fun d => d.ctlExec t 9 ctlCpost) s

/-- `PROGRAM_ERROR` (R248): An instruction with a reserved or illegal encoding stops the column, sets PERR and raises
PROG_ERR. -/
def execProgramError (t : Fin 4096) (s : State) : Host.Outcome State Fault Refusal :=
  actTile (fun d => d.programError t) s

/-- `STREAM_WORD_ARRIVE` (R224): A stream word arrives at a tile input port, waking a dozing region and releasing a
stalled read. -/
def execStreamWordArrive (t : Fin 4096) (port : Fin 2) (ch : Fin 64) (ts : Nat) (w : Word) (marker poison : Bool) (s : State) : Host.Outcome State Fault Refusal :=
  act (fun d => d.streamWord t port (d.arriving t port ch ts w marker poison)) s

/-- `ROW_WALK` (R218): A tile memory's row walker reads and corrects one row, stalling the tile after 4,096 busy cycles. -/
def execRowWalk (t : PhysTile) (mem : TileMem) (e : EccEvent) (s : State) : Host.Outcome State Fault Refusal :=
  act (fun d => d.rowWalk t.reg t.col t.row mem e) s

/-- `AUTODOZE_ENTRY` (R224): After 8 cycles with every tile halted or stalled on an empty input, the region's tile clock
stops. -/
def execAutodozeEntry (r : Fin 16) (s : State) : Host.Outcome State Fault Refusal :=
  act (fun d => d.autodoze r) s

/-- `TILE_FAIL` (R221): A tile failure detector trips; the logical column stops, its physical column is retired and
COL_FAIL is raised. -/
def execTileFail (t : Fin 4096) (det : TileDetector) (s : State) : Host.Outcome State Fault Refusal :=
  act (fun d => d.tileFail t det) s

/-- `LEN_CHG` (R231): A LEN_CHG entry whose first word becomes live with VALID = 1 makes a length request and clears VALID
in both halves. -/
def execLenChg (src : Source) (r : Fin 16) (k : Fin 16) (v : Word) (s : State) : Host.Outcome State Fault Refusal :=
  act (fun d => d.cmdWrite src .treg r (TREG.LEN_CHG.at k) (trig TREG.VALID v)) s

/-- `LEN_REQUEST_ACT` (R211): A tile acts on a length request at its first instruction boundary, shrinking, changing or
pending a growth, or raising DESC_ERR. -/
def execLenRequestAct (t : Fin 4096) (s : State) : Host.Outcome State Fault Refusal :=
  actTile (fun d => d.lenRequestAct t) s

/-- `TILE_WINDOW_WRITE` (R229): A write through a tile window is accepted or refused depending on the column's state,
recording TW_REFUSE on refusal. -/
def execTileWindowWrite (src : Source) (t : Fin 4096) (k : Fin 4096) (v : Word) (full : Bool) (e : EccEvent) (s : State) : Host.Outcome State Fault Refusal :=
  act (fun d => (d.busWrite src (0x4000000 + t * 0x4000 + 4 * k) v full e).1) s

/-- `COLUMN_RUN` (R230): COL_CTL.RUN becoming 1 starts a HALTED column at ENTRY; becoming 0 halts it at its next
instruction boundary. -/
def execColumnRun (src : Source) (r : Fin 16) (c : Fin 16) (v : Word) (s : State) : Host.Outcome State Fault Refusal :=
  act (fun d => d.cmdWrite src .treg r (TREG.COL_CTL.at c) v) s

/-- `MOVE_GO` (R256): MOVE_CTL.GO requests a segment move or replacement and starts its Prepare, or is refused or
deferred. -/
def execMoveGo (src : Source) (r : Fin 16) (v : Word) (s : State) : Host.Outcome State Fault Refusal :=
  act (fun d => d.cmdWrite src .treg r TREG.MOVE_CTL (trig TREG.GO v)) s

/-- `MOVE_ABORT` (R263): MOVE_CTL.ABORT ends a move before Switch with outcome 5. -/
def execMoveAbort (src : Source) (r : Fin 16) (v : Word) (s : State) : Host.Outcome State Fault Refusal :=
  act (fun d => d.cmdWrite src .treg r TREG.MOVE_CTL (trig TREG.ABORT v)) s

/-- `MOVE_COMPARE_DONE` (R258): Each enabled output port has compared COMPARE words; a pass arms the instant, a mismatch
ends the move with outcome 1. It comes `dt` ns after the command before it (log 164). -/
def execMoveCompareDone (r : Fin 16) (dt : Nat) (s : State) : Host.Outcome State Fault Refusal :=
  act (fun d => (d.pass dt).moveCompare r) s

/-- `MOVE_PORT_SILENT` (R258): A port emitting no word for 100 ms during comparison ends the move with outcome 2. -/
def execMovePortSilent (r : Fin 16) (s : State) : Host.Outcome State Fault Refusal :=
  act (fun d => d.moveSilent r) s

/-- `MOVE_BIND_TIMEOUT` (R259): After 10 s without binding the TREG pages, the move ends with outcome 2. -/
def execMoveBindTimeout (r : Fin 16) (s : State) : Host.Outcome State Fault Refusal :=
  act (fun d => d.moveTimeout r) s

/-- `MOVE_DRAIN_END` (R262): The source finishes its earlier words and halts, the destination runs, and SEG_HO is raised. -/
def execMoveDrainEnd (r : Fin 16) (s : State) : Host.Outcome State Fault Refusal :=
  act (fun d => d.moveDrainEnd r) s

/-- `REPAIR_PREPARE_DONE` (R264): The column copy to the spare column completes and the repair instant is set LEAD µs
later. It comes `dt` ns after the command before it (log 164). -/
def execRepairPrepareDone (r : Fin 16) (c : Fin 16) (rows : List ColRow) (dt : Nat) (s : State) : Host.Outcome State Fault Refusal :=
  act (fun d => (d.pass dt).repairPrepared r c (rows.map ColRow.tuple)) s

end Sys2Proof.Machine
end

