-- ==== Sys2Proof/Machine/Dispatch.lean ====
section
/-! DEFINITION. The dispatch: one arm per command, each one direct call of its meaning. -/

namespace Sys2Proof.Machine

def exec (i : Instr) (s : State) : Host.Outcome State Fault Refusal :=
  match i with
  | .registerWrite x => Sys2Proof.Machine.execRegisterWrite x s
  | .stagedWrite src page k v full => Sys2Proof.Machine.execStagedWrite src page k v full s
  | .blkRst src page v => Sys2Proof.Machine.execBlkRst src page v s
  | .evtForce src page v => Sys2Proof.Machine.execEvtForce src page v s
  | .snap src page => Sys2Proof.Machine.execSnap src page s
  | .snapClr src page v => Sys2Proof.Machine.execSnapClr src page v s
  | .pageLock src page key => Sys2Proof.Machine.execPageLock src page key s
  | .msOpen src m => Sys2Proof.Machine.execMsOpen src m s
  | .msCheck src m => Sys2Proof.Machine.execMsCheck src m s
  | .msTry src m => Sys2Proof.Machine.execMsTry src m s
  | .msFire src m => Sys2Proof.Machine.execMsFire src m s
  | .msCancel src m => Sys2Proof.Machine.execMsCancel src m s
  | .msRelease src m => Sys2Proof.Machine.execMsRelease src m s
  | .msBind src m page more => Sys2Proof.Machine.execMsBind src m page more s
  | .msUnbind src m page more => Sys2Proof.Machine.execMsUnbind src m page more s
  | .checkEnd dt => Sys2Proof.Machine.execCheckEnd dt s
  | .milestoneApply m => Sys2Proof.Machine.execMilestoneApply m s
  | .slotExpired m => Sys2Proof.Machine.execSlotExpired m s
  | .cmUpdate idx mv => Sys2Proof.Machine.execCmUpdate idx mv s
  | .dcPresentChange idx => Sys2Proof.Machine.execDcPresentChange idx s
  | .surveyGo src idx v => Sys2Proof.Machine.execSurveyGo src idx v s
  | .surveyEnd idx ohms x => Sys2Proof.Machine.execSurveyEnd idx ohms x s
  | .portRecover idx temp => Sys2Proof.Machine.execPortRecover idx temp s
  | .groupLock g => Sys2Proof.Machine.execGroupLock g s
  | .groupUnlock g => Sys2Proof.Machine.execGroupUnlock g s
  | .vapDroop k mv => Sys2Proof.Machine.execVapDroop k mv s
  | .supplyLost k vap vapl => Sys2Proof.Machine.execSupplyLost k vap vapl s
  | .supplyBack k vap vapl => Sys2Proof.Machine.execSupplyBack k vap vapl s
  | .tempWarn k t => Sys2Proof.Machine.execTempWarn k t s
  | .tempFault k t => Sys2Proof.Machine.execTempFault k t s
  | .refinLost k idx mv => Sys2Proof.Machine.execRefinLost k idx mv s
  | .refinFound k idx mv => Sys2Proof.Machine.execRefinFound k idx mv s
  | .syncReset idx => Sys2Proof.Machine.execSyncReset idx s
  | .wordEmit idx a b => Sys2Proof.Machine.execWordEmit idx a b s
  | .thrFall idx k => Sys2Proof.Machine.execThrFall idx k s
  | .firCoefWrite src idx k v => Sys2Proof.Machine.execFirCoefWrite src idx k v s
  | .bankSwap src idx v => Sys2Proof.Machine.execBankSwap src idx v s
  | .swapDone idx => Sys2Proof.Machine.execSwapDone idx s
  | .swapForce src idx v => Sys2Proof.Machine.execSwapForce src idx v s
  | .outputFetch idx => Sys2Proof.Machine.execOutputFetch idx s
  | .spanHoldStart idx => Sys2Proof.Machine.execSpanHoldStart idx s
  | .spanHoldEnd idx => Sys2Proof.Machine.execSpanHoldEnd idx s
  | .spanDone idx => Sys2Proof.Machine.execSpanDone idx s
  | .devWindow idx dev => Sys2Proof.Machine.execDevWindow idx dev s
  | .loadWindow idx uv na ohms pf hf => Sys2Proof.Machine.execLoadWindow idx uv na ohms pf hf s
  | .ilimitTrip idx => Sys2Proof.Machine.execIlimitTrip idx s
  | .complianceTrip idx => Sys2Proof.Machine.execComplianceTrip idx s
  | .lsvGo src idx v => Sys2Proof.Machine.execLsvGo src idx v s
  | .lsvEnd idx pf kohm z => Sys2Proof.Machine.execLsvEnd idx pf kohm z s
  | .calStepDone g sl pass adc dac => Sys2Proof.Machine.execCalStepDone g sl pass adc dac s
  | .refCheck k ppm => Sys2Proof.Machine.execRefCheck k ppm s
  | .refOk k => Sys2Proof.Machine.execRefOk k s
  | .toneCheck k thd => Sys2Proof.Machine.execToneCheck k thd s
  | .rotationDue g => Sys2Proof.Machine.execRotationDue g s
  | .hoReq src g port => Sys2Proof.Machine.execHoReq src g port s
  | .freeze src g v => Sys2Proof.Machine.execFreeze src g v s
  | .hoCompareResult g measure => Sys2Proof.Machine.execHoCompareResult g measure s
  | .hoDeferBlock g measure => Sys2Proof.Machine.execHoDeferBlock g measure s
  | .hoDeferTimeout g => Sys2Proof.Machine.execHoDeferTimeout g s
  | .xfadeEnd g => Sys2Proof.Machine.execXfadeEnd g s
  | .sliceFail g sl det => Sys2Proof.Machine.execSliceFail g sl det s
  | .repairResume g => Sys2Proof.Machine.execRepairResume g s
  | .calStale g sl => Sys2Proof.Machine.execCalStale g sl s
  | .macNone t ecc => Sys2Proof.Machine.execMacNone t ecc s
  | .macLd t ecc => Sys2Proof.Machine.execMacLd t ecc s
  | .macAdd t ecc => Sys2Proof.Machine.execMacAdd t ecc s
  | .macSub t ecc => Sys2Proof.Machine.execMacSub t ecc s
  | .macLdc t ecc => Sys2Proof.Machine.execMacLdc t ecc s
  | .macAddc t ecc => Sys2Proof.Machine.execMacAddc t ecc s
  | .macSubc t ecc => Sys2Proof.Machine.execMacSubc t ecc s
  | .macLdr t ecc => Sys2Proof.Machine.execMacLdr t ecc s
  | .moveNop t => Sys2Proof.Machine.execMoveNop t s
  | .moveLdt t => Sys2Proof.Machine.execMoveLdt t s
  | .moveMovt t => Sys2Proof.Machine.execMoveMovt t s
  | .moveAddt t => Sys2Proof.Machine.execMoveAddt t s
  | .moveClra t => Sys2Proof.Machine.execMoveClra t s
  | .moveLda t => Sys2Proof.Machine.execMoveLda t s
  | .moveSetoff t => Sys2Proof.Machine.execMoveSetoff t s
  | .moveGetoff t => Sys2Proof.Machine.execMoveGetoff t s
  | .moveSettag t => Sys2Proof.Machine.execMoveSettag t s
  | .ctlNop t => Sys2Proof.Machine.execCtlNop t s
  | .loop0 t => Sys2Proof.Machine.execLoop0 t s
  | .loop1 t => Sys2Proof.Machine.execLoop1 t s
  | .br t => Sys2Proof.Machine.execBr t s
  | .wait t => Sys2Proof.Machine.execWait t s
  | .halt t => Sys2Proof.Machine.execHalt t s
  | .bmerge t => Sys2Proof.Machine.execBmerge t s
  | .bmergeResume r c => Sys2Proof.Machine.execBmergeResume r c s
  | .emark t => Sys2Proof.Machine.execEmark t s
  | .setlen t => Sys2Proof.Machine.execSetlen t s
  | .cpost t => Sys2Proof.Machine.execCpost t s
  | .programError t => Sys2Proof.Machine.execProgramError t s
  | .streamWordArrive t port ch ts w marker poison => Sys2Proof.Machine.execStreamWordArrive t port ch ts w marker poison s
  | .rowWalk t mem e => Sys2Proof.Machine.execRowWalk t mem e s
  | .autodozeEntry r => Sys2Proof.Machine.execAutodozeEntry r s
  | .tileFail t det => Sys2Proof.Machine.execTileFail t det s
  | .lenChg src r k v => Sys2Proof.Machine.execLenChg src r k v s
  | .lenRequestAct t => Sys2Proof.Machine.execLenRequestAct t s
  | .tileWindowWrite src t k v full e => Sys2Proof.Machine.execTileWindowWrite src t k v full e s
  | .columnRun src r c v => Sys2Proof.Machine.execColumnRun src r c v s
  | .moveGo src r v => Sys2Proof.Machine.execMoveGo src r v s
  | .moveAbort src r v => Sys2Proof.Machine.execMoveAbort src r v s
  | .moveCompareDone r dt => Sys2Proof.Machine.execMoveCompareDone r dt s
  | .movePortSilent r => Sys2Proof.Machine.execMovePortSilent r s
  | .moveBindTimeout r => Sys2Proof.Machine.execMoveBindTimeout r s
  | .moveDrainEnd r => Sys2Proof.Machine.execMoveDrainEnd r s
  | .repairPrepareDone r c rows dt => Sys2Proof.Machine.execRepairPrepareDone r c rows dt s
  | .flitSend ep flow ws => Sys2Proof.Machine.execFlitSend ep flow ws s
  | .flitArrive n ep err => Sys2Proof.Machine.execFlitArrive n ep err s
  | .aDrop n ep => Sys2Proof.Machine.execADrop n ep s
  | .memoryAccess m es => Sys2Proof.Machine.execMemoryAccess m es s
  | .framePortWrite b => Sys2Proof.Machine.execFramePortWrite b s
  | .framePortRead b e => Sys2Proof.Machine.execFramePortRead b e s
  | .scrubRead e skip v => Sys2Proof.Machine.execScrubRead e skip v s
  | .rowRepairGo src b v => Sys2Proof.Machine.execRowRepairGo src b v s
  | .rowCompareDone b bad => Sys2Proof.Machine.execRowCompareDone b bad s
  | .rowRepairTimeout b => Sys2Proof.Machine.execRowRepairTimeout b s
  | .rowRepairAbort src b v => Sys2Proof.Machine.execRowRepairAbort src b v s
  | .flowBind src addr v => Sys2Proof.Machine.execFlowBind src addr v s
  | .flowRoute src v => Sys2Proof.Machine.execFlowRoute src v s
  | .layoutChange src g v => Sys2Proof.Machine.execLayoutChange src g v s
  | .pllLock g => Sys2Proof.Machine.execPllLock g s
  | .pllUnlock g refOk => Sys2Proof.Machine.execPllUnlock g refOk s
  | .ethEnable src e on v => Sys2Proof.Machine.execEthEnable src e on v s
  | .anResolved e => Sys2Proof.Machine.execAnResolved e s
  | .anFail e => Sys2Proof.Machine.execAnFail e s
  | .trainingDone e => Sys2Proof.Machine.execTrainingDone e s
  | .trainingTimeout e => Sys2Proof.Machine.execTrainingTimeout e s
  | .linkUp e => Sys2Proof.Machine.execLinkUp e s
  | .bringupRetry e => Sys2Proof.Machine.execBringupRetry e s
  | .linkDown e why lane => Sys2Proof.Machine.execLinkDown e why lane s
  | .retrain src e v => Sys2Proof.Machine.execRetrain src e v s
  | .svGo src e v => Sys2Proof.Machine.execSvGo src e v s
  | .ethSurveyEnd e lanes partner => Sys2Proof.Machine.execEthSurveyEnd e lanes partner s
  | .adaptStep l margin => Sys2Proof.Machine.execAdaptStep l margin s
  | .marginRetrain l => Sys2Proof.Machine.execMarginRetrain l s
  | .ilEstimate l il => Sys2Proof.Machine.execIlEstimate l il s
  | .laneRetire src l v => Sys2Proof.Machine.execLaneRetire src l v s
  | .modulePoll g present mstate dpstate rev flags => Sys2Proof.Machine.execModulePoll g present mstate dpstate rev flags s
  | .modFault g => Sys2Proof.Machine.execModFault g s
  | .modAcc src g v => Sys2Proof.Machine.execModAcc src g v s
  | .servoPush src v => Sys2Proof.Machine.execServoPush src v s
  | .refinMeasurement edges => Sys2Proof.Machine.execRefinMeasurement edges s
  | .timeSrcWrite src v => Sys2Proof.Machine.execTimeSrcWrite src v s
  | .reacquire src v => Sys2Proof.Machine.execReacquire src v s
  | .timeSet src v => Sys2Proof.Machine.execTimeSet src v s
  | .txtsPop src e v => Sys2Proof.Machine.execTxtsPop src e v s
  | .mcgStart n => Sys2Proof.Machine.execMcgStart n s
  | .flowTableWrite src f k v full => Sys2Proof.Machine.execFlowTableWrite src f k v full s
  | .packetReceive port x => Sys2Proof.Machine.execPacketReceive port x s
  | .gapTimeout f => Sys2Proof.Machine.execGapTimeout f s
  | .audioPacketTimeout f => Sys2Proof.Machine.execAudioPacketTimeout f s
  | .pathDown f b => Sys2Proof.Machine.execPathDown f b s
  | .packetSend x => Sys2Proof.Machine.execPacketSend x s
  | .tapRearm src n v => Sys2Proof.Machine.execTapRearm src n v s
  | .bramAccess n b pa pb => Sys2Proof.Machine.execBramAccess n b pa pb s
  | .walkStale n b stale => Sys2Proof.Machine.execWalkStale n b stale s
  | .oscMeasure k khz => Sys2Proof.Machine.execOscMeasure k khz s
  | .ustoreRequest n write addr data len => Sys2Proof.Machine.execUstoreRequest n write addr data len s
  | .ustoreDone fault bad => Sys2Proof.Machine.execUstoreDone fault bad s
  | .fportRegAccess n p addr write => Sys2Proof.Machine.execFportRegAccess n p addr write s
  | .loadGo src v => Sys2Proof.Machine.execLoadGo src v s
  | .loadAbort src v => Sys2Proof.Machine.execLoadAbort src v s
  | .groupComplete g => Sys2Proof.Machine.execGroupComplete g s
  | .isoRelease src n v => Sys2Proof.Machine.execIsoRelease src n v s
  | .regionHoCompareDone dt => Sys2Proof.Machine.execRegionHoCompareDone dt s
  | .readback src v => Sys2Proof.Machine.execReadback src v s
  | .storeWriteUnit log bad => Sys2Proof.Machine.execStoreWriteUnit log bad s
  | .maskedWrite src b which v => Sys2Proof.Machine.execMaskedWrite src b which v s
  | .pinLock src b mask key => Sys2Proof.Machine.execPinLock src b mask key s
  | .vioLost b mv => Sys2Proof.Machine.execVioLost b mv s
  | .vioBack b mv => Sys2Proof.Machine.execVioBack b mv s
  | .aes3RxFrame n a b va vb pa pb cs => Sys2Proof.Machine.execAes3RxFrame n a b va vb pa pb cs s
  | .aesLock n hz => Sys2Proof.Machine.execAesLock n hz s
  | .aesUnlock n => Sys2Proof.Machine.execAesUnlock n s
  | .aes3TxFrame n => Sys2Proof.Machine.execAes3TxFrame n s
  | .ltcSync k addr ub => Sys2Proof.Machine.execLtcSync k addr ub s
  | .ltcLost k => Sys2Proof.Machine.execLtcLost k s
  | .serDataWrite src c idx v => Sys2Proof.Machine.execSerDataWrite src c idx v s
  | .serDataRead src c idx => Sys2Proof.Machine.execSerDataRead src c idx s
  | .qCfgWrite q v => Sys2Proof.Machine.execQCfgWrite q v s
  | .sqDoorbell q v ds => Sys2Proof.Machine.execSqDoorbell q v ds s
  | .dmaDescriptorDone q host err => Sys2Proof.Machine.execDmaDescriptorDone q host err s
  | .noticeRingWrite q => Sys2Proof.Machine.execNoticeRingWrite q s
  | .nqTailWrite src q v => Sys2Proof.Machine.execNqTailWrite src q v s
  | .msixCoalesceTimeout q => Sys2Proof.Machine.execMsixCoalesceTimeout q s
  | .pcieLinkUp gen width => Sys2Proof.Machine.execPcieLinkUp gen width s
  | .brizelBreak baud => Sys2Proof.Machine.execBrizelBreak baud s
  | .brizelFrameReject chan seq why => Sys2Proof.Machine.execBrizelFrameReject chan seq why s
  | .brizelRead c seq count addr => Sys2Proof.Machine.execBrizelRead c seq count addr s
  | .brizelWrite c seq count addr ws => Sys2Proof.Machine.execBrizelWrite c seq count addr ws s
  | .mwrite c seq count addr mask v => Sys2Proof.Machine.execMwrite c seq count addr mask v s
  | .poll c seq count addr mask v ms => Sys2Proof.Machine.execPoll c seq count addr mask v ms s
  | .pollDone c => Sys2Proof.Machine.execPollDone c s
  | .fmread c seq count addr es => Sys2Proof.Machine.execFmread c seq count addr es s
  | .fmwrite c seq count addr ws => Sys2Proof.Machine.execFmwrite c seq count addr ws s
  | .brizelInfo c seq op count => Sys2Proof.Machine.execBrizelInfo c seq op count s
  | .brizelAck seq => Sys2Proof.Machine.execBrizelAck seq s
  | .brizelNak seq => Sys2Proof.Machine.execBrizelNak seq s
  | .brizelCredit chan n => Sys2Proof.Machine.execBrizelCredit chan n s
  | .noticeFrameSend q => Sys2Proof.Machine.execNoticeFrameSend q s
  | .noticeResend seq => Sys2Proof.Machine.execNoticeResend seq s
  | .sspWriteReg addr ws => Sys2Proof.Machine.execSspWriteReg addr ws s
  | .sspReadReg addr n => Sys2Proof.Machine.execSspReadReg addr n s
  | .sspWriteBuf off bs => Sys2Proof.Machine.execSspWriteBuf off bs s
  | .pspTransaction write addr ws n => Sys2Proof.Machine.execPspTransaction write addr ws n s
  | .writeCrit x => Sys2Proof.Machine.execWriteCrit x s
  | .lockOverride x => Sys2Proof.Machine.execLockOverride x s
  | .keyLoad x => Sys2Proof.Machine.execKeyLoad x s
  | .keyErase x => Sys2Proof.Machine.execKeyErase x s
  | .fuseProg x ok => Sys2Proof.Machine.execFuseProg x ok s
  | .slotWrite x => Sys2Proof.Machine.execSlotWrite x s
  | .slotErase x => Sys2Proof.Machine.execSlotErase x s
  | .bankWrite x => Sys2Proof.Machine.execBankWrite x s
  | .calOverwrite x => Sys2Proof.Machine.execCalOverwrite x s
  | .keeperReload x => Sys2Proof.Machine.execKeeperReload x s
  | .debugUnlock x => Sys2Proof.Machine.execDebugUnlock x s
  | .tamperTrip idx level => Sys2Proof.Machine.execTamperTrip idx level s
  | .attestationReport src v => Sys2Proof.Machine.execAttestationReport src v s
  | .newChal src v => Sys2Proof.Machine.execNewChal src v s
  | .relock src v => Sys2Proof.Machine.execRelock src v s
  | .railLost idx => Sys2Proof.Machine.execRailLost idx s
  | .railBack idx => Sys2Proof.Machine.execRailBack idx s
  | .pwrReq src page st v => Sys2Proof.Machine.execPwrReq src page st v s
  | .powerStateReached page => Sys2Proof.Machine.execPowerStateReached page s
  | .darkEnter src v => Sys2Proof.Machine.execDarkEnter src v s
  | .darkWake k => Sys2Proof.Machine.execDarkWake k s
  | .xinLost khz => Sys2Proof.Machine.execXinLost khz s
  | .xinBack khz => Sys2Proof.Machine.execXinBack khz s
  | .pllFailover k => Sys2Proof.Machine.execPllFailover k s
  | .pllColdRelock k => Sys2Proof.Machine.execPllColdRelock k s
  | .pllRetry k ok => Sys2Proof.Machine.execPllRetry k ok s
  | .pllRestored k => Sys2Proof.Machine.execPllRestored k s
  | .plannedPllSwitch src k v => Sys2Proof.Machine.execPlannedPllSwitch src k v s
  | .thermSample ts => Sys2Proof.Machine.execThermSample ts s
  | .fwChg src v => Sys2Proof.Machine.execFwChg src v s
  | .fwAbort src v => Sys2Proof.Machine.execFwAbort src v s
  | .fwCompareDone diff => Sys2Proof.Machine.execFwCompareDone diff s
  | .ageMeasure ss => Sys2Proof.Machine.execAgeMeasure ss s
  | .cqHeadWrite q v => Sys2Proof.Machine.execCqHeadWrite q v s
  | .jtagInstruction idx => Sys2Proof.Machine.execJtagInstruction idx s
  | .ltcCodewordStart k => Sys2Proof.Machine.execLtcCodewordStart k s
  | .serRxByte c idx byte => Sys2Proof.Machine.execSerRxByte c idx byte s
  | .cdrLoss l => Sys2Proof.Machine.execCdrLoss l s
  | .cdrLock l => Sys2Proof.Machine.execCdrLock l s
  | .keyLoadSigned x => Sys2Proof.Machine.execKeyLoadSigned x s
  | .certificateCopy src v => Sys2Proof.Machine.execCertificateCopy src v s
  | .jtagUnlock blk => Sys2Proof.Machine.execJtagUnlock blk s
  | .porstN => Sys2Proof.Machine.execPorstN s
  | .perstN => Sys2Proof.Machine.execPerstN s
  | .flr => Sys2Proof.Machine.execFlr s
  | .checkStart => Sys2Proof.Machine.execCheckStart s
  | .pfMuteRelease => Sys2Proof.Machine.execPfMuteRelease s
  | .measTimeout => Sys2Proof.Machine.execMeasTimeout s
  | .stepWanted => Sys2Proof.Machine.execStepWanted s
  | .digestDone => Sys2Proof.Machine.execDigestDone s
  | .verifyDone => Sys2Proof.Machine.execVerifyDone s
  | .regionWriteDone => Sys2Proof.Machine.execRegionWriteDone s
  | .personalityLoad => Sys2Proof.Machine.execPersonalityLoad s
  | .persDeadline => Sys2Proof.Machine.execPersDeadline s
  | .regionHoSilent => Sys2Proof.Machine.execRegionHoSilent s
  | .regionHoBindTimeout => Sys2Proof.Machine.execRegionHoBindTimeout s
  | .regionHoDrainEnd => Sys2Proof.Machine.execRegionHoDrainEnd s
  | .slotWriteDone => Sys2Proof.Machine.execSlotWriteDone s
  | .pcieLinkDown => Sys2Proof.Machine.execPcieLinkDown s
  | .sspStatus => Sys2Proof.Machine.execSspStatus s
  | .attDone => Sys2Proof.Machine.execAttDone s
  | .chalRd => Sys2Proof.Machine.execChalRd s
  | .bootVerify => Sys2Proof.Machine.execBootVerify s
  | .pfail => Sys2Proof.Machine.execPfail s
  | .pfailEnd => Sys2Proof.Machine.execPfailEnd s
  | .thermalTrip => Sys2Proof.Machine.execThermalTrip s
  | .fwPrepareDone => Sys2Proof.Machine.execFwPrepareDone s
  | .fwArmTimeout => Sys2Proof.Machine.execFwArmTimeout s
  | .fwDrainEnd => Sys2Proof.Machine.execFwDrainEnd s
  | .hoursUpdate => Sys2Proof.Machine.execHoursUpdate s
  | .bankWriteDone => Sys2Proof.Machine.execBankWriteDone s

end Sys2Proof.Machine
end

