-- ==== Sys2Proof/Safety.lean ====
section
/-! DEFINITION. What a safe state of the machine is, in the terms the statements use: the register pages, the snapshots and
the byte memories are in their canonical form. Beside it, when a write reaches its register. -/

namespace Sys2Proof

open Sys2Proof.Machine

/-- The register pages are in canonical form: offsets rise, and no register is listed with its reset value. -/
def RegsCanon (d : Dev) : Prop := Tab.wf resetWord d.regs = true

/-- The snapshots are in canonical form. -/
def SnapsCanon (d : Dev) : Prop := Tab.wf (fun _ => (0 : Word)) d.snaps = true

/-- Frame memory is in canonical form. -/
def FrameMemCanon (d : Dev) : Prop := Memory.wf d.cw.mem = true

/-- The user area of the image store is in canonical form. -/
def StoreCanon (d : Dev) : Prop := Memory.wf d.sto.bytes = true

/-- Every byte and every register is held in canonical form. -/
def Canon (d : Dev) : Prop := RegsCanon d ∧ SnapsCanon d ∧ FrameMemCanon d ∧ StoreCanon d

/-- The commands that may store to frame memory: a writing memory flit (R284), a frame port (R287), the host queues' engine
(R442), the links and slave ports (R459, R462), the loader (R390), the security block's reports (R474), and what erases it (R486,
R492). -/
def storesToFrames : Instr → Bool
  | .memoryAccess m _ => m.write
  | .pspTransaction write _ _ _ => write
  | .framePortWrite _ | .dmaDescriptorDone _ _ _ | .fmwrite _ _ _ _ _ | .sspWriteBuf _ _ | .verifyDone | .regionWriteDone
  | .attDone | .tamperTrip _ _ | .railLost _ => true
  | _ => false

/-- The commands that may store to the user area of the image store: the end of a request of the user store port (R369) and
the write of a unit (R411). -/
def storesToImages : Instr → Bool
  | .ustoreDone _ _ | .storeWriteUnit _ _ => true
  | _ => false

/-- A write of the whole dword `v` at an offset of page `i` of a class is accepted: the page answers, a register stands
there, and none of the refusal causes applies (R31, R553). -/
def Accepts (d : Dev) (src : Source) (c : Cls) (i off : Nat) (v : Word) : Prop :=
  i < c.info.count ∧ d.answers c = true ∧ ∃ r, regAt c i off = some r ∧ d.cause src c i off r v true = 0

/-- The device after the whole dword `w` is stored in register `f` of page `p`, whose RW fields are the mask `rw` and whose
W1S bits are the mask `w1s` (R16). -/
def written (d : Dev) (p : Nat) (f : Fld) (rw w1s w : Word) : Dev :=
  d.put (p + f.off) ((d.raw (p + f.off) &&& ~~~rw) ||| (w &&& rw) ||| (w &&& w1s))

/-- The word the block hears when `w` is written to register `f` of page `p`: the fields a write acts on, the mask `acting`,
from `w`, and the others as they stood. -/
def heard (d : Dev) (p : Nat) (f : Fld) (acting w : Word) : Word :=
  (d.raw (p + f.off) &&& ~~~acting) ||| (w &&& acting)

/-- The state after a command that leaves device `e`: the rest of the state stands, and what follows every command follows
this one (R55, R37). -/
def after (s : State) (e : Dev) : State := { s with dev := Dev.settle s.dev.quiet e }

end Sys2Proof
end

