-- ==== Sys2Proof/Certificates/Slice0/Obligations.lean ====
section
/-! DEFINITION. The statements for the provers. A statement that a command completes has the command's next state as its
conclusion, under hypotheses on the state and the operands alone: `after s e` is the state `s` with device `e` and what
follows every command (log entry 9), and what the equation does not change, it leaves (the frame). Where a command's
conditions do not hold it changes nothing (log entry 3). -/

open Sys2Proof Sys2Proof.Machine

/-! ### The queue, reset, what follows a command -/

/-- A step takes the command at the front of the queue and runs it with the rest of the queue (the model's own queue,
log entry 2). -/
def Obligations.StepRunsFront : Prop :=
  ∀ (s : State) (c : Instr) (rest : List Instr), s.pending = c :: rest →
    Machine.step s = Machine.exec c { s with pending := rest }

/-- On an empty queue one nanosecond passes (the model's choice, log entry 1): device time and elapsed time go on by 1
ns, and while the core runs the PCS lanes' symbols, the clock edges of the logic fabric, the serial bytes and the media
clock pulses of that nanosecond happen. -/
def Obligations.StepIdles : Prop :=
  ∀ s : State, s.pending = [] →
    let d := s.dev.quiet.pass 1
    Machine.step s = .next (after s (if s.dev.coreOn then d.lanesTick.fabricTick.serTick.mcgPulses else d))

/-- No command touches the queue, and none stops the machine: `exec` answers a next state with the same queue. -/
def Obligations.EveryCommandAnswers : Prop :=
  ∀ (c : Instr) (s : State), ∃ t, Machine.exec c s = .next t ∧ t.pending = s.pending

/-- A core held in reset, dark or without its rails runs no command but those of the always-on domain: registers, memory
and everything else of the device stay, and nothing is sent. -/
def Obligations.CoreOffDoesNothing : Prop :=
  ∀ (c : Instr) (s : State), s.dev.coreOn = false →
    (∀ k, c ≠ .darkWake k) → (∀ i b, c ≠ .tamperTrip i b) → (∀ i, c ≠ .railLost i) → (∀ i, c ≠ .railBack i) →
    (∀ ts, c ≠ .thermSample ts) → c ≠ .thermalTrip → c ≠ .porstN → c ≠ .pfail → c ≠ .pfailEnd →
      Machine.exec c s = .next { s with dev := { s.dev with out := [] } }

/-- What follows a command. What falls due happens, and a wrap of `UPTIME` that the command or what follows it spans is
counted in `SYS.UPTIME_EPOCH`; where nothing falls due and no wrap is spanned, nothing follows. The rest of the state is
not touched. -/
def Obligations.WhatFollowsACommand : Prop :=
  ∀ (s : State) (e : Dev), (after s e).pending = s.pending ∧
    (e.now + s.dev.mono = s.dev.now + e.mono →
      let n := e.dues.uptime / 2 ^ 32
      let o := s.dev.uptime / 2 ^ 32
      (n ≤ o → (after s e).dev = e.dues) ∧
      (o < n → (after s e).dev = e.dues.count (pg .sys 0) SYS.UPTIME_EPOCH (n - o)) ∧
      (e.calm = true → e.dues = e))

/-! ### Registers -/

/-- `REGISTER_WRITE` (R16, R21, R24, R31, R401, R439): an accepted write of a whole dword of a page of BAR0, with no bit
of it meant for a pin that is another's, is a command of the page header or of its block where the register has one;
otherwise the register takes the word its access codes make of it and the block reacts. Key sequences under way on the
page are broken (R34). BAR4 writes go to a queue's registers or the MSI-X table; `PERS_DEADLINE` takes 1 to 1000 ms and
nothing else; MSI-X enable and mask are set and pending messages leave when they may. Where the spec is silent it rests
on the model's choices of log entries 15, 16, 17, 120, 121, 142. -/
def Obligations.RegisterWriteCompletes : Prop :=
  ∀ (s : State), s.dev.coreOn = true →
    let d := s.dev.quiet
    (∀ (src : Source) (a : BitVec 27) (v : Word) (c : Cls) (i off : Nat) (r : RegSpec),
      a.toNat = pg c i + off → off % 4 = 0 → off < 0x800 → (c = .iob → 0x40 ≤ off → d.iobDropped src i off v = 0) →
      i < c.info.count → d.answers c = true → regAt c i off = some r → d.cause src c i off r v true = 0 →
        let old := d.raw (pg c i + off)
        let e := (d.put (pg c i + off) (if maskedAt c off then maskedWord old v else r.stored old v)).react src c i off Via.direct
          old (r.want c off old v)
        Machine.exec (.registerWrite (.bar0 src a v true)) s = .next (after s
          ((((d.headerWrite src c i off r v).orElse fun _ => d.specialWrite src c i off v).getD e).breakLock c i off))) ∧
    (∀ (a : BitVec 20) (v : Word), Machine.exec (.registerWrite (.bar4 a v)) s = .next (after s
      (let q := a.toNat / 0x1000
       let o := a.toNat % 0x1000
       if a.toNat < 0x10000 then
         if o < 0x10 then d.qBaseWrite q o v
         else if o = qCFG then d.qCfgWrite q v
         else if o = qSQT then d.sqDoorbell q v []
         else if o = qCQH then d.cqHeadWrite q v
         else d
       else if 0x80000 ≤ a.toNat ∧ a.toNat < 0x80400 then d.msixWrite ((a.toNat - 0x80000) / 4) v
       else d))) ∧
    (∀ ms : BitVec 16, Machine.exec (.registerWrite (.persDeadline ms)) s = .next (after s
      (if 1 ≤ ms.toNat ∧ ms.toNat ≤ 1000 then { d with ld := { d.ld with deadline := ms.toNat } } else d))) ∧
    (∀ on mask : Bool, Machine.exec (.registerWrite (.msix on mask)) s = .next (after s
      ({ d with hs := { d.hs with msixOn := on, msixMask := mask } } : Dev).msixFlush))

/-- `STAGED_WRITE` (R17, R18): an accepted write to the staged half of a register stores its staged fields and sets the
bit of `STAGE_DIRTY` for the 64-byte row the register stands in; the live half is as it was. Where the spec is silent it
rests on the model's choices of log entries 15, 16, 17. -/
def Obligations.StagedWriteCompletes : Prop :=
  ∀ (s : State) (src : Source) (v : Word) (page : Fin 32768) (k : Fin 512) (c : Cls) (i : Nat) (r : RegSpec),
    s.dev.coreOn = true →
    let d := s.dev.quiet
    let off := 0x800 + 4 * k.val
    let a := pg c i + off
    page.val * 0x1000 = pg c i → i < c.info.count →
    (c = .iob → 16 ≤ k.val → d.iobDropped src i (4 * k.val) v = 0) → d.answers c = true → regAt c i off = some r →
    r.isStaged = true → d.cause src c i off r v true = 0 →
      let e := d.put a (if maskedAt c off then maskedWord (d.raw a) v &&& r.mask (·.staged) else v &&& r.mask (·.staged))
      Machine.exec (.stagedWrite src page k v true) s = .next (after s
        ((e.setReg (pg c i) HDR.STAGE_DIRTY (e.reg (pg c i) HDR.STAGE_DIRTY ||| wd (2 ^ (4 * k.val / 0x40)))).breakLock c i off))

/-- A write of a register of a page that a cause of R31 applies to, live or staged, of a whole dword or of part of one:
`REFUSE_INFO` names cause, source and offset, `REFUSE_CNT` counts, `WRITE_REFUSED` is raised with the word, key
sequences under way on the page and on a bank's pins are broken, and the block reports a cause of its own. Pin bits that
a locked pin ignores are no refusal. Rules: R31, R30, R553. Where the spec is silent it rests on the model's choices of
log entries 15, 17, 21, 142, 155. -/
def Obligations.RefusedWrite : Prop :=
  ∀ (s : State) (src : Source) (a : BitVec 27) (v : Word) (full : Bool) (c : Cls) (i off : Nat) (r : RegSpec),
    s.dev.coreOn = true →
    let d := s.dev.quiet
    let k := d.cause src c i off r v full
    a.toNat = pg c i + off → off % 4 = 0 → off < 0x1000 → (0x800 ≤ off → r.isStaged = true) →
    (c = .iob → 0x40 ≤ off % 0x800 → d.iobDropped src i (off % 0x800) v = 0) → i < c.info.count →
    d.answers c = true → regAt c i off = some r → k ≠ 0 →
      let p := pg c i
      let e := (d.setReg p HDR.REFUSE_INFO (wd (k * 2 ^ 28 + src.code * 2 ^ 24 + off))).count p HDR.REFUSE_CNT
      let f := e.raiseCode p 0 0x0002 1 (e.reg p HDR.REFUSE_INFO) v 0 0
      Machine.exec (.registerWrite (.bar0 src a v full)) s = .next (after s
        (let g : Dev := { f with
          lockSeq := Tab.del f.lockSeq p
          pn := if c = .iob ∧ off ≠ IOB.PIN_LOCK.off then { f.pn with lockSeq := Tab.del f.pn.lockSeq i } else f.pn }
        if k = 8 then g.blockNote c i off (r.want c off (d.raw (p + off)) v) else g))

/-- What a refused write leaves as it was: it makes a device `e`, from which the next state follows as from every
command, that differs from the last in registers and notice queues, the key sequences it breaks and the messages of
earlier commands only; and of the registers in `REFUSE_INFO`, `REFUSE_CNT` and `EVT_STAT` of the page and the notice
registers of `NTC`. Where nothing falls due, `e` is the next state. -/
def Obligations.RefusedWriteFrame : Prop :=
  ∀ (s t : State) (src : Source) (a : BitVec 27) (v : Word) (full : Bool) (c : Cls) (i off : Nat) (r : RegSpec),
    s.dev.coreOn = true →
    let d := s.dev.quiet
    a.toNat = pg c i + off → off % 4 = 0 → off < 0x1000 → (0x800 ≤ off → r.isStaged = true) →
    (c = .iob → 0x40 ≤ off % 0x800 → d.iobDropped src i (off % 0x800) v = 0) → i < c.info.count →
    d.answers c = true → regAt c i off = some r → d.cause src c i off r v full ≠ 0 →
    Machine.exec (.registerWrite (.bar0 src a v full)) s = .next t →
      let p := pg c i
      t.pending = s.pending ∧ ∃ e : Dev, t = after s e ∧ (s.dev.calm = true → t.dev = e) ∧
      e = { s.dev with regs := e.regs, nq := e.nq, lockSeq := Tab.del s.dev.lockSeq p, out := [], pn := e.pn } ∧
      e.pn = { s.dev.pn with lockSeq := e.pn.lockSeq } ∧ (c ≠ .iob → e.pn = s.dev.pn) ∧
      ∀ b, b ≠ p + HDR.REFUSE_INFO.off → b ≠ p + HDR.REFUSE_CNT.off → b ≠ p + HDR.EVT_STAT.off →
        b < pg .ntc 0 ∨ pg .ntc 0 + 0x1000 ≤ b → e.raw b = s.dev.raw b

/-- When one write meets more than one refusal cause it is refused with the first that applies in this order: WIDTH (7),
OWNER (2), LOCKED (3), CRITICAL (1), POWER (5), BOUND (4), VALUE (6), BLOCK (8); the last two concern a live value, and
a write that sets `BLK_RST` carries none (R26). A write that meets none is accepted (0). -/
def Obligations.RefusalOrder : Prop :=
  ∀ (d : Dev) (src : Source) (c : Cls) (i off : Nat) (r : RegSpec) (v : Word) (full : Bool),
    let new := r.want c off (d.raw (pg c i + off)) v
    let live := decide (off < 0x800) && !blkRst off v
    d.cause src c i off r v full =
      (([(!full, 7), (d.ownerBars src c i, 2), (d.lockBars c i off r v, 3), (d.critBars c i off r v, 1),
        (d.powerBars c i off, 5), (d.boundBars src c i off r v, 4), (live && d.valueBars c i off r new, 6),
        (live && d.blockBars src c i off (d.raw (pg c i + off)) new, 8)].find? fun x => x.1).map fun x => x.2).getD 0

/-- A read or a write outside the page map, of a hole in a page, or of an unaligned offset changes nothing; the read
gives zero (R16, R17, R42). -/
def Obligations.HolesAreInert : Prop :=
  ∀ (d : Dev) (src : Source) (a : Nat) (v : Word),
    (a % 4 ≠ 0 ∨ 0x8000000 ≤ a ∨ (a < 0x4000000 ∧ ¬ (0x600000 ≤ a ∧ a < 0x700000) ∧
      (pageAt a = none ∨ ∃ c i, pageAt a = some (c, i) ∧ regAt c i (a % 0x1000) = none))) →
      d.busRead src a = (0, d) ∧ d.busWrite src a v true .clean = (d, none)

/-- What is written to a register is read back from it, and no other register changes, where the pages are in canonical
form. -/
def Obligations.RegisterReadAfterWrite : Prop :=
  ∀ (d : Dev) (a b : Nat) (v : Word), RegsCanon d →
    (d.put a v).raw a = v ∧ (b ≠ a → (d.put a v).raw b = d.raw b)

/-- A field that is set holds the number taken to its width, and the other bits of its register stand. -/
def Obligations.FieldReadAfterWrite : Prop :=
  ∀ (d : Dev) (p : Nat) (f g : Fld) (n : Nat), RegsCanon d → f.lo ≤ f.hi → f.hi < 32 → g.lo ≤ g.hi → g.hi < 32 →
    (d.setF p f n).fld p f = n % 2 ^ (f.hi + 1 - f.lo) ∧
    (g.off ≠ f.off ∨ g.hi < f.lo ∨ f.hi < g.lo → (d.setF p f n).fld p g = d.fld p g)

/-- The header commands of a page, where the write is accepted. `BLK_RST` resets the page's block: a SYS reset on `SYS`,
the slots and the checker's registers on `MST` and `CHK`, the block of the page elsewhere. `EVT_FORCE` raises every
event of the word, the common events first, with the words its row gives it and the forced marker. `SNAP` latches the
counters for the writing source, `SNAP_CLR` latches and then clears the statistics counters. The third right key of the
sequence 0x5A5A, 0xA5A5, 0x5A5A locks the page. The page-lock sequence, where the write of the key is accepted: 0x5A5A
begins it or begins it again, 0xA5A5 by the same source goes on, and 0x5A5A after that sets `LOCKED`; any other key ends
it, and so does 0xA5A5 out of turn. A write to a pin bank also breaks the key sequence of its pins. Rules: R26, R29,
R34, R38, R39. Where the spec is silent it rests on the model's choices of log entries 16, 19, 21, 34, 39, 40, 138, 153,
155. -/
def Obligations.HeaderCommandsComplete : Prop :=
  (∀ (s : State) (src : Source) (v : Word) (page : Fin 32768) (c : Cls) (i : Nat),
     s.dev.coreOn = true → page.val * 0x1000 = pg c i →
     let d := s.dev.quiet
     let p := pg c i
     (Accepts d src c i HDR.PAGE_CTL.off (v ||| 2) → Machine.exec (.blkRst src page v) s = .next (after s
       ((match c with
         | .sys => d.sysReset 3
         | .mst => d.mstReset
         | .chk => ((d.resetPage p fun _ => false).setF p HDR.BUSY (d.fld p HDR.BUSY))
         | _ => d.pageReset c i).breakLock c i HDR.PAGE_CTL.off))) ∧
     (Accepts d src c i HDR.EVT_FORCE.off v → Machine.exec (.evtForce src page v) s = .next (after s
       (((c.evts.filter fun e => bitAt v e.bit).foldl (fun (x : Dev) e =>
           let w := e.forcedWords
           x.raiseCode p e.bit e.code e.sev (x.forcedWord c i e 4 w.1) (x.forcedWord c i e 5 w.2.1) (x.forcedWord c i e 6 w.2.2)
             (setBits (x.payload p e.p7) 31 31 1))
         (((List.range 4).filter fun k => bitAt v k).foldl (fun (x : Dev) k => x.forceCommon p k) d)).breakLock c i
           HDR.EVT_FORCE.off))) ∧
     (Accepts d src c i HDR.SNAP_CTL.off 1 → Machine.exec (.snap src page) s = .next (after s
       ((let e := (d.snapReady c i).snap c p src
         if c = .time then e.timeSnap src else e).breakLock c i HDR.SNAP_CTL.off))) ∧
     (Accepts d src c i HDR.SNAP_CTL.off (v ||| 2) → Machine.exec (.snapClr src page v) s = .next (after s
       ((let x := (d.snapReady c i).snap c p src
         let e := c.statOffs.foldl (fun (x : Dev) off => x.put (p + off) 0) x
         if c = .time then e.timeSnap src else if c = .media then e.mediaClr i else e).breakLock c i HDR.SNAP_CTL.off)))) ∧
  (∀ (s : State) (src : Source) (page : Fin 32768) (key : BitVec 16) (c : Cls) (i : Nat),
     s.dev.coreOn = true → page.val * 0x1000 = pg c i →
     let d := s.dev.quiet
     let p := pg c i
     let leaves := fun e : Dev => Machine.exec (.pageLock src page key) s = .next (after s
       (if c = .iob then { e with pn := { e.pn with lockSeq := Tab.del e.pn.lockSeq i } } else e))
     let ends : Dev := { d with lockSeq := Tab.del d.lockSeq p }
     Accepts d src c i HDR.PAGE_LOCK.off (BitVec.ofNat 32 (key.toNat * 65536)) →
       (Tab.get d.lockSeq p = some (2, src.tag) → key = 0x5A5A → leaves (ends.setFlag p HDR.LOCKED true)) ∧
       (Tab.get d.lockSeq p = some (1, src.tag) → key = 0xA5A5 → leaves { d with lockSeq := Tab.ins d.lockSeq p (2, src.tag) }) ∧
       (Tab.get d.lockSeq p ≠ some (1, src.tag) → key = 0xA5A5 → leaves ends) ∧
       (Tab.get d.lockSeq p ≠ some (2, src.tag) → key = 0x5A5A → leaves { d with lockSeq := Tab.ins d.lockSeq p (1, src.tag) }) ∧
       (key ≠ 0x5A5A → key ≠ 0xA5A5 → leaves ends))

/-- A snapshot holds, for the source that took it, every counter of the page as a reader would have seen it then, and no
other snapshot changes. -/
def Obligations.SnapLatchesCounters : Prop :=
  ∀ (d : Dev) (c : Cls) (p : Nat) (src : Source), SnapsCanon d →
    (∀ off ∈ c.counterOffs, (d.snap c p src).snapRead src (p + off) = d.view (p + off)) ∧
    (∀ (o : Source) (a : Nat), (∀ off ∈ c.counterOffs, snapKey o a ≠ snapKey src (p + off)) →
      (d.snap c p src).snapRead o a = d.snapRead o a)

/-! ### Resets of the device -/

/-- PORST_N (R40): whatever the device is in, and whether its core runs or not, it runs next with everything the PORST_N
column of *Reset scopes* clears at its reset value. Frame memory and its repairs, the image store, the keys and elapsed
time stay; `SYS.UPTIME` counts from here. -/
def Obligations.PorstClears : Prop :=
  ∀ s : State, ∃ t, Machine.exec .porstN s = .next t ∧ t.pending = s.pending ∧
    t.dev.now = 0 ∧ t.dev.frac = 0 ∧ t.dev.mono = s.dev.mono ∧ t.dev.pw.porstAt = s.dev.mono ∧
    t.dev.lockSeq = [] ∧ t.dev.snaps = [] ∧ t.dev.nq = [] ∧ t.dev.out = [] ∧
    t.dev.mst = ⟨[], [], [], none, []⟩ ∧ t.dev.tm = TimeSt.init ∧ t.dev.md = MediaSt.init ∧ t.dev.ln = LaneSt.init ∧
    t.dev.fab = FabSt.init ∧ t.dev.ld = LoadSt.init ∧ t.dev.pn = PinSt.init ∧ t.dev.hs = HostSt.init ∧
    t.dev.bz = BrzSt.init ∧ t.dev.fw = none ∧ t.dev.cw = s.dev.cw.kept ∧ t.dev.cw.mem = s.dev.cw.mem ∧
    t.dev.an = { AnalogSt.init with slices := t.dev.an.slices } ∧ t.dev.sto = { s.dev.sto with job := none } ∧ t.dev.sec.kimgF = s.dev.sec.kimgF ∧ t.dev.sec.kimgB = s.dev.sec.kimgB ∧
    t.dev.sec.kcmd = s.dev.sec.kcmd

/-- PERST_N and a function-level reset: they are counted, the host-facing state resets, scope 1 makes a SYS reset of
them, `HOST_RESET` tells which it was; after PERST_N the personality deadline begins to run once. Rules: R40, R401,
R444, R445. Where the spec is silent it rests on the model's choices of log entries 34, 37, 38, 138. -/
def Obligations.HostResetsComplete : Prop :=
  ∀ s : State, s.dev.coreOn = true →
    let d := s.dev.quiet
    (let e := (d.count pciPg PCIE.PERST_CNT).hostReset false
     let f := if e.fld pciPg PCIE.HOST_RESET_SCOPE = 1 then e.sysReset 7 else e
     let g := f.raise pciPg PCIE.E_HOST_RESET (wd 1)
     Machine.exec .perstN s = .next (after s
      (if g.ld.persSrc = none ∧ g.ld.bare = false ∧ g.ld.persAt = none then
        { g with ld := { g.ld with persAt := some g.mono } } else g))) ∧
    (let e := (d.count pciPg PCIE.FLR_CNT).hostReset true
     let f := if e.fld pciPg PCIE.HOST_RESET_SCOPE = 1 then e.sysReset 7 else e
     Machine.exec .flr s = .next (after s (f.raise pciPg PCIE.E_HOST_RESET (wd 2))))

/-! ### Milestones -/

/-- `OPEN`, `TRY`, `FIRE`, `RELEASE`, `CANCEL` of a slot, where the command is accepted. `OPEN` empties the slot and
takes it to STAGING; `TRY` queues a check that arms nothing and holds the instant its trigger resolves to now; `FIRE`
applies the slot, and every ARMED slot due now, at device time; `RELEASE` returns the slot to IDLE; `CANCEL` of a slot
that is CHECKING, or whose `TRY` waits, waits for its check, and any other slot is counted, reported and goes to IDLE
with its pages unbound. `CHECK`, where it is accepted: the instant its trigger resolves to now is written into the
trigger's time registers and held, and the slot waits in CHECKING at the end of the queue; a DEVICE_TIME trigger that is
not later than now expires at once. `MS_BIND_REQ`, where it is accepted: the pages asked for, `COUNT_M1` + 1 from `PAGE`
up, are bound to the slot and join its scope once each; with `UNBIND` those of them in the scope leave it and keep the
slot's number and state. Rules: R45, R46, R48, R52, R53, R56, R62, R555. Where the spec is silent it rests on the
model's choices of log entries 16, 25, 26, 27, 28, 31, 33, 155. -/
def Obligations.SlotCommandsComplete : Prop :=
  (∀ (s : State) (src : Source) (m : Fin 16), s.dev.coreOn = true →
     let d := s.dev.quiet
     let off := (MST.MS_CMD.at m).off
     let trigAt := match d.trig m with
       | 1 => some (d.atRegs m)
       | 2 => d.edgeInstant m (d.now + d.leadNs m)
       | 3 => d.frameInstant m (d.now + d.leadNs m)
       | _ => none
     let waits := d.mst.queue.any fun j => decide (j.slot = m.val) && j.isTry
     (Accepts d src .mst 0 off 1 → Machine.exec (.msOpen src m) s = .next (after s
       ((d.setSlot m ⟨.staging, [], none, false, false, none⟩).breakLock .mst 0 off))) ∧
     (Accepts d src .mst 0 off 3 → Machine.exec (.msTry src m) s = .next (after s
       (({ d with mst := { d.mst with queue := d.mst.queue ++ [⟨m, true, d.now, trigAt, none⟩] } } : Dev).breakLock .mst 0 off))) ∧
     (Accepts d src .mst 0 off 4 → Machine.exec (.msFire src m) s = .next (after s
       ((d.applySlots (m.val :: d.slotsAt d.now) d.now).breakLock .mst 0 off))) ∧
     (Accepts d src .mst 0 off 5 → (d.slot m).state = .checking ∨ waits = true → Machine.exec (.msCancel src m) s = .next (after s
       ((d.setSlot m { d.slot m with cancel := true }).breakLock .mst 0 off))) ∧
     (Accepts d src .mst 0 off 5 → (d.slot m).state ≠ .checking → waits = false →
       let e := ((d.count mstPg MST.MS_CANCEL_CNT).slotEvent m MST.E_SLOT_CANCELLED 0).slotIdle m
       Machine.exec (.msCancel src m) s = .next (after s
         ((if (d.slot m).state = .armed then e.disarmPages m (d.slot m).scope else e).slotFreed.breakLock .mst 0 off))) ∧
     (Accepts d src .mst 0 off 6 → Machine.exec (.msRelease src m) s = .next (after s
       ((d.setSlot m { d.slot m with state := .idle }).slotFreed.breakLock .mst 0 off)))) ∧
  (∀ (s : State) (src : Source) (m : Fin 16), s.dev.coreOn = true →
     let d := s.dev.quiet
     let off := (MST.MS_CMD.at m).off
     let inst := match d.trig m with
       | 1 => some (d.atRegs m)
       | 2 => d.edgeInstant m (d.now + d.leadNs m)
       | 3 => d.frameInstant m (d.now + d.leadNs m)
       | _ => none
     let x := match inst with | some t => d.setAtRegs m t | none => d
     let e := x.setSlot m { x.slot m with state := .checking, instant := inst }
     Accepts d src .mst 0 off 2 →
       (¬ (d.trig m = 1 ∧ d.atRegs m ≤ d.now) → Machine.exec (.msCheck src m) s = .next (after s
         (({ e with mst := { e.mst with queue := e.mst.queue ++ [⟨m, false, e.now, inst, none⟩] } } : Dev).breakLock .mst 0 off))) ∧
       (d.trig m = 1 ∧ d.atRegs m ≤ d.now → Machine.exec (.msCheck src m) s = .next (after s
         (((((e.notChecked m).dropChecks m).slotMiss m .expired MST.E_SLOT_EXPIRED MST.MS_EXPIRED_CNT (wd 0))).breakLock .mst 0
           off)))) ∧
  (∀ (s : State) (src : Source) (m : Fin 16) (page : Fin 32768) (more : Fin 256), s.dev.coreOn = true →
     let d := s.dev.quiet
     let off := MST.MS_BIND_REQ.off
     let pages := (List.range (more.val + 1)).map fun k => (page.val + k) * 0x1000
     (Accepts d src .mst 0 off (bindReqWord false m page more) →
       let e := pages.foldl (fun (e : Dev) p => e.setBind p ⟨m, true, 0⟩) d
       Machine.exec (.msBind src m page more) s = .next (after s
         ((e.setSlot m { e.slot m with scope := (e.slot m).scope ++ pages.filter fun p => !((e.slot m).scope.contains p) }).breakLock
           .mst 0 off))) ∧
     (Accepts d src .mst 0 off (bindReqWord true m page more) →
       let mine := pages.filter fun p => (d.slot m).scope.contains p
       let e := mine.foldl (fun (e : Dev) p => e.setBind p ⟨m, false, (d.slot m).state.code⟩) d
       Machine.exec (.msUnbind src m page more) s = .next (after s
         ((e.setSlot m { e.slot m with scope := (d.slot m).scope.filter fun p => !(mine.contains p) }).breakLock .mst 0 off))))

/-- `CHECK_START` and `CHECK_END`, in every state of the checker. When it is free it takes the oldest of its queue,
which then starts; a `TRY` whose own instant has come while it waited is not made, and its slot expires or is cancelled.
A check ends within the bound of R57 from its start. A try reports and arms nothing. A check of a CHECKING slot that
finds nothing arms it, or applies it at once when its trigger is IMMEDIATE; one with violations refuses it, with the
first rule in the notice; one whose instant has come reports NOT RUN and expires; a cancel that waited takes effect. A
checker that runs or has nothing to run starts nothing, and one that runs nothing ends nothing. Rules: R45, R56, R57,
R58, R60, R555. Where the spec is silent it rests on the model's choices of log entries 24, 25, 26, 27, 28, 31, 152. -/
def Obligations.CheckerCompletes : Prop :=
  ∀ s : State, s.dev.coreOn = true →
    let d := s.dev.quiet
    (∀ j t, d.mst.running = none → d.mst.queue = j :: t → (∀ u, d.lateAt j.slot = some u → j.isTry = true → d.now < u) →
      Machine.exec .checkStart s = .next (after s
        (({ d with mst := { d.mst with running := some { j with start := some d.mono }, queue := t } } : Dev).setF chkPg HDR.BUSY 1))) ∧
    (∀ j t u, d.mst.running = none → d.mst.queue = j :: t → d.lateAt j.slot = some u → j.isTry = true → u ≤ d.now →
      Machine.exec .checkStart s = .next (after s (if (d.slot j.slot).cancel then ((d.notChecked j.slot).dropChecks j.slot).slotCancel j.slot
        else d.slotExpire j.slot false))) ∧
    (d.mst.running ≠ none ∨ d.mst.queue = [] → Machine.exec .checkStart s = .next (after s d)) ∧
    (∀ dt : Nat, d.mst.running = none → Machine.exec (.checkEnd dt) s = .next (after s d)) ∧
    (∀ (dt : Nat) (j : CheckJob), d.mst.running = some j →
      let m := j.slot
      let held := if j.isTry then j.inst else (d.slot m).instant
      let bound := d.checkBound m (if d.trig m = 0 then some d.now else held)
      let e := d.pass (Nat.min dt (j.start.getD d.mono + bound - d.mono))
      let free := ({ e with mst := { e.mst with running := none } } : Dev).setF chkPg HDR.BUSY 0
      let fs := e.findings m (if d.trig m = 0 then some e.now else held)
      let rep := free.checkReport m j.isTry fs
      let ends := fun x : Dev => Machine.exec (.checkEnd dt) s = .next (after s x)
      (j.isTry = true → ends (if (rep.slot m).cancel then rep.slotCancel m else rep)) ∧
      (j.isTry = false → (d.slot m).state ≠ .checking → ends free) ∧
      (j.isTry = false → (d.slot m).state = .checking →
        (∀ t, (d.slot m).instant = some t → t ≤ e.now → ends ((free.setChkStat m 3 0 false false).slotLate m false)) ∧
        ((∀ t, (d.slot m).instant = some t → e.now < t) →
          ((d.slot m).cancel = true → ends (rep.slotCancel m)) ∧
          ((d.slot m).cancel = false →
            (fs = [] → rep.trig m ≠ 0 → ends ((rep.slotTo m .armed).armPages m)) ∧
            (fs = [] → rep.trig m = 0 → ends (rep.applySlots (m :: rep.slotsAt rep.now) rep.now)) ∧
            (∀ f l, fs = f :: l → ends (rep.slotMiss m .refused MST.E_SLOT_REFUSED MST.MS_REFUSED_CNT (wd f.v.2)))))))

/-- `MILESTONE_APPLY` and `SLOT_EXPIRED`, in every state of the slot. Device time reaches the instant of an ARMED slot
that none comes before, and every ARMED slot of that instant applies on the same edge: bindings that may not be made are
refused, every changed register of every page in the scopes takes its staged value, the slots and pages report, and then
the blocks act on what changed. A CHECKING slot whose instant is reached, or one whose waiting `TRY` has its own instant
reached, expires unless a cancel waits. A slot that is not ARMED, or not CHECKING, stays as it is. Rules: R45, R62, R63,
R64, R65, R276. Where the spec is silent it rests on the model's choices of log entries 8, 25, 26, 27, 28, 31, 121, 146.
-/
def Obligations.InstantsComplete : Prop :=
  ∀ (s : State) (m : Fin 16), s.dev.coreOn = true →
    let d := s.dev.quiet
    (∀ t, (d.slot m).instant = some t → (d.slot m).state = .armed → d.armedBefore t = false →
      let at_ := d.reach t
      let ms := d.slotsAt t
      let pages := ms.flatMap fun k => at_.viewPages k
      let xs := pages.flatMap fun p => at_.pageChanges pages p
      let d1 := pages.foldl (fun (e : Dev) p => e.bindNotes pages p) at_
      let d2 := xs.foldl (fun (e : Dev) x => e.put (pg x.cls x.idx + x.off) x.new) d1
      let d3 := ms.foldl (fun (e : Dev) k => (e.setAtRegs k t).slotApplied k) d2
      let d4 := xs.foldl (fun (e : Dev) x => e.changeActs t (ms.head?.getD 0) x) d3
      Machine.exec (.milestoneApply m) s = .next (after s (ms.foldl (fun (e : Dev) k => e.slotAfter k) d4))) ∧
    ((d.slot m).state ≠ .armed ∨ (∀ t, (d.slot m).instant = some t → d.armedBefore t = true) →
      Machine.exec (.milestoneApply m) s = .next (after s d)) ∧
    (∀ t, d.lateAt m = some t → (d.slot m).cancel = false →
      let e := d.reach t
      Machine.exec (.slotExpired m) s = .next (after s
        (((if (d.slot m).state = .armed then e else e.notChecked m).dropChecks m).slotMiss m .expired MST.E_SLOT_EXPIRED
          MST.MS_EXPIRED_CNT (wd 0)))) ∧
    (∀ t, d.lateAt m = some t → (d.slot m).cancel = true → Machine.exec (.slotExpired m) s = .next (after s
      ((((d.reach t).notChecked m).dropChecks m).slotCancel m))) ∧
    (d.lateAt m = none → Machine.exec (.slotExpired m) s = .next (after s d))

/-! ### Ports, groups and dies -/

/-- The common-mode monitor of a running input port: a measurement is shown with the external DC it implies, and a run
of windows on the other side of the threshold is counted; after the hold `DC_PRESENT` changes over, is counted and
reported. A source-impedance survey: the accepted write of `SURVEY_GO` on an input port in STOPPED with mode SURVEY,
which changes nothing else of `CELL_CTL`, begins it, 120 ms long, with the test tone at the pins, unless external DC is
present; its end stops the tone, reports resistance and reactance, open, or short, raises `SURVEY_END`, and the port
leaves the state. Rules: R83, R85, R87. Where the spec is silent it rests on the model's choices of log entries 16, 50,
148. -/
def Obligations.InputPortsComplete : Prop :=
  (∀ (s : State) (i : Fin 144), s.dev.coreOn = true →
     let d := s.dev.quiet
     let q := pg .port i
     d.flag q PORT.DIR = false → d.st q ≠ 0 → d.st q ≠ 4 →
       (∀ mv : BitVec 13,
         let ext := extDc (d.fld q PORT.SENSE_R) mv.toNat
         let e := ((d.setF q PORT.CM_MV mv.toNat).setF q PORT.EXT_DC ext.1).setFlag q PORT.EXT_NEG ext.2
         let far := decide (10 * d.fld q PORT.THR < Int.natAbs ((mv.toNat : Int) - 2500))
         Machine.exec (.cmUpdate i mv) s = .next (after s (e.setPort i { e.port i with
           cmRun := if far = d.flag q PORT.DC_PRESENT then none else some (((e.port i).cmRun.map (· + 1)).getD 0) }))) ∧
       (∀ n, (d.port i).cmRun = some n → d.fld q PORT.CM_CFG_HOLD ≤ n →
         let on := !(d.flag q PORT.DC_PRESENT)
         Machine.exec (.dcPresentChange i) s = .next (after s
           ((((d.setFlag q PORT.DC_PRESENT on).count q PORT.DC_CHG_CNT).setPort i { d.port i with cmRun := none }).raise q
             (if on then PORT.E_DC_ON else PORT.E_DC_OFF))))) ∧
  (∀ (s : State) (src : Source) (i : Fin 144) (v : Word), s.dev.coreOn = true →
     let d := s.dev.quiet
     let q := pg .port i
     (let old := d.reg q PORT.CELL_CTL
      let w := v ||| 0x10
      let e := d.setReg q PORT.CELL_CTL ((old &&& ~~~(0x1107 : Word)) ||| (w &&& 0x1107) ||| (w &&& 0x10))
      let new := (old &&& ~~~(0x1117 : Word)) ||| (w &&& 0x1117)
      Accepts d src .port i PORT.CELL_CTL.off w → e.portWanted i = true → e.st q = 1 → e.fld q PORT.IN_MODE = 6 →
      e.flag q PORT.DIR = false → e.flag q PORT.DC_PRESENT = false → e.flag q PORT.RUN = false →
      fieldOf PORT.SURVEY_GO old = 0 → fieldOf PORT.SURVEY_GO new = 1 → fieldOf PORT.RUN old = 0 → fieldOf PORT.RUN new = 0 →
      fieldChanged PORT.DIR old new = false → fieldChanged PORT.IN_MODE old new = false →
        let f := ((e.send (.testTone i false true)).setSt q 4).setF q PORT.NET 6
        Machine.exec (.surveyGo src i v) s = .next (after s
          ((f.setPort i { f.port i with due := e.mono + 120000000, pend := false }).breakLock .port i PORT.CELL_CTL.off))) ∧
     (∀ (ohms : Nat) (x : Int), d.st q = 4 →
       let e := (d.pass ((d.port i).due - d.mono)).send (.testTone i false false)
       let mag2 : Int := (ohms : Int) * ohms + x * x
       let status := if mag2 < 400 then 3 else if 1000000000000 < mag2 then 2 else 1
       let f := if status = 1 then
           (e.setReg q PORT.SURVEY_RES (wd (2 ^ 28 + Nat.min ohms 1000000))).setReg q PORT.SURVEY_X (wd (scode 24 x))
         else (e.setReg q PORT.SURVEY_RES (wd (status * 2 ^ 28))).setReg q PORT.SURVEY_X 0
       let g := ((f.setF q PORT.SURVEY_GO 0).raise q PORT.E_SURVEY_END).enterStopped i
       Machine.exec (.surveyEnd i ohms x) s = .next (after s ((g.setPort i { g.port i with run := false }).runCheck i))))

/-- Recovery of a port in FAULT whose cause has gone: an input port, or an output port that lacked a slice, goes to
STOPPED and tells with which cause it entered FAULT; a temperature below the warning level lets every port of the die
that stopped for heat recover. The clock of a group: when its generator runs it locks, aligns captures to the grid edge
of now, lets ports that stopped for the clock recover, and its rotation period begins; when it unlocks it is counted,
reported, and every port of the group that is on goes to FAULT. Supply, temperature and reference inputs of a port die:
a droop mutes every output of the device; the loss of a supply reports, faults the die's ports and, when VAP is lost,
lets go of the clamps; its return clamps, lets ports recover and starts calibration; a rising temperature warns at its
level, faults at 115 °C once; a reference input is shown with its amplitude, and a change of presence reported. Rules:
R95, R97, R104, R153, R324. Where the spec is silent it rests on the model's choices of log entries 12, 41, 43, 46, 147.
-/
def Obligations.PortsAndDiesComplete : Prop :=
  (∀ (s : State) (i : Fin 144), s.dev.coreOn = true →
     let d := s.dev.quiet
     let q := pg .port i
     let k := i.val / 36
     (let cause := d.fld q PORT.FAULT_CAUSE
      d.st q = 5 → d.causeGone i = true → (d.flag q PORT.DIR = false ∨ cause = 1) → (d.die k).lost = false → (d.die k).hot = false →
        let e := (((if cause = 1 then (d.obtain i).getD d else d).setF q PORT.FAULT_CAUSE 0).stageTakes i).enterStopped i
        let f := (if e.drives i then e.suspendEnd i else e).pfCheck i
        let h := f.setPort i { f.port i with run := false, tail := [] }
        Machine.exec (.portRecover i none) s = .next (after s
          (((h.raise q PORT.E_PORT_RECOVER 0 (wd ((h.port i).faultWas * 2 ^ 28))).refreshGroup (i.val / 9)).runCheck i))) ∧
     (∀ t : BitVec 8, sext 8 t.toNat < sext 8 (d.fld (pg .pdie k) PDIE.WARN) →
       let e := d.setF (pg .pdie k) PDIE.TEMP t.toNat
       Machine.exec (.portRecover i (some t)) s = .next (after s ((diePorts k).foldl (fun (x : Dev) j =>
         if j = i.val ∨ x.fld (pg .port j) PORT.FAULT_CAUSE = 5 then x.portRecover j else x)
           (e.setDie k { e.die k with hot := false }))))) ∧
  (∀ (s : State) (g : Fin 16), s.dev.coreOn = true →
     let d := s.dev.quiet
     let p := pg .pgrp g
     (d.grpOn g = true → d.flag p PGRP.LOCKED = false → d.mcgRuns (d.fld p PGRP.MCG) = true →
       let e := (d.setF p PGRP.LOCKED 1).raise p PGRP.E_CLK_LOCK
       let f := (e.setReg p PGRP.CAP_ALIGN (wd (edgeAt (baseRate (d.fld p PGRP.FAMILY)) d.now))).raise p PGRP.E_PHASE_ALIGN
       let h := (List.range 9).foldl (fun (x : Dev) j =>
         if x.st (pg .port (g.val * 9 + j)) = 5 ∧ x.fld (pg .port (g.val * 9 + j)) PORT.FAULT_CAUSE = 2 then
           x.portRecover (g.val * 9 + j) else x.runCheck (g.val * 9 + j)) f
       Machine.exec (.groupLock g) s = .next (after s
         ((((h.regridGroup g).calRestart g).setGroup g { h.group g with dueAt := d.mono + d.fld p PGRP.ROT_PERIOD * 100000000 }).audioReady))) ∧
     (d.flag p PGRP.LOCKED = true →
       let e := ((d.setF p PGRP.LOCKED 0).count p PGRP.UNLOCK_CNT).raise p PGRP.E_CLK_UNLOCK
       Machine.exec (.groupUnlock g) s = .next (after s
         ((((List.range 9).foldl (fun (x : Dev) k =>
           if 1 ≤ x.st (pg .port (g.val * 9 + k)) ∧ x.st (pg .port (g.val * 9 + k)) ≤ 4 then x.portFault (g.val * 9 + k) 2 else x)
           e).regridGroup g).calRestart g)))) ∧
  (∀ (s : State) (k : Fin 4), s.dev.coreOn = true →
     let d := s.dev.quiet
     let p := pg .pdie k
     (∀ mv : BitVec 16, d.flag p PDIE.DROOP = false → Machine.exec (.vapDroop k mv) s = .next (after s
       (((d.setF p PDIE.VAP_MV mv.toNat).setF p PDIE.DROOP 1).raise p PDIE.E_VAP_DROOP).pfMuteAll)) ∧
     (∀ vap vapl : BitVec 16,
       let e := ((d.setReg p PDIE.DIE_SUPPLY (wd (vapl.toNat * 65536 + vap.toNat))).setFlag p PDIE.VAP_OK
         (decide (4750 ≤ vap.toNat ∧ vap.toNat ≤ 5250))).setFlag p PDIE.VAPL_OK (decide (1710 ≤ vapl.toNat ∧ vapl.toNat ≤ 1890))
       (d.flag p PDIE.VAP_OK = true → d.flag p PDIE.VAPL_OK = true → (e.flag p PDIE.VAP_OK && e.flag p PDIE.VAPL_OK) = false →
         let f := (e.setDie k { e.die k with lost := true }).raise p PDIE.E_SUPPLY_LOST
         let g := ((diePorts k).foldl (fun (x : Dev) i =>
           if 1 ≤ x.st (pg .port i) ∧ x.st (pg .port i) ≤ 4 then x.portFault i 3 else x) f).dieCalLost k
         Machine.exec (.supplyLost k vap vapl) s = .next (after s (g.dieClamps k))) ∧
       ((d.flag p PDIE.VAP_OK && d.flag p PDIE.VAPL_OK) = false → e.flag p PDIE.VAP_OK = true → e.flag p PDIE.VAPL_OK = true →
         let h := e.dieClamps k
         let f := (h.setDie k { h.die k with lost := false }).raise p PDIE.E_SUPPLY_BACK
         Machine.exec (.supplyBack k vap vapl) s = .next (after s
           (((diePorts k).foldl (fun (x : Dev) i =>
             if x.st (pg .port i) = 5 ∧ x.fld (pg .port i) PORT.FAULT_CAUSE = 3 then x.portRecover i else x) f).dieCalStart k)))) ∧
     (∀ t : BitVec 8,
       let e := d.setF p PDIE.TEMP t.toNat
       Machine.exec (.tempWarn k t) s = .next (after s
         (if sext 8 (d.fld p PDIE.TEMP) < sext 8 (d.fld p PDIE.WARN) ∧ sext 8 (d.fld p PDIE.WARN) ≤ sext 8 t.toNat then
           e.raise p PDIE.E_TEMP_WARN else e))) ∧
     (∀ t : BitVec 8, 115 ≤ sext 8 t.toNat → (d.die k).hot = false →
       let e := ((d.setF p PDIE.TEMP t.toNat).setDie k { d.die k with hot := true }).raise p PDIE.E_TEMP_FAULT
       Machine.exec (.tempFault k t) s = .next (after s ((diePorts k).foldl (fun (x : Dev) i =>
         if 1 ≤ x.st (pg .port i) ∧ x.st (pg .port i) ≤ 4 then x.portFault i 5 else x) e))) ∧
     (∀ (i : Fin 2) (mv : BitVec 16),
       let was := d.flag p (PDIE.PRESENT.at i)
       let now := decide (d.fld p (PDIE.KIND.at i) ≠ 0) && decide (100 < mv.toNat)
       let e := (d.setF p (PDIE.AMPL_MV.at i) mv.toNat).setFlag p (PDIE.PRESENT.at i) now
       let z := (d.setF p (PDIE.AMPL_MV.at i) mv.toNat).setFlag p (PDIE.PRESENT.at i) false
       (was = false → Machine.exec (.refinFound k i mv) s = .next (after s
         (if now then e.raise p PDIE.E_REFIN_FOUND (wd i) (e.reg p (PDIE.REFIN_STAT.at i)) else e))) ∧
       (was = true →
         let f := z.raise p PDIE.E_REFIN_LOST (wd i) (z.reg p (PDIE.REFIN_STAT.at i))
         f.flag p (PDIE.PRESENT.at i) = false →
         Machine.exec (.refinLost k i mv) s = .next (after s
           (if f.servo = 2 ∧ f.fld tmPg TIME.SRC = 2 ∧ f.fld tmPg TIME.REFIN = k * 2 + i then f.toHoldover 2 else f)))))

/-- Capture: the first edge of the group clock at or after the entry into SYNCING resets the word index and shows its
time; every word of the run that emits, the oldest ended run first, moves on the PGA, a coefficient swap, the fast
values due by then, the detectors, the clip report, the statistics and the flow word that leaves with the word's
timestamp, and none is sent where no run emits; a detector whose signal has stayed low falls after its hold. The
coefficient banks of a port: a coefficient goes to the bank that is not in use; a new `ACT_BANK` asks for a swap at the
next word and shows the latency again, and back at the bank in use no swap is pending; `FORCE` stands while a swap is
pending and clears otherwise; the swap is made at a word when it is wanted. Rules: R111, R112, R114, R122, R123, R128.
Where the spec is silent it rests on the model's choices of log entries 8, 16, 48, 50, 113, 121, 146, 149, 154, 156. -/
def Obligations.CaptureCommandsComplete : Prop :=
  (∀ (s : State) (d : Dev) (i : Fin 144), s.dev.coreOn = true → d = s.dev.quiet →
     let q := pg .port i
     (d.st q = 2 → (d.port i).pend = true →
       let k := edgeAt (d.grpRate i) (d.port i).entered
       let t := edgeTime (d.grpRate i) k
       let e := d.reach t
       let f := e.setPort i { e.port i with
         run := true, pend := false, cap := e.newRun i (d.grpRate i) k, outPreset := d.fld q PORT.OUT_PRESET,
         oidx := presetLat (d.fld q PORT.OUT_PRESET), xf := none, mark := none,
         src := (d.fld q PORT.SRC_FLOW, d.fld q PORT.SRC_CH), srcNext := [] }
       Machine.exec (.syncReset i) s = .next (after s
         (if d.flag q PORT.DIR then f
          else (((f.setReg q PORT.CAP_T0_NS (nsWord t)).setReg q PORT.CAP_T0_SEC_LO (secWord t)).setReg q PORT.CAP_T0_SEC_HI
            (wd (t / 1000000000 / 2 ^ 32 % 65536))).setReg q PORT.WORD_CNT 0))) ∧
     (∀ (a : SliceWord) (b : Option SliceWord) (r : CapRun) (stop : Option Nat), d.emitRun i = some (r, stop) →
       Machine.exec (.wordEmit i a b) s = .next (after s (
         let n := r.idx
         let t := r.time n
         let e := (((d.reach (r.time n r.lat)).pgaStep i).swapAtWord i n t).takeInputs i r.fastDue a b
         let x := (List.range r.fastDue).foldl (Dev.fastStep i stop a (b.getD a)) (e, r)
         let w := x.1.wordBody i x.2 n a (b.getD a)
         let sample := if w.live then some (mag24 w.val) else none
         let ra := x.1.detPeriod i 0 t sample (x.2.flagsOf n).1
         let rb := ra.1.detPeriod i 1 t sample (x.2.flagsOf n).2
         let f := (rb.1.clipNote i t w).wordStats i t stop.isSome w
         let mark := w.live && stop.isNone && decide ((x.1.port i).mark = some n)
         (f.wordSend i x.2 stop (w.word ra.2 rb.2 mark)).wordFollow i x.2 stop))) ∧
     (∀ (a : SliceWord) (b : Option SliceWord), d.emitRun i = none → Machine.exec (.wordEmit i a b) s = .next (after s d)) ∧
     (∀ k : Fin 2, d.flag q (PORT.EN.at k) = true → d.flag q (thrStat k) = true →
       d.fld q (PORT.THR_HOLD_HOLD.at k) ≤ (d.port i).low k + 1 →
       Machine.exec (.thrFall i k) s = .next (after s
         (((d.setF q (thrStat k) 0).setPort i ((d.port i).setLow k 0)).raiseAt q
           (if k.val = 0 then PORT.E_THR_A_FALL else PORT.E_THR_B_FALL) (d.wordTime i (d.cap i).idx))))) ∧
  (∀ (s : State) (src : Source) (i : Fin 144) (v : Word), s.dev.coreOn = true →
     let d := s.dev.quiet
     let q := pg .port i
     (∀ k : Fin 64,
       let f := PORT.FIR_COEF.at k
       let new := (d.reg q f &&& ~~~(0xFFFFFF : Word)) ||| (v &&& 0xFFFFFF)
       let e := d.setReg q f new
       let bank := 1 - e.fld q PORT.BANK_IN_USE
       let coef := Tab.put e.an.coef (i * 128 + bank * 64 + k) (new &&& 0xFFFFFF) (if k.val = 0 then 0x400000 else 0)
       Accepts d src .port i f.off v → Machine.exec (.firCoefWrite src i k v) s = .next (after s
         ((({ e with an := { e.an with coef := coef } } : Dev).put (q + f.off) (resetWord (q + f.off))).breakLock .port i f.off))) ∧
     (let new := (d.reg q PORT.CAP_CTL &&& ~~~(0x3F0117 : Word)) ||| (v &&& 0x3F0117)
      let e := d.setReg q PORT.CAP_CTL new
      let l := e.setF q PORT.LAT_TOT (e.latTot i)
      let f := l.setPort i { l.port i with capOld := (l.port i).capOld.filter fun x => decide (x.1 ≠ PORT.CAP_CTL.off) }
      Accepts d src .port i PORT.CAP_CTL.off v → fieldChanged PORT.ACT_BANK (d.reg q PORT.CAP_CTL) new = true →
        (f.swapWanted i = true →
          let g := f.setPort i { f.port i with swapAt := 0 }
          Machine.exec (.bankSwap src i v) s = .next (after s
            ((if (g.port i).run ∧ g.inXfade i (g.cap i).idx then g.swapDefer i (g.cap i).idx else g).breakLock .port i
              PORT.CAP_CTL.off))) ∧
        (f.swapWanted i = false → Machine.exec (.bankSwap src i v) s = .next (after s
          (((f.setF q PORT.SWAP_PENDING 0).setF q PORT.FORCE 0).breakLock .port i PORT.CAP_CTL.off)))) ∧
     (let w := v ||| 1
      let e := d.setReg q PORT.CAP_FIR_CTL ((d.reg q PORT.CAP_FIR_CTL &&& ~~~(0x100 : Word)) ||| (w &&& 0x100) ||| (w &&& 1))
      Accepts d src .port i PORT.CAP_FIR_CTL.off w → Machine.exec (.swapForce src i v) s = .next (after s
        ((if e.flag q PORT.FORCE ∧ e.flag q PORT.SWAP_PENDING = false then e.setF q PORT.FORCE 0 else e).breakLock .port i
          PORT.CAP_FIR_CTL.off))) ∧
     ((d.port i).run = true → d.swapWanted i = true →
       let n := (d.cap i).idx
       let t := d.wordTime i n
       let e := d.forceXfade i
       Machine.exec (.swapDone i) s = .next (after s
         (if e.swapWanted i ∧ (e.port i).swapAt ≤ t then
           (if e.inXfade i n then e.swapDefer i n else e.swapTakes i t) else e))))

/-- An output port's words and spans: a running port that drives fetches the word due at its next sample, a missing one
counts as an underrun in LIVE, the sequence of the port goes a word on and the sample is driven; a span begins its hold
when the gain has fallen to what it may be, ends the hold, and is done when its ramp has come to its end. Rules: R136,
R146. Where the spec is silent it rests on the model's choices of log entries 8, 46, 146, 147, 150. -/
def Obligations.OutputWordsComplete : Prop :=
  ∀ (s : State) (i : Fin 144), s.dev.coreOn = true →
    let d := s.dev.quiet
    let q := pg .port i
    let o := d.port i
    (d.drives i = true → o.run = true → d.portRuns i = true →
      Machine.exec (.outputFetch i) s = .next (after s (
        let n := o.oidx
        let t := d.sampTime i n
        let f := (d.reach t).fetch i n
        let e := (d.reach t).fetchDone i n
        let e' := e.fetchNote i t f
        let g := if e'.unmutes i n f then e'.unmute i t else e'.seqStart i n
        let h := ((g.seqStep i).driveSample i n t f).suspRefresh i
        if d.flag q PORT.DIR ∨ d.isLoop i then h.outRotFollow i n else h))) ∧
    (o.seq = 4 → o.change = true → o.stopOn = false → o.rampNew = false → o.gain.n ≤ o.gain.a →
      Machine.exec (.spanHoldStart i) s = .next (after s (d.holdBegin i))) ∧
    (o.seq = 5 → d.st q = 3 → o.holdLeft = 0 →
      Machine.exec (.spanHoldEnd i) s = .next (after s (((d.stageTakes i).suspendEnd i).startRamp i 6 (d.rampLen i)))) ∧
    (o.seq = 5 → d.st q ≠ 3 →
      Machine.exec (.spanHoldEnd i) s = .next (after s (
        let e := (d.pass (o.holdDue - d.mono)).stageTakes i
        ((e.setPort i { e.port i with spanSeq := false }).suspendEnd i).setSeq i (if d.st q = 2 then 1 else 0)))) ∧
    (o.seq = 6 → o.spanSeq = true → o.rampNew = false → o.gain.a = 0 →
      Machine.exec (.spanDone i) s = .next (after s (
        let e := (d.setSeq i 3).count q PORT.SPAN_CNT
        (e.setPort i { e.port i with spanSeq := false }).raiseAt q PORT.E_SPAN_DONE (d.sampTime i (o.oidx - 1)))))

/-- The monitors of an output port: the deviation of a window of monitor samples from the expected signal is shown,
warned of and acted on; the load's resistance and capacitance are shown, with the flags for open, short and overload,
and a short of a voltage output stops the port; the current limit stops a voltage output with cause 2, lost compliance a
current output with cause 4. The load survey of an output port and the release of the power-fail mute: an accepted
`LSV_GO` on a port that is not busy begins a survey of 50 ms, with the test tone at the pins; its end stops the tone,
shows the outcome, the length of cable that the capacitance stands for, and clears the command; the mute is released
from every muted port once the supply no longer fails. Rules: R153, R156, R158, R159, R160. Where the spec is silent it
rests on the model's choices of log entries 16, 45, 48, 147, 150, 155. -/
def Obligations.OutputMonitorsComplete : Prop :=
  (∀ (s : State) (i : Fin 144), s.dev.coreOn = true →
     let d := s.dev.quiet
     let q := pg .port i
     (∀ xs : List MonSample, d.compares i = true →
       Machine.exec (.devWindow i xs) s = .next (after s (
         let e := d.suspRefresh i
         let x := devWin (e.fld q PORT.MODE_USE) (e.fld q PORT.SPAN_USE) xs
         if e.flag q PORT.SUSP || (e.port i).suspWin then
           e.setPort i { e.port i with devRun := 0, suspWin := e.flag q PORT.SUSP }
         else (((e.setF q PORT.DEV x.code).devWarn i x).devRot i x).devPersist i x))) ∧
     (∀ (uv na ohms pf : Nat) (hf : Bool), d.flag q PORT.DIR = true → d.portRuns i = true → d.flag q PORT.SUSP = false →
       Machine.exec (.loadWindow i uv na ohms pf hf) s = .next (after s (
         let rv := decide (1000 ≤ uv ∨ 10000 ≤ na)
         let rr := if rv then (if uv < 1000 then 0 else Nat.min ohms 1000000) else 0
         let cv := decide (1000 ≤ uv) && hf
         let cc := if cv then Nat.min pf 200000 else 0
         let e := (d.setReg q PORT.LOAD_R (wd ((if rv then 2 ^ 31 else 0) + rr))).setReg q PORT.LOAD_C
           (wd ((if cv then 2 ^ 31 else 0) + cc))
         let volt := decide (d.fld q PORT.MODE_USE = 1)
         let nothing := volt && decide (10000 ≤ uv ∧ na < 1000)
         let short := rv && decide (rr < 50)
         let heavy := volt && ((rv && decide (rr < 540)) || (cv && decide (11000 < cc)))
         let f := e.loadFlags i ((if nothing then 1 else 0) + (if short then 2 else 0) + (if heavy then 8 else 0))
         if short ∧ volt then f.outFault i 3 else f))) ∧
     (d.flag q PORT.DIR = true → d.portRuns i = true → d.fld q PORT.MODE_USE = 1 →
       Machine.exec (.ilimitTrip i) s = .next (after s
         ((d.loadFlags i (bitsOf (d.reg q PORT.LOAD_STAT ||| 4) 3 0)).outFault i 2))) ∧
     (d.flag q PORT.DIR = true → d.portRuns i = true → d.fld q PORT.MODE_USE = 2 →
       Machine.exec (.complianceTrip i) s = .next (after s
         ((d.loadFlags i (bitsOf (d.reg q PORT.LOAD_STAT ||| 1) 3 0)).outFault i 4)))) ∧
  (∀ (s : State) (src : Source) (i : Fin 144) (v : Word), s.dev.coreOn = true →
     let d := s.dev.quiet
     let q := pg .port i
     (let w := trig PORT.LSV_GO v
      let e := written d q PORT.LSV_CTL 0 1 w
      Accepts d src .port i PORT.LSV_CTL.off w → e.flag q HDR.BUSY = false →
      fieldOf PORT.LSV_GO (d.reg q PORT.LSV_CTL) = 0 → fieldOf PORT.LSV_GO (heard d q PORT.LSV_CTL 1 w) = 1 →
        let f := (e.send (.testTone i true true)).setF q HDR.BUSY 1
        Machine.exec (.lsvGo src i v) s = .next (after s
          ((f.setPort i { e.port i with due := e.mono + 50000000 }).breakLock .port i PORT.LSV_CTL.off))) ∧
     (∀ pf kohm z : Nat, d.flag q PORT.LSV_GO = true →
       Machine.exec (.lsvEnd i pf kohm z) s = .next (after s (
         let e := (d.pass ((d.port i).due - d.mono)).send (.testTone i true false)
         let status := if z < 50 then 3 else if pf < 50 then 2 else if 200000 < pf then 4 else 1
         let cpm := d.fld q PORT.CPM
         let len := if status = 1 then Nat.min 0xFFFF ((20 * pf + cpm) / (2 * cpm)) else 0
         let f := e.setReg q PORT.LSV_RES (wd (status * 2 ^ 28 + (if status = 1 then pf else 0)))
         let g := f.setReg q PORT.LSV_LEN (wd (Nat.min kohm 1000 * 65536 + len))
         ((g.setF q PORT.LSV_GO 0).setF q HDR.BUSY 0).raise q PORT.E_LSV_END))) ∧
     (d.flag (pg .pwr 0) PWR.PFAIL = false →
       Machine.exec .pfMuteRelease s = .next (after s (
         (List.range 144).foldl (fun (e : Dev) k =>
             let q := pg .port k
             if e.flag q PORT.PF_MUTE then
               let f := e.setF q PORT.PF_MUTE 0
               let x := f.showSeq k
               let o := x.port k
               let g := if x.hidden k ∨ x.st q ≠ 3 ∨ o.seq < 2 ∨ o.seq = 4 ∨ o.seq = 5 ∨ o.seq = 7 then x
                 else
                   let y := (x.setGain k Gain.zero).setSeq k (if o.seq = 6 then 6 else 2)
                   y.setPort k { y.port k with rampN := (x.fld q PORT.RAMP_TIME * x.outRate k + 5000) / 10000, rampNew := true }
               let z := g.suspendEnd k
               let h := z.clamp k (decide (z.st q = 0 ∨ z.st q = 5))
               h.raise q PORT.E_PF_MUTE 0 (nsWord d.now) (secWord d.now)
             else e)
           ((List.range 4).foldl (fun e k => e.setF (pg .pdie k) PDIE.DROOP 0) d)))))

/-- The calibration of a slice and the checks of a die's references: a step that passes adds to the trims the slice will
take and goes to the next step, or ends the calibration, or ends a quick check after power-up; a step that fails retires
a slice given from outside and makes any other SUSPECT. A good reference is shown and counts its 10 s while the group
waits for it, a bad one holds rotation and restarts calibration; a bad tone is told once. Rules: R165, R169, R191. Where
the spec is silent it rests on the model's choices of log entries 43. -/
def Obligations.CalibrationCompletes : Prop :=
  ∀ (s : State), s.dev.coreOn = true →
    let d := s.dev.quiet
    (∀ (g : Fin 16) (sl : Fin 10) (pass : Bool) (adc dac : Word),
      let p := pg .pgrp g
      let step := d.fld p (PGRP.STEP.at sl)
      let quick := (d.slice g sl).boot
      let dq := d.pass ((d.slice g sl).stepDue - d.mono)
      let e := if quick ∧ (pass = false ∨ step = 3) then dq.setSlice g sl { dq.slice g sl with boot := false } else dq
      step ≠ 0 →
        (pass = true → quick = true → step = 3 → Machine.exec (.calStepDone g sl pass adc dac) s = .next (after s
          (((((e.setSl g sl 0 15).calStep g sl 0).refreshGroup g).sliceFreed g).calsDone))) ∧
        (pass = true → quick = false →
          let v := e.slice g sl
          let f := e.setSlice g sl { v with
            newAdc := stepTrim step (if step = 1 then d.reg p (PGRP.SLICE_TRIM_ADC.at sl) else v.newAdc) adc,
            newDac := stepTrim step (if step = 1 then d.reg p (PGRP.SLICE_TRIM_DAC.at sl) else v.newDac) dac }
          (∀ n, f.nextStep g sl step = some n →
            Machine.exec (.calStepDone g sl pass adc dac) s = .next (after s (f.calStep g sl n))) ∧
          (f.nextStep g sl step = none →
            Machine.exec (.calStepDone g sl pass adc dac) s = .next (after s (f.calDone g sl)))) ∧
        (pass = false → Machine.exec (.calStepDone g sl pass adc dac) s = .next (after s
          (((if (d.slice g sl).ext then e.retire g sl (if step = 6 then 10 else step)
             else e.suspect g sl (if step = 6 then 10 else step)).refreshGroup g).calsDone)))) ∧
    (∀ (k : Fin 4) (ppm : Int),
      let p := pg .pdie k
      let e := d.setF p PDIE.REF_DEV (scode 16 ppm)
      let hold := d.flag (pg .pgrp (k.val * 4)) PGRP.REF_HOLD
      (ppm.natAbs ≤ 500 → hold = true → Machine.exec (.refCheck k ppm) s = .next (after s
        (e.setDie k { e.die k with refGood := some ((e.die k).refGood.getD e.mono) }))) ∧
      (ppm.natAbs ≤ 500 → hold = false → Machine.exec (.refCheck k ppm) s = .next (after s
        (((e.setF p PDIE.REF_OK 1).setDie k { e.die k with refFirst := false }).audioReady))) ∧
      (500 < ppm.natAbs →
        let f := (e.setF p PDIE.REF_OK 0).setDie k { e.die k with refGood := none }
        (hold = true → Machine.exec (.refCheck k ppm) s = .next (after s f)) ∧
        (hold = false → Machine.exec (.refCheck k ppm) s = .next (after s
          ((dieGroups k).foldl (fun x g => (x.setF (pg .pgrp g) PGRP.REF_HOLD 1).calRestart g) (f.raise p PDIE.E_REF_FAULT)))))) ∧
    (∀ (k : Fin 4) (t : Nat), (d.die k).refGood = some t → d.flag (pg .pgrp (k.val * 4)) PGRP.REF_HOLD = true →
      let p := pg .pdie k
      let e := d.pass (t + 10000000000 - d.mono)
      let f := ((e.setDie k { e.die k with refGood := none, refFirst := false }).setF p PDIE.REF_OK 1).raise p PDIE.E_REF_OK
      Machine.exec (.refOk k) s = .next (after s
        (((dieGroups k).foldl (fun x g => (x.setF (pg .pgrp g) PGRP.REF_HOLD 0).laybyRestart g) f).audioReady))) ∧
    (∀ (k : Fin 4) (thd : Nat),
      let p := pg .pdie k
      let e := d.setF p PDIE.TONE_THD (Nat.min thd 1600)
      (1300 < thd → Machine.exec (.toneCheck k thd) s = .next (after s
        (((e.setF p PDIE.TONE_OK 1).setDie k { e.die k with toneFault := false }).audioReady))) ∧
      (thd ≤ 1300 → (d.die k).toneFault = true → Machine.exec (.toneCheck k thd) s = .next (after s (e.setF p PDIE.TONE_OK 0))) ∧
      (thd ≤ 1300 → (d.die k).toneFault = false → Machine.exec (.toneCheck k thd) s = .next (after s
        (((e.setF p PDIE.TONE_OK 0).setDie k { e.die k with toneFault := true }).raise p PDIE.E_TONE_FAULT)))) ∧
    (∀ (g : Fin 16) (sl : Fin 10), d.slState g sl = 2 ∨ d.slState g sl = 3 ∨ d.slState g sl = 5 →
      (d.slice g sl).stale = false → d.fld (pg .pgrp g) PGRP.AGE_MAX * 10 < d.sliceAge g sl →
        Machine.exec (.calStale g sl) s = .next (after s
          ((d.setSlice g sl { d.slice g sl with stale := true }).raise (pg .pgrp g) PGRP.E_CAL_STALE (globalSlice g sl)
            (d.sliceCalWord g sl))))

/-- Rotation of the slices of a group: a rotation that is due waits for the oldest slice, or for the next period where
no slice may go; an accepted `HO_REQ` starts the rotation of the port it asks for with the best slice in lay-by, or
waits where rotation is barred, the port has none to give or no slice is ready; a write of `FREEZE` freezes or frees
rotation. A slice handover in flight: a block of the comparison is judged on the pairs of words that both slices gave, a
deferred one goes on block by block and ends with result 2 when it has been deferred too long; the crossfade ends the
handover with result 0; a failing slice is told with its port and acted on by the state it is in; a repair that waits
for no rotation is taken up. Rules: R170, R172, R174, R176, R178, R186, R187. Where the spec is silent it rests on the
model's choices of log entries 8, 16, 42, 45, 146, 155. -/
def Obligations.RotationCommandsComplete : Prop :=
  (∀ (s : State) (src : Source) (g : Fin 16), s.dev.coreOn = true →
     let d := s.dev.quiet
     let p := pg .pgrp g
     (d.rotBarred g = false →
       let e := d.pass ((d.group g).dueAt - d.mono)
       (e.rotOldest g ≠ none → Machine.exec (.rotationDue g) s = .next (after s
         ((e.setGroup g { e.group g with waits := true }).rotTry g))) ∧
       (e.rotOldest g = none → Machine.exec (.rotationDue g) s = .next (after s
         (e.setGroup g { e.group g with dueAt := e.mono + e.fld p PGRP.ROT_PERIOD * 100000000 })))) ∧
     (∀ port : Fin 16,
       let w := trig PGRP.GO (setField PGRP.HO_REQ_PORT port 0)
       Accepts d src .pgrp g PGRP.HO_REQ.off w → fieldOf PGRP.GO (heard d p PGRP.HO_REQ 0x10f w) = 1 →
         let e := written d p PGRP.HO_REQ 0xf 0x100 w
         (∀ k old kind new, e.rotBarred g = false → e.hoAsked g = some (k, old, kind) → e.bestIn g 0 = some new →
           Machine.exec (.hoReq src g port) s = .next (after s ((e.rotStart g k old new kind).breakLock .pgrp g PGRP.HO_REQ.off))) ∧
         (e.rotBarred g = true ∨ e.hoAsked g = none ∨ e.bestIn g 0 = none →
           Machine.exec (.hoReq src g port) s = .next (after s (e.breakLock .pgrp g PGRP.HO_REQ.off)))) ∧
     (∀ v : Word,
       let w := trig PGRP.FREEZE v
       Accepts d src .pgrp g PGRP.ROT_CTL.off w →
         Machine.exec (.freeze src g v) s = .next (after s
           (((written d p PGRP.ROT_CTL 0x80001fff 0 w).freeze g).breakLock .pgrp g PGRP.ROT_CTL.off)))) ∧
  (∀ (s : State) (g : Fin 16), s.dev.coreOn = true →
     let d := s.dev.quiet
     let p := pg .pgrp g
     (∀ (r : Rot) (ws : List (Int × Int)), (d.group g).rot = some r → r.phase ≤ 3 → r.stopped = false → r.defer = none →
       Machine.exec (.hoCompareResult g ws) s = .next (after s
         ((d.reach (d.hoTime (g * 9 + r.port) r.kind r.result)).cmpResult g { r with phase := 3 } (cmpWords ws)))) ∧
     (∀ (r : Rot) (ws : List (Int × Int)), (d.group g).rot = some r → r.phase ≤ 3 → r.defer ≠ none →
       Machine.exec (.hoDeferBlock g ws) s = .next (after s
         ((if r.stopped then d else d.reach (d.hoTime (g * 9 + r.port) r.kind r.result)).cmpResult g r (cmpWords ws)))) ∧
     (∀ (r : Rot) (t : Nat), (d.group g).rot = some r → r.defer = some t → r.phase ≤ 3 →
       Machine.exec (.hoDeferTimeout g) s = .next (after s
         (((d.pass (t + d.fld p PGRP.DEFER_MAX * 100000000 - d.mono)).endRot g 2 0).sliceFreed g))) ∧
     (∀ r : Rot, (d.group g).rot = some r → r.phase = 6 → d.xfadeOver g r = true →
       Machine.exec (.xfadeEnd g) s = .next (after s ((d.endRot g 0 0).sliceFreed g))) ∧
     (∀ (sl : Fin 10) (det : SliceDetector), d.slState g sl ≠ 7 →
       let st := d.slState g sl
       let code := detCode det
       let port := if st = 2 ∨ st = 3 ∨ st = 5 then g * 9 + d.fld p (PGRP.SLICE_MAP_PORT.at sl) else 255
       let e := d.raiseH p PGRP.E_SLICE_FAIL (wd (port * 65536 + (g * 10 + sl))) (wd (code - 5))
       Machine.exec (.sliceFail g sl det) s = .next (after s
         ((if st = 4 then e.incomingFails g sl code
           else if st = 5 then e.outgoingFails g sl code
           else if st = 2 ∨ st = 3 then
             if d.drainingNew g sl then e.endRot g 4 code else e.repStart g sl (st - 1) code
           else e.suspect g sl code).refreshGroup g))) ∧
     (∀ r, (d.group g).reps.find? (fun r => r.new.isNone && !r.again) = some r → (d.group g).rot = none →
       Machine.exec (.repairResume g) s = .next (after s (d.repTake g r))))

/-! ### Tiles -/

/-- The MOVE operations of a tile, where the tile runs and the instruction at its program counter is the legal MOVE
named: each does to the tile what the table *MOVE operations* says, the program counter goes on as the loops have it,
and no stall remains. Rules: R241. -/
def Obligations.TileMovesComplete : Prop :=
  ∀ (s : State) (t : Fin 4096), s.dev.tilesOn = true →
    let d := s.dev.quiet
    let x := d.site t
    let w := d.siteInstr x
    let u := d.tile x.L
    let is := fun k : Nat => d.siteOk x (fun w => decide (ib w 63 62 = 1 ∧ ib w 61 56 = k)) = true
    let ends := fun u : Tile => Host.Outcome.next (φ := Fault) (ρ := Refusal) (after s (d.siteDone x ⟨u.next, TileFx.none⟩))
    (is 0 → Machine.exec (.moveNop t) s = ends u) ∧
    (is 1 → Machine.exec (.moveLdt t) s = ends (u.setTr (ib w 55 53) (imm32 w))) ∧
    (is 2 → Machine.exec (.moveMovt t) s = ends (u.setTr (ib w 55 53) (u.tr (ib w 52 50)))) ∧
    (is 3 → Machine.exec (.moveAddt t) s = ends (u.setTr (ib w 55 53) (u.tr (ib w 52 50) + imm32 w))) ∧
    (is 4 → Machine.exec (.moveClra t) s = ends { u with acc := 0, exc := 0 }) ∧
    (is 5 → Machine.exec (.moveLda t) s = ends
      { u with acc := scode 72 (sext 32 (u.tr (ib w 52 50)).toNat * 2 ^ ib w 46 41), exc := 0 }) ∧
    (is 6 → Machine.exec (.moveSetoff t) s = ends (u.setOff (ib w 49 47) (imm32 w).toNat)) ∧
    (is 7 → Machine.exec (.moveGetoff t) s = ends (u.setTr (ib w 55 53) (wd (u.ptr (ib w 49 47)).off))) ∧
    (is 8 → Machine.exec (.moveSettag t) s = ends { u with tag := tagOfCode (ib w 1 0) })

/-- The MAC operations of a tile, where the tile runs and the instruction at its program counter is the legal MAC named:
short of input it waits, with a full output it waits, without its cascade it waits, and otherwise it runs, with the
cascade where its operation takes one. Rules: R238. Where the spec is silent it rests on the model's choices of log
entries 69. -/
def Obligations.TileMacsComplete : Prop :=
  ∀ (s : State) (t : Fin 4096) (ecc : MacEcc) (k : Nat) (c : Instr), s.dev.tilesOn = true →
    let d := s.dev.quiet
    let x := d.site t
    let w := d.siteInstr x
    (k, c) ∈ [(0, Instr.macNone t ecc), (1, .macLd t ecc), (2, .macAdd t ecc), (3, .macSub t ecc), (4, .macLdc t ecc),
      (5, .macAddc t ecc), (6, .macSubc t ecc), (7, .macLdr t ecc)] →
    d.siteOk x (fun w => decide (ib w 63 62 = 0 ∧ ib w 61 59 = k)) = true →
      let e := d.trimInputs x.r x.c x.row
      let full := match macOut w with | some p => decide (32 ≤ ((e.tile x.L).outq p).length) | none => false
      let short := e.needsInput x ((List.range 2).filter fun p => (macPops w p).isSome)
      (short = true → Machine.exec c s = .next (after s
        ((if anyIf 2 fun p => (macPops w p).isSome && e.popHeld x p then e.popCopy x else e).stallAt x .input))) ∧
      (short = false → full = true → Machine.exec c s = .next (after s (e.stallAt x .output))) ∧
      (short = false → full = false → aopCascades (ib w 61 59) = false →
        Machine.exec c s = .next (after s (e.macRun x w Cas.zero ecc))) ∧
      (short = false → full = false → aopCascades (ib w 61 59) = true → e.cascade x = none →
        Machine.exec c s = .next (after s (e.stallAt x .cascade))) ∧
      (∀ cas, short = false → full = false → aopCascades (ib w 61 59) = true → e.cascade x = some cas →
        Machine.exec c s = .next (after s ((e.macRun x w cas ecc).release x)))

/-- The CONTROL operations of a tile, where the tile runs and the instruction at its program counter is the legal
CONTROL named; a block merge goes on when every row it waits for has come; a program error of the instruction at the
program counter stops the tile and its column, is counted and reported. Rules: R206, R242, R245, R246, R248, R252, R253.
Where the spec is silent it rests on the model's choices of log entries 15, 66. -/
def Obligations.TileControlCompletes : Prop :=
  ∀ (s : State) (t : Fin 4096), s.dev.tilesOn = true →
    let d := s.dev.quiet
    let x := d.site t
    let w := d.siteInstr x
    let u := d.tile x.L
    let is := fun k : Nat => d.siteOk x (fun w => decide (ib w 63 62 = 2 ∧ ib w 61 56 = k)) = true
    let goes := fun (e : Dev) (u : Tile) => e.siteDone x ⟨u.next, TileFx.none⟩
    let ends := fun e : Dev => Host.Outcome.next (φ := Fault) (ρ := Refusal) (after s e)
    (is 0 → Machine.exec (.ctlNop t) s = ends (goes d u)) ∧
    (is 1 → Machine.exec (.loop0 t) s = ends (goes d (u.startLoop 0 (loopCount u w) (ib w 51 44)))) ∧
    (is 2 → Machine.exec (.loop1 t) s = ends (goes d (u.startLoop 1 (loopCount u w) (ib w 51 44)))) ∧
    (is 3 → Machine.exec (.br t) s = ends (if d.condHolds x w then d.siteDone x ⟨u.branch (ib w 51 44), TileFx.none⟩ else goes d u)) ∧
    (is 4 → Machine.exec (.wait t) s = ends (if d.condHolds x w then goes d u else d.stallAt x .wait)) ∧
    (is 5 → Machine.exec (.halt t) s = ends ((goes d { u with halt := true }).haltColumn x.r x.c)) ∧
    (is 6 → Machine.exec (.bmerge t) s = ends (if d.masked x.r x.c x.row then
      (d.setTile x.L { u with stall := .merge, mergeRst := decide (ib w 24 24 = 1) }).colMerge x.r x.c else goes d u)) ∧
    (is 7 → Machine.exec (.emark t) s = ends (if 32 ≤ (u.outq (ib w 15 15)).length then d.stallAt x .output
      else
        let y := (TW.mk u TileFx.none).push (ib w 15 15) (wd (d.fld (tregPg x.r) (TREG.CBSH.at x.c))) true (d.keeps x.r x.c)
        d.siteDone x { y with t := y.t.next })) ∧
    (is 8 → Machine.exec (.setlen t) s = ends
      (goes (d.lenRequest x.r x.c x.row (ib w 31 29) (ib w 43 32))
        ((d.lenRequest x.r x.c x.row (ib w 31 29) (ib w 43 32)).tile x.L))) ∧
    (is 9 → Machine.exec (.cpost t) s = ends (if x.c < 15 ∧ d.colBusy x.r (x.c + 1) then d.stallAt x .cpost else goes d u)) ∧
    (∀ r c : Fin 16, d.colRuns r c = true → d.mergeReady r c = true → Machine.exec (.bmergeResume r c) s = ends (
      let p := tregPg r
      let rows := (List.range 16).filter fun row => d.masked r c row
      let cb := rows.foldl (fun m row => Nat.min m (d.tile (d.loc r c row)).bexp) 31
      let bsh : Int := (cb : Int) - d.fld p (TREG.GUARD.at c)
      let rst := rows.any fun row => (d.tile (d.loc r c row)).mergeRst
      let cbsh := if rst then scode 16 bsh else scode 16 (d.fld p (TREG.CBSH.at c) + bsh)
      let e := ((d.setF p (TREG.CBEXP.at c) cb).setF p (TREG.BSH.at c) (scode 6 bsh)).setF p (TREG.CBSH.at c) cbsh
      (rows.foldl (fun e row =>
        let t := e.tile (e.loc r c row)
        e.setTile (e.loc r c row) { t.next with stall := .none, mergeRst := false, bexp := 31 }) e).colMerge r c)) ∧
    (d.siteRuns x = true → instrReason w u.pc ≠ 0 →
      let info := wd (instrReason w u.pc * 2 ^ 28 + u.pc * 256)
      let e := (d.setTile x.L { u with perr := true, perrInfo := info }).perrColumn x.r x.c
      Machine.exec (.programError t) s = ends
        ((e.count (tregPg x.r) TREG.PERR_CNT).raise (tregPg x.r) TREG.E_PROG_ERR info (wd x.L)))

/-- What comes about in a tile region beside its instructions: a flow's word that a bound stream takes goes into its
FIFO, in its place, and ends a wait for it, and no other word does; a walk meets the next row of a memory of any
physical column, and an uncorrectable instruction word fails the tile the column serves; a region whose tiles all rest
dozes; a failing tile takes its column and a spare; an accepted length change is asked for, and acts when its turn
comes; an accepted write of a tile's window stores. Rules: R211, R218, R221, R224, R229, R231. Where the spec is silent
it rests on the model's choices of log entries 16, 17, 60, 62, 67, 69, 70, 144, 157, 160. -/
def Obligations.TileRegionCompletes : Prop :=
  ∀ (s : State) (t : Fin 4096), s.dev.coreOn = true →
    let d := s.dev.quiet
    let r := t.val / 256
    let c := t.val % 256 / 16
    let L := d.loc r c (t.val % 16)
    let u := d.tile L
    (∀ (port : Fin 2) (ch : Fin 64) (ts : Nat) (w : Word) (marker poison : Bool),
      let fw : FlowWord := ⟨(u.strmReg port).toNat % 16384, ch, ts, w, marker, poison⟩
      let takes := bindTakes (u.strmReg port) fw && decide ((u.inq port).length < 32)
      (takes = true →
        let y := u.setInq port (flowIns fw (u.inq port))
        Machine.exec (.streamWordArrive t port ch ts w marker poison) s = .next (after s
          ((d.setTile L (if y.stall = .input then { y with stall := .none } else y)).setF (tregPg r) TREG.DOZING 0))) ∧
      (takes = false → Machine.exec (.streamWordArrive t port ch ts w marker poison) s = .next (after s d))) ∧
    (∀ (n : Fin 16) (p : Fin 17) (row : Fin 16) (mem : TileMem) (e : EccEvent),
      Machine.exec (.rowWalk ⟨n, p, row⟩ mem e) s = .next (after s (
        let K := locCode n p row
        let x := d.tile K
        let go := fun (m k : Nat) (u : Tile) =>
          d.tileDone n K (if u.rowPois m k then ⟨u, TileFx.none⟩ else (TW.mk u TileFx.none).meet m k e)
        match mem with
        | .data => go 0 x.walkD { x with walkD := (x.walkD + 1) % 512 }
        | .coef => go 1 x.walkC { x with walkC := (x.walkC + 1) % 256 }
        | .instr =>
          let y : Tile := { x with walkI := (x.walkI + 1) % 256 }
          let z := d.tileDone n K ⟨y, if e = .corrected then { TileFx.none with ce := 1 } else TileFx.none⟩
          if e = .uncorrectable then
            (match z.served n p with
             | some c => z.tileFail (n * 256 + c * 16 + row) .instrMemory
             | none => z)
          else z))) ∧
    (∀ n : Fin 16, d.flag (tregPg n) TREG.AUTODOZE_EN = true ∨ d.pwrState (tregPg n) = 1 →
      d.flag (tregPg n) TREG.DOZING = false → (List.range 256).all (fun k => d.tileRests n (k / 16) (k % 16)) = true →
        Machine.exec (.autodozeEntry n) s = .next (after s ((d.setF (tregPg n) TREG.DOZING 1).count (tregPg n) TREG.DOZE_CNT))) ∧
    (∀ det : TileDetector, d.colSt r c ≠ 2 → Machine.exec (.tileFail t det) s = .next (after s (
      let e := match d.dstMove r c with | some e => (if 5 ≤ e.2.phase then d.moveFinish e.1 else d) | none => d
      let f := ((e.colRepairLost r c 0).colFail r c (t % 16) det).takeSpare r c
      f.1.failFollow r c (e.phys r c) f.2))) ∧
    (∀ (src : Source) (n k : Fin 16) (v : Word),
      let f := TREG.LEN_CHG.at k
      let w := trig TREG.VALID v
      let new := heard d (tregPg n) f 0x8000ff07 w
      let e := written d (tregPg n) f 0x8000ff07 0 w
      let g := (e.setF (tregPg n) (TREG.VALID.at k) 0).setF (tregPg n) (TREG.VALID.at k).staged 0
      Accepts d src .treg n f.off w → fieldOf TREG.VALID new = 1 →
        Machine.exec (.lenChg src n k v) s = .next (after s
          ((g.lenRequest n (bitsOf new 15 12) (bitsOf new 11 8) (bitsOf new 2 0) (e.fld (tregPg n) (TREG.LEN.at k))).breakLock
            .treg n f.off))) ∧
    (s.dev.tilesOn = true → ∀ q rest, u.reqs = q :: rest → Machine.exec (.lenRequestAct t) s = .next (after s
      ((d.setTile L { u with reqs := rest }).lenActs r L q.1 q.2))) ∧
    (∀ (src : Source) (k : Fin 4096) (v : Word) (e : EccEvent), d.answers .treg = true → winListed (4 * k) = true →
      d.winCause src t (4 * k) v (decide (0x20D0 ≤ 4 * k.val ∧ 4 * k.val < 0x20E0) && d.strmRefused t ((4 * k.val - 0x20D0) / 4) v) =
        none →
        Machine.exec (.tileWindowWrite src t k v true e) s = .next (after s (d.winStore r c (t.val % 16) (4 * k) v e)))

/-- Columns of tiles and handovers of tile segments: an accepted `RUN` of an idle column starts it and a clear one halts
a running column; an accepted `GO` with no `ABORT` waits while the part may not move or a source column is not ready,
and otherwise starts the handover; an accepted `ABORT` takes a waiting one back or aborts one under way; the comparison,
once every port has compared its words, binds or aborts with outcome 1 (its command says how long after the one before,
log 164); a port silent for 100 ms and a binding that waited 10 s for its pages abort with outcome 2; the drain ends the
handover when the source has finished its earlier words; a column repair takes the rows it cannot read from the image
that last loaded the region, and binds, or is lost with no source. Rules: R230, R256, R258, R259, R262, R263, R264.
Where the spec is silent it rests on the model's choices of log entries 16, 66, 68, 69, 141, 158, 159, 164. -/
def Obligations.ColumnCommandsComplete : Prop :=
  ∀ (s : State) (src : Source) (r : Fin 16) (v : Word), s.dev.coreOn = true →
    let d := s.dev.quiet
    let p := pg .treg r
    (∀ c : Fin 16,
      let f := TREG.COL_CTL.at c
      let old := d.raw (p + f.off)
      let new := heard d p f 0xffff0701 v
      let e := written d p f 0xffff0701 0 v
      Accepts d src .treg r f.off v → e.colSt r c < 2 →
        (fieldOf TREG.RUN old = 0 → fieldOf TREG.RUN new = 1 → e.colSt r c = 0 →
          Machine.exec (.columnRun src r c v) s = .next (after s ((e.colStart r c).breakLock .treg r f.off))) ∧
        (fieldOf TREG.RUN old = 1 → fieldOf TREG.RUN new = 0 → e.colSt r c = 1 →
          Machine.exec (.columnRun src r c v) s = .next (after s ((e.colHalt r c).breakLock .treg r f.off)))) ∧
    (let w := trig TREG.GO v
     let new := heard d p TREG.MOVE_CTL 0xfffff001 w
     let e := written d p TREG.MOVE_CTL 0x3ffff001 0xc0000000 w
     Accepts d src .treg r TREG.MOVE_CTL.off w → fieldOf TREG.GO (d.raw (p + TREG.MOVE_CTL.off)) = 0 →
     fieldOf TREG.GO new = 1 → fieldOf TREG.ABORT new = 0 →
       Machine.exec (.moveGo src r v) s = .next (after s
         ((if e.fwActive || anyIf (e.fld p TREG.NCOL_M1 + 1) fun k => decide (e.colSt r (e.fld p TREG.SRC_COL + k) = 3) then
             let f := e.setF p TREG.PENDING 1
             { f with ti := { f.ti with deferred := f.ti.deferred.filter (fun k => decide (k ≠ r.val)) ++ [r.val] } }
           else e.moveStart r).breakLock .treg r TREG.MOVE_CTL.off))) ∧
    (let w := trig TREG.ABORT v
     let new := heard d p TREG.MOVE_CTL 0xfffff001 w
     let e := written d p TREG.MOVE_CTL 0x3ffff001 0xc0000000 w
     Accepts d src .treg r TREG.MOVE_CTL.off w →
     ¬ (fieldOf TREG.GO new = 1 ∧ fieldOf TREG.GO (d.raw (p + TREG.MOVE_CTL.off)) = 0) → fieldOf TREG.ABORT new = 1 →
       Machine.exec (.moveAbort src r v) s = .next (after s ((e.moveCancel r).breakLock .treg r TREG.MOVE_CTL.off))) ∧
    (∀ m, d.move? r = some m →
      (∀ dt : Nat,
       let g := d.pass dt
       let k := cmpTotals m.cmps
       let n := { m with compared := k.1, mismatch := k.2 }
       let e := (g.setF p TREG.MISMATCH (Nat.min k.2 0xFFFF)).setMove r n
       let done := cmpDone m.cmps (g.movePorts m) (g.moveLim r)
       m.phase = 3 → m.compares = true →
         (done = true → Machine.exec (.moveCompareDone r dt) s = .next (after s (if k.2 = 0 then e.moveBind r n else e.moveAbort r 1))) ∧
         (done = false → Machine.exec (.moveCompareDone r dt) s = .next (after s g))) ∧
      (∀ t, m.phase = 3 → m.compares = true → cmpSilent m.cmps (d.movePorts m) (d.moveLim r) m.cmpAt = some t →
        Machine.exec (.movePortSilent r) s = .next (after s ((d.pass (t + 100000000 - d.mono)).moveAbort r 2))) ∧
      (∀ t, m.bindAt = some t → m.instant = none →
        Machine.exec (.moveBindTimeout r) s = .next (after s ((d.pass (t + 10000000000 - d.mono)).moveAbort r 2))) ∧
      (d.moveDrained r m = true → m.phase = 6 → Machine.exec (.moveDrainEnd r) s = .next (after s (
        let e := if m.copy && !m.repair then (List.range (m.n * 16)).foldl (fun e i => e.moveCopyTile r i) d else d
        let f := e.eachCol m.src m.n fun e c => e.moveSrcEnd r c
        let g : Dev := { f with ti := { f.ti with moves := Tab.del f.ti.moves r } }
        let h := g.eachCol m.dcol m.n fun e c => e.moveDstEnd m c
        (h.moveDone r (if m.repair then 6 else 0) m).moveDeferred))) ∧
      (d.moveDrained r m = false → Machine.exec (.moveDrainEnd r) s = .next (after s d))) ∧
    (∀ (c : Fin 16) (met : List ColRow) (x : ColRepair) (dt : Nat), Tab.get d.ti.repairs (r * 16 + c) = some x → x.prepared = false →
      let g := d.pass dt
      let rows := g.imageRows r c (g.badRows r x.phys (met.map ColRow.tuple))
      (rows = none → Machine.exec (.repairPrepareDone r c met dt) s = .next (after s (g.colRepairLost r c 2))) ∧
      (∀ rs, rows = some rs → Machine.exec (.repairPrepareDone r c met dt) s = .next (after s (
        let e := ((g.colCopy r x.phys rs).setF p (TREG.BSH.at c) 0).setF p (TREG.CBSH.at c) 0
        e.colRepairBind r c { x with prepared := true, instant := g.now + g.fld p TREG.LEAD * 1000, image := !rs.isEmpty }))))

/-! ### The causeway and frame memory -/

/-- The causeway: a producer's run of words leaves as a flit when it is full, holds its last channel, or its next word
does not continue it, and is marked last when its timestamp has no further word; a flit that arrives sound and in time
is given to its consumer where there is room, a stale one is counted and dropped, and none overtakes an earlier one of
its producer; a class A flit without room in time is dropped, counted and told; an accepted write that binds a flow is a
register write; an accepted `FLOW_ROUTE` writes the route of the selected flow and reads as zero. Rules: R272, R274,
R276, R281, R298. Where the spec is silent it rests on the model's choices of log entries 16, 78, 79. -/
def Obligations.CausewayCommandsComplete : Prop :=
  ∀ (s : State), s.dev.coreOn = true →
    let d := s.dev.quiet
    (∀ (ep : Fin 65536) (flow : Fin 16384) (ws : List LogicWord) (w : FlowWord),
      let e := if 8192 ≤ ep.val ∧ ep.val < 16384 then d.fabricOut ((ep - 8192) / 8) ((ep - 8192) % 8) (ws.map LogicWord.tuple) else d
      let q := e.prodWords ep flow
      let run := flitRun 13 q
      let bs := (View.mk e []).bindings
      let end_ := decide (w.ch = lastChannel bs ep w.flow)
      let goes := end_ || flitNext (q.drop run.length) w
      run.getLast? = some w → (run.length = 13 ∨ goes = true) →
        let f := e.prodDrop ep flow run.length
        let flit : Flit := ⟨ep, w.flow, f.flowClass w.flow, w.ts, run, end_ || flitLast (q.drop run.length) w, flitDests bs w.flow run, []⟩
        Machine.exec (.flitSend ep flow ws) s = .next (after s
          (if flit.dests = [] then f else { f with cw := { f.cw with flight := f.cw.flight ++ [flit] } }))) ∧
    (∀ (n : Nat) (ep : Fin 65536) (f : Flit), d.cw.flight[n]? = some f → ep.val ∈ f.dests →
      (d.flitBehind n ep f = true → Machine.exec (.flitArrive n ep none) s = .next (after s d)) ∧
      (d.flitBehind n ep f = false → f.ts + 1000000000 < d.now → Machine.exec (.flitArrive n ep none) s = .next (after s
        ((d.count (pg .cway 0) CWAY.STALE_CNT).flitDone n ep f))) ∧
      (d.flitBehind n ep f = false → d.now ≤ f.ts + 1000000000 →
        let ws := flitTake (View.mk d []).bindings ep f
        let ts := restoreTime d.now 4 (f.ts / 1000000000 % 4) (f.ts % 1000000000)
        d.epRoom ep ws.length = true → Machine.exec (.flitArrive n ep none) s = .next (after s
          ((ws.foldl (fun e w => e.deliver ep { w with ts := ts }) d).flitDone n ep f))) ∧
      (∀ (x : Fin 64) (y : Fin 8), Machine.exec (.flitArrive n ep (some (x, y))) s = .next (after s (d.flitError n ep f x y))) ∧
      (f.cls = 0 → Machine.exec (.aDrop n ep) s = .next (after s ((d.aDrop f.flow ep).flitDone n ep f)))) ∧
    (∀ (src : Source) (c : Cls) (i : Nat) (f : Fld) (r : RegSpec) (v : Word),
      Accepts d src c i f.off v → regAt c i f.off = some r → 0x40 ≤ f.off → f.off < 0x800 → f.off % 4 = 0 → c ≠ .iob →
      d.specialWrite src c i f.off v = none →
        let a := pg c i + f.off
        Machine.exec (.flowBind src a v) s = .next (after s
          (((d.put a (r.stored (d.raw a) v)).react src c i f.off Via.direct (d.raw a) (r.want c f.off (d.raw a) v)).breakLock c i
            f.off))) ∧
    (∀ (src : Source) (v : Word), Accepts d src .cway 0 CWAY.FLOW_ROUTE.off v →
      let e := written d (pg .cway 0) CWAY.FLOW_ROUTE 0xff8fffff 0 v
      Machine.exec (.flowRoute src v) s = .next (after s
        (((e.setRoute (e.fld (pg .cway 0) CWAY.FLOW_SEL_FLOW) (heard d (pg .cway 0) CWAY.FLOW_ROUTE 0xff8fffff v &&& 0xFF8FFFFF)).put
          (pg .cway 0 + CWAY.FLOW_ROUTE.off) 0).breakLock .cway 0 CWAY.FLOW_ROUTE.off)))

/-- Frame memory served by its banks: a memory flit that writes is acknowledged, one that reads is answered with the
words and their poison; a frame port in service takes the word at its front, or emits from the buffer its ring has
ready; the scrubber meets its word and goes to the next, counts a vote that mended its place, and starts again on one
that could not. Soft repair of a row: an accepted `GO` on a part that changes no firmware takes the first spare row that
is free, or tells that none is; an accepted `ABORT` ends a repair with outcome 5; a comparison, which ends two copies of
the row after the start, binds without a difference, one with a difference burns the spare and ends with outcome 1; a
binding that waits 10 s ends with outcome 2. Rules: R284, R287, R288, R289, R293. Where the spec is silent it rests on
the model's choices of log entries 16, 45, 58, 77, 86, 141, 158. -/
def Obligations.FrameMemoryCommandsComplete : Prop :=
  (∀ (s : State), s.dev.coreOn = true →
     let d := s.dev.quiet
     (∀ (m : MemFlit) (es : List EccEvent), m.write = true →
       let be := if m.data.length = 1 then m.be.toNat else 255
       Machine.exec (.memoryAccess m es) s = .next (after s
         ((d.fmGuard m.req.val m.addr (8 * m.data.length) fun e =>
           e.fmWrite m.addr be m.pois.toNat (es.headD .clean) (m.data.map (·.toNat))).send (.memAck m.req.val m.tag.val)))) ∧
     (∀ (m : MemFlit) (es : List EccEvent), m.write = false →
       Machine.exec (.memoryAccess m es) s = .next (after s
         ((d.fmRead m.addr m.count es).1.send (.memData m.req.val m.tag.val (d.fmRead m.addr m.count es).2.1
           (d.fmRead m.addr m.count es).2.2)))) ∧
     (∀ (b : Fin 32) (w : FlowWord) (rest : List FlowWord), (d.fmp b).run = true → (d.fmp b).rx = w :: rest →
       fieldOf FMEM.DIR (d.fmp b).cfg = 0 →
         Machine.exec (.framePortWrite b) s = .next (after s ((d.setFmp b { d.fmp b with rx := rest }).fmpTake b w))) ∧
     (∀ (b : Fin 32) (e : EccEvent) (k : Nat), (d.fmp b).run = true → fieldOf FMEM.DIR (d.fmp b).cfg = 1 →
       d.ringWriter b = some k →
         (∀ i, (d.fmp b).rpos = some i → Machine.exec (.framePortRead b e) s = .next (after s (d.fmpEmit b k i e))) ∧
         (∀ n ready, (d.fmp b).rpos = none → (d.fmp k).ready = n :: ready →
           Machine.exec (.framePortRead b e) s = .next (after s
             ((d.setFmp b { d.fmp b with buf := n, rpos := some 0 }).fmpEmit b k 0 e)))) ∧
     (∀ (e : EccEvent) (skip : Bool) (v : VoteEvent), d.flag (pg .scrb 0) SCRB.EN = true →
       (v = .restart → Machine.exec (.scrubRead e skip v) s = .next (after s d.scrubRestart)) ∧
       (v ≠ .restart →
         let f := if v = .fixed then d.count (pg .scrb 0) SCRB.VOTE_FIX_CNT else d
         let b := f.fld (pg .scrb 0) SCRB.BANK
         let row := f.fld (pg .scrb 0) SCRB.ROW
         let w := f.fld (pg .scrb 0) SCRB.WORD
         Machine.exec (.scrubRead e skip v) s = .next (after s ((f.scrubMeet (fmAddr b row w) e skip).scrubNext b row w))))) ∧
  (∀ (s : State) (src : Source) (b : Fin 32) (v : Word), s.dev.coreOn = true →
     let d := s.dev.quiet
     let p := pg .fmem b
     (let w := trig FMEM.GO v
      let new := heard d p FMEM.RPR_CTL 0xc0001fff w
      let e := written d p FMEM.RPR_CTL 0x1fff 0xc0000000 w
      Accepts d src .fmem b FMEM.RPR_CTL.off w → fieldOf FMEM.GO (d.raw (p + FMEM.RPR_CTL.off)) = 0 → fieldOf FMEM.GO new = 1 →
      fieldOf FMEM.ABORT new = 0 → e.fwActive = false →
        let row := fieldOf FMEM.RPR_CTL_ROW new
        let f := (e.setF p FMEM.GO 0).setF p FMEM.RPR_STAT_ROW row
        let free := (List.range 64).find? fun k => !((e.rowLists b).1.contains k) && !((e.rowLists b).2.contains k)
        (free = none → Machine.exec (.rowRepairGo src b v) s = .next (after s
          ((f.raiseH p FMEM.E_NO_SPARE_ROW (wd row) (f.reg p FMEM.FM_STAT)).breakLock .fmem b FMEM.RPR_CTL.off))) ∧
        (∀ k, free = some k → Machine.exec (.rowRepairGo src b v) s = .next (after s
          ((((f.setF p FMEM.RPR_BUSY 1).setF p FMEM.ACTIVE 1).setRowRep b ⟨row, k, 2, f.mono, false, none, none, 0⟩).breakLock .fmem b
            FMEM.RPR_CTL.off)))) ∧
     (let w := trig FMEM.ABORT v
      let new := heard d p FMEM.RPR_CTL 0xc0001fff w
      let e := written d p FMEM.RPR_CTL 0x1fff 0xc0000000 w
      Accepts d src .fmem b FMEM.RPR_CTL.off w →
      ¬ (fieldOf FMEM.GO new = 1 ∧ fieldOf FMEM.GO (d.raw (p + FMEM.RPR_CTL.off)) = 0) → fieldOf FMEM.ABORT new = 1 →
        Machine.exec (.rowRepairAbort src b v) s = .next (after s
          (((e.setF p FMEM.ABORT 0).rowAbort b 5).breakLock .fmem b FMEM.RPR_CTL.off))) ∧
     (∀ x, d.rowRep? b = some x → x.phase ≤ 3 → x.ready = false →
       let e := (d.pass (x.at_ + 2 * rowCopyNs - d.mono)).setRowRep b { x with phase := 3 }
       Machine.exec (.rowCompareDone b 0) s = .next (after s (e.rowBind b { x with phase := 3 })) ∧
       (∀ bad : Nat, bad ≠ 0 → Machine.exec (.rowCompareDone b bad) s = .next (after s
         ((e.setRowLists b (e.rowLists b).1 ((e.rowLists b).2 ++ [x.spare])).rowRepairEnd b 1 { x with mismatch := bad })))) ∧
     (∀ x t, d.rowRep? b = some x → x.bindAt = some t → x.instant = none →
       Machine.exec (.rowRepairTimeout b) s = .next (after s ((d.pass (t + 10000000000 - d.mono)).rowRepairEnd b 2 x))))

/-! ### Serial lanes and Ethernet ports -/

/-- A lane group: an accepted new layout shows the modes and, at another rate, retunes the synthesiser; the synthesiser
locks 5 ms after it was tuned and its ports that are not enabled-down come up; it unlocks, is counted and takes its
ports with it; a poll of the module shows a change and follows how long the module has been failing; a module that has
failed for 10 s takes its ports down with cause 1; an accepted access of the module shows its byte, or an error. A
receive lane: a tracking lane adapts at most once in 1 ms and tells when its margin falls below or rises 10 above the
threshold; a margin below zero for 1 s takes its port down to train again; the insertion loss is estimated at most once
a second; clock recovery is lost, with the lock of a pattern check, counted and regained; `RETIRE` takes the lane from
its port or gives it back. Rules: R304, R306, R308, R309, R310, R315, R366, R544. Where the spec is silent it rests on
the model's choices of log entries 16, 80, 82, 83. -/
def Obligations.LaneCommandsComplete : Prop :=
  (∀ (s : State) (src : Source) (g : Fin 8) (v : Word), s.dev.coreOn = true →
     let d := s.dev.quiet
     let p := pg .lgrp g
     (let old := d.raw (p + LGRP.LG_CFG.off)
      let new := heard d p LGRP.LG_CFG 0x3fffffff v
      let e := written d p LGRP.LG_CFG 0x3fffffff 0 v
      Accepts d src .lgrp g LGRP.LG_CFG.off v → old ≠ new →
        let f := e.showModes g
        let h : Dev := { f with ln := { f.ln with tuneAt := Tab.ins f.ln.tuneAt g f.mono } }
        Machine.exec (.layoutChange src g v) s = .next (after s
          ((if groupRate old = groupRate new then f else (h.setF p LGRP.F_USE (groupRate new)).pllGone g).breakLock .lgrp g
            LGRP.LG_CFG.off))) ∧
     (d.flag p LGRP.LOCKED = false → d.pwrState p ≤ 1 → ∀ t, Tab.get d.ln.tuneAt g = some t →
       let e := d.pass (t + 5000000 - d.mono)
       let f : Dev := { e with ln := { e.ln with tuneAt := Tab.del e.ln.tuneAt g } }
       let h := ((f.setF p LGRP.LOCKED 1).setF p LGRP.REF_OK 1).setF p LGRP.F_USE (groupRate (f.reg p LGRP.LG_CFG))
       Machine.exec (.pllLock g) s = .next (after s
         ((List.range 8).foldl (fun e k => if e.st (pg .eth (g * 8 + k)) = 0 then e.bringUp (g * 8 + k) else e)
           (h.raise p LGRP.E_PLL_LOCK)))) ∧
     (∀ ok : Bool, d.flag p LGRP.LOCKED = true →
       let e := ((d.setFlag p LGRP.REF_OK ok).setF p LGRP.LOCKED 0).count p LGRP.PLL_UNLOCK_CNT
       Machine.exec (.pllUnlock g ok) s = .next (after s ((e.raise p LGRP.E_PLL_UNLOCK).pllGone g))) ∧
     (∀ (present : Bool) (ms : BitVec 3) (dp : BitVec 4) (rev : BitVec 8) (flags : BitVec 16), d.flag p LGRP.MGMT_EN = true →
       Machine.exec (.modulePoll g present ms dp rev flags) s = .next (after s (
         let w := if present then wd (2 ^ 31 + ms.toNat % 8 * 2 ^ 28 + dp.toNat % 16 * 2 ^ 24 + rev.toNat % 256 * 65536 +
           flags.toNat % 65536) else 0
         let e := if w = d.reg p LGRP.MOD_STAT then d else (d.setReg p LGRP.MOD_STAT w).raise p LGRP.E_MOD_CHANGE
         let way := present && decide (dp.toNat % 16 ≠ 4)
         { e with ln := { e.ln with
           modAt := if way then Tab.ins e.ln.modAt g ((Tab.get e.ln.modAt g).getD e.mono) else Tab.del e.ln.modAt g,
           modBad := if way then e.ln.modBad else e.ln.modBad.filter fun x => decide (x ≠ g.val) } }))) ∧
     (∀ t, Tab.get d.ln.modAt g = some t → d.flag p LGRP.MGMT_EN = true → g.val ∉ d.ln.modBad →
       let e := d.pass (t + 10000000000 - d.mono)
       let f := ({ e with ln := { e.ln with modBad := e.ln.modBad ++ [g.val] } } : Dev).raise p LGRP.E_MOD_FAULT
       Machine.exec (.modFault g) s = .next (after s
         ((List.range 8).foldl (fun x k =>
           if x.ethCode (g * 8 + k) ≠ 0 ∧ x.flag (pg .eth (g * 8 + k)) HDR.ENABLE then x.ethDown (g * 8 + k) 1 else x) f))) ∧
     (let w := trig LGRP.GO v
      let e := written d p LGRP.MOD_ACC 0x40ffffff 0x80000000 w
      Accepts d src .lgrp g LGRP.MOD_ACC.off w → bitAt (heard d p LGRP.MOD_ACC 0xc0ffffff w) 31 = true →
        let key := e.fld p LGRP.PAGE * 256 + e.fld p LGRP.ADDR
        let ack := Config.moduleAck g key e.mono
        let f := (e.setF p LGRP.GO 0).setFlag p LGRP.ERR !ack
        Machine.exec (.modAcc src g v) s = .next (after s
          ((if ack && !(e.flag p LGRP.WR) then f.setF p LGRP.DATA (Config.moduleByte g key e.mono).toNat else f).breakLock .lgrp g
            LGRP.MOD_ACC.off)))) ∧
  (∀ (s : State) (src : Source) (l : Fin 64) (v : Word), s.dev.coreOn = true →
     let d := s.dev.quiet
     let p := pg .lane l
     let noPattern := fun x : Dev => ({ x with ln := { x.ln with prbs := Tab.del x.ln.prbs l } } : Dev).setF p LANE.PRBS_LOCK 0
     (d.fld p LANE.ADAPT = 2 → (∀ t, Tab.get d.ln.adaptAt l = some t → t + 1000000 ≤ d.mono) → ∀ m : BitVec 16,
       let x := sext 16 (m.toNat % 65536)
       let thr : Int := d.fld p LANE.MRG_THR
       let neg := if x < 0 then Tab.ins d.ln.negAt l ((Tab.get d.ln.negAt l).getD d.mono) else Tab.del d.ln.negAt l
       let e := ({ d with ln := { d.ln with adaptAt := Tab.ins d.ln.adaptAt l d.mono, negAt := neg } } : Dev).setF p LANE.MARGIN m.toNat
       let was := e.ln.low.contains l.val
       Machine.exec (.adaptStep l m) s = .next (after s
         (if !was ∧ x < thr then ({ e with ln := { e.ln with low := e.ln.low ++ [l.val] } } : Dev).raise p LANE.E_MARGIN_LOW
          else if was ∧ thr + 10 ≤ x then
            ({ e with ln := { e.ln with low := e.ln.low.filter fun x => decide (x ≠ l.val) } } : Dev).raise p LANE.E_MARGIN_OK
          else e))) ∧
     (∀ e t, d.portOfLane l = some e → Tab.get d.ln.negAt l = some t → d.st (pg .eth e) = 3 →
       d.flag (pg .eth e) ETH.AUTO_RETRAIN = true →
         let f := d.pass (t + 1000000000 - d.mono)
         Machine.exec (.marginRetrain l) s = .next (after s
           (({ f with ln := { f.ln with negAt := Tab.del f.ln.negAt l } } : Dev).ethDown e 5))) ∧
     (d.fld p LANE.ADAPT = 2 → (∀ t, Tab.get d.ln.ilAt l = some t → t + 1000000000 ≤ d.mono) → ∀ il : BitVec 10,
       Machine.exec (.ilEstimate l il) s = .next (after s
         (((({ d with ln := { d.ln with ilAt := Tab.ins d.ln.ilAt l d.mono } } : Dev).setF p LANE.IL il.toNat).setF p
           LANE.IL_VALID 1).setF p LANE.IL_SRC 1))) ∧
     (d.flag p LANE.CDR_LOCK = true →
       let e := ((if d.fld p LANE.PRBS = 0 then d else noPattern d).setF p LANE.CDR_LOCK 0).count p LANE.CDR_LOSS_CNT
       Machine.exec (.cdrLoss l) s = .next (after s (if e.fld p LANE.ADAPT = 0 then e else e.setF p LANE.ADAPT 1))) ∧
     (d.flag (pg .lgrp (l.val / 8)) LGRP.LOCKED = true → d.flag p LANE.RETIRE = false →
       let e := (d.setF p LANE.CDR_LOCK 1).setF p LANE.SIG_DET 1
       Machine.exec (.cdrLock l) s = .next (after s
         (if e.rawLane l ∨ e.fld p LANE.ADAPT ≠ 0 then e.setF p LANE.ADAPT (if e.flag p LANE.FREEZE then 3 else 2) else e))) ∧
     (let old := d.raw (p + LANE.LN_CTL.off)
      let new := heard d p LANE.LN_CTL 1 v
      let e := written d p LANE.LN_CTL 1 0 v
      Accepts d src .lane l LANE.LN_CTL.off v →
        (bitAt new 0 = true → bitAt old 0 = false →
          let f := (((noPattern e).setF p LANE.ADAPT 0).setF p LANE.SIG_DET 0).setF p LANE.CDR_LOCK 0
          (f.portOfLane l = none → Machine.exec (.laneRetire src l v) s = .next (after s
            (f.refreshHealth.breakLock .lane l LANE.LN_CTL.off))) ∧
          (∀ g, f.portOfLane l = some g → Machine.exec (.laneRetire src l v) s = .next (after s
            ((if f.flag (pg .eth g) HDR.ENABLE then f.ethDown g 8 else f).refreshHealth.breakLock .lane l LANE.LN_CTL.off)))) ∧
        (bitAt new 0 = false → bitAt old 0 = true →
          (e.portOfLane l = none → Machine.exec (.laneRetire src l v) s = .next (after s
            (e.refreshHealth.breakLock .lane l LANE.LN_CTL.off))) ∧
          (∀ g, e.portOfLane l = some g → Machine.exec (.laneRetire src l v) s = .next (after s
            ((e.bringUp g).refreshHealth.breakLock .lane l LANE.LN_CTL.off))))))

/-- The states of an Ethernet port, as the table *Ethernet port transitions* has them: an accepted write of `PAGE_CTL`
that changes `ENABLE` enables or disables the port; negotiation resolves into training or DOWN, or fails after 3 s with
cause 6; training ends in DOWN with the lanes tracking, or with cause 7 after 3 s; a link that may come up does, or is
tried again after 100 ms; a link that is up goes down with the cause given; `RETRAIN` takes it down with cause 5;
`SV_GO` starts a survey, whose end shows the lanes and the partner. Rules: R306, R311. Where the spec is silent it rests
on the model's choices of log entries 16, 80, 81. -/
def Obligations.EthernetPortsComplete : Prop :=
  ∀ (s : State) (src : Source) (e : Fin 64) (v : Word), s.dev.coreOn = true →
    let d := s.dev.quiet
    let p := pg .eth e
    (∀ on : Bool,
      let w := enableWord on v
      let old := d.raw (p + HDR.PAGE_CTL.off)
      let new := heard d p HDR.PAGE_CTL 0xc3 w
      Accepts d src .eth e HDR.PAGE_CTL.off w → bitAt w 1 = false → bitAt new 0 ≠ bitAt old 0 → fieldChanged HDR.PWR_REQ old new = false →
        Machine.exec (.ethEnable src e on v) s = .next (after s
          (((written d p HDR.PAGE_CTL 0xc1 2 w).ethEnable e (bitAt new 0)).breakLock .eth e HDR.PAGE_CTL.off))) ∧
    (d.st p = 1 →
      Machine.exec (.anResolved e) s = .next (after s (if d.flag p ETH.TRAIN_EN then d.ethTo e 2 else d.ethDown e 0)) ∧
      Machine.exec (.anFail e) s = .next (after s
        (((d.pass ((d.eth e).since + 3000000000 - d.mono)).ethDown e 6).raise p ETH.E_AN_FAIL))) ∧
    (d.st p = 2 →
      Machine.exec (.trainingDone e) s = .next (after s ((d.lanesAdapt e 2).ethDown e 0)) ∧
      Machine.exec (.trainingTimeout e) s = .next (after s ((d.pass ((d.eth e).since + 3000000000 - d.mono)).ethDown e 7))) ∧
    (d.st p = 4 → d.ethMay e = true →
      (e.val / 8 ∉ d.ln.modBad →
        let f := ((d.setF p ETH.PCS_LOCK 1).setF p ETH.FEC_LOCK (if d.fld p ETH.FEC = 0 then 0 else 1)).lanesAdapt e 2
        let g := (f.ethLanes e).foldl (fun x l => (x.setF (pg .lane l) LANE.SIG_DET 1).setF (pg .lane l) LANE.CDR_LOCK 1) f
        Machine.exec (.linkUp e) s = .next (after s ((g.ethTo e 3).raise p ETH.E_LINK_UP))) ∧
      Machine.exec (.bringupRetry e) s = .next (after s ((d.pass ((d.eth e).since + 100000000 - d.mono)).bringUp e))) ∧
    (d.st p = 3 → ∀ why : Fin 16,
      Machine.exec (.linkDown e why none) s = .next (after s (d.ethDown e why)) ∧
      (∀ l : Fin 64, Machine.exec (.linkDown e why (some l)) s = .next (after s
        ((if why.val = 1 ∧ (d.ethLanes e).contains l.val then d.setF (pg .lane l) LANE.SIG_DET 0 else d).ethDown e why)))) ∧
    (let w := trig ETH.RETRAIN v
     let old := d.raw (p + ETH.ETH_CTL.off)
     let new := heard d p ETH.ETH_CTL 0xc003ffff w
     let f := written d p ETH.ETH_CTL 0x3ffff 0xc0000000 w
     Accepts d src .eth e ETH.ETH_CTL.off w → bitAt new 31 = true → bitAt new 30 = false ∨ bitAt old 30 = true →
       Machine.exec (.retrain src e v) s = .next (after s (((f.setF p ETH.RETRAIN 0).ethLose e 5).breakLock .eth e ETH.ETH_CTL.off))) ∧
    (let w := trig ETH.SV_GO v
     let old := d.raw (p + ETH.ETH_CTL.off)
     let new := heard d p ETH.ETH_CTL 0xc003ffff w
     let f := written d p ETH.ETH_CTL 0x3ffff 0xc0000000 w
     Accepts d src .eth e ETH.ETH_CTL.off w → bitAt new 31 = false → bitAt new 30 = true → bitAt old 30 = false →
       Machine.exec (.svGo src e v) s = .next (after s
         ((if (f.st p = 0 ∨ f.st p = 4) ∧ f.ethCode e ≠ 0 then (f.setEth e { f.eth e with from_ := f.st p }).ethTo e 5
           else if f.st p = 5 then f else f.setF p ETH.SV_GO 0).breakLock .eth e ETH.ETH_CTL.off))) ∧
    (∀ (lanes : List LaneSurvey) (partner : Option (Fin 4 × BitVec 23)), d.st p = 5 →
      let f := ((d.ethLanes e).zip lanes).foldl (fun x y => x.laneSurvey y.1 (d.fld p ETH.SV_CLASS) y.2) d
      (partner = none → Machine.exec (.ethSurveyEnd e lanes partner) s = .next (after s
        ((f.setReg p ETH.SV_PARTNER 0).surveyDone e 2))) ∧
      (∀ a : Fin 4 × BitVec 23, partner = some a → Machine.exec (.ethSurveyEnd e lanes partner) s = .next (after s
        ((f.setReg p ETH.SV_PARTNER (wd (2 ^ 31 + a.1.val % 4 * 2 ^ 29 + a.2.toNat % 2 ^ 23))).surveyDone e 1))))

/-! ### Device time and media flows -/

/-- Device time: an accepted servo push takes the offset written as a measurement and renews the timeout; a reference's
edges with a place in its grid give their mean as a measurement; without measurements the servo goes to holdover with
cause 1; a large offset that stands 10 s is told once; an accepted change of the source in lock goes to holdover with
cause 3; `REACQUIRE` goes to acquisition, `SET` alone steps time to what was written; an accepted `POP` takes the oldest
timestamp away; a media clock whose time has come runs, from its edge, and is told. Rules: R320, R322, R323, R324, R326,
R328. Where the spec is silent it rests on the model's choices of log entries 8, 16, 86, 87, 146. -/
def Obligations.TimeCommandsComplete : Prop :=
  ∀ (s : State) (src : Source) (v : Word), s.dev.coreOn = true →
    let d := s.dev.quiet
    let p := pg .time 0
    (let w := trig TIME.GO v
     let e := written d p TIME.SRV_PUSH 0xffff 0x80000000 w
     Accepts d src .time 0 TIME.SRV_PUSH.off w → bitAt (heard d p TIME.SRV_PUSH 0x8000ffff w) 31 = true →
       let ofs := sext 32 (e.reg p TIME.SRV_OFS).toNat * 65536 + (e.fld p TIME.SRV_PUSH_FRAC : Int)
       let f := e.setF p TIME.GO 0
       Machine.exec (.servoPush src v) s = .next (after s
         ((({ f with tm := { f.tm with pushAt := f.mono, pushTmo := f.fld p TIME.MEAS_TMO } } : Dev).measure ofs).breakLock .time 0
           TIME.SRV_PUSH.off))) ∧
    (∀ edges : List Nat,
      let i := d.fld p TIME.REFIN
      let q := pg .pdie (i / 2)
      let kind := d.fld q (PDIE.KIND.at (i % 2))
      let offs := edges.filterMap fun t => (d.refGrid kind (d.fld p TIME.REF_MCG) t).map fun g => ((t : Int) - (g : Int))
      d.fld p TIME.SRC = 2 → kind ≠ 0 → d.flag q (PDIE.PRESENT.at (i % 2)) = true → offs ≠ [] →
        Machine.exec (.refinMeasurement edges) s = .next (after s
          (d.measure (offs.foldl (· + ·) 0 * 65536 / (offs.length : Int))))) ∧
    (d.servo = 2 → d.fld p TIME.SRC = 1 → Machine.exec .measTimeout s = .next (after s
      ((d.pass (d.tm.pushAt + d.tm.pushTmo * 1000000 - d.mono)).toHoldover 1))) ∧
    (∀ t, d.tm.bigSince = some t → 2 ≤ d.servo → d.flag p TIME.STEP_WANT = false →
      Machine.exec .stepWanted s = .next (after s
        (((d.pass (t + 10000000000 - d.mono)).setF p TIME.STEP_WANT 1).raise p TIME.E_STEP_WANTED))) ∧
    (let old := d.raw (p + TIME.TIME_SRC.off)
     let new := heard d p TIME.TIME_SRC 0xffff0dc3 v
     let e := written d p TIME.TIME_SRC 0xffff0dc3 0 v
     Accepts d src .time 0 TIME.TIME_SRC.off v →
       let ref := decide (fieldOf TIME.SRC new = 2) && (fieldChanged TIME.REFIN old new || fieldChanged TIME.REF_MCG old new)
       Machine.exec (.timeSrcWrite src v) s = .next (after s
         ((if (fieldChanged TIME.SRC old new || ref) && decide (e.servo = 2) then e.toHoldover 3 else e).breakLock .time 0
           TIME.TIME_SRC.off))) ∧
    (let w := trig TIME.REACQUIRE v
     let e := (written d p TIME.TIME_CMD 0 3 w).put (p + TIME.TIME_CMD.off) 0
     Accepts d src .time 0 TIME.TIME_CMD.off w → bitAt (heard d p TIME.TIME_CMD 3 w) 1 = true →
       Machine.exec (.reacquire src v) s = .next (after s (e.toAcquire.breakLock .time 0 TIME.TIME_CMD.off))) ∧
    (let w := trig TIME.SET v
     let e := (written d p TIME.TIME_CMD 0 3 w).put (p + TIME.TIME_CMD.off) 0
     let new := heard d p TIME.TIME_CMD 3 w
     Accepts d src .time 0 TIME.TIME_CMD.off w → bitAt new 1 = false → bitAt new 0 = true →
       Machine.exec (.timeSet src v) s = .next (after s
         ((e.stepTo ((e.fld p TIME.TIME_SET_SEC_HI_SEC_HI * 2 ^ 32 + (e.reg p TIME.TIME_SET_SEC_LO).toNat) * 1000000000 +
           e.fld p TIME.TIME_SET_NS_NS) 0).breakLock .time 0 TIME.TIME_CMD.off))) ∧
    (∀ port : Fin 64,
      let q := pg .eth port
      let w := trig ETH.POP v
      let e := written d q ETH.TXTS_POP 0 0 w
      Accepts d src .eth port ETH.TXTS_POP.off w → bitAt (heard d q ETH.TXTS_POP 1 w) 0 = true →
        Machine.exec (.txtsPop src port v) s = .next (after s
          ((({ e with md := { e.md with txts := Tab.put e.md.txts port (((Tab.get e.md.txts port).getD []).drop 1) [] } } : Dev).showTxts
            port).breakLock .eth port ETH.TXTS_POP.off))) ∧
    (∀ (n : Fin 4) (t : Nat), Tab.get d.tm.starts n = some t →
      Machine.exec (.mcgStart n) s = .next (after s (
        let r := d.mcgRate n
        let e := d.reach (edgeTime r (edgeAt r t))
        let f : Dev := { e with tm := { e.tm with starts := Tab.del e.tm.starts n } }
        ((f.setF (mcgPg n) MCG.RUNNING 1).mcgRebase n).raise (mcgPg n) MCG.E_MCG_START)))

/-- Media flows: an accepted word of a flow-table entry is stored, and word 0 starts or stops the flow; a frame that an
Ethernet port in UP receives is counted, and goes to the engine of the port unless it is damaged, too long or a control
frame; the words that a gap held back are given up as lost when the skew has run out; an audio flow without a packet in
time fills its slots; a silent path is marked down and told; a packet leaves for a flow or for the host. Rules: R332,
R334, R335, R336, R338. Where the spec is silent it rests on the model's choices of log entries 17, 31, 85, 88, 90, 92,
95, 96. -/
def Obligations.MediaCommandsComplete : Prop :=
  ∀ (s : State), s.dev.coreOn = true →
    let d := s.dev.quiet
    (∀ (src : Source) (f : Fin 16384) (k : Fin 16) (v : Word), d.answers .media = true → d.ftCause f k v true = 0 → k.val ≠ 15 →
      let e := d.setFt f k (d.ftNew f k v)
      Machine.exec (.flowTableWrite src f k v true) s = .next (after s
        (if k.val ≠ 0 then e else if bitAt (d.ftWord f 0) 31 then e.ftStop f else if bitAt v 31 then e.ftStart f else e))) ∧
    (∀ (port : Fin 64) (x : EthFrame),
      let p := pg .eth port
      d.st p = 3 →
        (∀ b, x = .badFcs b → Machine.exec (.packetReceive port x) s = .next (after s (d.count64 p ETH.RX_FCS_ERR).hostqTrim)) ∧
        ((∀ b, x ≠ .badFcs b) →
          (d.fld p ETH.MTU < (ethOctets x).length →
            Machine.exec (.packetReceive port x) s = .next (after s (d.count64 p ETH.RX_TOO_LONG).hostqTrim)) ∧
          ((ethOctets x).length ≤ d.fld p ETH.MTU →
            (∀ b, x = .control b → Machine.exec (.packetReceive port x) s = .next (after s (d.count64 p ETH.RX_CTRL).hostqTrim)) ∧
            ((∀ b, x ≠ .control b) →
              let e := (d.count64 p ETH.RX_FRAMES).count64 p ETH.RX_OCTETS (ethOctets x).length
              Machine.exec (.packetReceive port x) s = .next (after s
                (if e.mediaRuns (port.val / 8) then e.engineRx port x else e).hostqTrim))))) ∧
    (∀ f : Fin 16384,
      let e := d.ent f
      let x := d.rxFlow f
      (∀ p, d.rxFirstHeld f = some p → e.valid = true → e.tx = false → d.mediaRuns e.engine = true →
        let opened := x.held.foldl (fun t h => Nat.min t h.1) d.mono
        let a := d.pass (opened + e.skew * 1000 - d.mono)
        let n := a.rxAhead f p.seq
        let b := (a.entLost f n).count (pg .media e.engine) MEDIA.LOST_CNT n
        let c := if e.audio then b.rxFaultGap f n p.ts else b
        let y := c.rxFlow f
        let g := (c.setRxFlow f { y with
          next := p.seq % e.seqMod, pos := y.pos + n, lost := y.lost ++ (List.range n).map (y.pos + ·) }).raiseLost f
        Machine.exec (.gapTimeout f) s = .next (after s (g.rxDrain f (y.held.length + 1)))) ∧
      (e.valid = true → e.tx = false → e.audio = true → x.started = true → d.mediaRuns e.engine = true →
        let due := x.mark + d.entPeriod e
        let a := (d.pass (due + e.skew * 1000 - d.mono)).rxFault f e.slots
        Machine.exec (.audioPacketTimeout f) s = .next (after s (a.setRxFlow f { a.rxFlow f with mark := due }))) ∧
      (∀ path : Bool,
        let bit := if path then 28 else 29
        e.valid = true → bitAt (d.ftWord f 14) bit = true →
          let a := d.pass ((if path then x.lastB else x.lastA) + d.entSilence e - d.mono)
          Machine.exec (.pathDown f path) s = .next (after s
            ((a.setFt f 14 (setBits (a.ftWord f 14) bit bit 0)).raise (pg .media e.engine) MEDIA.E_PATH_DOWN
              (wd ((if path then 65536 else 0) + f))))) ∧
      (e.valid = true → e.tx = true → d.mediaRuns e.engine = true →
        Machine.exec (.packetSend (.flow f)) s = .next (after s
          (if e.audio then d.txAudio f else if e.ty = 0 then d.txVideo f else d.txPayload f)))) ∧
    (∀ (port : Fin 64) (ptp : Option (Bool × Nat)) (x : Nat × List Nat), (d.hs.txq.find? fun x => decide (x.1 = port.val)) = some x →
      Machine.exec (.packetSend (.host port ptp)) s = .next (after s
        (({ d with hs := { d.hs with txq := d.hs.txq.erase x } } : Dev).hostOut port x.2 ptp)))

/-! ### The logic fabric and configuration -/

/-- The logic fabric: an accepted `TAP_REARM` clears what was lost and lets the taps in again; block memory steps on
both its ports and a region in a handover ends it on an uncorrectable error; a walk that goes stale is told, and one
that no longer is clears its sign; an oscillator's frequency is shown and told outside 45 to 880 MHz; a store request
inside the window waits its turn, one outside is refused with reason 1, and what is done is answered; a register access
of a fabric port reads or writes like any source. Rules: R353, R360, R361, R364, R367, R369. Where the spec is silent it
rests on the model's choices of log entries 16, 58, 97, 98, 99, 100, 109, 143. -/
def Obligations.FabricCommandsComplete : Prop :=
  ∀ (s : State) (src : Source) (v : Word), s.dev.coreOn = true →
    let d := s.dev.quiet
    (∀ n : Fin 32,
      let p := frPg n
      let w := trig FREG.TAP_REARM v
      let e := written d p FREG.TAP_CTL 0 1 w
      Accepts d src .freg n FREG.TAP_CTL.off w → bitAt (heard d p FREG.TAP_CTL 1 w) 0 = true →
        Machine.exec (.tapRearm src n v) s = .next (after s
          ((let lost := (List.range 1024).filter fun b => bitAt (e.reg p (FREG.TAP_LOST.at (b / 32))) (b % 32)
            let f := ((List.range 32).foldl (fun e j => e.setReg p (FREG.TAP_LOST.at j) 0) e).setF p FREG.TAP_LOST_ANY 0
            let g := lost.foldl (fun e b => e.tapIn n b) (f.setF p FREG.TAP_REARM 0)
            lost.foldl (fun e b => e.settleTrunk (tapTrunk n b)) g).breakLock .freg n FREG.TAP_CTL.off))) ∧
    (∀ (n b : Fin 32) (pa pb : Option BramOp),
      let e := d.bramAccess n b pa pb
      (d.reg (frPg n) FREG.BRAM_UE_CNT = e.reg (frPg n) FREG.BRAM_UE_CNT →
        Machine.exec (.bramAccess n b pa pb) s = .next (after s e)) ∧
      (d.reg (frPg n) FREG.BRAM_UE_CNT ≠ e.reg (frPg n) FREG.BRAM_UE_CNT →
        Machine.exec (.bramAccess n b pa pb) s = .next (after s (e.hoBramUe n)))) ∧
    (∀ n b : Fin 32, d.bramEcc n b = true →
      let x := d.region n
      (x.stale / 2 ^ b.val % 2 = 0 → Machine.exec (.walkStale n b true) s = .next (after s
        (((d.setRegion n { x with stale := x.stale + 2 ^ b.val }).setF (frPg n) FREG.WALK_STALE 1).raise (frPg n)
          FREG.E_WALK_STALE (wd b)))) ∧
      (x.stale / 2 ^ b.val % 2 = 1 → Machine.exec (.walkStale n b false) s = .next (after s
        ((d.setRegion n { x with stale := x.stale - 2 ^ b.val }).setF (frPg n) FREG.WALK_STALE
          (if x.stale - 2 ^ b.val = 0 then 0 else 1))))) ∧
    (∀ (k : Fin 8) (khz : BitVec 20), d.flag (frPg (4 * k)) FREG.OSC_CFG_EN = true →
      let e := d.setReg (frPg (4 * k)) FREG.OSC_MEAS (wd (2 ^ 31 + khz.toNat % 2 ^ 20))
      Machine.exec (.oscMeasure k khz) s = .next (after s
        (if khz.toNat < 45000 ∨ 880000 < khz.toNat then e.raise (frPg (4 * k)) FREG.E_OSC_RANGE else e))) ∧
    (∀ (n : Fin 34) (write : Bool) (a : BitVec 32) (data : List Byte) (len : Nat),
      let bs := data.map BitVec.toNat
      let bytes := if write then bs.length else len
      let q : UReq := ⟨n, write, a.toNat, bs, bytes⟩
      d.portServe n ≠ 0 → ¬ (d.portServe n = 2 ∧ write = true) →
        (∀ w, winOf (d.reg (regionPg n) FREG.USTORE_WIN) = some w → w.1 ≤ a.toNat → a.toNat + bytes ≤ w.1 + w.2 →
          Machine.exec (.ustoreRequest n write a data len) s = .next (after s
            (({ d with fab := { d.fab with ureqs := d.fab.ureqs ++ [q] } } : Dev).ustoreNext))) ∧
        (∀ w, winOf (d.reg (regionPg n) FREG.USTORE_WIN) = some w → ¬ (w.1 ≤ a.toNat ∧ a.toNat + bytes ≤ w.1 + w.2) →
          Machine.exec (.ustoreRequest n write a data len) s = .next (after s (d.ustoreErr q 1)))) ∧
    (∀ (q : UReq) (fault bad : Bool), d.fab.ubusy = some q →
      let e : Dev := { d with fab := { d.fab with ubusy := none } }
      Machine.exec (.ustoreDone fault bad) s = .next (after s
        (((if fault then e.ustoreErr q 2
           else if q.write then (e.storeRange (userBase + q.addr) q.data bad).send (.fabricRsp q.region 1 false [])
           else e.send (.fabricRsp q.region 1 false (memBytes e.sto.bytes (userBase + q.addr) q.len))).regionWake
             q.region).ustoreNext))) ∧
    (∀ (n : Fin 34) (p : Fin 8) (a : BitVec 27), d.regPort n.val p = true →
      (d.portServe n.val = 1 →
        let x := d.busWrite (regionSrc n) a.toNat v true .clean
        Machine.exec (.fportRegAccess n p a (some v)) s = .next (after s (x.1.send (.fabricRsp n.val 0 x.2.isSome [])))) ∧
      (d.portServe n.val ≠ 0 →
        let x := d.busRead (regionSrc n) a.toNat
        Machine.exec (.fportRegAccess n p a none) s = .next (after s (x.2.send (.fabricRsp n.val 0 false [x.1.toNat])))))

/-- The loader: an accepted `GO` without `ABORT` begins a load or a verification, `ABORT` ends one; the digest is done,
the image is verified whole before any region is written, a region's sectors are written and its version shown, or its
image noted for a tile region, a group's records are applied when all its regions are written; `RELEASE` takes a loaded
region out of isolation; a read-back reads what it is asked for. Start-up personality, handovers of regions, and the
image store: the supervisor loads the slot it starts from, waits for the host, or goes bare, and falls back at the
deadline; a region handover that has compared the words of every port is bound, or ended with outcome 1, one with a
silent port or pages that stay bound ends with outcome 2, and a switched one drains; a slot that is written shows
whether its image is good; a unit of the store is written, unless the supply fails. Rules: R388, R389, R390, R395, R398,
R399, R401, R404, R407, R410, R411. Where the spec is silent it rests on the model's choices of log entries 8, 16, 68,
103, 105, 108, 110, 112, 146, 164. -/
def Obligations.LoaderAndStoreComplete : Prop :=
  (∀ (s : State) (src : Source) (v : Word), s.dev.coreOn = true →
     let d := s.dev.quiet
     (let w := trig LDR.LDR_CTL_GO v
      let new := heard d ldrPg LDR.LDR_CTL 0xe3030000 w
      let e := written d ldrPg LDR.LDR_CTL 0x23030000 0xc0000000 w
      Accepts d src .ldr 0 LDR.LDR_CTL.off w → bitAt new 30 = false → bitAt new 31 = true →
        Machine.exec (.loadGo src v) s = .next (after s ((e.loadGo src new).breakLock .ldr 0 LDR.LDR_CTL.off))) ∧
     (let w := trig LDR.ABORT v
      let new := heard d ldrPg LDR.LDR_CTL 0xe3030000 w
      let e := written d ldrPg LDR.LDR_CTL 0x23030000 0xc0000000 w
      Accepts d src .ldr 0 LDR.LDR_CTL.off w → bitAt new 30 = true → bitAt new 31 = false →
        Machine.exec (.loadAbort src v) s = .next (after s (e.loadAbort.breakLock .ldr 0 LDR.LDR_CTL.off))) ∧
     (d.ld.job ≠ none → d.ldPhase = 1 → Machine.exec .digestDone s = .next (after s (d.setLdPhase 2))) ∧
     (∀ o : LoadJob, d.ld.job = some o →
       (d.ldPhase = 2 →
         let i := d.jobImg o
         let j := o.read i
         let head := firstErr [d.verifyHead j i j.mans j.sects, coverErr j.mans j.sects]
         (∀ e, head = some e → Machine.exec .verifyDone s = .next (after s (d.loadFail o e.1 e.2))) ∧
         (head = none →
           (∀ k, d.plainRecs i j.mans j.sects = .error k → Machine.exec .verifyDone s = .next (after s (d.loadFail o 1 k))) ∧
           (∀ recs, d.plainRecs i j.mans j.sects = .ok recs →
             let v : Verified := ⟨j.mans, j.sects, recs⟩
             let use := if j.verify then d.verifyRegions j.mans else d.verifyUse j v
             (∀ e, use = some e → Machine.exec .verifyDone s = .next (after s (d.loadFail o e.1 e.2))) ∧
             (use = none → Machine.exec .verifyDone s = .next (after s (d.writeBegin j v)))))) ∧
       (∀ k, o.next = some k → d.ldPhase = 3 →
         let m := o.mans.getD k ⟨0, 0, 0, 0, 0, 0, 0⟩
         let n := m.region
         let j := { o with done := o.done ++ [k] }
         (o.verify = true → Machine.exec .regionWriteDone s = .next (after s
           (((d.verifyRegion o n k).setLoad (some j)).verifyLoadDone j))) ∧
         (o.verify = false →
           let e := (if m.kind = 0 then d.setRegion n { d.region n with drives := [] } else d).writeSects o n (o.sectsOf k)
           (∀ err, e.2 = some err → Machine.exec .regionWriteDone s = .next (after s (e.1.loadFail o err.1 err.2))) ∧
           (e.2 = none →
             let f := if m.kind ≤ 1 then e.1.setReg (regionPg n) FREG.REGION_VER (wd o.ver) else { e.1 with
               ld := { e.1.ld with tileImgs := Tab.ins e.1.ld.tileImgs m.index ⟨o.src, o.base, (d.jobImg o).digest⟩ } }
             let g := if m.partner then f.partnerCopy m.repl n else f
             Machine.exec .regionWriteDone s = .next (after s ((g.setLoad (some j)).loadReach j))))) ∧
       (∀ g : Fin 8, d.ldPhase = 3 → o.verify = false → g.val < o.groups → o.complete.contains g.val = false →
         o.groupWritten g = true →
           let e := d.groupHeld o g
           (∀ x, e.allRegRecs o (o.regSects g) = .error x →
             Machine.exec (.groupComplete g) s = .next (after s (e.loadFail o x.1 x.2))) ∧
           (∀ rs, e.allRegRecs o (o.regSects g) = .ok rs →
             Machine.exec (.groupComplete g) s = .next (after s (e.groupRecords o g rs))))) ∧
     (∀ n : Fin 34,
       let p := pg (regionCls n) (regionInst n)
       let w := trig FREG.RELEASE v
       let e := written d p FREG.ISO_CTL 1 0 w
       Accepts d src (regionCls n) (regionInst n) FREG.ISO_CTL.off w → bitAt (heard d p FREG.ISO_CTL 1 w) 0 = true → e.iso n = 2 →
         Machine.exec (.isoRelease src n v) s = .next (after s
           ((e.regionRelease n).breakLock (regionCls n) (regionInst n) FREG.ISO_CTL.off))) ∧
     (let w := trig LDR.RB_CTL_GO v
      let new := heard d ldrPg LDR.RB_CTL 0xb01f01ff w
      let e := written d ldrPg LDR.RB_CTL 0x301f01ff 0x80000000 w
      Accepts d src .ldr 0 LDR.RB_CTL.off w → bitAt new 31 = true →
        Machine.exec (.readback src v) s = .next (after s ((e.readback new).breakLock .ldr 0 LDR.RB_CTL.off)))) ∧
  (∀ (s : State), s.dev.coreOn = true →
     let d := s.dev.quiet
     (d.pw.supRun = true → d.ld.job = none → d.ld.persSrc = none → d.ld.bare = false → d.ld.awaitHost = false →
       let n := d.fld stPg STORE.BOOT_SLOT
       (n < 4 →
         let e := d.loadStart 0 n .sup true true false
         (e.fld stPg (STORE.STATE.at n) ≠ 1 → Machine.exec .personalityLoad s = .next (after s e)) ∧
         (∀ j, e.fld stPg (STORE.STATE.at n) = 1 → e.ld.job = some j →
           Machine.exec .personalityLoad s = .next (after s (e.loadFail j 1 0)))) ∧
       (n = 4 → Machine.exec .personalityLoad s = .next (after s { d with ld := { d.ld with awaitHost := true } })) ∧
       (4 < n → Machine.exec .personalityLoad s = .next (after s d.persBare))) ∧
     (∀ t, d.ld.persAt = some t → d.ld.persSrc = none → d.ld.bare = false →
       let e := d.pass (t + d.ld.deadline * 1000000 - d.mono)
       let f : Dev := { e with ld := { e.ld with persAt := none, awaitHost := false, fellBack := true } }
       (f.ld.job = none → Machine.exec .persDeadline s = .next (after s f.persBare)) ∧
       (∀ j, f.ld.job = some j →
         let reached := (j.mans.filter fun m => decide (m.kind ≤ 1 ∧ f.iso m.region ≠ 0)).map (·.region)
         Machine.exec .persDeadline s = .next (after s
           ((reached.foldl (fun (e : Dev) n => e.regionDark n) (f.loadFail j 11 0)).persBare)))) ∧
     (∀ h : RegHo, d.ld.ho = some h →
       (∀ dt : Nat,
        let w := d.pass dt
        let k := cmpTotals h.cmps
        let g := { h with compared := k.1, bad := k.2 }
        let e := (w.setF ldrPg LDR.MISMATCH (Nat.min k.2 0xFFFF)).setRegHo (some g)
        let done := cmpDone h.cmps (w.hoPorts h) (w.fld ldrPg LDR.COMPARE)
        h.phase = 3 → h.ready = false →
          (done = true → Machine.exec (.regionHoCompareDone dt) s = .next (after s (if k.2 = 0 then e.hoArm g else e.hoEnd 1))) ∧
          (done = false → Machine.exec (.regionHoCompareDone dt) s = .next (after s w))) ∧
       (∀ t, h.phase = 3 → h.ready = false → cmpSilent h.cmps (d.hoPorts h) (d.fld ldrPg LDR.COMPARE) h.cmpAt = some t →
         Machine.exec .regionHoSilent s = .next (after s ((d.pass (t + 100000000 - d.mono)).hoEnd 2))) ∧
       (∀ t, h.since = some t → h.instant = none → Machine.exec .regionHoBindTimeout s = .next (after s
         ((d.pass (t + 10000000000 - d.mono)).hoEnd 2))) ∧
       (h.switched = true → Machine.exec .regionHoDrainEnd s = .next (after s (
         let e := h.pairs.foldl (fun (e : Dev) x => (e.regionDark x.1).setIso x.2 3) (d.reach h.drainAt)
         let f := h.pairs.foldl (fun (e : Dev) x => (e.setF (regionPg x.2) FREG.RELEASE 1).refreshRegion x.2) e
         let g := f.hoClose h 0
         (if g.ldPhase = 7 ∧ g.ld.job.isSome then g.setLdPhase 4 else g).groupsFollow)))) ∧
     (∀ j : StoreJob, d.sto.job = some j →
       (j.target = 0 → j.copied = true →
         Machine.exec .slotWriteDone s = .next (after s (
           let i : Img := ⟨d.sto.bytes, j.dest⟩
           let keeper := i.hasKeeper
           let good := i.headerOk 0 && d.sigOk i && !(keeper && !j.slave)
           let w := (if good then 2 else 3) * 2 ^ 30 + (if j.slave then 2 ^ 29 else 0) + (if keeper then 2 ^ 28 else 0) +
             i.arc % 256 * 65536
           let e := (d.storeEnd.setReg stPg (STORE.SLOT_STAT.at j.index) (wd w)).setReg stPg (STORE.SLOT_VER.at j.index) (wd i.ver)
           (e.count stPg STORE.SLOT_WR_CNT).raise stPg (if good then STORE.E_SLOT_WRITTEN else STORE.E_SLOT_BAD) (wd w)))) ∧
       (∀ bad : Bool, d.flag pwrPg PWR.PFAIL = false → j.copied = false →
         let e := d.storeUnit (j.dest + 64 * j.units) (memBytes d.cw.mem (d.storeSrc j + 64 * j.units) 64) bad
         Machine.exec (.storeWriteUnit none bad) s = .next (after s
           (({ e with sto := { e.sto with job := some { j with units := j.units + 1 } } } : Dev).setF stPg STORE.UNITS (j.units + 1))))) ∧
     (∀ (a : BitVec 26) (bs : List Byte) (bad : Bool), d.flag pwrPg PWR.PFAIL = false →
       0x3F00000 ≤ a.toNat → a.toNat + 64 ≤ 0x4000000 → a.toNat % 64 = 0 →
         Machine.exec (.storeWriteUnit (some (a, bs)) bad) s = .next (after s (d.storeUnit a.toNat (bs.map BitVec.toNat) bad))))

/-! ### Pins and pin peripherals -/

/-- The pin banks: an accepted masked write changes the pins of its mask, and the bank follows, where no bit is dropped;
the third right key of 0x5A5A, 0xA5A5, 0x5A5A with one mask locks the pins; a supply below 1.6 V is lost and one back at
1.6 V is back, each told. The pin peripherals: an AES3 receiver in lock takes a frame at the edge of its grid, or slips;
it locks with the rate it measured and unlocks; a transmitter sends the frame due at its edge; a timecode word received
is shown with its time, and its loss is told after 200 ms; a timecode generator sends its word at a frame and sets the
next; a serial byte written is queued, one read is taken from the queue, and one received is queued or goes to the logic
the port is attached to. Rules: R414, R421, R425, R431, R432, R433, R435. Where the spec is silent it rests on the
model's choices of log entries 8, 15, 16, 17, 116, 117, 118, 143, 146. -/
def Obligations.PinCommandsComplete : Prop :=
  (∀ (s : State) (src : Source) (b : Fin 12), s.dev.coreOn = true →
     let d := s.dev.quiet
     (∀ (which : PinMask) (v : Word),
       let f := PinMask.fld which
       let a := pg .iob b + f.off
       let new := maskedWord (d.raw a) v
       Accepts d src .iob b f.off v → d.iobDropped src b f.off v = 0 →
         Machine.exec (.maskedWrite src b which v) s = .next (after s
           ((if d.raw a = new ∨ which = .pull then d.put a new else (d.put a new).refreshBank b).breakLock .iob b f.off))) ∧
     (∀ mask key : BitVec 16,
       let w := wd (mask.toNat * 65536 + key.toNat)
       let n := match Tab.get d.pn.lockSeq b with | some x => if x.2 = (src.tag, mask.toNat) then x.1 else 0 | none => 0
       let clr : Dev := { d with pn := { d.pn with lockSeq := Tab.del d.pn.lockSeq b } }
       let put := fun k : Nat => ({ d with pn := { d.pn with lockSeq := Tab.ins d.pn.lockSeq b (k, src.tag, mask.toNat) } } : Dev)
       Accepts d src .iob b IOB.PIN_LOCK.off w → d.iobDropped src b IOB.PIN_LOCK.off w = 0 →
         Machine.exec (.pinLock src b mask key) s = .next (after s
           ((if n = 1 ∧ key = 0xA5A5 then put 2
             else if n = 2 ∧ key = 0x5A5A then (clr.lockPins b mask.toNat).refreshBank b
             else if key = 0x5A5A then put 1 else clr).breakLock .iob b IOB.PIN_LOCK.off))) ∧
     (∀ mv : BitVec 12,
       (d.flag (ioPg b) IOB.VIO_OK = true → mv.toNat < 1600 → Machine.exec (.vioLost b mv) s = .next (after s
         ((((d.setF (ioPg b) IOB.VIO_MV mv.toNat).setF (ioPg b) IOB.VIO_OK 0).refreshBank b).raise (ioPg b) IOB.E_VIO_LOST))) ∧
       (d.flag (ioPg b) IOB.VIO_OK = false → 1600 ≤ mv.toNat → Machine.exec (.vioBack b mv) s = .next (after s
         ((((d.setF (ioPg b) IOB.VIO_MV mv.toNat).setF (ioPg b) IOB.VIO_OK 1).refreshBank b).raise (ioPg b) IOB.E_VIO_BACK))))) ∧
  (∀ (s : State) (src : Source), s.dev.coreOn = true →
     let d := s.dev.quiet
     (∀ n : Fin 32,
       let p := aesPg n
       (∀ (a b : Sample) (va vb pa pb : Bool) (cs : Option (List Word)),
         d.aesRuns n false = true → d.flag p AES3.LOCK = true → d.pinSampled n 4 = true →
           Machine.exec (.aes3RxFrame n a b va vb pa pb cs) s = .next (after s (
             let k := edgeAt (d.aesRate n) d.now
             let e := match cs with
               | some l => ((List.range 6).foldl (fun (e : Dev) (i : Nat) => e.setReg p (AES3.CS_RX.at i) (l.getD i 0)) d).setF p
                 AES3.PRO ((l.getD 0 0).toNat % 2)
               | none => d
             let f := if pa then e.count p AES3.PARITY_CNT else e
             let g := if pb then f.count p AES3.PARITY_CNT else f
             if k < g.aesNext n k then g.aesSlip n
             else ((g.aesFill n k true).aesPush n k (aesWord a.toNat va pa) (aesWord b.toNat vb pb)).setAesNext n (k + 1)))) ∧
       (∀ hz : BitVec 20, d.aesRuns n false = true → d.pinSampled n 4 = true → d.flag p AES3.LOCK = false →
         Machine.exec (.aesLock n hz) s = .next (after s
           ((((d.aesFill n (edgeAt (d.aesRate n) d.now) false).setF p AES3.RATE hz.toNat).setF p AES3.LOCK 1).raise p AES3.E_AES_LOCK))) ∧
       (d.flag p AES3.LOCK = true → Machine.exec (.aesUnlock n) s = .next (after s
         (((if d.aesRuns n false then d.aesFill n (edgeAt (d.aesRate n) d.now) true else d).setF p AES3.LOCK 0).raise p
           AES3.E_AES_UNLOCK))) ∧
       (d.aesRuns n true = true →
         Machine.exec (.aes3TxFrame n) s = .next (after s (
           let r := d.aesRate n
           let k := Nat.max (d.aesNext n 0) (edgeAt r d.now)
           let t := edgeTime r k
           let e := d.reach t
           let q := (Tab.get e.pn.aesTx n).getD []
           let c := e.fld p AES3.CH
           let a := aesTake q c t
           let b := aesTake q (c + 1) t
           let i := k % 192
           let cs := if bitAt (e.reg p (AES3.CS_TX.at (i / 32))) (i % 32) then 1 else 0
           let v := fun (x : Bool) => if x then 1 else 0
           let w := a.1 + v a.2 * 2 ^ 24 + cs * 2 ^ 25 + (if i = 0 then 2 ^ 26 else 0) + b.1 * 2 ^ 32 + v b.2 * 2 ^ 56 + cs * 2 ^ 57
           let rest := q.filter fun x => decide (t < x.ts)
           let f : Dev := { e with pn := { e.pn with aesTx := Tab.put e.pn.aesTx n rest [] } }
           let g := f.setAesNext n (k + 1)
           if g.pinSampled n 4 then g.send (.serial p w) else g)))) ∧
     (∀ k : Fin 2,
       let p := ltcPg k
       (∀ w ub : Word, d.perOn .ltc k = true → d.flag p LTC.RD_EN = true → d.pinSampled (28 + 2 * k) 5 = true →
         Machine.exec (.ltcSync k w ub) s = .next (after s (
           let e := (d.setReg p LTC.LTC_RX w).setReg p LTC.LTC_RX_UB ub
           let f := (e.setReg p LTC.LTC_RX_NS (nsWord d.now)).setReg p LTC.LTC_RX_SEC (secWord d.now)
           { f with pn := { f.pn with ltcAt := Tab.ins f.pn.ltcAt k f.mono } }))) ∧
       (∀ t, Tab.get d.pn.ltcAt k = some t → d.perOn .ltc k = true → d.flag p LTC.RD_EN = true →
         let e := d.pass (t + 200000000 - d.mono)
         Machine.exec (.ltcLost k) s = .next (after s
           (({ e with pn := { e.pn with ltcAt := Tab.del e.pn.ltcAt k } } : Dev).raise p LTC.E_LTC_LOST))) ∧
       (let m := d.fld p LTC.MCG
        let vr := d.fld (pg .mcg m) MCG.VRATE
        d.perOn .ltc k = true → d.flag p LTC.GEN_EN = true → d.mcgRuns m = true → 1 ≤ vr → vr ≤ 5 →
          Machine.exec (.ltcCodewordStart k) s = .next (after s (
            let f := Nat.max ((Tab.get d.pn.ltcFrame k).getD 0) (frameAt vr d.now)
            let e := d.reach (frameTime vr f)
            let w := e.reg p LTC.LTC_SET
            let g := e.setReg p LTC.LTC_SET (wd (ltcNext w.toNat (ltcFps vr) (e.flag p LTC.DROP)))
            let h : Dev := { g with pn := { g.pn with ltcFrame := Tab.ins g.pn.ltcFrame k (f + 1) } }
            if h.pinSampled (29 + 2 * k) 5 then h.send (.serial p w.toNat) else h)))) ∧
     (∀ (kind : SerKind) (i : Fin 4),
       let c := SerKind.cls kind
       let p := pg c i
       (∀ v : Word, Accepts d src c i SER.SER_DATA.off v →
         Machine.exec (.serDataWrite src kind i v) s = .next (after s
           ((d.serPush p (v.toNat % 256)).breakLock c i SER.SER_DATA.off))) ∧
       (i.val < c.info.count → d.answers c = true → d.pwrState p ≠ 3 →
         Machine.exec (.serDataRead src kind i) s = .next (after s ((d.serPop p).2.send (.readData src [(d.serPop p).1])))) ∧
       (∀ b : Byte, d.perOn c i = true → d.pinSampled (serIn c i).1 (serIn c i).2 = true →
         (d.serAttach p = true → d.regionLive (d.serRegion p) = true → Machine.exec (.serRxByte kind i b) s = .next (after s
           ((d.regionWake (d.serRegion p)).send (.fabricRsp (d.serRegion p) 4 false [b.toNat % 256])))) ∧
         (d.serAttach p = false → (d.serRx p).length < 16 → Machine.exec (.serRxByte kind i b) s = .next (after s
           { d with pn := { d.pn with serRx := Tab.put d.pn.serRx p (d.serRx p ++ [b.toNat % 256]) [] } })))))

/-! ### The host and the management links -/

/-- DMA queues: a running queue is only stopped by a write of its configuration, a stopped one takes it whole with
`ENABLE` refused for a length code outside 4 to 12; a doorbell brings the descriptors rung since; the head of the
completion queue frees its entries; the descriptor in work ends with an error, or does its transfer. Notices to the host
and the PCIe link: the notice at the front of a ring is written where there is room, the head moves on and is written
back, and the queue interrupts when the notice is critical or enough have gathered, or the coalescing time has passed;
an accepted tail frees what was read; the link goes down with a host reset, and comes up with what it trained to, told
when that is not x8 Gen5. Rules: R441, R442, R446, R452, R453. Where the spec is silent it rests on the model's choices
of log entries 16, 38, 58, 120, 121. -/
def Obligations.HostQueuesComplete : Prop :=
  (∀ (s : State) (q : Fin 16), s.dev.coreOn = true →
     let d := s.dev.quiet
     let x := d.dmaQ q
     (∀ v : Word,
       let w := v &&& qcfgMask
       let l := bitsOf w 27 24
       (x.on = true → bitAt v 31 = true → Machine.exec (.qCfgWrite q v) s = .next (after s d)) ∧
       (x.on = true → bitAt v 31 = false → Machine.exec (.qCfgWrite q v) s = .next (after s
         ((d.dmaStop q).setDmaQ q (((d.dmaStop q).dmaQ q).set qCFG w)))) ∧
       (x.on = false → Machine.exec (.qCfgWrite q v) s = .next (after s
         (d.setDmaQ q (x.set qCFG (if l < 4 ∨ 12 < l then w &&& 0x7FFFFFFF else w))))) ∧
       (∀ ds : List Desc, x.on = true →
         let n := (v.toNat + x.size - x.idx qSQT % x.size) % x.size
         let new := (List.range n).map fun k => ds.getD k ⟨0, false, 0, 0, 0, 0, 0⟩
         Machine.exec (.sqDoorbell q v ds) s = .next (after s
           ((d.setDmaQ q { x.set qSQT (wd (v.toNat % x.size)) with rung := x.rung ++ new }).sqFetch q))) ∧
       (∀ ds : List Desc, x.on = false → Machine.exec (.sqDoorbell q v ds) s = .next (after s (d.setDmaQ q (x.set qSQT v)))) ∧
       Machine.exec (.cqHeadWrite q v) s = .next (after s
         (((d.setDmaQ q (x.set qCQH (if x.on then wd (v.toNat % x.size) else v))).cqDrain q 8192).sqFetch q))) ∧
     (∀ (c : Desc) (t : List Desc) (host : List Byte) (err : Option Nat), x.work = c :: t → x.on = true → x.pend.isEmpty = true →
       let bs := host.map BitVec.toNat
       let e := d.setDmaQ q { x with work := t }
       (descLegal x.packet c = false → Machine.exec (.dmaDescriptorDone q host err) s = .next (after s (e.descEnd q c 4 0 none))) ∧
       (descLegal x.packet c = true →
         (e.descBad c = true → Machine.exec (.dmaDescriptorDone q host err) s = .next (after s (e.descEnd q c 3 0 none))) ∧
         (e.descBad c = false →
           (c.op ≤ 2 → Machine.exec (.dmaDescriptorDone q host err) s = .next (after s (e.dmaMemory q c bs err))) ∧
           (c.op = 3 → Machine.exec (.dmaDescriptorDone q host err) s = .next (after s (e.dmaTransmit q c bs err))) ∧
           (∀ y, 3 < c.op → (d.md.hostq.find? fun y => decide (y.1 = q.val)) = some y →
             Machine.exec (.dmaDescriptorDone q host err) s = .next (after s
               (({ e with md := { e.md with hostq := e.md.hostq.erase y } } : Dev).dmaReceive q c y.2 err))))))) ∧
  (∀ (s : State), s.dev.coreOn = true →
     let d := s.dev.quiet
     (∀ (q : Fin 4) (e : QEnt) (t : List QEnt), (d.queue q).host = e :: t → d.flag ntcPg (NTC.RING_EN.at q) = true →
       d.ringRoom q = true →
         Machine.exec (.noticeRingWrite q) s = .next (after s (
           let x := d.queue q
           let addr := fun (lo hi : Fld) => (d.reg ntcPg (hi.at q)).toNat * 2 ^ 32 + (d.reg ntcPg (lo.at q)).toNat
           let h := d.fld ntcPg (NTC.NQ_HEAD_INDEX.at q)
           let n := (h + 1) % d.ringSize q
           let f := d.setQueue q { x with host := t, irqCount := x.irqCount + 1, irqSince := some (x.irqSince.getD d.mono) }
           let g := (f.send (.hostWrite (addr NTC.NQ_BASE_LO NTC.NQ_BASE_HI + 32 * h) (e.words q 0))).setReg ntcPg (NTC.NQ_HEAD.at q)
             (wd n)
           let k := g.send (.hostWrite (addr NTC.NQ_HWB_LO NTC.NQ_HWB_HI) [wd n])
           if e.sev = 3 ∨ d.fld ntcPg (NTC.COAL_CNT.at q) ≤ x.irqCount + 1 then k.queueRaise q else k))) ∧
     (∀ (src : Source) (q : Fin 4) (v : Word), Accepts d src .ntc 0 (NTC.NQ_TAIL.at q).off v →
       Machine.exec (.nqTailWrite src q v) s = .next (after s
         ((written d ntcPg (NTC.NQ_TAIL.at q) 0xffff 0 v).breakLock .ntc 0 (NTC.NQ_TAIL.at q).off))) ∧
     (∀ (q : Fin 4) (t : Nat), (d.queue q).irqSince = some t → d.fld ntcPg (NTC.COAL_US.at q) ≠ 0 →
       Machine.exec (.msixCoalesceTimeout q) s = .next (after s
         ((d.pass (t + d.fld ntcPg (NTC.COAL_US.at q) * 1000 - d.mono)).queueRaise q))) ∧
     (d.flag pciPg PCIE.LINK_UP = true →
       let e := ((d.setF pciPg PCIE.LINK_UP 0).count pciPg PCIE.LINK_DOWN_CNT).raise pciPg PCIE.E_PCIE_LINK_DOWN
       Machine.exec .pcieLinkDown s = .next (after s ((e.hostReset false).hostResetDone 2))) ∧
     (∀ (gen : Fin 8) (width : Fin 32), d.flag pciPg PCIE.LINK_UP = false →
       let e := (d.setReg pciPg PCIE.PCIE_STAT (wd (2 ^ 31 + gen * 2 ^ 24 + width * 65536))).raise pciPg PCIE.E_PCIE_LINK_UP
       Machine.exec (.pcieLinkUp gen width) s = .next (after s
         (if gen.val = 5 ∧ width.val = 8 then e else e.raise pciPg PCIE.E_PCIE_DEGRADED))))

/-- BRIZEL: a break at 115200 to 25000000 baud synchronises the link, with four credits for each channel; a frame that
is not taken, and a command on a channel outside 0 to 3 or without a credit, is answered NAK; a command in sequence,
with a credit, is acted on and answered: reads, writes and masked writes of registers, polls that wait, reads and writes
of frame memory, and the information command, with code 3 for an address or a count it may not have; ACK, NAK and CREDIT
of notices are followed; a notice frame that is ready leaves inside the window and is sent again when it was not
acknowledged. Rules: R454, R456, R457, R458, R459. Where the spec is silent it rests on the model's choices of log
entries 58, 123, 124, 125, 143. -/
def Obligations.BrizelCompletes : Prop :=
  ∀ (s : State), s.dev.coreOn = true →
    let d := s.dev.quiet
    (∀ baud : BitVec 25, 115200 ≤ baud.toNat → baud.toNat ≤ 25000000 →
      Machine.exec (.brizelBreak baud) s = .next (after s (
        let e := (d.blkLose.setReg blkPg BLK.BLK_STAT (wd (2 ^ 31 + baud.toNat))).setF blkPg BLK.WINDOW 0
        let f : Dev := { e with bz := { e.bz with last := [], bad := 0, polls := [] } }
        (List.range 4).foldl (fun (e : Dev) c => (e.setCredit c 4).brzFrame 6 c 0 [4]) (f.raise blkPg BLK.E_BLK_SYNC)))) ∧
    (d.synced = true →
      (∀ (ch : Byte) (seq : Option (BitVec 16)) (why : Fin 16), Machine.exec (.brizelFrameReject ch seq why) s = .next (after s
        (d.brzNak ch.toNat ((seq.map BitVec.toNat).getD 0xFFFF) why))) ∧
      (∀ (ch : Byte) (n count : BitVec 16) (addr mask v : Word) (ws : List Word) (ls : List (BitVec 64)) (es : List EccEvent)
        (op : Byte) (ms : BitVec 16) (why : Nat),
        (3 < ch.toNat ∧ why = 6) ∨ (ch.toNat ≤ 3 ∧ d.credit ch.toNat = 0 ∧ why = 5) →
          ∀ i ∈ [Instr.brizelRead ch n count addr, .brizelWrite ch n count addr ws, .mwrite ch n count addr mask v,
              .poll ch n count addr mask v ms, .fmread ch n count addr es, .fmwrite ch n count addr ls, .brizelInfo ch n op count],
            Machine.exec i s = .next (after s (d.brzNak ch.toNat n.toNat why))) ∧
      (∀ (ch : Byte) (n : BitVec 16),
        let c := ch.toNat
        let e := d.brzGood.setCredit c (d.credit c - 1)
        let f : Dev := { e with bz := { e.bz with last := Tab.ins e.bz.last c (n.toNat, []) } }
        let answer := fun (x : Dev) (bs : List Nat) => Host.Outcome.next (φ := Fault) (ρ := Refusal) (after s (x.brzRsp c n.toNat bs))
        c ≤ 3 → d.credit c ≠ 0 → (∀ x, Tab.get e.bz.last c = some x → x.1 ≠ n.toNat ∧ (x.1 + 1) % 65536 = n.toNat) →
          (∀ (count : BitVec 16) (addr : Word),
            (brzAddrOk addr.toNat count.toNat 1023 = true →
              let x := f.readRun .brizel addr.toNat count.toNat
              Machine.exec (.brizelRead ch n count addr) s = answer x.2 (rspHead 0 count.toNat ++ x.1.flatMap wordBytes)) ∧
            (brzAddrOk addr.toNat count.toNat 1023 = false →
              Machine.exec (.brizelRead ch n count addr) s = answer f (rspHead 3 0)) ∧
            (∀ ws : List Word, brzAddrOk addr.toNat count.toNat 1022 = true → ws.length = count.toNat →
              let x := f.writeRun .brizel addr.toNat 0 ws
              (x.2 = none → Machine.exec (.brizelWrite ch n count addr ws) s = answer x.1 (rspHead 0 0)) ∧
              (∀ r, x.2 = some r → Machine.exec (.brizelWrite ch n count addr ws) s = answer x.1 (rspRefused r.1 r.2))) ∧
            (∀ mask v : Word, brzAddrOk addr.toNat count.toNat 1 = true →
              let x := f.busWrite .brizel addr.toNat ((v &&& mask) ||| ((f.busRead .brizel addr.toNat).1 &&& ~~~mask)) true .clean
              (x.2 = none → Machine.exec (.mwrite ch n count addr mask v) s = answer x.1 (rspHead 0 0)) ∧
              (∀ r, x.2 = some r → Machine.exec (.mwrite ch n count addr mask v) s = answer x.1 (rspRefused r 0)) ∧
              (∀ ms : BitVec 16, Machine.exec (.poll ch n count addr mask v ms) s = .next (after s
                { f with bz := { f.bz with polls := f.bz.polls ++ [⟨c, n.toNat, addr.toNat, mask, v, f.mono + ms.toNat * 1000000⟩] } }))) ∧
            (fmAddrOk addr.toNat count.toNat = true →
              (∀ es : List EccEvent,
                let r := f.fmRead addr.toNat count.toNat es
                Machine.exec (.fmread ch n count addr es) s = answer r.1
                  (rspHead (if r.2.2 = 0 then 0 else 5) count.toNat ++ r.2.1.flatMap fun v => leBytes 8 v)) ∧
              (∀ ws : List (BitVec 64), ws.length = count.toNat → Machine.exec (.fmwrite ch n count addr ws) s =
                answer (f.fmSplit addr.toNat count.toNat (ws.map (·.toNat))) (rspHead 0 0)))) ∧
          Machine.exec (.brizelInfo ch n 7 0) s = answer f
            (rspHead 0 0 ++ wordBytes (f.raw (pg .sys 0)) ++ leBytes 2 1 ++ leBytes 2 4096)) ∧
      (∀ n : BitVec 16, Machine.exec (.brizelAck n) s = .next (after s
        (d.brzGood.setFlight (d.bz.flight.filter fun x => decide (x.1.seq ≠ n.toNat))))) ∧
      (∀ (n : BitVec 16),
        let e := d.brzGood.count blkPg BLK.NAK_RX_CNT
        (e.inFlight n.toNat = none → Machine.exec (.brizelNak n) s = .next (after s e)) ∧
        (∀ x, e.inFlight n.toNat = some x → Machine.exec (.brizelNak n) s = .next (after s (e.noticeAgain x)))) ∧
      (∀ (ch n : Byte), Machine.exec (.brizelCredit ch n) s = .next (after s
        (if ch.toNat = 0x80 then d.brzGood.setF blkPg BLK.WINDOW n.toNat else d.brzGood))) ∧
      (∀ (q : Fin 4) (t : Nat), d.brzReady q = some t → d.bz.flight.length < d.fld blkPg BLK.WINDOW →
        Machine.exec (.noticeFrameSend q) s = .next (after s (
          let e := d.pass (t - d.mono)
          let x := e.queue q
          let f := e.setQueue q { x with briz := x.briz.drop 128, brizSince := if x.briz.drop 128 = [] then none else some e.mono }
          let n := f.bz.nseq
          let g : Dev := { f with bz := { f.bz with nseq := (n + 1) % 65536 } }
          (g.setFlight (g.bz.flight ++ [(⟨n, q, x.briz.take 128, 1⟩, g.mono)])).send (.brizelNotice n (x.briz.take 128))))) ∧
      (∀ (n : BitVec 16) (x : _), d.inFlight n.toNat = some x → Machine.exec (.noticeResend n) s = .next (after s
        ((d.pass (x.2 + d.fld blkPg BLK.RETX_MS * 1000000 - d.mono)).noticeAgain x)))) ∧
    (∀ (ch : Byte) (p : _), (d.bz.polls.find? fun q => decide (q.chan = ch.toNat)) = some p →
      let c := ch.toNat
      let e : Dev := { d with bz := { d.bz with polls := d.bz.polls.erase p } }
      let x := e.busRead .brizel p.addr
      let y := (e.pass (p.due - e.mono)).busRead .brizel p.addr
      Machine.exec (.pollDone ch) s = .next (after s
        (if x.1 &&& p.mask = p.value then x.2.brzRsp c p.seq (rspHead 0 1 ++ wordBytes x.1)
         else y.2.brzRsp c p.seq (rspHead 4 1 ++ wordBytes y.1))))

/-- The slave ports, where the port is enabled: a register write runs its words and an error is kept, a read answers
with what it read, a buffer write fills the slave buffer, the status is read and the error cleared by reading; the
parallel port does the same by the top bit of its address. Rules: R460, R461, R462. -/
def Obligations.SlavePortsComplete : Prop :=
  ∀ (s : State) (a : Word), s.dev.coreOn = true →
    let d := s.dev.quiet
    (d.slvOn false = true →
      (∀ ws : List Word,
        let x := d.writeRun (slvSrc false) a.toNat 0 ws
        (x.2 = none → Machine.exec (.sspWriteReg a ws) s = .next (after s x.1)) ∧
        (∀ r, x.2 = some r → Machine.exec (.sspWriteReg a ws) s = .next (after s (x.1.slvError false r.1)))) ∧
      (∀ n : Nat,
        let x := d.readRun .ssp a.toNat n
        Machine.exec (.sspReadReg a n) s = .next (after s (x.2.send (.sspData (x.1.flatMap wordBytesBe))))) ∧
      (∀ bs : List Byte, Machine.exec (.sspWriteBuf a bs) s = .next (after s (d.slvBuf false a.toNat 4096 (bs.map BitVec.toNat)))) ∧
      Machine.exec .sspStatus s = .next (after s ((d.setF slvPg SLV.SSP_ERR 0).send (.sspData
        [(if d.flag slvPg SLV.SSP_BUSY then 1 else 0) + if d.flag slvPg SLV.SSP_ERR then 2 else 0])))) ∧
    (d.slvOn true = true → ∀ (ws : List Word) (n : Nat),
      let off := a.toNat % 2 ^ 31
      (2 ^ 31 ≤ a.toNat →
        let x := d.slvLoad off n
        let e := d.send (.readData .psp x.1)
        Machine.exec (.pspTransaction true a ws n) s = .next (after s (d.slvBuf true off (4 * ws.length) (ws.flatMap wordBytes))) ∧
        Machine.exec (.pspTransaction false a ws n) s = .next (after s (if x.2 < n then e.slvError true 0 else e))) ∧
      (a.toNat < 2 ^ 31 →
        let x := d.readRun .psp off n
        Machine.exec (.pspTransaction true a ws n) s = .next (after s (d.slvWrite true off ws)) ∧
        Machine.exec (.pspTransaction false a ws n) s = .next (after s (x.2.send (.readData .psp x.1)))))

/-! ### Security -/

/-- Critical commands, where the supervisor serves them and the envelope is of the command's own operation: one in a
mailbox runs on the envelope it holds, for source 1 or 3, and shows its result; one in an AUTHCMD frame in sequence,
with a credit, runs for source 2 and is answered with its result. Rules: R410, R479, R480, R481, R488. Where the spec is
silent it rests on the model's choices of log entries 123. -/
def Obligations.CriticalCommandsComplete : Prop :=
  ∀ (s : State) (op : Nat) (cmd : Carrier → Instr), s.dev.coreOn = true →
    let d := s.dev.quiet
    d.critServed = true →
    (∀ ok : Bool, (op, ok, cmd) ∈ [(0x01, true, Instr.writeCrit), (0x02, true, .lockOverride), (0x10, true, .keyLoad),
        (0x11, true, .keyLoadSigned), (0x12, true, .keyErase), (0x20, ok, fun x => .fuseProg x ok), (0x30, true, .slotWrite),
        (0x31, true, .slotErase), (0x32, true, .bankWrite), (0x40, true, .calOverwrite), (0x50, true, .keeperReload),
        (0x60, true, .debugUnlock)] →
      (∀ m : Fin 2,
        let b := d.mailEnv m
        let r := d.critExec (if m.val = 0 then 1 else 3) b ok
        d.flag authPg (AUTH.BUSY.at m) = true → envMine op b = true →
          Machine.exec (cmd (.mailbox m)) s = .next (after s (r.1.mailDone m (envOp b) r.2))) ∧
      (∀ (ch : Byte) (n : BitVec 16) (env : List Byte),
        let c := ch.toNat
        let b := env.map BitVec.toNat
        let e := d.brzGood.setCredit c (d.credit c - 1)
        let r := ({ e with bz := { e.bz with last := Tab.ins e.bz.last c (n.toNat, []) } } : Dev).critExec 2 b ok
        envMine op b = true → d.synced = true → c ≤ 3 → d.credit c ≠ 0 →
        (∀ x, Tab.get e.bz.last c = some x → x.1 ≠ n.toNat ∧ (x.1 + 1) % 65536 = n.toNat) →
          Machine.exec (cmd (.authcmd ch n env)) s = .next (after s (r.1.brzRsp c n.toNat (r.1.critRsp r.2)))))

/-- The rest of the security block: a tamper pin at its active level loses the keys, is latched and counted, and resets
SYS with scope 6 where it is set to, or waits for the supervisor; an accepted attestation request is taken when none
runs, and its end stores the report or the certificate; challenges are renewed, the debug port is locked again, and
unlocked by the owner's signature of the challenge; start-up verifies the active bank, then the other, and goes to
recovery when neither is good; a bank that is written is started in recovery; a JTAG instruction is loaded where the
port is open. Rules: R468, R474, R484, R485, R488. Where the spec is silent it rests on the model's choices of log
entries 16, 34, 35, 125, 127, 129, 130, 138. -/
def Obligations.SecurityCompletes : Prop :=
  ∀ (s : State),
    let d := s.dev.quiet
    (∀ (i : Fin 2) (level : Bool),
      let en := if i.val = 0 then SEC.EN0 else SEC.EN1
      let pol := if i.val = 0 then SEC.POL0 else SEC.POL1
      d.flag secPg en = true → d.flag secPg pol = level →
        let n := Nat.min (d.fld secPg SEC.COUNT + 1) 0xFFFF
        let w := d.fld secPg SEC.WHICH
        let e := ((d.keysLost.setF secPg SEC.LATCHED 1).setF secPg SEC.WHICH
          (w - (w / 2 ^ i.val % 2) * 2 ^ i.val + 2 ^ i.val)).setF secPg SEC.COUNT n
        (e.pw.supRun = true →
          let f := e.raise secPg SEC.E_TAMPER
          Machine.exec (.tamperTrip i level) s = .next (after s (if f.flag secPg SEC.ACT then f.fmLost.sysReset 6 else f))) ∧
        (e.pw.supRun = false →
          Machine.exec (.tamperTrip i level) s = .next (after s { e with sec := { e.sec with tamperDue := true } }))) ∧
    (s.dev.coreOn = true →
      (∀ (src : Source) (v : Word) (c : Instr) (w : Word),
        (c, w) ∈ [(Instr.attestationReport src v, trig SEC.GO (setField SEC.MODE 0 v)),
          (.certificateCopy src v, trig SEC.GO (trig SEC.MODE v))] →
        let e := written d secPg SEC.ATT_CTL 0x4fffffff 0x80000000 w
        let new := heard d secPg SEC.ATT_CTL 0xcfffffff w
        Accepts d src .sec 0 SEC.ATT_CTL.off w → bitAt new 31 = true → e.sec.att = none →
          Machine.exec c s = .next (after s
            ((({ e with sec := { e.sec with att := some (fieldOf SEC.MODE new, fieldOf SEC.ADDR new, e.now) } } : Dev).setReg secPg
              SEC.ATT_STAT (wd (2 ^ 31))).breakLock .sec 0 SEC.ATT_CTL.off))) ∧
      (∀ mode a t, d.sec.att = some (mode, a, t) → Machine.exec .attDone s = .next (after s (
        let e := d.fmStore supEp a (if mode = 0 then d.report t else d.certificate)
        let f : Dev := { e with sec := { e.sec with att := none } }
        let g := (f.setF secPg SEC.GO 0).setReg secPg SEC.ATT_STAT (wd (2 ^ 30 + attBytes mode))
        (g.count secPg SEC.ATT_CNT).raise secPg SEC.E_ATT_DONE))) ∧
      (∀ (src : Source) (v : Word) (c : Instr) (w : Word),
        (c, w) ∈ [(Instr.newChal src v, trig SEC.NEW_CHAL v), (.relock src v, trig SEC.RELOCK v)] →
        let e := written d secPg SEC.DBG_CTL 0 0xc0000000 w
        let new := heard d secPg SEC.DBG_CTL 0xc0000000 w
        Accepts d src .sec 0 SEC.DBG_CTL.off w →
          let f := if bitAt new 31 then e.newChal else e
          Machine.exec c s = .next (after s
            (((if bitAt new 30 then f.jtagLock else f).setReg secPg SEC.DBG_CTL 0).breakLock .sec 0 SEC.DBG_CTL.off))) ∧
      Machine.exec .chalRd s = .next (after s (d.send (.jtag ((List.range 8).map fun k => d.reg secPg (SEC.DBG_CHAL.at k))))) ∧
      (∀ blk : List Byte,
        let ok := !(d.flag secPg SEC.JTAG_OFF) &&
          d.ownerSig (blk.map BitVec.toNat) (Config.shake256 (d.chalBytes ++ d.serialBytes) 64)
        Machine.exec (.jtagUnlock blk) s = .next (after s (if ok then d.jtagUnlock 1 else d).newChal)) ∧
      (d.pw.supRun = false → d.sec.recovery = false → d.coreRails = true → d.pw.tripped = false →
       d.pw.dark = false →
         let a := d.sec.activeBank
         let e := d.setF secPg SEC.FAIL0 (d.bankFail a)
         Machine.exec .bootVerify s = .next (after s
           (if d.bankFail a = 0 then e.supStart a
            else if d.bankFail (1 - a) = 0 then e.supStart (1 - a)
            else (e.setF secPg SEC.FAIL1 (d.bankFail (1 - a))).recover))) ∧
      (∀ j : StoreJob, d.sto.job = some j → j.target = 1 → j.copied = true →
        let e := d.storeEnd
        (e.bankFail j.index = 0 →
          let f := e.raise stPg STORE.E_SLOT_WRITTEN
          Machine.exec .bankWriteDone s = .next (after s (if f.sec.recovery then f.sysReset 8 else f))) ∧
        (e.bankFail j.index ≠ 0 → Machine.exec .bankWriteDone s = .next (after s (e.raise stPg STORE.E_SLOT_BAD)))) ∧
      (∀ i : Fin 6,
        let k := if d.jtagOpen ∨ i.val ≤ 2 then i.val else 1
        Machine.exec (.jtagInstruction i) s = .next (after s
          (({ d with sec := { d.sec with jtag := k } } : Dev).setExtest (decide (k = 3 ∨ k = 4))))))

/-! ### Power, clocks and service -/

/-- Rails, power-fail and power states: a rail that is lost is counted and told, and with the core rails, the always-on
rail or the battery goes what the rule of that rail says; one that is back is told; the power-fail input mutes the
outputs and its end lets the store go on; an accepted `PWR_REQ` begins a transition, which is reached, a woken region no
sooner than its switch closes, and may go on to a request made meanwhile; the device goes dark and wakes. Rules: R242,
R306, R490, R492, R493, R496, R497, R500, R501. Where the spec is silent it rests on the model's choices of log entries
12, 16, 34, 35, 37, 138, 139, 163. -/
def Obligations.PowerCommandsComplete : Prop :=
  ∀ (s : State),
    let d := s.dev.quiet
    (∀ i : Fin 7, d.railOk i = true →
      let e := ((d.setRail i false).count pwrPg PWR.RAIL_LOSS_CNT).railEvent i PWR.E_RAIL_LOST
      (i.val = 2 →
        let f : Dev := { (e.porst 1).fmLost with pw := { (e.porst 1).fmLost.pw with railsOut := true } }
        Machine.exec (.railLost i) s = .next (after s (if f.railOk 6 then f else f.keysLost))) ∧
      (i.val ≠ 2 → coreRail i = true →
        let f := if i.val = 1 then (e.sysReset 2).fmLost else e.sysReset 2
        Machine.exec (.railLost i) s = .next (after s { f with pw := { f.pw with railsOut := true } })) ∧
      (i.val = 6 → Machine.exec (.railLost i) s = .next (after s (if e.railOk 2 then e else e.keysLost))) ∧
      (i.val ≠ 2 → coreRail i = false → i.val ≠ 6 →
        Machine.exec (.railLost i) s = .next (after s ((List.range 8).foldl (fun (e : Dev) g => e.pllUnlock g true) e).pcieDown))) ∧
    (∀ i : Fin 7, d.railOk i = false →
      let e := (d.setRail i true).railEvent i PWR.E_RAIL_BACK
      Machine.exec (.railBack i) s = .next (after s (if e.coreRails then { e with pw := { e.pw with railsOut := false } } else e))) ∧
    (d.flag pwrPg PWR.PFAIL = false → Machine.exec .pfail s = .next (after s
      ((((d.setF pwrPg PWR.PFAIL 1).count pwrPg PWR.PFAIL_CNT).raise pwrPg PWR.E_PFAIL).pfMuteAll))) ∧
    (d.flag pwrPg PWR.PFAIL = true → Machine.exec .pfailEnd s = .next (after s
      (((d.setF pwrPg PWR.PFAIL 0).raise pwrPg PWR.E_PFAIL_END).ustoreNext))) ∧
    (d.pw.dark = true →
      Machine.exec (.darkWake .porst) s = .next (after s (d.porst 0)) ∧
      Machine.exec (.darkWake .perst) s = .next (after s (d.sysReset 5).deadlineRuns) ∧
      Machine.exec (.darkWake .brk) s = .next (after s ((d.sysReset 5).send (.pin wakePin true false)))) ∧
    (s.dev.coreOn = true →
      (∀ (src : Source) (page : Fin 32768) (st : Fin 4) (v : Word) (c : Cls) (i : Nat) (r : RegSpec),
        let w := pwrReqWord st v
        let a := pg c i + HDR.PAGE_CTL.off
        let old := d.raw a
        let new := r.want c HDR.PAGE_CTL.off old w
        let e := (d.put a (r.stored old w)).classLive src c i HDR.PAGE_CTL.off Via.direct old new
        page.val * 0x1000 = pg c i → Accepts d src c i HDR.PAGE_CTL.off w → regAt c i HDR.PAGE_CTL.off = some r → bitAt w 1 = false →
          Machine.exec (.pwrReq src page st v) s = .next (after s
            ((if fieldChanged HDR.PWR_REQ old new then e.reqPower (pg c i) (fieldOf HDR.PWR_REQ new) else e).breakLock c i
              HDR.PAGE_CTL.off))) ∧
      (∀ (page : Fin 32768) (x : PwrTrans) (c : Cls) (i : Nat), pageAt (page * 0x1000) = some (c, i) →
        Tab.get d.pw.trans (page * 0x1000) = some x →
        let closed := match x.lag with | some n => d.pass (x.at_ + n - d.mono) | none => d
        let e := ({ closed with pw := { closed.pw with trans := Tab.del closed.pw.trans (page.val * 0x1000) } } : Dev).powerAt c i x.to_
        (x.wait = none → Machine.exec (.powerStateReached page) s = .next (after s e)) ∧
        (∀ st, x.wait = some st → Machine.exec (.powerStateReached page) s = .next (after s (e.reqPower (page * 0x1000) st)))) ∧
      (∀ (src : Source) (v : Word),
        let w := trig PWR.ENTER v
        Accepts d src .pwr 0 PWR.DARK_CTL.off w → bitAt (heard d pwrPg PWR.DARK_CTL 1 w) 0 = true →
          Machine.exec (.darkEnter src v) s = .next (after s
            ((written d pwrPg PWR.DARK_CTL 0 1 w).darkEnter.breakLock .pwr 0 PWR.DARK_CTL.off))))

/-- Clocks, temperature and service: the crystal is lost and back; a PLL of a pair fails over to its standby, at once or
when the standby has locked, is tried again after 10 s and restored after 60 s, and an accepted new `ACTIVE` switches
the pair; a temperature sample is shown and its crossings told, with the trip released when it has cooled; a trip resets
SYS with scope 4; a firmware change is prepared, compared, armed, timed out and drained; ageing and hours are kept, and
told once. Rules: R503, R505, R506, R507, R508, R512, R545, R546, R550. Where the spec is silent it rests on the model's
choices of log entries 16, 34, 127, 135, 137, 138, 140. -/
def Obligations.ClocksAndServiceComplete : Prop :=
  ∀ (s : State),
    let d := s.dev.quiet
    (∀ ts : List (BitVec 8), Machine.exec (.thermSample ts) s = .next (after s
      ((d.thermSample (ts.map BitVec.toNat)).tripRelease (ts.map BitVec.toNat)))) ∧
    Machine.exec .thermalTrip s = .next (after s { d.sysReset 4 with pw := { (d.sysReset 4).pw with tripped := true } }) ∧
    (s.dev.coreOn = true →
      (∀ khz : BitVec 16,
        (xinOk khz.toNat = false → d.flag clkPg CLK.HOLD = false →
          let e := d.setReg clkPg CLK.XIN_STAT (wd (2 ^ 30 + khz.toNat % 65536))
          Machine.exec (.xinLost khz) s = .next (after s ((e.count clkPg CLK.XIN_LOST_CNT).raise clkPg CLK.E_XIN_LOST))) ∧
        (xinOk khz.toNat = true → d.flag clkPg CLK.XIN_OK = false →
          let e := d.setReg clkPg CLK.XIN_STAT (wd (2 ^ 31 + khz.toNat % 65536))
          Machine.exec (.xinBack khz) s = .next (after s (if d.flag clkPg CLK.HOLD then e.raise clkPg CLK.E_XIN_BACK else e)))) ∧
      (∀ k : Fin 4,
        (d.flag clkPg (CLK.STANDBY_OK.at k) = true → k.val ∉ d.pw.cold →
          let e := d.pllFails k (d.fld clkPg (CLK.IN_USE.at k))
          Machine.exec (.pllFailover k) s = .next (after s
            (if d.fld clkPg (CLK.MODE.at k) = 1 then { e with pw := { e.pw with cold := e.pw.cold ++ [k.val] } }
             else (e.pairSwitch k).pairBare k))) ∧
        (k.val ∈ d.pw.cold → Machine.exec (.pllColdRelock k) s = .next (after s
          ((({ d with pw := { d.pw with cold := d.pw.cold.filter fun x => decide (x ≠ k.val) } } : Dev).pairSwitch k).pairBare k))) ∧
        (∀ t, Tab.get d.pw.failAt k = some t → d.pllRetired k = false → d.flag clkPg (CLK.STANDBY_OK.at k) = false →
          k.val ∉ d.pw.cold →
            let e := d.pass (t + 10000000000 - d.mono)
            Machine.exec (.pllRetry k true) s = .next (after s
              { e with pw := { e.pw with lockAt := Tab.ins e.pw.lockAt k e.mono, failAt := Tab.del e.pw.failAt k } }) ∧
            Machine.exec (.pllRetry k false) s = .next (after s (e.pllFails k (e.failedPll k)))) ∧
        (∀ t, Tab.get d.pw.lockAt k = some t → Machine.exec (.pllRestored k) s = .next (after s (
          let e := d.pass (t + 60000000000 - d.mono)
          let f : Dev := { e with pw := { e.pw with
            lockAt := Tab.del e.pw.lockAt k, noSpare := e.pw.noSpare.filter fun x => decide (x ≠ k.val) } }
          (f.setF clkPg (CLK.STANDBY_OK.at k) 1).pairEvent k CLK.E_PLL_RESTORED))) ∧
        (∀ (src : Source) (v : Word),
          let f := CLK.PAIR_CFG.at k
          let e := written d clkPg f 3 0 v
          Accepts d src .clk 0 f.off v → fieldOf CLK.ACTIVE (heard d clkPg f 3 v) ≠ e.fld clkPg (CLK.IN_USE.at k) →
            Machine.exec (.plannedPllSwitch src k v) s = .next (after s ((e.pairSwitch k).breakLock .clk 0 f.off)))) ∧
      (∀ (src : Source) (v : Word) (c : Instr) (w : Word),
        (c, w) ∈ [(Instr.fwChg src v, trig SRV.GO v), (.fwAbort src v, trig SRV.ABORT v)] →
        let e := written d srvPg SRV.FW_CHG 0x3ffffff 0xc0000000 w
        let new := heard d srvPg SRV.FW_CHG 0xc3ffffff w
        Accepts d src .srv 0 SRV.FW_CHG.off w →
          let f := if bitAt new 31 then e.fwGo else e
          Machine.exec c s = .next (after s ((if bitAt new 30 then f.fwAbort else f).breakLock .srv 0 SRV.FW_CHG.off))) ∧
      (∀ x : FwSt, d.fw = some x →
        (d.fld srvPg SRV.PHASE = 1 → Machine.exec .fwPrepareDone s = .next (after s
          (if d.bankFail x.new = 0 then d.setFw 2 { x with since := some d.mono }
           else (d.setF srvPg SRV.FAIL (d.bankFail x.new)).fwEnd 4))) ∧
        (∀ diff : Nat, d.fld srvPg SRV.PHASE = 2 ∨ d.fld srvPg SRV.PHASE = 3 → x.ready = false →
          Machine.exec (.fwCompareDone diff) s = .next (after s (
            let ph := d.fld srvPg SRV.PHASE
            let e := if ph = 2 then d.pass (x.since.getD d.mono + d.fld srvPg SRV.OVERLAP * 1000000 - d.mono) else d
            if e.servo = 1 then (if ph = 2 then e.setFw 3 { x with since := some e.mono } else e)
            else
              let k := if e.fld tmPg TIME.SRC = 0 then 0 else diff
              let f := e.setF srvPg SRV.DIFF (Nat.min k 0xFFFF)
              if f.fld srvPg SRV.TOL < k then (f.setF srvPg SRV.PHASE 3).fwEnd 1
              else (f.setF srvPg SRV.PHASE 3).fwArm { x with since := none }))) ∧
        (∀ t, x.since = some t → d.fld srvPg SRV.PHASE = 3 → x.instant = none →
          Machine.exec .fwArmTimeout s = .next (after s ((d.pass (t + 10000000000 - d.mono)).fwEnd 2))) ∧
        (x.switched = true → Machine.exec .fwDrainEnd s = .next (after s
          ((d.setReg secPg SEC.FW_VER (wd (d.bankVer x.new))).fwEnd 0)))) ∧
      (∀ ss : List (BitVec 16),
        let e := (List.range 8).foldl (fun (e : Dev) i => e.setReg monPg (MON.AGE_SHIFT.at i)
          (wd (2 ^ 31 + (ss.map BitVec.toNat).getD i 0 % 65536))) d
        let lvl : Int := e.fld monPg MON.SHIFT_WARN
        let far := (List.range 8).find? fun i => decide (lvl ≤ sext 16 (e.fld monPg (MON.SHIFT.at i)))
        (far = none → Machine.exec (.ageMeasure ss) s = .next (after s e)) ∧
        (∀ i, far = some i → Machine.exec (.ageMeasure ss) s = .next (after s
          (if e.pw.aged then e
           else ({ e with pw := { e.pw with aged := true } } : Dev).raise monPg MON.E_AGE_WARN (wd i)
             (e.reg monPg (MON.AGE_SHIFT.at i)))))) ∧
      Machine.exec .hoursUpdate s = .next (after s (
        let e := d.pass (d.pw.hourAt + 3600000000000 - d.mono)
        let add := fun (w : Word) (n : Nat) => wd (Nat.min (w.toNat + n) 0xFFFFFFFF)
        let f := e.setReg monPg MON.AGE_HOURS (add (e.reg monPg MON.AGE_HOURS) 1)
        let g := f.setReg monPg MON.AGE_EQ (add (f.reg monPg MON.AGE_EQ) (if f.pw.hotHour then 2 else 1))
        let h : Dev := { g with pw := { g.pw with hotHour := false, hourAt := g.mono } }
        if h.pw.worn = false ∧ h.fld monPg MON.LIFE_HOURS ≤ (h.reg monPg MON.AGE_EQ).toNat then
          ({ h with pw := { h.pw with worn := true } } : Dev).raise monPg MON.E_LIFE_WARN
        else h)))

/-! ### Events, refusals and switches, as the rules have them -/

/-- R27: an event sets its `EVT_STAT` bit only when its `EVT_EN` bit is 1, and becomes a notice only when both its
`EVT_EN` bit and its `EVT_NOTICE` bit are 1. The bits of events of severity 2 and 3 read 1 (R28), the premise on them.
The last clause says where the notice goes: to the page's `QUEUE`, the fault queue or the urgent queue. -/
def Obligations.EventGates : Prop :=
  ∀ (d : Dev) (p bit code sev : Nat) (w4 w5 w6 w7 : Word),
    let en := bitAt (d.reg p HDR.EVT_EN) bit
    let sel := bitAt (d.reg p HDR.EVT_NOTICE) bit
    let e := d.setReg p HDR.EVT_STAT (d.reg p HDR.EVT_STAT ||| BitVec.ofNat 32 (2 ^ bit))
    (2 ≤ sev → en = true ∧ sel = true) →
      (en = false → d.raiseCode p bit code sev w4 w5 w6 w7 = d) ∧
      (en = true → sel = false → d.raiseCode p bit code sev w4 w5 w6 w7 = e) ∧
      (en = true → sel = true →
        (d.raiseRaw p bit code sev w4 w5 w6 w7).1 =
          (e.emit code sev (if sev = 3 then 0 else if sev = 2 then 1 else e.fld p HDR.QUEUE) p w4 w5 w6 w7).1)

/-- What an event leaves as it was: everything of the device but registers and notice queues, and of the registers all
but the event status of its page and the notice registers of `NTC`. -/
def Obligations.EventFrame : Prop :=
  ∀ (d : Dev) (p bit code sev : Nat) (w4 w5 w6 w7 : Word),
    let e := d.raiseCode p bit code sev w4 w5 w6 w7
    e = { d with regs := e.regs, nq := e.nq } ∧
    ∀ b, b ≠ p + HDR.EVT_STAT.off → b < pg .ntc 0 ∨ pg .ntc 0 + 0x1000 ≤ b → e.raw b = d.raw b

/-- R41: a SYS reset follows a write of 1 to `PAGE_CTL.BLK_RST` of the `SYS` page; like any other write it is refused
with cause OWNER where ownership bars its source (R32), and with cause LOCKED where the page is locked (R34), and then
it resets nothing. -/
def Obligations.SysResetByWrite : Prop :=
  ∀ (s : State) (src : Source) (v : Word), s.dev.coreOn = true →
    let d := s.dev.quiet
    let p := pg .sys 0
    let off := HDR.PAGE_CTL.off
    ∀ page : Fin 32768, page.val * 0x1000 = p →
      let turned := fun k : Nat => Machine.exec (.blkRst src page v) s = .next (after s
        (let e := d.refuse src p off k (v ||| 2)
         { e with lockSeq := Tab.del e.lockSeq p }))
      (Accepts d src .sys 0 off (v ||| 2) →
        Machine.exec (.blkRst src page v) s = .next (after s ((d.sysReset 3).breakLock .sys 0 off))) ∧
      (d.answers .sys = true → d.ownerBars src .sys 0 = true → turned 2) ∧
      (d.answers .sys = true → d.ownerBars src .sys 0 = false → d.flag p HDR.LOCKED = true → turned 3)

/-- R298: a write to `FLOW_ROUTE` that changes any field of a flow with a bound producer or consumer is refused with
cause BLOCK, where no cause that comes first in R553 applies; the refusal leaves every flow's route as it was, and so
does the whole command unless something that waited falls due after it (`Dev.calm`). -/
def Obligations.RouteOfABoundFlow : Prop :=
  ∀ (s : State) (src : Source) (v : Word) (r : RegSpec), s.dev.coreOn = true →
    let d := s.dev.quiet
    let p := pg .cway 0
    let off := CWAY.FLOW_ROUTE.off
    let f := d.fld p CWAY.FLOW_SEL_FLOW
    regAt .cway 0 off = some r → d.answers .cway = true →
    d.ownerBars src .cway 0 = false → d.lockBars .cway 0 off r v = false → d.critBars .cway 0 off r v = false →
    d.powerBars .cway 0 off = false → d.boundBars src .cway 0 off r v = false →
    d.valueBars .cway 0 off r (r.want .cway off (d.raw (p + off)) v) = false →
    v &&& 0xFF8FFFFF ≠ d.route f → d.flowBound f = true →
      let e := d.refuse src p off 8 v
      let refused : Dev := { e with lockSeq := Tab.del e.lockSeq p }
      Machine.exec (.flowRoute src v) s = .next (after s refused) ∧ refused.route = s.dev.route ∧
      (s.dev.calm = true → (after s refused).dev.route = s.dev.route)

/-- R508: a write to `PAIR_CFG.ACTIVE` that names the standby makes a planned switch under R505: the pair runs on the
other PLL, the switch is counted, `PLL_FAILOVER` is raised. It is refused with cause BLOCK while `STANDBY_OK` is 0,
where no cause that comes first in R553 applies. -/
def Obligations.PlannedSwitch : Prop :=
  ∀ (s : State) (src : Source) (k : Fin 4) (v : Word), s.dev.coreOn = true →
    let d := s.dev.quiet
    let p := pg .clk 0
    let f := CLK.PAIR_CFG.at k
    (v &&& 1).toNat ≠ d.fld p (CLK.IN_USE.at k) →
      (Accepts d src .clk 0 f.off v →
        Machine.exec (.plannedPllSwitch src k v) s = .next (after s
          ((let e := written d p f 3 0 v
            ((e.setF p (CLK.IN_USE.at k) (1 - e.fld p (CLK.IN_USE.at k))).count p CLK.FAILOVER_CNT).pairEvent k
              CLK.E_PLL_FAILOVER).breakLock .clk 0 f.off))) ∧
      (∀ r, d.flag p (CLK.STANDBY_OK.at k) = false → regAt .clk 0 f.off = some r → d.answers .clk = true →
        d.ownerBars src .clk 0 = false → d.lockBars .clk 0 f.off r v = false → d.critBars .clk 0 f.off r v = false →
        d.powerBars .clk 0 f.off = false → d.boundBars src .clk 0 f.off r v = false →
        d.valueBars .clk 0 f.off r (r.want .clk f.off (d.raw (p + f.off)) v) = false →
          Machine.exec (.plannedPllSwitch src k v) s = .next (after s
            (let e := d.refuse src p f.off 8 v
             { e with lockSeq := Tab.del e.lockSeq p })))

/-! ### What no command changes -/

/-- After reset the registers, the snapshots and both memories are in canonical form. -/
def Obligations.CanonAtReset : Prop :=
 Canon State.reset.dev

/-- Every step keeps the registers, the snapshots and both memories in canonical form. -/
def Obligations.CanonKept : Prop :=
  ∀ s t : State, Canon s.dev → Machine.step s = .next t → Canon t.dev

/-- Frame memory reads the same after every step but those of the commands that may store to it: a writing memory flit,
a frame port, the engine of the host queues, the links and slave ports, the loader, the security block's reports, and
what erases it. No register write, no reset, no event and no passing of time changes a byte of it. -/
def Obligations.FrameMemoryKept : Prop :=
  ∀ (s t : State) (a : Nat), (∀ c rest, s.pending = c :: rest → storesToFrames c = false) →
    Machine.step s = .next t → memGet t.dev.cw.mem a = memGet s.dev.cw.mem a

/-- The user area of the image store reads the same after every step but the end of a request of the user store port and
the write of a unit. -/
def Obligations.ImageStoreKept : Prop :=
  ∀ (s t : State) (a : Nat), (∀ c rest, s.pending = c :: rest → storesToImages c = false) →
    Machine.step s = .next t → memGet t.dev.sto.bytes a = memGet s.dev.sto.bytes a

/-- Elapsed time never falls: no command and no reset turns it back (device time is another matter, R319, R324). -/
def Obligations.ElapsedTimeNeverFalls : Prop :=
  ∀ s t : State, Machine.step s = .next t → s.dev.mono ≤ t.dev.mono

/-- Which bytes a store to frame memory changes. A memory flit's write changes bytes of its own words alone, whatever
else it does (corrections, refusal by the slave buffer); where it meets no slave buffer and writes whole words, each
byte reads as written, the first in bits 7:0 (R275, R284). A transfer of bytes changes the bytes from its address on
alone, and they read as written where it meets no slave buffer. Where the spec is silent it rests on the model's choices
of log entries 13, 58. -/
def Obligations.FrameMemoryStores : Prop :=
  (∀ (s t : State) (m : MemFlit) (es : List EccEvent) (b : Nat), m.write = true → FrameMemCanon s.dev →
    Machine.exec (.memoryAccess m es) s = .next t →
      (b < m.addr ∨ m.addr + 8 * m.data.length ≤ b → memGet t.dev.cw.mem b = memGet s.dev.cw.mem b) ∧
      (s.dev.coreOn = true → s.dev.quiet.bufHit false m.addr (8 * m.data.length) = none →
        m.data.length ≠ 1 ∨ m.be = 255 →
        ∀ k w j, m.data[k]? = some w → j < 8 →
          memGet t.dev.cw.mem (m.addr + 8 * k + j) = BitVec.ofNat 8 (w.toNat / 2 ^ (8 * j)))) ∧
  (∀ (d : Dev) (ep a b : Nat) (bytes : List Nat), FrameMemCanon d →
    (b < a ∨ a + bytes.length ≤ b → memGet (d.fmStore ep a bytes).cw.mem b = memGet d.cw.mem b) ∧
    (d.bufHit false a bytes.length = none → ∀ k v, bytes[k]? = some v →
      memGet (d.fmStore ep a bytes).cw.mem (a + k) = BitVec.ofNat 8 v))

/-- What a MOVE operation of a tile leaves as it was: everything of the device but the state of its own tile, and the
messages of earlier commands. After it comes what follows every command, which is nothing where nothing falls due
(`Dev.calm`); with the tiles' clock off it changes nothing. -/
def Obligations.TileMoveFrame : Prop :=
  ∀ (s t : State) (n : Fin 4096) (c : Instr),
    c ∈ [Instr.moveNop n, .moveLdt n, .moveMovt n, .moveAddt n, .moveClra n, .moveLda n, .moveSetoff n, .moveGetoff n,
      .moveSettag n] →
    Machine.exec c s = .next t →
      ∃ e : Dev, t = (if s.dev.tilesOn = true then after s e else { s with dev := s.dev.quiet }) ∧
        (s.dev.calm = true → s.dev.tilesOn = true → t.dev = e) ∧
        e = { s.dev with out := [], ti := { s.dev.ti with tiles := e.ti.tiles } } ∧
        ∀ L, L ≠ (s.dev.site n).L → e.tile L = s.dev.tile L
end

