-- ==== Sys2Proof/Laws/State.lean ====
section
/-! SUPPORT. What each update of the state leaves as it was: one lemma per field and update, so that no proof unfolds an
update. -/

namespace Sys2Proof.Machine

variable (d : Dev)

/-! `put` -/

@[simp] theorem Dev.put_snaps (a : Nat) (v : Word) : (d.put a v).snaps = d.snaps := rfl
@[simp] theorem Dev.put_lockSeq (a : Nat) (v : Word) : (d.put a v).lockSeq = d.lockSeq := rfl
@[simp] theorem Dev.put_now (a : Nat) (v : Word) : (d.put a v).now = d.now := rfl
@[simp] theorem Dev.put_frac (a : Nat) (v : Word) : (d.put a v).frac = d.frac := rfl
@[simp] theorem Dev.put_mono (a : Nat) (v : Word) : (d.put a v).mono = d.mono := rfl
@[simp] theorem Dev.put_nq (a : Nat) (v : Word) : (d.put a v).nq = d.nq := rfl
@[simp] theorem Dev.put_out (a : Nat) (v : Word) : (d.put a v).out = d.out := rfl
@[simp] theorem Dev.put_fresh (a : Nat) (v : Word) : (d.put a v).fresh = d.fresh := rfl
@[simp] theorem Dev.put_mst (a : Nat) (v : Word) : (d.put a v).mst = d.mst := rfl
@[simp] theorem Dev.put_an (a : Nat) (v : Word) : (d.put a v).an = d.an := rfl
@[simp] theorem Dev.put_ti (a : Nat) (v : Word) : (d.put a v).ti = d.ti := rfl
@[simp] theorem Dev.put_cw (a : Nat) (v : Word) : (d.put a v).cw = d.cw := rfl
@[simp] theorem Dev.put_tm (a : Nat) (v : Word) : (d.put a v).tm = d.tm := rfl
@[simp] theorem Dev.put_md (a : Nat) (v : Word) : (d.put a v).md = d.md := rfl
@[simp] theorem Dev.put_ln (a : Nat) (v : Word) : (d.put a v).ln = d.ln := rfl
@[simp] theorem Dev.put_fab (a : Nat) (v : Word) : (d.put a v).fab = d.fab := rfl
@[simp] theorem Dev.put_ld (a : Nat) (v : Word) : (d.put a v).ld = d.ld := rfl
@[simp] theorem Dev.put_sto (a : Nat) (v : Word) : (d.put a v).sto = d.sto := rfl
@[simp] theorem Dev.put_sec (a : Nat) (v : Word) : (d.put a v).sec = d.sec := rfl
@[simp] theorem Dev.put_pn (a : Nat) (v : Word) : (d.put a v).pn = d.pn := rfl
@[simp] theorem Dev.put_pw (a : Nat) (v : Word) : (d.put a v).pw = d.pw := rfl
@[simp] theorem Dev.put_fw (a : Nat) (v : Word) : (d.put a v).fw = d.fw := rfl
@[simp] theorem Dev.put_hs (a : Nat) (v : Word) : (d.put a v).hs = d.hs := rfl
@[simp] theorem Dev.put_bz (a : Nat) (v : Word) : (d.put a v).bz = d.bz := rfl

/-! `setF` -/

@[simp] theorem Dev.setF_snaps (p : Nat) (f : Fld) (n : Nat) : (d.setF p f n).snaps = d.snaps := rfl
@[simp] theorem Dev.setF_lockSeq (p : Nat) (f : Fld) (n : Nat) : (d.setF p f n).lockSeq = d.lockSeq := rfl
@[simp] theorem Dev.setF_now (p : Nat) (f : Fld) (n : Nat) : (d.setF p f n).now = d.now := rfl
@[simp] theorem Dev.setF_frac (p : Nat) (f : Fld) (n : Nat) : (d.setF p f n).frac = d.frac := rfl
@[simp] theorem Dev.setF_mono (p : Nat) (f : Fld) (n : Nat) : (d.setF p f n).mono = d.mono := rfl
@[simp] theorem Dev.setF_nq (p : Nat) (f : Fld) (n : Nat) : (d.setF p f n).nq = d.nq := rfl
@[simp] theorem Dev.setF_out (p : Nat) (f : Fld) (n : Nat) : (d.setF p f n).out = d.out := rfl
@[simp] theorem Dev.setF_fresh (p : Nat) (f : Fld) (n : Nat) : (d.setF p f n).fresh = d.fresh := rfl
@[simp] theorem Dev.setF_mst (p : Nat) (f : Fld) (n : Nat) : (d.setF p f n).mst = d.mst := rfl
@[simp] theorem Dev.setF_an (p : Nat) (f : Fld) (n : Nat) : (d.setF p f n).an = d.an := rfl
@[simp] theorem Dev.setF_ti (p : Nat) (f : Fld) (n : Nat) : (d.setF p f n).ti = d.ti := rfl
@[simp] theorem Dev.setF_cw (p : Nat) (f : Fld) (n : Nat) : (d.setF p f n).cw = d.cw := rfl
@[simp] theorem Dev.setF_tm (p : Nat) (f : Fld) (n : Nat) : (d.setF p f n).tm = d.tm := rfl
@[simp] theorem Dev.setF_md (p : Nat) (f : Fld) (n : Nat) : (d.setF p f n).md = d.md := rfl
@[simp] theorem Dev.setF_ln (p : Nat) (f : Fld) (n : Nat) : (d.setF p f n).ln = d.ln := rfl
@[simp] theorem Dev.setF_fab (p : Nat) (f : Fld) (n : Nat) : (d.setF p f n).fab = d.fab := rfl
@[simp] theorem Dev.setF_ld (p : Nat) (f : Fld) (n : Nat) : (d.setF p f n).ld = d.ld := rfl
@[simp] theorem Dev.setF_sto (p : Nat) (f : Fld) (n : Nat) : (d.setF p f n).sto = d.sto := rfl
@[simp] theorem Dev.setF_sec (p : Nat) (f : Fld) (n : Nat) : (d.setF p f n).sec = d.sec := rfl
@[simp] theorem Dev.setF_pn (p : Nat) (f : Fld) (n : Nat) : (d.setF p f n).pn = d.pn := rfl
@[simp] theorem Dev.setF_pw (p : Nat) (f : Fld) (n : Nat) : (d.setF p f n).pw = d.pw := rfl
@[simp] theorem Dev.setF_fw (p : Nat) (f : Fld) (n : Nat) : (d.setF p f n).fw = d.fw := rfl
@[simp] theorem Dev.setF_hs (p : Nat) (f : Fld) (n : Nat) : (d.setF p f n).hs = d.hs := rfl
@[simp] theorem Dev.setF_bz (p : Nat) (f : Fld) (n : Nat) : (d.setF p f n).bz = d.bz := rfl

/-! `setFlag` -/

@[simp] theorem Dev.setFlag_snaps (p : Nat) (f : Fld) (b : Bool) : (d.setFlag p f b).snaps = d.snaps := rfl
@[simp] theorem Dev.setFlag_lockSeq (p : Nat) (f : Fld) (b : Bool) : (d.setFlag p f b).lockSeq = d.lockSeq := rfl
@[simp] theorem Dev.setFlag_now (p : Nat) (f : Fld) (b : Bool) : (d.setFlag p f b).now = d.now := rfl
@[simp] theorem Dev.setFlag_frac (p : Nat) (f : Fld) (b : Bool) : (d.setFlag p f b).frac = d.frac := rfl
@[simp] theorem Dev.setFlag_mono (p : Nat) (f : Fld) (b : Bool) : (d.setFlag p f b).mono = d.mono := rfl
@[simp] theorem Dev.setFlag_nq (p : Nat) (f : Fld) (b : Bool) : (d.setFlag p f b).nq = d.nq := rfl
@[simp] theorem Dev.setFlag_out (p : Nat) (f : Fld) (b : Bool) : (d.setFlag p f b).out = d.out := rfl
@[simp] theorem Dev.setFlag_fresh (p : Nat) (f : Fld) (b : Bool) : (d.setFlag p f b).fresh = d.fresh := rfl
@[simp] theorem Dev.setFlag_mst (p : Nat) (f : Fld) (b : Bool) : (d.setFlag p f b).mst = d.mst := rfl
@[simp] theorem Dev.setFlag_an (p : Nat) (f : Fld) (b : Bool) : (d.setFlag p f b).an = d.an := rfl
@[simp] theorem Dev.setFlag_ti (p : Nat) (f : Fld) (b : Bool) : (d.setFlag p f b).ti = d.ti := rfl
@[simp] theorem Dev.setFlag_cw (p : Nat) (f : Fld) (b : Bool) : (d.setFlag p f b).cw = d.cw := rfl
@[simp] theorem Dev.setFlag_tm (p : Nat) (f : Fld) (b : Bool) : (d.setFlag p f b).tm = d.tm := rfl
@[simp] theorem Dev.setFlag_md (p : Nat) (f : Fld) (b : Bool) : (d.setFlag p f b).md = d.md := rfl
@[simp] theorem Dev.setFlag_ln (p : Nat) (f : Fld) (b : Bool) : (d.setFlag p f b).ln = d.ln := rfl
@[simp] theorem Dev.setFlag_fab (p : Nat) (f : Fld) (b : Bool) : (d.setFlag p f b).fab = d.fab := rfl
@[simp] theorem Dev.setFlag_ld (p : Nat) (f : Fld) (b : Bool) : (d.setFlag p f b).ld = d.ld := rfl
@[simp] theorem Dev.setFlag_sto (p : Nat) (f : Fld) (b : Bool) : (d.setFlag p f b).sto = d.sto := rfl
@[simp] theorem Dev.setFlag_sec (p : Nat) (f : Fld) (b : Bool) : (d.setFlag p f b).sec = d.sec := rfl
@[simp] theorem Dev.setFlag_pn (p : Nat) (f : Fld) (b : Bool) : (d.setFlag p f b).pn = d.pn := rfl
@[simp] theorem Dev.setFlag_pw (p : Nat) (f : Fld) (b : Bool) : (d.setFlag p f b).pw = d.pw := rfl
@[simp] theorem Dev.setFlag_fw (p : Nat) (f : Fld) (b : Bool) : (d.setFlag p f b).fw = d.fw := rfl
@[simp] theorem Dev.setFlag_hs (p : Nat) (f : Fld) (b : Bool) : (d.setFlag p f b).hs = d.hs := rfl
@[simp] theorem Dev.setFlag_bz (p : Nat) (f : Fld) (b : Bool) : (d.setFlag p f b).bz = d.bz := rfl

/-! `setReg` -/

@[simp] theorem Dev.setReg_snaps (p : Nat) (f : Fld) (v : Word) : (d.setReg p f v).snaps = d.snaps := rfl
@[simp] theorem Dev.setReg_lockSeq (p : Nat) (f : Fld) (v : Word) : (d.setReg p f v).lockSeq = d.lockSeq := rfl
@[simp] theorem Dev.setReg_now (p : Nat) (f : Fld) (v : Word) : (d.setReg p f v).now = d.now := rfl
@[simp] theorem Dev.setReg_frac (p : Nat) (f : Fld) (v : Word) : (d.setReg p f v).frac = d.frac := rfl
@[simp] theorem Dev.setReg_mono (p : Nat) (f : Fld) (v : Word) : (d.setReg p f v).mono = d.mono := rfl
@[simp] theorem Dev.setReg_nq (p : Nat) (f : Fld) (v : Word) : (d.setReg p f v).nq = d.nq := rfl
@[simp] theorem Dev.setReg_out (p : Nat) (f : Fld) (v : Word) : (d.setReg p f v).out = d.out := rfl
@[simp] theorem Dev.setReg_fresh (p : Nat) (f : Fld) (v : Word) : (d.setReg p f v).fresh = d.fresh := rfl
@[simp] theorem Dev.setReg_mst (p : Nat) (f : Fld) (v : Word) : (d.setReg p f v).mst = d.mst := rfl
@[simp] theorem Dev.setReg_an (p : Nat) (f : Fld) (v : Word) : (d.setReg p f v).an = d.an := rfl
@[simp] theorem Dev.setReg_ti (p : Nat) (f : Fld) (v : Word) : (d.setReg p f v).ti = d.ti := rfl
@[simp] theorem Dev.setReg_cw (p : Nat) (f : Fld) (v : Word) : (d.setReg p f v).cw = d.cw := rfl
@[simp] theorem Dev.setReg_tm (p : Nat) (f : Fld) (v : Word) : (d.setReg p f v).tm = d.tm := rfl
@[simp] theorem Dev.setReg_md (p : Nat) (f : Fld) (v : Word) : (d.setReg p f v).md = d.md := rfl
@[simp] theorem Dev.setReg_ln (p : Nat) (f : Fld) (v : Word) : (d.setReg p f v).ln = d.ln := rfl
@[simp] theorem Dev.setReg_fab (p : Nat) (f : Fld) (v : Word) : (d.setReg p f v).fab = d.fab := rfl
@[simp] theorem Dev.setReg_ld (p : Nat) (f : Fld) (v : Word) : (d.setReg p f v).ld = d.ld := rfl
@[simp] theorem Dev.setReg_sto (p : Nat) (f : Fld) (v : Word) : (d.setReg p f v).sto = d.sto := rfl
@[simp] theorem Dev.setReg_sec (p : Nat) (f : Fld) (v : Word) : (d.setReg p f v).sec = d.sec := rfl
@[simp] theorem Dev.setReg_pn (p : Nat) (f : Fld) (v : Word) : (d.setReg p f v).pn = d.pn := rfl
@[simp] theorem Dev.setReg_pw (p : Nat) (f : Fld) (v : Word) : (d.setReg p f v).pw = d.pw := rfl
@[simp] theorem Dev.setReg_fw (p : Nat) (f : Fld) (v : Word) : (d.setReg p f v).fw = d.fw := rfl
@[simp] theorem Dev.setReg_hs (p : Nat) (f : Fld) (v : Word) : (d.setReg p f v).hs = d.hs := rfl
@[simp] theorem Dev.setReg_bz (p : Nat) (f : Fld) (v : Word) : (d.setReg p f v).bz = d.bz := rfl

/-! `setSt` -/

@[simp] theorem Dev.setSt_snaps (p n : Nat) : (d.setSt p n).snaps = d.snaps := rfl
@[simp] theorem Dev.setSt_lockSeq (p n : Nat) : (d.setSt p n).lockSeq = d.lockSeq := rfl
@[simp] theorem Dev.setSt_now (p n : Nat) : (d.setSt p n).now = d.now := rfl
@[simp] theorem Dev.setSt_frac (p n : Nat) : (d.setSt p n).frac = d.frac := rfl
@[simp] theorem Dev.setSt_mono (p n : Nat) : (d.setSt p n).mono = d.mono := rfl
@[simp] theorem Dev.setSt_nq (p n : Nat) : (d.setSt p n).nq = d.nq := rfl
@[simp] theorem Dev.setSt_out (p n : Nat) : (d.setSt p n).out = d.out := rfl
@[simp] theorem Dev.setSt_fresh (p n : Nat) : (d.setSt p n).fresh = d.fresh := rfl
@[simp] theorem Dev.setSt_mst (p n : Nat) : (d.setSt p n).mst = d.mst := rfl
@[simp] theorem Dev.setSt_an (p n : Nat) : (d.setSt p n).an = d.an := rfl
@[simp] theorem Dev.setSt_ti (p n : Nat) : (d.setSt p n).ti = d.ti := rfl
@[simp] theorem Dev.setSt_cw (p n : Nat) : (d.setSt p n).cw = d.cw := rfl
@[simp] theorem Dev.setSt_tm (p n : Nat) : (d.setSt p n).tm = d.tm := rfl
@[simp] theorem Dev.setSt_md (p n : Nat) : (d.setSt p n).md = d.md := rfl
@[simp] theorem Dev.setSt_ln (p n : Nat) : (d.setSt p n).ln = d.ln := rfl
@[simp] theorem Dev.setSt_fab (p n : Nat) : (d.setSt p n).fab = d.fab := rfl
@[simp] theorem Dev.setSt_ld (p n : Nat) : (d.setSt p n).ld = d.ld := rfl
@[simp] theorem Dev.setSt_sto (p n : Nat) : (d.setSt p n).sto = d.sto := rfl
@[simp] theorem Dev.setSt_sec (p n : Nat) : (d.setSt p n).sec = d.sec := rfl
@[simp] theorem Dev.setSt_pn (p n : Nat) : (d.setSt p n).pn = d.pn := rfl
@[simp] theorem Dev.setSt_pw (p n : Nat) : (d.setSt p n).pw = d.pw := rfl
@[simp] theorem Dev.setSt_fw (p n : Nat) : (d.setSt p n).fw = d.fw := rfl
@[simp] theorem Dev.setSt_hs (p n : Nat) : (d.setSt p n).hs = d.hs := rfl
@[simp] theorem Dev.setSt_bz (p n : Nat) : (d.setSt p n).bz = d.bz := rfl

/-! `setSlot` -/

@[simp] theorem Dev.setSlot_regs (m : Nat) (x : Slot) : (d.setSlot m x).regs = d.regs := rfl
@[simp] theorem Dev.setSlot_snaps (m : Nat) (x : Slot) : (d.setSlot m x).snaps = d.snaps := rfl
@[simp] theorem Dev.setSlot_lockSeq (m : Nat) (x : Slot) : (d.setSlot m x).lockSeq = d.lockSeq := rfl
@[simp] theorem Dev.setSlot_now (m : Nat) (x : Slot) : (d.setSlot m x).now = d.now := rfl
@[simp] theorem Dev.setSlot_frac (m : Nat) (x : Slot) : (d.setSlot m x).frac = d.frac := rfl
@[simp] theorem Dev.setSlot_mono (m : Nat) (x : Slot) : (d.setSlot m x).mono = d.mono := rfl
@[simp] theorem Dev.setSlot_nq (m : Nat) (x : Slot) : (d.setSlot m x).nq = d.nq := rfl
@[simp] theorem Dev.setSlot_out (m : Nat) (x : Slot) : (d.setSlot m x).out = d.out := rfl
@[simp] theorem Dev.setSlot_fresh (m : Nat) (x : Slot) : (d.setSlot m x).fresh = d.fresh := rfl
@[simp] theorem Dev.setSlot_an (m : Nat) (x : Slot) : (d.setSlot m x).an = d.an := rfl
@[simp] theorem Dev.setSlot_ti (m : Nat) (x : Slot) : (d.setSlot m x).ti = d.ti := rfl
@[simp] theorem Dev.setSlot_cw (m : Nat) (x : Slot) : (d.setSlot m x).cw = d.cw := rfl
@[simp] theorem Dev.setSlot_tm (m : Nat) (x : Slot) : (d.setSlot m x).tm = d.tm := rfl
@[simp] theorem Dev.setSlot_md (m : Nat) (x : Slot) : (d.setSlot m x).md = d.md := rfl
@[simp] theorem Dev.setSlot_ln (m : Nat) (x : Slot) : (d.setSlot m x).ln = d.ln := rfl
@[simp] theorem Dev.setSlot_fab (m : Nat) (x : Slot) : (d.setSlot m x).fab = d.fab := rfl
@[simp] theorem Dev.setSlot_ld (m : Nat) (x : Slot) : (d.setSlot m x).ld = d.ld := rfl
@[simp] theorem Dev.setSlot_sto (m : Nat) (x : Slot) : (d.setSlot m x).sto = d.sto := rfl
@[simp] theorem Dev.setSlot_sec (m : Nat) (x : Slot) : (d.setSlot m x).sec = d.sec := rfl
@[simp] theorem Dev.setSlot_pn (m : Nat) (x : Slot) : (d.setSlot m x).pn = d.pn := rfl
@[simp] theorem Dev.setSlot_pw (m : Nat) (x : Slot) : (d.setSlot m x).pw = d.pw := rfl
@[simp] theorem Dev.setSlot_fw (m : Nat) (x : Slot) : (d.setSlot m x).fw = d.fw := rfl
@[simp] theorem Dev.setSlot_hs (m : Nat) (x : Slot) : (d.setSlot m x).hs = d.hs := rfl
@[simp] theorem Dev.setSlot_bz (m : Nat) (x : Slot) : (d.setSlot m x).bz = d.bz := rfl

/-! `setBind` -/

@[simp] theorem Dev.setBind_regs (p : Nat) (b : Bind) : (d.setBind p b).regs = d.regs := rfl
@[simp] theorem Dev.setBind_snaps (p : Nat) (b : Bind) : (d.setBind p b).snaps = d.snaps := rfl
@[simp] theorem Dev.setBind_lockSeq (p : Nat) (b : Bind) : (d.setBind p b).lockSeq = d.lockSeq := rfl
@[simp] theorem Dev.setBind_now (p : Nat) (b : Bind) : (d.setBind p b).now = d.now := rfl
@[simp] theorem Dev.setBind_frac (p : Nat) (b : Bind) : (d.setBind p b).frac = d.frac := rfl
@[simp] theorem Dev.setBind_mono (p : Nat) (b : Bind) : (d.setBind p b).mono = d.mono := rfl
@[simp] theorem Dev.setBind_nq (p : Nat) (b : Bind) : (d.setBind p b).nq = d.nq := rfl
@[simp] theorem Dev.setBind_out (p : Nat) (b : Bind) : (d.setBind p b).out = d.out := rfl
@[simp] theorem Dev.setBind_fresh (p : Nat) (b : Bind) : (d.setBind p b).fresh = d.fresh := rfl
@[simp] theorem Dev.setBind_an (p : Nat) (b : Bind) : (d.setBind p b).an = d.an := rfl
@[simp] theorem Dev.setBind_ti (p : Nat) (b : Bind) : (d.setBind p b).ti = d.ti := rfl
@[simp] theorem Dev.setBind_cw (p : Nat) (b : Bind) : (d.setBind p b).cw = d.cw := rfl
@[simp] theorem Dev.setBind_tm (p : Nat) (b : Bind) : (d.setBind p b).tm = d.tm := rfl
@[simp] theorem Dev.setBind_md (p : Nat) (b : Bind) : (d.setBind p b).md = d.md := rfl
@[simp] theorem Dev.setBind_ln (p : Nat) (b : Bind) : (d.setBind p b).ln = d.ln := rfl
@[simp] theorem Dev.setBind_fab (p : Nat) (b : Bind) : (d.setBind p b).fab = d.fab := rfl
@[simp] theorem Dev.setBind_ld (p : Nat) (b : Bind) : (d.setBind p b).ld = d.ld := rfl
@[simp] theorem Dev.setBind_sto (p : Nat) (b : Bind) : (d.setBind p b).sto = d.sto := rfl
@[simp] theorem Dev.setBind_sec (p : Nat) (b : Bind) : (d.setBind p b).sec = d.sec := rfl
@[simp] theorem Dev.setBind_pn (p : Nat) (b : Bind) : (d.setBind p b).pn = d.pn := rfl
@[simp] theorem Dev.setBind_pw (p : Nat) (b : Bind) : (d.setBind p b).pw = d.pw := rfl
@[simp] theorem Dev.setBind_fw (p : Nat) (b : Bind) : (d.setBind p b).fw = d.fw := rfl
@[simp] theorem Dev.setBind_hs (p : Nat) (b : Bind) : (d.setBind p b).hs = d.hs := rfl
@[simp] theorem Dev.setBind_bz (p : Nat) (b : Bind) : (d.setBind p b).bz = d.bz := rfl

/-! `setQueue` -/

@[simp] theorem Dev.setQueue_regs (q : Nat) (v : NQueue) : (d.setQueue q v).regs = d.regs := rfl
@[simp] theorem Dev.setQueue_snaps (q : Nat) (v : NQueue) : (d.setQueue q v).snaps = d.snaps := rfl
@[simp] theorem Dev.setQueue_lockSeq (q : Nat) (v : NQueue) : (d.setQueue q v).lockSeq = d.lockSeq := rfl
@[simp] theorem Dev.setQueue_now (q : Nat) (v : NQueue) : (d.setQueue q v).now = d.now := rfl
@[simp] theorem Dev.setQueue_frac (q : Nat) (v : NQueue) : (d.setQueue q v).frac = d.frac := rfl
@[simp] theorem Dev.setQueue_mono (q : Nat) (v : NQueue) : (d.setQueue q v).mono = d.mono := rfl
@[simp] theorem Dev.setQueue_out (q : Nat) (v : NQueue) : (d.setQueue q v).out = d.out := rfl
@[simp] theorem Dev.setQueue_fresh (q : Nat) (v : NQueue) : (d.setQueue q v).fresh = d.fresh := rfl
@[simp] theorem Dev.setQueue_mst (q : Nat) (v : NQueue) : (d.setQueue q v).mst = d.mst := rfl
@[simp] theorem Dev.setQueue_an (q : Nat) (v : NQueue) : (d.setQueue q v).an = d.an := rfl
@[simp] theorem Dev.setQueue_ti (q : Nat) (v : NQueue) : (d.setQueue q v).ti = d.ti := rfl
@[simp] theorem Dev.setQueue_cw (q : Nat) (v : NQueue) : (d.setQueue q v).cw = d.cw := rfl
@[simp] theorem Dev.setQueue_tm (q : Nat) (v : NQueue) : (d.setQueue q v).tm = d.tm := rfl
@[simp] theorem Dev.setQueue_md (q : Nat) (v : NQueue) : (d.setQueue q v).md = d.md := rfl
@[simp] theorem Dev.setQueue_ln (q : Nat) (v : NQueue) : (d.setQueue q v).ln = d.ln := rfl
@[simp] theorem Dev.setQueue_fab (q : Nat) (v : NQueue) : (d.setQueue q v).fab = d.fab := rfl
@[simp] theorem Dev.setQueue_ld (q : Nat) (v : NQueue) : (d.setQueue q v).ld = d.ld := rfl
@[simp] theorem Dev.setQueue_sto (q : Nat) (v : NQueue) : (d.setQueue q v).sto = d.sto := rfl
@[simp] theorem Dev.setQueue_sec (q : Nat) (v : NQueue) : (d.setQueue q v).sec = d.sec := rfl
@[simp] theorem Dev.setQueue_pn (q : Nat) (v : NQueue) : (d.setQueue q v).pn = d.pn := rfl
@[simp] theorem Dev.setQueue_pw (q : Nat) (v : NQueue) : (d.setQueue q v).pw = d.pw := rfl
@[simp] theorem Dev.setQueue_fw (q : Nat) (v : NQueue) : (d.setQueue q v).fw = d.fw := rfl
@[simp] theorem Dev.setQueue_hs (q : Nat) (v : NQueue) : (d.setQueue q v).hs = d.hs := rfl
@[simp] theorem Dev.setQueue_bz (q : Nat) (v : NQueue) : (d.setQueue q v).bz = d.bz := rfl

/-! `send` -/

@[simp] theorem Dev.send_regs (m : OutMsg) : (d.send m).regs = d.regs := rfl
@[simp] theorem Dev.send_snaps (m : OutMsg) : (d.send m).snaps = d.snaps := rfl
@[simp] theorem Dev.send_lockSeq (m : OutMsg) : (d.send m).lockSeq = d.lockSeq := rfl
@[simp] theorem Dev.send_now (m : OutMsg) : (d.send m).now = d.now := rfl
@[simp] theorem Dev.send_frac (m : OutMsg) : (d.send m).frac = d.frac := rfl
@[simp] theorem Dev.send_mono (m : OutMsg) : (d.send m).mono = d.mono := rfl
@[simp] theorem Dev.send_nq (m : OutMsg) : (d.send m).nq = d.nq := rfl
@[simp] theorem Dev.send_fresh (m : OutMsg) : (d.send m).fresh = d.fresh := rfl
@[simp] theorem Dev.send_mst (m : OutMsg) : (d.send m).mst = d.mst := rfl
@[simp] theorem Dev.send_an (m : OutMsg) : (d.send m).an = d.an := rfl
@[simp] theorem Dev.send_ti (m : OutMsg) : (d.send m).ti = d.ti := rfl
@[simp] theorem Dev.send_cw (m : OutMsg) : (d.send m).cw = d.cw := rfl
@[simp] theorem Dev.send_tm (m : OutMsg) : (d.send m).tm = d.tm := rfl
@[simp] theorem Dev.send_md (m : OutMsg) : (d.send m).md = d.md := rfl
@[simp] theorem Dev.send_ln (m : OutMsg) : (d.send m).ln = d.ln := rfl
@[simp] theorem Dev.send_fab (m : OutMsg) : (d.send m).fab = d.fab := rfl
@[simp] theorem Dev.send_ld (m : OutMsg) : (d.send m).ld = d.ld := rfl
@[simp] theorem Dev.send_sto (m : OutMsg) : (d.send m).sto = d.sto := rfl
@[simp] theorem Dev.send_sec (m : OutMsg) : (d.send m).sec = d.sec := rfl
@[simp] theorem Dev.send_pn (m : OutMsg) : (d.send m).pn = d.pn := rfl
@[simp] theorem Dev.send_pw (m : OutMsg) : (d.send m).pw = d.pw := rfl
@[simp] theorem Dev.send_fw (m : OutMsg) : (d.send m).fw = d.fw := rfl
@[simp] theorem Dev.send_hs (m : OutMsg) : (d.send m).hs = d.hs := rfl
@[simp] theorem Dev.send_bz (m : OutMsg) : (d.send m).bz = d.bz := rfl

/-! `quiet` -/

@[simp] theorem Dev.quiet_regs : d.quiet.regs = d.regs := rfl
@[simp] theorem Dev.quiet_snaps : d.quiet.snaps = d.snaps := rfl
@[simp] theorem Dev.quiet_lockSeq : d.quiet.lockSeq = d.lockSeq := rfl
@[simp] theorem Dev.quiet_now : d.quiet.now = d.now := rfl
@[simp] theorem Dev.quiet_frac : d.quiet.frac = d.frac := rfl
@[simp] theorem Dev.quiet_mono : d.quiet.mono = d.mono := rfl
@[simp] theorem Dev.quiet_nq : d.quiet.nq = d.nq := rfl
@[simp] theorem Dev.quiet_fresh : d.quiet.fresh = d.fresh := rfl
@[simp] theorem Dev.quiet_mst : d.quiet.mst = d.mst := rfl
@[simp] theorem Dev.quiet_an : d.quiet.an = d.an := rfl
@[simp] theorem Dev.quiet_ti : d.quiet.ti = d.ti := rfl
@[simp] theorem Dev.quiet_cw : d.quiet.cw = d.cw := rfl
@[simp] theorem Dev.quiet_tm : d.quiet.tm = d.tm := rfl
@[simp] theorem Dev.quiet_md : d.quiet.md = d.md := rfl
@[simp] theorem Dev.quiet_ln : d.quiet.ln = d.ln := rfl
@[simp] theorem Dev.quiet_fab : d.quiet.fab = d.fab := rfl
@[simp] theorem Dev.quiet_ld : d.quiet.ld = d.ld := rfl
@[simp] theorem Dev.quiet_sto : d.quiet.sto = d.sto := rfl
@[simp] theorem Dev.quiet_sec : d.quiet.sec = d.sec := rfl
@[simp] theorem Dev.quiet_pn : d.quiet.pn = d.pn := rfl
@[simp] theorem Dev.quiet_pw : d.quiet.pw = d.pw := rfl
@[simp] theorem Dev.quiet_fw : d.quiet.fw = d.fw := rfl
@[simp] theorem Dev.quiet_hs : d.quiet.hs = d.hs := rfl
@[simp] theorem Dev.quiet_bz : d.quiet.bz = d.bz := rfl

/-! `pass` -/

@[simp] theorem Dev.pass_regs (n : Nat) : (d.pass n).regs = d.regs := rfl
@[simp] theorem Dev.pass_snaps (n : Nat) : (d.pass n).snaps = d.snaps := rfl
@[simp] theorem Dev.pass_lockSeq (n : Nat) : (d.pass n).lockSeq = d.lockSeq := rfl
@[simp] theorem Dev.pass_frac (n : Nat) : (d.pass n).frac = d.frac := rfl
@[simp] theorem Dev.pass_nq (n : Nat) : (d.pass n).nq = d.nq := rfl
@[simp] theorem Dev.pass_out (n : Nat) : (d.pass n).out = d.out := rfl
@[simp] theorem Dev.pass_fresh (n : Nat) : (d.pass n).fresh = d.fresh := rfl
@[simp] theorem Dev.pass_mst (n : Nat) : (d.pass n).mst = d.mst := rfl
@[simp] theorem Dev.pass_an (n : Nat) : (d.pass n).an = d.an := rfl
@[simp] theorem Dev.pass_ti (n : Nat) : (d.pass n).ti = d.ti := rfl
@[simp] theorem Dev.pass_cw (n : Nat) : (d.pass n).cw = d.cw := rfl
@[simp] theorem Dev.pass_tm (n : Nat) : (d.pass n).tm = d.tm := rfl
@[simp] theorem Dev.pass_md (n : Nat) : (d.pass n).md = d.md := rfl
@[simp] theorem Dev.pass_ln (n : Nat) : (d.pass n).ln = d.ln := rfl
@[simp] theorem Dev.pass_fab (n : Nat) : (d.pass n).fab = d.fab := rfl
@[simp] theorem Dev.pass_ld (n : Nat) : (d.pass n).ld = d.ld := rfl
@[simp] theorem Dev.pass_sto (n : Nat) : (d.pass n).sto = d.sto := rfl
@[simp] theorem Dev.pass_sec (n : Nat) : (d.pass n).sec = d.sec := rfl
@[simp] theorem Dev.pass_pn (n : Nat) : (d.pass n).pn = d.pn := rfl
@[simp] theorem Dev.pass_pw (n : Nat) : (d.pass n).pw = d.pw := rfl
@[simp] theorem Dev.pass_fw (n : Nat) : (d.pass n).fw = d.fw := rfl
@[simp] theorem Dev.pass_hs (n : Nat) : (d.pass n).hs = d.hs := rfl
@[simp] theorem Dev.pass_bz (n : Nat) : (d.pass n).bz = d.bz := rfl

@[simp] theorem Dev.quiet_out : d.quiet.out = [] := rfl
@[simp] theorem Dev.send_out (m : OutMsg) : (d.send m).out = d.out ++ [m] := rfl
@[simp] theorem Dev.quiet_raw (a : Nat) : d.quiet.raw a = d.raw a := rfl
@[simp] theorem Dev.quiet_fld (p : Nat) (f : Fld) : d.quiet.fld p f = d.fld p f := rfl
@[simp] theorem Dev.quiet_flag (p : Nat) (f : Fld) : d.quiet.flag p f = d.flag p f := rfl
@[simp] theorem Dev.quiet_reg (p : Nat) (f : Fld) : d.quiet.reg p f = d.reg p f := rfl
@[simp] theorem Dev.quiet_st (p : Nat) : d.quiet.st p = d.st p := rfl
@[simp] theorem Dev.quiet_slot (m : Nat) : d.quiet.slot m = d.slot m := rfl
@[simp] theorem Dev.quiet_bind (p : Nat) : d.quiet.bind p = d.bind p := rfl

end Sys2Proof.Machine
end

