-- ==== Sys2Proof/Laws/Notice.lean ====
section
/-! SUPPORT. What a notice, an event and a counter can change: registers and notice queues, and nothing else. -/

namespace Sys2Proof.Machine

/-- The second device differs from the first at most in its registers and its notice queues. -/
def OnlyRegsNq (d e : Dev) : Prop := e = { d with regs := e.regs, nq := e.nq }

theorem OnlyRegsNq.refl (d : Dev) : OnlyRegsNq d d := rfl

theorem OnlyRegsNq.trans {d e f : Dev} (h : OnlyRegsNq d e) (g : OnlyRegsNq e f) : OnlyRegsNq d f := by
  unfold OnlyRegsNq at *; rw [g, h]

theorem OnlyRegsNq.put (d : Dev) (a : Nat) (v : Word) : OnlyRegsNq d (d.put a v) := rfl

theorem OnlyRegsNq.setQueue (d : Dev) (q : Nat) (v : NQueue) : OnlyRegsNq d (d.setQueue q v) := rfl

theorem OnlyRegsNq.ite {d e f : Dev} {c : Prop} [Decidable c] (h : OnlyRegsNq d e) (g : OnlyRegsNq d f) :
    OnlyRegsNq d (if c then e else f) := by split <;> assumption

theorem OnlyRegsNq.ite1 {α : Type} {d : Dev} {e f : Dev × α} {c : Prop} [Decidable c] (h : OnlyRegsNq d e.1)
    (g : OnlyRegsNq d f.1) : OnlyRegsNq d (if c then e else f).1 := by split <;> assumption

theorem OnlyRegsNq.foldl {α : Type} {f : Dev → α → Dev} (hf : ∀ d x, OnlyRegsNq d (f d x)) (l : List α) (d : Dev) :
    OnlyRegsNq d (l.foldl f d) := by
  induction l generalizing d with
  | nil => exact .refl d
  | cons x t ih => exact (hf d x).trans (ih (f d x))

theorem Dev.bumpReg_only (d : Dev) (a n : Nat) : OnlyRegsNq d (d.bumpReg a n).1 := .put _ _ _

theorem Dev.emitTo_only (d : Dev) (code sev q page : Nat) (w4 w5 w6 w7 : Word) :
    OnlyRegsNq d (d.emitTo code sev q page w4 w5 w6 w7).1 := by
  have h1 : ∀ (c : Prop) [Decidable c] (x : Dev) (a n : Nat), OnlyRegsNq d x →
      OnlyRegsNq d (if c then x.bumpReg a n else (x, false)).1 := fun c _ x a n h =>
    .ite1 (h.trans (x.bumpReg_only a n)) h
  have h2 : ∀ (c : Prop) [Decidable c] (x : Dev) (a n : Nat), OnlyRegsNq d x →
      OnlyRegsNq d (if c then (x, false) else x.bumpReg a n).1 := fun c _ x a n h =>
    .ite1 h (h.trans (x.bumpReg_only a n))
  exact h2 _ _ _ _ (h2 _ _ _ _ ((h1 _ _ _ _ (.put _ _ _)).trans (.setQueue _ _ _)))

theorem Dev.emit_only (d : Dev) (code sev q page : Nat) (w4 w5 w6 w7 : Word) :
    OnlyRegsNq d (d.emit code sev q page w4 w5 w6 w7).1 := .ite1 (.refl d) (d.emitTo_only ..)

theorem Dev.raiseRaw_only (d : Dev) (p bit code sev : Nat) (w4 w5 w6 w7 : Word) :
    OnlyRegsNq d (d.raiseRaw p bit code sev w4 w5 w6 w7).1 := by
  refine .ite1 (.ite1 ((OnlyRegsNq.put _ _ _).trans (Dev.emit_only ..)) (.put _ _ _)) (.refl d)

theorem Dev.raiseCode_only (d : Dev) (p bit code sev : Nat) (w4 w5 w6 w7 : Word) :
    OnlyRegsNq d (d.raiseCode p bit code sev w4 w5 w6 w7) :=
  (d.raiseRaw_only ..).trans (.foldl (fun e _ => e.raiseRaw_only ..) _ _)

theorem Dev.raiseSev_only (d : Dev) (p : Nat) (e : Evt) (sev : Nat) (w4 w5 w6 w7 : Word) :
    OnlyRegsNq d (d.raiseSev p e sev w4 w5 w6 w7) := d.raiseCode_only ..

theorem Dev.raise_only (d : Dev) (p : Nat) (e : Evt) (w4 w5 w6 w7 : Word) :
    OnlyRegsNq d (d.raise p e w4 w5 w6 w7) := d.raiseCode_only ..

theorem Dev.raiseAt_only (d : Dev) (p : Nat) (e : Evt) (t : Nat) (w4 : Word) :
    OnlyRegsNq d (d.raiseAt p e t w4) := d.raiseCode_only ..

theorem Dev.count_only (d : Dev) (p : Nat) (f : Fld) (n : Nat) : OnlyRegsNq d (d.count p f n) :=
  .ite ((d.bumpReg_only ..).trans (Dev.raiseCode_only ..)) (d.bumpReg_only ..)

theorem Dev.count64_only (d : Dev) (p : Nat) (f : Fld) (n : Nat) : OnlyRegsNq d (d.count64 p f n) :=
  .ite (.refl d) (.ite (((OnlyRegsNq.put _ _ _).trans (.put _ _ _)).trans (Dev.raiseCode_only ..))
    ((OnlyRegsNq.put _ _ _).trans (.put _ _ _)))

theorem Dev.countFree_only (d : Dev) (p : Nat) (f e : Fld) (n : Nat) : OnlyRegsNq d (d.countFree p f e n) :=
  .ite (.put _ _ _) ((OnlyRegsNq.put _ _ _).trans (Dev.count_only ..))

variable (d : Dev)

/-! `bumpReg` -/

@[simp] theorem Dev.bumpReg_snaps (a n : Nat) : (d.bumpReg a n).1.snaps = d.snaps := by rw [d.bumpReg_only]
@[simp] theorem Dev.bumpReg_lockSeq (a n : Nat) : (d.bumpReg a n).1.lockSeq = d.lockSeq := by rw [d.bumpReg_only]
@[simp] theorem Dev.bumpReg_now (a n : Nat) : (d.bumpReg a n).1.now = d.now := by rw [d.bumpReg_only]
@[simp] theorem Dev.bumpReg_frac (a n : Nat) : (d.bumpReg a n).1.frac = d.frac := by rw [d.bumpReg_only]
@[simp] theorem Dev.bumpReg_mono (a n : Nat) : (d.bumpReg a n).1.mono = d.mono := by rw [d.bumpReg_only]
@[simp] theorem Dev.bumpReg_out (a n : Nat) : (d.bumpReg a n).1.out = d.out := by rw [d.bumpReg_only]
@[simp] theorem Dev.bumpReg_fresh (a n : Nat) : (d.bumpReg a n).1.fresh = d.fresh := by rw [d.bumpReg_only]
@[simp] theorem Dev.bumpReg_mst (a n : Nat) : (d.bumpReg a n).1.mst = d.mst := by rw [d.bumpReg_only]
@[simp] theorem Dev.bumpReg_an (a n : Nat) : (d.bumpReg a n).1.an = d.an := by rw [d.bumpReg_only]
@[simp] theorem Dev.bumpReg_ti (a n : Nat) : (d.bumpReg a n).1.ti = d.ti := by rw [d.bumpReg_only]
@[simp] theorem Dev.bumpReg_cw (a n : Nat) : (d.bumpReg a n).1.cw = d.cw := by rw [d.bumpReg_only]
@[simp] theorem Dev.bumpReg_tm (a n : Nat) : (d.bumpReg a n).1.tm = d.tm := by rw [d.bumpReg_only]
@[simp] theorem Dev.bumpReg_md (a n : Nat) : (d.bumpReg a n).1.md = d.md := by rw [d.bumpReg_only]
@[simp] theorem Dev.bumpReg_ln (a n : Nat) : (d.bumpReg a n).1.ln = d.ln := by rw [d.bumpReg_only]
@[simp] theorem Dev.bumpReg_fab (a n : Nat) : (d.bumpReg a n).1.fab = d.fab := by rw [d.bumpReg_only]
@[simp] theorem Dev.bumpReg_ld (a n : Nat) : (d.bumpReg a n).1.ld = d.ld := by rw [d.bumpReg_only]
@[simp] theorem Dev.bumpReg_sto (a n : Nat) : (d.bumpReg a n).1.sto = d.sto := by rw [d.bumpReg_only]
@[simp] theorem Dev.bumpReg_sec (a n : Nat) : (d.bumpReg a n).1.sec = d.sec := by rw [d.bumpReg_only]
@[simp] theorem Dev.bumpReg_pn (a n : Nat) : (d.bumpReg a n).1.pn = d.pn := by rw [d.bumpReg_only]
@[simp] theorem Dev.bumpReg_pw (a n : Nat) : (d.bumpReg a n).1.pw = d.pw := by rw [d.bumpReg_only]
@[simp] theorem Dev.bumpReg_fw (a n : Nat) : (d.bumpReg a n).1.fw = d.fw := by rw [d.bumpReg_only]
@[simp] theorem Dev.bumpReg_hs (a n : Nat) : (d.bumpReg a n).1.hs = d.hs := by rw [d.bumpReg_only]
@[simp] theorem Dev.bumpReg_bz (a n : Nat) : (d.bumpReg a n).1.bz = d.bz := by rw [d.bumpReg_only]

/-! `emitTo` -/

@[simp] theorem Dev.emitTo_snaps (code sev q page : Nat) (w4 w5 w6 w7 : Word) : (d.emitTo code sev q page w4 w5 w6 w7).1.snaps = d.snaps := by rw [d.emitTo_only]
@[simp] theorem Dev.emitTo_lockSeq (code sev q page : Nat) (w4 w5 w6 w7 : Word) : (d.emitTo code sev q page w4 w5 w6 w7).1.lockSeq = d.lockSeq := by rw [d.emitTo_only]
@[simp] theorem Dev.emitTo_now (code sev q page : Nat) (w4 w5 w6 w7 : Word) : (d.emitTo code sev q page w4 w5 w6 w7).1.now = d.now := by rw [d.emitTo_only]
@[simp] theorem Dev.emitTo_frac (code sev q page : Nat) (w4 w5 w6 w7 : Word) : (d.emitTo code sev q page w4 w5 w6 w7).1.frac = d.frac := by rw [d.emitTo_only]
@[simp] theorem Dev.emitTo_mono (code sev q page : Nat) (w4 w5 w6 w7 : Word) : (d.emitTo code sev q page w4 w5 w6 w7).1.mono = d.mono := by rw [d.emitTo_only]
@[simp] theorem Dev.emitTo_out (code sev q page : Nat) (w4 w5 w6 w7 : Word) : (d.emitTo code sev q page w4 w5 w6 w7).1.out = d.out := by rw [d.emitTo_only]
@[simp] theorem Dev.emitTo_fresh (code sev q page : Nat) (w4 w5 w6 w7 : Word) : (d.emitTo code sev q page w4 w5 w6 w7).1.fresh = d.fresh := by rw [d.emitTo_only]
@[simp] theorem Dev.emitTo_mst (code sev q page : Nat) (w4 w5 w6 w7 : Word) : (d.emitTo code sev q page w4 w5 w6 w7).1.mst = d.mst := by rw [d.emitTo_only]
@[simp] theorem Dev.emitTo_an (code sev q page : Nat) (w4 w5 w6 w7 : Word) : (d.emitTo code sev q page w4 w5 w6 w7).1.an = d.an := by rw [d.emitTo_only]
@[simp] theorem Dev.emitTo_ti (code sev q page : Nat) (w4 w5 w6 w7 : Word) : (d.emitTo code sev q page w4 w5 w6 w7).1.ti = d.ti := by rw [d.emitTo_only]
@[simp] theorem Dev.emitTo_cw (code sev q page : Nat) (w4 w5 w6 w7 : Word) : (d.emitTo code sev q page w4 w5 w6 w7).1.cw = d.cw := by rw [d.emitTo_only]
@[simp] theorem Dev.emitTo_tm (code sev q page : Nat) (w4 w5 w6 w7 : Word) : (d.emitTo code sev q page w4 w5 w6 w7).1.tm = d.tm := by rw [d.emitTo_only]
@[simp] theorem Dev.emitTo_md (code sev q page : Nat) (w4 w5 w6 w7 : Word) : (d.emitTo code sev q page w4 w5 w6 w7).1.md = d.md := by rw [d.emitTo_only]
@[simp] theorem Dev.emitTo_ln (code sev q page : Nat) (w4 w5 w6 w7 : Word) : (d.emitTo code sev q page w4 w5 w6 w7).1.ln = d.ln := by rw [d.emitTo_only]
@[simp] theorem Dev.emitTo_fab (code sev q page : Nat) (w4 w5 w6 w7 : Word) : (d.emitTo code sev q page w4 w5 w6 w7).1.fab = d.fab := by rw [d.emitTo_only]
@[simp] theorem Dev.emitTo_ld (code sev q page : Nat) (w4 w5 w6 w7 : Word) : (d.emitTo code sev q page w4 w5 w6 w7).1.ld = d.ld := by rw [d.emitTo_only]
@[simp] theorem Dev.emitTo_sto (code sev q page : Nat) (w4 w5 w6 w7 : Word) : (d.emitTo code sev q page w4 w5 w6 w7).1.sto = d.sto := by rw [d.emitTo_only]
@[simp] theorem Dev.emitTo_sec (code sev q page : Nat) (w4 w5 w6 w7 : Word) : (d.emitTo code sev q page w4 w5 w6 w7).1.sec = d.sec := by rw [d.emitTo_only]
@[simp] theorem Dev.emitTo_pn (code sev q page : Nat) (w4 w5 w6 w7 : Word) : (d.emitTo code sev q page w4 w5 w6 w7).1.pn = d.pn := by rw [d.emitTo_only]
@[simp] theorem Dev.emitTo_pw (code sev q page : Nat) (w4 w5 w6 w7 : Word) : (d.emitTo code sev q page w4 w5 w6 w7).1.pw = d.pw := by rw [d.emitTo_only]
@[simp] theorem Dev.emitTo_fw (code sev q page : Nat) (w4 w5 w6 w7 : Word) : (d.emitTo code sev q page w4 w5 w6 w7).1.fw = d.fw := by rw [d.emitTo_only]
@[simp] theorem Dev.emitTo_hs (code sev q page : Nat) (w4 w5 w6 w7 : Word) : (d.emitTo code sev q page w4 w5 w6 w7).1.hs = d.hs := by rw [d.emitTo_only]
@[simp] theorem Dev.emitTo_bz (code sev q page : Nat) (w4 w5 w6 w7 : Word) : (d.emitTo code sev q page w4 w5 w6 w7).1.bz = d.bz := by rw [d.emitTo_only]

/-! `emit` -/

@[simp] theorem Dev.emit_snaps (code sev q page : Nat) (w4 w5 w6 w7 : Word) : (d.emit code sev q page w4 w5 w6 w7).1.snaps = d.snaps := by rw [d.emit_only]
@[simp] theorem Dev.emit_lockSeq (code sev q page : Nat) (w4 w5 w6 w7 : Word) : (d.emit code sev q page w4 w5 w6 w7).1.lockSeq = d.lockSeq := by rw [d.emit_only]
@[simp] theorem Dev.emit_now (code sev q page : Nat) (w4 w5 w6 w7 : Word) : (d.emit code sev q page w4 w5 w6 w7).1.now = d.now := by rw [d.emit_only]
@[simp] theorem Dev.emit_frac (code sev q page : Nat) (w4 w5 w6 w7 : Word) : (d.emit code sev q page w4 w5 w6 w7).1.frac = d.frac := by rw [d.emit_only]
@[simp] theorem Dev.emit_mono (code sev q page : Nat) (w4 w5 w6 w7 : Word) : (d.emit code sev q page w4 w5 w6 w7).1.mono = d.mono := by rw [d.emit_only]
@[simp] theorem Dev.emit_out (code sev q page : Nat) (w4 w5 w6 w7 : Word) : (d.emit code sev q page w4 w5 w6 w7).1.out = d.out := by rw [d.emit_only]
@[simp] theorem Dev.emit_fresh (code sev q page : Nat) (w4 w5 w6 w7 : Word) : (d.emit code sev q page w4 w5 w6 w7).1.fresh = d.fresh := by rw [d.emit_only]
@[simp] theorem Dev.emit_mst (code sev q page : Nat) (w4 w5 w6 w7 : Word) : (d.emit code sev q page w4 w5 w6 w7).1.mst = d.mst := by rw [d.emit_only]
@[simp] theorem Dev.emit_an (code sev q page : Nat) (w4 w5 w6 w7 : Word) : (d.emit code sev q page w4 w5 w6 w7).1.an = d.an := by rw [d.emit_only]
@[simp] theorem Dev.emit_ti (code sev q page : Nat) (w4 w5 w6 w7 : Word) : (d.emit code sev q page w4 w5 w6 w7).1.ti = d.ti := by rw [d.emit_only]
@[simp] theorem Dev.emit_cw (code sev q page : Nat) (w4 w5 w6 w7 : Word) : (d.emit code sev q page w4 w5 w6 w7).1.cw = d.cw := by rw [d.emit_only]
@[simp] theorem Dev.emit_tm (code sev q page : Nat) (w4 w5 w6 w7 : Word) : (d.emit code sev q page w4 w5 w6 w7).1.tm = d.tm := by rw [d.emit_only]
@[simp] theorem Dev.emit_md (code sev q page : Nat) (w4 w5 w6 w7 : Word) : (d.emit code sev q page w4 w5 w6 w7).1.md = d.md := by rw [d.emit_only]
@[simp] theorem Dev.emit_ln (code sev q page : Nat) (w4 w5 w6 w7 : Word) : (d.emit code sev q page w4 w5 w6 w7).1.ln = d.ln := by rw [d.emit_only]
@[simp] theorem Dev.emit_fab (code sev q page : Nat) (w4 w5 w6 w7 : Word) : (d.emit code sev q page w4 w5 w6 w7).1.fab = d.fab := by rw [d.emit_only]
@[simp] theorem Dev.emit_ld (code sev q page : Nat) (w4 w5 w6 w7 : Word) : (d.emit code sev q page w4 w5 w6 w7).1.ld = d.ld := by rw [d.emit_only]
@[simp] theorem Dev.emit_sto (code sev q page : Nat) (w4 w5 w6 w7 : Word) : (d.emit code sev q page w4 w5 w6 w7).1.sto = d.sto := by rw [d.emit_only]
@[simp] theorem Dev.emit_sec (code sev q page : Nat) (w4 w5 w6 w7 : Word) : (d.emit code sev q page w4 w5 w6 w7).1.sec = d.sec := by rw [d.emit_only]
@[simp] theorem Dev.emit_pn (code sev q page : Nat) (w4 w5 w6 w7 : Word) : (d.emit code sev q page w4 w5 w6 w7).1.pn = d.pn := by rw [d.emit_only]
@[simp] theorem Dev.emit_pw (code sev q page : Nat) (w4 w5 w6 w7 : Word) : (d.emit code sev q page w4 w5 w6 w7).1.pw = d.pw := by rw [d.emit_only]
@[simp] theorem Dev.emit_fw (code sev q page : Nat) (w4 w5 w6 w7 : Word) : (d.emit code sev q page w4 w5 w6 w7).1.fw = d.fw := by rw [d.emit_only]
@[simp] theorem Dev.emit_hs (code sev q page : Nat) (w4 w5 w6 w7 : Word) : (d.emit code sev q page w4 w5 w6 w7).1.hs = d.hs := by rw [d.emit_only]
@[simp] theorem Dev.emit_bz (code sev q page : Nat) (w4 w5 w6 w7 : Word) : (d.emit code sev q page w4 w5 w6 w7).1.bz = d.bz := by rw [d.emit_only]

/-! `raiseRaw` -/

@[simp] theorem Dev.raiseRaw_snaps (p bit code sev : Nat) (w4 w5 w6 w7 : Word) : (d.raiseRaw p bit code sev w4 w5 w6 w7).1.snaps = d.snaps := by rw [d.raiseRaw_only]
@[simp] theorem Dev.raiseRaw_lockSeq (p bit code sev : Nat) (w4 w5 w6 w7 : Word) : (d.raiseRaw p bit code sev w4 w5 w6 w7).1.lockSeq = d.lockSeq := by rw [d.raiseRaw_only]
@[simp] theorem Dev.raiseRaw_now (p bit code sev : Nat) (w4 w5 w6 w7 : Word) : (d.raiseRaw p bit code sev w4 w5 w6 w7).1.now = d.now := by rw [d.raiseRaw_only]
@[simp] theorem Dev.raiseRaw_frac (p bit code sev : Nat) (w4 w5 w6 w7 : Word) : (d.raiseRaw p bit code sev w4 w5 w6 w7).1.frac = d.frac := by rw [d.raiseRaw_only]
@[simp] theorem Dev.raiseRaw_mono (p bit code sev : Nat) (w4 w5 w6 w7 : Word) : (d.raiseRaw p bit code sev w4 w5 w6 w7).1.mono = d.mono := by rw [d.raiseRaw_only]
@[simp] theorem Dev.raiseRaw_out (p bit code sev : Nat) (w4 w5 w6 w7 : Word) : (d.raiseRaw p bit code sev w4 w5 w6 w7).1.out = d.out := by rw [d.raiseRaw_only]
@[simp] theorem Dev.raiseRaw_fresh (p bit code sev : Nat) (w4 w5 w6 w7 : Word) : (d.raiseRaw p bit code sev w4 w5 w6 w7).1.fresh = d.fresh := by rw [d.raiseRaw_only]
@[simp] theorem Dev.raiseRaw_mst (p bit code sev : Nat) (w4 w5 w6 w7 : Word) : (d.raiseRaw p bit code sev w4 w5 w6 w7).1.mst = d.mst := by rw [d.raiseRaw_only]
@[simp] theorem Dev.raiseRaw_an (p bit code sev : Nat) (w4 w5 w6 w7 : Word) : (d.raiseRaw p bit code sev w4 w5 w6 w7).1.an = d.an := by rw [d.raiseRaw_only]
@[simp] theorem Dev.raiseRaw_ti (p bit code sev : Nat) (w4 w5 w6 w7 : Word) : (d.raiseRaw p bit code sev w4 w5 w6 w7).1.ti = d.ti := by rw [d.raiseRaw_only]
@[simp] theorem Dev.raiseRaw_cw (p bit code sev : Nat) (w4 w5 w6 w7 : Word) : (d.raiseRaw p bit code sev w4 w5 w6 w7).1.cw = d.cw := by rw [d.raiseRaw_only]
@[simp] theorem Dev.raiseRaw_tm (p bit code sev : Nat) (w4 w5 w6 w7 : Word) : (d.raiseRaw p bit code sev w4 w5 w6 w7).1.tm = d.tm := by rw [d.raiseRaw_only]
@[simp] theorem Dev.raiseRaw_md (p bit code sev : Nat) (w4 w5 w6 w7 : Word) : (d.raiseRaw p bit code sev w4 w5 w6 w7).1.md = d.md := by rw [d.raiseRaw_only]
@[simp] theorem Dev.raiseRaw_ln (p bit code sev : Nat) (w4 w5 w6 w7 : Word) : (d.raiseRaw p bit code sev w4 w5 w6 w7).1.ln = d.ln := by rw [d.raiseRaw_only]
@[simp] theorem Dev.raiseRaw_fab (p bit code sev : Nat) (w4 w5 w6 w7 : Word) : (d.raiseRaw p bit code sev w4 w5 w6 w7).1.fab = d.fab := by rw [d.raiseRaw_only]
@[simp] theorem Dev.raiseRaw_ld (p bit code sev : Nat) (w4 w5 w6 w7 : Word) : (d.raiseRaw p bit code sev w4 w5 w6 w7).1.ld = d.ld := by rw [d.raiseRaw_only]
@[simp] theorem Dev.raiseRaw_sto (p bit code sev : Nat) (w4 w5 w6 w7 : Word) : (d.raiseRaw p bit code sev w4 w5 w6 w7).1.sto = d.sto := by rw [d.raiseRaw_only]
@[simp] theorem Dev.raiseRaw_sec (p bit code sev : Nat) (w4 w5 w6 w7 : Word) : (d.raiseRaw p bit code sev w4 w5 w6 w7).1.sec = d.sec := by rw [d.raiseRaw_only]
@[simp] theorem Dev.raiseRaw_pn (p bit code sev : Nat) (w4 w5 w6 w7 : Word) : (d.raiseRaw p bit code sev w4 w5 w6 w7).1.pn = d.pn := by rw [d.raiseRaw_only]
@[simp] theorem Dev.raiseRaw_pw (p bit code sev : Nat) (w4 w5 w6 w7 : Word) : (d.raiseRaw p bit code sev w4 w5 w6 w7).1.pw = d.pw := by rw [d.raiseRaw_only]
@[simp] theorem Dev.raiseRaw_fw (p bit code sev : Nat) (w4 w5 w6 w7 : Word) : (d.raiseRaw p bit code sev w4 w5 w6 w7).1.fw = d.fw := by rw [d.raiseRaw_only]
@[simp] theorem Dev.raiseRaw_hs (p bit code sev : Nat) (w4 w5 w6 w7 : Word) : (d.raiseRaw p bit code sev w4 w5 w6 w7).1.hs = d.hs := by rw [d.raiseRaw_only]
@[simp] theorem Dev.raiseRaw_bz (p bit code sev : Nat) (w4 w5 w6 w7 : Word) : (d.raiseRaw p bit code sev w4 w5 w6 w7).1.bz = d.bz := by rw [d.raiseRaw_only]

/-! `raiseCode` -/

@[simp] theorem Dev.raiseCode_snaps (p bit code sev : Nat) (w4 w5 w6 w7 : Word) : (d.raiseCode p bit code sev w4 w5 w6 w7).snaps = d.snaps := by rw [d.raiseCode_only]
@[simp] theorem Dev.raiseCode_lockSeq (p bit code sev : Nat) (w4 w5 w6 w7 : Word) : (d.raiseCode p bit code sev w4 w5 w6 w7).lockSeq = d.lockSeq := by rw [d.raiseCode_only]
@[simp] theorem Dev.raiseCode_now (p bit code sev : Nat) (w4 w5 w6 w7 : Word) : (d.raiseCode p bit code sev w4 w5 w6 w7).now = d.now := by rw [d.raiseCode_only]
@[simp] theorem Dev.raiseCode_frac (p bit code sev : Nat) (w4 w5 w6 w7 : Word) : (d.raiseCode p bit code sev w4 w5 w6 w7).frac = d.frac := by rw [d.raiseCode_only]
@[simp] theorem Dev.raiseCode_mono (p bit code sev : Nat) (w4 w5 w6 w7 : Word) : (d.raiseCode p bit code sev w4 w5 w6 w7).mono = d.mono := by rw [d.raiseCode_only]
@[simp] theorem Dev.raiseCode_out (p bit code sev : Nat) (w4 w5 w6 w7 : Word) : (d.raiseCode p bit code sev w4 w5 w6 w7).out = d.out := by rw [d.raiseCode_only]
@[simp] theorem Dev.raiseCode_fresh (p bit code sev : Nat) (w4 w5 w6 w7 : Word) : (d.raiseCode p bit code sev w4 w5 w6 w7).fresh = d.fresh := by rw [d.raiseCode_only]
@[simp] theorem Dev.raiseCode_mst (p bit code sev : Nat) (w4 w5 w6 w7 : Word) : (d.raiseCode p bit code sev w4 w5 w6 w7).mst = d.mst := by rw [d.raiseCode_only]
@[simp] theorem Dev.raiseCode_an (p bit code sev : Nat) (w4 w5 w6 w7 : Word) : (d.raiseCode p bit code sev w4 w5 w6 w7).an = d.an := by rw [d.raiseCode_only]
@[simp] theorem Dev.raiseCode_ti (p bit code sev : Nat) (w4 w5 w6 w7 : Word) : (d.raiseCode p bit code sev w4 w5 w6 w7).ti = d.ti := by rw [d.raiseCode_only]
@[simp] theorem Dev.raiseCode_cw (p bit code sev : Nat) (w4 w5 w6 w7 : Word) : (d.raiseCode p bit code sev w4 w5 w6 w7).cw = d.cw := by rw [d.raiseCode_only]
@[simp] theorem Dev.raiseCode_tm (p bit code sev : Nat) (w4 w5 w6 w7 : Word) : (d.raiseCode p bit code sev w4 w5 w6 w7).tm = d.tm := by rw [d.raiseCode_only]
@[simp] theorem Dev.raiseCode_md (p bit code sev : Nat) (w4 w5 w6 w7 : Word) : (d.raiseCode p bit code sev w4 w5 w6 w7).md = d.md := by rw [d.raiseCode_only]
@[simp] theorem Dev.raiseCode_ln (p bit code sev : Nat) (w4 w5 w6 w7 : Word) : (d.raiseCode p bit code sev w4 w5 w6 w7).ln = d.ln := by rw [d.raiseCode_only]
@[simp] theorem Dev.raiseCode_fab (p bit code sev : Nat) (w4 w5 w6 w7 : Word) : (d.raiseCode p bit code sev w4 w5 w6 w7).fab = d.fab := by rw [d.raiseCode_only]
@[simp] theorem Dev.raiseCode_ld (p bit code sev : Nat) (w4 w5 w6 w7 : Word) : (d.raiseCode p bit code sev w4 w5 w6 w7).ld = d.ld := by rw [d.raiseCode_only]
@[simp] theorem Dev.raiseCode_sto (p bit code sev : Nat) (w4 w5 w6 w7 : Word) : (d.raiseCode p bit code sev w4 w5 w6 w7).sto = d.sto := by rw [d.raiseCode_only]
@[simp] theorem Dev.raiseCode_sec (p bit code sev : Nat) (w4 w5 w6 w7 : Word) : (d.raiseCode p bit code sev w4 w5 w6 w7).sec = d.sec := by rw [d.raiseCode_only]
@[simp] theorem Dev.raiseCode_pn (p bit code sev : Nat) (w4 w5 w6 w7 : Word) : (d.raiseCode p bit code sev w4 w5 w6 w7).pn = d.pn := by rw [d.raiseCode_only]
@[simp] theorem Dev.raiseCode_pw (p bit code sev : Nat) (w4 w5 w6 w7 : Word) : (d.raiseCode p bit code sev w4 w5 w6 w7).pw = d.pw := by rw [d.raiseCode_only]
@[simp] theorem Dev.raiseCode_fw (p bit code sev : Nat) (w4 w5 w6 w7 : Word) : (d.raiseCode p bit code sev w4 w5 w6 w7).fw = d.fw := by rw [d.raiseCode_only]
@[simp] theorem Dev.raiseCode_hs (p bit code sev : Nat) (w4 w5 w6 w7 : Word) : (d.raiseCode p bit code sev w4 w5 w6 w7).hs = d.hs := by rw [d.raiseCode_only]
@[simp] theorem Dev.raiseCode_bz (p bit code sev : Nat) (w4 w5 w6 w7 : Word) : (d.raiseCode p bit code sev w4 w5 w6 w7).bz = d.bz := by rw [d.raiseCode_only]

/-! `raiseSev` -/

@[simp] theorem Dev.raiseSev_snaps (p : Nat) (e : Evt) (sev : Nat) (w4 w5 w6 w7 : Word) : (d.raiseSev p e sev w4 w5 w6 w7).snaps = d.snaps := by rw [d.raiseSev_only]
@[simp] theorem Dev.raiseSev_lockSeq (p : Nat) (e : Evt) (sev : Nat) (w4 w5 w6 w7 : Word) : (d.raiseSev p e sev w4 w5 w6 w7).lockSeq = d.lockSeq := by rw [d.raiseSev_only]
@[simp] theorem Dev.raiseSev_now (p : Nat) (e : Evt) (sev : Nat) (w4 w5 w6 w7 : Word) : (d.raiseSev p e sev w4 w5 w6 w7).now = d.now := by rw [d.raiseSev_only]
@[simp] theorem Dev.raiseSev_frac (p : Nat) (e : Evt) (sev : Nat) (w4 w5 w6 w7 : Word) : (d.raiseSev p e sev w4 w5 w6 w7).frac = d.frac := by rw [d.raiseSev_only]
@[simp] theorem Dev.raiseSev_mono (p : Nat) (e : Evt) (sev : Nat) (w4 w5 w6 w7 : Word) : (d.raiseSev p e sev w4 w5 w6 w7).mono = d.mono := by rw [d.raiseSev_only]
@[simp] theorem Dev.raiseSev_out (p : Nat) (e : Evt) (sev : Nat) (w4 w5 w6 w7 : Word) : (d.raiseSev p e sev w4 w5 w6 w7).out = d.out := by rw [d.raiseSev_only]
@[simp] theorem Dev.raiseSev_fresh (p : Nat) (e : Evt) (sev : Nat) (w4 w5 w6 w7 : Word) : (d.raiseSev p e sev w4 w5 w6 w7).fresh = d.fresh := by rw [d.raiseSev_only]
@[simp] theorem Dev.raiseSev_mst (p : Nat) (e : Evt) (sev : Nat) (w4 w5 w6 w7 : Word) : (d.raiseSev p e sev w4 w5 w6 w7).mst = d.mst := by rw [d.raiseSev_only]
@[simp] theorem Dev.raiseSev_an (p : Nat) (e : Evt) (sev : Nat) (w4 w5 w6 w7 : Word) : (d.raiseSev p e sev w4 w5 w6 w7).an = d.an := by rw [d.raiseSev_only]
@[simp] theorem Dev.raiseSev_ti (p : Nat) (e : Evt) (sev : Nat) (w4 w5 w6 w7 : Word) : (d.raiseSev p e sev w4 w5 w6 w7).ti = d.ti := by rw [d.raiseSev_only]
@[simp] theorem Dev.raiseSev_cw (p : Nat) (e : Evt) (sev : Nat) (w4 w5 w6 w7 : Word) : (d.raiseSev p e sev w4 w5 w6 w7).cw = d.cw := by rw [d.raiseSev_only]
@[simp] theorem Dev.raiseSev_tm (p : Nat) (e : Evt) (sev : Nat) (w4 w5 w6 w7 : Word) : (d.raiseSev p e sev w4 w5 w6 w7).tm = d.tm := by rw [d.raiseSev_only]
@[simp] theorem Dev.raiseSev_md (p : Nat) (e : Evt) (sev : Nat) (w4 w5 w6 w7 : Word) : (d.raiseSev p e sev w4 w5 w6 w7).md = d.md := by rw [d.raiseSev_only]
@[simp] theorem Dev.raiseSev_ln (p : Nat) (e : Evt) (sev : Nat) (w4 w5 w6 w7 : Word) : (d.raiseSev p e sev w4 w5 w6 w7).ln = d.ln := by rw [d.raiseSev_only]
@[simp] theorem Dev.raiseSev_fab (p : Nat) (e : Evt) (sev : Nat) (w4 w5 w6 w7 : Word) : (d.raiseSev p e sev w4 w5 w6 w7).fab = d.fab := by rw [d.raiseSev_only]
@[simp] theorem Dev.raiseSev_ld (p : Nat) (e : Evt) (sev : Nat) (w4 w5 w6 w7 : Word) : (d.raiseSev p e sev w4 w5 w6 w7).ld = d.ld := by rw [d.raiseSev_only]
@[simp] theorem Dev.raiseSev_sto (p : Nat) (e : Evt) (sev : Nat) (w4 w5 w6 w7 : Word) : (d.raiseSev p e sev w4 w5 w6 w7).sto = d.sto := by rw [d.raiseSev_only]
@[simp] theorem Dev.raiseSev_sec (p : Nat) (e : Evt) (sev : Nat) (w4 w5 w6 w7 : Word) : (d.raiseSev p e sev w4 w5 w6 w7).sec = d.sec := by rw [d.raiseSev_only]
@[simp] theorem Dev.raiseSev_pn (p : Nat) (e : Evt) (sev : Nat) (w4 w5 w6 w7 : Word) : (d.raiseSev p e sev w4 w5 w6 w7).pn = d.pn := by rw [d.raiseSev_only]
@[simp] theorem Dev.raiseSev_pw (p : Nat) (e : Evt) (sev : Nat) (w4 w5 w6 w7 : Word) : (d.raiseSev p e sev w4 w5 w6 w7).pw = d.pw := by rw [d.raiseSev_only]
@[simp] theorem Dev.raiseSev_fw (p : Nat) (e : Evt) (sev : Nat) (w4 w5 w6 w7 : Word) : (d.raiseSev p e sev w4 w5 w6 w7).fw = d.fw := by rw [d.raiseSev_only]
@[simp] theorem Dev.raiseSev_hs (p : Nat) (e : Evt) (sev : Nat) (w4 w5 w6 w7 : Word) : (d.raiseSev p e sev w4 w5 w6 w7).hs = d.hs := by rw [d.raiseSev_only]
@[simp] theorem Dev.raiseSev_bz (p : Nat) (e : Evt) (sev : Nat) (w4 w5 w6 w7 : Word) : (d.raiseSev p e sev w4 w5 w6 w7).bz = d.bz := by rw [d.raiseSev_only]

/-! `raise` -/

@[simp] theorem Dev.raise_snaps (p : Nat) (e : Evt) (w4 w5 w6 w7 : Word) : (d.raise p e w4 w5 w6 w7).snaps = d.snaps := by rw [d.raise_only]
@[simp] theorem Dev.raise_lockSeq (p : Nat) (e : Evt) (w4 w5 w6 w7 : Word) : (d.raise p e w4 w5 w6 w7).lockSeq = d.lockSeq := by rw [d.raise_only]
@[simp] theorem Dev.raise_now (p : Nat) (e : Evt) (w4 w5 w6 w7 : Word) : (d.raise p e w4 w5 w6 w7).now = d.now := by rw [d.raise_only]
@[simp] theorem Dev.raise_frac (p : Nat) (e : Evt) (w4 w5 w6 w7 : Word) : (d.raise p e w4 w5 w6 w7).frac = d.frac := by rw [d.raise_only]
@[simp] theorem Dev.raise_mono (p : Nat) (e : Evt) (w4 w5 w6 w7 : Word) : (d.raise p e w4 w5 w6 w7).mono = d.mono := by rw [d.raise_only]
@[simp] theorem Dev.raise_out (p : Nat) (e : Evt) (w4 w5 w6 w7 : Word) : (d.raise p e w4 w5 w6 w7).out = d.out := by rw [d.raise_only]
@[simp] theorem Dev.raise_fresh (p : Nat) (e : Evt) (w4 w5 w6 w7 : Word) : (d.raise p e w4 w5 w6 w7).fresh = d.fresh := by rw [d.raise_only]
@[simp] theorem Dev.raise_mst (p : Nat) (e : Evt) (w4 w5 w6 w7 : Word) : (d.raise p e w4 w5 w6 w7).mst = d.mst := by rw [d.raise_only]
@[simp] theorem Dev.raise_an (p : Nat) (e : Evt) (w4 w5 w6 w7 : Word) : (d.raise p e w4 w5 w6 w7).an = d.an := by rw [d.raise_only]
@[simp] theorem Dev.raise_ti (p : Nat) (e : Evt) (w4 w5 w6 w7 : Word) : (d.raise p e w4 w5 w6 w7).ti = d.ti := by rw [d.raise_only]
@[simp] theorem Dev.raise_cw (p : Nat) (e : Evt) (w4 w5 w6 w7 : Word) : (d.raise p e w4 w5 w6 w7).cw = d.cw := by rw [d.raise_only]
@[simp] theorem Dev.raise_tm (p : Nat) (e : Evt) (w4 w5 w6 w7 : Word) : (d.raise p e w4 w5 w6 w7).tm = d.tm := by rw [d.raise_only]
@[simp] theorem Dev.raise_md (p : Nat) (e : Evt) (w4 w5 w6 w7 : Word) : (d.raise p e w4 w5 w6 w7).md = d.md := by rw [d.raise_only]
@[simp] theorem Dev.raise_ln (p : Nat) (e : Evt) (w4 w5 w6 w7 : Word) : (d.raise p e w4 w5 w6 w7).ln = d.ln := by rw [d.raise_only]
@[simp] theorem Dev.raise_fab (p : Nat) (e : Evt) (w4 w5 w6 w7 : Word) : (d.raise p e w4 w5 w6 w7).fab = d.fab := by rw [d.raise_only]
@[simp] theorem Dev.raise_ld (p : Nat) (e : Evt) (w4 w5 w6 w7 : Word) : (d.raise p e w4 w5 w6 w7).ld = d.ld := by rw [d.raise_only]
@[simp] theorem Dev.raise_sto (p : Nat) (e : Evt) (w4 w5 w6 w7 : Word) : (d.raise p e w4 w5 w6 w7).sto = d.sto := by rw [d.raise_only]
@[simp] theorem Dev.raise_sec (p : Nat) (e : Evt) (w4 w5 w6 w7 : Word) : (d.raise p e w4 w5 w6 w7).sec = d.sec := by rw [d.raise_only]
@[simp] theorem Dev.raise_pn (p : Nat) (e : Evt) (w4 w5 w6 w7 : Word) : (d.raise p e w4 w5 w6 w7).pn = d.pn := by rw [d.raise_only]
@[simp] theorem Dev.raise_pw (p : Nat) (e : Evt) (w4 w5 w6 w7 : Word) : (d.raise p e w4 w5 w6 w7).pw = d.pw := by rw [d.raise_only]
@[simp] theorem Dev.raise_fw (p : Nat) (e : Evt) (w4 w5 w6 w7 : Word) : (d.raise p e w4 w5 w6 w7).fw = d.fw := by rw [d.raise_only]
@[simp] theorem Dev.raise_hs (p : Nat) (e : Evt) (w4 w5 w6 w7 : Word) : (d.raise p e w4 w5 w6 w7).hs = d.hs := by rw [d.raise_only]
@[simp] theorem Dev.raise_bz (p : Nat) (e : Evt) (w4 w5 w6 w7 : Word) : (d.raise p e w4 w5 w6 w7).bz = d.bz := by rw [d.raise_only]

/-! `raiseAt` -/

@[simp] theorem Dev.raiseAt_snaps (p : Nat) (e : Evt) (t : Nat) (w4 : Word) : (d.raiseAt p e t w4).snaps = d.snaps := by rw [d.raiseAt_only]
@[simp] theorem Dev.raiseAt_lockSeq (p : Nat) (e : Evt) (t : Nat) (w4 : Word) : (d.raiseAt p e t w4).lockSeq = d.lockSeq := by rw [d.raiseAt_only]
@[simp] theorem Dev.raiseAt_now (p : Nat) (e : Evt) (t : Nat) (w4 : Word) : (d.raiseAt p e t w4).now = d.now := by rw [d.raiseAt_only]
@[simp] theorem Dev.raiseAt_frac (p : Nat) (e : Evt) (t : Nat) (w4 : Word) : (d.raiseAt p e t w4).frac = d.frac := by rw [d.raiseAt_only]
@[simp] theorem Dev.raiseAt_mono (p : Nat) (e : Evt) (t : Nat) (w4 : Word) : (d.raiseAt p e t w4).mono = d.mono := by rw [d.raiseAt_only]
@[simp] theorem Dev.raiseAt_out (p : Nat) (e : Evt) (t : Nat) (w4 : Word) : (d.raiseAt p e t w4).out = d.out := by rw [d.raiseAt_only]
@[simp] theorem Dev.raiseAt_fresh (p : Nat) (e : Evt) (t : Nat) (w4 : Word) : (d.raiseAt p e t w4).fresh = d.fresh := by rw [d.raiseAt_only]
@[simp] theorem Dev.raiseAt_mst (p : Nat) (e : Evt) (t : Nat) (w4 : Word) : (d.raiseAt p e t w4).mst = d.mst := by rw [d.raiseAt_only]
@[simp] theorem Dev.raiseAt_an (p : Nat) (e : Evt) (t : Nat) (w4 : Word) : (d.raiseAt p e t w4).an = d.an := by rw [d.raiseAt_only]
@[simp] theorem Dev.raiseAt_ti (p : Nat) (e : Evt) (t : Nat) (w4 : Word) : (d.raiseAt p e t w4).ti = d.ti := by rw [d.raiseAt_only]
@[simp] theorem Dev.raiseAt_cw (p : Nat) (e : Evt) (t : Nat) (w4 : Word) : (d.raiseAt p e t w4).cw = d.cw := by rw [d.raiseAt_only]
@[simp] theorem Dev.raiseAt_tm (p : Nat) (e : Evt) (t : Nat) (w4 : Word) : (d.raiseAt p e t w4).tm = d.tm := by rw [d.raiseAt_only]
@[simp] theorem Dev.raiseAt_md (p : Nat) (e : Evt) (t : Nat) (w4 : Word) : (d.raiseAt p e t w4).md = d.md := by rw [d.raiseAt_only]
@[simp] theorem Dev.raiseAt_ln (p : Nat) (e : Evt) (t : Nat) (w4 : Word) : (d.raiseAt p e t w4).ln = d.ln := by rw [d.raiseAt_only]
@[simp] theorem Dev.raiseAt_fab (p : Nat) (e : Evt) (t : Nat) (w4 : Word) : (d.raiseAt p e t w4).fab = d.fab := by rw [d.raiseAt_only]
@[simp] theorem Dev.raiseAt_ld (p : Nat) (e : Evt) (t : Nat) (w4 : Word) : (d.raiseAt p e t w4).ld = d.ld := by rw [d.raiseAt_only]
@[simp] theorem Dev.raiseAt_sto (p : Nat) (e : Evt) (t : Nat) (w4 : Word) : (d.raiseAt p e t w4).sto = d.sto := by rw [d.raiseAt_only]
@[simp] theorem Dev.raiseAt_sec (p : Nat) (e : Evt) (t : Nat) (w4 : Word) : (d.raiseAt p e t w4).sec = d.sec := by rw [d.raiseAt_only]
@[simp] theorem Dev.raiseAt_pn (p : Nat) (e : Evt) (t : Nat) (w4 : Word) : (d.raiseAt p e t w4).pn = d.pn := by rw [d.raiseAt_only]
@[simp] theorem Dev.raiseAt_pw (p : Nat) (e : Evt) (t : Nat) (w4 : Word) : (d.raiseAt p e t w4).pw = d.pw := by rw [d.raiseAt_only]
@[simp] theorem Dev.raiseAt_fw (p : Nat) (e : Evt) (t : Nat) (w4 : Word) : (d.raiseAt p e t w4).fw = d.fw := by rw [d.raiseAt_only]
@[simp] theorem Dev.raiseAt_hs (p : Nat) (e : Evt) (t : Nat) (w4 : Word) : (d.raiseAt p e t w4).hs = d.hs := by rw [d.raiseAt_only]
@[simp] theorem Dev.raiseAt_bz (p : Nat) (e : Evt) (t : Nat) (w4 : Word) : (d.raiseAt p e t w4).bz = d.bz := by rw [d.raiseAt_only]

/-! `count` -/

@[simp] theorem Dev.count_snaps (p : Nat) (f : Fld) (n : Nat) : (d.count p f n).snaps = d.snaps := by rw [d.count_only]
@[simp] theorem Dev.count_lockSeq (p : Nat) (f : Fld) (n : Nat) : (d.count p f n).lockSeq = d.lockSeq := by rw [d.count_only]
@[simp] theorem Dev.count_now (p : Nat) (f : Fld) (n : Nat) : (d.count p f n).now = d.now := by rw [d.count_only]
@[simp] theorem Dev.count_frac (p : Nat) (f : Fld) (n : Nat) : (d.count p f n).frac = d.frac := by rw [d.count_only]
@[simp] theorem Dev.count_mono (p : Nat) (f : Fld) (n : Nat) : (d.count p f n).mono = d.mono := by rw [d.count_only]
@[simp] theorem Dev.count_out (p : Nat) (f : Fld) (n : Nat) : (d.count p f n).out = d.out := by rw [d.count_only]
@[simp] theorem Dev.count_fresh (p : Nat) (f : Fld) (n : Nat) : (d.count p f n).fresh = d.fresh := by rw [d.count_only]
@[simp] theorem Dev.count_mst (p : Nat) (f : Fld) (n : Nat) : (d.count p f n).mst = d.mst := by rw [d.count_only]
@[simp] theorem Dev.count_an (p : Nat) (f : Fld) (n : Nat) : (d.count p f n).an = d.an := by rw [d.count_only]
@[simp] theorem Dev.count_ti (p : Nat) (f : Fld) (n : Nat) : (d.count p f n).ti = d.ti := by rw [d.count_only]
@[simp] theorem Dev.count_cw (p : Nat) (f : Fld) (n : Nat) : (d.count p f n).cw = d.cw := by rw [d.count_only]
@[simp] theorem Dev.count_tm (p : Nat) (f : Fld) (n : Nat) : (d.count p f n).tm = d.tm := by rw [d.count_only]
@[simp] theorem Dev.count_md (p : Nat) (f : Fld) (n : Nat) : (d.count p f n).md = d.md := by rw [d.count_only]
@[simp] theorem Dev.count_ln (p : Nat) (f : Fld) (n : Nat) : (d.count p f n).ln = d.ln := by rw [d.count_only]
@[simp] theorem Dev.count_fab (p : Nat) (f : Fld) (n : Nat) : (d.count p f n).fab = d.fab := by rw [d.count_only]
@[simp] theorem Dev.count_ld (p : Nat) (f : Fld) (n : Nat) : (d.count p f n).ld = d.ld := by rw [d.count_only]
@[simp] theorem Dev.count_sto (p : Nat) (f : Fld) (n : Nat) : (d.count p f n).sto = d.sto := by rw [d.count_only]
@[simp] theorem Dev.count_sec (p : Nat) (f : Fld) (n : Nat) : (d.count p f n).sec = d.sec := by rw [d.count_only]
@[simp] theorem Dev.count_pn (p : Nat) (f : Fld) (n : Nat) : (d.count p f n).pn = d.pn := by rw [d.count_only]
@[simp] theorem Dev.count_pw (p : Nat) (f : Fld) (n : Nat) : (d.count p f n).pw = d.pw := by rw [d.count_only]
@[simp] theorem Dev.count_fw (p : Nat) (f : Fld) (n : Nat) : (d.count p f n).fw = d.fw := by rw [d.count_only]
@[simp] theorem Dev.count_hs (p : Nat) (f : Fld) (n : Nat) : (d.count p f n).hs = d.hs := by rw [d.count_only]
@[simp] theorem Dev.count_bz (p : Nat) (f : Fld) (n : Nat) : (d.count p f n).bz = d.bz := by rw [d.count_only]

/-! `count64` -/

@[simp] theorem Dev.count64_snaps (p : Nat) (f : Fld) (n : Nat) : (d.count64 p f n).snaps = d.snaps := by rw [d.count64_only]
@[simp] theorem Dev.count64_lockSeq (p : Nat) (f : Fld) (n : Nat) : (d.count64 p f n).lockSeq = d.lockSeq := by rw [d.count64_only]
@[simp] theorem Dev.count64_now (p : Nat) (f : Fld) (n : Nat) : (d.count64 p f n).now = d.now := by rw [d.count64_only]
@[simp] theorem Dev.count64_frac (p : Nat) (f : Fld) (n : Nat) : (d.count64 p f n).frac = d.frac := by rw [d.count64_only]
@[simp] theorem Dev.count64_mono (p : Nat) (f : Fld) (n : Nat) : (d.count64 p f n).mono = d.mono := by rw [d.count64_only]
@[simp] theorem Dev.count64_out (p : Nat) (f : Fld) (n : Nat) : (d.count64 p f n).out = d.out := by rw [d.count64_only]
@[simp] theorem Dev.count64_fresh (p : Nat) (f : Fld) (n : Nat) : (d.count64 p f n).fresh = d.fresh := by rw [d.count64_only]
@[simp] theorem Dev.count64_mst (p : Nat) (f : Fld) (n : Nat) : (d.count64 p f n).mst = d.mst := by rw [d.count64_only]
@[simp] theorem Dev.count64_an (p : Nat) (f : Fld) (n : Nat) : (d.count64 p f n).an = d.an := by rw [d.count64_only]
@[simp] theorem Dev.count64_ti (p : Nat) (f : Fld) (n : Nat) : (d.count64 p f n).ti = d.ti := by rw [d.count64_only]
@[simp] theorem Dev.count64_cw (p : Nat) (f : Fld) (n : Nat) : (d.count64 p f n).cw = d.cw := by rw [d.count64_only]
@[simp] theorem Dev.count64_tm (p : Nat) (f : Fld) (n : Nat) : (d.count64 p f n).tm = d.tm := by rw [d.count64_only]
@[simp] theorem Dev.count64_md (p : Nat) (f : Fld) (n : Nat) : (d.count64 p f n).md = d.md := by rw [d.count64_only]
@[simp] theorem Dev.count64_ln (p : Nat) (f : Fld) (n : Nat) : (d.count64 p f n).ln = d.ln := by rw [d.count64_only]
@[simp] theorem Dev.count64_fab (p : Nat) (f : Fld) (n : Nat) : (d.count64 p f n).fab = d.fab := by rw [d.count64_only]
@[simp] theorem Dev.count64_ld (p : Nat) (f : Fld) (n : Nat) : (d.count64 p f n).ld = d.ld := by rw [d.count64_only]
@[simp] theorem Dev.count64_sto (p : Nat) (f : Fld) (n : Nat) : (d.count64 p f n).sto = d.sto := by rw [d.count64_only]
@[simp] theorem Dev.count64_sec (p : Nat) (f : Fld) (n : Nat) : (d.count64 p f n).sec = d.sec := by rw [d.count64_only]
@[simp] theorem Dev.count64_pn (p : Nat) (f : Fld) (n : Nat) : (d.count64 p f n).pn = d.pn := by rw [d.count64_only]
@[simp] theorem Dev.count64_pw (p : Nat) (f : Fld) (n : Nat) : (d.count64 p f n).pw = d.pw := by rw [d.count64_only]
@[simp] theorem Dev.count64_fw (p : Nat) (f : Fld) (n : Nat) : (d.count64 p f n).fw = d.fw := by rw [d.count64_only]
@[simp] theorem Dev.count64_hs (p : Nat) (f : Fld) (n : Nat) : (d.count64 p f n).hs = d.hs := by rw [d.count64_only]
@[simp] theorem Dev.count64_bz (p : Nat) (f : Fld) (n : Nat) : (d.count64 p f n).bz = d.bz := by rw [d.count64_only]

/-! `countFree` -/

@[simp] theorem Dev.countFree_snaps (p : Nat) (f e : Fld) (n : Nat) : (d.countFree p f e n).snaps = d.snaps := by rw [d.countFree_only]
@[simp] theorem Dev.countFree_lockSeq (p : Nat) (f e : Fld) (n : Nat) : (d.countFree p f e n).lockSeq = d.lockSeq := by rw [d.countFree_only]
@[simp] theorem Dev.countFree_now (p : Nat) (f e : Fld) (n : Nat) : (d.countFree p f e n).now = d.now := by rw [d.countFree_only]
@[simp] theorem Dev.countFree_frac (p : Nat) (f e : Fld) (n : Nat) : (d.countFree p f e n).frac = d.frac := by rw [d.countFree_only]
@[simp] theorem Dev.countFree_mono (p : Nat) (f e : Fld) (n : Nat) : (d.countFree p f e n).mono = d.mono := by rw [d.countFree_only]
@[simp] theorem Dev.countFree_out (p : Nat) (f e : Fld) (n : Nat) : (d.countFree p f e n).out = d.out := by rw [d.countFree_only]
@[simp] theorem Dev.countFree_fresh (p : Nat) (f e : Fld) (n : Nat) : (d.countFree p f e n).fresh = d.fresh := by rw [d.countFree_only]
@[simp] theorem Dev.countFree_mst (p : Nat) (f e : Fld) (n : Nat) : (d.countFree p f e n).mst = d.mst := by rw [d.countFree_only]
@[simp] theorem Dev.countFree_an (p : Nat) (f e : Fld) (n : Nat) : (d.countFree p f e n).an = d.an := by rw [d.countFree_only]
@[simp] theorem Dev.countFree_ti (p : Nat) (f e : Fld) (n : Nat) : (d.countFree p f e n).ti = d.ti := by rw [d.countFree_only]
@[simp] theorem Dev.countFree_cw (p : Nat) (f e : Fld) (n : Nat) : (d.countFree p f e n).cw = d.cw := by rw [d.countFree_only]
@[simp] theorem Dev.countFree_tm (p : Nat) (f e : Fld) (n : Nat) : (d.countFree p f e n).tm = d.tm := by rw [d.countFree_only]
@[simp] theorem Dev.countFree_md (p : Nat) (f e : Fld) (n : Nat) : (d.countFree p f e n).md = d.md := by rw [d.countFree_only]
@[simp] theorem Dev.countFree_ln (p : Nat) (f e : Fld) (n : Nat) : (d.countFree p f e n).ln = d.ln := by rw [d.countFree_only]
@[simp] theorem Dev.countFree_fab (p : Nat) (f e : Fld) (n : Nat) : (d.countFree p f e n).fab = d.fab := by rw [d.countFree_only]
@[simp] theorem Dev.countFree_ld (p : Nat) (f e : Fld) (n : Nat) : (d.countFree p f e n).ld = d.ld := by rw [d.countFree_only]
@[simp] theorem Dev.countFree_sto (p : Nat) (f e : Fld) (n : Nat) : (d.countFree p f e n).sto = d.sto := by rw [d.countFree_only]
@[simp] theorem Dev.countFree_sec (p : Nat) (f e : Fld) (n : Nat) : (d.countFree p f e n).sec = d.sec := by rw [d.countFree_only]
@[simp] theorem Dev.countFree_pn (p : Nat) (f e : Fld) (n : Nat) : (d.countFree p f e n).pn = d.pn := by rw [d.countFree_only]
@[simp] theorem Dev.countFree_pw (p : Nat) (f e : Fld) (n : Nat) : (d.countFree p f e n).pw = d.pw := by rw [d.countFree_only]
@[simp] theorem Dev.countFree_fw (p : Nat) (f e : Fld) (n : Nat) : (d.countFree p f e n).fw = d.fw := by rw [d.countFree_only]
@[simp] theorem Dev.countFree_hs (p : Nat) (f e : Fld) (n : Nat) : (d.countFree p f e n).hs = d.hs := by rw [d.countFree_only]
@[simp] theorem Dev.countFree_bz (p : Nat) (f e : Fld) (n : Nat) : (d.countFree p f e n).bz = d.bz := by rw [d.countFree_only]

end Sys2Proof.Machine
end

