-- ==== Sys2Proof/Laws/Bus.lean ====
section
/-! SUPPORT. Where an address falls, and what an accepted write of a register is. -/

namespace Sys2Proof.Machine

/-! ### Addresses -/

/-- The pages of two classes do not meet. -/
theorem cls_disjoint : ∀ c ∈ Cls.all, ∀ e ∈ Cls.all, c = e ∨ c.info.base + c.info.count * 0x1000 ≤ e.info.base ∨
    e.info.base + e.info.count * 0x1000 ≤ c.info.base := by decide

theorem cls_mem_all (c : Cls) : c ∈ Cls.all := by cases c <;> decide

theorem cls_aligned (c : Cls) : c.info.base % 0x1000 = 0 := by cases c <;> rfl

/-- An offset of page `i` of a class falls in that page. -/
theorem pageAt_pg {c : Cls} {i off : Nat} (hi : i < c.info.count) (ho : off < 0x1000) : pageAt (pg c i + off) = some (c, i) := by
  have key : ∀ l : List Cls, c ∈ l → (∀ e ∈ l, e ∈ Cls.all) →
      (l.findSome? fun e => if e.info.base ≤ pg c i + off ∧ pg c i + off < e.info.base + e.info.count * 0x1000
        then some (e, (pg c i + off - e.info.base) / 0x1000) else none) = some (c, i) := by
    intro l
    induction l with
    | nil => intro h; cases h
    | cons e t ih =>
      intro h hall
      rw [List.findSome?_cons]
      have hin : c.info.base ≤ pg c i + off ∧ pg c i + off < c.info.base + c.info.count * 0x1000 := by unfold pg; omega
      rcases cls_disjoint c (cls_mem_all c) e (cls_mem_all e) with rfl | hd
      · rw [if_pos hin]
        have : (pg c i + off - c.info.base) / 0x1000 = i := by unfold pg; omega
        rw [this]
      · have hno : ¬ (e.info.base ≤ pg c i + off ∧ pg c i + off < e.info.base + e.info.count * 0x1000) := by omega
        rw [if_neg hno]
        rcases List.mem_cons.mp h with rfl | h
        · exact absurd hin hno
        · exact ih h fun x hx => hall x (.tail _ hx)
  exact key Cls.all (cls_mem_all c) fun _ h => h

theorem pg_mod (c : Cls) (i : Nat) {off : Nat} (ho : off < 0x1000) : (pg c i + off) % 0x1000 = off := by
  have := cls_aligned c; unfold pg; omega

theorem pageBase_pg (c : Cls) (i : Nat) {off : Nat} (ho : off < 0x1000) : pageBase (pg c i + off) = pg c i := by
  unfold pageBase; rw [pg_mod c i ho]; omega

theorem pg_lt {c : Cls} {i : Nat} (hi : i < c.info.count) :
    pg c i + 0x1000 ≤ 0x744000 ∧ (pg c i + 0x1000 ≤ 0x600000 ∨ 0x700000 ≤ pg c i) := by
  unfold pg; cases c <;> simp only [Cls.info] at hi ⊢ <;> omega

/-- Distinct pages do not share an address. -/
theorem pg_ne {c e : Cls} {i j x y : Nat} (hi : i < c.info.count) (hj : j < e.info.count) (hx : x < 0x1000) (hy : y < 0x1000)
    (h : (c, i) ≠ (e, j)) : pg c i + x ≠ pg e j + y := by
  intro he
  have h1 := pageAt_pg hi hx
  rw [he, pageAt_pg hj hy] at h1
  exact h (Option.some.inj h1).symm

/-! ### Accepted writes -/

/-- The register that answers stands on a whole dword of its page. -/
theorem busWrite_page (d : Dev) (src : Source) {c : Cls} {i off : Nat} (v : Word) (hi : i < c.info.count) (ho : off < 0x1000)
    (h4 : off % 4 = 0) (ha : d.answers c = true) :
    d.busWrite src (pg c i + off) v true .clean = d.writePage src c i off v true := by
  have h := pg_lt hi
  have hm := pg_mod c i ho
  have hb := cls_aligned c
  unfold Dev.busWrite
  rw [if_neg (by omega), if_neg (by omega), if_neg (by omega), pageAt_pg hi ho]
  simp only [ha, if_true, hm]

/-- A read of a page that answers. -/
theorem busRead_page (d : Dev) (src : Source) {c : Cls} {i off : Nat} (hi : i < c.info.count) (ho : off < 0x1000)
    (h4 : off % 4 = 0) (ha : d.answers c = true) : d.busRead src (pg c i + off) = d.readPage src c i off := by
  have h := pg_lt hi
  have hb := cls_aligned c
  unfold Dev.busRead
  rw [if_neg, if_neg, if_neg, pageAt_pg hi ho]
  · simp only [ha, if_true, pg_mod c i ho]
  all_goals (unfold pg at *; omega)

/-- An accepted write of a register that is no pin of a bank. -/
theorem writePage_accepts (d : Dev) (src : Source) {c : Cls} {i off : Nat} {r : RegSpec} (v : Word) (hr : regAt c i off = some r)
    (hs : 0x800 ≤ off → r.isStaged = true) (hc : c ≠ .iob ∨ off % 0x800 < 0x40) (hk : d.cause src c i off r v true = 0) :
    d.writePage src c i off v true = ((d.acceptWrite src c i off r v).breakLock c i off, none) := by
  unfold Dev.writePage
  simp only [hr]
  rw [if_neg (by rintro ⟨h1, h2⟩; simp [hs h1] at h2), if_neg (by rintro ⟨h1, h2⟩; rcases hc with hc | hc; exact hc h1; omega)]
  unfold Dev.writeReg
  simp only [hk, if_true]

/-- A command that is an accepted write of a live register. -/
theorem cmdWrite_accepts (d : Dev) (src : Source) {c : Cls} {i : Nat} {f : Fld} (v : Word) (h : Accepts d src c i f.off v)
    (ho : f.off < 0x800) (h4 : f.off % 4 = 0) (hc : c ≠ .iob ∨ f.off < 0x40) :
    ∃ r, regAt c i f.off = some r ∧ d.cmdWrite src c i f v = (d.acceptWrite src c i f.off r v).breakLock c i f.off := by
  obtain ⟨hi, ha, r, hr, hk⟩ := h
  refine ⟨r, hr, ?_⟩
  unfold Dev.cmdWrite Dev.regWrite
  rw [busWrite_page d src v hi (by omega) h4 ha, writePage_accepts d src v hr (by omega) (hc.imp_right (by omega)) hk]

/-- A command that is an accepted write of a register that is stored and acted on. -/
theorem cmdWrite_live (d : Dev) (src : Source) {c : Cls} {i : Nat} {f : Fld} {r : RegSpec} (v : Word)
    (h : Accepts d src c i f.off v) (ho : f.off < 0x800) (h0 : 0x40 ≤ f.off) (h4 : f.off % 4 = 0) (hc : c ≠ .iob)
    (hr : regAt c i f.off = some r) (hs : d.specialWrite src c i f.off v = none) :
    d.cmdWrite src c i f v = (d.liveWrite src c i f.off r v).breakLock c i f.off := by
  obtain ⟨r', hr', he⟩ := cmdWrite_accepts d src v h ho h4 (.inl hc)
  rw [hr] at hr'; cases hr'
  rw [he]
  unfold Dev.acceptWrite
  have hh : d.headerWrite src c i f.off r v = none := by
    have e1 : HDR.PAGE_CTL.off = 8 := rfl
    have e2 : HDR.EVT_EN.off = 0x14 := rfl
    have e3 : HDR.EVT_NOTICE.off = 0x18 := rfl
    have e4 : HDR.EVT_FORCE.off = 0x1C := rfl
    have e5 : HDR.SNAP_CTL.off = 0x20 := rfl
    have e6 : HDR.PAGE_LOCK.off = 0x28 := rfl
    have hb : blkRst f.off v = false := by
      unfold blkRst; rw [decide_eq_false (by omega)]; rfl
    unfold Dev.headerWrite
    rw [hb, if_neg (by simp), if_neg (by omega), if_neg (by omega), if_neg (by omega), if_neg (by omega)]
  rw [if_neg (by omega), hh, hs]

theorem regAt_find {c : Cls} (i off : Nat)
    (hc : c ≠ .freg ∨ (off % 0x800 ≠ FREG.OSC_CFG.off ∧ off % 0x800 ≠ FREG.OSC_MEAS.off)) :
    regAt c i off = findReg c (off % 0x800) := by
  unfold regAt
  rw [if_neg fun h => hc.elim (fun x => x h.1) fun x => h.2.2.elim x.1 x.2]

/-- The bits of a register by access code: RW, W1S, W1C, and all that a write acts on. -/
def regCodes (c : Cls) (off : Nat) : Option (Word × Word × Word × Word) :=
  (findReg c off).map fun r => (r.mask fun f => decide (f.acc = .rw), r.mask fun f => decide (f.acc = .w1s),
    r.mask fun f => decide (f.acc = .w1c), r.acting)

/-- The same, with the masks of the register's access codes: RW fields take the word, W1S bits are set, and the block hears
the fields a write acts on. -/
theorem cmdWrite_stores (d : Dev) (src : Source) {c : Cls} {i : Nat} {f : Fld} {v a b m : Word}
    (h : Accepts d src c i f.off v) (hq : regCodes c f.off = some (a, b, 0, m))
    (ho : f.off < 0x800 ∧ 0x40 ≤ f.off ∧ f.off % 4 = 0)
    (hc : c ≠ .iob ∧ (c ≠ .freg ∨ (f.off % 0x800 ≠ FREG.OSC_CFG.off ∧ f.off % 0x800 ≠ FREG.OSC_MEAS.off)))
    (hs : d.specialWrite src c i f.off v = none) :
    d.cmdWrite src c i f v = ((d.put (pg c i + f.off)
      ((d.raw (pg c i + f.off) &&& ~~~a) ||| (v &&& a) ||| (v &&& b))).react src c i f.off Via.direct (d.raw (pg c i + f.off))
      ((d.raw (pg c i + f.off) &&& ~~~m) ||| (v &&& m))).breakLock c i f.off := by
  have hr0 := regAt_find i f.off hc.2
  rw [Nat.mod_eq_of_lt ho.1] at hr0
  unfold regCodes at hq
  obtain ⟨r, hr, he⟩ := Option.map_eq_some_iff.mp hq
  rw [hr] at hr0
  simp only [Prod.mk.injEq] at he
  obtain ⟨ha, hb, h1, hm⟩ := he
  rw [cmdWrite_live d src v h ho.1 ho.2.1 ho.2.2 hc.1 hr0 hs]
  unfold Dev.liveWrite
  have hma : maskedAt c f.off = false := by unfold maskedAt; rw [decide_eq_false hc.1]; rfl
  simp only [hma, Bool.false_eq_true, if_false, RegSpec.want]
  unfold RegSpec.stored RegSpec.asked
  simp only [ha, hb, h1, hm]
  have : ∀ x : Word, x &&& ~~~(v &&& (0 : Word)) = x := fun x => by
    rw [show v &&& (0 : Word) = 0#32 from BitVec.and_zero, show ~~~(0#32) = BitVec.allOnes 32 by decide, BitVec.and_allOnes]
  rw [this]

end Sys2Proof.Machine
end

