-- ==== Sys2Proof/Laws/Cmd.lean ====
section
/-! SUPPORT. How a command runs: what every meaning shares. -/

namespace Sys2Proof.Machine

theorem act_on (f : Dev → Dev) {s : State} (h : s.dev.coreOn = true) : act f s = .next (after s (f s.dev.quiet)) := by
  unfold act after Dev.ran; rw [if_pos h]

theorem act_off (f : Dev → Dev) {s : State} (h : s.dev.coreOn = false) : act f s = .next { s with dev := s.dev.quiet } := by
  unfold act Dev.ran; rw [if_neg (by simp [h])]

theorem actAlways_on (f : Dev → Dev) (s : State) : actAlways f s = .next (after s (f s.dev.quiet)) := rfl

theorem actTile_on (f : Dev → Dev) {s : State} (h : s.dev.tilesOn = true) : actTile f s = .next (after s (f s.dev.quiet)) := by
  unfold actTile after Dev.ran; rw [if_pos h]

/-- The word of a command that sets a field. -/
theorem trig_eq {f : Fld} {m : Word} (v : Word) (h : fmask f.hi f.lo = m) : trig f v = v ||| m := by unfold trig; rw [h]

/-- What a register does when it becomes live is its block's reaction, but for a request of `PAGE_CTL`. -/
theorem react_class (d : Dev) (src : Source) {c : Cls} {i off : Nat} {via : Via} {old new : Word} (h : off ≠ HDR.PAGE_CTL.off) :
    d.react src c i off via old new = d.classLive src c i off via old new := by
  unfold Dev.react; exact if_neg fun x => h x.1

/-- An accepted command to a register whose access codes are known: the word is stored, the block reacts, and a key sequence
under way on the page is broken. -/
theorem cmdWrite_does (d : Dev) (src : Source) {c : Cls} {i : Nat} {f : Fld} {v : Word} (a b m : Word)
    (h : Accepts d src c i f.off v) (hq : regCodes c f.off = some (a, b, 0, m))
    (ho : f.off < 0x800 ∧ 0x40 ≤ f.off ∧ f.off % 4 = 0)
    (hc : c ≠ .iob ∧ (c ≠ .freg ∨ (f.off % 0x800 ≠ FREG.OSC_CFG.off ∧ f.off % 0x800 ≠ FREG.OSC_MEAS.off)))
    (hs : d.specialWrite src c i f.off v = none) :
    d.cmdWrite src c i f v = ((written d (pg c i) f a b v).classLive src c i f.off Via.direct (d.raw (pg c i + f.off))
      (heard d (pg c i) f m v)).breakLock c i f.off := by
  have hx : f.off ≠ HDR.PAGE_CTL.off := by
    have : HDR.PAGE_CTL.off = 8 := rfl
    omega
  refine (cmdWrite_stores d src h hq ho hc hs).trans ?_
  exact congrArg (fun x : Dev => x.breakLock c i f.off) (react_class _ src hx)

/-- The same once what the block does is known. -/
theorem cmdWrite_eff (d : Dev) (src : Source) {c : Cls} {i : Nat} {f : Fld} {v : Word} (a b m : Word) {e : Dev}
    (h : Accepts d src c i f.off v) (hq : regCodes c f.off = some (a, b, 0, m))
    (ho : f.off < 0x800 ∧ 0x40 ≤ f.off ∧ f.off % 4 = 0)
    (hc : c ≠ .iob ∧ (c ≠ .freg ∨ (f.off % 0x800 ≠ FREG.OSC_CFG.off ∧ f.off % 0x800 ≠ FREG.OSC_MEAS.off)))
    (hs : d.specialWrite src c i f.off v = none)
    (he : (written d (pg c i) f a b v).classLive src c i f.off Via.direct (d.raw (pg c i + f.off))
      (heard d (pg c i) f m v) = e) :
    d.cmdWrite src c i f v = e.breakLock c i f.off := by rw [← he]; exact cmdWrite_does d src a b m h hq ho hc hs

/-- An accepted command beyond the header is the acceptance of its word, for a pin bank where the filter drops no bit. -/
theorem cmdWrite_some (d : Dev) (src : Source) {c : Cls} {i : Nat} {f : Fld} (v : Word) (h : Accepts d src c i f.off v)
    (ho : f.off < 0x800 ∧ 0x40 ≤ f.off ∧ f.off % 4 = 0) (hc : c ≠ .iob ∨ d.iobDropped src i f.off v = 0) :
    ∃ r, regAt c i f.off = some r ∧ d.cmdWrite src c i f v = (d.acceptWrite src c i f.off r v).breakLock c i f.off := by
  obtain ⟨hi, ha, r, hr, hk⟩ := h
  refine ⟨r, hr, ?_⟩
  unfold Dev.cmdWrite Dev.regWrite
  rw [busWrite_page d src v hi (by omega) ho.2.2 ha]
  have hw : d.writeReg src c i f.off r v true = ((d.acceptWrite src c i f.off r v).breakLock c i f.off, none) := by
    unfold Dev.writeReg
    simp only [hk, if_true]
  unfold Dev.writePage
  simp only [hr]
  rw [if_neg (by omega), hw]
  by_cases hx : c = .iob ∧ 0x40 ≤ f.off % 0x800
  · rw [if_pos hx]
    have hd := hc.resolve_left fun x => x hx.1
    unfold Dev.iobFilter
    simp only [Nat.mod_eq_of_lt ho.1, hd, if_true, hw]
  · rw [if_neg hx]

/-- The header gives no meaning of its own to a register beyond it. -/
theorem headerWrite_none (d : Dev) (src : Source) (c : Cls) (i : Nat) {off : Nat} (r : RegSpec) (v : Word) (h0 : 0x40 ≤ off) :
    d.headerWrite src c i off r v = none := by
  have e1 : HDR.PAGE_CTL.off = 8 := rfl
  have e2 : HDR.EVT_EN.off = 0x14 := rfl
  have e3 : HDR.EVT_NOTICE.off = 0x18 := rfl
  have e4 : HDR.EVT_FORCE.off = 0x1C := rfl
  have e5 : HDR.SNAP_CTL.off = 0x20 := rfl
  have e6 : HDR.PAGE_LOCK.off = 0x28 := rfl
  have hb : blkRst off v = false := by unfold blkRst; rw [decide_eq_false (by omega)]; rfl
  unfold Dev.headerWrite
  rw [hb, if_neg (by simp), if_neg (by omega), if_neg (by omega), if_neg (by omega), if_neg (by omega)]

/-- An accepted command that its block takes in another way than by storing it. -/
theorem cmdWrite_special (d : Dev) (src : Source) {c : Cls} {i : Nat} {f : Fld} {v : Word} {e : Dev}
    (h : Accepts d src c i f.off v) (ho : f.off < 0x800 ∧ 0x40 ≤ f.off ∧ f.off % 4 = 0)
    (hc : c ≠ .iob ∨ d.iobDropped src i f.off v = 0) (hs : d.specialWrite src c i f.off v = some e) :
    d.cmdWrite src c i f v = e.breakLock c i f.off := by
  obtain ⟨r, _, hw⟩ := cmdWrite_some d src v h ho hc
  rw [hw]
  unfold Dev.acceptWrite
  rw [if_neg (by omega), headerWrite_none d src c i r v ho.2.1, hs]

/-- An accepted masked write of a pin bank: the masked pins take their bits, and the bank hears of it. -/
theorem cmdWrite_masked (d : Dev) (src : Source) {i : Nat} {f : Fld} {v : Word}
    (h : Accepts d src .iob i f.off v) (ho : f.off < 0x800 ∧ 0x40 ≤ f.off ∧ f.off % 4 = 0)
    (hd : d.iobDropped src i f.off v = 0) (hm : iobMasked f.off = true) (hl : f.off ≠ IOB.PIN_LOCK.off) :
    d.cmdWrite src .iob i f v = ((d.put (pg .iob i + f.off) (maskedWord (d.raw (pg .iob i + f.off)) v)).iobLive i f.off
      (d.raw (pg .iob i + f.off)) (maskedWord (d.raw (pg .iob i + f.off)) v)).breakLock .iob i f.off := by
  obtain ⟨r, _, hw⟩ := cmdWrite_some d src v h ho (.inr hd)
  rw [hw]
  have hs : d.specialWrite src .iob i f.off v = none := by
    unfold Dev.specialWrite
    rw [if_neg (by simp), if_neg (by simp), if_neg fun x => hl x.2, if_neg fun x => absurd x.1 (by decide)]
  unfold Dev.acceptWrite
  rw [if_neg (by omega), headerWrite_none d src .iob i r v ho.2.1, hs]
  have hma : maskedAt .iob f.off = true := by
    unfold maskedAt; rw [Nat.mod_eq_of_lt ho.1, hm]; rfl
  have hx : f.off ≠ HDR.PAGE_CTL.off := by
    have : HDR.PAGE_CTL.off = 8 := rfl
    omega
  show (d.liveWrite src .iob i f.off r v).breakLock .iob i f.off = _
  unfold Dev.liveWrite RegSpec.want
  simp only [hma, if_true]
  rw [react_class _ src hx]
  rfl

/-- An accepted write of `PAGE_CTL` that resets no block is stored and acted on. -/
theorem cmdWrite_ctl (d : Dev) (src : Source) {c : Cls} {i : Nat} {v : Word} (a b m : Word)
    (h : Accepts d src c i HDR.PAGE_CTL.off v) (hb : bitAt v 1 = false)
    (hq : regCodes c HDR.PAGE_CTL.off = some (a, b, 0, m)) (hc : c ≠ .freg ∧ c ≠ .mst ∧ c ≠ .iob ∧ c.serial = false) :
    d.cmdWrite src c i HDR.PAGE_CTL v = ((written d (pg c i) HDR.PAGE_CTL a b v).react src c i HDR.PAGE_CTL.off Via.direct
      (d.raw (pg c i + HDR.PAGE_CTL.off)) (heard d (pg c i) HDR.PAGE_CTL m v)).breakLock c i HDR.PAGE_CTL.off := by
  have ho : HDR.PAGE_CTL.off = 8 := rfl
  have hr0 := regAt_find i HDR.PAGE_CTL.off (.inl hc.1)
  rw [show HDR.PAGE_CTL.off % 0x800 = HDR.PAGE_CTL.off from rfl] at hr0
  unfold regCodes at hq
  obtain ⟨r, hr, he⟩ := Option.map_eq_some_iff.mp hq
  rw [hr] at hr0
  simp only [Prod.mk.injEq] at he
  obtain ⟨ha, hb', h1, hm⟩ := he
  obtain ⟨r', hr', hw⟩ := cmdWrite_accepts d src (f := HDR.PAGE_CTL) v h (by rw [ho]; omega) (by rw [ho]) (.inr (by rw [ho]; omega))
  rw [hr0] at hr'; cases hr'
  rw [hw]
  have hh : d.headerWrite src c i HDR.PAGE_CTL.off r v = none := by
    have : blkRst HDR.PAGE_CTL.off v = false := by unfold blkRst; rw [hb]; exact Bool.and_false _
    unfold Dev.headerWrite
    rw [this, if_neg (by simp), if_neg (by decide), if_neg (by decide), if_neg (by decide), if_neg (by decide)]
  have hs : d.specialWrite src c i HDR.PAGE_CTL.off v = none := by
    unfold Dev.specialWrite
    rw [if_neg fun x => hc.2.1 x.1, if_neg fun x => hc.2.1 x.1, if_neg fun x => hc.2.2.1 x.1,
      if_neg fun x => by rw [hc.2.2.2] at x; cases x.1]
  unfold Dev.acceptWrite
  rw [if_neg (by decide), hh, hs]
  show (d.liveWrite src c i HDR.PAGE_CTL.off r v).breakLock c i HDR.PAGE_CTL.off = _
  unfold Dev.liveWrite
  have hma : maskedAt c HDR.PAGE_CTL.off = false := by unfold maskedAt; rw [decide_eq_false hc.2.2.1]; rfl
  simp only [hma, Bool.false_eq_true, if_false, RegSpec.want]
  unfold RegSpec.stored RegSpec.asked
  simp only [ha, hb', h1, hm]
  have : ∀ x : Word, x &&& ~~~(v &&& (0 : Word)) = x := fun x => by
    rw [show v &&& (0 : Word) = 0#32 from BitVec.and_zero, show ~~~(0#32) = BitVec.allOnes 32 by decide, BitVec.and_allOnes]
  rw [this]
  rfl

/-- A device where nothing falls due. -/
theorem dues_calm {d : Dev} (h : d.calm = true) : d.dues = d := by
  unfold Dev.calm at h
  simp only [Bool.and_eq_true, List.isEmpty_iff] at h
  obtain ⟨⟨⟨⟨⟨hr, hc⟩, hw⟩, hh⟩, hm⟩, hk⟩ := h
  have e1 : d.repsDue = d := by
    have : (d.an.groups.filter fun x => x.2.reps.any (·.again)) = [] :=
      List.filter_eq_nil_iff.mpr fun x hx ha => by
        obtain ⟨r, hr', ha'⟩ := List.any_eq_true.mp ha
        have := List.all_eq_true.mp (List.all_eq_true.mp hr x hx) r hr'
        simp [ha'] at this
    unfold Dev.repsDue; rw [this]; rfl
  have e2 : d.rowsFollow = d := if_pos ⟨hc, hw⟩
  have e3 : d.hoDue = d := by
    unfold Dev.hoDue
    split
    · rfl
    · rename_i e; rw [e] at hh; exact if_neg (by simpa using hh)
  have e4 : d.waitsDue = d := if_pos hm
  have e5 : d.checkDue = d := by
    unfold Dev.checkDue
    split
    · rename_i j e
      rw [e] at hk
      refine if_neg fun hl => ?_
      unfold Dev.checkLeft Dev.checkBound at hl
      cases hs : j.start with
      | none => simp [hs] at hl
      | some t => simp [hs] at hk hl; omega
    · rfl
  unfold Dev.dues
  rw [e1, e2, e3, e4, e5]

/-- A command that leaves device time as it was is followed by nothing, where nothing falls due. -/
theorem settle_same (d e : Dev) (hn : e.now = d.now) (hm : e.mono = d.mono) (hp : e.pw.porstAt = d.pw.porstAt) (hc : e.calm = true) :
    Dev.settle d e = e := by
  have h1 : Dev.stepped d e = false := by simp [Dev.stepped, hn, hm]
  have h2 : e.uptime = d.uptime := by simp [Dev.uptime, hm, hp]
  unfold Dev.settle
  simp [h1, h2, dues_calm hc]

/-- Where device time only runs on, what falls due follows, and a wrap of `UPTIME` counts. -/
theorem settle_run (d e : Dev) (hn : e.now + d.mono = d.now + e.mono) : Dev.settle d e =
    if d.uptime / 2 ^ 32 < e.dues.uptime / 2 ^ 32 then
      e.dues.count (pg .sys 0) SYS.UPTIME_EPOCH (e.dues.uptime / 2 ^ 32 - d.uptime / 2 ^ 32) else e.dues := by
  have h1 : Dev.stepped d e = false := by simp [Dev.stepped, hn]
  unfold Dev.settle
  simp only [h1, Bool.false_eq_true, if_false]

end Sys2Proof.Machine
end

