-- ==== Sys2Proof/Laws/Tab.lean ====
section
/-! SUPPORT. Sparse tables and byte memory: what a read after a write gives, and that every operation keeps the canonical
form. -/

namespace Sys2Proof.Machine

variable {α : Type}

/-! ### Reads -/

theorem Tab.get_ins_self (t : Tab α) (k : Nat) (x : α) : Tab.get (Tab.ins t k x) k = some x := by
  induction t with
  | nil => simp [Tab.ins, Tab.get]
  | cons e t ih =>
    obtain ⟨j, y⟩ := e
    unfold Tab.ins
    split
    · simp [Tab.get]
    · split
      · simp [Tab.get]
      · next h => simp [Tab.get, Ne.symm h, ih]

theorem Tab.get_ins_of_ne (t : Tab α) {k j : Nat} (x : α) (h : j ≠ k) : Tab.get (Tab.ins t k x) j = Tab.get t j := by
  induction t with
  | nil => simp [Tab.ins, Tab.get, Ne.symm h]
  | cons e t ih =>
    obtain ⟨i, y⟩ := e
    unfold Tab.ins
    split
    · simp [Tab.get, Ne.symm h]
    · split
      · next h2 => subst h2; simp [Tab.get, Ne.symm h]
      · simp [Tab.get, ih]

theorem Tab.get_del_of_ne (t : Tab α) {k j : Nat} (h : j ≠ k) : Tab.get (Tab.del t k) j = Tab.get t j := by
  induction t with
  | nil => rfl
  | cons e t ih =>
    obtain ⟨i, y⟩ := e
    unfold Tab.del
    split
    · next h2 => subst h2; simp [Tab.get, Ne.symm h]
    · simp [Tab.get, ih]

theorem Tab.mem_del {t : Tab α} {k : Nat} {e : Nat × α} (h : e ∈ Tab.del t k) : e ∈ t := by
  induction t with
  | nil => simp [Tab.del] at h
  | cons x t ih =>
    unfold Tab.del at h
    split at h
    · exact .tail _ h
    · rcases List.mem_cons.mp h with rfl | h
      · exact .head _
      · exact .tail _ (ih h)

theorem Tab.mem_ins {t : Tab α} {k : Nat} {x : α} {e : Nat × α} (h : e ∈ Tab.ins t k x) : e = (k, x) ∨ e ∈ t := by
  induction t with
  | nil => simpa [Tab.ins] using h
  | cons y t ih =>
    obtain ⟨j, z⟩ := y
    unfold Tab.ins at h
    split at h
    · exact (List.mem_cons.mp h)
    · split at h
      · exact (List.mem_cons.mp h).imp_right (.tail _)
      · rcases List.mem_cons.mp h with rfl | h
        · exact .inr (.head _)
        · exact (ih h).imp_right (.tail _)

/-- In a canonical table nothing is found under a key below all of its keys. -/
theorem Tab.get_none {t : Tab α} {k : Nat} (h : ∀ e ∈ t, k < e.1) : Tab.get t k = none := by
  induction t with
  | nil => rfl
  | cons e t ih =>
    obtain ⟨j, y⟩ := e
    have : j ≠ k := Nat.ne_of_gt (h (j, y) (.head _))
    simp [Tab.get, this, ih fun e he => h e (.tail _ he)]

/-! ### The canonical form -/

variable [DecidableEq α] {d : Nat → α}

theorem Tab.wf_cons {k : Nat} {x : α} {t : Tab α} :
    Tab.wf d ((k, x) :: t) = true ↔ x ≠ d k ∧ (∀ e ∈ t, k < e.1) ∧ Tab.wf d t = true := by
  induction t generalizing k x with
  | nil => simp [Tab.wf]
  | cons e t ih =>
    obtain ⟨j, y⟩ := e
    simp only [Tab.wf, Bool.and_eq_true, decide_eq_true_eq, List.mem_cons, forall_eq_or_imp, and_assoc]
    constructor
    · rintro ⟨h1, h2, h3⟩
      exact ⟨h1, h2, fun e he => Nat.lt_trans h2 ((ih.mp h3).2.1 e he), h3⟩
    · rintro ⟨h1, h2, -, h3⟩
      exact ⟨h1, h2, h3⟩

theorem Tab.wf_tail {e : Nat × α} {t : Tab α} (h : Tab.wf d (e :: t) = true) : Tab.wf d t = true := (Tab.wf_cons.mp h).2.2

theorem Tab.wf_del {t : Tab α} (k : Nat) (h : Tab.wf d t = true) : Tab.wf d (Tab.del t k) = true := by
  induction t with
  | nil => rfl
  | cons x t ih =>
    obtain ⟨j, y⟩ := x
    unfold Tab.del
    split
    · exact Tab.wf_tail h
    · obtain ⟨h1, h2, h3⟩ := Tab.wf_cons.mp h
      exact Tab.wf_cons.mpr ⟨h1, fun e he => h2 e (Tab.mem_del he), ih h3⟩

theorem Tab.wf_ins {t : Tab α} {k : Nat} {x : α} (hx : x ≠ d k) (h : Tab.wf d t = true) : Tab.wf d (Tab.ins t k x) = true := by
  induction t with
  | nil => simpa [Tab.ins, Tab.wf] using hx
  | cons e t ih =>
    obtain ⟨j, y⟩ := e
    obtain ⟨h1, h2, h3⟩ := Tab.wf_cons.mp h
    unfold Tab.ins
    split
    · next hk =>
      refine Tab.wf_cons.mpr ⟨hx, fun e he => ?_, h⟩
      rcases List.mem_cons.mp he with rfl | he
      · exact hk
      · exact Nat.lt_trans hk (h2 e he)
    · split
      · next hk => subst hk; exact Tab.wf_cons.mpr ⟨hx, h2, h3⟩
      · next h4 h5 =>
        refine Tab.wf_cons.mpr ⟨h1, fun e he => ?_, ih h3⟩
        rcases Tab.mem_ins he with rfl | he
        · exact Nat.lt_of_le_of_ne (Nat.le_of_not_lt h4) (Ne.symm h5)
        · exact h2 e he

/-- A store keeps the canonical form. -/
theorem Tab.wf_put {t : Tab α} (k : Nat) (x : α) (h : Tab.wf d t = true) : Tab.wf d (Tab.put t k x (d k)) = true := by
  unfold Tab.put
  split
  · exact Tab.wf_del k h
  · next hx => exact Tab.wf_ins hx h

/-- Dropping entries keeps the canonical form. -/
theorem Tab.wf_keep {t : Tab α} (p : Nat → Bool) (h : Tab.wf d t = true) : Tab.wf d (Tab.keep t p) = true := by
  induction t with
  | nil => rfl
  | cons e t ih =>
    obtain ⟨j, y⟩ := e
    obtain ⟨h1, h2, h3⟩ := Tab.wf_cons.mp h
    simp only [Tab.keep, List.filter_cons]
    split
    · exact Tab.wf_cons.mpr ⟨h1, fun e he => h2 e (List.mem_filter.mp he).1, ih h3⟩
    · exact ih h3

theorem Tab.get_del_self {t : Tab α} (k : Nat) (h : Tab.wf d t = true) : Tab.get (Tab.del t k) k = none := by
  induction t with
  | nil => rfl
  | cons e t ih =>
    obtain ⟨j, y⟩ := e
    obtain ⟨-, h2, h3⟩ := Tab.wf_cons.mp h
    unfold Tab.del
    split
    · next hj => subst hj; exact Tab.get_none h2
    · next hj => simp [Tab.get, hj, ih h3]

/-- A read after a store to the same key gives the value stored. -/
theorem Tab.get_put_self {t : Tab α} (k : Nat) (x : α) (h : Tab.wf d t = true) :
    (Tab.get (Tab.put t k x (d k)) k).getD (d k) = x := by
  unfold Tab.put
  split
  · next hx => rw [Tab.get_del_self k h, hx]; rfl
  · rw [Tab.get_ins_self]; rfl

/-- A store leaves every other key alone. -/
theorem Tab.get_put_of_ne (t : Tab α) {k j : Nat} (x y : α) (h : j ≠ k) : Tab.get (Tab.put t k x y) j = Tab.get t j := by
  unfold Tab.put
  split
  · exact Tab.get_del_of_ne t h
  · exact Tab.get_ins_of_ne t x h

/-! ### Byte memory -/

theorem memPut_wf {m : List Host.Cell} (a : Nat) (b : Byte) (h : Memory.wf m = true) : Memory.wf (memPut m a b) = true :=
  Tab.wf_put (d := fun _ => memDefault) a b h

theorem memSet_wf {m : List Host.Cell} (a n v : Nat) (h : Memory.wf m = true) : Memory.wf (memSet m a n v) = true := by
  unfold memSet
  generalize List.range n = l
  induction l generalizing m with
  | nil => exact h
  | cons i t ih => exact ih (memPut_wf _ _ h)

theorem memStore_wf {m : List Host.Cell} (a : Nat) (l : List Nat) (h : Memory.wf m = true) :
    Memory.wf (memStore m a l) = true := by
  induction l generalizing m a with
  | nil => exact h
  | cons b t ih => exact ih _ (memPut_wf _ _ h)

theorem memGet_memPut_self {m : List Host.Cell} (a : Nat) (b : Byte) (h : Memory.wf m = true) :
    memGet (memPut m a b) a = b := Tab.get_put_self (d := fun _ => memDefault) a b h

theorem memGet_memPut_of_ne (m : List Host.Cell) {a k : Nat} (b : Byte) (h : k ≠ a) :
    memGet (memPut m a b) k = memGet m k := by
  unfold memGet memPut; rw [Tab.get_put_of_ne _ _ _ h]

/-- A store of `n` bytes leaves every byte outside them alone. -/
theorem memGet_memSet_outside (m : List Host.Cell) {a n k : Nat} (v : Nat) (h : k < a ∨ a + n ≤ k) :
    memGet (memSet m a n v) k = memGet m k := by
  have key : ∀ (l : List Nat) (m : List Host.Cell), (∀ i ∈ l, i < n) →
      memGet (l.foldl (fun m i => memPut m (a + i) (BitVec.ofNat 8 (v / 2 ^ (8 * i)))) m) k = memGet m k := by
    intro l
    induction l with
    | nil => intros; rfl
    | cons i t ih =>
      intro m hl
      have hi := hl i (.head _)
      rw [List.foldl_cons, ih _ fun j hj => hl j (.tail _ hj), memGet_memPut_of_ne _ _ (by omega)]
  exact key _ m fun i hi => List.mem_range.mp hi

end Sys2Proof.Machine
end

