-- ==== Sys2Proof/Laws/Regs.lean ====
section
/-! SUPPORT. What a register and a field read as after a store. -/

namespace Sys2Proof.Machine

/-! ### Words -/

theorem fmask_getLsbD {hi lo : Nat} (h : hi < 32) (k : Nat) :
    (fmask hi lo).getLsbD k = decide (lo ≤ k ∧ k ≤ hi) := by
  unfold fmask
  rw [BitVec.getLsbD_ofNat, Nat.testBit_shiftLeft, Nat.testBit_two_pow_sub_one]
  by_cases h1 : lo ≤ k <;> by_cases h2 : k ≤ hi <;> simp [h1, h2] <;> omega

theorem bitsOf_testBit (w : Word) (hi lo k : Nat) :
    (bitsOf w hi lo).testBit k = (decide (k < hi + 1 - lo) && w.getLsbD (lo + k)) := by
  unfold bitsOf
  rw [Nat.testBit_mod_two_pow, Nat.testBit_shiftRight]; rfl

theorem setBits_getLsbD {hi lo : Nat} (h : hi < 32) (w : Word) (n k : Nat) :
    (setBits w hi lo n).getLsbD k = if lo ≤ k ∧ k ≤ hi then n.testBit (k - lo) else w.getLsbD k := by
  unfold setBits
  rw [BitVec.getLsbD_or, BitVec.getLsbD_and, BitVec.getLsbD_not, fmask_getLsbD h, BitVec.getLsbD_ofNat,
    Nat.testBit_shiftLeft, Nat.testBit_mod_two_pow]
  by_cases hk : k < 32
  · by_cases h1 : lo ≤ k <;> by_cases h2 : k ≤ hi <;> simp [h1, h2, hk] <;> omega
  · have : ¬ (lo ≤ k ∧ k ≤ hi) := by omega
    simp [this, hk, BitVec.getLsbD_of_ge _ _ (Nat.le_of_not_lt hk)]

/-- A field that was set reads as the number taken to its width. -/
theorem bitsOf_setBits_self {hi lo : Nat} (hh : hi < 32) (w : Word) (n : Nat) :
    bitsOf (setBits w hi lo n) hi lo = n % 2 ^ (hi + 1 - lo) := by
  apply Nat.eq_of_testBit_eq; intro k
  rw [bitsOf_testBit, setBits_getLsbD hh, Nat.testBit_mod_two_pow]
  by_cases hk : k < hi + 1 - lo
  · rw [if_pos (by omega)]; simp
  · simp [hk]

/-- Bits outside a field that was set stand. -/
theorem bitsOf_setBits_of_disjoint {hi lo hi' lo' : Nat} (hh : hi < 32) (w : Word) (n : Nat) (hd : hi' < lo ∨ hi < lo') :
    bitsOf (setBits w hi lo n) hi' lo' = bitsOf w hi' lo' := by
  apply Nat.eq_of_testBit_eq; intro k
  rw [bitsOf_testBit, bitsOf_testBit, setBits_getLsbD hh]
  by_cases hk : k < hi' + 1 - lo'
  · rw [if_neg (by omega)]
  · simp [hk]

/-! ### Registers -/

theorem Dev.raw_put_self {d : Dev} (a : Nat) (v : Word) (h : RegsCanon d) : (d.put a v).raw a = v :=
  Tab.get_put_self (d := resetWord) a v h

@[simp] theorem Dev.raw_put_of_ne (d : Dev) {a b : Nat} (v : Word) (h : b ≠ a) : (d.put a v).raw b = d.raw b := by
  unfold Dev.raw Dev.put; simp only; rw [Tab.get_put_of_ne _ _ _ h]

theorem RegsCanon.put {d : Dev} (a : Nat) (v : Word) (h : RegsCanon d) : RegsCanon (d.put a v) := Tab.wf_put a v h

theorem RegsCanon.setF {d : Dev} (p : Nat) (f : Fld) (n : Nat) (h : RegsCanon d) : RegsCanon (d.setF p f n) := Tab.wf_put _ _ h

theorem RegsCanon.setReg {d : Dev} (p : Nat) (f : Fld) (v : Word) (h : RegsCanon d) : RegsCanon (d.setReg p f v) :=
  Tab.wf_put _ _ h

theorem Dev.fld_setF_self {d : Dev} (p : Nat) {f : Fld} (n : Nat) (hf : f.hi < 32) (h : RegsCanon d) :
    (d.setF p f n).fld p f = n % 2 ^ (f.hi + 1 - f.lo) := by
  unfold Dev.fld Dev.setF; rw [Dev.raw_put_self _ _ h, bitsOf_setBits_self hf]

theorem Dev.fld_setF_off (d : Dev) {p q : Nat} {f g : Fld} (n : Nat) (h : q + g.off ≠ p + f.off) :
    (d.setF p f n).fld q g = d.fld q g := by
  unfold Dev.fld Dev.setF; rw [Dev.raw_put_of_ne _ _ h]

theorem Dev.fld_setF_bits {d : Dev} (p : Nat) {f g : Fld} (n : Nat) (hf : f.hi < 32) (ho : g.off = f.off)
    (hd : g.hi < f.lo ∨ f.hi < g.lo) (h : RegsCanon d) : (d.setF p f n).fld p g = d.fld p g := by
  unfold Dev.fld Dev.setF; rw [ho, Dev.raw_put_self _ _ h, bitsOf_setBits_of_disjoint hf _ _ hd]

end Sys2Proof.Machine
end

