-- ==== Sys2Proof/Laws/KeepsBase.lean ====
section
/-! SUPPORT. What every operation keeps: a property of the device that stores to registers and snapshots keep, and that
rests on nothing else but frame memory, the image store and elapsed time, is kept by every operation that stores to neither
memory; `KeepsMem` and `KeepsSto` take in the operations that do. One lemma per operation, `<operation>_keeps`, says so. -/

namespace Sys2Proof.Machine

open Sys2Proof

/-- A property of the device that every operation keeps that stores neither to frame memory nor to the image store. -/
structure Keeps (P : Dev → Prop) : Prop where
  put : ∀ {d : Dev} (a : Nat) (v : Word), P d → P (d.put a v)
  shot : ∀ {d : Dev} (k : Nat) (v : Word), P d → P { d with snaps := Tab.put d.snaps k v 0 }
  keep : ∀ {d : Dev} (f g : Nat → Bool), P d → P { d with regs := Tab.keep d.regs f, snaps := Tab.keep d.snaps g }
  rest : ∀ {d e : Dev}, P d → e.regs = d.regs → e.snaps = d.snaps → e.cw.mem = d.cw.mem → e.sto.bytes = d.sto.bytes →
    d.mono ≤ e.mono → P e

/-- Operations that store to frame memory keep it too. -/
structure KeepsMem (P : Dev → Prop) : Prop extends Keeps P where
  mem : ∀ {d : Dev} (m : List Host.Cell), P d → (Memory.wf d.cw.mem = true → Memory.wf m = true) →
    P { d with cw := { d.cw with mem := m } }

/-- Operations that store to the image store keep it too. -/
structure KeepsSto (P : Dev → Prop) : Prop extends Keeps P where
  bytes : ∀ {d : Dev} (m : List Host.Cell), P d → (Memory.wf d.sto.bytes = true → Memory.wf m = true) →
    P { d with sto := { d.sto with bytes := m } }

variable {P : Dev → Prop}

/-- An update of fields the property does not rest on. -/
theorem Keeps.upd (kp : Keeps P) {d : Dev} (h : P d) {lockSeq now frac nq out fresh mst an ti tm md ln fab ld sec pn pw fw hs bz} :
    P ⟨d.regs, d.snaps, lockSeq, now, frac, d.mono, nq, out, fresh, mst, an, ti, d.cw, tm, md, ln, fab, ld, d.sto, sec, pn,
      pw, fw, hs, bz⟩ := kp.rest h rfl rfl rfl rfl (Nat.le_refl _)

/-- An update of the causeway that leaves frame memory as it stands. -/
theorem Keeps.updCw (kp : Keeps P) {d : Dev} (h : P d) {lockSeq now frac nq out fresh mst an ti tm md ln fab ld sto sec pn pw fw hs bz}
    {route flight fmp reps rows used bad mem pois rowCe ceAt rowWait} (e1 : mem = d.cw.mem) (e2 : sto = d.sto) :
    P ⟨d.regs, d.snaps, lockSeq, now, frac, d.mono, nq, out, fresh, mst, an, ti,
      ⟨route, flight, fmp, reps, rows, used, bad, mem, pois, rowCe, ceAt, rowWait⟩, tm, md, ln, fab, ld, sto, sec, pn, pw, fw, hs, bz⟩ := by
  subst e1 e2; exact kp.rest h rfl rfl rfl rfl (Nat.le_refl _)

/-- An update of the store that leaves its bytes as they stand. -/
theorem Keeps.updSto (kp : Keeps P) {d : Dev} (h : P d) {lockSeq now frac nq out fresh mst an ti cw tm md ln fab ld sec pn pw fw hs bz}
    {bytes wear job shipped} (e1 : bytes = d.sto.bytes) (e2 : cw = d.cw) :
    P ⟨d.regs, d.snaps, lockSeq, now, frac, d.mono, nq, out, fresh, mst, an, ti, cw, tm, md, ln, fab, ld,
      ⟨bytes, wear, job, shipped⟩, sec, pn, pw, fw, hs, bz⟩ := by
  subst e1 e2; exact kp.rest h rfl rfl rfl rfl (Nat.le_refl _)

/-- A store to frame memory that keeps its form. -/
theorem KeepsMem.updMem (km : KeepsMem P) {d : Dev} (h : P d)
    {lockSeq now frac nq out fresh mst an ti tm md ln fab ld sec pn pw fw hs bz}
    {route flight fmp reps rows used bad mem pois rowCe ceAt rowWait} (hm : Memory.wf d.cw.mem = true → Memory.wf mem = true) :
    P ⟨d.regs, d.snaps, lockSeq, now, frac, d.mono, nq, out, fresh, mst, an, ti,
      ⟨route, flight, fmp, reps, rows, used, bad, mem, pois, rowCe, ceAt, rowWait⟩, tm, md, ln, fab, ld, d.sto, sec, pn, pw, fw, hs, bz⟩ :=
  km.rest (km.mem mem h hm) rfl rfl rfl rfl (Nat.le_refl _)

/-- A store to the image store that keeps its form. -/
theorem KeepsSto.updBytes (ks : KeepsSto P) {d : Dev} (h : P d)
    {lockSeq now frac nq out fresh mst an ti tm md ln fab ld sec pn pw fw hs bz}
    {bytes wear job shipped} (hm : Memory.wf d.sto.bytes = true → Memory.wf bytes = true) :
    P ⟨d.regs, d.snaps, lockSeq, now, frac, d.mono, nq, out, fresh, mst, an, ti, d.cw, tm, md, ln, fab, ld,
      ⟨bytes, wear, job, shipped⟩, sec, pn, pw, fw, hs, bz⟩ :=
  ks.rest (ks.bytes bytes h hm) rfl rfl rfl rfl (Nat.le_refl _)

/-! ### Branches, folds and pairs -/

theorem Keeps.ite (_ : Keeps P) {c : Prop} [Decidable c] {a b : Dev} (ha : c → P a) (hb : ¬ c → P b) : P (if c then a else b) := by
  split
  · exact ha ‹_›
  · exact hb ‹_›

theorem Keeps.dite (_ : Keeps P) {c : Prop} [Decidable c] {a : c → Dev} {b : ¬ c → Dev} (ha : ∀ h, P (a h)) (hb : ∀ h, P (b h)) :
    P (if h : c then a h else b h) := by
  split
  · exact ha ‹_›
  · exact hb ‹_›

theorem Keeps.ite_fst (_ : Keeps P) {α : Type} {c : Prop} [Decidable c] {a b : Dev × α} (ha : c → P a.1) (hb : ¬ c → P b.1) :
    P (if c then a else b).1 := by
  split
  · exact ha ‹_›
  · exact hb ‹_›

theorem Keeps.ite_snd (_ : Keeps P) {α : Type} {c : Prop} [Decidable c] {a b : α × Dev} (ha : c → P a.2) (hb : ¬ c → P b.2) :
    P (if c then a else b).2 := by
  split
  · exact ha ‹_›
  · exact hb ‹_›

theorem Keeps.getD (_ : Keeps P) {o : Option Dev} {d : Dev} (ho : ∀ e, o = some e → P e) (h : P d) : P (o.getD d) := by
  cases o with
  | none => exact h
  | some e => exact ho e rfl

theorem Keeps.fst_eq (_ : Keeps P) {α : Type} {p q : Dev × α} (h : P q.1) (e : p = q) : P p.1 := e ▸ h

theorem Keeps.of_fst (_ : Keeps P) {α : Type} {p : Dev × α} {a : Dev} {b : α} (h : P p.1) (e : p = (a, b)) : P a := by
  subst e; exact h

theorem Keeps.foldl (_ : Keeps P) {α : Type} {f : Dev → α → Dev} {l : List α} {d : Dev} (h : P d)
    (hf : ∀ x a, P x → P (f x a)) : P (l.foldl f d) := by
  induction l generalizing d with
  | nil => exact h
  | cons a t ih => exact ih (hf d a h)

theorem Keeps.foldl_fst (_ : Keeps P) {α β : Type} {f : Dev × β → α → Dev × β} {l : List α} {d : Dev × β} (h : P d.1)
    (hf : ∀ x a, P x.1 → P (f x a).1) : P (l.foldl f d).1 := by
  induction l generalizing d with
  | nil => exact h
  | cons a t ih => exact ih (hf d a h)

/-! ### Properties that are kept -/

/-- Registers, snapshots and both memories stay in canonical form. -/
theorem keeps_canon : KeepsMem Canon ∧ KeepsSto Canon := by
  have k : Keeps Canon := {
    put := fun _ _ h => ⟨RegsCanon.put _ _ h.1, h.2⟩
    shot := fun _ _ h => ⟨h.1, Tab.wf_put (d := fun _ => (0 : Word)) _ _ h.2.1, h.2.2⟩
    keep := fun _ _ h => ⟨Tab.wf_keep (d := resetWord) _ h.1, Tab.wf_keep (d := fun _ => (0 : Word)) _ h.2.1, h.2.2⟩
    rest := fun h hr hs hm hb _ => by
      unfold Canon RegsCanon SnapsCanon FrameMemCanon StoreCanon; rw [hr, hs, hm, hb]; exact h }
  exact ⟨⟨k, fun _ h hm => ⟨h.1, h.2.1, hm h.2.2.1, h.2.2.2⟩⟩, ⟨k, fun _ h hm => ⟨h.1, h.2.1, h.2.2.1, hm h.2.2.2⟩⟩⟩

/-- Frame memory is as it was, where only the image store is stored to. -/
theorem keeps_frameMem (m : List Host.Cell) : KeepsSto fun d => d.cw.mem = m :=
  { put := fun _ _ h => h, shot := fun _ _ h => h, keep := fun _ _ h => h, rest := fun h _ _ hm _ _ => hm.trans h,
    bytes := fun _ h _ => h }

/-- The image store is as it was, where only frame memory is stored to. -/
theorem keeps_store (m : List Host.Cell) : KeepsMem fun d => d.sto.bytes = m :=
  { put := fun _ _ h => h, shot := fun _ _ h => h, keep := fun _ _ h => h, rest := fun h _ _ _ hb _ => hb.trans h,
    mem := fun _ h _ => h }

/-- Elapsed time has reached `t`. -/
theorem keeps_mono (t : Nat) : KeepsMem (fun d => t ≤ d.mono) ∧ KeepsSto (fun d => t ≤ d.mono) := by
  have k : Keeps fun d => t ≤ d.mono :=
    { put := fun _ _ h => h, shot := fun _ _ h => h, keep := fun _ _ h => h, rest := fun h _ _ _ _ hm => Nat.le_trans h hm }
  exact ⟨⟨k, fun _ h _ => h⟩, ⟨k, fun _ h _ => h⟩⟩

/-! ### The shared operations -/

theorem Dev.put_keeps (kp : Keeps P) {d : Dev} (h : P d) {a : Nat} {v : Word} : P (d.put a v) := kp.put a v h

theorem Dev.snap_keeps (kp : Keeps P) {d : Dev} (h : P d) {c : Cls} {p : Nat} {src : Source} : P (d.snap c p src) :=
  kp.foldl h fun _ _ hx => kp.shot _ _ hx

theorem Dev.resetPage_keeps (kp : Keeps P) {d : Dev} (h : P d) {p : Nat} {keep : Nat → Bool} : P (d.resetPage p keep) :=
  kp.rest (kp.keep (fun a => !(decide (p ≤ a ∧ a < p + 0x1000) && !(survivesBlock a) && !(keep (a % 0x1000))))
    (fun k => !(decide (p ≤ k % 2 ^ 28 ∧ k % 2 ^ 28 < p + 0x1000))) h) rfl rfl rfl rfl (Nat.le_refl _)

theorem Dev.fmPut_keeps (kp : KeepsMem P) {d : Dev} (h : P d) {a v : Nat} : P (d.fmPut a v) :=
  kp.mem _ h fun h => memSet_wf _ _ _ h

theorem Dev.fmLost_keeps (kp : KeepsMem P) {d : Dev} (h : P d) : P d.fmLost := kp.updMem h fun _ => rfl

theorem Dev.reach_keeps (kp : Keeps P) {d : Dev} (h : P d) {t : Nat} : P (d.reach t) := by
  unfold Dev.reach
  split
  · exact kp.rest h rfl rfl rfl rfl (Nat.le_add_right _ _)
  · exact h

theorem Dev.pass_keeps (kp : Keeps P) {d : Dev} (h : P d) {n : Nat} : P (d.pass n) :=
  kp.rest h rfl rfl rfl rfl (Nat.le_add_right _ _)

theorem Dev.setReg_keeps (kp : Keeps P) {d : Dev} (hd : P d) {p : Nat} {f : Fld} {v : Word} : P (Dev.setReg d p f v) := by
  unfold Dev.setReg
  with_reducible exact Dev.put_keeps kp hd

theorem Dev.bumpReg_keeps (kp : Keeps P) {d : Dev} (hd : P d) {a n : Nat} : P (Dev.bumpReg d a n).1 := by
  unfold Dev.bumpReg
  lift_lets
  intro r
  with_reducible exact Dev.put_keeps kp hd

theorem Dev.setQueue_keeps (kp : Keeps P) {d : Dev} (hd : P d) {q : Nat} {v : NQueue} : P (Dev.setQueue d q v) := by
  unfold Dev.setQueue
  with_reducible exact kp.upd hd

theorem Dev.emitTo_keeps (kp : Keeps P) {d : Dev} (hd : P d) {code sev q page : Nat} {w4 w5 w6 w7 : Word} : P (Dev.emitTo
    d code sev q page w4 w5 w6 w7).1 := by
  unfold Dev.emitTo
  lift_lets
  intro ntc seq n d1 e1 dest qs h b since d2 e2 e3
  with_reducible have hd1 : P d1 := Dev.setReg_keeps kp hd
  with_reducible have he1 : P e1.1 := kp.ite_fst (fun _ => (Dev.bumpReg_keeps kp hd1)) fun _ => hd1
  with_reducible have hd2 : P d2 := Dev.setQueue_keeps kp he1
  with_reducible have he2 : P e2.1 := kp.ite_fst (fun _ => hd2) fun _ => (Dev.bumpReg_keeps kp hd2)
  with_reducible have he3 : P e3.1 := kp.ite_fst (fun _ => he2) fun _ => (Dev.bumpReg_keeps kp he2)
  with_reducible exact he3

theorem Dev.emit_keeps (kp : Keeps P) {d : Dev} (hd : P d) {code sev q page : Nat} {w4 w5 w6 w7 : Word} : P (Dev.emit d
    code sev q page w4 w5 w6 w7).1 := by
  unfold Dev.emit
  with_reducible exact kp.ite_fst (fun _ => hd) fun _ => (Dev.emitTo_keeps kp hd)

theorem Dev.raiseRaw_keeps (kp : Keeps P) {d : Dev} (hd : P d) {p bit code sev : Nat} {w4 w5 w6 w7 : Word} : P
    (Dev.raiseRaw d p bit code sev w4 w5 w6 w7).1 := by
  unfold Dev.raiseRaw
  lift_lets
  intro always en sel d1 q
  with_reducible have hd1 : P d1 := Dev.setReg_keeps kp hd
  with_reducible exact kp.ite_fst (fun _ => (kp.ite_fst (fun _ => (Dev.emit_keeps kp hd1)) fun _ => hd1)) fun _ => hd

theorem Dev.raiseCode_keeps (kp : Keeps P) {d : Dev} (hd : P d) {p bit code sev : Nat} {w4 w5 w6 w7 : Word} : P
    (Dev.raiseCode d p bit code sev w4 w5 w6 w7) := by
  unfold Dev.raiseCode
  lift_lets
  intro r
  with_reducible have hr : P r.1 := kp.fst_eq (Dev.raiseRaw_keeps kp hd) rfl
  with_reducible exact kp.foldl hr (fun _ _ k2 => (Dev.raiseRaw_keeps kp k2))

theorem Dev.raiseSev_keeps (kp : Keeps P) {d : Dev} (hd : P d) {p : Nat} {e : Evt} {sev : Nat} {w4 w5 w6 w7 : Word} : P
    (Dev.raiseSev d p e sev w4 w5 w6 w7) := by
  unfold Dev.raiseSev
  with_reducible exact Dev.raiseCode_keeps kp hd

theorem Dev.raise_keeps (kp : Keeps P) {d : Dev} (hd : P d) {p : Nat} {e : Evt} {w4 w5 w6 w7 : optParam Word 0} : P
    (Dev.raise d p e w4 w5 w6 w7) := by
  unfold Dev.raise
  with_reducible exact Dev.raiseSev_keeps kp hd

theorem Dev.count_keeps (kp : Keeps P) {d : Dev} (hd : P d) {p : Nat} {f : Fld} {n : optParam Nat 1} : P (Dev.count d p f
    n) := by
  unfold Dev.count
  lift_lets
  intro r
  with_reducible have hr : P r.1 := kp.fst_eq (Dev.bumpReg_keeps kp hd) rfl
  with_reducible exact kp.ite (fun _ => (Dev.raiseCode_keeps kp hr)) fun _ => hr

theorem Dev.setF_keeps (kp : Keeps P) {d : Dev} (hd : P d) {p : Nat} {f : Fld} {n : Nat} : P (Dev.setF d p f n) := by
  unfold Dev.setF
  with_reducible exact Dev.put_keeps kp hd

theorem Dev.setFlag_keeps (kp : Keeps P) {d : Dev} (hd : P d) {p : Nat} {f : Fld} {b : Bool} : P (Dev.setFlag d p f b) :=
    by
  unfold Dev.setFlag
  with_reducible exact Dev.setF_keeps kp hd

theorem Dev.setBind_keeps (kp : Keeps P) {d : Dev} (hd : P d) {p : Nat} {b : Bind} : P (Dev.setBind d p b) := by
  unfold Dev.setBind
  lift_lets
  intro src
  with_reducible exact kp.upd hd

theorem Dev.setSlot_keeps (kp : Keeps P) {d : Dev} (hd : P d) {m : Nat} {s : Slot} : P (Dev.setSlot d m s) := by
  unfold Dev.setSlot
  lift_lets
  intro src
  with_reducible exact kp.upd hd

theorem Dev.setSt_keeps (kp : Keeps P) {d : Dev} (hd : P d) {p n : Nat} : P (Dev.setSt d p n) := by
  unfold Dev.setSt
  with_reducible exact Dev.setF_keeps kp hd

theorem Dev.count64_keeps (kp : Keeps P) {d : Dev} (hd : P d) {p : Nat} {f : Fld} {n : optParam Nat 1} : P (Dev.count64 d
    p f n) := by
  unfold Dev.count64
  lift_lets
  intro lo hi v
  with_reducible exact kp.ite (fun _ => hd) fun _ => (kp.ite (fun _ => (Dev.raiseCode_keeps kp (Dev.put_keeps kp
                   (Dev.put_keeps kp hd)))) fun _ => (Dev.put_keeps kp (Dev.put_keeps kp hd)))

theorem Dev.send_keeps (kp : Keeps P) {d : Dev} (hd : P d) {m : OutMsg} : P (Dev.send d m) := by
  unfold Dev.send
  with_reducible exact kp.upd hd

theorem Dev.snapClr_keeps (kp : Keeps P) {d : Dev} (hd : P d) {c : Cls} {p : Nat} {src : Source} : P (Dev.snapClr d c p
    src) := by
  unfold Dev.snapClr
  with_reducible exact kp.foldl (Dev.snap_keeps kp hd) (fun _ _ k1 => (Dev.put_keeps kp k1))

theorem Dev.raiseAt_keeps (kp : Keeps P) {d : Dev} (hd : P d) {p : Nat} {e : Evt} {t : Nat} {w4 : optParam Word 0} : P
    (Dev.raiseAt d p e t w4) := by
  unfold Dev.raiseAt
  with_reducible exact Dev.raise_keeps kp hd

theorem Dev.takeFresh_keeps (kp : Keeps P) {d : Dev} (hd : P d) : P (Dev.takeFresh d).2 := by
  unfold Dev.takeFresh
  with_reducible exact kp.upd hd

theorem Dev.countFree_keeps (kp : Keeps P) {d : Dev} (hd : P d) {p : Nat} {f epoch : Fld} {n : optParam Nat 1} : P
    (Dev.countFree d p f epoch n) := by
  unfold Dev.countFree
  lift_lets
  intro v d1
  with_reducible have hd1 : P d1 := Dev.put_keeps kp hd
  with_reducible exact kp.ite (fun _ => hd1) fun _ => (Dev.count_keeps kp hd1)

end Sys2Proof.Machine
end

