-- ==== Sys2Proof/Laws/KeepsPorts.lean ====
section
/-! SUPPORT. What every operation keeps: slots, slices and ports. -/

namespace Sys2Proof.Machine

open Sys2Proof

variable {P : Dev → Prop}

theorem Dev.setAtRegs_keeps (kp : Keeps P) {d : Dev} (hd : P d) {m t : Nat} : P (Dev.setAtRegs d m t) := by
  unfold Dev.setAtRegs
  lift_lets
  intro src d1
  with_reducible have hd1 : P d1 := Dev.setSlot_keeps kp hd
  with_reducible exact Dev.setReg_keeps kp (Dev.setReg_keeps kp (Dev.setReg_keeps kp hd1))

theorem Dev.slotEvent_keeps (kp : Keeps P) {d : Dev} (hd : P d) {m : Nat} {e : Evt} {w7 : Word} : P (Dev.slotEvent d
    m e w7) := by
  unfold Dev.slotEvent
  with_reducible exact kp.ite (fun _ => hd) fun _ => Dev.raise_keeps kp hd

theorem Dev.unbindAll_keeps (kp : Keeps P) {d : Dev} (hd : P d) {m : Nat} : P (Dev.unbindAll d m) := by
  unfold Dev.unbindAll
  lift_lets
  intro s d1 src
  with_reducible have hd1 : P d1 := kp.foldl hd (fun _ _ k2 => Dev.setBind_keeps kp k2)
  with_reducible exact Dev.setSlot_keeps kp hd1

theorem Dev.slotTo_keeps (kp : Keeps P) {d : Dev} (hd : P d) {m : Nat} {st : SlotState} : P (Dev.slotTo d m st) := by
  unfold Dev.slotTo
  lift_lets
  intro src
  with_reducible exact Dev.setSlot_keeps kp hd

theorem Dev.raiseOn_keeps (kp : Keeps P) {d : Dev} (hd : P d) {pages : List Nat} {f : Dev → Nat → Dev} (hf : ∀ y0 y1,
    P y0 → P (f y0 y1)) : P (Dev.raiseOn d pages f) := by
  unfold Dev.raiseOn
  with_reducible exact kp.foldl hd (fun _ _ k2 => hf _ _ k2)

theorem Dev.raiseMiss_keeps (kp : Keeps P) {d : Dev} (hd : P d) {p : Nat} : P (Dev.raiseMiss d p) := by
  unfold Dev.raiseMiss
  with_reducible exact Dev.raiseCode_keeps kp hd

theorem Dev.raiseApplied_keeps (kp : Keeps P) {d : Dev} (hd : P d) {p : Nat} : P (Dev.raiseApplied d p) := by
  unfold Dev.raiseApplied
  with_reducible exact Dev.raiseCode_keeps kp hd

theorem Dev.setCheckRes_keeps (kp : Keeps P) {d : Dev} (hd : P d) {p res cnt first : Nat} : P (Dev.setCheckRes d p
    res cnt first) := by
  unfold Dev.setCheckRes
  with_reducible exact Dev.setReg_keeps kp hd

theorem Dev.dropChecks_keeps (kp : Keeps P) {d : Dev} (hd : P d) {m : Nat} : P (Dev.dropChecks d m) := by
  unfold Dev.dropChecks
  lift_lets
  intro run src d1
  with_reducible have hd1 : P d1 := kp.upd hd
  with_reducible exact kp.ite (fun _ => (Dev.setF_keeps kp hd1)) fun _ => hd1

theorem Dev.slotIdle_keeps (kp : Keeps P) {d : Dev} (hd : P d) {m : Nat} : P (Dev.slotIdle d m) := by
  unfold Dev.slotIdle
  lift_lets
  intro d1 src
  with_reducible have hd1 : P d1 := Dev.dropChecks_keeps kp (Dev.unbindAll_keeps kp (Dev.slotTo_keeps kp hd))
  with_reducible exact Dev.setSlot_keeps kp hd1

theorem Dev.bindPages_keeps (kp : Keeps P) {d : Dev} (hd : P d) {m : Nat} {pages : List Nat} : P (Dev.bindPages d m
    pages) := by
  unfold Dev.bindPages
  lift_lets
  intro d1 s
  with_reducible have hd1 : P d1 := kp.foldl hd (fun _ _ k2 => Dev.setBind_keeps kp k2)
  with_reducible exact Dev.setSlot_keeps kp hd1

theorem Dev.svcArm_keeps (kp : Keeps P) {d : Dev} (hd : P d) {m : Nat} {job : Job} {pages : List Nat} {instant : Nat}
    : P (Dev.svcArm d m job pages instant) := by
  unfold Dev.svcArm
  lift_lets
  intro d1 d2 d3 src
  with_reducible have hd1 : P d1 := Dev.setSlot_keeps kp hd
  with_reducible have hd2 : P d2 := Dev.setAtRegs_keeps kp (Dev.setF_keeps kp hd1)
  with_reducible have hd3 : P d3 := Dev.bindPages_keeps kp hd2
  with_reducible exact kp.upd hd3

theorem Dev.svcTake_keeps (kp : Keeps P) {d : Dev} (hd : P d) {job : Job} {pages : List Nat} {instant : Nat} : P
    (Dev.svcTake d job pages instant).1 := by
  unfold Dev.svcTake
  lift_lets
  intro src
  split
  · with_reducible exact kp.ite_fst (fun _ => (Dev.svcArm_keeps kp (kp.upd hd))) fun _ => kp.upd hd
  · with_reducible exact kp.upd hd

theorem Dev.svcBind_keeps (kp : Keeps P) {d : Dev} (hd : P d) {job : Job} {pages : List Nat} {instant : Nat} :
    ∀ e, d.svcBind job pages instant = some e → P e := by
  unfold Dev.svcBind; intro e he
  split at he
  · split at he
    · cases he; exact Dev.svcArm_keeps kp (kp.upd hd)
    · cases he
  · cases he

theorem Dev.svcWait_keeps (kp : Keeps P) {d : Dev} (hd : P d) {job : Job} : P (Dev.svcWait d job) := by
  unfold Dev.svcWait
  lift_lets
  intro src
  with_reducible exact kp.upd hd

theorem Dev.unwait_keeps (kp : Keeps P) {d : Dev} (hd : P d) {job : Job} : P (Dev.unwait d job) := by
  unfold Dev.unwait
  lift_lets
  intro src
  with_reducible exact kp.upd hd

theorem Dev.jobLeave_keeps (kp : Keeps P) {d : Dev} (hd : P d) {job : Job} : P (Dev.jobLeave d job) := by
  unfold Dev.jobLeave
  split
  · lift_lets
    intro src
    with_reducible exact Dev.setSlot_keeps kp hd
  · with_reducible exact hd

theorem Dev.jobCancel_keeps (kp : Keeps P) {d : Dev} (hd : P d) {job : Job} : P (Dev.jobCancel d job) := by
  unfold Dev.jobCancel
  split
  · lift_lets
    intro src
    with_reducible exact kp.ite (fun _ => (Dev.setSlot_keeps kp hd)) fun _ => Dev.slotIdle_keeps kp (Dev.count_keeps
                     kp hd)
  · with_reducible exact hd

theorem Dev.refreshHealth_keeps (kp : Keeps P) {d : Dev} (hd : P d) : P (Dev.refreshHealth d) := by
  unfold Dev.refreshHealth
  lift_lets
  intro p grp treg fm pairs lanes level old d1
  with_reducible have hd1 : P d1 := Dev.setReg_keeps kp hd
  with_reducible exact kp.ite (fun _ => hd1) fun _ => Dev.raiseSev_keeps kp hd1

theorem Dev.raiseH_keeps (kp : Keeps P) {d : Dev} (hd : P d) {p : Nat} {e : Evt} {w4 w5 w6 w7 : optParam Word 0} : P
    (Dev.raiseH d p e w4 w5 w6 w7) := by
  unfold Dev.raiseH
  with_reducible exact Dev.refreshHealth_keeps kp (Dev.raise_keeps kp hd)

theorem Dev.audioReady_keeps (kp : Keeps P) {d : Dev} (hd : P d) : P (Dev.audioReady d) := by
  unfold Dev.audioReady
  lift_lets
  intro p dieOk grpOk
  with_reducible exact kp.ite (fun _ => (Dev.raise_keeps kp (Dev.setFlag_keeps kp hd))) fun _ => hd

theorem Dev.setPort_keeps (kp : Keeps P) {d : Dev} (hd : P d) {i : Nat} {s : PortSt} : P (Dev.setPort d i s) := by
  unfold Dev.setPort
  lift_lets
  intro src
  with_reducible exact kp.upd hd

theorem Dev.setSlice_keeps (kp : Keeps P) {d : Dev} (hd : P d) {g s : Nat} {v : SliceSt} : P (Dev.setSlice d g s v)
    := by
  unfold Dev.setSlice
  lift_lets
  intro src
  with_reducible exact kp.upd hd

theorem Dev.setGroup_keeps (kp : Keeps P) {d : Dev} (hd : P d) {g : Nat} {v : GroupSt} : P (Dev.setGroup d g v) := by
  unfold Dev.setGroup
  lift_lets
  intro src
  with_reducible exact kp.upd hd

theorem Dev.setDie_keeps (kp : Keeps P) {d : Dev} (hd : P d) {k : Nat} {v : DieSt} : P (Dev.setDie d k v) := by
  unfold Dev.setDie
  lift_lets
  intro src
  with_reducible exact kp.upd hd

theorem Dev.setSl_keeps (kp : Keeps P) {d : Dev} (hd : P d) {g s st port : Nat} : P (Dev.setSl d g s st port) := by
  unfold Dev.setSl
  with_reducible exact Dev.setF_keeps kp (Dev.setF_keeps kp hd)

theorem Dev.refreshGroup_keeps (kp : Keeps P) {d : Dev} (hd : P d) {g : Nat} : P (Dev.refreshGroup d g) := by
  unfold Dev.refreshGroup
  lift_lets
  intro p healthy layby demand d1 none_ d2
  with_reducible have hd1 : P d1 := Dev.setF_keeps kp (Dev.setF_keeps kp (Dev.setF_keeps kp hd))
  with_reducible have hd2 : P d2 := Dev.setFlag_keeps kp hd1
  with_reducible exact kp.ite (fun _ => hd1) fun _ => Dev.refreshHealth_keeps kp (Dev.raise_keeps kp hd2)

theorem Dev.calStep_keeps (kp : Keeps P) {d : Dev} (hd : P d) {g s n : Nat} : P (Dev.calStep d g s n) := by
  unfold Dev.calStep
  lift_lets
  intro t src
  with_reducible exact Dev.setSlice_keeps kp (Dev.setF_keeps kp hd)

theorem Dev.calsDone_keeps (kp : Keeps P) {d : Dev} (hd : P d) : P (Dev.calsDone d) := by
  unfold Dev.calsDone
  lift_lets
  intro p
  with_reducible exact kp.ite (fun _ => (Dev.audioReady_keeps kp (Dev.setF_keeps kp hd))) fun _ => hd

theorem Dev.dieCalStart_keeps (kp : Keeps P) {d : Dev} (hd : P d) {k : Nat} : P (Dev.dieCalStart d k) := by
  unfold Dev.dieCalStart
  lift_lets
  intro p src d1
  with_reducible have hd1 : P d1 := Dev.setDie_keeps kp hd
  with_reducible exact kp.ite (fun _ => (Dev.calsDone_keeps kp (kp.foldl hd1 (fun _ _ k4 => by
      lift_lets
      intro g s src_1
      with_reducible exact kp.ite (fun _ => (Dev.calStep_keeps kp (Dev.setSlice_keeps kp (Dev.setSl_keeps kp k4))))
                       fun _ => k4)))) fun _ => hd

theorem Dev.dieCalLost_keeps (kp : Keeps P) {d : Dev} (hd : P d) {k : Nat} : P (Dev.dieCalLost d k) := by
  unfold Dev.dieCalLost
  with_reducible exact kp.foldl hd (fun _ _ k4 => by
      lift_lets
      intro g s src src_1
      with_reducible exact kp.ite (fun _ => (Dev.setDie_keeps kp (Dev.calStep_keeps kp (Dev.setSl_keeps kp
                       (Dev.setSlice_keeps kp k4))))) fun _ => k4)

theorem Dev.calStart_keeps (kp : Keeps P) {d : Dev} (hd : P d) {g s : Nat} : P (Dev.calStart d g s) := by
  unfold Dev.calStart
  with_reducible exact kp.ite (fun _ => (kp.ite (fun _ => (Dev.calStep_keeps kp hd)) fun _ => kp.ite (fun _ =>
                   (Dev.calStep_keeps kp hd)) fun _ => hd)) fun _ => kp.ite (fun _ => (kp.ite (fun _ =>
                   (Dev.calStep_keeps kp hd)) fun _ => Dev.calStep_keeps kp hd)) fun _ => hd

theorem Dev.calRestart_keeps (kp : Keeps P) {d : Dev} (hd : P d) {g : Nat} : P (Dev.calRestart d g) := by
  unfold Dev.calRestart
  with_reducible exact kp.foldl hd (fun _ _ k2 => Dev.calStart_keeps kp k2)

theorem Dev.suspectCount_keeps (kp : Keeps P) {d : Dev} (hd : P d) {g s code : Nat} : P (Dev.suspectCount d g s
    code).1 := by
  unfold Dev.suspectCount
  lift_lets
  intro p n d1
  with_reducible have hd1 : P d1 := Dev.count_keeps kp (Dev.setF_keeps kp hd)
  with_reducible exact Dev.raiseH_keeps kp hd1

theorem Dev.suspectPlace_keeps (kp : Keeps P) {d : Dev} (hd : P d) {g s : Nat} : P (Dev.suspectPlace d g s) := by
  unfold Dev.suspectPlace
  lift_lets
  intro src v
  with_reducible exact Dev.calsDone_keeps kp (kp.ite (fun _ => (Dev.calStep_keeps kp (Dev.setSlice_keeps kp
                   (Dev.setSl_keeps kp hd)))) fun _ => Dev.calStart_keeps kp (Dev.setSlice_keeps kp (Dev.setSl_keeps
                   kp hd)))

theorem Dev.suspect_keeps (kp : Keeps P) {d : Dev} (hd : P d) {g s code : Nat} : P (Dev.suspect d g s code) := by
  unfold Dev.suspect
  with_reducible exact Dev.suspectPlace_keeps kp (Dev.suspectCount_keeps kp hd)

theorem Dev.retire_keeps (kp : Keeps P) {d : Dev} (hd : P d) {g s code : Nat} : P (Dev.retire d g s code) := by
  unfold Dev.retire
  lift_lets
  intro p d1 src
  with_reducible have hd1 : P d1 := Dev.calStep_keeps kp (Dev.setSl_keeps kp (Dev.setF_keeps kp hd))
  with_reducible exact Dev.raiseH_keeps kp (Dev.setSlice_keeps kp hd1)

theorem Dev.toLayby_keeps (kp : Keeps P) {d : Dev} (hd : P d) {g s : Nat} : P (Dev.toLayby d g s) := by
  unfold Dev.toLayby
  lift_lets
  intro v
  with_reducible exact kp.ite (fun _ => (Dev.suspectPlace_keeps kp hd)) fun _ => Dev.calStart_keeps kp
                   (Dev.setSlice_keeps kp (Dev.setSl_keeps kp hd))

theorem Dev.toReady_keeps (kp : Keeps P) {d : Dev} (hd : P d) {g s : Nat} : P (Dev.toReady d g s) := by
  unfold Dev.toReady
  with_reducible exact Dev.calStep_keeps kp (Dev.setSl_keeps kp hd)

theorem Dev.connect_keeps (kp : Keeps P) {d : Dev} (hd : P d) {g s st port : Nat} : P (Dev.connect d g s st port) :=
    by
  unfold Dev.connect
  lift_lets
  intro d1 src
  with_reducible have hd1 : P d1 := Dev.calStep_keeps kp (Dev.setSl_keeps kp hd)
  with_reducible exact Dev.calsDone_keeps kp (Dev.setSlice_keeps kp hd1)

theorem Dev.hoNotice_keeps (kp : Keeps P) {d : Dev} (hd : P d) {g port kind outcome old : Nat} {new : Option Nat}
    {measure : Nat} : P (Dev.hoNotice d g port kind outcome old new measure) := by
  unfold Dev.hoNotice
  lift_lets
  intro p d1
  with_reducible have hd1 : P d1 := kp.ite (fun _ => (Dev.count_keeps kp hd)) fun _ => kp.ite (fun _ =>
                   (Dev.count_keeps kp hd)) fun _ => Dev.count_keeps kp hd
  with_reducible exact Dev.refreshHealth_keeps kp (Dev.raiseSev_keeps kp hd1)

theorem Dev.rotIdle_keeps (kp : Keeps P) {d : Dev} (hd : P d) {g : Nat} : P (Dev.rotIdle d g) := by
  unfold Dev.rotIdle
  lift_lets
  intro p d1 src
  with_reducible have hd1 : P d1 := Dev.setF_keeps kp (Dev.setF_keeps kp (Dev.setF_keeps kp (Dev.setF_keeps kp
                   (Dev.setF_keeps kp (Dev.setF_keeps kp (Dev.setF_keeps kp hd))))))
  with_reducible exact Dev.setGroup_keeps kp hd1

theorem Dev.cellSlice_keeps (kp : Keeps P) {d : Dev} (hd : P d) {i kind s : Nat} : P (Dev.cellSlice d i kind s) := by
  unfold Dev.cellSlice
  lift_lets
  intro q
  with_reducible exact kp.ite (fun _ => (kp.ite (fun _ => (Dev.setF_keeps kp hd)) fun _ => Dev.setF_keeps kp hd)) fun
                   _ => Dev.setF_keeps kp (Dev.setF_keeps kp hd)

theorem Dev.markNew_keeps (kp : Keeps P) {d : Dev} (hd : P d) {g : Nat} {r : Rot} : P (Dev.markNew d g r) := by
  unfold Dev.markNew
  lift_lets
  intro d1 src src_1
  with_reducible have hd1 : P d1 := Dev.suspectCount_keeps kp hd
  with_reducible exact kp.ite (fun _ => (Dev.setGroup_keeps kp (Dev.setSlice_keeps kp hd1))) fun _ => hd

theorem Dev.endRot_keeps (kp : Keeps P) {d : Dev} (hd : P d) {g outcome code : Nat} : P (Dev.endRot d g outcome code)
    := by
  unfold Dev.endRot
  split
  · with_reducible exact hd
  · lift_lets
    intro i d0 e d1 src d2 d3
    with_reducible have hd0 : P d0 := Dev.jobCancel_keeps kp hd
    with_reducible have he : P e := Dev.cellSlice_keeps kp (Dev.setSl_keeps kp hd0)
    with_reducible have hd1 : P d1 := kp.ite (fun _ => (Dev.cellSlice_keeps kp (Dev.toLayby_keeps kp (Dev.setSl_keeps
                     kp hd0)))) fun _ => kp.ite (fun _ => (Dev.suspect_keeps kp he)) fun _ => Dev.toReady_keeps kp he
    with_reducible have hd2 : P d2 := Dev.setF_keeps kp (Dev.setPort_keeps kp hd1)
    with_reducible have hd3 : P d3 := Dev.hoNotice_keeps kp (Dev.rotIdle_keeps kp hd2)
    with_reducible exact Dev.refreshGroup_keeps kp (kp.ite (fun _ => (Dev.markNew_keeps kp hd3)) fun _ => hd3)

theorem Dev.setRep_keeps (kp : Keeps P) {d : Dev} (hd : P d) {g : Nat} {r : Rep} : P (Dev.setRep d g r) := by
  unfold Dev.setRep
  lift_lets
  intro src
  with_reducible exact Dev.setGroup_keeps kp hd

theorem Dev.dropRep_keeps (kp : Keeps P) {d : Dev} (hd : P d) {g : Nat} {r : Rep} : P (Dev.dropRep d g r) := by
  unfold Dev.dropRep
  lift_lets
  intro src
  with_reducible exact Dev.unwait_keeps kp (Dev.setGroup_keeps kp hd)

theorem Dev.endRep_keeps (kp : Keeps P) {d : Dev} (hd : P d) {g : Nat} {r : Rep} : P (Dev.endRep d g r) := by
  unfold Dev.endRep
  lift_lets
  intro i d1 d2 d3 src
  with_reducible have hd1 : P d1 := Dev.unwait_keeps kp (Dev.jobCancel_keeps kp hd)
  have hd2 : P d2 := by
      unfold d2
      split
      · with_reducible exact Dev.toReady_keeps kp hd1
      · with_reducible exact hd1
  with_reducible have hd3 : P d3 := Dev.setRep_keeps kp (Dev.cellSlice_keeps kp (Dev.hoNotice_keeps kp hd2))
  with_reducible exact kp.ite (fun _ => hd) fun _ => Dev.refreshGroup_keeps kp (Dev.setPort_keeps kp hd3)

theorem Dev.rotPortLeaves_keeps (kp : Keeps P) {d : Dev} (hd : P d) {i : Nat} : P (Dev.rotPortLeaves d i) := by
  unfold Dev.rotPortLeaves
  lift_lets
  intro g
  split
  · with_reducible exact kp.ite (fun _ => (Dev.endRot_keeps kp hd)) fun _ => hd
  · with_reducible exact hd

theorem Dev.hoPortLeaves_keeps (kp : Keeps P) {d : Dev} (hd : P d) {i : Nat} : P (Dev.hoPortLeaves d i) := by
  unfold Dev.hoPortLeaves
  lift_lets
  intro d1
  with_reducible have hd1 : P d1 := Dev.rotPortLeaves_keeps kp hd
  with_reducible exact kp.foldl hd1 (fun _ _ k2 => Dev.endRep_keeps kp k2)

theorem Dev.dropReps_keeps (kp : Keeps P) {d : Dev} (hd : P d) {i : Nat} : P (Dev.dropReps d i) := by
  unfold Dev.dropReps
  with_reducible exact kp.foldl hd (fun _ _ k2 => Dev.dropRep_keeps kp k2)

theorem Dev.setCap_keeps (kp : Keeps P) {d : Dev} (hd : P d) {i : Nat} {r : CapRun} : P (Dev.setCap d i r) := by
  unfold Dev.setCap
  lift_lets
  intro src
  with_reducible exact Dev.setPort_keeps kp hd

theorem Dev.showSeq_keeps (kp : Keeps P) {d : Dev} (hd : P d) {i : Nat} : P (Dev.showSeq d i) := by
  unfold Dev.showSeq
  lift_lets
  intro q s
  with_reducible exact kp.ite (fun _ => (Dev.setF_keeps kp (Dev.setF_keeps kp hd))) fun _ => Dev.setF_keeps kp
                   (Dev.setF_keeps kp hd)

theorem Dev.setSeq_keeps (kp : Keeps P) {d : Dev} (hd : P d) {i seq : Nat} : P (Dev.setSeq d i seq) := by
  unfold Dev.setSeq
  lift_lets
  intro src
  with_reducible exact Dev.showSeq_keeps kp (Dev.setPort_keeps kp hd)

theorem Dev.setGain_keeps (kp : Keeps P) {d : Dev} (hd : P d) {i : Nat} {g : Gain} : P (Dev.setGain d i g) := by
  unfold Dev.setGain
  lift_lets
  intro src
  with_reducible exact Dev.showSeq_keeps kp (Dev.setPort_keeps kp hd)

theorem Dev.suspend_keeps (kp : Keeps P) {d : Dev} (hd : P d) {i : Nat} : P (Dev.suspend d i) := by
  unfold Dev.suspend
  lift_lets
  intro src
  with_reducible exact Dev.setPort_keeps kp (Dev.setF_keeps kp hd)

theorem Dev.suspendEnd_keeps (kp : Keeps P) {d : Dev} (hd : P d) {i : Nat} : P (Dev.suspendEnd d i) := by
  unfold Dev.suspendEnd
  lift_lets
  intro src
  with_reducible exact Dev.setPort_keeps kp (Dev.suspend_keeps kp hd)

theorem Dev.stageTakes_keeps (kp : Keeps P) {d : Dev} (hd : P d) {i : Nat} : P (Dev.stageTakes d i) := by
  unfold Dev.stageTakes
  lift_lets
  intro q src
  with_reducible exact Dev.setPort_keeps kp (Dev.setF_keeps kp (Dev.setF_keeps kp hd))

theorem Dev.outQuiet_keeps (kp : Keeps P) {d : Dev} (hd : P d) {i seq : Nat} : P (Dev.outQuiet d i seq) := by
  unfold Dev.outQuiet
  lift_lets
  intro d1 src
  with_reducible have hd1 : P d1 := Dev.setSeq_keeps kp (Dev.setGain_keeps kp hd)
  with_reducible exact Dev.setPort_keeps kp hd1

theorem Dev.fastMute_keeps (kp : Keeps P) {d : Dev} (hd : P d) {i : Nat} : P (Dev.fastMute d i) := by
  unfold Dev.fastMute
  with_reducible exact Dev.count_keeps kp (Dev.suspendEnd_keeps kp (Dev.outQuiet_keeps kp hd))

theorem Dev.clamp_keeps (kp : Keeps P) {d : Dev} (hd : P d) {i : Nat} {on : Bool} : P (Dev.clamp d i on) := by
  unfold Dev.clamp
  with_reducible exact Dev.setFlag_keeps kp hd

theorem Dev.surveyTone_keeps (kp : Keeps P) {d : Dev} (hd : P d) {i : Nat} {on : Bool} : P (Dev.surveyTone d i on) :=
    by
  unfold Dev.surveyTone
  with_reducible exact Dev.send_keeps kp hd

theorem Dev.surveyAbort_keeps (kp : Keeps P) {d : Dev} (hd : P d) {i : Nat} : P (Dev.surveyAbort d i) := by
  unfold Dev.surveyAbort
  lift_lets
  intro q
  with_reducible exact kp.ite (fun _ => (Dev.raise_keeps kp (Dev.setF_keeps kp (Dev.setReg_keeps kp (Dev.setReg_keeps
                   kp (Dev.surveyTone_keeps kp hd)))))) fun _ => hd

theorem Dev.lsvAbort_keeps (kp : Keeps P) {d : Dev} (hd : P d) {i : Nat} : P (Dev.lsvAbort d i) := by
  unfold Dev.lsvAbort
  lift_lets
  intro q
  with_reducible exact kp.ite (fun _ => (Dev.raise_keeps kp (Dev.setF_keeps kp (Dev.setF_keeps kp (Dev.setReg_keeps
                   kp (Dev.setReg_keeps kp (Dev.send_keeps kp hd))))))) fun _ => hd

theorem Dev.releaseSlice_keeps (kp : Keeps P) {d : Dev} (hd : P d) {g s : Nat} : P (Dev.releaseSlice d g s) := by
  unfold Dev.releaseSlice
  lift_lets
  intro st
  with_reducible exact kp.ite (fun _ => (Dev.toLayby_keeps kp hd)) fun _ => hd

theorem Dev.releaseSlices_keeps (kp : Keeps P) {d : Dev} (hd : P d) {i : Nat} : P (Dev.releaseSlices d i) := by
  unfold Dev.releaseSlices
  lift_lets
  intro q d1
  with_reducible have hd1 : P d1 := Dev.releaseSlice_keeps kp (Dev.releaseSlice_keeps kp hd)
  with_reducible exact Dev.setF_keeps kp (Dev.setF_keeps kp hd1)

theorem Dev.obtain_keeps (kp : Keeps P) {d : Dev} (hd : P d) {i : Nat} : ∀ e, d.obtain i = some e → P e := by
  unfold Dev.obtain; intro e he
  dsimp only at he
  split at he
  · cases he
  · split at he
    · split at he
      · cases he
      · injection he with he; subst he; exact Dev.setF_keeps kp (Dev.connect_keeps kp (Dev.setF_keeps kp
            (Dev.connect_keeps kp hd)))
    · injection he with he; subst he; exact Dev.setF_keeps kp (Dev.connect_keeps kp hd)

theorem Dev.gridGoesOn_keeps (kp : Keeps P) {d : Dev} (hd : P d) {i : Nat} : P (Dev.gridGoesOn d i) := by
  unfold Dev.gridGoesOn
  lift_lets
  intro s base
  with_reducible exact kp.ite (fun _ => (Dev.setPort_keeps kp hd)) fun _ => Dev.setPort_keeps kp hd

theorem Dev.regrid_keeps (kp : Keeps P) {d : Dev} (hd : P d) {i : Nat} : P (Dev.regrid d i) := by
  unfold Dev.regrid
  lift_lets
  intro s base t src c c1
  with_reducible exact kp.ite (fun _ => (Dev.setCap_keeps kp hd)) fun _ => hd

theorem Dev.regridGroup_keeps (kp : Keeps P) {d : Dev} (hd : P d) {g : Nat} : P (Dev.regridGroup d g) := by
  unfold Dev.regridGroup
  with_reducible exact kp.foldl hd (fun _ _ k3 => Dev.regrid_keeps kp k3)

theorem Dev.endRun_keeps (kp : Keeps P) {d : Dev} (hd : P d) {i : Nat} {survey : Bool} : P (Dev.endRun d i survey) :=
    by
  unfold Dev.endRun
  lift_lets
  intro s src c
  with_reducible exact kp.ite (fun _ => (Dev.setPort_keeps kp hd)) fun _ => Dev.setPort_keeps kp hd

theorem Dev.enterStopped_keeps (kp : Keeps P) {d : Dev} (hd : P d) {i : Nat} : P (Dev.enterStopped d i) := by
  unfold Dev.enterStopped
  lift_lets
  intro q d1 src d2
  with_reducible have hd1 : P d1 := Dev.setF_keeps kp (Dev.setSt_keeps kp hd)
  with_reducible have hd2 : P d2 := Dev.setPort_keeps kp hd1
  with_reducible exact kp.ite (fun _ => (Dev.clamp_keeps kp (Dev.suspend_keeps kp (Dev.outQuiet_keeps kp
                   (Dev.stageTakes_keeps kp hd2))))) fun _ => Dev.clamp_keeps kp hd2

theorem Dev.runCheck_keeps (kp : Keeps P) {d : Dev} (hd : P d) {i : Nat} : P (Dev.runCheck d i) := by
  unfold Dev.runCheck
  lift_lets
  intro q d1 src d2
  with_reducible have hd1 : P d1 := Dev.setSt_keeps kp (Dev.lsvAbort_keeps kp hd)
  with_reducible have hd2 : P d2 := Dev.setPort_keeps kp hd1
  with_reducible exact kp.ite (fun _ => (kp.ite (fun _ => (kp.ite (fun _ => hd2) fun _ => Dev.setSeq_keeps kp hd2))
                   fun _ => hd2)) fun _ => hd

theorem Dev.clampClears_keeps (kp : Keeps P) {d : Dev} (hd : P d) {i : Nat} : P (Dev.clampClears d i) := by
  unfold Dev.clampClears
  lift_lets
  intro q
  with_reducible exact kp.ite (fun _ => (Dev.setF_keeps kp hd)) fun _ => hd

theorem Dev.portFault_keeps (kp : Keeps P) {d : Dev} (hd : P d) {i cause : Nat} : P (Dev.portFault d i cause) := by
  unfold Dev.portFault
  lift_lets
  intro q st d0 d1 d2 d3 src d4 d5
  with_reducible have hd0 : P d0 := kp.ite (fun _ => hd) fun _ => Dev.lsvAbort_keeps kp (Dev.surveyAbort_keeps kp
                   (Dev.hoPortLeaves_keeps kp hd))
  with_reducible have hd1 : P d1 := kp.ite (fun _ => (Dev.releaseSlices_keeps kp hd0)) fun _ => hd0
  with_reducible have hd2 : P d2 := Dev.count_keeps kp (Dev.setF_keeps kp (Dev.setSt_keeps kp hd1))
  with_reducible have hd3 : P d3 := kp.ite (fun _ => (Dev.clamp_keeps kp (kp.ite (fun _ => hd2) fun _ =>
                   Dev.fastMute_keeps kp hd2))) fun _ => Dev.setF_keeps kp (Dev.clamp_keeps kp hd2)
  with_reducible have hd4 : P d4 := Dev.setPort_keeps kp hd3
  with_reducible have hd5 : P d5 := kp.ite (fun _ => (Dev.regrid_keeps kp (Dev.gridGoesOn_keeps kp hd4))) fun _ => hd4
  with_reducible exact kp.ite (fun _ => hd) fun _ => Dev.clampClears_keeps kp (Dev.raise_keeps kp hd5)

theorem Dev.recoverNote_keeps (kp : Keeps P) {d : Dev} (hd : P d) {i : Nat} : P (Dev.recoverNote d i) := by
  unfold Dev.recoverNote
  with_reducible exact Dev.raise_keeps kp hd

theorem Dev.portOff_keeps (kp : Keeps P) {d : Dev} (hd : P d) {i : Nat} {ramped : optParam Bool false} : P
    (Dev.portOff d i ramped) := by
  unfold Dev.portOff
  lift_lets
  intro q st d0 d1 d2 d3 src d4 d5
  with_reducible have hd0 : P d0 := Dev.lsvAbort_keeps kp (Dev.surveyAbort_keeps kp (Dev.dropReps_keeps kp
                   (Dev.hoPortLeaves_keeps kp hd)))
  with_reducible have hd1 : P d1 := kp.ite (fun _ => (Dev.fastMute_keeps kp hd0)) fun _ => hd0
  with_reducible have hd2 : P d2 := Dev.setF_keeps kp (Dev.setSt_keeps kp (Dev.releaseSlices_keeps kp hd1))
  with_reducible have hd3 : P d3 := Dev.clamp_keeps kp (Dev.outQuiet_keeps kp (Dev.setF_keeps kp hd2))
  with_reducible have hd4 : P d4 := Dev.setPort_keeps kp hd3
  with_reducible have hd5 : P d5 := kp.ite (fun _ => (Dev.recoverNote_keeps kp hd4)) fun _ => hd4
  with_reducible exact kp.ite (fun _ => hd) fun _ => Dev.refreshGroup_keeps kp (Dev.stageTakes_keeps kp hd5)

theorem Dev.pfMute_keeps (kp : Keeps P) {d : Dev} (hd : P d) {i : Nat} : P (Dev.pfMute d i) := by
  unfold Dev.pfMute
  lift_lets
  intro q droop w4
  with_reducible exact kp.ite (fun _ => (Dev.raise_keeps kp (Dev.count_keeps kp (Dev.clamp_keeps kp
                   (Dev.suspend_keeps kp (Dev.showSeq_keeps kp (Dev.setF_keeps kp hd))))))) fun _ => hd

theorem Dev.pfCheck_keeps (kp : Keeps P) {d : Dev} (hd : P d) {i : Nat} : P (Dev.pfCheck d i) := by
  unfold Dev.pfCheck
  with_reducible exact kp.ite (fun _ => (Dev.pfMute_keeps kp hd)) fun _ => hd

theorem Dev.unhide_keeps (kp : Keeps P) {d : Dev} (hd : P d) {i : Nat} : P (Dev.unhide d i) := by
  unfold Dev.unhide
  lift_lets
  intro q d1 s f src
  with_reducible have hd1 : P d1 := Dev.showSeq_keeps kp hd
  with_reducible have hf : P f := Dev.setSeq_keeps kp (Dev.setGain_keeps kp hd1)
  with_reducible exact kp.ite (fun _ => hd1) fun _ => Dev.setPort_keeps kp hf

theorem Dev.portLeaveOff_keeps (kp : Keeps P) {d : Dev} (hd : P d) {i : Nat} : P (Dev.portLeaveOff d i) := by
  unfold Dev.portLeaveOff
  with_reducible exact kp.ite (fun _ => (by
      split
      · rename_i w0 w1 w2
        have hw1 := Dev.obtain_keeps kp hd _ w2
        with_reducible exact Dev.runCheck_keeps kp (Dev.refreshGroup_keeps kp (Dev.pfCheck_keeps kp
                         (Dev.enterStopped_keeps kp (Dev.stageTakes_keeps kp hw1))))
      · with_reducible exact Dev.refreshGroup_keeps kp (Dev.portFault_keeps kp hd))) fun _ => hd

theorem Dev.portRecover_keeps (kp : Keeps P) {d : Dev} (hd : P d) {i : Nat} : P (Dev.portRecover d i) := by
  unfold Dev.portRecover
  lift_lets
  intro q cause d1 d2a d2 src d3
  with_reducible have hd1 : P d1 := kp.ite (fun _ => (kp.getD (Dev.obtain_keeps kp hd) hd)) fun _ => hd
  with_reducible have hd2a : P d2a := Dev.enterStopped_keeps kp (Dev.stageTakes_keeps kp (Dev.setF_keeps kp hd1))
  with_reducible have hd2 : P d2 := Dev.pfCheck_keeps kp (kp.ite (fun _ => (Dev.suspendEnd_keeps kp hd2a)) fun _ =>
                   hd2a)
  with_reducible have hd3 : P d3 := Dev.setPort_keeps kp hd2
  with_reducible exact kp.ite (fun _ => (kp.ite (fun _ => (Dev.setF_keeps kp hd)) fun _ => kp.ite (fun _ =>
                   (Dev.setF_keeps kp hd)) fun _ => Dev.runCheck_keeps kp (Dev.refreshGroup_keeps kp
                   (Dev.recoverNote_keeps kp hd3)))) fun _ => hd

theorem Dev.groupSettle_keeps (kp : Keeps P) {d : Dev} (hd : P d) {g : Nat} : P (Dev.groupSettle d g) := by
  unfold Dev.groupSettle
  with_reducible exact kp.foldl hd (fun _ _ k3 => by
      lift_lets
      intro i
      with_reducible exact kp.ite (fun _ => (Dev.portRecover_keeps kp k3)) fun _ => k3)

theorem Dev.portStop_keeps (kp : Keeps P) {d : Dev} (hd : P d) {i : Nat} {ramped : Bool} : P (Dev.portStop d i
    ramped) := by
  unfold Dev.portStop
  lift_lets
  intro q d1 d2 src
  with_reducible have hd1 : P d1 := Dev.hoPortLeaves_keeps kp hd
  with_reducible have hd2 : P d2 := kp.ite (fun _ => (Dev.fastMute_keeps kp hd1)) fun _ => hd1
  with_reducible exact kp.ite (fun _ => (Dev.enterStopped_keeps kp (Dev.endRun_keeps kp hd2))) fun _ => kp.ite (fun _
                   => (Dev.endRun_keeps kp hd)) fun _ => kp.ite (fun _ => (Dev.setPort_keeps kp hd)) fun _ => hd

theorem Dev.surveyStart_keeps (kp : Keeps P) {d : Dev} (hd : P d) {i : Nat} : P (Dev.surveyStart d i) := by
  unfold Dev.surveyStart
  lift_lets
  intro q d0 d1 d1_1 src d2
  with_reducible have hd0 : P d0 := kp.ite (fun _ => (Dev.hoPortLeaves_keeps kp hd)) fun _ => hd
  with_reducible have hd1 : P d1 := kp.ite (fun _ => (Dev.enterStopped_keeps kp (Dev.endRun_keeps kp hd0))) fun _ =>
                   Dev.setF_keeps kp hd0
  with_reducible have hd1_1 : P d1_1 := Dev.setF_keeps kp (Dev.setSt_keeps kp (Dev.surveyTone_keeps kp hd0))
  with_reducible have hd2 : P d2 := Dev.setPort_keeps kp hd1_1
  with_reducible exact kp.ite (fun _ => (Dev.raise_keeps kp (Dev.setF_keeps kp (Dev.setReg_keeps kp (Dev.setReg_keeps
                   kp hd1))))) fun _ => kp.ite (fun _ => (Dev.gridGoesOn_keeps kp hd2)) fun _ => hd2

theorem Dev.surveyLeave_keeps (kp : Keeps P) {d : Dev} (hd : P d) {i : Nat} : P (Dev.surveyLeave d i) := by
  unfold Dev.surveyLeave
  lift_lets
  intro d1 src
  with_reducible have hd1 : P d1 := Dev.enterStopped_keeps kp hd
  with_reducible exact Dev.runCheck_keeps kp (Dev.setPort_keeps kp hd1)

theorem Dev.surveyEnd_keeps (kp : Keeps P) {d : Dev} (hd : P d) {i r : Nat} {x : Int} : P (Dev.surveyEnd d i r x) :=
    by
  unfold Dev.surveyEnd
  lift_lets
  intro q d0 mag2 status d1
  with_reducible have hd0 : P d0 := Dev.surveyTone_keeps kp (Dev.pass_keeps kp hd)
  with_reducible have hd1 : P d1 := kp.ite (fun _ => (Dev.setReg_keeps kp (Dev.setReg_keeps kp hd0))) fun _ =>
                   Dev.setReg_keeps kp (Dev.setReg_keeps kp hd0)
  with_reducible exact kp.ite (fun _ => (Dev.surveyLeave_keeps kp (Dev.raise_keeps kp (Dev.setF_keeps kp hd1)))) fun
                   _ => hd

theorem Dev.cmUpdate_keeps (kp : Keeps P) {d : Dev} (hd : P d) {i mv : Nat} : P (Dev.cmUpdate d i mv) := by
  unfold Dev.cmUpdate
  lift_lets
  intro q e d1 dev ovr s
  with_reducible have hd1 : P d1 := Dev.setFlag_keeps kp (Dev.setF_keeps kp (Dev.setF_keeps kp hd))
  with_reducible exact kp.ite (fun _ => (Dev.setPort_keeps kp hd1)) fun _ => hd

theorem Dev.dcChange_keeps (kp : Keeps P) {d : Dev} (hd : P d) {i : Nat} : P (Dev.dcChange d i) := by
  unfold Dev.dcChange
  lift_lets
  intro q on src d1
  with_reducible have hd1 : P d1 := Dev.setPort_keeps kp (Dev.count_keeps kp (Dev.setFlag_keeps kp hd))
  split
  · with_reducible exact kp.ite (fun _ => (Dev.raise_keeps kp hd1)) fun _ => hd
  · with_reducible exact hd

theorem Dev.grpUnlock_keeps (kp : Keeps P) {d : Dev} (hd : P d) {g : Nat} : P (Dev.grpUnlock d g) := by
  unfold Dev.grpUnlock
  lift_lets
  intro p d1 d2
  with_reducible have hd1 : P d1 := Dev.raise_keeps kp (Dev.count_keeps kp (Dev.setF_keeps kp hd))
  with_reducible have hd2 : P d2 := kp.foldl hd1 (fun _ _ k3 => by
      lift_lets
      intro st
      with_reducible exact kp.ite (fun _ => (Dev.portFault_keeps kp k3)) fun _ => k3)
  with_reducible exact kp.ite (fun _ => (Dev.calRestart_keeps kp (Dev.regridGroup_keeps kp hd2))) fun _ => hd

theorem Dev.grpLock_keeps (kp : Keeps P) {d : Dev} (hd : P d) {g : Nat} : P (Dev.grpLock d g) := by
  unfold Dev.grpLock
  lift_lets
  intro p k d1 d2 d3 src
  with_reducible have hd1 : P d1 := Dev.raise_keeps kp (Dev.setF_keeps kp hd)
  with_reducible have hd2 : P d2 := Dev.raise_keeps kp (Dev.setReg_keeps kp hd1)
  with_reducible have hd3 : P d3 := kp.foldl hd2 (fun _ _ k3 => by
      lift_lets
      intro i
      with_reducible exact kp.ite (fun _ => (Dev.portRecover_keeps kp k3)) fun _ => Dev.runCheck_keeps kp k3)
  with_reducible exact kp.ite (fun _ => (Dev.audioReady_keeps kp (Dev.setGroup_keeps kp (Dev.calRestart_keeps kp
                   (Dev.regridGroup_keeps kp hd3))))) fun _ => hd

theorem Dev.pfMuteAll_keeps (kp : Keeps P) {d : Dev} (hd : P d) : P (Dev.pfMuteAll d) := by
  unfold Dev.pfMuteAll
  with_reducible exact kp.foldl hd (fun _ _ k2 => Dev.pfMute_keeps kp k2)

theorem Dev.vapDroop_keeps (kp : Keeps P) {d : Dev} (hd : P d) {k mv : Nat} : P (Dev.vapDroop d k mv) := by
  unfold Dev.vapDroop
  lift_lets
  intro p
  with_reducible exact kp.ite (fun _ => hd) fun _ => Dev.pfMuteAll_keeps kp (Dev.raise_keeps kp (Dev.setF_keeps kp
                   (Dev.setF_keeps kp hd)))

theorem Dev.pfRelease_keeps (kp : Keeps P) {d : Dev} (hd : P d) : P (Dev.pfRelease d) := by
  unfold Dev.pfRelease
  lift_lets
  intro d0
  with_reducible have hd0 : P d0 := kp.foldl hd (fun _ _ k3 => Dev.setF_keeps kp k3)
  with_reducible exact kp.ite (fun _ => hd) fun _ => kp.foldl hd0 (fun _ _ k2 => by
      lift_lets
      intro q e1
      with_reducible have he1 : P e1 := Dev.suspendEnd_keeps kp (Dev.unhide_keeps kp (Dev.setF_keeps kp k2))
      with_reducible exact kp.ite (fun _ => (Dev.raise_keeps kp (Dev.clamp_keeps kp he1))) fun _ => k2)

theorem Dev.setSupply_keeps (kp : Keeps P) {d : Dev} (hd : P d) {k vap vapl : Nat} : P (Dev.setSupply d k vap vapl)
    := by
  unfold Dev.setSupply
  lift_lets
  intro p
  with_reducible exact Dev.setFlag_keeps kp (Dev.setFlag_keeps kp (Dev.setReg_keeps kp hd))

theorem Dev.dieClamps_keeps (kp : Keeps P) {d : Dev} (hd : P d) {k : Nat} : P (Dev.dieClamps d k) := by
  unfold Dev.dieClamps
  with_reducible exact kp.ite (fun _ => (kp.foldl hd (fun _ _ k4 => by
      lift_lets
      intro st
      with_reducible exact kp.ite (fun _ => (Dev.clampClears_keeps kp (Dev.clamp_keeps kp k4))) fun _ => k4))) fun _
                       => kp.foldl hd (fun _ _ k4 => Dev.setF_keeps kp k4)

theorem Dev.supplyLost_keeps (kp : Keeps P) {d : Dev} (hd : P d) {k vap vapl : Nat} : P (Dev.supplyLost d k vap vapl)
    := by
  unfold Dev.supplyLost
  lift_lets
  intro p was d1 src e d2
  with_reducible have hd1 : P d1 := Dev.setSupply_keeps kp hd
  with_reducible have he : P e := Dev.raise_keeps kp (Dev.setDie_keeps kp hd1)
  with_reducible have hd2 : P d2 := kp.ite (fun _ => (Dev.dieCalLost_keeps kp (kp.foldl he (fun _ _ k4 => by
      lift_lets
      intro st
      with_reducible exact kp.ite (fun _ => (Dev.portFault_keeps kp k4)) fun _ => k4)))) fun _ => hd1
  with_reducible exact Dev.dieClamps_keeps kp hd2

theorem Dev.supplyBack_keeps (kp : Keeps P) {d : Dev} (hd : P d) {k vap vapl : Nat} : P (Dev.supplyBack d k vap vapl)
    := by
  unfold Dev.supplyBack
  lift_lets
  intro p was d0 d1 src d2
  with_reducible have hd0 : P d0 := Dev.setSupply_keeps kp hd
  with_reducible have hd1 : P d1 := Dev.dieClamps_keeps kp hd0
  with_reducible have hd2 : P d2 := Dev.raise_keeps kp (Dev.setDie_keeps kp hd1)
  with_reducible exact kp.ite (fun _ => (Dev.dieCalStart_keeps kp (kp.foldl hd2 (fun _ _ k4 => kp.ite (fun _ =>
                   (Dev.portRecover_keeps kp k4)) fun _ => k4)))) fun _ => hd1

theorem Dev.tempWarn_keeps (kp : Keeps P) {d : Dev} (hd : P d) {k t : Nat} : P (Dev.tempWarn d k t) := by
  unfold Dev.tempWarn
  lift_lets
  intro p was w d1
  with_reducible have hd1 : P d1 := Dev.setF_keeps kp hd
  with_reducible exact kp.ite (fun _ => (Dev.raise_keeps kp hd1)) fun _ => hd1

theorem Dev.tempFault_keeps (kp : Keeps P) {d : Dev} (hd : P d) {k t : Nat} : P (Dev.tempFault d k t) := by
  unfold Dev.tempFault
  lift_lets
  intro p src d1
  with_reducible have hd1 : P d1 := Dev.raise_keeps kp (Dev.setDie_keeps kp (Dev.setF_keeps kp hd))
  with_reducible exact kp.ite (fun _ => hd) fun _ => kp.foldl hd1 (fun _ _ k4 => by
      lift_lets
      intro st
      with_reducible exact kp.ite (fun _ => (Dev.portFault_keeps kp k4)) fun _ => k4)

theorem Dev.portRecoverCmd_keeps (kp : Keeps P) {d : Dev} (hd : P d) {i : Nat} {temp : Option Nat} : P
    (Dev.portRecoverCmd d i temp) := by
  unfold Dev.portRecoverCmd
  lift_lets
  intro k p
  split
  · lift_lets
    intro d1 src d2
    with_reducible have hd1 : P d1 := Dev.setF_keeps kp hd
    with_reducible have hd2 : P d2 := kp.ite (fun _ => (Dev.setDie_keeps kp hd1)) fun _ => hd1
    with_reducible exact kp.foldl hd2 (fun _ _ k3 => kp.ite (fun _ => (Dev.portRecover_keeps kp k3)) fun _ => k3)
  · with_reducible exact Dev.portRecover_keeps kp hd

theorem Dev.refin_keeps (kp : Keeps P) {d : Dev} (hd : P d) {k i mv : Nat} {found : Bool} : P (Dev.refin d k i mv
    found) := by
  unfold Dev.refin
  lift_lets
  intro p was now d1
  with_reducible have hd1 : P d1 := Dev.setFlag_keeps kp (Dev.setF_keeps kp hd)
  with_reducible exact kp.ite (fun _ => hd1) fun _ => Dev.raise_keeps kp hd1

theorem Dev.setTxQueue_keeps (kp : Keeps P) {d : Dev} (hd : P d) {ep flow : Nat} {q : List FlowWord} : P
    (Dev.setTxQueue d ep flow q) := by
  unfold Dev.setTxQueue
  lift_lets
  intro src
  with_reducible exact kp.upd hd

theorem Dev.pushFlow_keeps (kp : Keeps P) {d : Dev} (hd : P d) {ep : Nat} {w : FlowWord} : P (Dev.pushFlow d ep w) :=
    by
  unfold Dev.pushFlow
  with_reducible exact Dev.setTxQueue_keeps kp hd

theorem Dev.coefWrite_keeps (kp : Keeps P) {d : Dev} (hd : P d) {i k : Nat} {v : Word} : P (Dev.coefWrite d i k v) :=
    by
  unfold Dev.coefWrite
  lift_lets
  intro bank src
  with_reducible exact kp.upd hd

theorem Dev.swapTakes_keeps (kp : Keeps P) {d : Dev} (hd : P d) {i t : Nat} : P (Dev.swapTakes d i t) := by
  unfold Dev.swapTakes
  lift_lets
  intro q d1
  with_reducible have hd1 : P d1 := Dev.setReg_keeps kp (Dev.setReg_keeps kp (Dev.setF_keeps kp (Dev.setF_keeps kp
                   hd)))
  with_reducible exact Dev.raise_keeps kp (Dev.count_keeps kp hd1)

theorem Dev.swapDefer_keeps (kp : Keeps P) {d : Dev} (hd : P d) {i n : Nat} : P (Dev.swapDefer d i n) := by
  unfold Dev.swapDefer
  lift_lets
  intro q
  with_reducible exact kp.ite (fun _ => hd) fun _ => Dev.raiseAt_keeps kp (Dev.setF_keeps kp hd)

theorem Dev.forceXfade_keeps (kp : Keeps P) {d : Dev} (hd : P d) {i : Nat} : P (Dev.forceXfade d i) := by
  unfold Dev.forceXfade
  lift_lets
  intro q src
  with_reducible exact kp.ite (fun _ => (Dev.setF_keeps kp (Dev.setF_keeps kp (Dev.setPort_keeps kp hd)))) fun _ => hd

theorem Dev.swapAtWord_keeps (kp : Keeps P) {d : Dev} (hd : P d) {i n t : Nat} : P (Dev.swapAtWord d i n t) := by
  unfold Dev.swapAtWord
  lift_lets
  intro d1
  with_reducible have hd1 : P d1 := Dev.forceXfade_keeps kp hd
  with_reducible exact kp.ite (fun _ => (kp.ite (fun _ => (Dev.swapDefer_keeps kp hd1)) fun _ => Dev.swapTakes_keeps
                   kp hd1)) fun _ => hd1

theorem Dev.bankRequest_keeps (kp : Keeps P) {d : Dev} (hd : P d) {i : Nat} {instant : Option Nat} : P
    (Dev.bankRequest d i instant) := by
  unfold Dev.bankRequest
  lift_lets
  intro q src d1 s n
  with_reducible have hd1 : P d1 := Dev.setPort_keeps kp hd
  with_reducible exact kp.ite (fun _ => (kp.ite (fun _ => (Dev.swapDefer_keeps kp hd1)) fun _ => hd1)) fun _ =>
                   Dev.setF_keeps kp (Dev.setF_keeps kp hd)

theorem Dev.swapDone_keeps (kp : Keeps P) {d : Dev} (hd : P d) {i : Nat} : P (Dev.swapDone d i) := by
  unfold Dev.swapDone
  lift_lets
  intro n
  with_reducible exact kp.ite (fun _ => (Dev.swapAtWord_keeps kp hd)) fun _ => hd

theorem Dev.capKeep_keeps (kp : Keeps P) {d : Dev} (hd : P d) {i off : Nat} {instant : Option Nat} {old : Word} : P
    (Dev.capKeep d i off instant old) := by
  unfold Dev.capKeep
  lift_lets
  intro s
  split
  · with_reducible exact kp.ite (fun _ => (Dev.setPort_keeps kp hd)) fun _ => hd
  · with_reducible exact Dev.setPort_keeps kp hd

theorem Dev.detFall_keeps (kp : Keeps P) {d : Dev} (hd : P d) {i k t : Nat} : P (Dev.detFall d i k t) := by
  unfold Dev.detFall
  lift_lets
  intro q d1
  with_reducible have hd1 : P d1 := Dev.setPort_keeps kp (Dev.setF_keeps kp hd)
  with_reducible exact Dev.raiseAt_keeps kp hd1

theorem Dev.detRise_keeps (kp : Keeps P) {d : Dev} (hd : P d) {i k t : Nat} : P (Dev.detRise d i k t) := by
  unfold Dev.detRise
  lift_lets
  intro q d1
  with_reducible have hd1 : P d1 := Dev.count_keeps kp (Dev.setPort_keeps kp (Dev.setF_keeps kp hd))
  with_reducible exact Dev.raiseAt_keeps kp hd1

theorem Dev.detEval_keeps (kp : Keeps P) {d : Dev} (hd : P d) {i k t : Nat} {x : Option Nat} {p : DetPer} {last :
    Bool} : P (Dev.detEval d i k t x p last).1 := by
  unfold Dev.detEval
  lift_lets
  intro level hold low above d1 p1 n
  have hd1 : P d1 := kp.ite (fun _ => (kp.ite (fun _ => (Dev.detFall_keeps kp hd)) fun _ => hd)) fun _ => by
      split
      · with_reducible exact kp.ite (fun _ => (Dev.detRise_keeps kp hd)) fun _ => hd
      · with_reducible exact hd
  with_reducible exact kp.ite_fst (fun _ => (kp.ite_fst (fun _ => (kp.ite (fun _ => (Dev.detFall_keeps kp hd1)) fun _
                   => Dev.setPort_keeps kp hd1)) fun _ => Dev.setPort_keeps kp hd1)) fun _ => hd1

theorem Dev.detPeriod_keeps (kp : Keeps P) {d : Dev} (hd : P d) {i k t : Nat} {sample : Option Nat} {fast : Bool} : P
    (Dev.detPeriod d i k t sample fast).1 := by
  unfold Dev.detPeriod
  lift_lets
  intro e
  with_reducible have he : P e := Dev.detEval_keeps kp hd
  with_reducible exact kp.ite_fst (fun _ => (Dev.setPort_keeps kp (Dev.setF_keeps kp hd))) fun _ => kp.ite_fst (fun _
                   => hd) fun _ => he

theorem Dev.thrFall_keeps (kp : Keeps P) {d : Dev} (hd : P d) {i k : Nat} : P (Dev.thrFall d i k) := by
  unfold Dev.thrFall
  lift_lets
  intro q
  with_reducible exact kp.ite (fun _ => (Dev.detFall_keeps kp hd)) fun _ => hd

theorem Dev.thrWrite_keeps (kp : Keeps P) {d : Dev} (hd : P d) {i k : Nat} : P (Dev.thrWrite d i k) := by
  unfold Dev.thrWrite
  lift_lets
  intro q
  with_reducible exact kp.ite (fun _ => (Dev.setPort_keeps kp (Dev.setF_keeps kp hd))) fun _ => kp.ite (fun _ =>
                   (Dev.detFall_keeps kp hd)) fun _ => hd

theorem Dev.syncReset_keeps (kp : Keeps P) {d : Dev} (hd : P d) {i : Nat} : P (Dev.syncReset d i) := by
  unfold Dev.syncReset
  lift_lets
  intro q r k t d1 src d2
  with_reducible have hd1 : P d1 := Dev.reach_keeps kp hd
  with_reducible have hd2 : P d2 := Dev.setPort_keeps kp hd1
  with_reducible exact kp.ite (fun _ => (kp.ite (fun _ => hd2) fun _ => Dev.setReg_keeps kp (Dev.setReg_keeps kp
                   (Dev.setReg_keeps kp (Dev.setReg_keeps kp hd2))))) fun _ => hd

theorem Dev.setEmit_keeps (kp : Keeps P) {d : Dev} (hd : P d) {i : Nat} {r : CapRun} {stop : Option Nat} : P
    (Dev.setEmit d i r stop) := by
  unfold Dev.setEmit
  lift_lets
  intro s
  split
  · with_reducible exact Dev.setPort_keeps kp hd
  · with_reducible exact Dev.setCap_keeps kp hd

theorem Dev.rotFollow_keeps (kp : Keeps P) {d : Dev} (hd : P d) {i n window : Nat} : P (Dev.rotFollow d i n window)
    := by
  unfold Dev.rotFollow
  lift_lets
  intro g src
  split
  · lift_lets
    intro ph
    with_reducible exact kp.ite (fun _ => (Dev.setF_keeps kp (Dev.setGroup_keeps kp hd))) fun _ => hd
  · with_reducible exact hd

theorem Dev.pgaStep_keeps (kp : Keeps P) {d : Dev} (hd : P d) {i : Nat} : P (Dev.pgaStep d i) := by
  unfold Dev.pgaStep
  lift_lets
  intro s want
  with_reducible exact kp.ite (fun _ => hd) fun _ => kp.ite (fun _ => (Dev.setPort_keeps kp hd)) fun _ =>
                   Dev.setPort_keeps kp hd

theorem Dev.pushHist_keeps (kp : Keeps P) {d : Dev} (hd : P d) {g s : Nat} {x : Int} : P (Dev.pushHist d g s x) := by
  unfold Dev.pushHist
  lift_lets
  intro v
  with_reducible exact Dev.setSlice_keeps kp hd

theorem Dev.pushFasts_keeps (kp : Keeps P) {d : Dev} (hd : P d) {g s : Nat} {xs : List Int} : P (Dev.pushFasts d g s
    xs) := by
  unfold Dev.pushFasts
  lift_lets
  intro v
  with_reducible exact Dev.setSlice_keeps kp hd

theorem Dev.takeInputs_keeps (kp : Keeps P) {d : Dev} (hd : P d) {i m : Nat} {a : SliceWord} {b : Option SliceWord} :
    P (Dev.takeInputs d i m a b) := by
  unfold Dev.takeInputs
  lift_lets
  intro g sa due d1
  with_reducible have hd1 : P d1 := kp.ite (fun _ => (Dev.pushFasts_keeps kp (Dev.pushHist_keeps kp hd))) fun _ => hd
  split
  · with_reducible exact Dev.pushFasts_keeps kp (Dev.pushHist_keeps kp hd1)
  · with_reducible exact hd1

theorem Dev.fastStep_keeps (kp : Keeps P) {x : Dev × CapRun} (hx : P x.1) {i : Nat} {stop : Option Nat} {a b : SliceWord}
    {e : Nat} : P (Dev.fastStep i stop a b x e).1 := by
  unfold Dev.fastStep
  lift_lets
  intro d r j c n t ends m v in_ mag one ra rb
  have ho : ∀ {k p} {d : Dev}, P d → P (one k p d).1 := fun hd =>
    kp.ite_fst (fun _ => Dev.detEval_keeps kp hd) fun _ => hd
  exact ho (ho hx)

theorem Dev.clipNote_keeps (kp : Keeps P) {d : Dev} (hd : P d) {i t : Nat} {w : WordBody} : P (Dev.clipNote d i t w)
    := by
  unfold Dev.clipNote
  lift_lets
  intro q e ok src
  with_reducible have he : P e := Dev.count_keeps kp hd
  with_reducible exact kp.ite (fun _ => (kp.ite (fun _ => (Dev.raiseAt_keeps kp (Dev.setPort_keeps kp he))) fun _ =>
                   he)) fun _ => hd

theorem Dev.wordStats_keeps (kp : Keeps P) {d : Dev} (hd : P d) {i t : Nat} {old : Bool} {w : WordBody} : P
    (Dev.wordStats d i t old w) := by
  unfold Dev.wordStats
  lift_lets
  intro q d1 d2 d3 d4
  with_reducible have hd1 : P d1 := kp.ite (fun _ => (Dev.count_keeps kp hd)) fun _ => hd
  with_reducible have hd2 : P d2 := kp.ite (fun _ => (Dev.setF_keeps kp hd1)) fun _ => hd1
  with_reducible have hd3 : P d3 := Dev.setFlag_keeps kp (Dev.setF_keeps kp hd2)
  with_reducible have hd4 : P d4 := kp.ite (fun _ => hd3) fun _ => Dev.countFree_keeps kp hd3
  with_reducible exact kp.ite (fun _ => (kp.ite (fun _ => (Dev.raiseAt_keeps kp (Dev.setSt_keeps kp hd4))) fun _ =>
                   hd4)) fun _ => hd4

theorem Dev.wordSend_keeps (kp : Keeps P) {d : Dev} (hd : P d) {i : Nat} {r : CapRun} {stop : Option Nat} {word :
    Word} : P (Dev.wordSend d i r stop word) := by
  unfold Dev.wordSend
  lift_lets
  intro n t dst d1 s
  with_reducible have hd1 : P d1 := Dev.pushFlow_keeps kp hd
  with_reducible exact Dev.setEmit_keeps kp (Dev.setPort_keeps kp hd1)

theorem Dev.wordFollow_keeps (kp : Keeps P) {d : Dev} (hd : P d) {i : Nat} {r : CapRun} {stop : Option Nat} : P
    (Dev.wordFollow d i r stop) := by
  unfold Dev.wordFollow
  split
  · with_reducible exact Dev.rotFollow_keeps kp hd
  · with_reducible exact hd

theorem Dev.wordEmit_keeps (kp : Keeps P) {d : Dev} (hd : P d) {i : Nat} {a : SliceWord} {b : Option SliceWord} : P
    (Dev.wordEmit d i a b) := by
  unfold Dev.wordEmit
  split
  · exact hd
  · rename_i r stop _
    lift_lets
    intro n t d1 f w mark sample ra rb d3
    have h1 : P d1 := Dev.swapAtWord_keeps kp (Dev.pgaStep_keeps kp (Dev.reach_keeps kp hd))
    have hf : P f.1 := kp.foldl_fst (Dev.takeInputs_keeps kp h1) fun _ _ hx => Dev.fastStep_keeps kp hx
    have hr : P rb.1 := Dev.detPeriod_keeps kp (Dev.detPeriod_keeps kp hf)
    exact Dev.wordFollow_keeps kp (Dev.wordSend_keeps kp (Dev.wordStats_keeps kp (Dev.clipNote_keeps kp hr)))

theorem Dev.refuse_keeps (kp : Keeps P) {d : Dev} (hd : P d) {src : Source} {p off cause : Nat} {v : Word} : P
    (Dev.refuse d src p off cause v) := by
  unfold Dev.refuse
  lift_lets
  intro d1
  with_reducible have hd1 : P d1 := Dev.count_keeps kp (Dev.setReg_keeps kp hd)
  with_reducible exact Dev.raiseCode_keeps kp hd1

end Sys2Proof.Machine
end

