-- ==== Sys2Proof/Laws/KeepsTiles.lean ====
section
/-! SUPPORT. What every operation keeps: tiles and segment moves. -/

namespace Sys2Proof.Machine

open Sys2Proof

variable {P : Dev → Prop}

theorem Dev.setTile_keeps (kp : Keeps P) {d : Dev} (hd : P d) {L : Nat} {t : Tile} : P (Dev.setTile d L t) := by
  unfold Dev.setTile
  lift_lets
  intro src
  with_reducible exact kp.upd hd

theorem Dev.setCol_keeps (kp : Keeps P) {d : Dev} (hd : P d) {r c n : Nat} : P (Dev.setCol d r c n) := by
  unfold Dev.setCol
  with_reducible exact Dev.setF_keeps kp hd

theorem Dev.mapCol_keeps (kp : Keeps P) {d : Dev} (hd : P d) {r p : Nat} {f : Tile → Tile} : P (Dev.mapCol d r p f)
    := by
  unfold Dev.mapCol
  with_reducible exact kp.foldl hd (fun _ _ k2 => Dev.setTile_keeps kp k2)

theorem Dev.trimInputs_keeps (kp : Keeps P) {d : Dev} (hd : P d) {r c row : Nat} : P (Dev.trimInputs d r c row) := by
  unfold Dev.trimInputs
  lift_lets
  intro L x
  split
  · with_reducible exact hd
  · lift_lets
    intro f
    with_reducible exact Dev.setTile_keeps kp hd

theorem Dev.tileUe_keeps (kp : Keeps P) {d : Dev} (hd : P d) {r L : Nat} {l : List (Nat × Nat)} : P (Dev.tileUe d r L
    l) := by
  unfold Dev.tileUe
  with_reducible exact kp.foldl hd (fun _ _ k2 => Dev.raise_keeps kp (Dev.count_keeps kp k2))

theorem Dev.tileLens_keeps (kp : Keeps P) {d : Dev} (hd : P d) {r L : Nat} {l : List (Nat × Nat × Nat)} : P
    (Dev.tileLens d r L l) := by
  unfold Dev.tileLens
  with_reducible exact kp.foldl hd (fun _ _ k2 => Dev.raise_keeps kp (Dev.count_keeps kp k2))

theorem Dev.tileSat_keeps (kp : Keeps P) {d : Dev} (hd : P d) {r L n : Nat} : P (Dev.tileSat d r L n) := by
  unfold Dev.tileSat
  lift_lets
  intro d1 due src
  with_reducible have hd1 : P d1 := Dev.count_keeps kp hd
  with_reducible exact kp.ite (fun _ => hd) fun _ => kp.ite (fun _ => (Dev.raise_keeps kp (kp.upd hd1))) fun _ => hd1

theorem Dev.tileDone_keeps (kp : Keeps P) {d : Dev} (hd : P d) {r L : Nat} {x : TW} : P (Dev.tileDone d r L x) := by
  unfold Dev.tileDone
  lift_lets
  intro p d1 d2 d3 d4 d5
  with_reducible have hd1 : P d1 := Dev.setTile_keeps kp hd
  with_reducible have hd2 : P d2 := kp.ite (fun _ => hd1) fun _ => Dev.count_keeps kp hd1
  with_reducible have hd3 : P d3 := Dev.tileUe_keeps kp hd2
  with_reducible have hd4 : P d4 := kp.ite (fun _ => hd3) fun _ => Dev.count_keeps kp hd3
  with_reducible have hd5 : P d5 := kp.ite (fun _ => hd4) fun _ => Dev.raise_keeps kp (Dev.count_keeps kp hd4)
  with_reducible exact Dev.tileLens_keeps kp (Dev.tileSat_keeps kp hd5)

theorem Dev.clockRuns_keeps (kp : Keeps P) {d : Dev} (hd : P d) {r : Nat} : P (Dev.clockRuns d r) := by
  unfold Dev.clockRuns
  with_reducible exact kp.ite (fun _ => (Dev.setF_keeps kp hd)) fun _ => hd

theorem Dev.colStart_keeps (kp : Keeps P) {d : Dev} (hd : P d) {r c : Nat} : P (Dev.colStart d r c) := by
  unfold Dev.colStart
  lift_lets
  intro src
  with_reducible exact Dev.clockRuns_keeps kp (Dev.setCol_keeps kp (Dev.mapCol_keeps kp (kp.upd hd)))

theorem Dev.colMerge_keeps (kp : Keeps P) {d : Dev} (hd : P d) {r c : Nat} : P (Dev.colMerge d r c) := by
  unfold Dev.colMerge
  lift_lets
  intro mask
  with_reducible exact Dev.setFlag_keeps kp hd

theorem Dev.colStop_keeps (kp : Keeps P) {d : Dev} (hd : P d) {r c : Nat} : P (Dev.colStop d r c) := by
  unfold Dev.colStop
  with_reducible exact Dev.colMerge_keeps kp (Dev.mapCol_keeps kp hd)

theorem Dev.colHalt_keeps (kp : Keeps P) {d : Dev} (hd : P d) {r c : Nat} : P (Dev.colHalt d r c) := by
  unfold Dev.colHalt
  with_reducible exact Dev.setCol_keeps kp (Dev.colStop_keeps kp hd)

theorem Dev.setRun_keeps (kp : Keeps P) {d : Dev} (hd : P d) {r c n : Nat} : P (Dev.setRun d r c n) := by
  unfold Dev.setRun
  with_reducible exact Dev.setF_keeps kp hd

theorem Dev.descErr_keeps (kp : Keeps P) {d : Dev} (hd : P d) {r L k len reason : Nat} : P (Dev.descErr d r L k len
    reason) := by
  unfold Dev.descErr
  with_reducible exact Dev.raise_keeps kp hd

theorem Dev.lenRequest_keeps (kp : Keeps P) {d : Dev} (hd : P d) {r c row k len : Nat} : P (Dev.lenRequest d r c row
    k len) := by
  unfold Dev.lenRequest
  lift_lets
  intro ask d1
  have hask : ∀ y0 y1, P y0 → P (ask y0 y1) := fun _ _ q0 => by
      unfold ask
      lift_lets
      intro src
      with_reducible exact Dev.setTile_keeps kp q0
  with_reducible have hd1 : P d1 := hask _ _ hd
  split
  · with_reducible exact hask _ _ hd1
  · with_reducible exact hd1

theorem Dev.lenActs_keeps (kp : Keeps P) {d : Dev} (hd : P d) {r L k len : Nat} : P (Dev.lenActs d r L k len) := by
  unfold Dev.lenActs
  lift_lets
  intro t reason x d1
  with_reducible have hd1 : P d1 := Dev.tileDone_keeps kp hd
  with_reducible exact kp.ite (fun _ => (Dev.descErr_keeps kp hd)) fun _ => kp.ite (fun _ => (Dev.count_keeps kp
                   hd1)) fun _ => hd1

theorem Dev.lenRequestAct_keeps (kp : Keeps P) {d : Dev} (hd : P d) {t : Nat} : P (Dev.lenRequestAct d t) := by
  unfold Dev.lenRequestAct
  lift_lets
  intro r L src
  split
  · with_reducible exact hd
  · with_reducible exact Dev.lenActs_keeps kp (Dev.setTile_keeps kp hd)

theorem Dev.autodoze_keeps (kp : Keeps P) {d : Dev} (hd : P d) {r : Nat} : P (Dev.autodoze d r) := by
  unfold Dev.autodoze
  lift_lets
  intro p
  with_reducible exact kp.ite (fun _ => (Dev.count_keeps kp (Dev.setF_keeps kp hd))) fun _ => hd

theorem Dev.streamWord_keeps (kp : Keeps P) {d : Dev} (hd : P d) {t port : Nat} {w : FlowWord} : P (Dev.streamWord d
    t port w) := by
  unfold Dev.streamWord
  lift_lets
  intro r L x y z
  with_reducible exact kp.ite (fun _ => (Dev.setF_keeps kp (Dev.setTile_keeps kp hd))) fun _ => hd

theorem Dev.setMove_keeps (kp : Keeps P) {d : Dev} (hd : P d) {r : Nat} {m : Move} : P (Dev.setMove d r m) := by
  unfold Dev.setMove
  lift_lets
  intro src
  with_reducible exact kp.upd hd

theorem Dev.movePhase_keeps (kp : Keeps P) {d : Dev} (hd : P d) {r n : Nat} {m : Move} : P (Dev.movePhase d r n m) :=
    by
  unfold Dev.movePhase
  with_reducible exact Dev.setMove_keeps kp (Dev.setF_keeps kp hd)

theorem Dev.eachCol_keeps (kp : Keeps P) {d : Dev} (hd : P d) {c n : Nat} {f : Dev → Nat → Dev} (hf : ∀ y0 y1, P y0 →
    P (f y0 y1)) : P (Dev.eachCol d c n f) := by
  unfold Dev.eachCol
  with_reducible exact kp.foldl hd (fun _ _ k3 => hf _ _ k3)

theorem Dev.moveCol_keeps (kp : Keeps P) {d : Dev} (hd : P d) {r : Nat} {m : Move} {k : Nat} : P (Dev.moveCol d r m
    k) := by
  unfold Dev.moveCol
  lift_lets
  intro s t sc dc e d1 d2
  with_reducible have he : P e := kp.foldl hd (fun _ _ k4 => Dev.setTile_keeps kp k4)
  with_reducible have hd1 : P d1 := kp.ite (fun _ => hd) fun _ => Dev.setF_keeps kp (Dev.setF_keeps kp
                   (Dev.setF_keeps kp he))
  with_reducible have hd2 : P d2 := Dev.mapCol_keeps kp hd1
  with_reducible exact Dev.setCol_keeps kp (Dev.setCol_keeps kp (Dev.setF_keeps kp (Dev.setF_keeps kp hd2)))

theorem Dev.moveStaged_keeps (kp : Keeps P) {d : Dev} (hd : P d) {m : Move} : P (Dev.moveStaged d m) := by
  unfold Dev.moveStaged
  with_reducible exact Dev.eachCol_keeps kp hd (fun _ _ k2 => by
      lift_lets
      intro a
      with_reducible exact kp.ite (fun _ => k2) fun _ => Dev.put_keeps kp k2)

theorem Dev.moveStart_keeps (kp : Keeps P) {d : Dev} (hd : P d) {r : Nat} : P (Dev.moveStart d r) := by
  unfold Dev.moveStart
  lift_lets
  intro p m d1 d2 src d3
  with_reducible have hd1 : P d1 := Dev.setF_keeps kp (Dev.setF_keeps kp (Dev.setF_keeps kp (Dev.setF_keeps kp hd)))
  with_reducible have hd2 : P d2 := Dev.movePhase_keeps kp hd1
  with_reducible have hd3 : P d3 := kp.upd hd2
  with_reducible exact Dev.moveStaged_keeps kp (kp.foldl hd3 (fun _ _ k3 => Dev.moveCol_keeps kp k3))

theorem Dev.moveGo_keeps (kp : Keeps P) {d : Dev} (hd : P d) {r : Nat} : P (Dev.moveGo d r) := by
  unfold Dev.moveGo
  lift_lets
  intro p d1 src
  with_reducible have hd1 : P d1 := Dev.setF_keeps kp hd
  with_reducible exact kp.ite (fun _ => (kp.upd hd1)) fun _ => Dev.moveStart_keeps kp hd

theorem Dev.moveDeferred_keeps (kp : Keeps P) {d : Dev} (hd : P d) : P (Dev.moveDeferred d) := by
  unfold Dev.moveDeferred
  with_reducible exact kp.foldl hd (fun _ _ k2 => by
      lift_lets
      intro p sc e1 src
      with_reducible have he1 : P e1 := Dev.setF_keeps kp (Dev.setF_keeps kp k2)
      with_reducible exact kp.ite (fun _ => k2) fun _ => kp.ite (fun _ => (kp.upd he1)) fun _ => Dev.moveStart_keeps
                       kp k2)

theorem Dev.segNotice_keeps (kp : Keeps P) {d : Dev} (hd : P d) {r outcome w5 w6 w7 : Nat} : P (Dev.segNotice d r
    outcome w5 w6 w7) := by
  unfold Dev.segNotice
  lift_lets
  intro p d1
  with_reducible have hd1 : P d1 := kp.ite (fun _ => (Dev.count_keeps kp hd)) fun _ => hd
  with_reducible exact Dev.refreshHealth_keeps kp (Dev.raiseSev_keeps kp (Dev.setF_keeps kp hd1))

theorem Dev.moveDone_keeps (kp : Keeps P) {d : Dev} (hd : P d) {r outcome : Nat} {m : Move} : P (Dev.moveDone d r
    outcome m) := by
  unfold Dev.moveDone
  lift_lets
  intro p src d1 d2 w7
  with_reducible have hd1 : P d1 := kp.upd hd
  with_reducible have hd2 : P d2 := Dev.setF_keeps kp (Dev.setF_keeps kp (Dev.unwait_keeps kp (Dev.jobCancel_keeps kp
                   hd1)))
  with_reducible exact Dev.segNotice_keeps kp hd2

theorem Dev.colRepairStart_keeps (kp : Keeps P) {d : Dev} (hd : P d) {r c phys : Nat} : P (Dev.colRepairStart d r c
    phys) := by
  unfold Dev.colRepairStart
  lift_lets
  intro d1 src
  with_reducible have hd1 : P d1 := Dev.setCol_keeps kp hd
  with_reducible exact kp.upd hd1

theorem Dev.moveDstBack_keeps (kp : Keeps P) {d : Dev} (hd : P d) {m : Move} : P (Dev.moveDstBack d m) := by
  unfold Dev.moveDstBack
  with_reducible exact Dev.eachCol_keeps kp hd (fun _ _ k2 => kp.ite (fun _ => (by
      lift_lets
      intro e1
      with_reducible have he1 : P e1 := Dev.colHalt_keeps kp k2
      with_reducible exact Dev.mapCol_keeps kp he1)) fun _ => k2)

theorem Dev.moveSrcBack_keeps (kp : Keeps P) {d : Dev} (hd : P d) {r : Nat} {m : Move} : P (Dev.moveSrcBack d r m) :=
    by
  unfold Dev.moveSrcBack
  with_reducible exact Dev.eachCol_keeps kp hd (fun _ _ k2 => kp.ite (fun _ => k2) fun _ => by
      split
      · with_reducible exact Dev.colRepairStart_keeps kp k2
      · with_reducible exact Dev.setCol_keeps kp k2)

theorem Dev.moveAbort_keeps (kp : Keeps P) {d : Dev} (hd : P d) {r outcome : Nat} : P (Dev.moveAbort d r outcome) :=
    by
  unfold Dev.moveAbort
  split
  · with_reducible exact hd
  · with_reducible exact kp.ite (fun _ => (Dev.moveDeferred_keeps kp (Dev.moveDone_keeps kp (Dev.moveSrcBack_keeps kp
                     (Dev.moveDstBack_keeps kp hd))))) fun _ => hd

theorem Dev.moveCancel_keeps (kp : Keeps P) {d : Dev} (hd : P d) {r : Nat} : P (Dev.moveCancel d r) := by
  unfold Dev.moveCancel
  lift_lets
  intro p d0 d1 src
  with_reducible have hd0 : P d0 := Dev.setF_keeps kp hd
  with_reducible have hd1 : P d1 := Dev.setF_keeps kp (Dev.setF_keeps kp hd0)
  with_reducible exact kp.ite (fun _ => (kp.upd hd1)) fun _ => Dev.moveAbort_keeps kp hd0

theorem Dev.moveBind_keeps (kp : Keeps P) {d : Dev} (hd : P d) {r : Nat} {m : Move} : P (Dev.moveBind d r m) := by
  unfold Dev.moveBind
  lift_lets
  intro t
  split
  · rename_i w0 w1 w2
    have hw1 := Dev.svcBind_keeps kp hd _ w2
    with_reducible exact Dev.movePhase_keeps kp hw1
  · with_reducible exact Dev.svcWait_keeps kp (Dev.setMove_keeps kp hd)

theorem Dev.moveRetry_keeps (kp : Keeps P) {d : Dev} (hd : P d) {r : Nat} : P (Dev.moveRetry d r) := by
  unfold Dev.moveRetry
  split
  · with_reducible exact kp.ite (fun _ => (Dev.moveBind_keeps kp hd)) fun _ => Dev.unwait_keeps kp hd
  · with_reducible exact Dev.unwait_keeps kp hd

theorem Dev.moveNote_keeps (kp : Keeps P) {d : Dev} (hd : P d) {r : Nat} {m : Move} {isNew : Bool} {i : Nat} {outs :
    List (Nat × FlowWord)} : P (Dev.moveNote d r m isNew i outs) := by
  unfold Dev.moveNote
  with_reducible exact kp.ite (fun _ => (Dev.setMove_keeps kp hd)) fun _ => hd

theorem Dev.outsNote_keeps (kp : Keeps P) {d : Dev} (hd : P d) {r c row : Nat} {outs : List (Nat × FlowWord)} : P
    (Dev.outsNote d r c row outs) := by
  unfold Dev.outsNote
  exact kp.ite (fun _ => hd) fun _ => by
      split
      · with_reducible exact Dev.moveNote_keeps kp hd
      · with_reducible exact Dev.moveNote_keeps kp hd
      · with_reducible exact hd

theorem Dev.moveHzn_keeps (kp : Keeps P) {d : Dev} (hd : P d) {key : Nat} {m : Move} : P (Dev.moveHzn d key m) := by
  unfold Dev.moveHzn
  with_reducible exact kp.ite (fun _ => (Dev.movePhase_keeps kp hd)) fun _ => Dev.moveBind_keeps kp hd

theorem Dev.movePop_keeps (kp : Keeps P) {d : Dev} (hd : P d) {key : Nat} {m : Move} {ts : Nat} : P (Dev.movePop d
    key m ts) := by
  unfold Dev.movePop
  lift_lets
  intro first m1 d1
  with_reducible have hd1 : P d1 := kp.ite (fun _ => (Dev.movePhase_keeps kp hd)) fun _ => Dev.setMove_keeps kp hd
  with_reducible exact kp.ite (fun _ => (Dev.moveHzn_keeps kp hd1)) fun _ => hd1

theorem Dev.moveCompare_keeps (kp : Keeps P) {d : Dev} (hd : P d) {r : Nat} : P (Dev.moveCompare d r) := by
  unfold Dev.moveCompare
  split
  · with_reducible exact hd
  · lift_lets
    intro k m1 d1
    with_reducible have hd1 : P d1 := Dev.setMove_keeps kp (Dev.setF_keeps kp hd)
    with_reducible exact kp.ite (fun _ => (kp.ite (fun _ => (Dev.moveBind_keeps kp hd1)) fun _ => Dev.moveAbort_keeps
                     kp hd1)) fun _ => hd

theorem Dev.moveSilent_keeps (kp : Keeps P) {d : Dev} (hd : P d) {r : Nat} : P (Dev.moveSilent d r) := by
  unfold Dev.moveSilent
  split
  · with_reducible exact kp.ite (fun _ => (by
        split
        · with_reducible exact Dev.moveAbort_keeps kp (Dev.pass_keeps kp hd)
        · with_reducible exact hd)) fun _ => hd
  · with_reducible exact hd

theorem Dev.moveTimeout_keeps (kp : Keeps P) {d : Dev} (hd : P d) {r : Nat} : P (Dev.moveTimeout d r) := by
  unfold Dev.moveTimeout
  split
  · split
    · with_reducible exact kp.ite (fun _ => (Dev.moveAbort_keeps kp (Dev.pass_keeps kp hd))) fun _ => hd
    · with_reducible exact hd
  · with_reducible exact hd

theorem Dev.moveCopyTile_keeps (kp : Keeps P) {d : Dev} (hd : P d) {r i : Nat} : P (Dev.moveCopyTile d r i) := by
  unfold Dev.moveCopyTile
  lift_lets
  intro p
  split
  · with_reducible exact hd
  · lift_lets
    intro s L
    with_reducible exact kp.ite (fun _ => hd) fun _ => Dev.setMove_keeps kp (Dev.setTile_keeps kp hd)

theorem Dev.moveApply_keeps (kp : Keeps P) {d : Dev} (hd : P d) {r : Nat} : P (Dev.moveApply d r) := by
  unfold Dev.moveApply
  split
  · with_reducible exact hd
  · lift_lets
    intro t d1 src
    with_reducible have hd1 : P d1 := Dev.movePhase_keeps kp hd
    with_reducible exact kp.upd hd1

theorem Dev.moveMiss_keeps (kp : Keeps P) {d : Dev} (hd : P d) {r : Nat} : P (Dev.moveMiss d r) := by
  unfold Dev.moveMiss
  with_reducible exact Dev.moveAbort_keeps kp hd

theorem Dev.flushTile_keeps (kp : Keeps P) {d : Dev} (hd : P d) {L n : Nat} {keep : Nat → Bool} : P (Dev.flushTile d
    L n keep) := by
  unfold Dev.flushTile
  lift_lets
  intro t d0 d1
  with_reducible have hd0 : P d0 := kp.foldl hd (fun _ _ k4 => kp.ite (fun _ => (Dev.pushFlow_keeps kp k4)) fun _ =>
                   k4)
  with_reducible have hd1 : P d1 := kp.foldl hd0 (fun _ _ k4 => kp.ite (fun _ => (Dev.pushFlow_keeps kp k4)) fun _ =>
                   k4)
  with_reducible exact Dev.setTile_keeps kp hd1

theorem Dev.flushCol_keeps (kp : Keeps P) {d : Dev} (hd : P d) {r c : Nat} : P (Dev.flushCol d r c) := by
  unfold Dev.flushCol
  with_reducible exact kp.foldl hd (fun _ _ k2 => Dev.flushTile_keeps kp k2)

theorem Dev.haltColumn_keeps (kp : Keeps P) {d : Dev} (hd : P d) {r c : Nat} : P (Dev.haltColumn d r c) := by
  unfold Dev.haltColumn
  with_reducible exact kp.ite (fun _ => (Dev.raise_keeps kp (Dev.setRun_keeps kp (Dev.setCol_keeps kp
                   (Dev.colStop_keeps kp hd))))) fun _ => hd

theorem Dev.moveSrcEnd_keeps (kp : Keeps P) {d : Dev} (hd : P d) {r c : Nat} : P (Dev.moveSrcEnd d r c) := by
  unfold Dev.moveSrcEnd
  lift_lets
  intro d1
  with_reducible have hd1 : P d1 := Dev.setRun_keeps kp (Dev.flushCol_keeps kp hd)
  with_reducible exact kp.ite (fun _ => (Dev.colHalt_keeps kp hd1)) fun _ => hd1

theorem Dev.moveDstEnd_keeps (kp : Keeps P) {d : Dev} (hd : P d) {m : Move} {c : Nat} : P (Dev.moveDstEnd d m c) := by
  unfold Dev.moveDstEnd
  lift_lets
  intro r
  with_reducible exact kp.ite (fun _ => hd) fun _ => Dev.setF_keeps kp (Dev.setRun_keeps kp (Dev.setCol_keeps kp hd))

theorem Dev.moveFinish_keeps (kp : Keeps P) {d : Dev} (hd : P d) {r : Nat} : P (Dev.moveFinish d r) := by
  unfold Dev.moveFinish
  split
  · with_reducible exact hd
  · lift_lets
    intro d1 d2 src d3 d4
    with_reducible have hd1 : P d1 := kp.ite (fun _ => (kp.foldl hd (fun _ _ k2 => Dev.moveCopyTile_keeps kp k2)))
                     fun _ => hd
    with_reducible have hd2 : P d2 := Dev.eachCol_keeps kp hd1 (fun _ _ k2 => Dev.moveSrcEnd_keeps kp k2)
    with_reducible have hd3 : P d3 := kp.upd hd2
    with_reducible have hd4 : P d4 := Dev.eachCol_keeps kp hd3 (fun _ _ k2 => Dev.moveDstEnd_keeps kp k2)
    with_reducible exact kp.ite (fun _ => (Dev.moveDeferred_keeps kp (Dev.moveDone_keeps kp hd4))) fun _ => hd

theorem Dev.moveDrainEnd_keeps (kp : Keeps P) {d : Dev} (hd : P d) {r : Nat} : P (Dev.moveDrainEnd d r) := by
  unfold Dev.moveDrainEnd
  split
  · with_reducible exact hd
  · with_reducible exact kp.ite (fun _ => (Dev.moveFinish_keeps kp hd)) fun _ => hd

theorem Dev.colFail_keeps (kp : Keeps P) {d : Dev} (hd : P d) {r c row : Nat} {det : TileDetector} : P (Dev.colFail d
    r c row det) := by
  unfold Dev.colFail
  lift_lets
  intro p ph d1 d2 d3
  with_reducible have hd1 : P d1 := Dev.setCol_keeps kp (Dev.colStop_keeps kp (Dev.flushCol_keeps kp hd))
  with_reducible have hd2 : P d2 := Dev.setF_keeps kp hd1
  with_reducible have hd3 : P d3 := Dev.setReg_keeps kp hd2
  with_reducible exact Dev.raiseH_keeps kp hd3

theorem Dev.takeSpare_keeps (kp : Keeps P) {d : Dev} (hd : P d) {r c : Nat} : P (Dev.takeSpare d r c).1 := by
  unfold Dev.takeSpare
  lift_lets
  intro p d1 d1_1
  with_reducible have hd1 : P d1 := Dev.setF_keeps kp (Dev.setF_keeps kp (Dev.setF_keeps kp hd))
  with_reducible have hd1_1 : P d1_1 := kp.ite (fun _ => (Dev.setF_keeps kp hd)) fun _ => hd
  with_reducible exact kp.ite_fst (fun _ => (Dev.raiseH_keeps kp hd1)) fun _ => Dev.raiseH_keeps kp hd1_1

theorem Dev.moveSrcFails_keeps (kp : Keeps P) {d : Dev} (hd : P d) {r c ph : Nat} {m : Move} {spare : Bool} : P
    (Dev.moveSrcFails d r c ph m spare) := by
  unfold Dev.moveSrcFails
  lift_lets
  intro m1 d1
  with_reducible have hd1 : P d1 := kp.ite (fun _ => (Dev.setCol_keeps kp hd)) fun _ => hd
  with_reducible exact kp.ite (fun _ => (Dev.moveBind_keeps kp hd1)) fun _ => Dev.setMove_keeps kp hd1

theorem Dev.moveDstFails_keeps (kp : Keeps P) {d : Dev} (hd : P d) {r c key : Nat} {spare : Bool} : P
    (Dev.moveDstFails d r c key spare) := by
  unfold Dev.moveDstFails
  lift_lets
  intro d1
  with_reducible have hd1 : P d1 := Dev.moveAbort_keeps kp hd
  with_reducible exact kp.ite (fun _ => (Dev.setRun_keeps kp (Dev.setCol_keeps kp hd1))) fun _ => hd1

theorem Dev.colRepairLost_keeps (kp : Keeps P) {d : Dev} (hd : P d) {r c w7 : Nat} : P (Dev.colRepairLost d r c w7)
    := by
  unfold Dev.colRepairLost
  lift_lets
  intro d1 src d2
  with_reducible have hd1 : P d1 := Dev.unwait_keeps kp (Dev.jobCancel_keeps kp hd)
  with_reducible have hd2 : P d2 := kp.upd hd1
  split
  · with_reducible exact hd
  · with_reducible exact Dev.moveDeferred_keeps kp (Dev.segNotice_keeps kp (Dev.setCol_keeps kp hd2))

theorem Dev.failFollow_keeps (kp : Keeps P) {d : Dev} (hd : P d) {r c ph : Nat} {spare : Bool} : P (Dev.failFollow d
    r c ph spare) := by
  unfold Dev.failFollow
  split
  · with_reducible exact Dev.moveDstFails_keeps kp hd
  · with_reducible exact Dev.moveSrcFails_keeps kp hd
  · with_reducible exact kp.ite (fun _ => (Dev.colRepairStart_keeps kp hd)) fun _ => hd

theorem Dev.tileFail_keeps (kp : Keeps P) {d : Dev} (hd : P d) {t : Nat} {det : TileDetector} : P (Dev.tileFail d t
    det) := by
  unfold Dev.tileFail
  lift_lets
  intro r c d0 ph d1 s
  have hd0 : P d0 := by
      unfold d0
      split
      · with_reducible exact kp.ite (fun _ => (Dev.moveFinish_keeps kp hd)) fun _ => hd
      · with_reducible exact hd
  with_reducible have hd1 : P d1 := Dev.colFail_keeps kp (Dev.colRepairLost_keeps kp hd0)
  with_reducible have hs : P s.1 := Dev.takeSpare_keeps kp hd1
  with_reducible exact kp.ite (fun _ => hd) fun _ => Dev.failFollow_keeps kp hs

theorem Dev.rowWalk_keeps (kp : Keeps P) {d : Dev} (hd : P d) {r p row : Nat} {mem : TileMem} {e : EccEvent} : P
    (Dev.rowWalk d r p row mem e) := by
  unfold Dev.rowWalk
  lift_lets
  intro L x go u src d1
  with_reducible have hgo : ∀ y0 y1 y2, P (go y0 y1 y2) := fun _ _ _ => Dev.tileDone_keeps kp hd
  with_reducible have hd1 : P d1 := Dev.tileDone_keeps kp hd
  split
  · with_reducible exact hgo _ _ _
  · with_reducible exact hgo _ _ _
  · with_reducible exact kp.ite (fun _ => (by
        split
        · with_reducible exact Dev.tileFail_keeps kp hd1
        · with_reducible exact hd1)) fun _ => hd1

theorem Dev.colCopy_keeps (kp : Keeps P) {d : Dev} (hd : P d) {r ph : Nat} {rows : List (Nat × Nat × Nat × Nat)} : P
    (Dev.colCopy d r ph rows) := by
  unfold Dev.colCopy
  lift_lets
  intro d1
  with_reducible have hd1 : P d1 := kp.foldl hd (fun _ _ k2 => Dev.setTile_keeps kp k2)
  with_reducible exact kp.foldl hd1 (fun _ _ k2 => Dev.setTile_keeps kp k2)

theorem Dev.colRepairBind_keeps (kp : Keeps P) {d : Dev} (hd : P d) {r c : Nat} {x : ColRepair} : P
    (Dev.colRepairBind d r c x) := by
  unfold Dev.colRepairBind
  lift_lets
  intro t src d1
  with_reducible have hd1 : P d1 := kp.upd hd
  split
  · rename_i w0 w1 w2
    have hw1 := Dev.svcBind_keeps kp hd1 _ w2
    with_reducible exact hw1
  · with_reducible exact Dev.svcWait_keeps kp hd1

theorem Dev.colRepairRetry_keeps (kp : Keeps P) {d : Dev} (hd : P d) {k : Nat} : P (Dev.colRepairRetry d k) := by
  unfold Dev.colRepairRetry
  split
  · with_reducible exact kp.ite (fun _ => (Dev.colRepairBind_keeps kp hd)) fun _ => hd
  · with_reducible exact Dev.unwait_keeps kp hd

theorem Dev.colRepairApply_keeps (kp : Keeps P) {d : Dev} (hd : P d) {k : Nat} : P (Dev.colRepairApply d k) := by
  unfold Dev.colRepairApply
  lift_lets
  intro r c src d1 d2 d3 src_1
  with_reducible have hd1 : P d1 := kp.upd hd
  with_reducible have hd2 : P d2 := Dev.colStart_keeps kp hd1
  with_reducible have hd3 : P d3 := kp.ite (fun _ => hd2) fun _ => Dev.setCol_keeps kp hd2
  split
  · with_reducible exact hd
  · lift_lets
    intro d4
    with_reducible have hd4 : P d4 := kp.upd hd3
    with_reducible exact Dev.moveDeferred_keeps kp (Dev.segNotice_keeps kp hd4)

theorem Dev.stallAt_keeps (kp : Keeps P) {d : Dev} (hd : P d) {x : TSite} {s : Stall} : P (Dev.stallAt d x s) := by
  unfold Dev.stallAt
  lift_lets
  intro src
  with_reducible exact Dev.setTile_keeps kp hd

theorem Dev.popCopy_keeps (kp : Keeps P) {d : Dev} (hd : P d) {x : TSite} : P (Dev.popCopy d x) := by
  unfold Dev.popCopy
  split
  · with_reducible exact kp.ite (fun _ => (Dev.moveCopyTile_keeps kp hd)) fun _ => hd
  · with_reducible exact hd

theorem Dev.leadPop_keeps (kp : Keeps P) {d : Dev} (hd : P d) {x : TSite} {pop : Option Nat} : P (Dev.leadPop d x
    pop) := by
  unfold Dev.leadPop
  split
  · with_reducible exact kp.ite (fun _ => (Dev.movePop_keeps kp hd)) fun _ => hd
  · with_reducible exact hd

theorem Dev.siteDone_keeps (kp : Keeps P) {d : Dev} (hd : P d) {x : TSite} {w : TW} : P (Dev.siteDone d x w) := by
  unfold Dev.siteDone
  lift_lets
  intro src
  with_reducible exact Dev.outsNote_keeps kp (Dev.leadPop_keeps kp (Dev.tileDone_keeps kp hd))

theorem Dev.release_keeps (kp : Keeps P) {d : Dev} (hd : P d) {x : TSite} : P (Dev.release d x) := by
  unfold Dev.release
  lift_lets
  intro L l src
  with_reducible exact kp.ite (fun _ => hd) fun _ => kp.ite (fun _ => (Dev.setTile_keeps kp hd)) fun _ => hd

theorem Dev.macRun_keeps (kp : Keeps P) {d : Dev} (hd : P d) {x : TSite} {w : Nat} {cas : Cas} {ecc : MacEcc} : P
    (Dev.macRun d x w cas ecc) := by
  unfold Dev.macRun
  with_reducible exact Dev.siteDone_keeps kp hd

theorem Dev.macCas_keeps (kp : Keeps P) {d : Dev} (hd : P d) {x : TSite} {w : Nat} {ecc : MacEcc} : P (Dev.macCas d x
    w ecc) := by
  unfold Dev.macCas
  with_reducible exact kp.ite (fun _ => (by
      split
      · with_reducible exact Dev.release_keeps kp (Dev.macRun_keeps kp hd)
      · with_reducible exact Dev.stallAt_keeps kp hd)) fun _ => Dev.macRun_keeps kp hd

theorem Dev.macGo_keeps (kp : Keeps P) {d : Dev} (hd : P d) {x : TSite} {w : Nat} {ecc : MacEcc} : P (Dev.macGo d x w
    ecc) := by
  unfold Dev.macGo
  exact kp.ite (fun _ => (Dev.stallAt_keeps kp (kp.ite (fun _ => (Dev.popCopy_keeps kp hd)) fun _ => hd))) fun _ => by
      split
      · with_reducible exact kp.ite (fun _ => (Dev.stallAt_keeps kp hd)) fun _ => Dev.macCas_keeps kp hd
      · with_reducible exact Dev.macCas_keeps kp hd

theorem Dev.macExec_keeps (kp : Keeps P) {d : Dev} (hd : P d) {t aop : Nat} {ecc : MacEcc} : P (Dev.macExec d t aop
    ecc) := by
  unfold Dev.macExec
  lift_lets
  intro x
  with_reducible exact kp.ite (fun _ => (Dev.macGo_keeps kp (Dev.trimInputs_keeps kp hd))) fun _ => hd

theorem Dev.moveExec_keeps (kp : Keeps P) {d : Dev} (hd : P d) {t op : Nat} {f : Nat → Tile → Tile} : P (Dev.moveExec
    d t op f) := by
  unfold Dev.moveExec
  lift_lets
  intro x
  with_reducible exact kp.ite (fun _ => (Dev.siteDone_keeps kp hd)) fun _ => hd

theorem Dev.ctlExec_keeps (kp : Keeps P) {d : Dev} (hd : P d) {t op : Nat} {f : Dev → TSite → Nat → Dev} (hf : ∀ y0
    y1 y2, P y0 → P (f y0 y1 y2)) : P (Dev.ctlExec d t op f) := by
  unfold Dev.ctlExec
  lift_lets
  intro x
  with_reducible exact kp.ite (fun _ => (hf _ _ _ hd)) fun _ => hd

theorem Dev.ctlDone_keeps (kp : Keeps P) {d : Dev} (hd : P d) {x : TSite} {t : Tile} : P (Dev.ctlDone d x t) := by
  unfold Dev.ctlDone
  with_reducible exact Dev.siteDone_keeps kp hd

theorem Dev.mergeResume_keeps (kp : Keeps P) {d : Dev} (hd : P d) {r c : Nat} : P (Dev.mergeResume d r c) := by
  unfold Dev.mergeResume
  lift_lets
  intro p rows cb bsh rst cbsh d1 d2
  with_reducible have hd1 : P d1 := Dev.setF_keeps kp (Dev.setF_keeps kp (Dev.setF_keeps kp hd))
  with_reducible have hd2 : P d2 := kp.foldl hd1 (fun _ _ k2 => by
      lift_lets
      intro t src
      with_reducible exact Dev.setTile_keeps kp k2)
  with_reducible exact kp.ite (fun _ => (Dev.colMerge_keeps kp hd2)) fun _ => hd

theorem Dev.perrColumn_keeps (kp : Keeps P) {d : Dev} (hd : P d) {r c : Nat} : P (Dev.perrColumn d r c) := by
  unfold Dev.perrColumn
  with_reducible exact Dev.setRun_keeps kp (Dev.colHalt_keeps kp hd)

theorem Dev.programError_keeps (kp : Keeps P) {d : Dev} (hd : P d) {t : Nat} : P (Dev.programError d t) := by
  unfold Dev.programError
  lift_lets
  intro x u reason info d1
  with_reducible have hd1 : P d1 := Dev.perrColumn_keeps kp (Dev.setTile_keeps kp hd)
  with_reducible exact kp.ite (fun _ => (Dev.raise_keeps kp (Dev.count_keeps kp hd1))) fun _ => hd

theorem Dev.winRefuse_keeps (kp : Keeps P) {d : Dev} (hd : P d) {src : Source} {r c row off cause : Nat} {v : Word} :
    P (Dev.winRefuse d src r c row off cause v) := by
  unfold Dev.winRefuse
  lift_lets
  intro p
  with_reducible exact Dev.refuse_keeps kp (Dev.setReg_keeps kp hd)

theorem Dev.winDescErr_keeps (kp : Keeps P) {d : Dev} (hd : P d) {r L off : Nat} {v : Word} : P (Dev.winDescErr d r L
    off v) := by
  unfold Dev.winDescErr
  split
  · lift_lets
    intro reason
    with_reducible exact kp.ite (fun _ => hd) fun _ => Dev.descErr_keeps kp hd
  · with_reducible exact hd

theorem Dev.winStore_keeps (kp : Keeps P) {d : Dev} (hd : P d) {r c row off : Nat} {v : Word} {e : EccEvent} :
    P (d.winStore r c row off v e) := by
  unfold Dev.winStore
  dsimp only
  split
  · exact kp.ite (fun _ => hd) fun _ => Dev.lenRequest_keeps kp hd
  · split
    · exact kp.ite (fun _ => Dev.tileDone_keeps kp (Dev.tileDone_keeps kp hd)) fun _ => Dev.tileDone_keeps kp hd
    · exact Dev.tileDone_keeps kp hd

theorem Dev.winAccess_keeps (kp : Keeps P) {d : Dev} (hd : P d) {src : Source} {t off : Nat} {v : Word} {e : EccEvent}
    {bind : Bool} : P (Dev.winAccess d src t off v e bind) := by
  unfold Dev.winAccess
  lift_lets
  intro r c row
  with_reducible exact (kp.ite (fun _ => hd) fun _ => (by
          split
          · lift_lets
            intro d1
            with_reducible have hd1 : P d1 := kp.ite (fun _ => (Dev.winDescErr_keeps kp hd)) fun _ => hd
            with_reducible exact Dev.winRefuse_keeps kp hd1
          · with_reducible exact (Dev.winStore_keeps kp hd)))

theorem Dev.winTouch_keeps (kp : Keeps P) {d : Dev} (hd : P d) {L off : Nat} : P (Dev.winTouch d L off) := by
  unfold Dev.winTouch
  lift_lets
  intro src
  with_reducible exact kp.ite (fun _ => (Dev.setTile_keeps kp hd)) fun _ => hd

theorem Dev.winReads_keeps (kp : Keeps P) {d : Dev} (hd : P d) {t off : Nat} : P (Dev.winReads d t off) := by
  unfold Dev.winReads
  lift_lets
  intro r
  with_reducible exact kp.ite (fun _ => hd) fun _ => Dev.winTouch_keeps kp hd

theorem Dev.tregBlockNote_keeps (kp : Keeps P) {d : Dev} (hd : P d) {r off : Nat} {new : Word} : P (Dev.tregBlockNote
    d r off new) := by
  unfold Dev.tregBlockNote
  lift_lets
  intro e
  with_reducible exact kp.ite (fun _ => (Dev.descErr_keeps kp hd)) fun _ => hd

theorem Dev.colCtl_keeps (kp : Keeps P) {d : Dev} (hd : P d) {r c : Nat} {old new : Word} : P (Dev.colCtl d r c old
    new) := by
  unfold Dev.colCtl
  lift_lets
  intro st was runs
  with_reducible exact kp.ite (fun _ => (Dev.setRun_keeps kp hd)) fun _ => kp.ite (fun _ => (Dev.colStart_keeps kp
                   hd)) fun _ => kp.ite (fun _ => (Dev.colHalt_keeps kp hd)) fun _ => hd

theorem Dev.lenChg_keeps (kp : Keeps P) {d : Dev} (hd : P d) {r i : Nat} {new : Word} : P (Dev.lenChg d r i new) := by
  unfold Dev.lenChg
  lift_lets
  intro e p d1
  with_reducible have hd1 : P d1 := Dev.setF_keeps kp (Dev.setF_keeps kp hd)
  with_reducible exact Dev.lenRequest_keeps kp hd1

theorem Dev.moveCtl_keeps (kp : Keeps P) {d : Dev} (hd : P d) {r : Nat} {old new : Word} : P (Dev.moveCtl d r old
    new) := by
  unfold Dev.moveCtl
  lift_lets
  intro d1
  with_reducible have hd1 : P d1 := kp.ite (fun _ => (Dev.moveGo_keeps kp hd)) fun _ => hd
  with_reducible exact kp.ite (fun _ => (Dev.moveCancel_keeps kp hd1)) fun _ => hd1

theorem Dev.tregLive_keeps (kp : Keeps P) {d : Dev} (hd : P d) {r off : Nat} {old new : Word} : P (Dev.tregLive d r
    off old new) := by
  unfold Dev.tregLive
  lift_lets
  intro p L
  with_reducible exact kp.ite (fun _ => (Dev.colCtl_keeps kp hd)) fun _ => kp.ite (fun _ => (kp.ite (fun _ =>
                   (Dev.lenChg_keeps kp hd)) fun _ => hd)) fun _ => kp.ite (fun _ => (Dev.tileDone_keeps kp
                   (Dev.put_keeps kp hd))) fun _ => kp.ite (fun _ => (kp.ite (fun _ => (Dev.clockRuns_keeps kp hd))
                   fun _ => hd)) fun _ => kp.ite (fun _ => (Dev.moveCtl_keeps kp hd)) fun _ => hd

theorem Dev.movesLeave_keeps (kp : Keeps P) {d : Dev} (hd : P d) {r : Nat} : P (Dev.movesLeave d r) := by
  unfold Dev.movesLeave
  with_reducible exact kp.foldl hd (fun _ _ k2 => kp.ite (fun _ => (kp.ite (fun _ => (Dev.moveAbort_keeps kp
                   (Dev.jobLeave_keeps kp k2))) fun _ => Dev.moveFinish_keeps kp k2)) fun _ => k2)

theorem Dev.repairsLeave_keeps (kp : Keeps P) {d : Dev} (hd : P d) {r : Nat} : P (Dev.repairsLeave d r) := by
  unfold Dev.repairsLeave
  with_reducible exact kp.foldl hd (fun _ _ k2 => Dev.jobLeave_keeps kp k2)

theorem Dev.colsHalt_keeps (kp : Keeps P) {d : Dev} (hd : P d) {r : Nat} {failed : Bool} : P (Dev.colsHalt d r
    failed) := by
  unfold Dev.colsHalt
  with_reducible exact kp.foldl hd (fun _ _ k2 => by
      lift_lets
      intro e1
      with_reducible have he1 : P e1 := Dev.colRepairLost_keeps kp k2
      with_reducible exact kp.ite (fun _ => he1) fun _ => Dev.colHalt_keeps kp he1)

theorem Dev.tregReset_keeps (kp : Keeps P) {d : Dev} (hd : P d) {r : Nat} : P (Dev.tregReset d r) := by
  unfold Dev.tregReset
  lift_lets
  intro p d1 keep d2
  with_reducible have hd1 : P d1 := Dev.colsHalt_keeps kp (Dev.repairsLeave_keeps kp (Dev.movesLeave_keeps kp hd))
  with_reducible have hd2 : P d2 := Dev.setF_keeps kp (Dev.resetPage_keeps kp hd1)
  with_reducible exact kp.foldl hd2 (fun _ _ k3 => Dev.setF_keeps kp (Dev.setF_keeps kp (Dev.setF_keeps kp k3)))

theorem Dev.tregPower_keeps (kp : Keeps P) {d : Dev} (hd : P d) {r st : Nat} : P (Dev.tregPower d r st) := by
  unfold Dev.tregPower
  lift_lets
  intro p all
  with_reducible have hall : ∀ y0 y1, P y0 → P (all y0 y1) := fun _ _ q0 => kp.foldl q0 (fun _ _ k2 =>
                   Dev.mapCol_keeps kp k2)
  with_reducible exact kp.ite (fun _ => (Dev.setF_keeps kp hd)) fun _ => kp.ite (fun _ => (hall _ _
                   (Dev.colsHalt_keeps kp hd))) fun _ => kp.ite (fun _ => (hall _ _ (Dev.colsHalt_keeps kp hd))) fun
                   _ => Dev.setF_keeps kp hd

end Sys2Proof.Machine
end

