-- ==== Sys2Proof/Laws/KeepsFlow.lean ====
section
/-! SUPPORT. What every operation keeps: outputs, the causeway, frame memory, cells and time. -/

namespace Sys2Proof.Machine

open Sys2Proof

variable {P : Dev → Prop}

theorem Dev.setRoute_keeps (kp : Keeps P) {d : Dev} (hd : P d) {f : Nat} {w : Word} : P (Dev.setRoute d f w) := by
  unfold Dev.setRoute
  lift_lets
  intro src
  with_reducible exact kp.updCw hd rfl rfl

theorem Dev.portFlowLive_keeps (kp : Keeps P) {d : Dev} (hd : P d) {i : Nat} {via : Via} {old : Word} : P
    (Dev.portFlowLive d i via old) := by
  unfold Dev.portFlowLive
  lift_lets
  intro src
  with_reducible exact Dev.setPort_keeps kp hd

theorem Dev.cwayLive_keeps (kp : Keeps P) {d : Dev} (hd : P d) {off : Nat} {via : Via} {old new : Word} : P
    (Dev.cwayLive d off via old new) := by
  unfold Dev.cwayLive
  with_reducible exact kp.ite (fun _ => (Dev.put_keeps kp (Dev.setRoute_keeps kp hd))) fun _ => kp.ite (fun _ =>
                   (kp.ite (fun _ => hd) fun _ => Dev.portFlowLive_keeps kp hd)) fun _ => hd

theorem Dev.cwayReset_keeps (kp : Keeps P) {d : Dev} (hd : P d) : P (Dev.cwayReset d) := by
  unfold Dev.cwayReset
  lift_lets
  intro d1 src
  with_reducible have hd1 : P d1 := Dev.resetPage_keeps kp hd
  with_reducible exact kp.updCw hd1 rfl rfl

theorem Dev.portRx_keeps (kp : Keeps P) {d : Dev} (hd : P d) {i : Nat} {w : FlowWord} : P (Dev.portRx d i w) := by
  unfold Dev.portRx
  lift_lets
  intro src
  with_reducible exact kp.ite (fun _ => (Dev.setPort_keeps kp hd)) fun _ => hd

theorem Dev.fetchDone_keeps (kp : Keeps P) {d : Dev} (hd : P d) {i n : Nat} : P (Dev.fetchDone d i n) := by
  unfold Dev.fetchDone
  lift_lets
  intro t sf s
  with_reducible exact Dev.setPort_keeps kp hd

theorem Dev.startRamp_keeps (kp : Keeps P) {d : Dev} (hd : P d) {i seq n : Nat} : P (Dev.startRamp d i seq n) := by
  unfold Dev.startRamp
  lift_lets
  intro src
  with_reducible exact Dev.setPort_keeps kp (Dev.setSeq_keeps kp hd)

theorem Dev.rampStep_keeps (kp : Keeps P) {d : Dev} (hd : P d) {i : Nat} {up : Bool} : P (Dev.rampStep d i up) := by
  unfold Dev.rampStep
  lift_lets
  intro s g d1 src
  with_reducible have hd1 : P d1 := Dev.setGain_keeps kp hd
  with_reducible exact Dev.setPort_keeps kp hd1

theorem Dev.seqStart_keeps (kp : Keeps P) {d : Dev} (hd : P d) {i n : Nat} : P (Dev.seqStart d i n) := by
  unfold Dev.seqStart
  lift_lets
  intro s stops d1 src d1_1 src_1
  with_reducible have hd1 : P d1 := Dev.startRamp_keeps kp hd
  with_reducible have hd1_1 : P d1_1 := Dev.startRamp_keeps kp hd
  with_reducible exact kp.ite (fun _ => (kp.ite (fun _ => hd) fun _ => Dev.setPort_keeps kp hd1)) fun _ => kp.ite
                   (fun _ => (Dev.setPort_keeps kp hd1_1)) fun _ => hd

theorem Dev.seqStep_keeps (kp : Keeps P) {d : Dev} (hd : P d) {i : Nat} : P (Dev.seqStep d i) := by
  unfold Dev.seqStep
  lift_lets
  intro d1 d2 src src_1 d2_1 src_2
  with_reducible have hd1 : P d1 := Dev.rampStep_keeps kp hd
  with_reducible have hd2 : P d2 := Dev.setSeq_keeps kp hd1
  with_reducible have hd2_1 : P d2_1 := kp.ite (fun _ => hd1) fun _ => Dev.setSeq_keeps kp hd1
  split
  · with_reducible exact kp.ite (fun _ => (kp.ite (fun _ => (Dev.setPort_keeps kp (Dev.suspendEnd_keeps kp hd2))) fun
                     _ => hd2)) fun _ => hd1
  · with_reducible exact Dev.setGain_keeps kp hd
  · with_reducible exact Dev.rampStep_keeps kp hd
  · with_reducible exact Dev.setPort_keeps kp (Dev.setGain_keeps kp hd)
  · with_reducible exact kp.ite (fun _ => (kp.ite (fun _ => (Dev.setPort_keeps kp (Dev.suspendEnd_keeps kp hd2_1)))
                     fun _ => hd2_1)) fun _ => hd1
  · with_reducible exact Dev.setGain_keeps kp hd

theorem Dev.unmute_keeps (kp : Keeps P) {d : Dev} (hd : P d) {i t : Nat} : P (Dev.unmute d i t) := by
  unfold Dev.unmute
  lift_lets
  intro d1 d2
  with_reducible have hd1 : P d1 := Dev.startRamp_keeps kp hd
  with_reducible have hd2 : P d2 := kp.ite (fun _ => (Dev.setSt_keeps kp hd1)) fun _ => hd1
  with_reducible exact Dev.raiseAt_keeps kp hd2

theorem Dev.underrun_keeps (kp : Keeps P) {d : Dev} (hd : P d) {i t : Nat} : P (Dev.underrun d i t) := by
  unfold Dev.underrun
  lift_lets
  intro q d1 ok src
  with_reducible have hd1 : P d1 := Dev.count_keeps kp hd
  with_reducible exact kp.ite (fun _ => (Dev.raiseAt_keeps kp (Dev.setPort_keeps kp hd1))) fun _ => hd1

theorem Dev.driveSample_keeps (kp : Keeps P) {d : Dev} (hd : P d) {i n t : Nat} {f : Fetched} : P (Dev.driveSample d
    i n t f) := by
  unfold Dev.driveSample
  lift_lets
  intro q s v mute g mode span x drive pin
  with_reducible exact Dev.send_keeps kp hd

theorem Dev.suspRefresh_keeps (kp : Keeps P) {d : Dev} (hd : P d) {i : Nat} : P (Dev.suspRefresh d i) := by
  unfold Dev.suspRefresh
  lift_lets
  intro q s st cause
  with_reducible exact kp.ite (fun _ => (Dev.setF_keeps kp hd)) fun _ => hd

theorem Dev.fetchNote_keeps (kp : Keeps P) {d : Dev} (hd : P d) {i t : Nat} {f : Fetched} : P (Dev.fetchNote d i t f)
    := by
  unfold Dev.fetchNote
  split
  · with_reducible exact kp.ite (fun _ => (Dev.underrun_keeps kp hd)) fun _ => hd
  · with_reducible exact hd

theorem Dev.outRotFollow_keeps (kp : Keeps P) {d : Dev} (hd : P d) {i n : Nat} : P (Dev.outRotFollow d i n) := by
  unfold Dev.outRotFollow
  split
  · with_reducible exact Dev.rotFollow_keeps kp hd
  · with_reducible exact hd

theorem Dev.outputFetch_keeps (kp : Keeps P) {d : Dev} (hd : P d) {i : Nat} : P (Dev.outputFetch d i) := by
  unfold Dev.outputFetch
  lift_lets
  intro q s n t d1 f d2 d3 d4 d5
  with_reducible have hd1 : P d1 := Dev.reach_keeps kp hd
  with_reducible have hd2 : P d2 := Dev.fetchDone_keeps kp hd1
  with_reducible have hd3 : P d3 := Dev.fetchNote_keeps kp hd2
  with_reducible have hd4 : P d4 := kp.ite (fun _ => (Dev.unmute_keeps kp hd3)) fun _ => Dev.seqStart_keeps kp hd3
  with_reducible have hd5 : P d5 := Dev.suspRefresh_keeps kp (Dev.driveSample_keeps kp (Dev.seqStep_keeps kp hd4))
  with_reducible exact kp.ite (fun _ => (kp.ite (fun _ => (Dev.outRotFollow_keeps kp hd5)) fun _ => hd5)) fun _ => hd

theorem Dev.holdBegin_keeps (kp : Keeps P) {d : Dev} (hd : P d) {i : Nat} : P (Dev.holdBegin d i) := by
  unfold Dev.holdBegin
  lift_lets
  intro d1 src d2
  with_reducible have hd1 : P d1 := Dev.suspend_keeps kp (Dev.setSeq_keeps kp (Dev.setGain_keeps kp hd))
  with_reducible have hd2 : P d2 := Dev.setPort_keeps kp hd1
  with_reducible exact Dev.stageTakes_keeps kp hd2

theorem Dev.spanHoldStart_keeps (kp : Keeps P) {d : Dev} (hd : P d) {i : Nat} : P (Dev.spanHoldStart d i) := by
  unfold Dev.spanHoldStart
  lift_lets
  intro s
  with_reducible exact kp.ite (fun _ => (Dev.holdBegin_keeps kp hd)) fun _ => hd

theorem Dev.spanHoldEnd_keeps (kp : Keeps P) {d : Dev} (hd : P d) {i : Nat} : P (Dev.spanHoldEnd d i) := by
  unfold Dev.spanHoldEnd
  lift_lets
  intro q s st d0 src
  with_reducible have hd0 : P d0 := Dev.stageTakes_keeps kp (Dev.pass_keeps kp hd)
  with_reducible exact kp.ite (fun _ => (kp.ite (fun _ => (kp.ite (fun _ => (Dev.startRamp_keeps kp
                   (Dev.suspendEnd_keeps kp (Dev.stageTakes_keeps kp hd)))) fun _ => hd)) fun _ => Dev.setSeq_keeps
                   kp (Dev.suspendEnd_keeps kp (Dev.setPort_keeps kp hd0)))) fun _ => hd

theorem Dev.spanDone_keeps (kp : Keeps P) {d : Dev} (hd : P d) {i : Nat} : P (Dev.spanDone d i) := by
  unfold Dev.spanDone
  lift_lets
  intro q s d1 src
  with_reducible have hd1 : P d1 := Dev.count_keeps kp (Dev.setSeq_keeps kp hd)
  with_reducible exact kp.ite (fun _ => (Dev.raiseAt_keeps kp (Dev.setPort_keeps kp hd1))) fun _ => hd

theorem Dev.spanChange_keeps (kp : Keeps P) {d : Dev} (hd : P d) {i instant : Nat} : P (Dev.spanChange d i instant)
    := by
  unfold Dev.spanChange
  lift_lets
  intro q st s d1
  with_reducible have hd1 : P d1 := Dev.setPort_keeps kp hd
  with_reducible exact kp.ite (fun _ => (Dev.stageTakes_keeps kp hd)) fun _ => kp.ite (fun _ => (Dev.stageTakes_keeps
                   kp hd1)) fun _ => kp.ite (fun _ => hd1) fun _ => Dev.holdBegin_keeps kp hd1

theorem Dev.stopPlace_keeps (kp : Keeps P) {d : Dev} (hd : P d) {i slot instant : Nat} : P (Dev.stopPlace d i slot
    instant) := by
  unfold Dev.stopPlace
  lift_lets
  intro s e m
  with_reducible exact kp.ite (fun _ => (Dev.setPort_keeps kp hd)) fun _ => hd

theorem Dev.stopRestore_keeps (kp : Keeps P) {d : Dev} (hd : P d) {i slot : Nat} : P (Dev.stopRestore d i slot) := by
  unfold Dev.stopRestore
  lift_lets
  intro s d1 d2 src
  with_reducible have hd1 : P d1 := Dev.setPort_keeps kp hd
  with_reducible have hd2 : P d2 := Dev.startRamp_keeps kp hd1
  split
  · with_reducible exact kp.ite (fun _ => (kp.ite (fun _ => (Dev.setPort_keeps kp hd2)) fun _ => hd1)) fun _ => hd
  · with_reducible exact hd

theorem Dev.outFault_keeps (kp : Keeps P) {d : Dev} (hd : P d) {i why : Nat} : P (Dev.outFault d i why) := by
  unfold Dev.outFault
  lift_lets
  intro q t d1
  with_reducible have hd1 : P d1 := Dev.setF_keeps kp hd
  with_reducible exact Dev.portFault_keeps kp (Dev.raiseAt_keeps kp hd1)

theorem Dev.devWarn_keeps (kp : Keeps P) {d : Dev} (hd : P d) {i : Nat} {x : DevWin} : P (Dev.devWarn d i x) := by
  unfold Dev.devWarn
  lift_lets
  intro q was d1
  with_reducible have hd1 : P d1 := Dev.count_keeps kp (Dev.setF_keeps kp hd)
  with_reducible exact kp.ite (fun _ => (kp.ite (fun _ => hd1) fun _ => Dev.raiseAt_keeps kp hd1)) fun _ =>
                   Dev.setF_keeps kp hd

theorem Dev.devRot_keeps (kp : Keeps P) {d : Dev} (hd : P d) {i : Nat} {x : DevWin} : P (Dev.devRot d i x) := by
  unfold Dev.devRot
  lift_lets
  intro src
  split
  · with_reducible exact kp.ite (fun _ => (Dev.setGroup_keeps kp hd)) fun _ => hd
  · with_reducible exact hd

theorem Dev.devPersist_keeps (kp : Keeps P) {d : Dev} (hd : P d) {i : Nat} {x : DevWin} : P (Dev.devPersist d i x) :=
    by
  unfold Dev.devPersist
  lift_lets
  intro q run src
  with_reducible exact kp.ite (fun _ => (Dev.outFault_keeps kp (Dev.setPort_keeps kp hd))) fun _ => Dev.setPort_keeps
                   kp hd

theorem Dev.devWindow_keeps (kp : Keeps P) {d : Dev} (hd : P d) {i : Nat} {xs : List MonSample} : P (Dev.devWindow d
    i xs) := by
  unfold Dev.devWindow
  lift_lets
  intro q d0 x src
  with_reducible have hd0 : P d0 := Dev.suspRefresh_keeps kp hd
  with_reducible exact kp.ite (fun _ => (kp.ite (fun _ => (Dev.setPort_keeps kp hd0)) fun _ => Dev.devPersist_keeps
                   kp (Dev.devRot_keeps kp (Dev.devWarn_keeps kp (Dev.setF_keeps kp hd0))))) fun _ => hd

theorem Dev.loadFlags_keeps (kp : Keeps P) {d : Dev} (hd : P d) {i flags : Nat} : P (Dev.loadFlags d i flags) := by
  unfold Dev.loadFlags
  lift_lets
  intro q f
  with_reducible exact kp.ite (fun _ => hd) fun _ => Dev.raise_keeps kp (Dev.setF_keeps kp hd)

theorem Dev.loadWindow_keeps (kp : Keeps P) {d : Dev} (hd : P d) {i uv na r c : Nat} {hf : Bool} : P (Dev.loadWindow
    d i uv na r c hf) := by
  unfold Dev.loadWindow
  lift_lets
  intro q rv rr cv cc d1 d2 volt open_ short ovr d3
  with_reducible have hd1 : P d1 := Dev.setReg_keeps kp hd
  with_reducible have hd2 : P d2 := Dev.setReg_keeps kp hd1
  with_reducible have hd3 : P d3 := Dev.loadFlags_keeps kp hd2
  with_reducible exact kp.ite (fun _ => (kp.ite (fun _ => (Dev.outFault_keeps kp hd3)) fun _ => hd3)) fun _ => hd

theorem Dev.ilimitTrip_keeps (kp : Keeps P) {d : Dev} (hd : P d) {i : Nat} : P (Dev.ilimitTrip d i) := by
  unfold Dev.ilimitTrip
  lift_lets
  intro q
  with_reducible exact kp.ite (fun _ => (Dev.outFault_keeps kp (Dev.loadFlags_keeps kp hd))) fun _ => hd

theorem Dev.complianceTrip_keeps (kp : Keeps P) {d : Dev} (hd : P d) {i : Nat} : P (Dev.complianceTrip d i) := by
  unfold Dev.complianceTrip
  lift_lets
  intro q
  with_reducible exact kp.ite (fun _ => (Dev.outFault_keeps kp (Dev.loadFlags_keeps kp hd))) fun _ => hd

theorem Dev.lsvGo_keeps (kp : Keeps P) {d : Dev} (hd : P d) {i : Nat} : P (Dev.lsvGo d i) := by
  unfold Dev.lsvGo
  lift_lets
  intro q src
  with_reducible exact kp.ite (fun _ => hd) fun _ => Dev.setPort_keeps kp (Dev.setF_keeps kp (Dev.send_keeps kp hd))

theorem Dev.lsvEnd_keeps (kp : Keeps P) {d : Dev} (hd : P d) {i c rk z : Nat} : P (Dev.lsvEnd d i c rk z) := by
  unfold Dev.lsvEnd
  lift_lets
  intro q d0 status cpm len d1 d2
  with_reducible have hd0 : P d0 := Dev.send_keeps kp (Dev.pass_keeps kp hd)
  with_reducible have hd1 : P d1 := Dev.setReg_keeps kp hd0
  with_reducible have hd2 : P d2 := Dev.setReg_keeps kp hd1
  with_reducible exact kp.ite (fun _ => (Dev.raise_keeps kp (Dev.setF_keeps kp (Dev.setF_keeps kp hd2)))) fun _ => hd

theorem Dev.setRegion_keeps (kp : Keeps P) {d : Dev} (hd : P d) {n : Nat} {x : RegionSt} : P (Dev.setRegion d n x) :=
    by
  unfold Dev.setRegion
  lift_lets
  intro src
  with_reducible exact kp.upd hd

theorem Dev.regionWake_keeps (kp : Keeps P) {d : Dev} (hd : P d) {n : Nat} : P (Dev.regionWake d n) := by
  unfold Dev.regionWake
  lift_lets
  intro p
  with_reducible exact kp.ite (fun _ => (Dev.setF_keeps kp (Dev.setF_keeps kp hd))) fun _ => hd

theorem Dev.hoOuts_keeps (kp : Keeps P) {d : Dev} (hd : P d) {n p : Nat} {ws : List (Nat × Word × Bool)} : P
    (Dev.hoOuts d n p ws) := by
  unfold Dev.hoOuts
  lift_lets
  intro src
  split
  · with_reducible exact hd
  · split
    · with_reducible exact hd
    · lift_lets
      intro hz f
      with_reducible exact kp.ite (fun _ => (kp.upd hd)) fun _ => hd

theorem Dev.hoPop_keeps (kp : Keeps P) {d : Dev} (hd : P d) {n p ts : Nat} : P (Dev.hoPop d n p ts) := by
  unfold Dev.hoPop
  lift_lets
  intro src
  split
  · with_reducible exact hd
  · lift_lets
    intro o hz
    with_reducible exact kp.ite (fun _ => (kp.upd hd)) fun _ => hd

theorem Dev.fabricOut_keeps (kp : Keeps P) {d : Dev} (hd : P d) {n p : Nat} {ws : List (Nat × Word × Bool)} : P
    (Dev.fabricOut d n p ws) := by
  unfold Dev.fabricOut
  lift_lets
  intro g f c
  refine kp.ite (fun _ => kp.foldl (Dev.hoOuts_keeps kp hd) fun e w he => ?_) fun _ => hd
  exact kp.ite (fun _ => Dev.setF_keeps kp (Dev.setRegion_keeps kp he)) fun _ => he

theorem Dev.prodDrop_keeps (kp : Keeps P) {d : Dev} (hd : P d) {ep flow k : Nat} : P (Dev.prodDrop d ep flow k) := by
  unfold Dev.prodDrop
  lift_lets
  intro t L i x q
  split
  · with_reducible exact kp.ite (fun _ => (Dev.setTile_keeps kp hd)) fun _ => kp.ite (fun _ => (Dev.setF_keeps kp
                     (Dev.setRegion_keeps kp hd))) fun _ => hd
  · with_reducible exact Dev.setTxQueue_keeps kp hd

theorem Dev.flitSend_keeps (kp : Keeps P) {d : Dev} (hd : P d) {ep flow : Nat} {ws : List (Nat × Word × Bool)} : P
    (Dev.flitSend d ep flow ws) := by
  unfold Dev.flitSend
  lift_lets
  intro d0 q run
  have h0 : P d0 := kp.ite (fun _ => Dev.fabricOut_keeps kp hd) fun _ => hd
  split
  · exact h0
  · lift_lets
    intro bs full d1 src last next f
    have h1 : P d1 := Dev.prodDrop_keeps kp h0
    exact kp.ite (fun _ => kp.ite (fun _ => h1) fun _ => kp.updCw h1 rfl rfl) fun _ => h0

theorem Dev.setFmp_keeps (kp : Keeps P) {d : Dev} (hd : P d) {b : Nat} {s : FmpSt} : P (Dev.setFmp d b s) := by
  unfold Dev.setFmp
  lift_lets
  intro src d1
  with_reducible have hd1 : P d1 := kp.updCw hd rfl rfl
  with_reducible exact Dev.setF_keeps kp (Dev.setF_keeps kp hd1)

theorem Dev.setTxFlow_keeps (kp : Keeps P) {d : Dev} (hd : P d) {f : Nat} {x : TxFlow} : P (Dev.setTxFlow d f x) := by
  unfold Dev.setTxFlow
  lift_lets
  intro src
  with_reducible exact kp.upd hd

theorem Dev.deliver_keeps (kp : Keeps P) {d : Dev} (hd : P d) {ep : Nat} {w : FlowWord} : P (Dev.deliver d ep w) := by
  unfold Dev.deliver
  lift_lets
  intro n sec b src src_1 n_1 src_2
  with_reducible exact kp.ite (fun _ => (Dev.streamWord_keeps kp hd)) fun _ => kp.ite (fun _ => (Dev.send_keeps kp
                   (Dev.hoPop_keeps kp (Dev.regionWake_keeps kp hd)))) fun _ => kp.ite (fun _ => (Dev.setFmp_keeps kp
                   hd)) fun _ => kp.ite (fun _ => (Dev.setTxFlow_keeps kp hd)) fun _ => kp.ite (fun _ => (kp.foldl hd
                   (fun _ _ k3 => Dev.portRx_keeps kp k3))) fun _ => kp.ite (fun _ => (kp.upd hd)) fun _ => hd

theorem Dev.setFlit_keeps (kp : Keeps P) {d : Dev} (hd : P d) {n : Nat} {f : Flit} : P (Dev.setFlit d n f) := by
  unfold Dev.setFlit
  lift_lets
  intro src
  with_reducible exact kp.updCw hd rfl rfl

theorem Dev.flitDone_keeps (kp : Keeps P) {d : Dev} (hd : P d) {n ep : Nat} {f : Flit} : P (Dev.flitDone d n ep f) :=
    by
  unfold Dev.flitDone
  with_reducible exact Dev.setFlit_keeps kp hd

theorem Dev.aDrop_keeps (kp : Keeps P) {d : Dev} (hd : P d) {flow ep : Nat} : P (Dev.aDrop d flow ep) := by
  unfold Dev.aDrop
  with_reducible exact Dev.raise_keeps kp (Dev.count_keeps kp hd)

theorem Dev.flitError_keeps (kp : Keeps P) {d : Dev} (hd : P d) {n ep : Nat} {f : Flit} {k l : Nat} : P
    (Dev.flitError d n ep f k l) := by
  unfold Dev.flitError
  lift_lets
  intro d1 link g lost
  with_reducible have hd1 : P d1 := Dev.raise_keeps kp (Dev.count_keeps kp hd)
  with_reducible exact kp.ite (fun _ => (kp.ite (fun _ => (Dev.setFlit_keeps kp hd1)) fun _ => kp.ite (fun _ =>
                   (Dev.setFlit_keeps kp (kp.foldl hd1 (fun _ _ k4 => Dev.aDrop_keeps kp k4)))) fun _ =>
                   Dev.setFlit_keeps kp hd1)) fun _ => hd

theorem Dev.flitArrive_keeps (kp : Keeps P) {d : Dev} (hd : P d) {n ep : Nat} {err : Option (Nat × Nat)} : P
    (Dev.flitArrive d n ep err) := by
  unfold Dev.flitArrive
  split
  · with_reducible exact hd
  · lift_lets
    intro ts ws
    exact kp.ite (fun _ => hd) fun _ => by
        split
        · with_reducible exact Dev.flitError_keeps kp hd
        · with_reducible exact kp.ite (fun _ => hd) fun _ => kp.ite (fun _ => (Dev.flitDone_keeps kp (Dev.count_keeps
                           kp hd))) fun _ => kp.ite (fun _ => (Dev.flitDone_keeps kp (kp.foldl hd (fun _ _ k2 =>
                           Dev.deliver_keeps kp k2)))) fun _ => hd

theorem Dev.aDropEvent_keeps (kp : Keeps P) {d : Dev} (hd : P d) {n ep : Nat} : P (Dev.aDropEvent d n ep) := by
  unfold Dev.aDropEvent
  split
  · with_reducible exact kp.ite (fun _ => (Dev.flitDone_keeps kp (Dev.aDrop_keeps kp hd))) fun _ => hd
  · with_reducible exact hd

theorem Dev.fmSetPois_keeps (kp : Keeps P) {d : Dev} (hd : P d) {a : Nat} {b : Bool} : P (Dev.fmSetPois d a b) := by
  unfold Dev.fmSetPois
  lift_lets
  intro w l src
  with_reducible exact kp.updCw hd rfl rfl

theorem Dev.fmCe_keeps (kp : Keeps P) {d : Dev} (hd : P d) {a : Nat} : P (Dev.fmCe d a) := by
  unfold Dev.fmCe
  lift_lets
  intro b p d1 due src
  with_reducible have hd1 : P d1 := Dev.setReg_keeps kp (Dev.count_keeps kp hd)
  with_reducible exact kp.ite (fun _ => (Dev.raiseH_keeps kp (kp.updCw hd1 rfl rfl))) fun _ => hd1

theorem Dev.setRowRep_keeps (kp : Keeps P) {d : Dev} (hd : P d) {b : Nat} {x : RowRep} : P (Dev.setRowRep d b x) := by
  unfold Dev.setRowRep
  lift_lets
  intro src
  with_reducible exact Dev.setF_keeps kp (kp.updCw hd rfl rfl)

theorem Dev.setRowLists_keeps (kp : Keeps P) {d : Dev} (hd : P d) {b : Nat} {used bad : List Nat} : P
    (Dev.setRowLists d b used bad) := by
  unfold Dev.setRowLists
  lift_lets
  intro src d1
  with_reducible have hd1 : P d1 := kp.updCw hd rfl rfl
  with_reducible exact Dev.setF_keeps kp (Dev.setF_keeps kp hd1)

theorem Dev.rowRepairStart_keeps (kp : Keeps P) {d : Dev} (hd : P d) {b row : Nat} : P (Dev.rowRepairStart d b row)
    := by
  unfold Dev.rowRepairStart
  lift_lets
  intro p l d1
  with_reducible have hd1 : P d1 := Dev.setF_keeps kp (Dev.setF_keeps kp hd)
  split
  · with_reducible exact Dev.raiseH_keeps kp hd1
  · with_reducible exact Dev.setRowRep_keeps kp (Dev.setF_keeps kp (Dev.setF_keeps kp hd1))

theorem Dev.setRowWaits_keeps (kp : Keeps P) {d : Dev} (hd : P d) {b : Nat} {l : List Nat} : P (Dev.setRowWaits d b
    l) := by
  unfold Dev.setRowWaits
  lift_lets
  intro src
  with_reducible exact kp.updCw hd rfl rfl

theorem Dev.rowRequest_keeps (kp : Keeps P) {d : Dev} (hd : P d) {b row : Nat} : P (Dev.rowRequest d b row) := by
  unfold Dev.rowRequest
  with_reducible exact kp.ite (fun _ => (kp.ite (fun _ => (Dev.rowRepairStart_keeps kp hd)) fun _ => kp.ite (fun _ =>
                   hd) fun _ => Dev.setRowWaits_keeps kp hd)) fun _ => hd

theorem Dev.rowNext_keeps (kp : Keeps P) {d : Dev} (hd : P d) {b : Nat} : P (Dev.rowNext d b) := by
  unfold Dev.rowNext
  split
  · with_reducible exact hd
  · with_reducible exact kp.ite (fun _ => (Dev.rowRepairStart_keeps kp (Dev.setRowWaits_keeps kp hd))) fun _ => hd

theorem Dev.rowCopied_keeps (kp : Keeps P) {d : Dev} (hd : P d) {b : Nat} : P (Dev.rowCopied d b) := by
  unfold Dev.rowCopied
  split
  · with_reducible exact kp.ite (fun _ => (Dev.setRowRep_keeps kp hd)) fun _ => hd
  · with_reducible exact hd

theorem Dev.rowsFollow_keeps (kp : Keeps P) {d : Dev} (hd : P d) : P (Dev.rowsFollow d) := by
  unfold Dev.rowsFollow
  with_reducible exact kp.ite (fun _ => hd) fun _ => kp.foldl hd (fun _ _ k2 => Dev.rowCopied_keeps kp
                   (Dev.rowNext_keeps kp k2))

theorem Dev.rowRepairEnd_keeps (kp : Keeps P) {d : Dev} (hd : P d) {b outcome : Nat} {x : RowRep} : P
    (Dev.rowRepairEnd d b outcome x) := by
  unfold Dev.rowRepairEnd
  lift_lets
  intro p src d1 d2 d3 d4
  with_reducible have hd1 : P d1 := kp.updCw hd rfl rfl
  with_reducible have hd2 : P d2 := Dev.setF_keeps kp (Dev.setF_keeps kp (Dev.unwait_keeps kp (Dev.jobCancel_keeps kp
                   hd1)))
  with_reducible have hd3 : P d3 := Dev.setF_keeps kp (Dev.setF_keeps kp hd2)
  with_reducible have hd4 : P d4 := kp.ite (fun _ => (Dev.count_keeps kp hd3)) fun _ => hd3
  with_reducible exact Dev.refreshHealth_keeps kp (Dev.raiseSev_keeps kp hd4)

theorem Dev.rowBind_keeps (kp : Keeps P) {d : Dev} (hd : P d) {b : Nat} {x : RowRep} : P (Dev.rowBind d b x) := by
  unfold Dev.rowBind
  lift_lets
  intro t
  split
  · rename_i w0 w1 w2
    have hw1 := Dev.svcBind_keeps kp hd _ w2
    with_reducible exact Dev.setRowRep_keeps kp hw1
  · with_reducible exact Dev.svcWait_keeps kp (Dev.setRowRep_keeps kp hd)

theorem Dev.rowRetry_keeps (kp : Keeps P) {d : Dev} (hd : P d) {b : Nat} : P (Dev.rowRetry d b) := by
  unfold Dev.rowRetry
  split
  · with_reducible exact kp.ite (fun _ => (Dev.rowBind_keeps kp hd)) fun _ => Dev.unwait_keeps kp hd
  · with_reducible exact Dev.unwait_keeps kp hd

theorem Dev.rowCompare_keeps (kp : Keeps P) {d : Dev} (hd : P d) {b bad : Nat} : P (Dev.rowCompare d b bad) := by
  unfold Dev.rowCompare
  split
  · with_reducible exact hd
  · lift_lets
    intro e l
    with_reducible have he : P e := Dev.setRowRep_keeps kp (Dev.pass_keeps kp hd)
    with_reducible exact kp.ite (fun _ => (kp.ite (fun _ => (Dev.rowBind_keeps kp he)) fun _ =>
                     Dev.rowRepairEnd_keeps kp (Dev.setRowLists_keeps kp he))) fun _ => hd

theorem Dev.rowTimeout_keeps (kp : Keeps P) {d : Dev} (hd : P d) {b : Nat} : P (Dev.rowTimeout d b) := by
  unfold Dev.rowTimeout
  split
  · split
    · with_reducible exact kp.ite (fun _ => (Dev.rowRepairEnd_keeps kp (Dev.pass_keeps kp hd))) fun _ => hd
    · with_reducible exact hd
  · with_reducible exact hd

theorem Dev.rowAbort_keeps (kp : Keeps P) {d : Dev} (hd : P d) {b outcome : Nat} : P (Dev.rowAbort d b outcome) := by
  unfold Dev.rowAbort
  split
  · with_reducible exact Dev.rowRepairEnd_keeps kp hd
  · with_reducible exact hd

theorem Dev.rowApply_keeps (kp : Keeps P) {d : Dev} (hd : P d) {b : Nat} : P (Dev.rowApply d b) := by
  unfold Dev.rowApply
  lift_lets
  intro l src
  split
  · with_reducible exact hd
  · lift_lets
    intro key old used bad d1
    with_reducible have hd1 : P d1 := kp.updCw hd rfl rfl
    with_reducible exact Dev.rowRepairEnd_keeps kp (Dev.setRowLists_keeps kp hd1)

theorem Dev.fmUe_keeps (kp : Keeps P) {d : Dev} (hd : P d) {a : Nat} : P (Dev.fmUe d a) := by
  unfold Dev.fmUe
  lift_lets
  intro b p d1
  with_reducible have hd1 : P d1 := Dev.setReg_keeps kp (Dev.count_keeps kp (Dev.fmSetPois_keeps kp hd))
  with_reducible exact Dev.rowRequest_keeps kp (Dev.raiseH_keeps kp hd1)

theorem Dev.fmMeet_keeps (kp : Keeps P) {d : Dev} (hd : P d) {a : Nat} {e : EccEvent} : P (Dev.fmMeet d a e) := by
  unfold Dev.fmMeet
  split
  · with_reducible exact hd
  · with_reducible exact kp.ite (fun _ => hd) fun _ => Dev.fmCe_keeps kp hd
  · with_reducible exact kp.ite (fun _ => hd) fun _ => Dev.fmUe_keeps kp hd

theorem Dev.fmRead_keeps (kp : Keeps P) {d : Dev} (hd : P d) {a x2 : Nat} {x3 : List EccEvent} : P (Dev.fmRead d a x2
    x3).1 := by
  unfold Dev.fmRead
  split
  · with_reducible exact hd
  · lift_lets
    intro d1 bad r
    with_reducible have hd1 : P d1 := Dev.fmMeet_keeps kp hd
    with_reducible have hr : P r.1 := kp.fst_eq (Dev.fmRead_keeps kp hd1) rfl
    with_reducible exact hr

theorem Dev.fmWrite_keeps (kp : KeepsMem P) {d : Dev} (hd : P d) {a be pois : Nat} {e : EccEvent} {x5 : List Nat} : P
    (Dev.fmWrite d a be pois e x5) := by
  unfold Dev.fmWrite
  lift_lets
  intro m old
  with_reducible have hm : P m := Dev.fmMeet_keeps kp.toKeeps hd
  split
  · with_reducible exact hd
  · lift_lets
    intro d1
    with_reducible have hd1 : P d1 := kp.ite (fun _ => (Dev.fmSetPois_keeps kp.toKeeps (Dev.fmPut_keeps kp hd))) fun _ =>
                     (Dev.fmSetPois_keeps kp.toKeeps (Dev.fmPut_keeps kp hm))
    with_reducible exact Dev.fmWrite_keeps kp hd1

theorem Dev.fmGuarded_keeps (kp : Keeps P) {d : Dev} (hd : P d) {ep : Nat} {f : Dev → Dev} (hf : ∀ y0, P y0 → P (f
    y0)) {x3 : Option Nat} : P (Dev.fmGuarded d ep f x3) := by
  unfold Dev.fmGuarded
  split
  · with_reducible exact Dev.raise_keeps kp (Dev.count_keeps kp hd)
  · with_reducible exact hf _ hd

theorem Dev.fmGuard_keeps (kp : Keeps P) {d : Dev} (hd : P d) {ep a n : Nat} {f : Dev → Dev} (hf : ∀ y0, P y0 → P (f
    y0)) : P (Dev.fmGuard d ep a n f) := by
  unfold Dev.fmGuard
  with_reducible exact Dev.fmGuarded_keeps kp hd (fun _ k2 => hf _ k2)

theorem Dev.memServe_keeps (kp : KeepsMem P) {d : Dev} (hd : P d) {m : MemFlit} {es : List EccEvent} : P (Dev.memServe d
    m es) := by
  unfold Dev.memServe
  lift_lets
  intro be vals r
  with_reducible have hr : P r.1 := kp.fst_eq (Dev.fmRead_keeps kp.toKeeps hd) rfl
  with_reducible exact kp.ite (fun _ => (Dev.send_keeps kp.toKeeps (Dev.fmGuard_keeps kp.toKeeps hd (fun _ k2 =>
                   (Dev.fmWrite_keeps kp k2))))) fun _ => (Dev.send_keeps kp.toKeeps hr)

theorem Dev.fmpLatch_keeps (kp : Keeps P) {d : Dev} (hd : P d) {b dir : Nat} : P (Dev.fmpLatch d b dir) := by
  unfold Dev.fmpLatch
  lift_lets
  intro p s on move src
  with_reducible exact kp.ite (fun _ => (Dev.setFmp_keeps kp hd)) fun _ => Dev.setFmp_keeps kp hd

theorem Dev.fmpStore_keeps (kp : KeepsMem P) {d : Dev} (hd : P d) {b a : Nat} {w : FlowWord} : P (Dev.fmpStore d b a w)
    := by
  unfold Dev.fmpStore
  lift_lets
  with_reducible exact Dev.fmGuard_keeps kp.toKeeps hd (fun _ k1 => (Dev.fmSetPois_keeps kp.toKeeps (kp.updMem k1 fun h
                   => (memSet_wf _ _ _ h))))

theorem Dev.fmpFirst_keeps (kp : Keeps P) {d : Dev} (hd : P d) {b : Nat} : P (Dev.fmpFirst d b) := by
  unfold Dev.fmpFirst
  lift_lets
  intro s
  with_reducible exact kp.ite (fun _ => hd) fun _ => kp.ite (fun _ => (Dev.raise_keeps kp (Dev.count_keeps kp
                   (Dev.setFmp_keeps kp hd)))) fun _ => Dev.setFmp_keeps kp hd

theorem Dev.fmpEnd_keeps (kp : KeepsMem P) {d : Dev} (hd : P d) {b ts : Nat} : P (Dev.fmpEnd d b ts) := by
  unfold Dev.fmpEnd
  lift_lets
  intro s t a hdr
  with_reducible exact kp.ite (fun _ => (Dev.setFmp_keeps kp.toKeeps hd)) fun _ => Dev.setFmp_keeps kp.toKeeps
                   (Dev.fmGuard_keeps kp.toKeeps hd (fun _ k2 => Dev.fmSetPois_keeps kp.toKeeps (Dev.fmPut_keeps kp
                   k2)))

theorem Dev.fmpTake_keeps (kp : KeepsMem P) {d : Dev} (hd : P d) {b : Nat} {w : FlowWord} : P (Dev.fmpTake d b w) := by
  unfold Dev.fmpTake
  lift_lets
  intro d1 s s1
  with_reducible have hd1 : P d1 := kp.ite (fun _ => (Dev.fmpFirst_keeps kp.toKeeps hd)) fun _ => hd
  with_reducible exact kp.ite (fun _ => (Dev.fmpLatch_keeps kp.toKeeps (Dev.fmpEnd_keeps kp hd))) fun _ => (kp.ite (fun _
                   => (Dev.setFmp_keeps kp.toKeeps hd1)) fun _ => (kp.ite (fun _ => (Dev.setFmp_keeps kp.toKeeps
                   (Dev.fmpStore_keeps kp hd1))) fun _ => (Dev.setFmp_keeps kp.toKeeps hd1)))

theorem Dev.framePortWrite_keeps (kp : KeepsMem P) {d : Dev} (hd : P d) {b : Nat} : P (Dev.framePortWrite d b) := by
  unfold Dev.framePortWrite
  lift_lets
  intro w e src d1 s
  with_reducible have he : P e := Dev.fmpLatch_keeps kp.toKeeps hd
  with_reducible have hd1 : P d1 := kp.ite (fun _ => hd) fun _ => (kp.ite (fun _ => (Dev.setFmp_keeps kp.toKeeps he)) fun
                   _ => he)
  split
  · with_reducible exact kp.ite (fun _ => (Dev.fmpTake_keeps kp (Dev.setFmp_keeps kp.toKeeps hd1))) fun _ => hd1
  · with_reducible exact hd1

theorem Dev.fmpSend_keeps (kp : Keeps P) {d : Dev} (hd : P d) {b ts ch : Nat} {w : Word} {marker poison : Bool} : P
    (Dev.fmpSend d b ts ch w marker poison) := by
  unfold Dev.fmpSend
  with_reducible exact Dev.pushFlow_keeps kp hd

theorem Dev.fmpEmit_keeps (kp : Keeps P) {d : Dev} (hd : P d) {b k i : Nat} {e : EccEvent} : P (Dev.fmpEmit d b k i
    e) := by
  unfold Dev.fmpEmit
  lift_lets
  intro s a hdr n t ch wa d1 bad d1_1 src d2
  with_reducible have hd1 : P d1 := Dev.fmMeet_keeps kp hd
  with_reducible have hd1_1 : P d1_1 := Dev.fmpSend_keeps kp hd
  with_reducible have hd2 : P d2 := Dev.setFmp_keeps kp hd1_1
  with_reducible exact kp.ite (fun _ => (Dev.setFmp_keeps kp (Dev.fmpSend_keeps kp hd1))) fun _ => Dev.fmpLatch_keeps
                   kp (Dev.setFmp_keeps kp hd2)

theorem Dev.framePortRead_keeps (kp : Keeps P) {d : Dev} (hd : P d) {b : Nat} {e : EccEvent} : P (Dev.framePortRead d
    b e) := by
  unfold Dev.framePortRead
  lift_lets
  intro d1 s
  with_reducible have hd1 : P d1 := kp.ite (fun _ => hd) fun _ => Dev.fmpLatch_keeps kp hd
  with_reducible exact kp.ite (fun _ => (by
      split
      · with_reducible exact hd1
      · split
        · with_reducible exact Dev.fmpEmit_keeps kp hd1
        · split
          · with_reducible exact hd1
          · with_reducible exact Dev.fmpEmit_keeps kp (Dev.setFmp_keeps kp hd1))) fun _ => hd1

theorem Dev.scrubRestart_keeps (kp : Keeps P) {d : Dev} (hd : P d) : P (Dev.scrubRestart d) := by
  unfold Dev.scrubRestart
  lift_lets
  intro old d1 src
  with_reducible have hd1 : P d1 := Dev.raise_keeps kp (Dev.count_keeps kp (Dev.setReg_keeps kp hd))
  with_reducible exact kp.updCw hd1 rfl rfl

theorem Dev.scrubNext_keeps (kp : Keeps P) {d : Dev} (hd : P d) {b row word : Nat} : P (Dev.scrubNext d b row word)
    := by
  unfold Dev.scrubNext
  lift_lets
  intro set fresh e
  with_reducible have hset : ∀ y0 y1 y2 y3, P y0 → P (set y0 y1 y2 y3) := fun _ _ _ _ q0 => Dev.setF_keeps kp
                   (Dev.setF_keeps kp (Dev.setF_keeps kp q0))
  have hfresh : ∀ y0, P y0 → P (fresh y0) := fun _ q0 => by
      unfold fresh
      lift_lets
      intro src
      with_reducible exact kp.updCw q0 rfl rfl
  with_reducible have he : P e := Dev.count_keeps kp (hfresh _ (hset _ _ _ _ hd))
  with_reducible exact kp.ite (fun _ => (hset _ _ _ _ hd)) fun _ => kp.ite (fun _ => (hfresh _ (hset _ _ _ _ hd)))
                   fun _ => kp.ite (fun _ => (hfresh _ (hset _ _ _ _ hd))) fun _ => Dev.raise_keeps kp he

theorem Dev.scrubMeet_keeps (kp : Keeps P) {d : Dev} (hd : P d) {a : Nat} {e : EccEvent} {skip : Bool} : P
    (Dev.scrubMeet d a e skip) := by
  unfold Dev.scrubMeet
  lift_lets
  intro d1 d2 n src d3
  with_reducible have hd1 : P d1 := Dev.count_keeps kp (Dev.fmCe_keeps kp hd)
  with_reducible have hd2 : P d2 := kp.ite (fun _ => (Dev.count_keeps kp hd1)) fun _ => hd1
  with_reducible have hd3 : P d3 := kp.updCw hd2 rfl rfl
  split
  · with_reducible exact hd
  · with_reducible exact kp.ite (fun _ => hd) fun _ => kp.ite (fun _ => (Dev.rowRequest_keeps kp hd3)) fun _ => hd3
  · with_reducible exact kp.ite (fun _ => hd) fun _ => Dev.count_keeps kp (Dev.fmUe_keeps kp hd)

theorem Dev.scrubRead_keeps (kp : Keeps P) {d : Dev} (hd : P d) {e : EccEvent} {skip : Bool} {v : VoteEvent} : P
    (Dev.scrubRead d e skip v) := by
  unfold Dev.scrubRead
  lift_lets
  intro d1 b row w
  with_reducible have hd1 : P d1 := kp.ite (fun _ => (Dev.count_keeps kp hd)) fun _ => hd
  exact kp.ite (fun _ => hd) fun _ => by
      split
      · with_reducible exact Dev.scrubRestart_keeps kp hd
      · with_reducible exact Dev.scrubNext_keeps kp (Dev.scrubMeet_keeps kp hd1)

theorem Dev.fmemLive_keeps (kp : Keeps P) {d : Dev} (hd : P d) {b off : Nat} {old new : Word} : P (Dev.fmemLive d b
    off old new) := by
  unfold Dev.fmemLive
  lift_lets
  intro d1
  with_reducible have hd1 : P d1 := kp.ite (fun _ => (Dev.rowRepairStart_keeps kp hd)) fun _ => hd
  with_reducible exact kp.ite (fun _ => (kp.ite (fun _ => (Dev.rowAbort_keeps kp (Dev.setF_keeps kp hd1))) fun _ =>
                   hd1)) fun _ => hd

theorem Dev.fmemReset_keeps (kp : Keeps P) {d : Dev} (hd : P d) {b : Nat} : P (Dev.fmemReset d b) := by
  unfold Dev.fmemReset
  lift_lets
  intro d1 l src
  with_reducible have hd1 : P d1 := Dev.resetPage_keeps kp (Dev.rowAbort_keeps kp (Dev.jobLeave_keeps kp hd))
  with_reducible exact Dev.setRowLists_keeps kp (kp.updCw hd1 rfl rfl)

theorem Dev.scrbReset_keeps (kp : Keeps P) {d : Dev} (hd : P d) : P (Dev.scrbReset d) := by
  unfold Dev.scrbReset
  lift_lets
  intro d1 src
  with_reducible have hd1 : P d1 := Dev.resetPage_keeps kp hd
  with_reducible exact kp.updCw hd1 rfl rfl

theorem Dev.ffsInit_keeps (kp : Keeps P) {d : Dev} (hd : P d) {n : Nat} : P (Dev.ffsInit d n) := by
  unfold Dev.ffsInit
  lift_lets
  intro src
  with_reducible exact Dev.setRegion_keeps kp hd

theorem Dev.mcgSync_keeps (kp : Keeps P) {d : Dev} (hd : P d) {n : Nat} : P (Dev.mcgSync d n) := by
  unfold Dev.mcgSync
  lift_lets
  intro k old src d1 d2
  with_reducible have hd1 : P d1 := kp.upd hd
  with_reducible have hd2 : P d2 := Dev.setReg_keeps kp hd1
  with_reducible exact kp.ite (fun _ => (kp.ite (fun _ => (Dev.count_keeps kp hd2)) fun _ => hd2)) fun _ => hd

theorem Dev.mcgRebase_keeps (kp : Keeps P) {d : Dev} (hd : P d) {n : Nat} : P (Dev.mcgRebase d n) := by
  unfold Dev.mcgRebase
  lift_lets
  intro k src
  with_reducible exact kp.ite (fun _ => (Dev.setReg_keeps kp (kp.upd hd))) fun _ => hd

theorem Dev.mcgStop_keeps (kp : Keeps P) {d : Dev} (hd : P d) {n : Nat} : P (Dev.mcgStop d n) := by
  unfold Dev.mcgStop
  lift_lets
  intro d0 src d1
  with_reducible have hd0 : P d0 := Dev.mcgSync_keeps kp hd
  with_reducible have hd1 : P d1 := kp.upd hd0
  with_reducible exact kp.ite (fun _ => (Dev.raise_keeps kp (Dev.setF_keeps kp hd1))) fun _ => hd1

theorem Dev.mcgLive_keeps (kp : Keeps P) {d : Dev} (hd : P d) {n off : Nat} {via : Via} {old new : Word} : P
    (Dev.mcgLive d n off via old new) := by
  unfold Dev.mcgLive
  lift_lets
  intro src
  with_reducible exact kp.ite (fun _ => (kp.ite (fun _ => (kp.upd hd)) fun _ => kp.ite (fun _ => (Dev.mcgStop_keeps
                   kp hd)) fun _ => hd)) fun _ => kp.ite (fun _ => (kp.foldl (Dev.mcgRebase_keeps kp hd) (fun _ _ k2
                   => Dev.regridGroup_keeps kp k2))) fun _ => hd

theorem Dev.mcgStart_keeps (kp : Keeps P) {d : Dev} (hd : P d) {n : Nat} : P (Dev.mcgStart d n) := by
  unfold Dev.mcgStart
  lift_lets
  intro r
  split
  · with_reducible exact hd
  · lift_lets
    intro k d1 src d2
    with_reducible have hd1 : P d1 := Dev.reach_keeps kp hd
    with_reducible have hd2 : P d2 := kp.upd hd1
    with_reducible exact Dev.raise_keeps kp (Dev.mcgRebase_keeps kp (Dev.setF_keeps kp hd2))

theorem Dev.mcgReset_keeps (kp : Keeps P) {d : Dev} (hd : P d) {n : Nat} : P (Dev.mcgReset d n) := by
  unfold Dev.mcgReset
  with_reducible exact Dev.resetPage_keeps kp (Dev.mcgStop_keeps kp hd)

theorem Dev.stepTo_keeps (kp : Keeps P) {d : Dev} (hd : P d) {t f : Nat} : P (Dev.stepTo d t f) := by
  unfold Dev.stepTo
  lift_lets
  intro delta d0 rx src d1 d2 d3
  with_reducible have hd0 : P d0 := kp.foldl hd (fun _ _ k2 => Dev.mcgSync_keeps kp k2)
  with_reducible have hd1 : P d1 := kp.upd hd0
  with_reducible have hd2 : P d2 := kp.foldl hd1 (fun _ _ k2 => Dev.mcgRebase_keeps kp k2)
  with_reducible have hd3 : P d3 := Dev.raise_keeps kp (Dev.count_keeps kp hd2)
  with_reducible exact kp.foldl hd3 (fun _ _ k2 => Dev.grpUnlock_keeps kp k2)

theorem Dev.timeSnap_keeps (kp : Keeps P) {d : Dev} (hd : P d) {src : Source} : P (d.timeSnap src) :=
  kp.shot _ _ (kp.shot _ _ (kp.shot _ _ hd))

theorem Dev.toLocked_keeps (kp : Keeps P) {d : Dev} (hd : P d) : P (Dev.toLocked d) := by
  unfold Dev.toLocked
  lift_lets
  intro src
  with_reducible exact Dev.raise_keeps kp (Dev.setF_keeps kp (kp.upd hd))

theorem Dev.toHoldover_keeps (kp : Keeps P) {d : Dev} (hd : P d) {cause : Nat} : P (Dev.toHoldover d cause) := by
  unfold Dev.toHoldover
  with_reducible exact Dev.raise_keeps kp (Dev.count_keeps kp (Dev.setF_keeps kp hd))

theorem Dev.toAcquire_keeps (kp : Keeps P) {d : Dev} (hd : P d) : P (Dev.toAcquire d) := by
  unfold Dev.toAcquire
  lift_lets
  intro src
  with_reducible exact Dev.setF_keeps kp (Dev.setF_keeps kp (kp.upd hd))

theorem Dev.acquire_keeps (kp : Keeps P) {d : Dev} (hd : P d) {off : Int} {big : Bool} : P (Dev.acquire d off big) :=
    by
  unfold Dev.acquire
  lift_lets
  intro t src d1
  with_reducible have hd1 : P d1 := kp.upd hd
  with_reducible exact kp.ite (fun _ => (Dev.stepTo_keeps kp (kp.upd hd))) fun _ => kp.ite (fun _ =>
                   (Dev.toLocked_keeps kp hd1)) fun _ => hd1

theorem Dev.measure_keeps (kp : Keeps P) {d : Dev} (hd : P d) {off : Int} : P (Dev.measure d off) := by
  unfold Dev.measure
  lift_lets
  intro ns d1 big since src d2
  with_reducible have hd1 : P d1 := Dev.setF_keeps kp (Dev.count_keeps kp hd)
  with_reducible have hd2 : P d2 := kp.upd hd1
  split
  · with_reducible exact Dev.acquire_keeps kp (Dev.toAcquire_keeps kp hd1)
  · with_reducible exact Dev.acquire_keeps kp hd1
  · with_reducible exact kp.ite (fun _ => (Dev.toLocked_keeps kp hd2)) fun _ => hd2

theorem Dev.servoPush_keeps (kp : Keeps P) {d : Dev} (hd : P d) : P (Dev.servoPush d) := by
  unfold Dev.servoPush
  lift_lets
  intro off d1 src
  with_reducible have hd1 : P d1 := Dev.setF_keeps kp hd
  with_reducible exact Dev.measure_keeps kp (kp.upd hd1)

theorem Dev.timeSet_keeps (kp : Keeps P) {d : Dev} (hd : P d) : P (Dev.timeSet d) := by
  unfold Dev.timeSet
  with_reducible exact Dev.stepTo_keeps kp hd

theorem Dev.timeSrc_keeps (kp : Keeps P) {d : Dev} (hd : P d) {old new : Word} : P (Dev.timeSrc d old new) := by
  unfold Dev.timeSrc
  lift_lets
  intro ref
  with_reducible exact kp.ite (fun _ => (Dev.toHoldover_keeps kp hd)) fun _ => hd

theorem Dev.timeLive_keeps (kp : Keeps P) {d : Dev} (hd : P d) {off : Nat} {old new : Word} : P (Dev.timeLive d off
    old new) := by
  unfold Dev.timeLive
  lift_lets
  intro d1
  with_reducible have hd1 : P d1 := Dev.put_keeps kp hd
  with_reducible exact kp.ite (fun _ => (kp.ite (fun _ => (Dev.servoPush_keeps kp hd)) fun _ => hd)) fun _ => kp.ite
                   (fun _ => (kp.ite (fun _ => (Dev.toAcquire_keeps kp hd1)) fun _ => kp.ite (fun _ =>
                   (Dev.timeSet_keeps kp hd1)) fun _ => hd1)) fun _ => kp.ite (fun _ => (Dev.timeSrc_keeps kp hd))
                   fun _ => hd

theorem Dev.measTimeout_keeps (kp : Keeps P) {d : Dev} (hd : P d) : P (Dev.measTimeout d) := by
  unfold Dev.measTimeout
  with_reducible exact kp.ite (fun _ => (Dev.toHoldover_keeps kp (Dev.pass_keeps kp hd))) fun _ => hd

theorem Dev.stepWanted_keeps (kp : Keeps P) {d : Dev} (hd : P d) : P (Dev.stepWanted d) := by
  unfold Dev.stepWanted
  split
  · with_reducible exact kp.ite (fun _ => (Dev.raise_keeps kp (Dev.setF_keeps kp (Dev.pass_keeps kp hd)))) fun _ => hd
  · with_reducible exact hd

theorem Dev.refinMeasure_keeps (kp : Keeps P) {d : Dev} (hd : P d) {edges : List Nat} : P (Dev.refinMeasure d edges)
    := by
  unfold Dev.refinMeasure
  lift_lets
  intro i p kind offs
  with_reducible exact kp.ite (fun _ => (Dev.measure_keeps kp hd)) fun _ => hd

theorem Dev.refinEvent_keeps (kp : Keeps P) {d : Dev} (hd : P d) {k i mv : Nat} {found : Bool} : P (Dev.refinEvent d
    k i mv found) := by
  unfold Dev.refinEvent
  lift_lets
  intro was d1
  with_reducible have hd1 : P d1 := Dev.refin_keeps kp hd
  with_reducible exact kp.ite (fun _ => (Dev.toHoldover_keeps kp hd1)) fun _ => hd1

end Sys2Proof.Machine
end

