-- ==== Sys2Proof/Laws/KeepsMedia.lean ====
section
/-! SUPPORT. What every operation keeps: lanes, media engines and fabric regions. -/

namespace Sys2Proof.Machine

open Sys2Proof

variable {P : Dev → Prop}

theorem Dev.prbsGone_keeps (kp : Keeps P) {d : Dev} (hd : P d) {l : Nat} : P (Dev.prbsGone d l) := by
  unfold Dev.prbsGone
  lift_lets
  intro src
  with_reducible exact Dev.setF_keeps kp (kp.upd hd)

theorem Dev.prbsCheck_keeps (kp : Keeps P) {d : Dev} (hd : P d) {l code : Nat} {x : PrbsSt} {pam : Bool} {rx : List
    Bool} : P (Dev.prbsCheck d l code x pam rx).1 := by
  unfold Dev.prbsCheck
  lift_lets
  intro p want bad good y
  with_reducible exact kp.ite_fst (fun _ => hd) fun _ => kp.ite_fst (fun _ => (kp.ite (fun _ => hd) fun _ =>
                   Dev.count64_keeps kp hd)) fun _ => kp.ite_fst (fun _ => (Dev.setF_keeps kp hd)) fun _ => hd

theorem Dev.prbsSymbol_keeps (kp : Keeps P) {d : Dev} (hd : P d) {l k : Nat} : P (Dev.prbsSymbol d l k) := by
  unfold Dev.prbsSymbol
  lift_lets
  intro code pam x tx r src src_1
  with_reducible have hr : P r.1 := Dev.prbsCheck_keeps kp hd
  with_reducible have hsrc : P src := hr
  with_reducible exact kp.upd hsrc

theorem Dev.prbsTick_keeps (kp : Keeps P) {d : Dev} (hd : P d) {l : Nat} : P (Dev.prbsTick d l) := by
  unfold Dev.prbsTick
  lift_lets
  intro code x a src d1
  with_reducible have hd1 : P d1 := kp.upd hd
  with_reducible exact kp.ite (fun _ => (kp.foldl hd1 (fun _ _ k3 => Dev.prbsSymbol_keeps kp k3))) fun _ => hd

theorem Dev.lanesTick_keeps (kp : Keeps P) {d : Dev} (hd : P d) : P (Dev.lanesTick d) := by
  unfold Dev.lanesTick
  with_reducible exact kp.foldl hd (fun _ _ k2 => Dev.prbsTick_keeps kp k2)

theorem Dev.ethSend_keeps (kp : Keeps P) {d : Dev} (hd : P d) {e : Nat} {m : OutMsg} : P (Dev.ethSend d e m) := by
  unfold Dev.ethSend
  with_reducible exact kp.ite (fun _ => hd) fun _ => Dev.send_keeps kp hd

theorem Dev.setEth_keeps (kp : Keeps P) {d : Dev} (hd : P d) {e : Nat} {x : EthSt} : P (Dev.setEth d e x) := by
  unfold Dev.setEth
  lift_lets
  intro src
  with_reducible exact kp.upd hd

theorem Dev.ethTo_keeps (kp : Keeps P) {d : Dev} (hd : P d) {e st : Nat} : P (Dev.ethTo d e st) := by
  unfold Dev.ethTo
  lift_lets
  intro src d1
  with_reducible have hd1 : P d1 := Dev.setEth_keeps kp (Dev.setF_keeps kp (Dev.setSt_keeps kp hd))
  with_reducible exact kp.ite (fun _ => hd1) fun _ => kp.foldl hd1 (fun _ _ k2 => kp.ite (fun _ => k2) fun _ =>
                   Dev.prbsGone_keeps kp k2)

theorem Dev.lanesAdapt_keeps (kp : Keeps P) {d : Dev} (hd : P d) {e n : Nat} : P (Dev.lanesAdapt d e n) := by
  unfold Dev.lanesAdapt
  with_reducible exact kp.foldl hd (fun _ _ k2 => Dev.setF_keeps kp k2)

theorem Dev.ethDown_keeps (kp : Keeps P) {d : Dev} (hd : P d) {e cause : Nat} : P (Dev.ethDown d e cause) := by
  unfold Dev.ethDown
  lift_lets
  intro p was d1
  with_reducible have hd1 : P d1 := Dev.setF_keeps kp (Dev.setF_keeps kp (Dev.setF_keeps kp (Dev.ethTo_keeps kp hd)))
  with_reducible exact kp.ite (fun _ => (Dev.raise_keeps kp (Dev.count64_keeps kp hd1))) fun _ => hd1

theorem Dev.ethLose_keeps (kp : Keeps P) {d : Dev} (hd : P d) {e cause : Nat} : P (Dev.ethLose d e cause) := by
  unfold Dev.ethLose
  with_reducible exact kp.ite (fun _ => (Dev.ethDown_keeps kp hd)) fun _ => hd

theorem Dev.bringUp_keeps (kp : Keeps P) {d : Dev} (hd : P d) {e : Nat} : P (Dev.bringUp d e) := by
  unfold Dev.bringUp
  lift_lets
  intro p d1
  with_reducible have hd1 : P d1 := Dev.lanesAdapt_keeps kp hd
  with_reducible exact kp.ite (fun _ => (kp.ite (fun _ => (Dev.ethTo_keeps kp hd1)) fun _ => kp.ite (fun _ =>
                   (Dev.ethTo_keeps kp hd1)) fun _ => Dev.ethDown_keeps kp hd1)) fun _ => hd

theorem Dev.surveyDone_keeps (kp : Keeps P) {d : Dev} (hd : P d) {e status : Nat} : P (Dev.surveyDone d e status) :=
    by
  unfold Dev.surveyDone
  lift_lets
  intro p d1 d2
  with_reducible have hd1 : P d1 := Dev.ethTo_keeps kp (Dev.setF_keeps kp (Dev.setF_keeps kp hd))
  with_reducible have hd2 : P d2 := Dev.raise_keeps kp hd1
  with_reducible exact kp.ite (fun _ => (Dev.bringUp_keeps kp hd2)) fun _ => hd2

theorem Dev.ethEnable_keeps (kp : Keeps P) {d : Dev} (hd : P d) {e : Nat} {on : Bool} : P (Dev.ethEnable d e on) := by
  unfold Dev.ethEnable
  lift_lets
  intro p d0 was d1 d2
  with_reducible have hd0 : P d0 := kp.ite (fun _ => (Dev.raise_keeps kp (Dev.setF_keeps kp (Dev.setF_keeps kp hd))))
                   fun _ => hd
  with_reducible have hd1 : P d1 := Dev.setF_keeps kp (Dev.setF_keeps kp (Dev.ethTo_keeps kp hd0))
  with_reducible have hd2 : P d2 := Dev.lanesAdapt_keeps kp hd1
  with_reducible exact kp.ite (fun _ => (kp.ite (fun _ => (Dev.surveyDone_keeps kp hd)) fun _ => kp.ite (fun _ =>
                   (Dev.bringUp_keeps kp hd)) fun _ => hd)) fun _ => kp.ite (fun _ => (Dev.raise_keeps kp
                   (Dev.count64_keeps kp hd2))) fun _ => hd2

theorem Dev.anResolved_keeps (kp : Keeps P) {d : Dev} (hd : P d) {e : Nat} : P (Dev.anResolved d e) := by
  unfold Dev.anResolved
  with_reducible exact kp.ite (fun _ => (kp.ite (fun _ => (Dev.ethTo_keeps kp hd)) fun _ => Dev.ethDown_keeps kp hd))
                   fun _ => hd

theorem Dev.anFail_keeps (kp : Keeps P) {d : Dev} (hd : P d) {e : Nat} : P (Dev.anFail d e) := by
  unfold Dev.anFail
  with_reducible exact kp.ite (fun _ => (Dev.raise_keeps kp (Dev.ethDown_keeps kp (Dev.pass_keeps kp hd)))) fun _ =>
                   hd

theorem Dev.trainingDone_keeps (kp : Keeps P) {d : Dev} (hd : P d) {e : Nat} : P (Dev.trainingDone d e) := by
  unfold Dev.trainingDone
  with_reducible exact kp.ite (fun _ => (Dev.ethDown_keeps kp (Dev.lanesAdapt_keeps kp hd))) fun _ => hd

theorem Dev.trainingTimeout_keeps (kp : Keeps P) {d : Dev} (hd : P d) {e : Nat} : P (Dev.trainingTimeout d e) := by
  unfold Dev.trainingTimeout
  with_reducible exact kp.ite (fun _ => (Dev.ethDown_keeps kp (Dev.pass_keeps kp hd))) fun _ => hd

theorem Dev.linkUp_keeps (kp : Keeps P) {d : Dev} (hd : P d) {e : Nat} : P (Dev.linkUp d e) := by
  unfold Dev.linkUp
  lift_lets
  intro p d1 d2
  with_reducible have hd1 : P d1 := Dev.lanesAdapt_keeps kp (Dev.setF_keeps kp (Dev.setF_keeps kp hd))
  with_reducible have hd2 : P d2 := kp.foldl hd1 (fun _ _ k2 => Dev.setF_keeps kp (Dev.setF_keeps kp k2))
  with_reducible exact kp.ite (fun _ => (Dev.raise_keeps kp (Dev.ethTo_keeps kp hd2))) fun _ => hd

theorem Dev.bringupRetry_keeps (kp : Keeps P) {d : Dev} (hd : P d) {e : Nat} : P (Dev.bringupRetry d e) := by
  unfold Dev.bringupRetry
  with_reducible exact kp.ite (fun _ => (Dev.bringUp_keeps kp (Dev.pass_keeps kp hd))) fun _ => hd

theorem Dev.linkDown_keeps (kp : Keeps P) {d : Dev} (hd : P d) {e cause : Nat} {lane : Option Nat} : P (Dev.linkDown
    d e cause lane) := by
  unfold Dev.linkDown
  lift_lets
  intro d1
  have hd1 : P d1 := by
      unfold d1
      split
      · with_reducible exact kp.ite (fun _ => (Dev.setF_keeps kp hd)) fun _ => hd
      · with_reducible exact hd
  with_reducible exact kp.ite (fun _ => (Dev.ethDown_keeps kp hd1)) fun _ => hd

theorem Dev.svGo_keeps (kp : Keeps P) {d : Dev} (hd : P d) {e : Nat} : P (Dev.svGo d e) := by
  unfold Dev.svGo
  lift_lets
  intro st src
  with_reducible exact kp.ite (fun _ => (Dev.ethTo_keeps kp (Dev.setEth_keeps kp hd))) fun _ => kp.ite (fun _ => hd)
                   fun _ => Dev.setF_keeps kp hd

theorem Dev.laneSurvey_keeps (kp : Keeps P) {d : Dev} (hd : P d) {l cls : Nat} {v : LaneSurvey} : P (Dev.laneSurvey d
    l cls v) := by
  unfold Dev.laneSurvey
  lift_lets
  intro p at_ d1 a b len d2
  with_reducible have hd1 : P d1 := kp.foldl hd (fun _ _ k2 => Dev.setReg_keeps kp k2)
  with_reducible have hd2 : P d2 := Dev.setF_keeps kp hd1
  split
  · with_reducible exact Dev.setF_keeps kp (Dev.setF_keeps kp (Dev.setF_keeps kp hd2))
  · with_reducible exact hd2

theorem Dev.ethSurveyEnd_keeps (kp : Keeps P) {d : Dev} (hd : P d) {e : Nat} {lanes : List LaneSurvey} {partner :
    Option (Nat × Nat)} : P (Dev.ethSurveyEnd d e lanes partner) := by
  unfold Dev.ethSurveyEnd
  lift_lets
  intro p cls d1 w
  with_reducible have hd1 : P d1 := kp.foldl hd (fun _ _ k2 => Dev.laneSurvey_keeps kp k2)
  with_reducible exact kp.ite (fun _ => (Dev.surveyDone_keeps kp (Dev.setReg_keeps kp hd1))) fun _ => hd

theorem Dev.pllGone_keeps (kp : Keeps P) {d : Dev} (hd : P d) {g : Nat} : P (Dev.pllGone d g) := by
  unfold Dev.pllGone
  lift_lets
  intro d1 d2
  with_reducible have hd1 : P d1 := Dev.setF_keeps kp hd
  with_reducible have hd2 : P d2 := kp.foldl hd1 (fun _ _ k3 => Dev.ethLose_keeps kp k3)
  with_reducible exact kp.foldl hd2 (fun _ _ k3 => by
      lift_lets
      intro e1
      with_reducible have he1 : P e1 := kp.ite (fun _ => k3) fun _ => Dev.prbsGone_keeps kp k3
      with_reducible exact kp.ite (fun _ => (Dev.setF_keeps kp he1)) fun _ => he1)

theorem Dev.pllUnlock_keeps (kp : Keeps P) {d : Dev} (hd : P d) {g : Nat} {refOk : Bool} : P (Dev.pllUnlock d g
    refOk) := by
  unfold Dev.pllUnlock
  lift_lets
  intro p d1
  with_reducible have hd1 : P d1 := Dev.count_keeps kp (Dev.setF_keeps kp (Dev.setFlag_keeps kp hd))
  with_reducible exact kp.ite (fun _ => (Dev.pllGone_keeps kp (Dev.raise_keeps kp hd1))) fun _ => hd

theorem Dev.pllLock_keeps (kp : Keeps P) {d : Dev} (hd : P d) {g : Nat} : P (Dev.pllLock d g) := by
  unfold Dev.pllLock
  lift_lets
  intro p d0 src d1 d2 d3
  have hd0 : P d0 := by
      unfold d0
      split
      · with_reducible exact Dev.pass_keeps kp hd
      · with_reducible exact hd
  with_reducible have hd1 : P d1 := kp.upd hd0
  with_reducible have hd2 : P d2 := Dev.setF_keeps kp (Dev.setF_keeps kp (Dev.setF_keeps kp hd1))
  with_reducible have hd3 : P d3 := Dev.raise_keeps kp hd2
  with_reducible exact kp.ite (fun _ => (kp.foldl hd3 (fun _ _ k3 => kp.ite (fun _ => (Dev.bringUp_keeps kp k3)) fun
                   _ => k3))) fun _ => hd

theorem Dev.showModes_keeps (kp : Keeps P) {d : Dev} (hd : P d) {g : Nat} : P (Dev.showModes d g) := by
  unfold Dev.showModes
  with_reducible exact kp.foldl hd (fun _ _ k3 => Dev.setF_keeps kp k3)

theorem Dev.layoutLive_keeps (kp : Keeps P) {d : Dev} (hd : P d) {g : Nat} {old new : Word} : P (Dev.layoutLive d g
    old new) := by
  unfold Dev.layoutLive
  lift_lets
  intro d1 src d2
  with_reducible have hd1 : P d1 := Dev.showModes_keeps kp hd
  with_reducible have hd2 : P d2 := kp.upd hd1
  with_reducible exact kp.ite (fun _ => hd1) fun _ => Dev.pllGone_keeps kp (Dev.setF_keeps kp hd2)

theorem Dev.adaptStep_keeps (kp : Keeps P) {d : Dev} (hd : P d) {l m : Nat} : P (Dev.adaptStep d l m) := by
  unfold Dev.adaptStep
  lift_lets
  intro p due v thr neg src d1 was src_1
  with_reducible have hd1 : P d1 := Dev.setF_keeps kp (kp.upd hd)
  with_reducible exact kp.ite (fun _ => (kp.ite (fun _ => (Dev.raise_keeps kp (kp.upd hd1))) fun _ => kp.ite (fun _
                   => (Dev.raise_keeps kp (kp.upd hd1))) fun _ => hd1)) fun _ => hd

theorem Dev.marginRetrain_keeps (kp : Keeps P) {d : Dev} (hd : P d) {l : Nat} : P (Dev.marginRetrain d l) := by
  unfold Dev.marginRetrain
  split
  · lift_lets
    intro d1 src
    with_reducible have hd1 : P d1 := Dev.pass_keeps kp hd
    with_reducible exact kp.ite (fun _ => (Dev.ethDown_keeps kp (kp.upd hd1))) fun _ => hd
  · with_reducible exact hd

theorem Dev.ilEstimate_keeps (kp : Keeps P) {d : Dev} (hd : P d) {l il : Nat} : P (Dev.ilEstimate d l il) := by
  unfold Dev.ilEstimate
  lift_lets
  intro p due src
  with_reducible exact kp.ite (fun _ => (Dev.setF_keeps kp (Dev.setF_keeps kp (Dev.setF_keeps kp (kp.upd hd))))) fun
                   _ => hd

theorem Dev.cdrLoss_keeps (kp : Keeps P) {d : Dev} (hd : P d) {l : Nat} : P (Dev.cdrLoss d l) := by
  unfold Dev.cdrLoss
  lift_lets
  intro p d0 d1
  with_reducible have hd0 : P d0 := kp.ite (fun _ => hd) fun _ => Dev.prbsGone_keeps kp hd
  with_reducible have hd1 : P d1 := Dev.count_keeps kp (Dev.setF_keeps kp hd0)
  with_reducible exact kp.ite (fun _ => (kp.ite (fun _ => hd1) fun _ => Dev.setF_keeps kp hd1)) fun _ => hd

theorem Dev.cdrLock_keeps (kp : Keeps P) {d : Dev} (hd : P d) {l : Nat} : P (Dev.cdrLock d l) := by
  unfold Dev.cdrLock
  lift_lets
  intro p d1
  with_reducible have hd1 : P d1 := Dev.setF_keeps kp (Dev.setF_keeps kp hd)
  with_reducible exact kp.ite (fun _ => (kp.ite (fun _ => (Dev.setF_keeps kp hd1)) fun _ => hd1)) fun _ => hd

theorem Dev.laneLive_keeps (kp : Keeps P) {d : Dev} (hd : P d) {l off : Nat} {old new : Word} : P (Dev.laneLive d l
    off old new) := by
  unfold Dev.laneLive
  lift_lets
  intro p d1 d2 d1_1 d1_2
  with_reducible have hd1 : P d1 := Dev.setF_keeps kp (Dev.setF_keeps kp (Dev.setF_keeps kp (Dev.prbsGone_keeps kp
                   hd)))
  have hd2 : P d2 := by
      unfold d2
      split
      · with_reducible exact kp.ite (fun _ => (Dev.ethDown_keeps kp hd1)) fun _ => hd1
      · with_reducible exact hd1
  have hd1_1 : P d1_1 := by
      unfold d1_1
      split
      · with_reducible exact Dev.bringUp_keeps kp hd
      · with_reducible exact hd
  with_reducible have hd1_2 : P d1_2 := Dev.prbsGone_keeps kp hd
  with_reducible exact kp.ite (fun _ => (kp.ite (fun _ => (Dev.refreshHealth_keeps kp hd2)) fun _ => kp.ite (fun _ =>
                   (Dev.refreshHealth_keeps kp hd1_1)) fun _ => hd)) fun _ => kp.ite (fun _ => (kp.ite (fun _ =>
                   (Dev.setF_keeps kp hd)) fun _ => kp.ite (fun _ => (Dev.setF_keeps kp hd)) fun _ => hd)) fun _ =>
                   kp.ite (fun _ => (kp.ite (fun _ => (Dev.setF_keeps kp hd1_2)) fun _ => hd1_2)) fun _ => hd

theorem Dev.modulePoll_keeps (kp : Keeps P) {d : Dev} (hd : P d) {g : Nat} {present : Bool} {mstate dpstate rev flags
    : Nat} : P (Dev.modulePoll d g present mstate dpstate rev flags) := by
  unfold Dev.modulePoll
  lift_lets
  intro p w d1 way at_ bad src
  with_reducible have hd1 : P d1 := kp.ite (fun _ => hd) fun _ => Dev.raise_keeps kp (Dev.setReg_keeps kp hd)
  with_reducible exact kp.ite (fun _ => (kp.upd hd1)) fun _ => hd

theorem Dev.modFault_keeps (kp : Keeps P) {d : Dev} (hd : P d) {g : Nat} : P (Dev.modFault d g) := by
  unfold Dev.modFault
  split
  · lift_lets
    intro d1 src d2
    with_reducible have hd1 : P d1 := Dev.pass_keeps kp hd
    with_reducible have hd2 : P d2 := Dev.raise_keeps kp (kp.upd hd1)
    with_reducible exact kp.ite (fun _ => (kp.foldl hd2 (fun _ _ k3 => by
        lift_lets
        intro e
        with_reducible exact kp.ite (fun _ => (Dev.ethDown_keeps kp k3)) fun _ => k3))) fun _ => hd
  · with_reducible exact hd

theorem Dev.modAcc_keeps (kp : Keeps P) {d : Dev} (hd : P d) {g : Nat} : P (Dev.modAcc d g) := by
  unfold Dev.modAcc
  lift_lets
  intro p key ack d1
  with_reducible have hd1 : P d1 := Dev.setFlag_keeps kp (Dev.setF_keeps kp hd)
  with_reducible exact kp.ite (fun _ => (Dev.setF_keeps kp hd1)) fun _ => hd1

theorem Dev.lgrpLive_keeps (kp : Keeps P) {d : Dev} (hd : P d) {g off : Nat} {old new : Word} : P (Dev.lgrpLive d g
    off old new) := by
  unfold Dev.lgrpLive
  lift_lets
  intro src
  with_reducible exact kp.ite (fun _ => (kp.ite (fun _ => hd) fun _ => Dev.layoutLive_keeps kp hd)) fun _ => kp.ite
                   (fun _ => (kp.ite (fun _ => (Dev.modAcc_keeps kp hd)) fun _ => hd)) fun _ => kp.ite (fun _ =>
                   (kp.upd hd)) fun _ => hd

theorem Dev.lgrpPower_keeps (kp : Keeps P) {d : Dev} (hd : P d) {g st : Nat} : P (Dev.lgrpPower d g st) := by
  unfold Dev.lgrpPower
  with_reducible exact kp.ite (fun _ => (kp.foldl hd (fun _ _ k3 => kp.ite (fun _ => (Dev.bringUp_keeps kp k3)) fun _
                   => k3))) fun _ => kp.foldl hd (fun _ _ k3 => by
      lift_lets
      intro e x1
      with_reducible have hx1 : P x1 := kp.ite (fun _ => (Dev.surveyDone_keeps kp k3)) fun _ => k3
      with_reducible exact Dev.ethLose_keeps kp hx1)

theorem Dev.lgrpReset_keeps (kp : Keeps P) {d : Dev} (hd : P d) {g : Nat} : P (Dev.lgrpReset d g) := by
  unfold Dev.lgrpReset
  lift_lets
  intro d1 d2 bad src d3
  with_reducible have hd1 : P d1 := kp.foldl hd (fun _ _ k3 => by
      lift_lets
      intro e x1
      with_reducible have hx1 : P x1 := kp.ite (fun _ => (Dev.surveyDone_keeps kp k3)) fun _ => k3
      with_reducible exact kp.ite (fun _ => hx1) fun _ => Dev.ethTo_keeps kp (Dev.ethLose_keeps kp hx1))
  with_reducible have hd2 : P d2 := Dev.resetPage_keeps kp hd1
  with_reducible have hd3 : P d3 := kp.upd hd2
  with_reducible exact Dev.showModes_keeps kp hd3

theorem Dev.ethLive_keeps (kp : Keeps P) {d : Dev} (hd : P d) {e off : Nat} {old new : Word} : P (Dev.ethLive d e off
    old new) := by
  unfold Dev.ethLive
  lift_lets
  intro st d1
  with_reducible have hd1 : P d1 := kp.ite (fun _ => (Dev.ethLose_keeps kp (Dev.setF_keeps kp hd))) fun _ => hd
  with_reducible exact kp.ite (fun _ => (kp.ite (fun _ => hd) fun _ => Dev.ethEnable_keeps kp hd)) fun _ => kp.ite
                   (fun _ => (kp.ite (fun _ => (Dev.ethDown_keeps kp hd)) fun _ => hd)) fun _ => kp.ite (fun _ =>
                   (kp.ite (fun _ => (Dev.svGo_keeps kp hd1)) fun _ => hd1)) fun _ => hd

theorem Dev.ethReset_keeps (kp : Keeps P) {d : Dev} (hd : P d) {e : Nat} : P (Dev.ethReset d e) := by
  unfold Dev.ethReset
  lift_lets
  intro d1 src
  with_reducible have hd1 : P d1 := Dev.resetPage_keeps kp (Dev.ethEnable_keeps kp hd)
  with_reducible exact Dev.setF_keeps kp (kp.upd hd1)

theorem Dev.laneReset_keeps (kp : Keeps P) {d : Dev} (hd : P d) {l : Nat} : P (Dev.laneReset d l) := by
  unfold Dev.laneReset
  lift_lets
  intro d1 low at_ src
  with_reducible have hd1 : P d1 := Dev.resetPage_keeps kp hd
  with_reducible exact kp.upd hd1

theorem Dev.setFt_keeps (kp : Keeps P) {d : Dev} (hd : P d) {f w : Nat} {v : Word} : P (Dev.setFt d f w v) := by
  unfold Dev.setFt
  lift_lets
  intro src
  with_reducible exact kp.upd hd

theorem Dev.ftRefuse_keeps (kp : Keeps P) {d : Dev} (hd : P d) {src : Source} {f w cause : Nat} {v : Word} : P
    (Dev.ftRefuse d src f w cause v) := by
  unfold Dev.ftRefuse
  lift_lets
  intro p
  with_reducible exact Dev.refuse_keeps kp (Dev.setReg_keeps kp hd)

theorem Dev.ftStart_keeps (kp : Keeps P) {d : Dev} (hd : P d) {f : Nat} : P (Dev.ftStart d f) := by
  unfold Dev.ftStart
  lift_lets
  intro e d1 k s src src_1
  with_reducible have hd1 : P d1 := Dev.setFt_keeps kp hd
  with_reducible exact kp.ite (fun _ => (Dev.setTxFlow_keeps kp hd1)) fun _ => kp.upd hd1

theorem Dev.ftStop_keeps (kp : Keeps P) {d : Dev} (hd : P d) {f : Nat} : P (Dev.ftStop d f) := by
  unfold Dev.ftStop
  lift_lets
  intro d1 src
  with_reducible have hd1 : P d1 := Dev.setFt_keeps kp hd
  with_reducible exact kp.upd hd1

theorem Dev.ftWrite_keeps (kp : Keeps P) {d : Dev} (hd : P d) {src : Source} {f w : Nat} {v : Word} {whole : Bool} :
    P (Dev.ftWrite d src f w v whole) := by
  unfold Dev.ftWrite
  lift_lets
  intro cause d1
  with_reducible have hd1 : P d1 := Dev.setFt_keeps kp hd
  with_reducible exact kp.ite (fun _ => (Dev.ftRefuse_keeps kp hd)) fun _ => kp.ite (fun _ => hd) fun _ => kp.ite
                   (fun _ => hd1) fun _ => kp.ite (fun _ => (Dev.ftStop_keeps kp hd1)) fun _ => kp.ite (fun _ =>
                   (Dev.ftStart_keeps kp hd1)) fun _ => hd1

theorem Dev.mediaClr_keeps (kp : Keeps P) {d : Dev} (hd : P d) {m : Nat} : P (Dev.mediaClr d m) := by
  unfold Dev.mediaClr
  with_reducible exact kp.foldl hd (fun _ _ k2 => kp.ite (fun _ => (Dev.setFt_keeps kp k2)) fun _ => k2)

theorem Dev.entLost_keeps (kp : Keeps P) {d : Dev} (hd : P d) {f n : Nat} : P (Dev.entLost d f n) := by
  unfold Dev.entLost
  lift_lets
  intro r d1
  with_reducible have hd1 : P d1 := Dev.setFt_keeps kp hd
  with_reducible exact kp.ite (fun _ => (Dev.raiseCode_keeps kp hd1)) fun _ => hd1

theorem Dev.setRxFlow_keeps (kp : Keeps P) {d : Dev} (hd : P d) {f : Nat} {x : RxFlow} : P (Dev.setRxFlow d f x) := by
  unfold Dev.setRxFlow
  lift_lets
  intro src
  with_reducible exact kp.upd hd

theorem Dev.rxWord_keeps (kp : Keeps P) {d : Dev} (hd : P d) {f ch ts : Nat} {w : Word} {marker : Bool} : P
    (Dev.rxWord d f ch ts w marker) := by
  unfold Dev.rxWord
  lift_lets
  intro e
  with_reducible exact Dev.pushFlow_keeps kp hd

theorem Dev.rxFault_keeps (kp : Keeps P) {d : Dev} (hd : P d) {f n : Nat} : P (Dev.rxFault d f n) := by
  unfold Dev.rxFault
  lift_lets
  intro e r x d1
  with_reducible have hd1 : P d1 := kp.foldl hd (fun _ _ k2 => kp.foldl k2 (fun _ _ k3 => Dev.rxWord_keeps kp k3))
  with_reducible exact Dev.setRxFlow_keeps kp hd1

theorem Dev.rxAudio_keeps (kp : Keeps P) {d : Dev} (hd : P d) {f : Nat} {p : RtpPacket} : P (Dev.rxAudio d f p).1 :=
    by
  unfold Dev.rxAudio
  lift_lets
  intro e r x k s skip d1
  with_reducible have hd1 : P d1 := kp.foldl hd (fun _ _ k3 => kp.foldl k3 (fun _ _ k4 => Dev.rxWord_keeps kp k4))
  with_reducible exact kp.ite_fst (fun _ => hd) fun _ => Dev.setRxFlow_keeps kp hd1

theorem Dev.rxWords_keeps (kp : Keeps P) {d : Dev} (hd : P d) {f ts : Nat} {ws : List Word} : P (Dev.rxWords d f ts
    ws) := by
  unfold Dev.rxWords
  with_reducible exact kp.foldl hd (fun _ _ k2 => Dev.rxWord_keeps kp k2)

theorem Dev.rxBytes_keeps (kp : Keeps P) {d : Dev} (hd : P d) {f : Nat} {b : List Nat} : P (Dev.rxBytes d f b) := by
  unfold Dev.rxBytes
  lift_lets
  intro e x fs ts p off tail d1 last d2
  with_reducible have hd1 : P d1 := Dev.rxWords_keeps kp hd
  with_reducible have hd2 : P d2 := kp.ite (fun _ => (Dev.rxWord_keeps kp hd1)) fun _ => hd1
  with_reducible exact kp.ite (fun _ => (Dev.setRxFlow_keeps kp hd2)) fun _ => Dev.setRxFlow_keeps kp
                   (Dev.rxWords_keeps kp hd)

theorem Dev.rxFillTo_keeps (kp : Keeps P) {d : Dev} (hd : P d) {f b : Nat} : P (Dev.rxFillTo d f b) := by
  unfold Dev.rxFillTo
  lift_lets
  intro a
  with_reducible exact kp.ite (fun _ => (Dev.rxBytes_keeps kp hd)) fun _ => hd

theorem Dev.rxFill_keeps (kp : Keeps P) {d : Dev} (hd : P d) {f line off : Nat} : P (Dev.rxFill d f line off) := by
  unfold Dev.rxFill
  lift_lets
  intro e d1
  with_reducible have hd1 : P d1 := kp.foldl hd (fun _ _ k2 => Dev.rxFillTo_keeps kp k2)
  with_reducible exact kp.ite (fun _ => (Dev.rxFillTo_keeps kp hd1)) fun _ => hd1

theorem Dev.rxNewFrame_keeps (kp : Keeps P) {d : Dev} (hd : P d) {f fs : Nat} : P (Dev.rxNewFrame d f fs) := by
  unfold Dev.rxNewFrame
  lift_lets
  intro e x d1 vr
  with_reducible have hd1 : P d1 := Dev.rxFill_keeps kp hd
  split
  · with_reducible exact Dev.setRxFlow_keeps kp hd
  · lift_lets
    intro a d2 src
    with_reducible have hd2 : P d2 := kp.foldl hd1 (fun _ _ k2 => (Dev.rxFill_keeps kp (Dev.setRxFlow_keeps kp k2)))
    with_reducible exact kp.ite (fun _ => hd) fun _ => (Dev.setRxFlow_keeps kp hd2)

theorem Dev.rxSeg_keeps (kp : Keeps P) {d : Dev} (hd : P d) {f : Nat} {first : Bool} {s : LineSeg} : P (Dev.rxSeg d f
    first s) := by
  unfold Dev.rxSeg
  lift_lets
  intro e x line
  with_reducible exact kp.ite (fun _ => (Dev.rxBytes_keeps kp (Dev.setRxFlow_keeps kp hd))) fun _ => kp.ite (fun _ =>
                   hd) fun _ => Dev.rxBytes_keeps kp (Dev.rxFill_keeps kp hd)

theorem Dev.rxVideo_keeps (kp : Keeps P) {d : Dev} (hd : P d) {f : Nat} {p : RtpPacket} : P (Dev.rxVideo d f p) := by
  unfold Dev.rxVideo
  lift_lets
  intro fs first d1
  with_reducible have hd1 : P d1 := Dev.rxNewFrame_keeps kp hd
  split
  · with_reducible exact hd1
  · with_reducible exact kp.foldl (Dev.rxSeg_keeps kp hd1) (fun _ _ k2 => (Dev.rxSeg_keeps kp k2))

theorem Dev.rxPayload_keeps (kp : Keeps P) {d : Dev} (hd : P d) {f : Nat} {p : RtpPacket} : P (Dev.rxPayload d f p)
    := by
  unfold Dev.rxPayload
  lift_lets
  intro ts w d1
  with_reducible have hd1 : P d1 := Dev.rxWords_keeps kp hd
  with_reducible exact kp.ite (fun _ => (Dev.rxWord_keeps kp hd1)) fun _ => hd1

theorem Dev.rxDeliver_keeps (kp : Keeps P) {d : Dev} (hd : P d) {f : Nat} {p : RtpPacket} : P (Dev.rxDeliver d f p) := by
  unfold Dev.rxDeliver
  lift_lets
  intro e r d1 x
  with_reducible have hr : P r.1 := kp.ite_fst (fun _ => (Dev.rxAudio_keeps kp hd)) fun _ => (kp.ite (fun _ =>
                   (Dev.rxVideo_keeps kp hd)) fun _ => (Dev.rxPayload_keeps kp hd))
  with_reducible have hd1 : P d1 := kp.ite (fun _ => hr) fun _ => (Dev.count_keeps kp hr)
  with_reducible exact Dev.setRxFlow_keeps kp hd1

theorem Dev.rxDrain_keeps (kp : Keeps P) {d : Dev} (hd : P d) {f x2 : Nat} : P (Dev.rxDrain d f x2) := by
  unfold Dev.rxDrain
  lift_lets
  intro x
  split
  · with_reducible exact hd
  · split
    · with_reducible exact Dev.rxDrain_keeps kp (Dev.rxDeliver_keeps kp (Dev.setRxFlow_keeps kp hd))
    · with_reducible exact hd

theorem Dev.rxPlace_keeps (kp : Keeps P) {d : Dev} (hd : P d) {f : Nat} {p : RtpPacket} : P (Dev.rxPlace d f p) := by
  unfold Dev.rxPlace
  lift_lets
  intro e m x a back
  with_reducible exact kp.ite (fun _ => (Dev.rxDrain_keeps kp (Dev.rxDeliver_keeps kp hd))) fun _ => (kp.ite (fun _ =>
                   (kp.ite (fun _ => (Dev.count_keeps kp hd)) fun _ => (Dev.setRxFlow_keeps kp hd))) fun _ => (kp.ite
                   (fun _ => (Dev.count_keeps kp hd)) fun _ => (Dev.count_keeps kp hd)))

theorem Dev.pathSeen_keeps (kp : Keeps P) {d : Dev} (hd : P d) {f : Nat} {b : Bool} : P (Dev.pathSeen d f b) := by
  unfold Dev.pathSeen
  lift_lets
  intro x bit d1
  with_reducible have hd1 : P d1 := Dev.setRxFlow_keeps kp hd
  with_reducible exact kp.ite (fun _ => hd1) fun _ => Dev.raise_keeps kp (Dev.setFt_keeps kp hd1)

theorem Dev.rxPacket_keeps (kp : Keeps P) {d : Dev} (hd : P d) {f : Nat} {b : Bool} {p : RtpPacket} : P (Dev.rxPacket d f
    b p) := by
  unfold Dev.rxPacket
  lift_lets
  intro d1 x
  with_reducible have hd1 : P d1 := Dev.pathSeen_keeps kp (Dev.count64_keeps kp hd)
  with_reducible exact kp.ite (fun _ => (Dev.rxPlace_keeps kp hd1)) fun _ => (Dev.rxPlace_keeps kp (Dev.setRxFlow_keeps
                   kp hd1))

theorem Dev.toHost_keeps (kp : Keeps P) {d : Dev} (hd : P d) {m port : Nat} {bytes : List Nat} {stamp : Option Nat} :
    P (Dev.toHost d m port bytes stamp) := by
  unfold Dev.toHost
  lift_lets
  intro src
  with_reducible exact kp.upd hd

theorem Dev.rxMulticast_keeps (kp : Keeps P) {d : Dev} (hd : P d) {m port : Nat} {bytes : List Nat} : P
    (Dev.rxMulticast d m port bytes) := by
  unfold Dev.rxMulticast
  with_reducible exact kp.ite (fun _ => (Dev.toHost_keeps kp hd)) fun _ => Dev.count_keeps kp hd

theorem Dev.engineRx_keeps (kp : Keeps P) {d : Dev} (hd : P d) {port : Nat} {x2 : EthFrame} : P (Dev.engineRx d port x2)
    := by
  unfold Dev.engineRx
  split
  · split
    · with_reducible exact kp.ite (fun _ => (Dev.rxPacket_keeps kp hd)) fun _ => hd
    · with_reducible exact Dev.rxMulticast_keeps kp hd
  · with_reducible exact Dev.toHost_keeps kp hd
  · with_reducible exact Dev.toHost_keeps kp hd
  · with_reducible exact Dev.rxMulticast_keeps kp hd
  · with_reducible exact hd

theorem Dev.packetReceive_keeps (kp : Keeps P) {d : Dev} (hd : P d) {port : Nat} {x : EthFrame} : P (Dev.packetReceive d
    port x) := by
  unfold Dev.packetReceive
  lift_lets
  intro p b d1
  with_reducible have hd1 : P d1 := Dev.count64_keeps kp (Dev.count64_keeps kp hd)
  with_reducible exact (kp.ite (fun _ => hd) fun _ => (by
          split
          · with_reducible exact Dev.count64_keeps kp hd
          · with_reducible exact (kp.ite (fun _ => (Dev.count64_keeps kp hd)) fun _ => (by
          split
          · with_reducible exact Dev.count64_keeps kp hd
          · with_reducible exact (kp.ite (fun _ => (Dev.engineRx_keeps kp hd1)) fun _ => hd1)))))

theorem Dev.raiseLost_keeps (kp : Keeps P) {d : Dev} (hd : P d) {f : Nat} : P (Dev.raiseLost d f) := by
  unfold Dev.raiseLost
  lift_lets
  intro m due src
  with_reducible exact kp.ite (fun _ => (Dev.raise_keeps kp (kp.upd hd))) fun _ => hd

theorem Dev.rxFaultGap_keeps (kp : Keeps P) {d : Dev} (hd : P d) {f n ts : Nat} : P (Dev.rxFaultGap d f n ts) := by
  unfold Dev.rxFaultGap
  lift_lets
  intro e k
  with_reducible exact Dev.rxFault_keeps kp hd

theorem Dev.gapTimeout_keeps (kp : Keeps P) {d : Dev} (hd : P d) {f : Nat} : P (Dev.gapTimeout d f) := by
  unfold Dev.gapTimeout
  lift_lets
  intro e x opened d1
  with_reducible have hd1 : P d1 := Dev.pass_keeps kp hd
  split
  · with_reducible exact hd
  · lift_lets
    intro n d2 d3 y lost d4
    with_reducible have hd2 : P d2 := Dev.count_keeps kp (Dev.entLost_keeps kp hd1)
    with_reducible have hd3 : P d3 := kp.ite (fun _ => (Dev.rxFaultGap_keeps kp hd2)) fun _ => hd2
    with_reducible have hd4 : P d4 := Dev.raiseLost_keeps kp (Dev.setRxFlow_keeps kp hd3)
    with_reducible exact kp.ite (fun _ => (Dev.rxDrain_keeps kp hd4)) fun _ => hd

theorem Dev.audioTimeout_keeps (kp : Keeps P) {d : Dev} (hd : P d) {f : Nat} : P (Dev.audioTimeout d f) := by
  unfold Dev.audioTimeout
  lift_lets
  intro e x due d1 src
  with_reducible have hd1 : P d1 := Dev.rxFault_keeps kp (Dev.pass_keeps kp hd)
  with_reducible exact kp.ite (fun _ => (Dev.setRxFlow_keeps kp hd1)) fun _ => hd

theorem Dev.pathDown_keeps (kp : Keeps P) {d : Dev} (hd : P d) {f : Nat} {b : Bool} : P (Dev.pathDown d f b) := by
  unfold Dev.pathDown
  lift_lets
  intro e x bit d1
  with_reducible have hd1 : P d1 := Dev.pass_keeps kp hd
  with_reducible exact kp.ite (fun _ => (Dev.raise_keeps kp (Dev.setFt_keeps kp hd1))) fun _ => hd

theorem Dev.rtpOut_keeps (kp : Keeps P) {d : Dev} (hd : P d) {port f seq ts : Nat} {mark : Bool} {data : List Nat}
    {octets : Nat} : P (Dev.rtpOut d port f seq ts mark data octets) := by
  unfold Dev.rtpOut
  lift_lets
  intro p
  with_reducible exact kp.ite (fun _ => (Dev.ethSend_keeps kp (Dev.count64_keeps kp (Dev.count64_keeps kp
                   (Dev.count64_keeps kp hd))))) fun _ => hd

theorem Dev.txOut_keeps (kp : Keeps P) {d : Dev} (hd : P d) {f seq ts : Nat} {mark : Bool} {data : List Nat} {octets
    : Nat} : P (Dev.txOut d f seq ts mark data octets) := by
  unfold Dev.txOut
  lift_lets
  intro e d1
  with_reducible have hd1 : P d1 := Dev.rtpOut_keeps kp hd
  with_reducible exact kp.ite (fun _ => (Dev.rtpOut_keeps kp hd1)) fun _ => hd1

theorem Dev.raiseMissTx_keeps (kp : Keeps P) {d : Dev} (hd : P d) {f : Nat} : P (Dev.raiseMissTx d f) := by
  unfold Dev.raiseMissTx
  lift_lets
  intro m due src
  with_reducible exact kp.ite (fun _ => (Dev.raise_keeps kp (kp.upd hd))) fun _ => hd

theorem Dev.txMarks_keeps (kp : Keeps P) {d : Dev} (hd : P d) {f miss : Nat} {pois : Bool} : P (Dev.txMarks d f miss
    pois) := by
  unfold Dev.txMarks
  lift_lets
  intro p d1 d2
  with_reducible have hd1 : P d1 := kp.ite (fun _ => (Dev.raiseMissTx_keeps kp (Dev.count_keeps kp hd))) fun _ => hd
  with_reducible have hd2 : P d2 := kp.ite (fun _ => (Dev.raise_keeps kp (Dev.count_keeps kp hd1))) fun _ => hd1
  with_reducible exact kp.ite (fun _ => (Dev.entLost_keeps kp hd2)) fun _ => hd2

theorem Dev.txAudio_keeps (kp : Keeps P) {d : Dev} (hd : P d) {f : Nat} : P (Dev.txAudio d f) := by
  unfold Dev.txAudio
  lift_lets
  intro e r x s d1 at_ ws data miss pois d2 rest
  with_reducible have hd1 : P d1 := Dev.reach_keeps kp hd
  with_reducible have hd2 : P d2 := Dev.txMarks_keeps kp (Dev.txOut_keeps kp hd1)
  with_reducible exact Dev.setTxFlow_keeps kp hd2

theorem Dev.txVideo_keeps (kp : Keeps P) {d : Dev} (hd : P d) {f : Nat} : P (Dev.txVideo d f) := by
  unfold Dev.txVideo
  lift_lets
  intro e x lines ppl n line a b ws base bytes miss pois last octets
  split
  · with_reducible exact Dev.setTxFlow_keeps kp hd
  · lift_lets
    intro d1 data d2 y
    with_reducible have hd1 : P d1 := Dev.reach_keeps kp hd
    with_reducible have hd2 : P d2 := Dev.txMarks_keeps kp (Dev.txOut_keeps kp hd1)
    with_reducible exact Dev.setTxFlow_keeps kp hd2

theorem Dev.txPayload_keeps (kp : Keeps P) {d : Dev} (hd : P d) {f : Nat} : P (Dev.txPayload d f) := by
  unfold Dev.txPayload
  lift_lets
  intro e x ws full marked take last gap pois rest
  with_reducible exact kp.ite (fun _ => (by
      split
      · with_reducible exact hd
      · lift_lets
        intro d1 data d2
        with_reducible have hd1 : P d1 := Dev.reach_keeps kp hd
        with_reducible have hd2 : P d2 := Dev.txMarks_keeps kp (Dev.txOut_keeps kp hd1)
        with_reducible exact Dev.setTxFlow_keeps kp hd2)) fun _ => hd

theorem Dev.showTxts_keeps (kp : Keeps P) {d : Dev} (hd : P d) {port : Nat} : P (Dev.showTxts d port) := by
  unfold Dev.showTxts
  lift_lets
  intro p l w
  with_reducible exact Dev.setReg_keeps kp (Dev.setReg_keeps kp (Dev.setReg_keeps kp hd))

theorem Dev.txStamp_keeps (kp : Keeps P) {d : Dev} (hd : P d) {port seq : Nat} : P (Dev.txStamp d port seq) := by
  unfold Dev.txStamp
  lift_lets
  intro l src
  with_reducible exact kp.ite (fun _ => (Dev.count_keeps kp hd)) fun _ => Dev.raise_keeps kp (Dev.showTxts_keeps kp
                   (kp.upd hd))

theorem Dev.txtsPop_keeps (kp : Keeps P) {d : Dev} (hd : P d) {port : Nat} : P (Dev.txtsPop d port) := by
  unfold Dev.txtsPop
  lift_lets
  intro src
  with_reducible exact Dev.showTxts_keeps kp (kp.upd hd)

theorem Dev.hostOut_keeps (kp : Keeps P) {d : Dev} (hd : P d) {port : Nat} {bytes : List Nat} {ptp : Option (Bool ×
    Nat)} : P (Dev.hostOut d port bytes ptp) := by
  unfold Dev.hostOut
  lift_lets
  intro p oneStep d1
  with_reducible have hd1 : P d1 := Dev.ethSend_keeps kp (Dev.count64_keeps kp (Dev.count64_keeps kp hd))
  with_reducible exact kp.ite (fun _ => (by
      split
      · with_reducible exact kp.ite (fun _ => (Dev.txStamp_keeps kp hd1)) fun _ => kp.ite (fun _ =>
                         (Dev.ethSend_keeps kp hd1)) fun _ => hd1
      · with_reducible exact hd1)) fun _ => hd

theorem Dev.packetSend_keeps (kp : Keeps P) {d : Dev} (hd : P d) {x1 : TxItem} : P (Dev.packetSend d x1) := by
  unfold Dev.packetSend
  lift_lets
  intro src
  split
  · lift_lets
    intro e
    with_reducible exact kp.ite (fun _ => (kp.ite (fun _ => (Dev.txAudio_keeps kp hd)) fun _ => kp.ite (fun _ =>
                     (Dev.txVideo_keeps kp hd)) fun _ => Dev.txPayload_keeps kp hd)) fun _ => hd
  · split
    · with_reducible exact Dev.hostOut_keeps kp (kp.upd hd)
    · with_reducible exact hd

theorem Dev.ethTimeLive_keeps (kp : Keeps P) {d : Dev} (hd : P d) {e off : Nat} {new : Word} : P (Dev.ethTimeLive d e
    off new) := by
  unfold Dev.ethTimeLive
  with_reducible exact kp.ite (fun _ => (Dev.txtsPop_keeps kp hd)) fun _ => hd

theorem Dev.setArb_keeps (kp : Keeps P) {d : Dev} (hd : P d) {w v : Nat} : P (Dev.setArb d w v) := by
  unfold Dev.setArb
  lift_lets
  intro src
  with_reducible exact kp.upd hd

theorem Dev.tapLost_keeps (kp : Keeps P) {d : Dev} (hd : P d) {w i win : Nat} : P (Dev.tapLost d w i win) := by
  unfold Dev.tapLost
  lift_lets
  intro p b f d1 d2
  with_reducible have hd1 : P d1 := Dev.setReg_keeps kp (Dev.setArb_keeps kp hd)
  with_reducible have hd2 : P d2 := Dev.setReg_keeps kp (Dev.setF_keeps kp hd1)
  with_reducible exact Dev.raise_keeps kp (Dev.count_keeps kp hd2)

theorem Dev.settleTrunk_keeps (kp : Keeps P) {d : Dev} (hd : P d) {w : Nat} : P (Dev.settleTrunk d w) := by
  unfold Dev.settleTrunk
  split
  · with_reducible exact hd
  · with_reducible exact kp.foldl hd (fun _ _ k2 => kp.ite (fun _ => (Dev.tapLost_keeps kp k2)) fun _ => k2)

theorem Dev.tapIn_keeps (kp : Keeps P) {d : Dev} (hd : P d) {n b : Nat} : P (Dev.tapIn d n b) := by
  unfold Dev.tapIn
  lift_lets
  intro w
  with_reducible exact kp.ite (fun _ => hd) fun _ => Dev.setArb_keeps kp hd

theorem Dev.tapOut_keeps (kp : Keeps P) {d : Dev} (hd : P d) {n b : Nat} : P (Dev.tapOut d n b) := by
  unfold Dev.tapOut
  lift_lets
  intro w
  with_reducible exact kp.ite (fun _ => (Dev.setArb_keeps kp hd)) fun _ => hd

theorem Dev.tapsEnter_keeps (kp : Keeps P) {d : Dev} (hd : P d) {ns : List Nat} : P (Dev.tapsEnter d ns) := by
  unfold Dev.tapsEnter
  lift_lets
  intro taps d1
  with_reducible have hd1 : P d1 := kp.foldl hd (fun _ _ k2 => Dev.tapIn_keeps kp k2)
  with_reducible exact kp.foldl hd1 (fun _ _ k2 => Dev.settleTrunk_keeps kp k2)

theorem Dev.tapsLeave_keeps (kp : Keeps P) {d : Dev} (hd : P d) {n : Nat} : P (Dev.tapsLeave d n) := by
  unfold Dev.tapsLeave
  lift_lets
  intro d1
  with_reducible have hd1 : P d1 := kp.foldl hd (fun _ _ k2 => Dev.tapOut_keeps kp k2)
  with_reducible exact kp.ite (fun _ => (Dev.setF_keeps kp (kp.foldl hd1 (fun _ _ k2 => Dev.setReg_keeps kp k2))))
                   fun _ => hd1

theorem Dev.tapRearm_keeps (kp : Keeps P) {d : Dev} (hd : P d) {n : Nat} : P (Dev.tapRearm d n) := by
  unfold Dev.tapRearm
  lift_lets
  intro p lost d1 d2
  with_reducible have hd1 : P d1 := Dev.setF_keeps kp (kp.foldl hd (fun _ _ k2 => Dev.setReg_keeps kp k2))
  with_reducible have hd2 : P d2 := kp.foldl (Dev.setF_keeps kp hd1) (fun _ _ k2 => Dev.tapIn_keeps kp k2)
  with_reducible exact kp.foldl hd2 (fun _ _ k2 => Dev.settleTrunk_keeps kp k2)

theorem Dev.ffsStep_keeps (kp : Keeps P) {d : Dev} (hd : P d) {n : Nat} : P (Dev.ffsStep d n) := by
  unfold Dev.ffsStep
  lift_lets
  intro x y src
  with_reducible exact kp.ite (fun _ => (Dev.setRegion_keeps kp hd)) fun _ => hd

theorem Dev.fabricTick_keeps (kp : Keeps P) {d : Dev} (hd : P d) : P (Dev.fabricTick d) := by
  unfold Dev.fabricTick
  with_reducible exact kp.foldl hd (fun _ _ k2 => Dev.ffsStep_keeps kp k2)

theorem Dev.bramPut_keeps (kp : Keeps P) {d : Dev} (hd : P d) {n b w v : Nat} {pois : Bool} : P (Dev.bramPut d n b w
    v pois) := by
  unfold Dev.bramPut
  lift_lets
  intro x k l
  with_reducible exact Dev.setRegion_keeps kp hd

theorem Dev.bramCe_keeps (kp : Keeps P) {d : Dev} (hd : P d) {n b : Nat} : P (Dev.bramCe d n b) := by
  unfold Dev.bramCe
  lift_lets
  intro d1 due src
  with_reducible have hd1 : P d1 := Dev.count_keeps kp hd
  with_reducible exact kp.ite (fun _ => (Dev.raise_keeps kp (kp.upd hd1))) fun _ => hd1

theorem Dev.bramUe_keeps (kp : Keeps P) {d : Dev} (hd : P d) {n b w : Nat} : P (Dev.bramUe d n b w) := by
  unfold Dev.bramUe
  lift_lets
  intro p d1
  with_reducible have hd1 : P d1 := Dev.setReg_keeps kp (Dev.bramPut_keeps kp hd)
  with_reducible exact Dev.raise_keeps kp (Dev.count_keeps kp hd1)

theorem Dev.bramRead_keeps (kp : Keeps P) {d : Dev} (hd : P d) {n b w : Nat} {e : EccEvent} : P (Dev.bramRead d n b w
    e).1 := by
  unfold Dev.bramRead
  lift_lets
  intro x v
  exact kp.ite_fst (fun _ => hd) fun _ => kp.ite_fst (fun _ => hd) fun _ => by
      split
      · with_reducible exact hd
      · with_reducible exact Dev.bramCe_keeps kp hd
      · with_reducible exact Dev.bramUe_keeps kp hd

theorem Dev.bramWrite_keeps (kp : Keeps P) {d : Dev} (hd : P d) {n b : Nat} {o : BramOp} : P (Dev.bramWrite d n b o)
    := by
  unfold Dev.bramWrite
  lift_lets
  intro w r
  with_reducible have hr : P r.1 := Dev.bramRead_keeps kp hd
  with_reducible exact kp.ite (fun _ => (Dev.bramPut_keeps kp hd)) fun _ => kp.ite (fun _ => (Dev.bramPut_keeps kp
                   hd)) fun _ => Dev.bramPut_keeps kp hr

theorem Dev.bramPort_keeps (kp : Keeps P) {d : Dev} (hd : P d) {n b : Nat} {o : BramOp} : P (Dev.bramPort d n b o) :=
    by
  unfold Dev.bramPort
  lift_lets
  intro r
  with_reducible have hr : P r.1 := Dev.bramRead_keeps kp hd
  with_reducible exact kp.ite (fun _ => hd) fun _ => kp.ite (fun _ => hr) fun _ => Dev.send_keeps kp hr

theorem Dev.bramAccess_keeps (kp : Keeps P) {d : Dev} (hd : P d) {n b : Nat} {pa pb : Option BramOp} : P
    (Dev.bramAccess d n b pa pb) := by
  unfold Dev.bramAccess
  lift_lets
  intro rd wr
  have hrd : ∀ y0 y1, P y0 → P (rd y0 y1) := fun _ _ q0 => by
      unfold rd
      split
      · with_reducible exact Dev.bramPort_keeps kp q0
      · with_reducible exact q0
  have hwr : ∀ y0 y1, P y0 → P (wr y0 y1) := fun _ _ q0 => by
      unfold wr
      split
      · with_reducible exact kp.ite (fun _ => (Dev.bramWrite_keeps kp q0)) fun _ => q0
      · with_reducible exact q0
  with_reducible exact kp.ite (fun _ => hd) fun _ => hwr _ _ (hwr _ _ (hrd _ _ (hrd _ _ hd)))

theorem Dev.walkStale_keeps (kp : Keeps P) {d : Dev} (hd : P d) {n b : Nat} {stale : Bool} : P (Dev.walkStale d n b
    stale) := by
  unfold Dev.walkStale
  lift_lets
  intro x p was s
  with_reducible exact kp.ite (fun _ => hd) fun _ => kp.ite (fun _ => (Dev.raise_keeps kp (Dev.setF_keeps kp
                   (Dev.setRegion_keeps kp hd)))) fun _ => kp.ite (fun _ => (Dev.setF_keeps kp (Dev.setRegion_keeps
                   kp hd))) fun _ => hd

theorem Dev.oscMeasure_keeps (kp : Keeps P) {d : Dev} (hd : P d) {k khz : Nat} : P (Dev.oscMeasure d k khz) := by
  unfold Dev.oscMeasure
  lift_lets
  intro p d1
  with_reducible have hd1 : P d1 := Dev.setReg_keeps kp hd
  with_reducible exact kp.ite (fun _ => (kp.ite (fun _ => (Dev.raise_keeps kp hd1)) fun _ => hd1)) fun _ => hd

theorem Dev.ustoreErr_keeps (kp : Keeps P) {d : Dev} (hd : P d) {q : UReq} {why : Nat} : P (Dev.ustoreErr d q why) :=
    by
  unfold Dev.ustoreErr
  lift_lets
  intro p
  with_reducible exact Dev.send_keeps kp (Dev.raise_keeps kp (Dev.count_keeps kp hd))

theorem Dev.ustoreNext_keeps (kp : Keeps P) {d : Dev} (hd : P d) : P (Dev.ustoreNext d) := by
  unfold Dev.ustoreNext
  lift_lets
  intro hold order src
  split
  · with_reducible exact hd
  · split
    · with_reducible exact hd
    · with_reducible exact kp.upd hd

theorem Dev.ustoreRequest_keeps (kp : Keeps P) {d : Dev} (hd : P d) {n : Nat} {write : Bool} {addr : Nat} {data :
    List Nat} {len : Nat} : P (Dev.ustoreRequest d n write addr data len) := by
  unfold Dev.ustoreRequest
  lift_lets
  intro bytes q src
  with_reducible exact kp.ite (fun _ => (Dev.send_keeps kp hd)) fun _ => kp.ite (fun _ => (by
      split
      · with_reducible exact kp.ite (fun _ => (Dev.ustoreNext_keeps kp (kp.upd hd))) fun _ => Dev.ustoreErr_keeps kp
                         hd
      · with_reducible exact Dev.ustoreErr_keeps kp hd)) fun _ => hd

theorem Dev.fregLive_keeps (kp : Keeps P) {d : Dev} (hd : P d) {n off : Nat} {old new : Word} : P (Dev.fregLive d n
    off old new) := by
  unfold Dev.fregLive
  lift_lets
  intro p i x
  with_reducible exact kp.ite (fun _ => (kp.ite (fun _ => (Dev.tapRearm_keeps kp hd)) fun _ => hd)) fun _ => kp.ite
                   (fun _ => (Dev.setReg_keeps kp hd)) fun _ => kp.ite (fun _ => (kp.ite (fun _ => (Dev.setF_keeps kp
                   (Dev.setRegion_keeps kp hd))) fun _ => hd)) fun _ => hd

theorem Dev.fregPower_keeps (kp : Keeps P) {d : Dev} (hd : P d) {n old new : Nat} : P (Dev.fregPower d n old new) :=
    by
  unfold Dev.fregPower
  lift_lets
  intro d1
  with_reducible have hd1 : P d1 := kp.ite (fun _ => (Dev.ffsInit_keeps kp hd)) fun _ => hd
  with_reducible exact kp.ite (fun _ => (Dev.tapsLeave_keeps kp hd)) fun _ => kp.ite (fun _ => (kp.ite (fun _ =>
                   (Dev.tapsEnter_keeps kp hd1)) fun _ => hd1)) fun _ => hd

theorem Dev.fregReset_keeps (kp : Keeps P) {d : Dev} (hd : P d) {n : Nat} : P (Dev.fregReset d n) := by
  unfold Dev.fregReset
  lift_lets
  intro p osc keep d1 d2 x
  with_reducible have hd1 : P d1 := Dev.resetPage_keeps kp hd
  with_reducible have hd2 : P d2 := kp.ite (fun _ => (Dev.ffsInit_keeps kp hd1)) fun _ => hd1
  with_reducible exact Dev.setRegion_keeps kp hd2

end Sys2Proof.Machine
end

