-- ==== Sys2Proof/Laws/KeepsHost.lean ====
section
/-! SUPPORT. What every operation keeps: pins, the loader, the store, power, security and the host function. -/

namespace Sys2Proof.Machine

open Sys2Proof

variable {P : Dev → Prop}

theorem Dev.pinBlocks_keeps (kp : Keeps P) {d : Dev} (hd : P d) {g f : Nat} : P (Dev.pinBlocks d g f) := by
  unfold Dev.pinBlocks
  lift_lets
  intro lost new p kept src d1
  with_reducible have hd1 : P d1 := kp.upd hd
  with_reducible exact kp.foldl hd1 (fun _ _ k3 => Dev.raise_keeps kp (Dev.count_keeps kp k3))

theorem Dev.setPad_keeps (kp : Keeps P) {d : Dev} (hd : P d) {g : Nat} {v en byRegion : Bool} : P (Dev.setPad d g v
    en byRegion) := by
  unfold Dev.setPad
  lift_lets
  intro x b y src d1
  with_reducible have hd1 : P d1 := kp.upd hd
  with_reducible exact kp.ite (fun _ => hd1) fun _ => Dev.send_keeps kp hd1

theorem Dev.refreshPin_keeps (kp : Keeps P) {d : Dev} (hd : P d) {g : Nat} : P (Dev.refreshPin d g) := by
  unfold Dev.refreshPin
  lift_lets
  intro f h d1 x
  with_reducible have hd1 : P d1 := Dev.pinBlocks_keeps kp (Dev.setF_keeps kp hd)
  with_reducible exact Dev.setPad_keeps kp hd1

theorem Dev.refreshPins_keeps (kp : Keeps P) {d : Dev} (hd : P d) {l : List Nat} : P (Dev.refreshPins d l) := by
  unfold Dev.refreshPins
  with_reducible exact kp.foldl hd (fun _ _ k2 => Dev.refreshPin_keeps kp k2)

theorem Dev.refreshBank_keeps (kp : Keeps P) {d : Dev} (hd : P d) {b : Nat} : P (Dev.refreshBank d b) := by
  unfold Dev.refreshBank
  with_reducible exact Dev.refreshPins_keeps kp hd

theorem Dev.refreshRegion_keeps (kp : Keeps P) {d : Dev} (hd : P d) {n : Nat} : P (Dev.refreshRegion d n) := by
  unfold Dev.refreshRegion
  with_reducible exact Dev.refreshPins_keeps kp hd

theorem Dev.pinPulse_keeps (kp : Keeps P) {d : Dev} (hd : P d) {s : Nat} : P (Dev.pinPulse d s) := by
  unfold Dev.pinPulse
  with_reducible exact kp.foldl hd (fun _ _ k2 => by
      lift_lets
      intro p x
      with_reducible exact kp.ite (fun _ => (Dev.send_keeps kp (Dev.send_keeps kp k2))) fun _ => k2)

theorem Dev.vioLost_keeps (kp : Keeps P) {d : Dev} (hd : P d) {b mv : Nat} : P (Dev.vioLost d b mv) := by
  unfold Dev.vioLost
  lift_lets
  intro p
  with_reducible exact kp.ite (fun _ => (Dev.raise_keeps kp (Dev.refreshBank_keeps kp (Dev.setF_keeps kp
                   (Dev.setF_keeps kp hd))))) fun _ => hd

theorem Dev.vioBack_keeps (kp : Keeps P) {d : Dev} (hd : P d) {b mv : Nat} : P (Dev.vioBack d b mv) := by
  unfold Dev.vioBack
  lift_lets
  intro p
  with_reducible exact kp.ite (fun _ => (Dev.raise_keeps kp (Dev.refreshBank_keeps kp (Dev.setF_keeps kp
                   (Dev.setF_keeps kp hd))))) fun _ => hd

theorem Dev.iobFilter_keeps (kp : Keeps P) {d : Dev} (hd : P d) {src : Source} {b off : Nat} {v : Word} : P
    (Dev.iobFilter d src b off v).1 := by
  unfold Dev.iobFilter
  lift_lets
  intro m p d1
  with_reducible have hd1 : P d1 := Dev.raise_keeps kp (Dev.count_keeps kp hd)
  with_reducible exact kp.ite_fst (fun _ => hd) fun _ => hd1

theorem Dev.lockPins_keeps (kp : Keeps P) {d : Dev} (hd : P d) {b m : Nat} : P (Dev.lockPins d b m) := by
  unfold Dev.lockPins
  lift_lets
  intro p ks d1
  with_reducible have hd1 : P d1 := kp.foldl hd (fun _ _ k1 => (kp.upd k1))
  with_reducible exact Dev.setF_keeps kp hd1

theorem Dev.pinLock_keeps (kp : Keeps P) {d : Dev} (hd : P d) {src : Source} {b : Nat} {v : Word} : P (Dev.pinLock d src
    b v) := by
  unfold Dev.pinLock
  lift_lets
  intro key m st src_1 set clr n
  with_reducible have hclr : P clr := kp.upd hd
  with_reducible exact kp.ite (fun _ => (kp.upd hd)) fun _ => (kp.ite (fun _ => (Dev.refreshBank_keeps kp
                   (Dev.lockPins_keeps kp hclr))) fun _ => (kp.ite (fun _ => (kp.upd hd)) fun _ => hclr))

theorem Dev.pinLockBreak_keeps (kp : Keeps P) {d : Dev} (hd : P d) {b : Nat} : P (Dev.pinLockBreak d b) := by
  unfold Dev.pinLockBreak
  lift_lets
  intro src
  with_reducible exact kp.upd hd

theorem Dev.unlockPins_keeps (kp : Keeps P) {d : Dev} (hd : P d) {b m : Nat} : P (Dev.unlockPins d b m) := by
  unfold Dev.unlockPins
  lift_lets
  intro p d1 src
  with_reducible have hd1 : P d1 := Dev.setF_keeps kp hd
  with_reducible exact Dev.refreshBank_keeps kp (kp.upd hd1)

theorem Dev.partFollow_keeps (kp : Keeps P) {d : Dev} (hd : P d) {b : Nat} : P (Dev.partFollow d b) := by
  unfold Dev.partFollow
  with_reducible exact Dev.setFlag_keeps kp hd

theorem Dev.iobLive_keeps (kp : Keeps P) {d : Dev} (hd : P d) {b off : Nat} {old new : Word} : P (Dev.iobLive d b off
    old new) := by
  unfold Dev.iobLive
  lift_lets
  intro d1 src
  with_reducible have hd1 : P d1 := Dev.partFollow_keeps kp hd
  with_reducible exact kp.ite (fun _ => (Dev.refreshBank_keeps kp (kp.upd hd1))) fun _ => kp.ite (fun _ => hd) fun _
                   => kp.ite (fun _ => (Dev.refreshPins_keeps kp hd)) fun _ => kp.ite (fun _ => (Dev.refreshPin_keeps
                   kp hd)) fun _ => kp.ite (fun _ => (Dev.refreshBank_keeps kp hd)) fun _ => hd

theorem Dev.iobReset_keeps (kp : Keeps P) {d : Dev} (hd : P d) {b : Nat} : P (Dev.iobReset d b) := by
  unfold Dev.iobReset
  lift_lets
  intro p l lk keep d1 put
  with_reducible have hd1 : P d1 := Dev.setF_keeps kp (Dev.resetPage_keeps kp hd)
  with_reducible have hput : ∀ y0 y1, P y0 → P (put y0 y1) := fun _ _ q0 => Dev.setReg_keeps kp (Dev.setReg_keeps kp
                   q0)
  with_reducible exact Dev.refreshBank_keeps kp (hput _ _ (hput _ _ (hput _ _ hd1)))

theorem Dev.setAesNext_keeps (kp : Keeps P) {d : Dev} (hd : P d) {n k : Nat} : P (Dev.setAesNext d n k) := by
  unfold Dev.setAesNext
  lift_lets
  intro src
  with_reducible exact kp.upd hd

theorem Dev.aesPush_keeps (kp : Keeps P) {d : Dev} (hd : P d) {n k : Nat} {a b : Word} : P (Dev.aesPush d n k a b) :=
    by
  unfold Dev.aesPush
  lift_lets
  intro p f c t
  with_reducible exact Dev.pushFlow_keeps kp (Dev.pushFlow_keeps kp hd)

theorem Dev.aesSlip_keeps (kp : Keeps P) {d : Dev} (hd : P d) {n : Nat} : P (Dev.aesSlip d n) := by
  unfold Dev.aesSlip
  with_reducible exact Dev.raise_keeps kp (Dev.count_keeps kp hd)

theorem Dev.aesFill_keeps (kp : Keeps P) {d : Dev} (hd : P d) {n k : Nat} {slips : Bool} : P (Dev.aesFill d n k
    slips) := by
  unfold Dev.aesFill
  lift_lets
  intro s d1
  with_reducible have hd1 : P d1 := kp.foldl hd (fun _ _ k4 => by
      lift_lets
      intro e1
      with_reducible have he1 : P e1 := Dev.aesPush_keeps kp k4
      with_reducible exact kp.ite (fun _ => (Dev.aesSlip_keeps kp he1)) fun _ => he1)
  with_reducible exact Dev.setAesNext_keeps kp hd1

theorem Dev.aesRxFrame_keeps (kp : Keeps P) {d : Dev} (hd : P d) {n a b : Nat} {va vb pa pb : Bool} {cs : Option
    (List Word)} : P (Dev.aesRxFrame d n a b va vb pa pb cs) := by
  unfold Dev.aesRxFrame
  lift_lets
  intro p k d1 d2 d3
  have hd1 : P d1 := by
      unfold d1
      split
      · with_reducible exact Dev.setF_keeps kp (kp.foldl hd (fun _ _ k3 => Dev.setReg_keeps kp k3))
      · with_reducible exact hd
  with_reducible have hd2 : P d2 := kp.ite (fun _ => (Dev.count_keeps kp hd1)) fun _ => hd1
  with_reducible have hd3 : P d3 := kp.ite (fun _ => (Dev.count_keeps kp hd2)) fun _ => hd2
  with_reducible exact kp.ite (fun _ => (kp.ite (fun _ => (Dev.aesSlip_keeps kp hd3)) fun _ => Dev.setAesNext_keeps
                   kp (Dev.aesPush_keeps kp (Dev.aesFill_keeps kp hd3)))) fun _ => hd

theorem Dev.aesLock_keeps (kp : Keeps P) {d : Dev} (hd : P d) {n hz : Nat} : P (Dev.aesLock d n hz) := by
  unfold Dev.aesLock
  lift_lets
  intro p d1
  with_reducible have hd1 : P d1 := Dev.aesFill_keeps kp hd
  with_reducible exact kp.ite (fun _ => (Dev.raise_keeps kp (Dev.setF_keeps kp (Dev.setF_keeps kp hd1)))) fun _ => hd

theorem Dev.aesUnlock_keeps (kp : Keeps P) {d : Dev} (hd : P d) {n : Nat} : P (Dev.aesUnlock d n) := by
  unfold Dev.aesUnlock
  lift_lets
  intro p d1
  with_reducible have hd1 : P d1 := kp.ite (fun _ => (Dev.aesFill_keeps kp hd)) fun _ => hd
  with_reducible exact kp.ite (fun _ => (Dev.raise_keeps kp (Dev.setF_keeps kp hd1))) fun _ => hd

theorem Dev.aesTxFrame_keeps (kp : Keeps P) {d : Dev} (hd : P d) {n : Nat} : P (Dev.aesTxFrame d n) := by
  unfold Dev.aesTxFrame
  lift_lets
  intro p r k t d1 q c a b i cs v w rest src d2 d3
  with_reducible have hd1 : P d1 := Dev.reach_keeps kp hd
  with_reducible have hd2 : P d2 := kp.upd hd1
  with_reducible have hd3 : P d3 := Dev.setAesNext_keeps kp hd2
  with_reducible exact kp.ite (fun _ => (kp.ite (fun _ => (Dev.send_keeps kp hd3)) fun _ => hd3)) fun _ => hd

theorem Dev.ltcSync_keeps (kp : Keeps P) {d : Dev} (hd : P d) {k : Nat} {addr ub : Word} : P (Dev.ltcSync d k addr
    ub) := by
  unfold Dev.ltcSync
  lift_lets
  intro p d1 d2 src
  with_reducible have hd1 : P d1 := Dev.setReg_keeps kp (Dev.setReg_keeps kp hd)
  with_reducible have hd2 : P d2 := Dev.setReg_keeps kp (Dev.setReg_keeps kp hd1)
  with_reducible exact kp.ite (fun _ => (kp.upd hd2)) fun _ => hd

theorem Dev.ltcLost_keeps (kp : Keeps P) {d : Dev} (hd : P d) {k : Nat} : P (Dev.ltcLost d k) := by
  unfold Dev.ltcLost
  lift_lets
  intro p
  split
  · with_reducible exact hd
  · lift_lets
    intro d1 src
    with_reducible have hd1 : P d1 := Dev.pass_keeps kp hd
    with_reducible exact kp.ite (fun _ => (Dev.raise_keeps kp (kp.upd hd1))) fun _ => hd

theorem Dev.ltcCodeword_keeps (kp : Keeps P) {d : Dev} (hd : P d) {k : Nat} : P (Dev.ltcCodeword d k) := by
  unfold Dev.ltcCodeword
  lift_lets
  intro p m vr f d1 w d2 src d3
  with_reducible have hd1 : P d1 := Dev.reach_keeps kp hd
  with_reducible have hd2 : P d2 := Dev.setReg_keeps kp hd1
  with_reducible have hd3 : P d3 := kp.upd hd2
  with_reducible exact kp.ite (fun _ => (kp.ite (fun _ => (Dev.send_keeps kp hd3)) fun _ => hd3)) fun _ => hd

theorem Dev.serPush_keeps (kp : Keeps P) {d : Dev} (hd : P d) {p byte : Nat} : P (Dev.serPush d p byte) := by
  unfold Dev.serPush
  lift_lets
  intro q src d1 src_1
  with_reducible have hd1 : P d1 := kp.upd hd
  with_reducible exact kp.ite (fun _ => hd) fun _ => kp.ite (fun _ => (kp.upd hd1)) fun _ => hd1

theorem Dev.serPop_keeps (kp : Keeps P) {d : Dev} (hd : P d) {p : Nat} : P (Dev.serPop d p).2 := by
  unfold Dev.serPop
  lift_lets
  intro src
  split
  · with_reducible exact hd
  · with_reducible exact kp.upd hd

theorem Dev.serRxByte_keeps (kp : Keeps P) {d : Dev} (hd : P d) {c : Cls} {i byte : Nat} : P (Dev.serRxByte d c i
    byte) := by
  unfold Dev.serRxByte
  lift_lets
  intro p x src
  with_reducible exact kp.ite (fun _ => (kp.ite (fun _ => (kp.ite (fun _ => (Dev.send_keeps kp (Dev.regionWake_keeps
                   kp hd))) fun _ => hd)) fun _ => kp.ite (fun _ => (kp.upd hd)) fun _ => hd)) fun _ => hd

theorem Dev.serTick_keeps (kp : Keeps P) {d : Dev} (hd : P d) : P (Dev.serTick d) := by
  unfold Dev.serTick
  with_reducible exact kp.foldl hd (fun _ _ k2 => by
      lift_lets
      intro rate at_ src
      split
      · lift_lets
        intro e1
        with_reducible have he1 : P e1 := kp.upd k2
        with_reducible exact kp.ite (fun _ => (kp.ite (fun _ => (Dev.send_keeps kp he1)) fun _ => he1)) fun _ => k2
      · with_reducible exact k2)

theorem Dev.perLive_keeps (kp : Keeps P) {d : Dev} (hd : P d) {c : Cls} {i off : Nat} {old new : Word} : P
    (Dev.perLive d c i off old new) := by
  unfold Dev.perLive
  lift_lets
  intro p src d1
  with_reducible have hd1 : P d1 := kp.ite (fun _ => (Dev.setF_keeps kp (kp.upd hd))) fun _ => kp.ite (fun _ =>
                   (kp.upd hd)) fun _ => hd
  with_reducible exact kp.ite (fun _ => hd1) fun _ => Dev.refreshPins_keeps kp hd1

theorem Dev.perPower_keeps (kp : Keeps P) {d : Dev} (hd : P d) {c : Cls} {i : Nat} : P (Dev.perPower d c i) := by
  unfold Dev.perPower
  with_reducible exact Dev.refreshPins_keeps kp hd

theorem Dev.perReset_keeps (kp : Keeps P) {d : Dev} (hd : P d) {c : Cls} {i : Nat} : P (Dev.perReset d c i) := by
  unfold Dev.perReset
  lift_lets
  intro p d1 x y z
  with_reducible have hd1 : P d1 := Dev.resetPage_keeps kp hd
  with_reducible exact Dev.refreshPins_keeps kp (kp.upd hd1)

theorem Dev.setLoad_keeps (kp : Keeps P) {d : Dev} (hd : P d) {j : Option LoadJob} : P (Dev.setLoad d j) := by
  unfold Dev.setLoad
  lift_lets
  intro src
  with_reducible exact kp.upd hd

theorem Dev.setIso_keeps (kp : Keeps P) {d : Dev} (hd : P d) {n st : Nat} : P (Dev.setIso d n st) := by
  unfold Dev.setIso
  with_reducible exact Dev.setF_keeps kp hd

theorem Dev.setLdPhase_keeps (kp : Keeps P) {d : Dev} (hd : P d) {n : Nat} : P (Dev.setLdPhase d n) := by
  unfold Dev.setLdPhase
  with_reducible exact Dev.setF_keeps kp hd

theorem Dev.isolate_keeps (kp : Keeps P) {d : Dev} (hd : P d) {n st : Nat} : P (Dev.isolate d n st) := by
  unfold Dev.isolate
  lift_lets
  intro d1
  with_reducible have hd1 : P d1 := Dev.setIso_keeps kp (Dev.setF_keeps kp (Dev.tapsLeave_keeps kp hd))
  with_reducible exact Dev.refreshRegion_keeps kp (kp.ite (fun _ => (Dev.ffsInit_keeps kp hd1)) fun _ => hd1)

theorem Dev.loadStart_keeps (kp : Keeps P) {d : Dev} (hd : P d) {src slot : Nat} {who : Source} {priv boot verify :
    Bool} : P (Dev.loadStart d src slot who priv boot verify) := by
  unfold Dev.loadStart
  lift_lets
  intro base j d1
  with_reducible have hd1 : P d1 := Dev.setReg_keeps kp (Dev.setLoad_keeps kp hd)
  with_reducible exact Dev.count_keeps kp (Dev.setF_keeps kp hd1)

theorem Dev.persDone_keeps (kp : Keeps P) {d : Dev} (hd : P d) {src : Nat} : P (Dev.persDone d src) := by
  unfold Dev.persDone
  lift_lets
  intro src_1
  with_reducible exact Dev.audioReady_keeps kp (Dev.setFlag_keeps kp (kp.upd hd))

theorem Dev.loadSlotsFree_keeps (kp : Keeps P) {d : Dev} (hd : P d) : P (Dev.loadSlotsFree d) := by
  unfold Dev.loadSlotsFree
  with_reducible exact kp.foldl hd (fun _ _ k2 => by
      split
      · with_reducible exact kp.ite (fun _ => k2) fun _ => Dev.slotIdle_keeps kp k2
      · with_reducible exact k2)

theorem Dev.loadEnd_keeps (kp : Keeps P) {d : Dev} (hd : P d) {j : LoadJob} {err detail : Nat} : P (Dev.loadEnd d j
    err detail) := by
  unfold Dev.loadEnd
  lift_lets
  intro d1 d2 d3
  with_reducible have hd1 : P d1 := kp.foldl hd (fun _ _ k2 => Dev.refreshRegion_keeps kp (Dev.setIso_keeps kp k2))
  with_reducible have hd2 : P d2 := Dev.setF_keeps kp (Dev.setLoad_keeps kp (Dev.loadSlotsFree_keeps kp hd1))
  with_reducible have hd3 : P d3 := Dev.setF_keeps kp (Dev.setF_keeps kp (Dev.setLdPhase_keeps kp hd2))
  with_reducible exact Dev.raise_keeps kp (Dev.count_keeps kp hd3)

theorem Dev.loadFail_keeps (kp : Keeps P) {d : Dev} (hd : P d) {j : LoadJob} {err detail : Nat} : P (Dev.loadFail d j
    err detail) := by
  unfold Dev.loadFail
  lift_lets
  intro d1 src
  with_reducible have hd1 : P d1 := Dev.loadEnd_keeps kp hd
  with_reducible exact kp.ite (fun _ => (Dev.loadStart_keeps kp (kp.upd hd1))) fun _ => hd1

theorem Dev.loadGo_keeps (kp : Keeps P) {d : Dev} (hd : P d) {src : Source} {ctl : Word} : P (Dev.loadGo d src ctl)
    := by
  unfold Dev.loadGo
  lift_lets
  intro s host src_1
  with_reducible exact Dev.loadStart_keeps kp (kp.upd hd)

theorem Dev.groupSlots_keeps (kp : Keeps P) {d : Dev} (hd : P d) {j : LoadJob} {v : Verified} {g : Nat} :
    ∀ e, d.groupSlots j v g = some e → P e.1 := by
  induction g with
  | zero => intro e he; cases he; exact hd
  | succ g ih =>
    unfold Dev.groupSlots; intro e he
    split at he
    · cases he
    · rename_i h; have ih := ih _ h
      dsimp only at he
      split at he
      · cases he; exact Dev.bindPages_keeps kp ih
      · split at he
        · cases he
        · cases he; exact Dev.bindPages_keeps kp (Dev.setF_keeps kp (Dev.setSlot_keeps kp ih))

theorem Dev.loadReach_keeps (kp : Keeps P) {d : Dev} (hd : P d) {j : LoadJob} : P (Dev.loadReach d j) := by
  unfold Dev.loadReach
  split
  · with_reducible exact hd
  · lift_lets
    intro m
    with_reducible exact kp.ite (fun _ => (Dev.setF_keeps kp (Dev.isolate_keeps kp hd))) fun _ => hd

theorem Dev.writeMem_keeps (kp : KeepsMem P) {d : Dev} (hd : P d) {n target addr : Nat} {bytes : List Nat} : P
    (Dev.writeMem d n target addr bytes) := by
  unfold Dev.writeMem
  lift_lets
  intro src d1 b w
  with_reducible have hd1 : P d1 := kp.updMem hd fun h => (memStore_wf _ _ h)
  with_reducible exact kp.ite (fun _ => (kp.foldl hd1 (fun _ _ k2 => (Dev.fmSetPois_keeps kp.toKeeps k2)))) fun _ =>
                   (kp.foldl hd (fun _ _ k2 => (Dev.bramPut_keeps kp.toKeeps k2)))

theorem Dev.writeFrames_keeps (kp : Keeps P) {d : Dev} (hd : P d) {n : Nat} {rs : List LRec} : P (Dev.writeFrames d n
    rs) := by
  unfold Dev.writeFrames
  lift_lets
  intro t old new src d1
  with_reducible have hd1 : P d1 := Dev.ffsInit_keeps kp (kp.upd hd)
  with_reducible exact kp.ite (fun _ => (Dev.setReg_keeps kp hd1)) fun _ => hd1

theorem Dev.writeRec_keeps (kp : KeepsMem P) {d : Dev} (hd : P d) {n : Nat} {r : LRec} : P (d.writeRec n r).1 := by
  cases r <;> unfold Dev.writeRec
  case drive => exact Dev.setRegion_keeps kp.toKeeps hd
  case tile => exact kp.ite_fst (fun _ => hd) fun _ => kp.foldl hd fun _ _ h => Dev.winAccess_keeps kp.toKeeps h
  case mem => exact Dev.writeMem_keeps kp hd
  case fill => exact Dev.writeMem_keeps kp hd
  all_goals exact hd

theorem Dev.writeRecs_keeps (kp : KeepsMem P) {d : Dev} (hd : P d) {n : Nat} {l : List LRec} : P (d.writeRecs n l).1 := by
  induction l generalizing d with
  | nil => exact hd
  | cons r t ih =>
    unfold Dev.writeRecs
    split
    · rename_i h; exact kp.of_fst (Dev.writeRec_keeps kp hd) h
    · rename_i h; exact ih (kp.of_fst (Dev.writeRec_keeps kp hd) h)

theorem Dev.writeSect_keeps (kp : KeepsMem P) {d : Dev} (hd : P d) {j : LoadJob} {n k : Nat} : P (Dev.writeSect d j n
    k).1 := by
  unfold Dev.writeSect
  lift_lets
  intro i s
  split
  · with_reducible exact hd
  · split
    · with_reducible exact hd
    · lift_lets
      intro r
      with_reducible have hr : P r.1 := kp.fst_eq (Dev.writeRecs_keeps kp hd) rfl
      with_reducible exact kp.ite_fst (fun _ => (Dev.writeFrames_keeps kp.toKeeps hd)) fun _ => hr

theorem Dev.writeSects_keeps (kp : KeepsMem P) {d : Dev} (hd : P d) {j : LoadJob} {n : Nat} {l : List Nat} : P
    (d.writeSects j n l).1 := by
  induction l generalizing d with
  | nil => exact hd
  | cons r t ih =>
    unfold Dev.writeSects
    split
    · rename_i h; exact kp.of_fst (Dev.writeSect_keeps kp hd) h
    · rename_i h; exact ih (kp.of_fst (Dev.writeSect_keeps kp hd) h)

theorem Dev.verifyRegion_keeps (kp : Keeps P) {d : Dev} (hd : P d) {j : LoadJob} {n m : Nat} : P (Dev.verifyRegion d
    j n m) := by
  unfold Dev.verifyRegion
  with_reducible exact kp.foldl hd (fun _ _ k3 => by
      lift_lets
      intro s
      with_reducible exact kp.ite (fun _ => (by
          split
          · lift_lets
            intro x
            with_reducible exact kp.ite (fun _ => k3) fun _ => Dev.raise_keeps kp (Dev.count_keeps kp k3)
          · with_reducible exact k3)) fun _ => k3)

theorem Dev.partnerCopy_keeps (kp : Keeps P) {d : Dev} (hd : P d) {x y : Nat} : P (Dev.partnerCopy d x y) := by
  unfold Dev.partnerCopy
  lift_lets
  intro cp d1
  with_reducible have hcp : ∀ y0 y1, P y0 → P (cp y0 y1) := fun _ _ q0 => Dev.setReg_keeps kp q0
  with_reducible have hd1 : P d1 := kp.foldl hd (fun _ _ k2 => hcp _ _ k2)
  with_reducible exact hcp _ _ (kp.foldl hd1 (fun _ _ k2 => hcp _ _ k2))

theorem Dev.verifyLoadDone_keeps (kp : Keeps P) {d : Dev} (hd : P d) {j : LoadJob} : P (Dev.verifyLoadDone d j) := by
  unfold Dev.verifyLoadDone
  with_reducible exact kp.ite (fun _ => (Dev.setF_keeps kp (Dev.setLdPhase_keeps kp (Dev.setLoad_keeps kp hd)))) fun
                   _ => hd

theorem Dev.regionWriteDone_keeps (kp : KeepsMem P) {d : Dev} (hd : P d) : P (Dev.regionWriteDone d) := by
  unfold Dev.regionWriteDone
  split
  · with_reducible exact hd
  · split
    · lift_lets
      intro m n j1 src d0
      with_reducible have hd0 : P d0 := kp.ite (fun _ => (Dev.setRegion_keeps kp.toKeeps hd)) fun _ => hd
      exact kp.ite (fun _ => (Dev.verifyLoadDone_keeps kp.toKeeps (Dev.setLoad_keeps kp.toKeeps
          (Dev.verifyRegion_keeps kp.toKeeps hd)))) fun _ => by
          split
          · rename_i w0 w1 w2 w3
            have hw1 := kp.of_fst (Dev.writeSects_keeps kp hd0) w3
            with_reducible exact Dev.loadFail_keeps kp.toKeeps hw1
          · rename_i w0 w1 w2
            have hw1 := kp.of_fst (Dev.writeSects_keeps kp hd0) w2
            lift_lets
            intro src_1 e1 e2
            with_reducible have he1 : P e1 := kp.ite (fun _ => (Dev.setReg_keeps kp.toKeeps hw1)) fun _ =>
                             kp.toKeeps.upd hw1
            with_reducible have he2 : P e2 := kp.ite (fun _ => (Dev.partnerCopy_keeps kp.toKeeps he1)) fun _ => he1
            with_reducible exact Dev.loadReach_keeps kp.toKeeps (Dev.setLoad_keeps kp.toKeeps he2)
    · with_reducible exact hd

theorem Dev.digestDone_keeps (kp : Keeps P) {d : Dev} (hd : P d) : P (Dev.digestDone d) := by
  unfold Dev.digestDone
  with_reducible exact kp.ite (fun _ => (Dev.setLdPhase_keeps kp hd)) fun _ => hd

theorem Dev.writeBegin_keeps (kp : KeepsMem P) {d : Dev} (hd : P d) {j : LoadJob} {v : Verified} : P (Dev.writeBegin d j
    v) := by
  unfold Dev.writeBegin
  lift_lets
  intro d1
  with_reducible have hd1 : P d1 := Dev.setLdPhase_keeps kp.toKeeps (Dev.setReg_keeps kp.toKeeps hd)
  with_reducible exact (kp.ite (fun _ => (Dev.verifyLoadDone_keeps kp.toKeeps (Dev.setLoad_keeps kp.toKeeps hd1))) fun _
                   => (by
          split
          · with_reducible exact hd
          · rename_i y20 y21 y22 y23
            have hy23 := (Dev.groupSlots_keeps kp.toKeeps hd1 _ y23)
            split
            · rename_i y30 y31 y32 y33
              have hy33 := kp.of_fst (Dev.writeSects_keeps kp (Dev.setLoad_keeps kp.toKeeps hy23)) y33
              with_reducible exact Dev.loadFail_keeps kp.toKeeps hy33
            · rename_i y30 y31 y32
              have hy32 := kp.of_fst (Dev.writeSects_keeps kp (Dev.setLoad_keeps kp.toKeeps hy23)) y32
              with_reducible exact (Dev.loadReach_keeps kp.toKeeps hy32)))

theorem Dev.verifyEnd_keeps (kp : KeepsMem P) {d : Dev} (hd : P d) {o j : LoadJob} {v : Verified} {err : Option (Nat ×
    Nat)} : P (Dev.verifyEnd d o j v err) := by
  unfold Dev.verifyEnd
  split
  · with_reducible exact Dev.loadFail_keeps kp.toKeeps hd
  · with_reducible exact Dev.writeBegin_keeps kp hd

theorem Dev.verifyRecs_keeps (kp : KeepsMem P) {d : Dev} (hd : P d) {o j : LoadJob} {r : Except Nat (List (Sect × List
    LRec))} : P (Dev.verifyRecs d o j r) := by
  unfold Dev.verifyRecs
  split
  · with_reducible exact Dev.loadFail_keeps kp.toKeeps hd
  · with_reducible exact Dev.verifyEnd_keeps kp hd

theorem Dev.verifyTests_keeps (kp : KeepsMem P) {d : Dev} (hd : P d) {o j : LoadJob} {i : Img} {err : Option (Nat × Nat)}
    : P (Dev.verifyTests d o j i err) := by
  unfold Dev.verifyTests
  split
  · with_reducible exact Dev.loadFail_keeps kp.toKeeps hd
  · with_reducible exact Dev.verifyRecs_keeps kp hd

theorem Dev.verifyDone_keeps (kp : KeepsMem P) {d : Dev} (hd : P d) : P (Dev.verifyDone d) := by
  unfold Dev.verifyDone
  lift_lets
  split
  · with_reducible exact hd
  · lift_lets
    intro i j
    with_reducible exact kp.ite (fun _ => hd) fun _ => (Dev.verifyTests_keeps kp hd)

theorem Dev.loadEntry_keeps (kp : Keeps P) {d : Dev} (hd : P d) {j : LoadJob} : P (Dev.loadEntry d j) := by
  unfold Dev.loadEntry
  lift_lets
  intro i rs old src
  with_reducible exact kp.upd hd

theorem Dev.loadDone_keeps (kp : Keeps P) {d : Dev} (hd : P d) {j : LoadJob} : P (Dev.loadDone d j) := by
  unfold Dev.loadDone
  lift_lets
  intro d1 d2
  with_reducible have hd1 : P d1 := Dev.setLdPhase_keeps kp (Dev.setLoad_keeps kp (Dev.loadEntry_keeps kp hd))
  with_reducible have hd2 : P d2 := Dev.raise_keeps kp (Dev.setF_keeps kp hd1)
  with_reducible exact kp.ite (fun _ => (Dev.persDone_keeps kp hd2)) fun _ => hd2

theorem Dev.groupReleased_keeps (kp : Keeps P) {d : Dev} (hd : P d) {g : Nat} : P (Dev.groupReleased d g) := by
  unfold Dev.groupReleased
  split
  · with_reducible exact hd
  · lift_lets
    intro j1 d1
    with_reducible have hd1 : P d1 := Dev.setF_keeps kp (Dev.setLoad_keeps kp hd)
    with_reducible exact kp.ite (fun _ => hd) fun _ => kp.ite (fun _ => (Dev.loadDone_keeps kp hd1)) fun _ => hd1

theorem Dev.groupsFollow_keeps (kp : Keeps P) {d : Dev} (hd : P d) : P (Dev.groupsFollow d) := by
  unfold Dev.groupsFollow
  split
  · with_reducible exact hd
  · with_reducible exact kp.foldl hd (fun _ _ k2 => by
        lift_lets
        intro rs
        with_reducible exact kp.ite (fun _ => (Dev.groupReleased_keeps kp k2)) fun _ => k2)

theorem Dev.regionRelease_keeps (kp : Keeps P) {d : Dev} (hd : P d) {n : Nat} : P (Dev.regionRelease d n) := by
  unfold Dev.regionRelease
  lift_lets
  intro d1
  with_reducible have hd1 : P d1 := Dev.setIso_keeps kp hd
  with_reducible exact Dev.groupsFollow_keeps kp (Dev.refreshRegion_keeps kp (kp.ite (fun _ => (Dev.tapsEnter_keeps
                   kp hd1)) fun _ => hd1))

theorem Dev.isoLive_keeps (kp : Keeps P) {d : Dev} (hd : P d) {n : Nat} {new : Word} : P (Dev.isoLive d n new) := by
  unfold Dev.isoLive
  with_reducible exact kp.ite (fun _ => (Dev.regionRelease_keeps kp hd)) fun _ => hd

theorem Dev.relApplied_keeps (kp : Keeps P) {d : Dev} (hd : P d) {m : Nat} : P (Dev.relApplied d m) := by
  unfold Dev.relApplied
  split
  · with_reducible exact hd
  · split
    · with_reducible exact kp.ite (fun _ => (Dev.groupReleased_keeps kp hd)) fun _ => hd
    · with_reducible exact hd

theorem Dev.relMiss_keeps (kp : Keeps P) {d : Dev} (hd : P d) {m : Nat} : P (Dev.relMiss d m) := by
  unfold Dev.relMiss
  split
  · with_reducible exact hd
  · split
    · with_reducible exact Dev.raise_keeps kp (Dev.setLdPhase_keeps kp hd)
    · with_reducible exact hd

theorem Dev.setRegHo_keeps (kp : Keeps P) {d : Dev} (hd : P d) {h : Option RegHo} : P (Dev.setRegHo d h) := by
  unfold Dev.setRegHo
  lift_lets
  intro src
  with_reducible exact kp.upd hd

theorem Dev.hoPhase_keeps (kp : Keeps P) {d : Dev} (hd : P d) {n : Nat} {h : RegHo} : P (Dev.hoPhase d n h) := by
  unfold Dev.hoPhase
  with_reducible exact Dev.setRegHo_keeps kp (Dev.setF_keeps kp hd)

theorem Dev.hoBegin_keeps (kp : Keeps P) {d : Dev} (hd : P d) {pairs : List (Nat × Nat)} : P (Dev.hoBegin d pairs) :=
    by
  unfold Dev.hoBegin
  lift_lets
  intro d1 d2 ovs
  with_reducible have hd1 : P d1 := kp.foldl hd (fun _ _ k2 => Dev.setIso_keeps kp k2)
  with_reducible have hd2 : P d2 := Dev.setLdPhase_keeps kp (Dev.setF_keeps kp (Dev.setReg_keeps kp hd1))
  with_reducible exact Dev.hoPhase_keeps kp hd2

theorem Dev.hoNotices_keeps (kp : Keeps P) {d : Dev} (hd : P d) {h : RegHo} {outcome : Nat} : P (Dev.hoNotices d h
    outcome) := by
  unfold Dev.hoNotices
  lift_lets
  intro w7
  with_reducible exact kp.foldl hd (fun _ _ k2 => Dev.raiseSev_keeps kp k2)

theorem Dev.hoClose_keeps (kp : Keeps P) {d : Dev} (hd : P d) {h : RegHo} {outcome : Nat} : P (Dev.hoClose d h
    outcome) := by
  unfold Dev.hoClose
  lift_lets
  intro d1
  with_reducible have hd1 : P d1 := Dev.setF_keeps kp (Dev.setRegHo_keeps kp (Dev.unwait_keeps kp
                   (Dev.jobCancel_keeps kp hd)))
  with_reducible exact Dev.hoNotices_keeps kp (Dev.setF_keeps kp (Dev.setF_keeps kp hd1))

theorem Dev.regionDark_keeps (kp : Keeps P) {d : Dev} (hd : P d) {n : Nat} : P (Dev.regionDark d n) := by
  unfold Dev.regionDark
  lift_lets
  intro p d1 d2 ents src src_1
  with_reducible have hd1 : P d1 := Dev.setF_keeps kp (Dev.setF_keeps kp (Dev.isolate_keeps kp hd))
  with_reducible have hd2 : P d2 := Dev.setRegion_keeps kp hd1
  with_reducible exact Dev.refreshRegion_keeps kp (kp.upd hd2)

theorem Dev.hoEnd_keeps (kp : Keeps P) {d : Dev} (hd : P d) {outcome : Nat} : P (Dev.hoEnd d outcome) := by
  unfold Dev.hoEnd
  split
  · with_reducible exact hd
  · lift_lets
    intro d1 d2
    with_reducible have hd1 : P d1 := kp.foldl hd (fun _ _ k2 => Dev.regionDark_keeps kp k2)
    with_reducible have hd2 : P d2 := Dev.hoClose_keeps kp hd1
    exact kp.ite (fun _ => hd) fun _ => by
        split
        · with_reducible exact Dev.setF_keeps kp (Dev.setF_keeps kp (Dev.setLdPhase_keeps kp (Dev.setLoad_keeps kp
                           (Dev.loadSlotsFree_keeps kp hd2))))
        · with_reducible exact hd2

theorem Dev.hoArm_keeps (kp : Keeps P) {d : Dev} (hd : P d) {h : RegHo} : P (Dev.hoArm d h) := by
  unfold Dev.hoArm
  lift_lets
  intro t ps r
  with_reducible have hr : P r.1 := Dev.svcTake_keeps kp hd
  with_reducible exact kp.ite (fun _ => (Dev.hoPhase_keeps kp hr)) fun _ => Dev.setRegHo_keeps kp hr

theorem Dev.hoDue_keeps (kp : Keeps P) {d : Dev} (hd : P d) : P (Dev.hoDue d) := by
  unfold Dev.hoDue
  lift_lets
  intro lim
  split
  · with_reducible exact hd
  · with_reducible exact kp.ite (fun _ => (kp.ite (fun _ => (Dev.hoArm_keeps kp hd)) fun _ => Dev.hoPhase_keeps kp
                     hd)) fun _ => hd

theorem Dev.hoCompareDone_keeps (kp : Keeps P) {d : Dev} (hd : P d) : P (Dev.hoCompareDone d) := by
  unfold Dev.hoCompareDone
  split
  · with_reducible exact hd
  · lift_lets
    intro k h1 d1
    with_reducible have hd1 : P d1 := Dev.setRegHo_keeps kp (Dev.setF_keeps kp hd)
    with_reducible exact kp.ite (fun _ => (kp.ite (fun _ => (Dev.hoArm_keeps kp hd1)) fun _ => Dev.hoEnd_keeps kp
                     hd1)) fun _ => hd

theorem Dev.hoSilent_keeps (kp : Keeps P) {d : Dev} (hd : P d) : P (Dev.hoSilent d) := by
  unfold Dev.hoSilent
  split
  · with_reducible exact hd
  · with_reducible exact kp.ite (fun _ => (by
        split
        · with_reducible exact Dev.hoEnd_keeps kp (Dev.pass_keeps kp hd)
        · with_reducible exact hd)) fun _ => hd

theorem Dev.hoRetry_keeps (kp : Keeps P) {d : Dev} (hd : P d) : P (Dev.hoRetry d) := by
  unfold Dev.hoRetry
  split
  · with_reducible exact Dev.unwait_keeps kp hd
  · with_reducible exact kp.ite (fun _ => (Dev.hoArm_keeps kp hd)) fun _ => Dev.unwait_keeps kp hd

theorem Dev.hoBindTimeout_keeps (kp : Keeps P) {d : Dev} (hd : P d) : P (Dev.hoBindTimeout d) := by
  unfold Dev.hoBindTimeout
  split
  · with_reducible exact hd
  · split
    · with_reducible exact Dev.hoEnd_keeps kp (Dev.pass_keeps kp hd)
    · with_reducible exact hd

theorem Dev.hoMiss_keeps (kp : Keeps P) {d : Dev} (hd : P d) : P (Dev.hoMiss d) := by
  unfold Dev.hoMiss
  with_reducible exact Dev.hoEnd_keeps kp hd

theorem Dev.blockCopy_keeps (kp : Keeps P) {d : Dev} (hd : P d) {x y : Nat} : P (Dev.blockCopy d x y) := by
  unfold Dev.blockCopy
  lift_lets
  intro m
  with_reducible exact kp.foldl hd (fun _ _ k1 => (kp.ite (fun _ => (kp.foldl k1 (fun _ _ k2 => (Dev.bramPut_keeps kp
                   k2)))) fun _ => k1))

theorem Dev.hoApply_keeps (kp : Keeps P) {d : Dev} (hd : P d) : P (Dev.hoApply d) := by
  unfold Dev.hoApply
  split
  · with_reducible exact hd
  · lift_lets
    intro t d1 d2 d3 d4
    with_reducible have hd1 : P d1 := kp.foldl hd (fun _ _ k1 => (Dev.blockCopy_keeps kp k1))
    with_reducible have hd2 : P d2 := kp.foldl hd1 (fun _ _ k2 => (Dev.tapsLeave_keeps kp k2))
    with_reducible have hd3 : P d3 := Dev.tapsEnter_keeps kp hd2
    with_reducible have hd4 : P d4 := Dev.hoPhase_keeps kp hd3
    with_reducible exact kp.foldl hd4 (fun _ _ k5 => (Dev.refreshRegion_keeps kp (Dev.refreshRegion_keeps kp k5)))

theorem Dev.hoDrainEnd_keeps (kp : Keeps P) {d : Dev} (hd : P d) : P (Dev.hoDrainEnd d) := by
  unfold Dev.hoDrainEnd
  split
  · with_reducible exact hd
  · lift_lets
    intro d1 d2 d3 d4
    with_reducible have hd1 : P d1 := Dev.reach_keeps kp hd
    with_reducible have hd2 : P d2 := kp.foldl hd1 (fun _ _ k2 => Dev.setIso_keeps kp (Dev.regionDark_keeps kp k2))
    with_reducible have hd3 : P d3 := kp.foldl hd2 (fun _ _ k2 => Dev.refreshRegion_keeps kp (Dev.setF_keeps kp k2))
    with_reducible have hd4 : P d4 := Dev.hoClose_keeps kp hd3
    with_reducible exact kp.ite (fun _ => (Dev.groupsFollow_keeps kp (kp.ite (fun _ => (Dev.setLdPhase_keeps kp hd4))
                     fun _ => hd4))) fun _ => hd

theorem Dev.hoBramUe_keeps (kp : Keeps P) {d : Dev} (hd : P d) {n : Nat} : P (Dev.hoBramUe d n) := by
  unfold Dev.hoBramUe
  split
  · with_reducible exact kp.ite (fun _ => (Dev.hoEnd_keeps kp hd)) fun _ => hd
  · with_reducible exact hd

theorem Dev.loadAbort_keeps (kp : Keeps P) {d : Dev} (hd : P d) : P (Dev.loadAbort d) := by
  unfold Dev.loadAbort
  lift_lets
  intro d0
  with_reducible have hd0 : P d0 := Dev.setF_keeps kp hd
  split
  · with_reducible exact kp.ite (fun _ => hd0) fun _ => Dev.hoEnd_keeps kp hd0
  · split
    · with_reducible exact kp.ite (fun _ => (Dev.loadFail_keeps kp hd0)) fun _ => hd0
    · with_reducible exact hd0

theorem Dev.persBare_keeps (kp : Keeps P) {d : Dev} (hd : P d) : P (Dev.persBare d) := by
  unfold Dev.persBare
  lift_lets
  intro src
  with_reducible exact Dev.raise_keeps kp (kp.upd hd)

theorem Dev.personalityLoad_keeps (kp : Keeps P) {d : Dev} (hd : P d) : P (Dev.personalityLoad d) := by
  unfold Dev.personalityLoad
  lift_lets
  intro s d1 src
  with_reducible have hd1 : P d1 := Dev.loadStart_keeps kp hd
  with_reducible exact kp.ite (fun _ => (kp.ite (fun _ => (kp.ite (fun _ => (by
      split
      · with_reducible exact Dev.loadFail_keeps kp hd1
      · with_reducible exact hd1)) fun _ => hd1)) fun _ => kp.ite (fun _ => (kp.upd hd)) fun _ => Dev.persBare_keeps
                         kp hd)) fun _ => hd

theorem Dev.persDeadline_keeps (kp : Keeps P) {d : Dev} (hd : P d) : P (Dev.persDeadline d) := by
  unfold Dev.persDeadline
  split
  · with_reducible exact hd
  · lift_lets
    intro d1 src d2
    with_reducible have hd1 : P d1 := Dev.pass_keeps kp hd
    with_reducible have hd2 : P d2 := kp.upd hd1
    with_reducible exact kp.ite (fun _ => (by
        split
        · lift_lets
          intro reached
          with_reducible exact Dev.persBare_keeps kp (kp.foldl (Dev.loadFail_keeps kp hd2) (fun _ _ k2 =>
                           Dev.regionDark_keeps kp k2))
        · with_reducible exact Dev.persBare_keeps kp hd2)) fun _ => hd

theorem Dev.setDeadline_keeps (kp : Keeps P) {d : Dev} (hd : P d) {ms : Nat} : P (Dev.setDeadline d ms) := by
  unfold Dev.setDeadline
  lift_lets
  intro src
  with_reducible exact kp.ite (fun _ => (kp.upd hd)) fun _ => hd

theorem Dev.readback_keeps (kp : Keeps P) {d : Dev} (hd : P d) {ctl : Word} : P (Dev.readback d ctl) := by
  unfold Dev.readback
  lift_lets
  intro v d1
  with_reducible have hd1 : P d1 := kp.foldl hd (fun _ _ k3 => Dev.setReg_keeps kp k3)
  with_reducible exact Dev.setF_keeps kp hd1

theorem Dev.repairPrepared_keeps (kp : Keeps P) {d : Dev} (hd : P d) {r c : Nat} {met : List (Nat × Nat × Nat)} : P
    (Dev.repairPrepared d r c met) := by
  unfold Dev.repairPrepared
  lift_lets
  intro p
  split
  · with_reducible exact hd
  · exact kp.ite (fun _ => hd) fun _ => by
        split
        · with_reducible exact Dev.colRepairLost_keeps kp hd
        · lift_lets
          intro d1
          with_reducible have hd1 : P d1 := Dev.setF_keeps kp (Dev.setF_keeps kp (Dev.colCopy_keeps kp hd))
          with_reducible exact Dev.colRepairBind_keeps kp hd1

theorem Dev.ldrLive_keeps (kp : Keeps P) {d : Dev} (hd : P d) {src : Source} {off : Nat} {new : Word} : P
    (Dev.ldrLive d src off new) := by
  unfold Dev.ldrLive
  lift_lets
  intro d1
  with_reducible have hd1 : P d1 := kp.ite (fun _ => (Dev.loadAbort_keeps kp hd)) fun _ => hd
  with_reducible exact kp.ite (fun _ => (kp.ite (fun _ => (Dev.loadGo_keeps kp hd1)) fun _ => hd1)) fun _ => kp.ite
                   (fun _ => (Dev.readback_keeps kp hd)) fun _ => hd

theorem Dev.ldrReset_keeps (kp : Keeps P) {d : Dev} (hd : P d) : P (Dev.ldrReset d) := by
  unfold Dev.ldrReset
  lift_lets
  intro run keep
  with_reducible exact Dev.resetPage_keeps kp hd

theorem Dev.wearMax_keeps (kp : Keeps P) {d : Dev} (hd : P d) {n : Nat} : P (Dev.wearMax d n) := by
  unfold Dev.wearMax
  with_reducible exact Dev.setReg_keeps kp hd

theorem Dev.retireSector_keeps (kp : Keeps P) {d : Dev} (hd : P d) {s : Nat} : P (Dev.retireSector d s) := by
  unfold Dev.retireSector
  lift_lets
  intro left d1 src d2 d3
  with_reducible have hd1 : P d1 := Dev.setF_keeps kp (Dev.setF_keeps kp hd)
  with_reducible have hd2 : P d2 := kp.updSto hd1 rfl rfl
  with_reducible have hd3 : P d3 := Dev.raiseH_keeps kp hd2
  with_reducible exact kp.ite (fun _ => (Dev.raiseH_keeps kp hd)) fun _ => kp.ite (fun _ => (Dev.raiseH_keeps kp
                   hd3)) fun _ => hd3

theorem Dev.storeUnit_keeps (kp : KeepsSto P) {d : Dev} (hd : P d) {addr : Nat} {bytes : List Nat} {bad : Bool} : P
    (Dev.storeUnit d addr bytes bad) := by
  unfold Dev.storeUnit
  lift_lets
  intro s n src d1 d2
  with_reducible have hd1 : P d1 := kp.updBytes hd fun h => (memStore_wf _ _ h)
  with_reducible have hd2 : P d2 := Dev.wearMax_keeps kp.toKeeps hd1
  with_reducible exact kp.ite (fun _ => (Dev.retireSector_keeps kp.toKeeps hd2)) fun _ => hd2

theorem Dev.storeStart_keeps (kp : Keeps P) {d : Dev} (hd : P d) {target index : Nat} {slave : Bool} : P
    (Dev.storeStart d target index slave) := by
  unfold Dev.storeStart
  lift_lets
  intro cap j0 j kept src d1 d2
  with_reducible have hd1 : P d1 := kp.updSto hd rfl rfl
  with_reducible have hd2 : P d2 := Dev.setReg_keeps kp hd1
  with_reducible exact kp.ite (fun _ => (Dev.setF_keeps kp hd2)) fun _ => hd2

theorem Dev.storeWriteUnit_keeps (kp : KeepsSto P) {d : Dev} (hd : P d) {log : Option (Nat × List Nat)} {bad : Bool} : P
    (Dev.storeWriteUnit d log bad) := by
  unfold Dev.storeWriteUnit
  lift_lets
  with_reducible exact (kp.ite (fun _ => hd) fun _ => (by
          split
          · with_reducible exact kp.ite (fun _ => (Dev.storeUnit_keeps kp hd)) fun _ => hd
          · split
            · with_reducible exact hd
            · lift_lets
              intro k bytes d1 src
              with_reducible have hd1 : P d1 := Dev.storeUnit_keeps kp hd
              with_reducible exact (kp.ite (fun _ => hd) fun _ => (Dev.setF_keeps kp.toKeeps (kp.updSto hd1 rfl rfl)))))

theorem Dev.storeEnd_keeps (kp : Keeps P) {d : Dev} (hd : P d) : P (Dev.storeEnd d) := by
  unfold Dev.storeEnd
  lift_lets
  intro src
  with_reducible exact Dev.setF_keeps kp (kp.updSto hd rfl rfl)

theorem Dev.slotWriteDone_keeps (kp : Keeps P) {d : Dev} (hd : P d) : P (Dev.slotWriteDone d) := by
  unfold Dev.slotWriteDone
  lift_lets
  intro p d1
  with_reducible have hd1 : P d1 := Dev.storeEnd_keeps kp hd
  split
  · with_reducible exact hd
  · lift_lets
    intro i keeper good w d2 d3
    with_reducible have hd2 : P d2 := Dev.setReg_keeps kp (Dev.setReg_keeps kp hd1)
    with_reducible have hd3 : P d3 := Dev.count_keeps kp hd2
    with_reducible exact kp.ite (fun _ => (Dev.raise_keeps kp hd3)) fun _ => hd

theorem Dev.storeRange_keeps (kp : KeepsSto P) {d : Dev} (hd : P d) {addr : Nat} {bytes : List Nat} {bad : Bool} : P
    (Dev.storeRange d addr bytes bad) := by
  unfold Dev.storeRange
  lift_lets
  intro first n mem
  with_reducible exact kp.foldl hd (fun _ _ k1 => (Dev.storeUnit_keeps kp k1))

theorem Dev.ustoreDone_keeps (kp : KeepsSto P) {d : Dev} (hd : P d) {fault bad : Bool} : P (Dev.ustoreDone d fault bad)
    := by
  unfold Dev.ustoreDone
  lift_lets
  intro src d1
  with_reducible have hd1 : P d1 := kp.upd hd
  split
  · with_reducible exact hd
  · lift_lets
    intro d2
    with_reducible have hd2 : P d2 := kp.ite (fun _ => (Dev.ustoreErr_keeps kp.toKeeps hd1)) fun _ => (kp.ite (fun _ =>
                     (Dev.send_keeps kp.toKeeps (Dev.storeRange_keeps kp hd1))) fun _ => (Dev.send_keeps kp.toKeeps hd1))
    with_reducible exact Dev.ustoreNext_keeps kp.toKeeps (Dev.regionWake_keeps kp.toKeeps hd2)

theorem Dev.storeReset_keeps (kp : Keeps P) {d : Dev} (hd : P d) : P (Dev.storeReset d) := by
  unfold Dev.storeReset
  with_reducible exact Dev.resetPage_keeps kp hd

theorem Dev.reqPower_keeps (kp : Keeps P) {d : Dev} (hd : P d) {p st : Nat} : P (Dev.reqPower d p st) := by
  unfold Dev.reqPower
  lift_lets
  intro src
  split
  · with_reducible exact kp.upd hd
  · with_reducible exact kp.ite (fun _ => hd) fun _ => kp.ite (fun _ => (kp.upd hd)) fun _ => kp.upd hd

theorem Dev.pfailStart_keeps (kp : Keeps P) {d : Dev} (hd : P d) : P (Dev.pfailStart d) := by
  unfold Dev.pfailStart
  with_reducible exact kp.ite (fun _ => hd) fun _ => Dev.pfMuteAll_keeps kp (Dev.raise_keeps kp (Dev.count_keeps kp
                   (Dev.setF_keeps kp hd)))

theorem Dev.pfailEnd_keeps (kp : Keeps P) {d : Dev} (hd : P d) : P (Dev.pfailEnd d) := by
  unfold Dev.pfailEnd
  with_reducible exact kp.ite (fun _ => (Dev.ustoreNext_keeps kp (Dev.raise_keeps kp (Dev.setF_keeps kp hd)))) fun _
                   => hd

theorem Dev.xinLost_keeps (kp : Keeps P) {d : Dev} (hd : P d) {khz : Nat} : P (Dev.xinLost d khz) := by
  unfold Dev.xinLost
  lift_lets
  intro d1
  with_reducible have hd1 : P d1 := Dev.setReg_keeps kp hd
  with_reducible exact kp.ite (fun _ => hd) fun _ => Dev.raise_keeps kp (Dev.count_keeps kp hd1)

theorem Dev.xinBack_keeps (kp : Keeps P) {d : Dev} (hd : P d) {khz : Nat} : P (Dev.xinBack d khz) := by
  unfold Dev.xinBack
  lift_lets
  intro held d1
  with_reducible have hd1 : P d1 := Dev.setReg_keeps kp hd
  with_reducible exact kp.ite (fun _ => hd) fun _ => kp.ite (fun _ => (Dev.raise_keeps kp hd1)) fun _ => hd1

theorem Dev.pairEvent_keeps (kp : Keeps P) {d : Dev} (hd : P d) {k : Nat} {e : Evt} : P (Dev.pairEvent d k e) := by
  unfold Dev.pairEvent
  with_reducible exact Dev.raiseH_keeps kp hd

theorem Dev.pllFails_keeps (kp : Keeps P) {d : Dev} (hd : P d) {k x : Nat} : P (Dev.pllFails d k x) := by
  unfold Dev.pllFails
  lift_lets
  intro n d1 d2 src
  with_reducible have hd1 : P d1 := Dev.setF_keeps kp hd
  with_reducible have hd2 : P d2 := kp.ite (fun _ => (Dev.setF_keeps kp hd1)) fun _ => hd1
  with_reducible exact kp.upd hd2

theorem Dev.pairBare_keeps (kp : Keeps P) {d : Dev} (hd : P d) {k : Nat} : P (Dev.pairBare d k) := by
  unfold Dev.pairBare
  lift_lets
  intro d1 src
  with_reducible have hd1 : P d1 := Dev.setF_keeps kp hd
  with_reducible exact kp.ite (fun _ => hd1) fun _ => Dev.pairEvent_keeps kp (kp.upd hd1)

theorem Dev.pairSwitch_keeps (kp : Keeps P) {d : Dev} (hd : P d) {k : Nat} : P (Dev.pairSwitch d k) := by
  unfold Dev.pairSwitch
  lift_lets
  intro d1
  with_reducible have hd1 : P d1 := Dev.count_keeps kp (Dev.setF_keeps kp hd)
  with_reducible exact Dev.pairEvent_keeps kp hd1

theorem Dev.pllFailover_keeps (kp : Keeps P) {d : Dev} (hd : P d) {k : Nat} : P (Dev.pllFailover d k) := by
  unfold Dev.pllFailover
  lift_lets
  intro d1 src
  with_reducible have hd1 : P d1 := Dev.pllFails_keeps kp hd
  with_reducible exact kp.ite (fun _ => hd) fun _ => kp.ite (fun _ => (kp.upd hd1)) fun _ => Dev.pairBare_keeps kp
                   (Dev.pairSwitch_keeps kp hd1)

theorem Dev.pllRelock_keeps (kp : Keeps P) {d : Dev} (hd : P d) {k : Nat} : P (Dev.pllRelock d k) := by
  unfold Dev.pllRelock
  lift_lets
  intro src
  with_reducible exact kp.ite (fun _ => (Dev.pairBare_keeps kp (Dev.pairSwitch_keeps kp (kp.upd hd)))) fun _ => hd

theorem Dev.pllRetry_keeps (kp : Keeps P) {d : Dev} (hd : P d) {k : Nat} {ok : Bool} : P (Dev.pllRetry d k ok) := by
  unfold Dev.pllRetry
  split
  · with_reducible exact hd
  · lift_lets
    intro d1 src
    with_reducible have hd1 : P d1 := Dev.pass_keeps kp hd
    with_reducible exact kp.ite (fun _ => hd) fun _ => kp.ite (fun _ => (kp.upd hd1)) fun _ => Dev.pllFails_keeps kp
                     hd1

theorem Dev.pllRestored_keeps (kp : Keeps P) {d : Dev} (hd : P d) {k : Nat} : P (Dev.pllRestored d k) := by
  unfold Dev.pllRestored
  split
  · with_reducible exact hd
  · lift_lets
    intro d1 ns src d2
    with_reducible have hd1 : P d1 := Dev.pass_keeps kp hd
    with_reducible have hd2 : P d2 := kp.upd hd1
    with_reducible exact Dev.pairEvent_keeps kp (Dev.setF_keeps kp hd2)

theorem Dev.pairsStart_keeps (kp : Keeps P) {d : Dev} (hd : P d) : P (Dev.pairsStart d) := by
  unfold Dev.pairsStart
  with_reducible exact kp.foldl hd (fun _ _ k3 => by
      lift_lets
      intro e1
      with_reducible have he1 : P e1 := Dev.setF_keeps kp k3
      with_reducible exact kp.ite (fun _ => (Dev.setF_keeps kp he1)) fun _ => he1)

theorem Dev.clkLive_keeps (kp : Keeps P) {d : Dev} (hd : P d) {off : Nat} {new : Word} : P (Dev.clkLive d off new) :=
    by
  unfold Dev.clkLive
  lift_lets
  intro k
  with_reducible exact kp.ite (fun _ => (kp.ite (fun _ => (Dev.pairSwitch_keeps kp hd)) fun _ => hd)) fun _ => hd

theorem Dev.clkReset_keeps (kp : Keeps P) {d : Dev} (hd : P d) : P (Dev.clkReset d) := by
  unfold Dev.clkReset
  with_reducible exact Dev.resetPage_keeps kp hd

theorem Dev.setTemps_keeps (kp : Keeps P) {d : Dev} (hd : P d) {ts : List Nat} : P (Dev.setTemps d ts) := by
  unfold Dev.setTemps
  lift_lets
  intro reg d1
  with_reducible have hd1 : P d1 := kp.foldl hd (fun _ _ k2 => Dev.setReg_keeps kp k2)
  with_reducible exact Dev.setReg_keeps kp hd1

theorem Dev.thermSample_keeps (kp : Keeps P) {d : Dev} (hd : P d) {ts : List Nat} : P (Dev.thermSample d ts) := by
  unfold Dev.thermSample
  lift_lets
  intro was m w f d0 src d1 src_1 d2 d3 src_2
  with_reducible have hd0 : P d0 := Dev.setTemps_keeps kp hd
  with_reducible have hd1 : P d1 := kp.upd hd0
  with_reducible have hd2 : P d2 := kp.ite (fun _ => (Dev.raise_keeps kp (Dev.count_keeps kp (kp.upd hd1)))) fun _ =>
                   hd1
  with_reducible have hd3 : P d3 := kp.ite (fun _ => (Dev.raise_keeps kp (Dev.count_keeps kp hd2))) fun _ => hd2
  with_reducible exact kp.ite (fun _ => (Dev.raise_keeps kp (kp.upd hd3))) fun _ => hd3

theorem Dev.ageMeasure_keeps (kp : Keeps P) {d : Dev} (hd : P d) {ss : List Nat} : P (Dev.ageMeasure d ss) := by
  unfold Dev.ageMeasure
  lift_lets
  intro d1 lvl src
  with_reducible have hd1 : P d1 := kp.foldl hd (fun _ _ k2 => Dev.setReg_keeps kp k2)
  split
  · with_reducible exact kp.ite (fun _ => hd1) fun _ => Dev.raise_keeps kp (kp.upd hd1)
  · with_reducible exact hd1

theorem Dev.hoursUpdate_keeps (kp : Keeps P) {d : Dev} (hd : P d) : P (Dev.hoursUpdate d) := by
  unfold Dev.hoursUpdate
  lift_lets
  intro d1 add d2 d3 src d4 src_1
  with_reducible have hd1 : P d1 := Dev.pass_keeps kp hd
  with_reducible have hd2 : P d2 := Dev.setReg_keeps kp hd1
  with_reducible have hd3 : P d3 := Dev.setReg_keeps kp hd2
  with_reducible have hd4 : P d4 := kp.upd hd3
  with_reducible exact kp.ite (fun _ => (Dev.raise_keeps kp (kp.upd hd4))) fun _ => hd4

theorem Dev.setKey_keeps (kp : Keeps P) {d : Dev} (hd : P d) {k : Nat} {v : Option Nat} : P (Dev.setKey d k v) := by
  unfold Dev.setKey
  lift_lets
  intro src
  with_reducible exact kp.ite (fun _ => (kp.upd hd)) fun _ => kp.upd hd

theorem Dev.newChal_keeps (kp : Keeps P) {d : Dev} (hd : P d) : P (Dev.newChal d) := by
  unfold Dev.newChal
  lift_lets
  intro r
  with_reducible have hr : P r.2 := Dev.takeFresh_keeps kp hd
  with_reducible exact kp.foldl hr (fun _ _ k3 => Dev.setReg_keeps kp k3)

theorem Dev.supUp_keeps (kp : Keeps P) {d : Dev} (hd : P d) {b : Nat} : P (Dev.supUp d b) := by
  unfold Dev.supUp
  lift_lets
  intro src src_1
  with_reducible exact Dev.setF_keeps kp (kp.upd hd)

theorem Dev.recover_keeps (kp : Keeps P) {d : Dev} (hd : P d) : P (Dev.recover d) := by
  unfold Dev.recover
  lift_lets
  intro src
  with_reducible exact Dev.setF_keeps kp (kp.upd hd)

theorem Dev.supStart_keeps (kp : Keeps P) {d : Dev} (hd : P d) {b : Nat} : P (Dev.supStart d b) := by
  unfold Dev.supStart
  lift_lets
  intro a srv d1 d2 d3 d4 src d5
  with_reducible have hd1 : P d1 := Dev.setReg_keeps kp (Dev.setF_keeps kp (Dev.setF_keeps kp hd))
  with_reducible have hd2 : P d2 := Dev.supUp_keeps kp (Dev.setF_keeps kp (Dev.setF_keeps kp hd1))
  with_reducible have hd3 : P d3 := Dev.raise_keeps kp (Dev.newChal_keeps kp (Dev.pairsStart_keeps kp hd2))
  with_reducible have hd4 : P d4 := kp.ite (fun _ => hd3) fun _ => Dev.raise_keeps kp hd3
  with_reducible have hd5 : P d5 := kp.ite (fun _ => (Dev.raise_keeps kp (kp.upd hd4))) fun _ => hd4
  with_reducible exact kp.foldl hd5 (fun _ _ k3 => Dev.dieCalStart_keeps kp k3)

theorem Dev.bootVerify_keeps (kp : Keeps P) {d : Dev} (hd : P d) : P (Dev.bootVerify d) := by
  unfold Dev.bootVerify
  lift_lets
  intro a f0 f1 d0
  with_reducible have hd0 : P d0 := Dev.setF_keeps kp hd
  with_reducible exact kp.ite (fun _ => hd) fun _ => kp.ite (fun _ => (Dev.supStart_keeps kp hd0)) fun _ => kp.ite
                   (fun _ => (Dev.supStart_keeps kp hd0)) fun _ => Dev.recover_keeps kp (Dev.setF_keeps kp hd0)

theorem Dev.setExtest_keeps (kp : Keeps P) {d : Dev} (hd : P d) {on : Bool} : P (Dev.setExtest d on) := by
  unfold Dev.setExtest
  lift_lets
  intro src
  with_reducible exact kp.ite (fun _ => hd) fun _ => Dev.refreshPins_keeps kp (kp.upd hd)

theorem Dev.jtagLoad_keeps (kp : Keeps P) {d : Dev} (hd : P d) {i : Nat} : P (Dev.jtagLoad d i) := by
  unfold Dev.jtagLoad
  lift_lets
  intro k src
  with_reducible exact Dev.setExtest_keeps kp (kp.upd hd)

theorem Dev.jtagLock_keeps (kp : Keeps P) {d : Dev} (hd : P d) : P (Dev.jtagLock d) := by
  unfold Dev.jtagLock
  lift_lets
  intro d1 src
  with_reducible have hd1 : P d1 := Dev.setF_keeps kp hd
  with_reducible exact kp.ite (fun _ => (Dev.setExtest_keeps kp (kp.ite (fun _ => (kp.upd hd1)) fun _ => hd1))) fun _
                   => hd

theorem Dev.jtagUnlock_keeps (kp : Keeps P) {d : Dev} (hd : P d) {how : Nat} : P (Dev.jtagUnlock d how) := by
  unfold Dev.jtagUnlock
  with_reducible exact Dev.raise_keeps kp (Dev.setF_keeps kp hd)

theorem Dev.chalRd_keeps (kp : Keeps P) {d : Dev} (hd : P d) : P (Dev.chalRd d) := by
  unfold Dev.chalRd
  with_reducible exact Dev.send_keeps kp hd

theorem Dev.jtagUnlockSig_keeps (kp : Keeps P) {d : Dev} (hd : P d) {blk : List Nat} : P (Dev.jtagUnlockSig d blk) :=
    by
  unfold Dev.jtagUnlockSig
  lift_lets
  intro ok
  with_reducible exact Dev.newChal_keeps kp (kp.ite (fun _ => (Dev.jtagUnlock_keeps kp hd)) fun _ => hd)

theorem Dev.fmStore_keeps (kp : KeepsMem P) {d : Dev} (hd : P d) {ep a : Nat} {bytes : List Nat} : P (Dev.fmStore d ep a
    bytes) := by
  unfold Dev.fmStore
  lift_lets
  intro lo hi
  with_reducible exact Dev.fmGuard_keeps kp.toKeeps hd (fun _ k1 => (kp.updMem k1 fun h => (memStore_wf _ _ h)))

theorem Dev.attDone_keeps (kp : KeepsMem P) {d : Dev} (hd : P d) : P (Dev.attDone d) := by
  unfold Dev.attDone
  lift_lets
  split
  · with_reducible exact hd
  · lift_lets
    intro d1 src d2 d3
    with_reducible have hd1 : P d1 := Dev.fmStore_keeps kp hd
    with_reducible have hd2 : P d2 := kp.upd hd1
    with_reducible have hd3 : P d3 := Dev.setReg_keeps kp.toKeeps (Dev.setF_keeps kp.toKeeps hd2)
    with_reducible exact Dev.raise_keeps kp.toKeeps (Dev.count_keeps kp.toKeeps hd3)

theorem Dev.secLive_keeps (kp : Keeps P) {d : Dev} (hd : P d) {off : Nat} {new : Word} : P (Dev.secLive d off new) :=
    by
  unfold Dev.secLive
  lift_lets
  intro src d1
  with_reducible have hd1 : P d1 := kp.ite (fun _ => (Dev.newChal_keeps kp hd)) fun _ => hd
  with_reducible exact kp.ite (fun _ => (kp.ite (fun _ => (Dev.setReg_keeps kp (kp.upd hd))) fun _ => hd)) fun _ =>
                   kp.ite (fun _ => (Dev.setReg_keeps kp (kp.ite (fun _ => (Dev.jtagLock_keeps kp hd1)) fun _ =>
                   hd1))) fun _ => hd

theorem Dev.secReset_keeps (kp : Keeps P) {d : Dev} (hd : P d) : P (Dev.secReset d) := by
  unfold Dev.secReset
  lift_lets
  intro src d1
  with_reducible have hd1 : P d1 := Dev.resetPage_keeps kp (kp.upd hd)
  with_reducible exact kp.ite (fun _ => (Dev.setF_keeps kp hd1)) fun _ => hd1

theorem Dev.authLive_keeps (kp : Keeps P) {d : Dev} (hd : P d) {off : Nat} {new : Word} : P (Dev.authLive d off new)
    := by
  unfold Dev.authLive
  lift_lets
  intro m d1
  with_reducible have hd1 : P d1 := Dev.setF_keeps kp hd
  with_reducible exact kp.ite (fun _ => (kp.ite (fun _ => hd1) fun _ => Dev.setF_keeps kp (Dev.setF_keeps kp hd1)))
                   fun _ => hd

theorem Dev.authReset_keeps (kp : Keeps P) {d : Dev} (hd : P d) : P (Dev.authReset d) := by
  unfold Dev.authReset
  with_reducible exact Dev.resetPage_keeps kp hd

theorem Dev.raiseVector_keeps (kp : Keeps P) {d : Dev} (hd : P d) {v : Nat} : P (Dev.raiseVector d v) := by
  unfold Dev.raiseVector
  lift_lets
  intro src
  with_reducible exact kp.ite (fun _ => (Dev.send_keeps kp hd)) fun _ => kp.ite (fun _ => hd) fun _ => kp.upd hd

theorem Dev.msixFlush_keeps (kp : Keeps P) {d : Dev} (hd : P d) : P (Dev.msixFlush d) := by
  unfold Dev.msixFlush
  with_reducible exact kp.foldl hd (fun _ _ k2 => kp.ite (fun _ => (Dev.send_keeps kp (kp.upd k2))) fun _ => k2)

theorem Dev.msixWrite_keeps (kp : Keeps P) {d : Dev} (hd : P d) {k : Nat} {v : Word} : P (Dev.msixWrite d k v) := by
  unfold Dev.msixWrite
  lift_lets
  intro src
  with_reducible exact Dev.msixFlush_keeps kp (kp.upd hd)

theorem Dev.msixControl_keeps (kp : Keeps P) {d : Dev} (hd : P d) {on mask : Bool} : P (Dev.msixControl d on mask) :=
    by
  unfold Dev.msixControl
  lift_lets
  intro src
  with_reducible exact Dev.msixFlush_keeps kp (kp.upd hd)

theorem Dev.setDmaQ_keeps (kp : Keeps P) {d : Dev} (hd : P d) {q : Nat} {x : DmaQ} : P (Dev.setDmaQ d q x) := by
  unfold Dev.setDmaQ
  lift_lets
  intro src
  with_reducible exact kp.upd hd

theorem Dev.cqWrite_keeps (kp : Keeps P) {d : Dev} (hd : P d) {q : Nat} {rec : List Word} {irq : Bool} : P
    (Dev.cqWrite d q rec irq) := by
  unfold Dev.cqWrite
  lift_lets
  intro x t base w0 n src y d1
  with_reducible have hd1 : P d1 := Dev.send_keeps kp (Dev.setDmaQ_keeps kp hd)
  with_reducible exact kp.ite (fun _ => (Dev.raiseVector_keeps kp hd1)) fun _ => hd1

theorem Dev.cqDrain_keeps (kp : Keeps P) {d : Dev} (hd : P d) {q x2 : Nat} : P (Dev.cqDrain d q x2) := by
  unfold Dev.cqDrain
  lift_lets
  intro x
  split
  · with_reducible exact hd
  · split
    · with_reducible exact hd
    · with_reducible exact kp.ite (fun _ => (Dev.cqDrain_keeps kp (Dev.cqWrite_keeps kp (Dev.setDmaQ_keeps kp hd)))) fun
                       _ => hd

theorem Dev.sqFetch_keeps (kp : Keeps P) {d : Dev} (hd : P d) {q : Nat} : P (Dev.sqFetch d q) := by
  unfold Dev.sqFetch
  lift_lets
  intro x src
  with_reducible exact kp.ite (fun _ => (Dev.setDmaQ_keeps kp hd)) fun _ => hd

theorem Dev.descEnd_keeps (kp : Keeps P) {d : Dev} (hd : P d) {q : Nat} {c : Desc} {status done : Nat} {frame : Option
    HostFrame} : P (Dev.descEnd d q c status done frame) := by
  unfold Dev.descEnd
  lift_lets
  intro x d1
  with_reducible have hd1 : P d1 := Dev.cqDrain_keeps kp (Dev.setDmaQ_keeps kp hd)
  with_reducible exact kp.ite (fun _ => hd1) fun _ => (Dev.raise_keeps kp hd1)

theorem Dev.dmaStop_keeps (kp : Keeps P) {d : Dev} (hd : P d) {q : Nat} : P (Dev.dmaStop d q) := by
  unfold Dev.dmaStop
  lift_lets
  intro x l src d1
  with_reducible have hd1 : P d1 := Dev.setDmaQ_keeps kp hd
  with_reducible exact kp.foldl hd1 (fun _ _ k2 => (Dev.descEnd_keeps kp k2))

theorem Dev.qCfgWrite_keeps (kp : Keeps P) {d : Dev} (hd : P d) {q : Nat} {v : Word} : P (Dev.qCfgWrite d q v) := by
  unfold Dev.qCfgWrite
  lift_lets
  intro x w l d1
  with_reducible have hd1 : P d1 := Dev.dmaStop_keeps kp hd
  with_reducible exact kp.ite (fun _ => (kp.ite (fun _ => hd) fun _ => (Dev.setDmaQ_keeps kp hd1))) fun _ =>
                   (Dev.setDmaQ_keeps kp hd)

theorem Dev.qBaseWrite_keeps (kp : Keeps P) {d : Dev} (hd : P d) {q off : Nat} {v : Word} : P (Dev.qBaseWrite d q off
    v) := by
  unfold Dev.qBaseWrite
  lift_lets
  intro x
  with_reducible exact kp.ite (fun _ => hd) fun _ => Dev.setDmaQ_keeps kp hd

theorem Dev.sqDoorbell_keeps (kp : Keeps P) {d : Dev} (hd : P d) {q : Nat} {v : Word} {ds : List Desc} : P
    (Dev.sqDoorbell d q v ds) := by
  unfold Dev.sqDoorbell
  lift_lets
  intro x old n new src
  with_reducible exact kp.ite (fun _ => (Dev.sqFetch_keeps kp (Dev.setDmaQ_keeps kp hd))) fun _ => Dev.setDmaQ_keeps
                   kp hd

theorem Dev.cqHeadWrite_keeps (kp : Keeps P) {d : Dev} (hd : P d) {q : Nat} {v : Word} : P (Dev.cqHeadWrite d q v) := by
  unfold Dev.cqHeadWrite
  lift_lets
  intro x
  with_reducible exact Dev.sqFetch_keeps kp (Dev.cqDrain_keeps kp (Dev.setDmaQ_keeps kp hd))

theorem Dev.fmCopy_keeps (kp : KeepsMem P) {d : Dev} (hd : P d) {ep a b n : Nat} : P (Dev.fmCopy d ep a b n) := by
  unfold Dev.fmCopy
  lift_lets
  intro src d1
  with_reducible have hd1 : P d1 := Dev.fmStore_keeps kp hd
  with_reducible exact kp.foldl hd1 (fun _ _ k2 => (Dev.fmSetPois_keeps kp.toKeeps (Dev.fmSetPois_keeps kp.toKeeps k2)))

theorem Dev.dmaMemory_keeps (kp : KeepsMem P) {d : Dev} (hd : P d) {q : Nat} {c : Desc} {host : List Nat} {err : Option
    Nat} : P (Dev.dmaMemory d q c host err) := by
  unfold Dev.dmaMemory
  lift_lets
  intro ep n st bytes m
  with_reducible exact kp.ite (fun _ => (Dev.descEnd_keeps kp.toKeeps (Dev.fmStore_keeps kp hd))) fun _ => (kp.ite (fun _
                   => (Dev.descEnd_keeps kp.toKeeps (Dev.send_keeps kp.toKeeps hd))) fun _ => (Dev.descEnd_keeps
                   kp.toKeeps (Dev.fmCopy_keeps kp hd)))

theorem Dev.dmaTransmit_keeps (kp : Keeps P) {d : Dev} (hd : P d) {q : Nat} {c : Desc} {host : List Nat} {err : Option
    Nat} : P (Dev.dmaTransmit d q c host err) := by
  unfold Dev.dmaTransmit
  lift_lets
  intro port bytes src
  with_reducible exact (kp.ite (fun _ => (Dev.descEnd_keeps kp hd)) fun _ => (kp.ite (fun _ => (Dev.descEnd_keeps kp hd))
                   fun _ => (by
          split
          · with_reducible exact Dev.descEnd_keeps kp hd
          · with_reducible exact (Dev.descEnd_keeps kp (kp.upd hd)))))

theorem Dev.dmaReceive_keeps (kp : Keeps P) {d : Dev} (hd : P d) {q : Nat} {c : Desc} {f : HostFrame} {err : Option Nat}
    : P (Dev.dmaReceive d q c f err) := by
  unfold Dev.dmaReceive
  lift_lets
  intro n k
  with_reducible exact kp.ite (fun _ => (Dev.descEnd_keeps kp hd)) fun _ => (Dev.descEnd_keeps kp (Dev.send_keeps kp hd))

theorem Dev.dmaDone_keeps (kp : KeepsMem P) {d : Dev} (hd : P d) {q : Nat} {host : List Nat} {err : Option Nat} : P
    (Dev.dmaDone d q host err) := by
  unfold Dev.dmaDone
  lift_lets
  intro x
  split
  · with_reducible exact hd
  · lift_lets
    intro d1 src
    with_reducible have hd1 : P d1 := Dev.setDmaQ_keeps kp.toKeeps hd
    with_reducible exact (kp.ite (fun _ => (kp.ite (fun _ => (Dev.descEnd_keeps kp.toKeeps hd1)) fun _ => (kp.ite (fun _
                     => (Dev.descEnd_keeps kp.toKeeps hd1)) fun _ => (kp.ite (fun _ => (Dev.dmaMemory_keeps kp hd1)) fun
                     _ => (kp.ite (fun _ => (Dev.dmaTransmit_keeps kp.toKeeps hd1)) fun _ => (by
          split
          · with_reducible exact Dev.dmaReceive_keeps kp.toKeeps (kp.upd hd1)
          · with_reducible exact hd)))))) fun _ => hd)

theorem Dev.hostqTrim_keeps (kp : Keeps P) {d : Dev} (hd : P d) : P (Dev.hostqTrim d) := by
  unfold Dev.hostqTrim
  lift_lets
  intro keep lost src d1
  with_reducible have hd1 : P d1 := kp.upd hd
  with_reducible exact kp.foldl hd1 (fun _ _ k3 => by
      lift_lets
      intro x
      with_reducible exact kp.ite (fun _ => k3) fun _ => Dev.setDmaQ_keeps kp k3)

theorem Dev.bar4Write_keeps (kp : Keeps P) {d : Dev} (hd : P d) {a : Nat} {v : Word} : P (Dev.bar4Write d a v) := by
  unfold Dev.bar4Write
  lift_lets
  intro q o
  with_reducible exact kp.ite (fun _ => (kp.ite (fun _ => (Dev.qBaseWrite_keeps kp hd)) fun _ => (kp.ite (fun _ =>
                   (Dev.qCfgWrite_keeps kp hd)) fun _ => (kp.ite (fun _ => (Dev.sqDoorbell_keeps kp hd)) fun _ => (kp.ite
                   (fun _ => (Dev.cqHeadWrite_keeps kp hd)) fun _ => hd))))) fun _ => (kp.ite (fun _ =>
                   (Dev.msixWrite_keeps kp hd)) fun _ => hd)

theorem Dev.hostReset_keeps (kp : Keeps P) {d : Dev} (hd : P d) {link : Bool} : P (Dev.hostReset d link) := by
  unfold Dev.hostReset
  lift_lets
  intro src d1 keep d2
  with_reducible have hd1 : P d1 := kp.upd hd
  with_reducible have hd2 : P d2 := Dev.resetPage_keeps kp hd1
  with_reducible exact kp.foldl hd2 (fun _ _ k3 => by
      lift_lets
      intro e1 src_1
      with_reducible have he1 : P e1 := Dev.setReg_keeps kp (Dev.setReg_keeps kp (Dev.setF_keeps kp k3))
      with_reducible exact Dev.setQueue_keeps kp he1)

theorem Dev.hostResetDone_keeps (kp : Keeps P) {d : Dev} (hd : P d) {why : Nat} : P (Dev.hostResetDone d why) := by
  unfold Dev.hostResetDone
  with_reducible exact Dev.raise_keeps kp hd

theorem Dev.pcieDown_keeps (kp : Keeps P) {d : Dev} (hd : P d) : P (Dev.pcieDown d) := by
  unfold Dev.pcieDown
  lift_lets
  intro d1
  with_reducible have hd1 : P d1 := Dev.count_keeps kp (Dev.setF_keeps kp hd)
  with_reducible exact kp.ite (fun _ => (Dev.hostResetDone_keeps kp (Dev.hostReset_keeps kp (Dev.raise_keeps kp
                   hd1)))) fun _ => hd

theorem Dev.pcieUp_keeps (kp : Keeps P) {d : Dev} (hd : P d) {gen width : Nat} : P (Dev.pcieUp d gen width) := by
  unfold Dev.pcieUp
  lift_lets
  intro d1
  with_reducible have hd1 : P d1 := Dev.raise_keeps kp (Dev.setReg_keeps kp hd)
  with_reducible exact kp.ite (fun _ => hd) fun _ => kp.ite (fun _ => hd1) fun _ => Dev.raise_keeps kp hd1

theorem Dev.queueRaise_keeps (kp : Keeps P) {d : Dev} (hd : P d) {q : Nat} : P (Dev.queueRaise d q) := by
  unfold Dev.queueRaise
  lift_lets
  intro src
  with_reducible exact Dev.raiseVector_keeps kp (Dev.setQueue_keeps kp hd)

theorem Dev.ringWrite_keeps (kp : Keeps P) {d : Dev} (hd : P d) {q : Nat} : P (Dev.ringWrite d q) := by
  unfold Dev.ringWrite
  lift_lets
  intro x addr h n
  split
  · with_reducible exact hd
  · lift_lets
    intro d1 d2 d3
    with_reducible have hd1 : P d1 := Dev.setQueue_keeps kp hd
    with_reducible have hd2 : P d2 := Dev.setReg_keeps kp (Dev.send_keeps kp hd1)
    with_reducible have hd3 : P d3 := Dev.send_keeps kp hd2
    with_reducible exact kp.ite (fun _ => (kp.ite (fun _ => (Dev.queueRaise_keeps kp hd3)) fun _ => hd3)) fun _ => hd

theorem Dev.coalesce_keeps (kp : Keeps P) {d : Dev} (hd : P d) {q : Nat} : P (Dev.coalesce d q) := by
  unfold Dev.coalesce
  lift_lets
  intro us
  split
  · with_reducible exact kp.ite (fun _ => hd) fun _ => Dev.queueRaise_keeps kp (Dev.pass_keeps kp hd)
  · with_reducible exact hd

theorem Dev.ntcReset_keeps (kp : Keeps P) {d : Dev} (hd : P d) : P (Dev.ntcReset d) := by
  unfold Dev.ntcReset
  with_reducible exact kp.foldl (Dev.resetPage_keeps kp hd) (fun _ _ k2 => Dev.setQueue_keeps kp k2)

theorem Dev.brzFrame_keeps (kp : Keeps P) {d : Dev} (hd : P d) {ty chan seq : Nat} {payload : List Nat} : P
    (Dev.brzFrame d ty chan seq payload) := by
  unfold Dev.brzFrame
  with_reducible exact Dev.send_keeps kp hd

theorem Dev.setCredit_keeps (kp : Keeps P) {d : Dev} (hd : P d) {c n : Nat} : P (Dev.setCredit d c n) := by
  unfold Dev.setCredit
  lift_lets
  intro src
  with_reducible exact kp.upd hd

theorem Dev.freeBuf_keeps (kp : Keeps P) {d : Dev} (hd : P d) {c : Nat} : P (Dev.freeBuf d c) := by
  unfold Dev.freeBuf
  with_reducible exact Dev.brzFrame_keeps kp (Dev.setCredit_keeps kp hd)

theorem Dev.blkLose_keeps (kp : Keeps P) {d : Dev} (hd : P d) : P (Dev.blkLose d) := by
  unfold Dev.blkLose
  lift_lets
  intro src
  with_reducible exact kp.ite (fun _ => (Dev.raise_keeps kp (Dev.setReg_keeps kp (kp.upd hd)))) fun _ => hd

theorem Dev.brzBreak_keeps (kp : Keeps P) {d : Dev} (hd : P d) {baud : Nat} : P (Dev.brzBreak d baud) := by
  unfold Dev.brzBreak
  lift_lets
  intro d1 d2 src d3
  with_reducible have hd1 : P d1 := Dev.blkLose_keeps kp hd
  with_reducible have hd2 : P d2 := Dev.setF_keeps kp (Dev.setReg_keeps kp hd1)
  with_reducible have hd3 : P d3 := kp.upd hd2
  with_reducible exact kp.ite (fun _ => (kp.foldl (Dev.raise_keeps kp hd3) (fun _ _ k2 => Dev.brzFrame_keeps kp
                   (Dev.setCredit_keeps kp k2)))) fun _ => hd1

theorem Dev.brzNak_keeps (kp : Keeps P) {d : Dev} (hd : P d) {chan seq cause : Nat} : P (Dev.brzNak d chan seq cause)
    := by
  unfold Dev.brzNak
  lift_lets
  intro d1 d2 src d3
  with_reducible have hd1 : P d1 := Dev.count_keeps kp (Dev.brzFrame_keeps kp hd)
  with_reducible have hd2 : P d2 := kp.ite (fun _ => (Dev.count_keeps kp hd1)) fun _ => hd1
  with_reducible have hd3 : P d3 := kp.upd hd2
  with_reducible exact kp.ite (fun _ => (Dev.blkLose_keeps kp hd3)) fun _ => hd3

theorem Dev.brzReject_keeps (kp : Keeps P) {d : Dev} (hd : P d) {chan : Nat} {seq : Option Nat} {cause : Nat} : P
    (Dev.brzReject d chan seq cause) := by
  unfold Dev.brzReject
  with_reducible exact kp.ite (fun _ => (Dev.brzNak_keeps kp hd)) fun _ => hd

theorem Dev.brzGood_keeps (kp : Keeps P) {d : Dev} (hd : P d) : P (Dev.brzGood d) := by
  unfold Dev.brzGood
  lift_lets
  intro src
  with_reducible exact kp.upd hd

theorem Dev.brzRsp_keeps (kp : Keeps P) {d : Dev} (hd : P d) {c seq : Nat} {payload : List Nat} : P (Dev.brzRsp d c
    seq payload) := by
  unfold Dev.brzRsp
  lift_lets
  intro keep src d1
  with_reducible have hd1 : P d1 := kp.ite (fun _ => (kp.upd hd)) fun _ => hd
  with_reducible exact Dev.freeBuf_keeps kp (Dev.brzFrame_keeps kp hd1)

theorem Dev.brzCmd_keeps (kp : Keeps P) {d : Dev} (hd : P d) {c seq : Nat} {f : Dev → Dev × Option (List Nat)}
    (hf : ∀ y, P y → P (f y).1) : P (d.brzCmd c seq f) := by
  unfold Dev.brzCmd
  refine kp.ite (fun _ => kp.ite (fun _ => Dev.brzNak_keeps kp hd) fun _ =>
    kp.ite (fun _ => Dev.brzNak_keeps kp hd) fun _ => ?_) fun _ => hd
  have h1 : P (d.brzGood.setCredit c (d.credit c - 1)) := Dev.setCredit_keeps kp (Dev.brzGood_keeps kp hd)
  generalize d.brzGood.setCredit c (d.credit c - 1) = d1 at h1 ⊢
  have hr : P (match (f { d1 with bz := { d1.bz with last := Tab.ins d1.bz.last c (seq, []) } }).2 with
      | some p => (f { d1 with bz := { d1.bz with last := Tab.ins d1.bz.last c (seq, []) } }).1.brzRsp c seq p
      | none => (f { d1 with bz := { d1.bz with last := Tab.ins d1.bz.last c (seq, []) } }).1) :=
    by
      split
      · exact Dev.brzRsp_keeps kp (hf _ (kp.upd h1))
      · exact hf _ (kp.upd h1)
  dsimp only
  split
  · exact hr
  · exact kp.ite (fun _ => Dev.freeBuf_keeps kp (kp.ite (fun _ => h1) fun _ => Dev.brzFrame_keeps kp (Dev.count_keeps kp
        h1))) fun _ =>
      kp.ite (fun _ => hr) fun _ => Dev.brzNak_keeps kp hd

theorem Dev.setFlight_keeps (kp : Keeps P) {d : Dev} (hd : P d) {l : List (InFlight × Nat)} : P (Dev.setFlight d l)
    := by
  unfold Dev.setFlight
  lift_lets
  intro src
  with_reducible exact Dev.setF_keeps kp (kp.upd hd)

theorem Dev.noticeSend_keeps (kp : Keeps P) {d : Dev} (hd : P d) {q : Nat} : P (Dev.noticeSend d q) := by
  unfold Dev.noticeSend
  split
  · with_reducible exact hd
  · lift_lets
    intro d1 x now rest d2 n src d3
    with_reducible have hd1 : P d1 := Dev.pass_keeps kp hd
    with_reducible have hd2 : P d2 := Dev.setQueue_keeps kp hd1
    with_reducible have hd3 : P d3 := kp.upd hd2
    with_reducible exact kp.ite (fun _ => (Dev.send_keeps kp (Dev.setFlight_keeps kp hd3))) fun _ => hd

theorem Dev.noticeLost_keeps (kp : Keeps P) {d : Dev} (hd : P d) {x : InFlight} : P (Dev.noticeLost d x) := by
  unfold Dev.noticeLost
  lift_lets
  intro n all q mark
  with_reducible exact Dev.count_keeps kp (Dev.setQueue_keeps kp hd)

theorem Dev.noticeAgain_keeps (kp : Keeps P) {d : Dev} (hd : P d) {x : InFlight × Nat} : P (Dev.noticeAgain d x) := by
  unfold Dev.noticeAgain
  lift_lets
  intro src y
  with_reducible exact kp.ite (fun _ => (Dev.noticeLost_keeps kp (Dev.setFlight_keeps kp hd))) fun _ =>
                   Dev.send_keeps kp (Dev.count_keeps kp (Dev.setFlight_keeps kp hd))

theorem Dev.noticeResend_keeps (kp : Keeps P) {d : Dev} (hd : P d) {seq : Nat} : P (Dev.noticeResend d seq) := by
  unfold Dev.noticeResend
  split
  · with_reducible exact kp.ite (fun _ => (Dev.noticeAgain_keeps kp (Dev.pass_keeps kp hd))) fun _ => hd
  · with_reducible exact hd

theorem Dev.brzAck_keeps (kp : Keeps P) {d : Dev} (hd : P d) {seq : Nat} : P (Dev.brzAck d seq) := by
  unfold Dev.brzAck
  with_reducible exact kp.ite (fun _ => (Dev.setFlight_keeps kp (Dev.brzGood_keeps kp hd))) fun _ => hd

theorem Dev.brzNakRx_keeps (kp : Keeps P) {d : Dev} (hd : P d) {seq : Nat} : P (Dev.brzNakRx d seq) := by
  unfold Dev.brzNakRx
  lift_lets
  intro d1
  with_reducible have hd1 : P d1 := Dev.count_keeps kp (Dev.brzGood_keeps kp hd)
  with_reducible exact kp.ite (fun _ => (by
      split
      · with_reducible exact Dev.noticeAgain_keeps kp hd1
      · with_reducible exact hd1)) fun _ => hd

theorem Dev.brzCredit_keeps (kp : Keeps P) {d : Dev} (hd : P d) {chan n : Nat} : P (Dev.brzCredit d chan n) := by
  unfold Dev.brzCredit
  with_reducible exact kp.ite (fun _ => (kp.ite (fun _ => (Dev.setF_keeps kp (Dev.brzGood_keeps kp hd))) fun _ =>
                   Dev.brzGood_keeps kp hd)) fun _ => hd

theorem Dev.blkReset_keeps (kp : Keeps P) {d : Dev} (hd : P d) : P (Dev.blkReset d) := by
  unfold Dev.blkReset
  lift_lets
  intro w d1
  with_reducible have hd1 : P d1 := Dev.resetPage_keeps kp hd
  with_reducible exact Dev.setF_keeps kp (Dev.setF_keeps kp hd1)

end Sys2Proof.Machine
end

