-- ==== Sys2Proof/Laws/KeepsSystem.lean ====
section
/-! SUPPORT. What every operation keeps: rotation, service, resets, the checker and milestones. -/

namespace Sys2Proof.Machine

open Sys2Proof

variable {P : Dev → Prop}

theorem Dev.rotBind_keeps (kp : Keeps P) {d : Dev} (hd : P d) {g : Nat} {job : Job} {instant : Nat} :
    ∀ e, d.rotBind g job instant = some e → P e := by
  unfold Dev.rotBind; intro e he
  dsimp only at he
  split at he
  · split at he
    · cases he; exact Dev.svcArm_keeps kp hd
    · cases he
  · cases he

theorem Dev.rotArm_keeps (kp : Keeps P) {d : Dev} (hd : P d) {g : Nat} {r : Rot} {n t : Nat} : P (Dev.rotArm d g r n
    t) := by
  unfold Dev.rotArm
  lift_lets
  intro p e src
  with_reducible have he : P e := Dev.setF_keeps kp hd
  split
  · rename_i w0 w1 w2
    have hw1 := Dev.rotBind_keeps kp hd _ w2
    lift_lets
    intro e1 src_1
    with_reducible have he1 : P e1 := Dev.setF_keeps kp (Dev.setF_keeps kp hw1)
    with_reducible exact Dev.setGroup_keeps kp he1
  · with_reducible exact Dev.setGroup_keeps kp he

theorem Dev.rotStart_keeps (kp : Keeps P) {d : Dev} (hd : P d) {g k old new kind : Nat} : P (Dev.rotStart d g k old
    new kind) := by
  unfold Dev.rotStart
  lift_lets
  intro p i q stopped d1 d2 d3 start result r src d4 d5 rate
  with_reducible have hd1 : P d1 := Dev.setF_keeps kp (Dev.connect_keeps kp hd)
  with_reducible have hd2 : P d2 := kp.ite (fun _ => hd1) fun _ => Dev.setF_keeps kp hd1
  with_reducible have hd3 : P d3 := Dev.setF_keeps kp (Dev.setF_keeps kp (Dev.setF_keeps kp (Dev.setF_keeps kp
                   (Dev.setF_keeps kp hd2))))
  with_reducible have hd4 : P d4 := Dev.setGroup_keeps kp hd3
  with_reducible have hd5 : P d5 := Dev.refreshGroup_keeps kp hd4
  with_reducible exact kp.ite (fun _ => (Dev.rotArm_keeps kp hd5)) fun _ => hd5

theorem Dev.rotTry_keeps (kp : Keeps P) {d : Dev} (hd : P d) {g : Nat} : P (Dev.rotTry d g) := by
  unfold Dev.rotTry
  lift_lets
  intro due
  exact kp.ite (fun _ => hd) fun _ => by
      split
      · with_reducible exact Dev.rotStart_keeps kp hd
      · with_reducible exact hd

theorem Dev.rotationDue_keeps (kp : Keeps P) {d : Dev} (hd : P d) {g : Nat} : P (Dev.rotationDue d g) := by
  unfold Dev.rotationDue
  lift_lets
  intro d1 gs
  with_reducible have hd1 : P d1 := Dev.pass_keeps kp hd
  exact kp.ite (fun _ => hd) fun _ => by
      split
      · with_reducible exact Dev.rotTry_keeps kp (Dev.setGroup_keeps kp hd1)
      · with_reducible exact Dev.setGroup_keeps kp hd1

theorem Dev.hoReqStart_keeps (kp : Keeps P) {d : Dev} (hd : P d) {g : Nat} : P (Dev.hoReqStart d g) := by
  unfold Dev.hoReqStart
  exact kp.ite (fun _ => hd) fun _ => by
      split
      · with_reducible exact Dev.rotStart_keeps kp hd
      · with_reducible exact hd

theorem Dev.repWords_keeps (kp : Keeps P) {d : Dev} (hd : P d) {i start : Nat} {instant : Option Nat} : P
    (Dev.repWords d i start instant) := by
  unfold Dev.repWords
  lift_lets
  intro s src
  split
  · with_reducible exact Dev.setPort_keeps kp hd
  · with_reducible exact Dev.setPort_keeps kp hd

theorem Dev.repArm_keeps (kp : Keeps P) {d : Dev} (hd : P d) {g : Nat} {r : Rep} {t : Nat} : P (Dev.repArm d g r t)
    := by
  unfold Dev.repArm
  lift_lets
  intro i e
  with_reducible have he : P e := Dev.setRep_keeps kp (Dev.svcWait_keeps kp hd)
  split
  · rename_i w0 w1 w2
    have hw1 := Dev.rotBind_keeps kp hd _ w2
    lift_lets
    intro e1
    with_reducible have he1 : P e1 := Dev.setRep_keeps kp (Dev.unwait_keeps kp hw1)
    with_reducible exact kp.ite (fun _ => (Dev.repWords_keeps kp he1)) fun _ => he1
  · with_reducible exact kp.ite (fun _ => (Dev.repWords_keeps kp he)) fun _ => he

theorem Dev.repConnect_keeps (kp : Keeps P) {d : Dev} (hd : P d) {g : Nat} {r : Rep} {new : Nat} : P (Dev.repConnect
    d g r new) := by
  unfold Dev.repConnect
  lift_lets
  intro i q d1 d2 rate start
  with_reducible have hd1 : P d1 := Dev.connect_keeps kp hd
  with_reducible have hd2 : P d2 := kp.ite (fun _ => hd1) fun _ => Dev.setF_keeps kp hd1
  with_reducible exact Dev.refreshGroup_keeps kp (Dev.repArm_keeps kp hd2)

theorem Dev.repNone_keeps (kp : Keeps P) {d : Dev} (hd : P d) {g : Nat} {r : Rep} : P (Dev.repNone d g r) := by
  unfold Dev.repNone
  lift_lets
  intro i d1
  with_reducible have hd1 : P d1 := Dev.cellSlice_keeps kp (Dev.hoNotice_keeps kp (Dev.dropRep_keeps kp hd))
  with_reducible exact kp.ite (fun _ => (Dev.refreshGroup_keeps kp (Dev.setF_keeps kp (Dev.releaseSlices_keeps kp
                   hd1)))) fun _ => Dev.refreshGroup_keeps kp (Dev.portFault_keeps kp hd1)

theorem Dev.repTake_keeps (kp : Keeps P) {d : Dev} (hd : P d) {g : Nat} {r : Rep} : P (Dev.repTake d g r) := by
  unfold Dev.repTake
  lift_lets
  intro e
  with_reducible have he : P e := Dev.endRot_keeps kp hd
  split
  · with_reducible exact Dev.repConnect_keeps kp hd
  · split
    · with_reducible exact kp.ite (fun _ => (by
          split
          · with_reducible exact Dev.repConnect_keeps kp he
          · with_reducible exact Dev.repNone_keeps kp he)) fun _ => Dev.setRep_keeps kp hd
    · with_reducible exact Dev.repNone_keeps kp hd

theorem Dev.repHolds_keeps (kp : Keeps P) {d : Dev} (hd : P d) {i kind : Nat} : P (Dev.repHolds d i kind) := by
  unfold Dev.repHolds
  lift_lets
  intro q st e src
  with_reducible have he : P e := Dev.count_keeps kp (Dev.suspend_keeps kp hd)
  with_reducible exact kp.ite (fun _ => (kp.ite (fun _ => (Dev.repWords_keeps kp hd)) fun _ => hd)) fun _ => kp.ite
                   (fun _ => (Dev.showSeq_keeps kp (Dev.setPort_keeps kp he))) fun _ => hd

theorem Dev.repStart_keeps (kp : Keeps P) {d : Dev} (hd : P d) {g s kind code : Nat} : P (Dev.repStart d g s kind
    code) := by
  unfold Dev.repStart
  lift_lets
  intro k i
  with_reducible exact Dev.repTake_keeps kp (Dev.repHolds_keeps kp (Dev.cellSlice_keeps kp (Dev.suspect_keeps kp hd)))

theorem Dev.repApply_keeps (kp : Keeps P) {d : Dev} (hd : P d) {i kind : Nat} : P (Dev.repApply d i kind) := by
  unfold Dev.repApply
  lift_lets
  intro g
  split
  · split
    · lift_lets
      intro d1 src d2
      with_reducible have hd1 : P d1 := Dev.cellSlice_keeps kp (Dev.setSl_keeps kp (Dev.dropRep_keeps kp hd))
      with_reducible have hd2 : P d2 := kp.ite (fun _ => (Dev.suspendEnd_keeps kp (Dev.unhide_keeps kp
                       (Dev.setPort_keeps kp hd1)))) fun _ => hd1
      with_reducible exact Dev.rotTry_keeps kp (Dev.refreshGroup_keeps kp (Dev.hoNotice_keeps kp hd2))
    · with_reducible exact hd
  · with_reducible exact hd

theorem Dev.repRebind_keeps (kp : Keeps P) {d : Dev} (hd : P d) {i kind : Nat} : P (Dev.repRebind d i kind) := by
  unfold Dev.repRebind
  lift_lets
  intro g rate
  split
  · with_reducible exact kp.ite (fun _ => (Dev.unwait_keeps kp hd)) fun _ => Dev.repArm_keeps kp hd
  · with_reducible exact Dev.unwait_keeps kp hd

theorem Dev.repairResume_keeps (kp : Keeps P) {d : Dev} (hd : P d) {g : Nat} : P (Dev.repairResume d g) := by
  unfold Dev.repairResume
  split
  · with_reducible exact Dev.repTake_keeps kp hd
  · with_reducible exact hd

theorem Dev.repsAgain_keeps (kp : Keeps P) {d : Dev} (hd : P d) {g : Nat} : P (Dev.repsAgain d g) := by
  unfold Dev.repsAgain
  with_reducible exact kp.foldl hd (fun _ _ k2 => Dev.repTake_keeps kp (Dev.repHolds_keeps kp k2))

theorem Dev.sliceFreed_keeps (kp : Keeps P) {d : Dev} (hd : P d) {g : Nat} : P (Dev.sliceFreed d g) := by
  unfold Dev.sliceFreed
  with_reducible exact Dev.rotTry_keeps kp (Dev.groupSettle_keeps kp hd)

theorem Dev.setTrims_keeps (kp : Keeps P) {d : Dev} (hd : P d) {g s : Nat} {adc dac : Word} : P (Dev.setTrims d g s
    adc dac) := by
  unfold Dev.setTrims
  lift_lets
  intro p v d1
  with_reducible have hd1 : P d1 := Dev.setReg_keeps kp (Dev.setReg_keeps kp hd)
  with_reducible exact kp.ite (fun _ => (Dev.setSlice_keeps kp hd1)) fun _ => Dev.setSlice_keeps kp hd1

theorem Dev.calDone_keeps (kp : Keeps P) {d : Dev} (hd : P d) {g s : Nat} : P (Dev.calDone d g s) := by
  unfold Dev.calDone
  lift_lets
  intro p d0 v v1 d1 d2
  with_reducible have hd0 : P d0 := Dev.setTrims_keeps kp hd
  with_reducible have hd1 : P d1 := Dev.setF_keeps kp (Dev.setSl_keeps kp (Dev.setF_keeps kp (Dev.setSlice_keeps kp
                   hd0)))
  with_reducible have hd2 : P d2 := Dev.raise_keeps kp (Dev.count_keeps kp hd1)
  with_reducible exact Dev.sliceFreed_keeps kp (Dev.refreshGroup_keeps kp hd2)

theorem Dev.calStepDone_keeps (kp : Keeps P) {d : Dev} (hd : P d) {g s : Nat} {pass : Bool} {adc dac : Word} : P
    (Dev.calStepDone d g s pass adc dac) := by
  unfold Dev.calStepDone
  lift_lets
  intro p step quick dq src d0 v was d1 code
  with_reducible have hdq : P dq := Dev.pass_keeps kp hd
  with_reducible have hd0 : P d0 := kp.ite (fun _ => (Dev.setSlice_keeps kp hdq)) fun _ => hdq
  with_reducible have hd1 : P d1 := Dev.setSlice_keeps kp hd0
  with_reducible exact kp.ite (fun _ => hd) fun _ => kp.ite (fun _ => (Dev.calsDone_keeps kp (Dev.sliceFreed_keeps kp
                   (Dev.refreshGroup_keeps kp (Dev.calStep_keeps kp (Dev.setSl_keeps kp hd0)))))) fun _ => kp.ite
                   (fun _ => (by
      split
      · with_reducible exact Dev.calStep_keeps kp hd1
      · with_reducible exact Dev.calDone_keeps kp hd1)) fun _ => Dev.calsDone_keeps kp (Dev.refreshGroup_keeps kp
                         (kp.ite (fun _ => (Dev.retire_keeps kp hd0)) fun _ => Dev.suspect_keeps kp hd0))

theorem Dev.refCheck_keeps (kp : Keeps P) {d : Dev} (hd : P d) {k : Nat} {ppm : Int} : P (Dev.refCheck d k ppm) := by
  unfold Dev.refCheck
  lift_lets
  intro p good hold d1 src d2 d3
  with_reducible have hd1 : P d1 := Dev.setF_keeps kp hd
  with_reducible have hd2 : P d2 := Dev.setDie_keeps kp (Dev.setF_keeps kp hd1)
  with_reducible have hd3 : P d3 := Dev.raise_keeps kp hd2
  with_reducible exact kp.ite (fun _ => (kp.ite (fun _ => (Dev.setDie_keeps kp hd1)) fun _ => Dev.audioReady_keeps kp
                   (Dev.setDie_keeps kp (Dev.setF_keeps kp hd1)))) fun _ => kp.ite (fun _ => hd2) fun _ => kp.foldl
                   hd3 (fun _ _ k4 => Dev.calRestart_keeps kp (Dev.setF_keeps kp k4))

theorem Dev.laybyRestart_keeps (kp : Keeps P) {d : Dev} (hd : P d) {g : Nat} : P (Dev.laybyRestart d g) := by
  unfold Dev.laybyRestart
  with_reducible exact kp.foldl hd (fun _ _ k2 => kp.ite (fun _ => (Dev.calStart_keeps kp (Dev.setSl_keeps kp k2)))
                   fun _ => Dev.calStart_keeps kp k2)

theorem Dev.refOk_keeps (kp : Keeps P) {d : Dev} (hd : P d) {k : Nat} : P (Dev.refOk d k) := by
  unfold Dev.refOk
  lift_lets
  intro p
  split
  · lift_lets
    intro d0 src d1
    with_reducible have hd0 : P d0 := Dev.pass_keeps kp hd
    with_reducible have hd1 : P d1 := Dev.raise_keeps kp (Dev.setF_keeps kp (Dev.setDie_keeps kp hd0))
    with_reducible exact kp.ite (fun _ => (Dev.audioReady_keeps kp (kp.foldl hd1 (fun _ _ k4 =>
                     Dev.laybyRestart_keeps kp (Dev.setF_keeps kp k4))))) fun _ => hd
  · with_reducible exact hd

theorem Dev.toneCheck_keeps (kp : Keeps P) {d : Dev} (hd : P d) {k thd : Nat} : P (Dev.toneCheck d k thd) := by
  unfold Dev.toneCheck
  lift_lets
  intro p d1 src d2 src_1
  with_reducible have hd1 : P d1 := Dev.setF_keeps kp hd
  with_reducible have hd2 : P d2 := Dev.setF_keeps kp hd1
  with_reducible exact kp.ite (fun _ => (Dev.audioReady_keeps kp (Dev.setDie_keeps kp (Dev.setF_keeps kp hd1)))) fun
                   _ => kp.ite (fun _ => hd2) fun _ => Dev.raise_keeps kp (Dev.setDie_keeps kp hd2)

theorem Dev.reinstate_keeps (kp : Keeps P) {d : Dev} (hd : P d) {g s : Nat} : P (Dev.reinstate d g s) := by
  unfold Dev.reinstate
  lift_lets
  intro p src
  with_reducible exact kp.ite (fun _ => (Dev.sliceFreed_keeps kp (Dev.refreshGroup_keeps kp (Dev.calStart_keeps kp
                   (Dev.setSlice_keeps kp (Dev.setSl_keeps kp (Dev.setF_keeps kp hd))))))) fun _ => Dev.setF_keeps kp
                   hd

theorem Dev.cmpResult_keeps (kp : Keeps P) {d : Dev} (hd : P d) {g : Nat} {r : Rot} {c : Cmp} : P (Dev.cmpResult d g
    r c) := by
  unfold Dev.cmpResult
  lift_lets
  intro p i rate ok m d1 r1 src d2
  with_reducible have hd1 : P d1 := Dev.setReg_keeps kp hd
  with_reducible have hd2 : P d2 := Dev.setGroup_keeps kp hd1
  with_reducible exact kp.ite (fun _ => (Dev.rotArm_keeps kp hd)) fun _ => kp.ite (fun _ => (Dev.rotArm_keeps kp
                   hd2)) fun _ => Dev.endRot_keeps kp hd2

theorem Dev.hoCompare_keeps (kp : Keeps P) {d : Dev} (hd : P d) {g : Nat} {ws : List (Int × Int)} : P (Dev.hoCompare
    d g ws) := by
  unfold Dev.hoCompare
  split
  · with_reducible exact kp.ite (fun _ => (Dev.cmpResult_keeps kp (Dev.reach_keeps kp hd))) fun _ => hd
  · with_reducible exact hd

theorem Dev.hoDeferBlock_keeps (kp : Keeps P) {d : Dev} (hd : P d) {g : Nat} {ws : List (Int × Int)} : P
    (Dev.hoDeferBlock d g ws) := by
  unfold Dev.hoDeferBlock
  split
  · lift_lets
    intro d1
    with_reducible have hd1 : P d1 := kp.ite (fun _ => hd) fun _ => Dev.reach_keeps kp hd
    with_reducible exact kp.ite (fun _ => (Dev.cmpResult_keeps kp hd1)) fun _ => hd
  · with_reducible exact hd

theorem Dev.hoDeferTimeout_keeps (kp : Keeps P) {d : Dev} (hd : P d) {g : Nat} : P (Dev.hoDeferTimeout d g) := by
  unfold Dev.hoDeferTimeout
  split
  · split
    · with_reducible exact kp.ite (fun _ => (Dev.sliceFreed_keeps kp (Dev.endRot_keeps kp (Dev.pass_keeps kp hd))))
                       fun _ => hd
    · with_reducible exact hd
  · with_reducible exact hd

theorem Dev.rotSwitched_keeps (kp : Keeps P) {d : Dev} (hd : P d) {i : Nat} : P (Dev.rotSwitched d i) := by
  unfold Dev.rotSwitched
  lift_lets
  intro g fine src
  split
  · with_reducible exact kp.ite (fun _ => (Dev.setGroup_keeps kp hd)) fun _ => hd
  · with_reducible exact hd

theorem Dev.rotApply_keeps (kp : Keeps P) {d : Dev} (hd : P d) {i : Nat} : P (Dev.rotApply d i) := by
  unfold Dev.rotApply
  lift_lets
  intro g p src
  split
  · lift_lets
    intro d1 d2 src_1
    with_reducible have hd1 : P d1 := Dev.setGroup_keeps kp (Dev.setSl_keeps kp hd)
    with_reducible have hd2 : P d2 := Dev.cellSlice_keeps kp (Dev.setF_keeps kp hd1)
    with_reducible exact kp.ite (fun _ => (kp.ite (fun _ => (Dev.sliceFreed_keeps kp (Dev.endRot_keeps kp hd2))) fun
                     _ => kp.ite (fun _ => (Dev.setPort_keeps kp (Dev.setF_keeps kp hd2))) fun _ => hd2)) fun _ => hd
  · with_reducible exact hd

theorem Dev.rotMiss_keeps (kp : Keeps P) {d : Dev} (hd : P d) {i : Nat} : P (Dev.rotMiss d i) := by
  unfold Dev.rotMiss
  split
  · with_reducible exact kp.ite (fun _ => (Dev.sliceFreed_keeps kp (Dev.endRot_keeps kp hd))) fun _ => hd
  · with_reducible exact hd

theorem Dev.xfadeEnd_keeps (kp : Keeps P) {d : Dev} (hd : P d) {g : Nat} : P (Dev.xfadeEnd d g) := by
  unfold Dev.xfadeEnd
  split
  · with_reducible exact kp.ite (fun _ => (Dev.sliceFreed_keeps kp (Dev.endRot_keeps kp hd))) fun _ => hd
  · with_reducible exact hd

theorem Dev.repNewFails_keeps (kp : Keeps P) {d : Dev} (hd : P d) {g s code : Nat} : P (Dev.repNewFails d g s code)
    := by
  unfold Dev.repNewFails
  split
  · lift_lets
    intro d1 d2 d3
    with_reducible have hd1 : P d1 := Dev.hoNotice_keeps kp (Dev.suspect_keeps kp (Dev.unwait_keeps kp
                     (Dev.jobCancel_keeps kp hd)))
    with_reducible have hd2 : P d2 := Dev.cellSlice_keeps kp hd1
    with_reducible have hd3 : P d3 := kp.ite (fun _ => (Dev.repWords_keeps kp hd2)) fun _ => hd2
    with_reducible exact Dev.repTake_keeps kp hd3
  · with_reducible exact Dev.suspect_keeps kp hd

theorem Dev.incomingFails_keeps (kp : Keeps P) {d : Dev} (hd : P d) {g s code : Nat} : P (Dev.incomingFails d g s
    code) := by
  unfold Dev.incomingFails
  split
  · with_reducible exact kp.ite (fun _ => (Dev.endRot_keeps kp hd)) fun _ => Dev.repNewFails_keeps kp hd
  · with_reducible exact Dev.repNewFails_keeps kp hd

theorem Dev.outgoingFails_keeps (kp : Keeps P) {d : Dev} (hd : P d) {g s code : Nat} : P (Dev.outgoingFails d g s
    code) := by
  unfold Dev.outgoingFails
  split
  · with_reducible exact kp.ite (fun _ => (Dev.repStart_keeps kp (Dev.endRot_keeps kp hd))) fun _ =>
                     Dev.suspect_keeps kp (Dev.endRot_keeps kp hd)
  · with_reducible exact Dev.suspect_keeps kp hd

theorem Dev.sliceFail_keeps (kp : Keeps P) {d : Dev} (hd : P d) {g s : Nat} {det : SliceDetector} : P (Dev.sliceFail
    d g s det) := by
  unfold Dev.sliceFail
  lift_lets
  intro p st k code port d1 d2
  with_reducible have hd1 : P d1 := Dev.raiseH_keeps kp hd
  with_reducible have hd2 : P d2 := kp.ite (fun _ => (Dev.incomingFails_keeps kp hd1)) fun _ => kp.ite (fun _ =>
                   (Dev.outgoingFails_keeps kp hd1)) fun _ => kp.ite (fun _ => (kp.ite (fun _ => (Dev.endRot_keeps kp
                   hd1)) fun _ => Dev.repStart_keeps kp hd1)) fun _ => Dev.suspect_keeps kp hd1
  with_reducible exact kp.ite (fun _ => hd) fun _ => Dev.refreshGroup_keeps kp hd2

theorem Dev.calStale_keeps (kp : Keeps P) {d : Dev} (hd : P d) {g s : Nat} : P (Dev.calStale d g s) := by
  unfold Dev.calStale
  lift_lets
  intro st v
  with_reducible exact kp.ite (fun _ => (Dev.raise_keeps kp (Dev.setSlice_keeps kp hd))) fun _ => hd

theorem Dev.dirChanged_keeps (kp : Keeps P) {d : Dev} (hd : P d) {i : Nat} : P (Dev.dirChanged d i) := by
  unfold Dev.dirChanged
  lift_lets
  intro q s d0 d1 src d2
  with_reducible have hd0 : P d0 := Dev.lsvAbort_keeps kp (Dev.hoPortLeaves_keeps kp hd)
  with_reducible have hd1 : P d1 := kp.ite (fun _ => (Dev.setF_keeps kp hd0)) fun _ => hd0
  with_reducible have hd2 : P d2 := Dev.setPort_keeps kp hd1
  with_reducible exact Dev.pfCheck_keeps kp (kp.ite (fun _ => (Dev.enterStopped_keeps kp hd2)) fun _ => hd2)

theorem Dev.loopSlices_keeps (kp : Keeps P) {d : Dev} (hd : P d) {i : Nat} {wasLoop : Bool} : P (Dev.loopSlices d i
    wasLoop) := by
  unfold Dev.loopSlices
  lift_lets
  intro q g e e1 e2 starts
  have he : P e := Dev.hoPortLeaves_keeps kp hd
  have he2 : P e2 := Dev.clamp_keeps kp he
  have hs : ∀ {x : Dev}, P x → P (starts x) := fun hx => kp.ite
    (fun _ => Dev.setPort_keeps kp (Dev.setPort_keeps kp (Dev.setSeq_keeps kp (Dev.stageTakes_keeps kp hx))))
    fun _ => Dev.suspend_keeps kp (Dev.stageTakes_keeps kp hx)
  refine kp.ite (fun _ => hd) fun _ => kp.ite (fun _ => Dev.refreshGroup_keeps kp (Dev.clamp_keeps kp (Dev.outQuiet_keeps kp
    (Dev.setF_keeps kp (Dev.releaseSlice_keeps kp he))))) fun _ => kp.ite (fun _ => Dev.refreshGroup_keeps kp (hs he2)) fun _ => ?_
  split
  · exact Dev.refreshGroup_keeps kp (hs (Dev.setF_keeps kp (Dev.connect_keeps kp he2)))
  · exact Dev.refreshGroup_keeps kp (Dev.portFault_keeps kp he2)

theorem Dev.modeChanged_keeps (kp : Keeps P) {d : Dev} (hd : P d) {i old : Nat} : P (Dev.modeChanged d i old) := by
  unfold Dev.modeChanged
  lift_lets
  intro q mode st d1 r d2
  have h1 : P d1 := Dev.loopSlices_keeps kp hd
  exact kp.ite (fun _ => Dev.surveyLeave_keeps kp (Dev.surveyAbort_keeps kp hd)) fun _ =>
    kp.ite (fun _ => kp.ite (fun _ => Dev.surveyStart_keeps kp h1) fun _ => hd) fun _ =>
    kp.ite (fun _ => Dev.rotSwitched_keeps kp (Dev.setCap_keeps kp (Dev.setF_keeps kp h1))) fun _ =>
    kp.ite (fun _ => Dev.runCheck_keeps kp (Dev.setF_keeps kp h1)) fun _ => h1

theorem Dev.surveyFromOff_keeps (kp : Keeps P) {d : Dev} (hd : P d) {i : Nat} : P (Dev.surveyFromOff d i) := by
  unfold Dev.surveyFromOff
  lift_lets
  intro q
  with_reducible exact kp.ite (fun _ => (Dev.surveyStart_keeps kp hd)) fun _ => hd

theorem Dev.cellCtl_keeps (kp : Keeps P) {d : Dev} (hd : P d) {i : Nat} {via : Via} {old new : Word} : P (Dev.cellCtl d i
    via old new) := by
  unfold Dev.cellCtl
  lift_lets
  intro q ramped ran runs d1 d2 d3 d4
  have h1 : P d1 := kp.ite (fun _ => Dev.portStop_keeps kp hd) fun _ => hd
  have h2 : P d2 := kp.ite (fun _ => Dev.dirChanged_keeps kp h1) fun _ => h1
  have h3 : P d3 := kp.ite (fun _ => Dev.modeChanged_keeps kp h2) fun _ => h2
  have h4 : P d4 := kp.ite (fun _ => kp.ite (fun _ => Dev.surveyStart_keeps kp h3) fun _ => Dev.setF_keeps kp h3) fun _ => h3
  exact kp.ite (fun _ => Dev.setF_keeps kp (Dev.portOff_keeps kp hd)) fun _ =>
    kp.ite (fun _ => Dev.surveyFromOff_keeps kp (Dev.setF_keeps kp (Dev.portLeaveOff_keeps kp hd))) fun _ =>
    kp.ite (fun _ => kp.ite (fun _ => Dev.regrid_keeps kp (Dev.gridGoesOn_keeps kp h4)) fun _ =>
      Dev.runCheck_keeps kp (Dev.lsvAbort_keeps kp h4)) fun _ => h4

theorem Dev.srcLive_keeps (kp : Keeps P) {d : Dev} (hd : P d) {i : Nat} {via : Via} {new : Word} : P (Dev.srcLive d i
    via new) := by
  unfold Dev.srcLive
  lift_lets
  intro f c s t x armed
  with_reducible exact kp.ite (fun _ => (Dev.setPort_keeps kp hd)) fun _ => Dev.setPort_keeps kp hd

theorem Dev.outCtl_keeps (kp : Keeps P) {d : Dev} (hd : P d) {i : Nat} {via : Via} {old new : Word} : P (Dev.outCtl d
    i via old new) := by
  unfold Dev.outCtl
  lift_lets
  intro q d1
  with_reducible have hd1 : P d1 := Dev.setF_keeps kp hd
  with_reducible exact kp.ite (fun _ => (Dev.stageTakes_keeps kp (Dev.portOff_keeps kp hd1))) fun _ => kp.ite (fun _
                   => (Dev.portLeaveOff_keeps kp (Dev.stageTakes_keeps kp hd1))) fun _ => kp.ite (fun _ =>
                   (Dev.spanChange_keeps kp hd1)) fun _ => hd1

theorem Dev.thrLive_keeps (kp : Keeps P) {d : Dev} (hd : P d) {i k off : Nat} {via : Via} {old : Word} : P
    (Dev.thrLive d i k off via old) := by
  unfold Dev.thrLive
  lift_lets
  intro d1
  with_reducible have hd1 : P d1 := Dev.capKeep_keeps kp hd
  with_reducible exact kp.ite (fun _ => hd1) fun _ => Dev.thrWrite_keeps kp hd1

theorem Dev.portLive_keeps (kp : Keeps P) {d : Dev} (hd : P d) {i off : Nat} {via : Via} {old new : Word} : P
    (Dev.portLive d i off via old new) := by
  unfold Dev.portLive
  lift_lets
  intro q src d1
  with_reducible have hd1 : P d1 := Dev.capKeep_keeps kp (Dev.setF_keeps kp hd)
  with_reducible exact kp.ite (fun _ => (kp.ite (fun _ => (Dev.portLeaveOff_keeps kp hd)) fun _ => Dev.portOff_keeps
                   kp hd)) fun _ => kp.ite (fun _ => (Dev.cellCtl_keeps kp hd)) fun _ => kp.ite (fun _ => (kp.ite
                   (fun _ => hd) fun _ => Dev.setPort_keeps kp hd)) fun _ => kp.ite (fun _ => (kp.ite (fun _ =>
                   (Dev.bankRequest_keeps kp hd1)) fun _ => hd1)) fun _ => kp.ite (fun _ => (kp.ite (fun _ =>
                   (Dev.setF_keeps kp hd)) fun _ => hd)) fun _ => kp.ite (fun _ => (Dev.thrLive_keeps kp hd)) fun _
                   => kp.ite (fun _ => (Dev.thrLive_keeps kp hd)) fun _ => kp.ite (fun _ => (Dev.put_keeps kp
                   (Dev.coefWrite_keeps kp hd))) fun _ => kp.ite (fun _ => (Dev.outCtl_keeps kp hd)) fun _ => kp.ite
                   (fun _ => (Dev.srcLive_keeps kp hd)) fun _ => kp.ite (fun _ => (kp.ite (fun _ => (Dev.lsvGo_keeps
                   kp hd)) fun _ => hd)) fun _ => hd

theorem Dev.portJobsLeave_keeps (kp : Keeps P) {d : Dev} (hd : P d) {i : Nat} : P (Dev.portJobsLeave d i) := by
  unfold Dev.portJobsLeave
  with_reducible exact kp.foldl hd (fun _ _ k2 => Dev.jobLeave_keeps kp k2)

theorem Dev.portReset_keeps (kp : Keeps P) {d : Dev} (hd : P d) {i : Nat} : P (Dev.portReset d i) := by
  unfold Dev.portReset
  lift_lets
  intro q d1 src d2
  with_reducible have hd1 : P d1 := Dev.resetPage_keeps kp (Dev.portOff_keeps kp (Dev.portJobsLeave_keeps kp hd))
  with_reducible have hd2 : P d2 := kp.upd hd1
  with_reducible exact Dev.sliceFreed_keeps kp (Dev.refreshGroup_keeps kp (Dev.clamp_keeps kp hd2))

theorem Dev.portArmed_keeps (kp : Keeps P) {d : Dev} (hd : P d) {i slot instant : Nat} {manual : Bool} : P
    (Dev.portArmed d i slot instant manual) := by
  unfold Dev.portArmed
  lift_lets
  intro q v stops d1 src src_1
  with_reducible have hd1 : P d1 := kp.ite (fun _ => (Dev.stopPlace_keeps kp hd)) fun _ => hd
  with_reducible exact kp.ite (fun _ => (Dev.setPort_keeps kp hd1)) fun _ => hd1

theorem Dev.portDisarmed_keeps (kp : Keeps P) {d : Dev} (hd : P d) {i slot : Nat} : P (Dev.portDisarmed d i slot) :=
    by
  unfold Dev.portDisarmed
  lift_lets
  intro d1 src
  with_reducible have hd1 : P d1 := Dev.stopRestore_keeps kp hd
  with_reducible exact Dev.setPort_keeps kp hd1

theorem Dev.familyChanged_keeps (kp : Keeps P) {d : Dev} (hd : P d) {g : Nat} : P (Dev.familyChanged d g) := by
  unfold Dev.familyChanged
  lift_lets
  intro p f
  with_reducible exact kp.foldl hd (fun _ _ k2 => by
      lift_lets
      intro v cal
      with_reducible exact Dev.setReg_keeps kp (Dev.setReg_keeps kp (Dev.setFlag_keeps kp k2)))

theorem Dev.freeze_keeps (kp : Keeps P) {d : Dev} (hd : P d) {g : Nat} : P (Dev.freeze d g) := by
  unfold Dev.freeze
  lift_lets
  intro p on d1
  with_reducible have hd1 : P d1 := Dev.setFlag_keeps kp hd
  with_reducible exact kp.ite (fun _ => (by
      split
      · with_reducible exact kp.ite (fun _ => (Dev.endRot_keeps kp hd1)) fun _ => hd1
      · with_reducible exact hd1)) fun _ => Dev.rotTry_keeps kp hd1

theorem Dev.grpLive_keeps (kp : Keeps P) {d : Dev} (hd : P d) {g off : Nat} {old new : Word} : P (Dev.grpLive d g off
    old new) := by
  unfold Dev.grpLive
  lift_lets
  intro d1
  with_reducible have hd1 : P d1 := Dev.regridGroup_keeps kp (Dev.grpUnlock_keeps kp hd)
  with_reducible exact kp.ite (fun _ => (kp.ite (fun _ => hd) fun _ => Dev.grpUnlock_keeps kp hd)) fun _ => kp.ite
                   (fun _ => (kp.ite (fun _ => hd) fun _ => kp.ite (fun _ => (Dev.familyChanged_keeps kp hd1)) fun _
                   => hd1)) fun _ => kp.ite (fun _ => (Dev.freeze_keeps kp hd)) fun _ => kp.ite (fun _ => (kp.ite
                   (fun _ => (Dev.hoReqStart_keeps kp hd)) fun _ => hd)) fun _ => hd

theorem Dev.grpReset_keeps (kp : Keeps P) {d : Dev} (hd : P d) {g : Nat} : P (Dev.grpReset d g) := by
  unfold Dev.grpReset
  lift_lets
  intro p d1 reps src d2 src_1 d3 keep d4
  have hd1 : P d1 := by
      unfold d1
      split
      · with_reducible exact kp.ite (fun _ => (Dev.endRot_keeps kp hd)) fun _ => Dev.jobLeave_keeps kp hd
      · with_reducible exact hd
  with_reducible have hd2 : P d2 := Dev.grpUnlock_keeps kp (Dev.setGroup_keeps kp hd1)
  with_reducible have hd3 : P d3 := Dev.setGroup_keeps kp hd2
  with_reducible have hd4 : P d4 := Dev.setF_keeps kp (Dev.resetPage_keeps kp hd3)
  with_reducible exact Dev.refreshGroup_keeps kp (Dev.familyChanged_keeps kp hd4)

theorem Dev.dieReset_keeps (kp : Keeps P) {d : Dev} (hd : P d) {k : Nat} : P (Dev.dieReset d k) := by
  unfold Dev.dieReset
  with_reducible exact Dev.resetPage_keeps kp hd

theorem Dev.setFw_keeps (kp : Keeps P) {d : Dev} (hd : P d) {phase : Nat} {x : FwSt} : P (Dev.setFw d phase x) := by
  unfold Dev.setFw
  with_reducible exact Dev.setF_keeps kp (kp.upd hd)

theorem Dev.fwResume_keeps (kp : Keeps P) {d : Dev} (hd : P d) : P (Dev.fwResume d) := by
  unfold Dev.fwResume
  lift_lets
  intro d1
  with_reducible have hd1 : P d1 := kp.foldl (Dev.moveDeferred_keeps kp hd) (fun _ _ k2 => Dev.rotTry_keeps kp k2)
  with_reducible exact kp.foldl hd1 (fun _ _ k2 => kp.ite (fun _ => (Dev.rowRepairStart_keeps kp k2)) fun _ => k2)

theorem Dev.fwEnd_keeps (kp : Keeps P) {d : Dev} (hd : P d) {outcome : Nat} : P (Dev.fwEnd d outcome) := by
  unfold Dev.fwEnd
  lift_lets
  intro d1 d2
  with_reducible have hd1 : P d1 := Dev.setF_keeps kp (Dev.unwait_keeps kp (Dev.jobCancel_keeps kp (kp.upd hd)))
  with_reducible have hd2 : P d2 := Dev.setF_keeps kp (Dev.setF_keeps kp (Dev.setF_keeps kp hd1))
  split
  · with_reducible exact hd
  · lift_lets
    intro d3
    with_reducible have hd3 : P d3 := Dev.raiseSev_keeps kp hd2
    with_reducible exact Dev.fwResume_keeps kp (Dev.refreshHealth_keeps kp hd3)

theorem Dev.fwGo_keeps (kp : Keeps P) {d : Dev} (hd : P d) : P (Dev.fwGo d) := by
  unfold Dev.fwGo
  lift_lets
  intro b d1
  with_reducible have hd1 : P d1 := Dev.setF_keeps kp (Dev.setF_keeps kp (Dev.setF_keeps kp (Dev.setF_keeps kp hd)))
  with_reducible exact Dev.setFw_keeps kp hd1

theorem Dev.fwPrepared_keeps (kp : Keeps P) {d : Dev} (hd : P d) : P (Dev.fwPrepared d) := by
  unfold Dev.fwPrepared
  split
  · with_reducible exact hd
  · lift_lets
    intro f
    with_reducible exact kp.ite (fun _ => (kp.ite (fun _ => (Dev.setFw_keeps kp hd)) fun _ => Dev.fwEnd_keeps kp
                     (Dev.setF_keeps kp hd))) fun _ => hd

theorem Dev.fwArm_keeps (kp : Keeps P) {d : Dev} (hd : P d) {x : FwSt} : P (Dev.fwArm d x) := by
  unfold Dev.fwArm
  lift_lets
  intro wait t
  with_reducible have hwait : ∀ y0, P (wait y0) := fun _ => Dev.svcWait_keeps kp (Dev.setFw_keeps kp hd)
  exact kp.ite (fun _ => (hwait _)) fun _ => by
      split
      · rename_i w0 w1 w2
        have hw1 := Dev.svcBind_keeps kp hd _ w2
        with_reducible exact Dev.setFw_keeps kp hw1
      · with_reducible exact hwait _

theorem Dev.fwRetry_keeps (kp : Keeps P) {d : Dev} (hd : P d) : P (Dev.fwRetry d) := by
  unfold Dev.fwRetry
  split
  · with_reducible exact kp.ite (fun _ => (Dev.fwArm_keeps kp hd)) fun _ => Dev.unwait_keeps kp hd
  · with_reducible exact Dev.unwait_keeps kp hd

theorem Dev.fwCompare_keeps (kp : Keeps P) {d : Dev} (hd : P d) {diff : Nat} : P (Dev.fwCompare d diff) := by
  unfold Dev.fwCompare
  lift_lets
  intro ph
  split
  · with_reducible exact hd
  · lift_lets
    intro d0 k d1
    with_reducible have hd0 : P d0 := kp.ite (fun _ => (Dev.pass_keeps kp hd)) fun _ => hd
    with_reducible have hd1 : P d1 := Dev.setF_keeps kp hd0
    with_reducible exact kp.ite (fun _ => (kp.ite (fun _ => (kp.ite (fun _ => (Dev.setFw_keeps kp hd0)) fun _ =>
                     hd0)) fun _ => kp.ite (fun _ => (Dev.fwEnd_keeps kp (Dev.setF_keeps kp hd1))) fun _ =>
                     Dev.fwArm_keeps kp (Dev.setF_keeps kp hd1))) fun _ => hd

theorem Dev.fwTimeout_keeps (kp : Keeps P) {d : Dev} (hd : P d) : P (Dev.fwTimeout d) := by
  unfold Dev.fwTimeout
  lift_lets
  intro ph
  split
  · with_reducible exact hd
  · split
    · with_reducible exact kp.ite (fun _ => (Dev.fwEnd_keeps kp (Dev.pass_keeps kp hd))) fun _ => hd
    · with_reducible exact hd

theorem Dev.fwApply_keeps (kp : Keeps P) {d : Dev} (hd : P d) : P (Dev.fwApply d) := by
  unfold Dev.fwApply
  lift_lets
  intro src
  split
  · with_reducible exact hd
  · lift_lets
    intro d1 d2 src_1
    with_reducible have hd1 : P d1 := kp.upd hd
    with_reducible have hd2 : P d2 := Dev.setFw_keeps kp (Dev.setF_keeps kp (Dev.setF_keeps kp hd1))
    with_reducible exact Dev.setF_keeps kp (Dev.setF_keeps kp (kp.upd hd2))

theorem Dev.fwMiss_keeps (kp : Keeps P) {d : Dev} (hd : P d) : P (Dev.fwMiss d) := by
  unfold Dev.fwMiss
  with_reducible exact Dev.fwEnd_keeps kp hd

theorem Dev.fwDrainEnd_keeps (kp : Keeps P) {d : Dev} (hd : P d) : P (Dev.fwDrainEnd d) := by
  unfold Dev.fwDrainEnd
  split
  · with_reducible exact kp.ite (fun _ => (Dev.fwEnd_keeps kp (Dev.setReg_keeps kp hd))) fun _ => hd
  · with_reducible exact hd

theorem Dev.fwAbort_keeps (kp : Keeps P) {d : Dev} (hd : P d) : P (Dev.fwAbort d) := by
  unfold Dev.fwAbort
  lift_lets
  intro d1
  with_reducible have hd1 : P d1 := Dev.setF_keeps kp hd
  split
  · with_reducible exact kp.ite (fun _ => hd1) fun _ => Dev.fwEnd_keeps kp hd1
  · with_reducible exact hd1

theorem Dev.srvLive_keeps (kp : Keeps P) {d : Dev} (hd : P d) {off : Nat} {new : Word} : P (Dev.srvLive d off new) :=
    by
  unfold Dev.srvLive
  lift_lets
  intro d1
  with_reducible have hd1 : P d1 := kp.ite (fun _ => (Dev.fwGo_keeps kp hd)) fun _ => hd
  with_reducible exact kp.ite (fun _ => (kp.ite (fun _ => (Dev.fwAbort_keeps kp hd1)) fun _ => hd1)) fun _ => hd

theorem Dev.srvReset_keeps (kp : Keeps P) {d : Dev} (hd : P d) : P (Dev.srvReset d) := by
  unfold Dev.srvReset
  lift_lets
  intro d1
  with_reducible have hd1 : P d1 := kp.ite (fun _ => (Dev.setF_keeps kp hd)) fun _ => Dev.fwAbort_keeps kp
                   (Dev.jobLeave_keeps kp hd)
  with_reducible exact kp.ite (fun _ => (Dev.resetPage_keeps kp hd1)) fun _ => Dev.resetPage_keeps kp hd1

theorem Dev.keepF_keeps (kp : Keeps P) {old : Dev} (_hold : P old) {e : Dev} (he : P e) {p : Nat} {f : Fld} : P
    (Dev.keepF old e p f) := by
  unfold Dev.keepF
  with_reducible exact Dev.setF_keeps kp he

theorem Dev.keepSlices_keeps (kp : Keeps P) {old : Dev} (hold : P old) {e : Dev} (he : P e) {g : Nat} : P
    (Dev.keepSlices old e g) := by
  unfold Dev.keepSlices
  lift_lets
  intro p e1 n
  with_reducible have he1 : P e1 := kp.foldl he (fun _ _ k2 => by
      lift_lets
      intro src v e2
      with_reducible have he2 : P e2 := Dev.keepF_keeps kp hold (Dev.setSlice_keeps kp k2)
      with_reducible exact kp.ite (fun _ => (Dev.setSl_keeps kp he2)) fun _ => he2)
  with_reducible exact Dev.setFlag_keeps kp (Dev.setF_keeps kp (Dev.setF_keeps kp (Dev.familyChanged_keeps kp he1)))

theorem Dev.keepCols_keeps (kp : Keeps P) {old : Dev} (hold : P old) {e : Dev} (he : P e) {r : Nat} : P (Dev.keepCols
    old e r) := by
  unfold Dev.keepCols
  lift_lets
  intro p e1
  with_reducible have he1 : P e1 := Dev.keepF_keeps kp hold (Dev.keepF_keeps kp hold (Dev.keepF_keeps kp hold he))
  with_reducible exact kp.foldl he1 (fun _ _ k2 => by
      lift_lets
      intro e2
      with_reducible have he2 : P e2 := Dev.keepF_keeps kp hold k2
      with_reducible exact kp.ite (fun _ => (Dev.setCol_keeps kp he2)) fun _ => he2)

theorem Dev.keepRows_keeps (kp : Keeps P) {old : Dev} (hold : P old) {e : Dev} (he : P e) {b : Nat} : P (Dev.keepRows
    old e b) := by
  unfold Dev.keepRows
  with_reducible exact Dev.keepF_keeps kp hold (Dev.keepF_keeps kp hold he)

theorem Dev.keepPair_keeps (kp : Keeps P) {old : Dev} (hold : P old) {e : Dev} (he : P e) {k : Nat} : P (Dev.keepPair
    old e k) := by
  unfold Dev.keepPair
  with_reducible exact Dev.keepF_keeps kp hold (Dev.keepF_keeps kp hold (Dev.keepF_keeps kp hold he))

theorem Dev.colReturn_keeps (kp : Keeps P) {d : Dev} (hd : P d) {x : Nat} : P (Dev.colReturn d x) := by
  unfold Dev.colReturn
  lift_lets
  intro r c p left d1 d2
  with_reducible have hd1 : P d1 := Dev.setF_keeps kp hd
  with_reducible have hd2 : P d2 := Dev.setF_keeps kp (Dev.setF_keeps kp hd1)
  with_reducible exact kp.ite (fun _ => (by
      split
      · with_reducible exact Dev.setF_keeps kp (Dev.setF_keeps kp hd1)
      · with_reducible exact Dev.setF_keeps kp hd1)) fun _ => kp.ite (fun _ => (kp.ite (fun _ => (Dev.setF_keeps kp
                         hd2)) fun _ => hd2)) fun _ => hd1

theorem Dev.cleared_keeps (kp : Keeps P) {d : Dev} (hd : P d) {porst : Bool} : P (d.cleared porst) := by
  unfold Dev.cleared
  lift_lets
  intro s0 s1 e e1 e2 e3 e4
  have he : P e := 
    kp.rest (kp.keep (keptReg porst) (fun _ => false) hd) rfl (by simp [Tab.keep, e, s0, Dev.reset]) rfl rfl (Nat.le_refl
        _)
  clear_value e
  have h1 : P e1 := Dev.keepF_keeps kp hd (Dev.keepF_keeps kp hd he)
  have h2 : P e2 := kp.foldl h1 fun _ _ h => Dev.keepSlices_keeps kp hd h
  have h3 : P e3 := kp.foldl h2 fun _ _ h => Dev.keepCols_keeps kp hd h
  have h4 : P e4 := kp.foldl h3 fun _ _ h => Dev.keepRows_keeps kp hd h
  exact kp.ite (fun _ => Dev.setF_keeps kp h4) fun _ => h4

theorem Dev.sysReset_keeps (kp : Keeps P) {d : Dev} (hd : P d) {cause : Nat} : P (Dev.sysReset d cause) := by
  unfold Dev.sysReset
  lift_lets
  intro e
  with_reducible have he : P e := kp.foldl (Dev.cleared_keeps kp hd) (fun _ _ k1 => (Dev.keepPair_keeps kp hd k1))
  with_reducible exact Dev.count_keeps kp (Dev.setF_keeps kp he)

theorem Dev.porst_keeps (kp : Keeps P) {d : Dev} (hd : P d) {cause : Nat} : P (Dev.porst d cause) := by
  unfold Dev.porst
  lift_lets
  intro d1 src e src_1
  with_reducible have hd1 : P d1 := kp.foldl hd (fun _ _ k1 => (Dev.colReturn_keeps kp k1))
  with_reducible have he : P e := Dev.setF_keeps kp (Dev.cleared_keeps kp (kp.upd hd1))
  with_reducible exact kp.upd he

theorem Dev.hostScope_keeps (kp : Keeps P) {d : Dev} (hd : P d) : P (Dev.hostScope d) := by
  unfold Dev.hostScope
  with_reducible exact kp.ite (fun _ => (Dev.sysReset_keeps kp hd)) fun _ => hd

theorem Dev.deadlineRuns_keeps (kp : Keeps P) {d : Dev} (hd : P d) : P (Dev.deadlineRuns d) := by
  unfold Dev.deadlineRuns
  lift_lets
  intro src
  with_reducible exact kp.ite (fun _ => (kp.upd hd)) fun _ => hd

theorem Dev.perst_keeps (kp : Keeps P) {d : Dev} (hd : P d) : P (Dev.perst d) := by
  unfold Dev.perst
  lift_lets
  intro d1
  with_reducible have hd1 : P d1 := Dev.hostReset_keeps kp (Dev.count_keeps kp hd)
  with_reducible exact Dev.deadlineRuns_keeps kp (Dev.hostResetDone_keeps kp (Dev.hostScope_keeps kp hd1))

theorem Dev.flr_keeps (kp : Keeps P) {d : Dev} (hd : P d) : P (Dev.flr d) := by
  unfold Dev.flr
  with_reducible exact Dev.hostResetDone_keeps kp (Dev.hostScope_keeps kp (Dev.hostReset_keeps kp (Dev.count_keeps kp
                   hd)))

theorem Dev.darkEnter_keeps (kp : Keeps P) {d : Dev} (hd : P d) : P (Dev.darkEnter d) := by
  unfold Dev.darkEnter
  lift_lets
  intro d1 d2 d3 d4 src
  with_reducible have hd1 : P d1 := kp.foldl (Dev.setF_keeps kp hd) (fun _ _ k2 => kp.ite (fun _ => k2) fun _ =>
                   Dev.portOff_keeps kp k2)
  with_reducible have hd2 : P d2 := kp.foldl hd1 (fun _ _ k2 => Dev.regionDark_keeps kp k2)
  with_reducible have hd3 : P d3 := kp.foldl hd2 (fun _ _ k2 => Dev.setF_keeps kp (Dev.tregPower_keeps kp k2))
  with_reducible have hd4 : P d4 := Dev.pcieDown_keeps kp hd3
  with_reducible exact kp.upd hd4

theorem Dev.darkWake_keeps (kp : Keeps P) {d : Dev} (hd : P d) {k : WakeKind} : P (Dev.darkWake d k) := by
  unfold Dev.darkWake
  with_reducible exact (kp.ite (fun _ => (by
          split
          · with_reducible exact Dev.porst_keeps kp hd
          · with_reducible exact Dev.deadlineRuns_keeps kp (Dev.sysReset_keeps kp hd)
          · with_reducible exact (Dev.send_keeps kp (Dev.sysReset_keeps kp hd)))) fun _ => hd)

theorem Dev.railEvent_keeps (kp : Keeps P) {d : Dev} (hd : P d) {i : Nat} {e : Evt} : P (Dev.railEvent d i e) := by
  unfold Dev.railEvent
  with_reducible exact kp.ite (fun _ => (Dev.raise_keeps kp hd)) fun _ => hd

theorem Dev.setRail_keeps (kp : Keeps P) {d : Dev} (hd : P d) {i : Nat} {b : Bool} : P (Dev.setRail d i b) := by
  unfold Dev.setRail
  lift_lets
  intro w
  with_reducible exact Dev.setF_keeps kp hd

theorem Dev.keysLost_keeps (kp : Keeps P) {d : Dev} (hd : P d) : P (Dev.keysLost d) := by
  unfold Dev.keysLost
  lift_lets
  intro src
  with_reducible exact kp.upd hd

theorem Dev.railLost_keeps (kp : KeepsMem P) {d : Dev} (hd : P d) {i : Nat} : P (Dev.railLost d i) := by
  unfold Dev.railLost
  lift_lets
  intro d1 d2 src d3 d2_1 d3_1 src_1
  with_reducible have hd1 : P d1 := Dev.railEvent_keeps kp.toKeeps (Dev.count_keeps kp.toKeeps (Dev.setRail_keeps
                   kp.toKeeps hd))
  with_reducible have hd2 : P d2 := Dev.fmLost_keeps kp (Dev.porst_keeps kp.toKeeps hd1)
  with_reducible have hd3 : P d3 := kp.upd hd2
  with_reducible have hd2_1 : P d2_1 := Dev.sysReset_keeps kp.toKeeps hd1
  with_reducible have hd3_1 : P d3_1 := kp.ite (fun _ => (Dev.fmLost_keeps kp hd2_1)) fun _ => hd2_1
  with_reducible exact kp.ite (fun _ => hd) fun _ => (kp.ite (fun _ => (kp.ite (fun _ => hd3) fun _ =>
                   (Dev.keysLost_keeps kp.toKeeps hd3))) fun _ => (kp.ite (fun _ => (kp.upd hd3_1)) fun _ => (kp.ite (fun
                   _ => (kp.ite (fun _ => hd1) fun _ => (Dev.keysLost_keeps kp.toKeeps hd1))) fun _ =>
                   (Dev.pcieDown_keeps kp.toKeeps (kp.foldl hd1 (fun _ _ k6 => (Dev.pllUnlock_keeps kp.toKeeps k6)))))))

theorem Dev.railBack_keeps (kp : Keeps P) {d : Dev} (hd : P d) {i : Nat} : P (Dev.railBack d i) := by
  unfold Dev.railBack
  lift_lets
  intro d1 src
  with_reducible have hd1 : P d1 := Dev.railEvent_keeps kp (Dev.setRail_keeps kp hd)
  with_reducible exact kp.ite (fun _ => hd) fun _ => kp.ite (fun _ => (kp.upd hd1)) fun _ => hd1

theorem Dev.thermalTrip_keeps (kp : Keeps P) {d : Dev} (hd : P d) : P (Dev.thermalTrip d) := by
  unfold Dev.thermalTrip
  lift_lets
  intro d1 src
  with_reducible have hd1 : P d1 := Dev.sysReset_keeps kp hd
  with_reducible exact kp.upd hd1

theorem Dev.tripRelease_keeps (kp : Keeps P) {d : Dev} (hd : P d) {ts : List Nat} : P (Dev.tripRelease d ts) := by
  unfold Dev.tripRelease
  lift_lets
  intro src
  with_reducible exact kp.ite (fun _ => (kp.upd hd)) fun _ => hd

theorem Dev.tamperTrip_keeps (kp : KeepsMem P) {d : Dev} (hd : P d) {i : Nat} {level : Bool} : P (Dev.tamperTrip d i
    level) := by
  unfold Dev.tamperTrip
  lift_lets
  intro en pol n w d1 d2 src
  with_reducible have hd1 : P d1 := Dev.setF_keeps kp.toKeeps (Dev.setF_keeps kp.toKeeps (Dev.setF_keeps kp.toKeeps
                   (Dev.keysLost_keeps kp.toKeeps hd)))
  with_reducible have hd2 : P d2 := Dev.raise_keeps kp.toKeeps hd1
  with_reducible exact kp.ite (fun _ => (kp.ite (fun _ => (kp.ite (fun _ => (Dev.sysReset_keeps kp.toKeeps
                   (Dev.fmLost_keeps kp hd2))) fun _ => hd2)) fun _ => (kp.upd hd1))) fun _ => hd

theorem Dev.blockNote_keeps (kp : Keeps P) {d : Dev} (hd : P d) {c : Cls} {i off : Nat} {new : Word} : P
    (Dev.blockNote d c i off new) := by
  unfold Dev.blockNote
  split
  · with_reducible exact Dev.tregBlockNote_keeps kp hd
  · with_reducible exact hd

theorem Dev.classLive_keeps (kp : Keeps P) {d : Dev} (hd : P d) {src : Source} {c : Cls} {i off : Nat} {via : Via} {old
    new : Word} : P (Dev.classLive d src c i off via old new) := by
  unfold Dev.classLive
  split
  · with_reducible exact Dev.portLive_keeps kp hd
  · with_reducible exact Dev.grpLive_keeps kp hd
  · with_reducible exact Dev.tregLive_keeps kp hd
  · with_reducible exact kp.ite (fun _ => (Dev.isoLive_keeps kp (Dev.fregLive_keeps kp hd))) fun _ => (Dev.fregLive_keeps
                     kp hd)
  · with_reducible exact kp.ite (fun _ => (Dev.isoLive_keeps kp (Dev.fregLive_keeps kp hd))) fun _ => (Dev.fregLive_keeps
                     kp hd)
  · with_reducible exact Dev.cwayLive_keeps kp hd
  · with_reducible exact Dev.fmemLive_keeps kp hd
  · with_reducible exact Dev.lgrpLive_keeps kp hd
  · with_reducible exact Dev.laneLive_keeps kp hd
  · with_reducible exact Dev.ethTimeLive_keeps kp (Dev.ethLive_keeps kp hd)
  · with_reducible exact Dev.timeLive_keeps kp hd
  · with_reducible exact Dev.mcgLive_keeps kp hd
  · with_reducible exact Dev.ldrLive_keeps kp hd
  · with_reducible exact Dev.iobLive_keeps kp hd
  · with_reducible exact Dev.perLive_keeps kp hd
  · with_reducible exact Dev.perLive_keeps kp hd
  · with_reducible exact Dev.perLive_keeps kp hd
  · with_reducible exact Dev.perLive_keeps kp hd
  · with_reducible exact Dev.perLive_keeps kp hd
  · with_reducible exact Dev.perLive_keeps kp hd
  · with_reducible exact Dev.clkLive_keeps kp hd
  · with_reducible exact Dev.srvLive_keeps kp hd
  · with_reducible exact Dev.secLive_keeps kp hd
  · with_reducible exact Dev.authLive_keeps kp hd
  · with_reducible exact kp.ite (fun _ => (Dev.darkEnter_keeps kp hd)) fun _ => hd
  · with_reducible exact hd

theorem Dev.react_keeps (kp : Keeps P) {d : Dev} (hd : P d) {src : Source} {c : Cls} {i off : Nat} {via : Via} {old new :
    Word} : P (Dev.react d src c i off via old new) := by
  unfold Dev.react
  lift_lets
  intro d1
  with_reducible have hd1 : P d1 := Dev.classLive_keeps kp hd
  with_reducible exact kp.ite (fun _ => (Dev.reqPower_keeps kp hd1)) fun _ => hd1

theorem Dev.pcieReset_keeps (kp : Keeps P) {d : Dev} (hd : P d) : P (Dev.pcieReset d) := by
  unfold Dev.pcieReset
  with_reducible exact kp.foldl hd (fun _ _ k2 => kp.ite (fun _ => (Dev.put_keeps kp k2)) fun _ => Dev.put_keeps kp
                   k2)

theorem Dev.pwrReset_keeps (kp : Keeps P) {d : Dev} (hd : P d) : P (Dev.pwrReset d) := by
  unfold Dev.pwrReset
  with_reducible exact Dev.setF_keeps kp (Dev.setF_keeps kp (Dev.resetPage_keeps kp hd))

theorem Dev.classReset_keeps (kp : Keeps P) {d : Dev} (hd : P d) {c : Cls} {i : Nat} : P (Dev.classReset d c i) := by
  unfold Dev.classReset
  split
  · with_reducible exact Dev.portReset_keeps kp hd
  · with_reducible exact Dev.grpReset_keeps kp hd
  · with_reducible exact Dev.dieReset_keeps kp hd
  · with_reducible exact Dev.tregReset_keeps kp hd
  · with_reducible exact Dev.fregReset_keeps kp hd
  · with_reducible exact Dev.fregReset_keeps kp hd
  · with_reducible exact Dev.cwayReset_keeps kp hd
  · with_reducible exact Dev.fmemReset_keeps kp hd
  · with_reducible exact Dev.scrbReset_keeps kp hd
  · with_reducible exact Dev.lgrpReset_keeps kp hd
  · with_reducible exact Dev.laneReset_keeps kp hd
  · with_reducible exact Dev.ethReset_keeps kp hd
  · with_reducible exact Dev.mcgReset_keeps kp hd
  · with_reducible exact Dev.ldrReset_keeps kp hd
  · with_reducible exact Dev.storeReset_keeps kp hd
  · with_reducible exact Dev.iobReset_keeps kp hd
  · with_reducible exact Dev.perReset_keeps kp hd
  · with_reducible exact Dev.perReset_keeps kp hd
  · with_reducible exact Dev.perReset_keeps kp hd
  · with_reducible exact Dev.perReset_keeps kp hd
  · with_reducible exact Dev.perReset_keeps kp hd
  · with_reducible exact Dev.perReset_keeps kp hd
  · with_reducible exact Dev.clkReset_keeps kp hd
  · with_reducible exact Dev.srvReset_keeps kp hd
  · with_reducible exact Dev.secReset_keeps kp hd
  · with_reducible exact Dev.authReset_keeps kp hd
  · with_reducible exact Dev.ntcReset_keeps kp hd
  · with_reducible exact Dev.blkReset_keeps kp hd
  · with_reducible exact Dev.pcieReset_keeps kp hd
  · with_reducible exact Dev.pwrReset_keeps kp hd
  · with_reducible exact Dev.refreshHealth_keeps kp (Dev.resetPage_keeps kp hd)
  · with_reducible exact Dev.resetPage_keeps kp hd

theorem Dev.pageReset_keeps (kp : Keeps P) {d : Dev} (hd : P d) {c : Cls} {i : Nat} : P (Dev.pageReset d c i) := by
  unfold Dev.pageReset
  lift_lets
  intro p st d1
  with_reducible have hd1 : P d1 := Dev.setF_keeps kp (Dev.setF_keeps kp (Dev.classReset_keeps kp hd))
  with_reducible exact kp.ite (fun _ => hd1) fun _ => Dev.reqPower_keeps kp hd1

theorem Dev.classPower_keeps (kp : Keeps P) {d : Dev} (hd : P d) {c : Cls} {i old new : Nat} : P (Dev.classPower d c
    i old new) := by
  unfold Dev.classPower
  split
  · with_reducible exact kp.ite (fun _ => (Dev.portLeaveOff_keeps kp hd)) fun _ => hd
  · with_reducible exact kp.ite (fun _ => hd) fun _ => Dev.grpUnlock_keeps kp hd
  · with_reducible exact Dev.tregPower_keeps kp hd
  · with_reducible exact Dev.fregPower_keeps kp hd
  · with_reducible exact Dev.fregPower_keeps kp hd
  · with_reducible exact Dev.lgrpPower_keeps kp hd
  · with_reducible exact Dev.perPower_keeps kp hd
  · with_reducible exact Dev.perPower_keeps kp hd
  · with_reducible exact Dev.perPower_keeps kp hd
  · with_reducible exact Dev.perPower_keeps kp hd
  · with_reducible exact Dev.perPower_keeps kp hd
  · with_reducible exact Dev.perPower_keeps kp hd
  · with_reducible exact hd

theorem Dev.bareReset_keeps (kp : Keeps P) {d : Dev} (hd : P d) {p : Nat} : P (Dev.bareReset d p) := by
  unfold Dev.bareReset
  with_reducible exact Dev.resetPage_keeps kp hd

theorem Dev.mediaDark_keeps (kp : Keeps P) {d : Dev} (hd : P d) {m : Nat} : P (Dev.mediaDark d m) := by
  unfold Dev.mediaDark
  with_reducible exact kp.foldl hd (fun _ _ k2 => kp.ite (fun _ => (by
      lift_lets
      intro e1 src
      with_reducible have he1 : P e1 := kp.foldl k2 (fun _ _ k3 => Dev.setFt_keeps kp k3)
      with_reducible exact kp.upd he1)) fun _ => k2)

theorem Dev.classDark_keeps (kp : Keeps P) {d : Dev} (hd : P d) {c : Cls} {i : Nat} : P (Dev.classDark d c i) := by
  unfold Dev.classDark
  lift_lets
  intro p d1 src
  with_reducible have hd1 : P d1 := Dev.bareReset_keeps kp (Dev.grpUnlock_keeps kp hd)
  split
  · with_reducible exact Dev.portReset_keeps kp hd
  · with_reducible exact Dev.keepSlices_keeps kp hd (kp.upd hd1)
  · with_reducible exact Dev.keepCols_keeps kp hd (Dev.bareReset_keeps kp (Dev.tregPower_keeps kp hd))
  · with_reducible exact Dev.bareReset_keeps kp (Dev.regionDark_keeps kp hd)
  · with_reducible exact Dev.lgrpReset_keeps kp hd
  · with_reducible exact Dev.bareReset_keeps kp (Dev.mediaDark_keeps kp hd)
  · with_reducible exact Dev.perReset_keeps kp hd
  · with_reducible exact Dev.perReset_keeps kp hd
  · with_reducible exact Dev.perReset_keeps kp hd
  · with_reducible exact Dev.perReset_keeps kp hd
  · with_reducible exact Dev.perReset_keeps kp hd
  · with_reducible exact Dev.perReset_keeps kp hd
  · with_reducible exact Dev.bareReset_keeps kp hd

theorem Dev.keepHeader_keeps (kp : Keeps P) {old : Dev} (_hold : P old) {e : Dev} (he : P e) {p : Nat} : P
    (Dev.keepHeader old e p) := by
  unfold Dev.keepHeader
  lift_lets
  intro e1
  with_reducible have he1 : P e1 := kp.foldl he (fun _ _ k2 => Dev.put_keeps kp k2)
  with_reducible exact Dev.setBind_keeps kp (Dev.setReg_keeps kp he1)

theorem Dev.lateActs_keeps (kp : Keeps P) {d : Dev} (hd : P d) {c : Cls} {i : Nat} : P (Dev.lateActs d c i) := by
  unfold Dev.lateActs
  lift_lets
  intro p mine src d1
  with_reducible have hd1 : P d1 := kp.upd hd
  with_reducible exact kp.foldl hd1 (fun _ _ k2 => (Dev.classLive_keeps kp k2))

theorem Dev.powerAt_keeps (kp : Keeps P) {d : Dev} (hd : P d) {c : Cls} {i st : Nat} : P (Dev.powerAt d c i st) := by
  unfold Dev.powerAt
  lift_lets
  intro p old d1 d2
  with_reducible have hd1 : P d1 := Dev.setF_keeps kp hd
  with_reducible have hd2 : P d2 := Dev.classPower_keeps kp hd1
  with_reducible exact kp.ite (fun _ => (Dev.setF_keeps kp (Dev.keepHeader_keeps kp hd1 (Dev.classDark_keeps kp hd1))))
                   fun _ => (kp.ite (fun _ => (Dev.lateActs_keeps kp hd2)) fun _ => hd2)

theorem Dev.switchClosed_keeps (kp : Keeps P) {d : Dev} (hd : P d) {x : PwrTrans} : P (Dev.switchClosed d x) := by
  unfold Dev.switchClosed
  split
  · with_reducible exact Dev.pass_keeps kp hd
  · with_reducible exact hd

theorem Dev.powerReached_keeps (kp : Keeps P) {d : Dev} (hd : P d) {p : Nat} : P (Dev.powerReached d p) := by
  unfold Dev.powerReached
  split
  · lift_lets
    intro d0 src d1
    with_reducible have hd0 : P d0 := Dev.switchClosed_keeps kp hd
    with_reducible have hd1 : P d1 := Dev.powerAt_keeps kp (kp.upd hd0)
    split
    · with_reducible exact Dev.reqPower_keeps kp hd1
    · with_reducible exact hd1
  · with_reducible exact hd

theorem Dev.disarmPages_keeps (kp : Keeps P) {d : Dev} (hd : P d) {m : Nat} {pages : List Nat} : P (Dev.disarmPages d
    m pages) := by
  unfold Dev.disarmPages
  with_reducible exact kp.foldl hd (fun _ _ k2 => by
      split
      · with_reducible exact Dev.portDisarmed_keeps kp k2
      · with_reducible exact k2)

theorem Dev.jobMiss_keeps (kp : Keeps P) {d : Dev} (hd : P d) {job : Job} : P (Dev.jobMiss d job) := by
  unfold Dev.jobMiss
  split
  · with_reducible exact kp.ite (fun _ => (Dev.repRebind_keeps kp hd)) fun _ => Dev.rotMiss_keeps kp hd
  · with_reducible exact Dev.moveMiss_keeps kp hd
  · with_reducible exact Dev.colRepairRetry_keeps kp hd
  · with_reducible exact Dev.rowAbort_keeps kp hd
  · with_reducible exact Dev.hoMiss_keeps kp hd
  · with_reducible exact hd
  · with_reducible exact Dev.fwMiss_keeps kp hd
  · with_reducible exact hd

theorem Dev.rotRetry_keeps (kp : Keeps P) {d : Dev} (hd : P d) {i kind : Nat} : P (Dev.rotRetry d i kind) := by
  unfold Dev.rotRetry
  lift_lets
  intro g
  split
  · lift_lets
    intro n
    with_reducible exact kp.ite (fun _ => (Dev.rotArm_keeps kp hd)) fun _ => Dev.unwait_keeps kp hd
  · with_reducible exact Dev.unwait_keeps kp hd

theorem Dev.jobRetry_keeps (kp : Keeps P) {d : Dev} (hd : P d) {job : Job} : P (Dev.jobRetry d job) := by
  unfold Dev.jobRetry
  split
  · with_reducible exact kp.ite (fun _ => (Dev.repRebind_keeps kp hd)) fun _ => Dev.rotRetry_keeps kp hd
  · with_reducible exact Dev.moveRetry_keeps kp hd
  · with_reducible exact Dev.colRepairRetry_keeps kp hd
  · with_reducible exact Dev.rowRetry_keeps kp hd
  · with_reducible exact Dev.hoRetry_keeps kp hd
  · with_reducible exact Dev.unwait_keeps kp hd
  · with_reducible exact Dev.fwRetry_keeps kp hd
  · with_reducible exact Dev.unwait_keeps kp hd

theorem Dev.slotFreed_keeps (kp : Keeps P) {d : Dev} (hd : P d) : P (Dev.slotFreed d) := by
  unfold Dev.slotFreed
  lift_lets
  intro w
  with_reducible exact kp.foldl hd (fun _ _ k2 => kp.ite (fun _ => (Dev.jobRetry_keeps kp k2)) fun _ => k2)

theorem Dev.slotDone_keeps (kp : Keeps P) {d : Dev} (hd : P d) {m : Nat} : P (Dev.slotDone d m) := by
  unfold Dev.slotDone
  lift_lets
  intro job src d1
  with_reducible have hd1 : P d1 := Dev.setSlot_keeps kp hd
  with_reducible exact kp.ite (fun _ => (Dev.slotTo_keeps kp hd1)) fun _ => hd1

theorem Dev.slotMiss_keeps (kp : Keeps P) {d : Dev} (hd : P d) {m : Nat} {st : SlotState} {e : Evt} {cnt : Fld} {w7 :
    Word} : P (Dev.slotMiss d m st e cnt w7) := by
  unfold Dev.slotMiss
  lift_lets
  intro s d1 d2 d3 d4 d5
  with_reducible have hd1 : P d1 := Dev.unbindAll_keeps kp (Dev.slotTo_keeps kp hd)
  with_reducible have hd2 : P d2 := kp.ite (fun _ => (Dev.disarmPages_keeps kp hd1)) fun _ => hd1
  with_reducible have hd3 : P d3 := kp.foldl (Dev.count_keeps kp hd2) (fun _ _ k2 => Dev.raiseMiss_keeps kp k2)
  with_reducible have hd4 : P d4 := Dev.slotEvent_keeps kp hd3
  with_reducible have hd5 : P d5 := Dev.slotDone_keeps kp (Dev.relMiss_keeps kp hd4)
  with_reducible exact Dev.slotFreed_keeps kp (by
      split
      · with_reducible exact Dev.jobMiss_keeps kp hd5
      · with_reducible exact hd5)

theorem Dev.notChecked_keeps (kp : Keeps P) {d : Dev} (hd : P d) {m : Nat} : P (Dev.notChecked d m) := by
  unfold Dev.notChecked
  with_reducible exact kp.foldl hd (fun _ _ k2 => Dev.setCheckRes_keeps kp k2)

theorem Dev.slotExpire_keeps (kp : Keeps P) {d : Dev} (hd : P d) {m : Nat} {step : Bool} : P (Dev.slotExpire d m
    step) := by
  unfold Dev.slotExpire
  lift_lets
  intro d1
  with_reducible have hd1 : P d1 := kp.ite (fun _ => hd) fun _ => Dev.notChecked_keeps kp hd
  with_reducible exact Dev.slotMiss_keeps kp (Dev.dropChecks_keeps kp hd1)

theorem Dev.slotCancel_keeps (kp : Keeps P) {d : Dev} (hd : P d) {m : Nat} : P (Dev.slotCancel d m) := by
  unfold Dev.slotCancel
  lift_lets
  intro s d1 d2
  with_reducible have hd1 : P d1 := Dev.slotEvent_keeps kp (Dev.count_keeps kp hd)
  with_reducible have hd2 : P d2 := Dev.slotIdle_keeps kp hd1
  with_reducible exact Dev.slotFreed_keeps kp (kp.ite (fun _ => (Dev.disarmPages_keeps kp hd2)) fun _ => hd2)

theorem Dev.slotLate_keeps (kp : Keeps P) {d : Dev} (hd : P d) {m : Nat} {step : Bool} : P (Dev.slotLate d m step) :=
    by
  unfold Dev.slotLate
  with_reducible exact kp.ite (fun _ => (Dev.slotCancel_keeps kp (Dev.dropChecks_keeps kp (Dev.notChecked_keeps kp
                   hd)))) fun _ => Dev.slotExpire_keeps kp hd

theorem Dev.slotExpired_keeps (kp : Keeps P) {d : Dev} (hd : P d) {m : Nat} : P (Dev.slotExpired d m) := by
  unfold Dev.slotExpired
  split
  · with_reducible exact Dev.slotLate_keeps kp (Dev.reach_keeps kp hd)
  · with_reducible exact hd

theorem Dev.stepSlots_keeps (kp : Keeps P) {d : Dev} (hd : P d) : P (Dev.stepSlots d) := by
  unfold Dev.stepSlots
  with_reducible exact kp.foldl hd (fun _ _ k2 => by
      split
      · with_reducible exact kp.ite (fun _ => (Dev.slotLate_keeps kp k2)) fun _ => kp.ite (fun _ =>
                         (Dev.slotExpire_keeps kp k2)) fun _ => k2
      · with_reducible exact k2)

theorem Dev.msOpen_keeps (kp : Keeps P) {d : Dev} (hd : P d) {m : Nat} : P (Dev.msOpen d m) := by
  unfold Dev.msOpen
  with_reducible exact Dev.setSlot_keeps kp hd

theorem Dev.enqueue_keeps (kp : Keeps P) {d : Dev} (hd : P d) {m : Nat} {isTry : Bool} {inst : Option Nat} : P
    (Dev.enqueue d m isTry inst) := by
  unfold Dev.enqueue
  lift_lets
  intro src
  with_reducible exact kp.upd hd

theorem Dev.msCheck_keeps (kp : Keeps P) {d : Dev} (hd : P d) {m : Nat} : P (d.msCheck m) := by
  unfold Dev.msCheck
  generalize d.resolve m d.now = inst
  cases inst with
  | none =>
    exact kp.ite (fun _ => Dev.slotExpire_keeps kp (Dev.setSlot_keeps kp hd)) fun _ => Dev.enqueue_keeps kp
        (Dev.setSlot_keeps kp hd)
  | some t =>
    have h1 := Dev.setAtRegs_keeps kp (m := m) (t := t) hd
    exact kp.ite (fun _ => Dev.slotExpire_keeps kp (Dev.setSlot_keeps kp h1)) fun _ => Dev.enqueue_keeps kp
        (Dev.setSlot_keeps kp h1)

theorem Dev.msTry_keeps (kp : Keeps P) {d : Dev} (hd : P d) {m : Nat} : P (Dev.msTry d m) := by
  unfold Dev.msTry
  with_reducible exact Dev.enqueue_keeps kp hd

theorem Dev.msCancel_keeps (kp : Keeps P) {d : Dev} (hd : P d) {m : Nat} : P (Dev.msCancel d m) := by
  unfold Dev.msCancel
  lift_lets
  intro src
  with_reducible exact kp.ite (fun _ => (Dev.setSlot_keeps kp hd)) fun _ => Dev.slotCancel_keeps kp hd

theorem Dev.msRelease_keeps (kp : Keeps P) {d : Dev} (hd : P d) {m : Nat} : P (Dev.msRelease d m) := by
  unfold Dev.msRelease
  with_reducible exact Dev.slotFreed_keeps kp (Dev.slotTo_keeps kp hd)

theorem Dev.unbindPages_keeps (kp : Keeps P) {d : Dev} (hd : P d) {m : Nat} {pages : List Nat} : P (Dev.unbindPages d
    m pages) := by
  unfold Dev.unbindPages
  lift_lets
  intro s mine d1 src
  with_reducible have hd1 : P d1 := kp.foldl hd (fun _ _ k2 => Dev.setBind_keeps kp k2)
  with_reducible exact Dev.setSlot_keeps kp hd1

theorem Dev.bindReq_keeps (kp : Keeps P) {d : Dev} (hd : P d) {w : Word} : P (Dev.bindReq d w) := by
  unfold Dev.bindReq
  lift_lets
  intro m
  with_reducible exact kp.ite (fun _ => (Dev.unbindPages_keeps kp hd)) fun _ => Dev.bindPages_keeps kp hd

theorem Dev.listViols_keeps (kp : Keeps P) {d : Dev} (hd : P d) {fs : List Found} : P (Dev.listViols d fs) := by
  unfold Dev.listViols
  with_reducible exact kp.foldl hd (fun _ _ k2 => by
      split
      · lift_lets
        intro code
        with_reducible exact Dev.setReg_keeps kp (Dev.setReg_keeps kp k2)
      · with_reducible exact Dev.setReg_keeps kp (Dev.setReg_keeps kp k2))

theorem Dev.setChkStat_keeps (kp : Keeps P) {d : Dev} (hd : P d) {m res n : Nat} {more isTry : Bool} : P
    (Dev.setChkStat d m res n more isTry) := by
  unfold Dev.setChkStat
  with_reducible exact Dev.setReg_keeps kp hd

theorem Dev.checkReport_keeps (kp : Keeps P) {d : Dev} (hd : P d) {m : Nat} {isTry : Bool} {fs : List Found} : P
    (Dev.checkReport d m isTry fs) := by
  unfold Dev.checkReport
  lift_lets
  intro res more d1 d2 d3 d4
  with_reducible have hd1 : P d1 := Dev.count_keeps kp (Dev.listViols_keeps kp (Dev.setChkStat_keeps kp hd))
  with_reducible have hd2 : P d2 := kp.ite (fun _ => hd1) fun _ => Dev.count_keeps kp hd1
  with_reducible have hd3 : P d3 := Dev.setFlag_keeps kp (Dev.setF_keeps kp hd2)
  with_reducible have hd4 : P d4 := kp.ite (fun _ => (Dev.setF_keeps kp hd3)) fun _ => hd3
  with_reducible exact kp.foldl hd4 (fun _ _ k2 => by
      lift_lets
      intro mine
      with_reducible exact Dev.setCheckRes_keeps kp k2)

theorem Dev.checkStart_keeps (kp : Keeps P) {d : Dev} (hd : P d) : P (Dev.checkStart d) := by
  unfold Dev.checkStart
  split
  · lift_lets
    intro late
    exact kp.ite (fun _ => Dev.slotLate_keeps kp hd) fun _ => Dev.setF_keeps kp (kp.upd hd)
  · exact hd

theorem Dev.checkFree_keeps (kp : Keeps P) {d : Dev} (hd : P d) : P (Dev.checkFree d) := by
  unfold Dev.checkFree
  lift_lets
  intro src
  with_reducible exact Dev.setF_keeps kp (kp.upd hd)

theorem Dev.armPages_keeps (kp : Keeps P) {d : Dev} (hd : P d) {m : Nat} : P (Dev.armPages d m) := by
  unfold Dev.armPages
  lift_lets
  intro s
  with_reducible exact kp.foldl hd (fun _ _ k2 => by
      split
      · with_reducible exact Dev.portArmed_keeps kp k2
      · with_reducible exact k2)

theorem Dev.slotRefuse_keeps (kp : Keeps P) {d : Dev} (hd : P d) {m first : Nat} : P (Dev.slotRefuse d m first) := by
  unfold Dev.slotRefuse
  with_reducible exact Dev.slotMiss_keeps kp hd

theorem Dev.bindNotes_keeps (kp : Keeps P) {d : Dev} (hd : P d) {pages : List Nat} {p : Nat} : P (Dev.bindNotes d
    pages p) := by
  unfold Dev.bindNotes
  split
  · with_reducible exact hd
  · with_reducible exact kp.foldl hd (fun _ _ k2 => by
        split
        · with_reducible exact Dev.refuse_keeps kp k2
        · with_reducible exact k2)

theorem Dev.changeActs_keeps (kp : Keeps P) {d : Dev} (hd : P d) {t m : Nat} {x : Change} : P (Dev.changeActs d t m x) :=
    by
  unfold Dev.changeActs
  lift_lets
  intro p src
  with_reducible exact kp.ite (fun _ => (kp.upd hd)) fun _ => (Dev.react_keeps kp hd)

theorem Dev.jobApply_keeps (kp : Keeps P) {d : Dev} (hd : P d) {job : Job} : P (Dev.jobApply d job) := by
  unfold Dev.jobApply
  split
  · with_reducible exact kp.ite (fun _ => (Dev.repApply_keeps kp hd)) fun _ => Dev.rotApply_keeps kp hd
  · with_reducible exact Dev.moveApply_keeps kp hd
  · with_reducible exact Dev.colRepairApply_keeps kp hd
  · with_reducible exact Dev.rowApply_keeps kp hd
  · with_reducible exact Dev.hoApply_keeps kp hd
  · with_reducible exact hd
  · with_reducible exact Dev.fwApply_keeps kp hd
  · with_reducible exact hd

theorem Dev.slotApplied_keeps (kp : Keeps P) {d : Dev} (hd : P d) {m : Nat} : P (Dev.slotApplied d m) := by
  unfold Dev.slotApplied
  lift_lets
  intro s d1 d2 d3
  with_reducible have hd1 : P d1 := kp.foldl hd (fun _ _ k2 => Dev.setReg_keeps kp k2)
  with_reducible have hd2 : P d2 := Dev.unbindAll_keeps kp (Dev.slotTo_keeps kp hd1)
  with_reducible have hd3 : P d3 := kp.foldl (Dev.count_keeps kp hd2) (fun _ _ k2 => Dev.raiseApplied_keeps kp k2)
  with_reducible exact Dev.pinPulse_keeps kp (Dev.slotEvent_keeps kp hd3)

theorem Dev.slotAfter_keeps (kp : Keeps P) {d : Dev} (hd : P d) {m : Nat} : P (d.slotAfter m) := by
  have h1 : P ((d.relApplied m).slotDone m) := Dev.slotDone_keeps kp (Dev.relApplied_keeps kp hd)
  unfold Dev.slotAfter
  generalize (d.slot m).job = job
  cases job with
  | none => exact Dev.slotFreed_keeps kp h1
  | some j => exact Dev.slotFreed_keeps kp (Dev.jobApply_keeps kp h1)

theorem Dev.applySlots_keeps (kp : Keeps P) {d : Dev} (hd : P d) {ms : List Nat} {t : Nat} : P (Dev.applySlots d ms t) :=
    by
  unfold Dev.applySlots
  lift_lets
  intro pages xs d1 d2 d3 d4
  with_reducible have hd1 : P d1 := kp.foldl hd (fun _ _ k1 => (Dev.bindNotes_keeps kp k1))
  with_reducible have hd2 : P d2 := kp.foldl hd1 (fun _ _ k2 => (Dev.put_keeps kp k2))
  with_reducible have hd3 : P d3 := kp.foldl hd2 (fun _ _ k3 => (Dev.slotApplied_keeps kp (Dev.setAtRegs_keeps kp k3)))
  with_reducible have hd4 : P d4 := kp.foldl hd3 (fun _ _ k4 => (Dev.changeActs_keeps kp k4))
  with_reducible exact kp.foldl hd4 (fun _ _ k5 => (Dev.slotAfter_keeps kp k5))

theorem Dev.milestoneApply_keeps (kp : Keeps P) {d : Dev} (hd : P d) {m : Nat} : P (Dev.milestoneApply d m) := by
  unfold Dev.milestoneApply
  split
  · with_reducible exact kp.ite (fun _ => hd) fun _ => (Dev.applySlots_keeps kp (Dev.reach_keeps kp hd))
  · with_reducible exact hd

theorem Dev.msFire_keeps (kp : Keeps P) {d : Dev} (hd : P d) {m : Nat} : P (Dev.msFire d m) := by
  unfold Dev.msFire
  with_reducible exact Dev.applySlots_keeps kp hd

theorem Dev.checkPass_keeps (kp : Keeps P) {d : Dev} (hd : P d) {m : Nat} : P (Dev.checkPass d m) := by
  unfold Dev.checkPass
  with_reducible exact kp.ite (fun _ => (Dev.applySlots_keeps kp hd)) fun _ => (Dev.armPages_keeps kp (Dev.slotTo_keeps
                   kp hd))

theorem Dev.checkEnds_keeps (kp : Keeps P) {d : Dev} (hd : P d) {m : Nat} : P (d.checkEnds m) := by
  unfold Dev.checkEnds
  refine kp.ite (fun _ => Dev.checkFree_keeps kp hd) fun _ => kp.ite
    (fun _ => Dev.slotLate_keeps kp (Dev.setChkStat_keeps kp (Dev.checkFree_keeps kp hd))) fun _ => ?_
  have h1 := fun fs => Dev.checkReport_keeps kp (m := m) (isTry := false) (fs := fs) (Dev.checkFree_keeps kp hd)
  refine kp.ite (fun _ => Dev.slotCancel_keeps kp (h1 _)) fun _ => ?_
  split
  · exact Dev.checkPass_keeps kp (h1 _)
  · exact Dev.slotRefuse_keeps kp (h1 _)

theorem Dev.tryEnds_keeps (kp : Keeps P) {d : Dev} (hd : P d) {j : CheckJob} : P (Dev.tryEnds d j) := by
  unfold Dev.tryEnds
  lift_lets
  intro e
  with_reducible have he : P e := Dev.checkReport_keeps kp (Dev.checkFree_keeps kp hd)
  with_reducible exact kp.ite (fun _ => (Dev.slotCancel_keeps kp he)) fun _ => he

theorem Dev.checkEnd_keeps (kp : Keeps P) {d : Dev} (hd : P d) {dt : Nat} : P (Dev.checkEnd d dt) := by
  unfold Dev.checkEnd
  split
  · with_reducible exact hd
  · lift_lets
    intro e
    with_reducible have he : P e := Dev.pass_keeps kp hd
    with_reducible exact kp.ite (fun _ => (Dev.tryEnds_keeps kp he)) fun _ => Dev.checkEnds_keeps kp he

theorem Dev.checkDue_keeps (kp : Keeps P) {d : Dev} (hd : P d) : P (Dev.checkDue d) := by
  unfold Dev.checkDue
  split
  · with_reducible exact kp.ite (fun _ => (Dev.checkEnd_keeps kp hd)) fun _ => hd
  · with_reducible exact hd

theorem Dev.waitsDue_keeps (kp : Keeps P) {d : Dev} (hd : P d) : P (Dev.waitsDue d) := by
  unfold Dev.waitsDue
  with_reducible exact kp.ite (fun _ => hd) fun _ => Dev.slotFreed_keeps kp hd

theorem Dev.mstReset_keeps (kp : Keeps P) {d : Dev} (hd : P d) : P (Dev.mstReset d) := by
  unfold Dev.mstReset
  lift_lets
  intro free d1 d2
  with_reducible have hd1 : P d1 := kp.foldl hd (fun _ _ k2 => by
      lift_lets
      intro s e0 src e1
      with_reducible have he0 : P e0 := kp.ite (fun _ => k2) fun _ => Dev.slotIdle_keeps kp k2
      with_reducible have he1 : P e1 := Dev.setSlot_keeps kp he0
      with_reducible exact kp.ite (fun _ => (Dev.disarmPages_keeps kp he1)) fun _ => he1)
  with_reducible have hd2 : P d2 := Dev.resetPage_keeps kp hd1
  with_reducible exact Dev.slotFreed_keeps kp hd2

theorem Dev.chkReset_keeps (kp : Keeps P) {d : Dev} (hd : P d) : P (Dev.chkReset d) := by
  unfold Dev.chkReset
  lift_lets
  intro busy
  with_reducible exact Dev.setF_keeps kp (Dev.resetPage_keeps kp hd)

theorem Dev.blockReset_keeps (kp : Keeps P) {d : Dev} (hd : P d) {c : Cls} {i : Nat} : P (Dev.blockReset d c i) := by
  unfold Dev.blockReset
  split
  · with_reducible exact Dev.sysReset_keeps kp hd
  · with_reducible exact Dev.mstReset_keeps kp hd
  · with_reducible exact Dev.chkReset_keeps kp hd
  · with_reducible exact Dev.pageReset_keeps kp hd

end Sys2Proof.Machine
end

