-- ==== Sys2Proof/Laws/KeepsCmd.lean ====
section
/-! SUPPORT. What every operation keeps: bus accesses, the link, critical commands and what follows a command. -/

namespace Sys2Proof.Machine

open Sys2Proof

variable {P : Dev → Prop}

theorem Dev.readLive_keeps (kp : Keeps P) {d : Dev} (hd : P d) {src : Source} {c : Cls} {i off : Nat} {r : RegSpec} :
    P (Dev.readLive d src c i off r).2 := by
  unfold Dev.readLive
  lift_lets
  intro a w rc
  with_reducible exact kp.ite_snd (fun _ => hd) fun _ => kp.ite_snd (fun _ => (Dev.serPop_keeps kp hd)) fun _ =>
                   kp.ite (fun _ => hd) fun _ => Dev.put_keeps kp hd

theorem Dev.readPage_keeps (kp : Keeps P) {d : Dev} (hd : P d) {src : Source} {c : Cls} {i off : Nat} : P
    (Dev.readPage d src c i off).2 := by
  unfold Dev.readPage
  split
  · with_reducible exact hd
  · with_reducible exact kp.ite_snd (fun _ => hd) fun _ => kp.ite_snd (fun _ => hd) fun _ => kp.ite_snd (fun _ =>
                     (Dev.winTouch_keeps kp hd)) fun _ => Dev.readLive_keeps kp hd

theorem Dev.busRead_keeps (kp : Keeps P) {d : Dev} (hd : P d) {src : Source} {a : Nat} : P (Dev.busRead d src a).2 :=
    by
  unfold Dev.busRead
  exact kp.ite_snd (fun _ => hd) fun _ => kp.ite_snd (fun _ => (kp.ite_snd (fun _ => (Dev.winReads_keeps kp hd)) fun
      _ => hd)) fun _ => kp.ite_snd (fun _ => hd) fun _ => by
      split
      · with_reducible exact hd
      · with_reducible exact kp.ite_snd (fun _ => (Dev.readPage_keeps kp hd)) fun _ => hd

theorem Dev.readRun_keeps (kp : Keeps P) {d : Dev} (hd : P d) {src : Source} {a x3 : Nat} : P (Dev.readRun d src a x3).2
    := by
  unfold Dev.readRun
  lift_lets
  intro x
  with_reducible have hx : P x.2 := Dev.busRead_keeps kp hd
  split
  · with_reducible exact hd
  · lift_lets
    intro y
    with_reducible have hy : P y.2 := Dev.readRun_keeps kp hx
    with_reducible exact hy

theorem Dev.forceCommon_keeps (kp : Keeps P) {d : Dev} (hd : P d) {p k : Nat} : P (Dev.forceCommon d p k) := by
  unfold Dev.forceCommon
  lift_lets
  intro m
  split
  · with_reducible exact Dev.raiseCode_keeps kp hd
  · with_reducible exact Dev.raiseCode_keeps kp hd
  · with_reducible exact Dev.raiseCode_keeps kp hd
  · with_reducible exact Dev.raiseCode_keeps kp hd

theorem Dev.forceBlock_keeps (kp : Keeps P) {d : Dev} (hd : P d) {c : Cls} {i : Nat} {e : Evt} : P (Dev.forceBlock d
    c i e) := by
  unfold Dev.forceBlock
  lift_lets
  intro w
  with_reducible exact Dev.raiseCode_keeps kp hd

theorem Dev.forceEvents_keeps (kp : Keeps P) {d : Dev} (hd : P d) {c : Cls} {i : Nat} {v : Word} : P (Dev.forceEvents
    d c i v) := by
  unfold Dev.forceEvents
  lift_lets
  intro d1
  with_reducible have hd1 : P d1 := kp.foldl hd (fun _ _ k3 => Dev.forceCommon_keeps kp k3)
  with_reducible exact kp.foldl hd1 (fun _ _ k2 => Dev.forceBlock_keeps kp k2)

theorem Dev.snapReady_keeps (kp : Keeps P) {d : Dev} (hd : P d) {c : Cls} {i : Nat} : P (Dev.snapReady d c i) := by
  unfold Dev.snapReady
  split
  · with_reducible exact Dev.mcgSync_keeps kp hd
  · with_reducible exact Dev.setReg_keeps kp hd
  · with_reducible exact hd

theorem Dev.snapWrite_keeps (kp : Keeps P) {d : Dev} (hd : P d) {src : Source} {c : Cls} {i : Nat} {v : Word} : P
    (Dev.snapWrite d src c i v) := by
  unfold Dev.snapWrite
  lift_lets
  intro p d1 d2
  with_reducible have hd1 : P d1 := Dev.snapReady_keeps kp hd
  with_reducible have hd2 : P d2 := kp.ite (fun _ => (Dev.snapClr_keeps kp hd1)) fun _ => (Dev.snap_keeps kp hd1)
  with_reducible exact (kp.ite (fun _ => (by
          split
          · with_reducible exact Dev.timeSnap_keeps kp (kp.ite (fun _ => (Dev.snapClr_keeps kp (Dev.snapReady_keeps kp
                             hd))) fun _ => (Dev.snap_keeps kp (Dev.snapReady_keeps kp hd)))
          · with_reducible exact kp.ite (fun _ => (Dev.mediaClr_keeps kp (kp.ite (fun _ => (Dev.snapClr_keeps kp
                             (Dev.snapReady_keeps kp hd))) fun _ => (Dev.snap_keeps kp (Dev.snapReady_keeps kp hd)))))
                             fun _ => (kp.ite (fun _ => (Dev.snapClr_keeps kp (Dev.snapReady_keeps kp hd))) fun _ =>
                             (Dev.snap_keeps kp (Dev.snapReady_keeps kp hd)))
          · with_reducible exact hd2)) fun _ => hd)

theorem Dev.breakLock_keeps (kp : Keeps P) {d : Dev} (hd : P d) {c : Cls} {i off : Nat} : P (Dev.breakLock d c i off)
    := by
  unfold Dev.breakLock
  lift_lets
  intro d1
  with_reducible have hd1 : P d1 := kp.ite (fun _ => hd) fun _ => kp.upd hd
  with_reducible exact kp.ite (fun _ => (Dev.pinLockBreak_keeps kp hd1)) fun _ => hd1

theorem Dev.lockKey_keeps (kp : Keeps P) {d : Dev} (hd : P d) {src : Source} {p key : Nat} : P (Dev.lockKey d src p
    key) := by
  unfold Dev.lockKey
  lift_lets
  intro n set clr
  with_reducible have hset : ∀ y0, P (set y0) := fun _ => kp.upd hd
  with_reducible have hclr : P clr := kp.upd hd
  with_reducible exact kp.ite (fun _ => (hset _)) fun _ => kp.ite (fun _ => (Dev.setFlag_keeps kp hclr)) fun _ =>
                   kp.ite (fun _ => (hset _)) fun _ => hclr

theorem Dev.msCmd_keeps (kp : Keeps P) {d : Dev} (hd : P d) {m cmd : Nat} : P (Dev.msCmd d m cmd) := by
  unfold Dev.msCmd
  split
  · with_reducible exact Dev.msOpen_keeps kp hd
  · with_reducible exact Dev.msCheck_keeps kp hd
  · with_reducible exact Dev.msTry_keeps kp hd
  · with_reducible exact Dev.msFire_keeps kp hd
  · with_reducible exact Dev.msCancel_keeps kp hd
  · with_reducible exact Dev.msRelease_keeps kp hd
  · with_reducible exact hd

theorem Dev.headerWrite_keeps (kp : Keeps P) {d : Dev} (hd : P d) {src : Source} {c : Cls} {i off : Nat} {r : RegSpec} {v
    : Word} :
    ∀ e, d.headerWrite src c i off r v = some e → P e := by
  unfold Dev.headerWrite; intro e he
  dsimp only at he
  split at he
  · cases he; exact Dev.blockReset_keeps kp hd
  split at he
  · cases he; exact Dev.put_keeps kp hd
  split at he
  · cases he; exact Dev.forceEvents_keeps kp hd
  split at he
  · cases he; exact Dev.snapWrite_keeps kp hd
  split at he
  · cases he; exact Dev.lockKey_keeps kp hd
  · cases he

theorem Dev.specialWrite_keeps (kp : Keeps P) {d : Dev} (hd : P d) {src : Source} {c : Cls} {i off : Nat} {v : Word} :
    ∀ e, d.specialWrite src c i off v = some e → P e := by
  unfold Dev.specialWrite; intro e he
  split at he
  · cases he; exact Dev.bindReq_keeps kp hd
  split at he
  · cases he; exact Dev.msCmd_keeps kp hd
  split at he
  · cases he; exact Dev.pinLock_keeps kp hd
  split at he
  · cases he; exact Dev.serPush_keeps kp hd
  · cases he

theorem Dev.liveWrite_keeps (kp : Keeps P) {d : Dev} (hd : P d) {src : Source} {c : Cls} {i off : Nat} {r : RegSpec} {v :
    Word} : P (Dev.liveWrite d src c i off r v) := by
  unfold Dev.liveWrite
  lift_lets
  intro a old keep
  with_reducible exact Dev.react_keeps kp (Dev.put_keeps kp hd)

theorem Dev.stageWrite_keeps (kp : Keeps P) {d : Dev} (hd : P d) {c : Cls} {i off : Nat} {r : RegSpec} {v : Word} : P
    (Dev.stageWrite d c i off r v) := by
  unfold Dev.stageWrite
  lift_lets
  intro p old m new d1
  with_reducible have hd1 : P d1 := Dev.put_keeps kp hd
  with_reducible exact Dev.setReg_keeps kp hd1

theorem Dev.acceptWrite_keeps (kp : Keeps P) {d : Dev} (hd : P d) {src : Source} {c : Cls} {i off : Nat} {r : RegSpec} {v
    : Word} : P (Dev.acceptWrite d src c i off r v) := by
  unfold Dev.acceptWrite
  with_reducible exact (kp.ite (fun _ => (Dev.stageWrite_keeps kp hd)) fun _ => (by
          split
          · rename_i y20 y21 y22
            have hy22 := (Dev.headerWrite_keeps kp hd _ y22)
            with_reducible exact hy22
          · split
            · rename_i y30 y31 y32
              have hy32 := (Dev.specialWrite_keeps kp hd _ y32)
              with_reducible exact hy32
            · with_reducible exact (Dev.liveWrite_keeps kp hd)))

theorem Dev.writeReg_keeps (kp : Keeps P) {d : Dev} (hd : P d) {src : Source} {c : Cls} {i off : Nat} {r : RegSpec} {v :
    Word} {full : Bool} : P (Dev.writeReg d src c i off r v full).1 := by
  unfold Dev.writeReg
  lift_lets
  intro k d1 d2
  with_reducible have hd1 : P d1 := Dev.breakLock_keeps kp (Dev.refuse_keeps kp hd)
  with_reducible have hd2 : P d2 := kp.ite (fun _ => (kp.upd hd1)) fun _ => hd1
  with_reducible exact kp.ite_fst (fun _ => (Dev.breakLock_keeps kp (Dev.acceptWrite_keeps kp hd))) fun _ => (kp.ite (fun
                   _ => (Dev.blockNote_keeps kp hd2)) fun _ => hd2)

theorem Dev.writePage_keeps (kp : Keeps P) {d : Dev} (hd : P d) {src : Source} {c : Cls} {i off : Nat} {v : Word} {full :
    Bool} : P (Dev.writePage d src c i off v full).1 := by
  unfold Dev.writePage
  lift_lets
  intro x
  with_reducible have hx : P x.1 := kp.fst_eq (Dev.iobFilter_keeps kp hd) rfl
  split
  · with_reducible exact hd
  · split
    · with_reducible exact hd
    · split
      · split
        · with_reducible exact hx
        · with_reducible exact Dev.writeReg_keeps kp hx
      · with_reducible exact Dev.writeReg_keeps kp hd

theorem Dev.writeTile_keeps (kp : Keeps P) {d : Dev} (hd : P d) {src : Source} {t off : Nat} {v : Word} {full : Bool}
    {ecc : EccEvent} : P (Dev.writeTile d src t off v full ecc).1 := by
  unfold Dev.writeTile
  lift_lets
  intro bind
  with_reducible exact kp.ite_fst (fun _ => hd) fun _ => (kp.ite_fst (fun _ => (Dev.winRefuse_keeps kp hd)) fun _ =>
                   (Dev.winAccess_keeps kp hd))

theorem Dev.writeFlow_keeps (kp : Keeps P) {d : Dev} (hd : P d) {src : Source} {f w : Nat} {v : Word} {full : Bool} :
    P (Dev.writeFlow d src f w v full).1 := by
  unfold Dev.writeFlow
  lift_lets
  intro k
  with_reducible exact Dev.ftWrite_keeps kp hd

theorem Dev.busWrite_keeps (kp : Keeps P) {d : Dev} (hd : P d) {src : Source} {a : Nat} {v : Word} {full : Bool} {ecc :
    EccEvent} : P (Dev.busWrite d src a v full ecc).1 := by
  unfold Dev.busWrite
  split
  · with_reducible exact hd
  · split
    · with_reducible exact kp.ite_fst (fun _ => (Dev.writeTile_keeps kp hd)) fun _ => hd
    · split
      · with_reducible exact kp.ite_fst (fun _ => (Dev.writeFlow_keeps kp hd)) fun _ => hd
      · split
        · with_reducible exact hd
        · with_reducible exact kp.ite_fst (fun _ => (Dev.writePage_keeps kp hd)) fun _ => hd

theorem Dev.regWrite_keeps (kp : Keeps P) {d : Dev} (hd : P d) {src : Source} {a : Nat} {v : Word} : P (Dev.regWrite d
    src a v) := by
  unfold Dev.regWrite
  with_reducible exact Dev.busWrite_keeps kp hd

theorem Dev.writeRegs_keeps (kp : Keeps P) {d : Dev} (hd : P d) {who : Source} {l : List LRec} : P (d.writeRegs who l).1
    := by
  induction l generalizing d with
  | nil => exact hd
  | cons r t ih =>
    cases r <;> unfold Dev.writeRegs
    case staged => exact ih (Dev.regWrite_keeps kp hd)
    case direct =>
      exact kp.ite_fst (fun _ => Dev.busWrite_keeps kp hd) fun _ => ih (Dev.busWrite_keeps kp hd)
    all_goals exact ih hd

theorem Dev.stageRelease_keeps (kp : Keeps P) {d : Dev} (hd : P d) {n : Nat} : P (Dev.stageRelease d n) := by
  unfold Dev.stageRelease
  lift_lets
  intro p d1
  with_reducible have hd1 : P d1 := Dev.setF_keeps kp hd
  with_reducible exact Dev.setReg_keeps kp hd1

theorem Dev.groupCheck_keeps (kp : Keeps P) {d : Dev} (hd : P d) {j : LoadJob} {g : Nat} : P (Dev.groupCheck d j g) := by
  unfold Dev.groupCheck
  split
  · with_reducible exact hd
  · with_reducible exact kp.ite (fun _ => hd) fun _ => (kp.ite (fun _ => (kp.ite (fun _ => (Dev.slotIdle_keeps kp hd))
                     fun _ => hd)) fun _ => (Dev.msCheck_keeps kp hd))

theorem Dev.loadWaits_keeps (kp : Keeps P) {d : Dev} (hd : P d) : P (Dev.loadWaits d) := by
  unfold Dev.loadWaits
  split
  · with_reducible exact kp.ite (fun _ => (Dev.setLdPhase_keeps kp hd)) fun _ => hd
  · with_reducible exact hd

theorem Dev.partnersBegin_keeps (kp : Keeps P) {d : Dev} (hd : P d) : P (Dev.partnersBegin d) := by
  unfold Dev.partnersBegin
  split
  · lift_lets
    intro ps
    with_reducible exact kp.ite (fun _ => (Dev.hoBegin_keeps kp hd)) fun _ => hd
  · with_reducible exact hd

theorem Dev.groupChecked_keeps (kp : Keeps P) {d : Dev} (hd : P d) {j : LoadJob} {g : Nat} : P (Dev.groupChecked d j g)
    := by
  unfold Dev.groupChecked
  lift_lets
  intro j1 d1
  with_reducible have hd1 : P d1 := kp.foldl hd (fun _ _ k1 => (Dev.stageRelease_keeps kp k1))
  with_reducible exact Dev.partnersBegin_keeps kp (Dev.loadWaits_keeps kp (Dev.groupCheck_keeps kp (Dev.setLoad_keeps kp
                   hd1)))

theorem Dev.groupHeld_keeps (kp : Keeps P) {d : Dev} (hd : P d) {j : LoadJob} {g : Nat} : P (Dev.groupHeld d j g) :=
    by
  unfold Dev.groupHeld
  with_reducible exact kp.foldl hd (fun _ _ k2 => Dev.refreshRegion_keeps kp (Dev.setIso_keeps kp k2))

theorem Dev.groupRecords_keeps (kp : Keeps P) {d : Dev} (hd : P d) {j : LoadJob} {g : Nat} {rs : List LRec} : P
    (Dev.groupRecords d j g rs) := by
  unfold Dev.groupRecords
  lift_lets
  intro m late x
  with_reducible have hx : P x.1 := kp.fst_eq (Dev.writeRegs_keeps kp (kp.ite (fun _ => hd) fun _ => (Dev.bindPages_keeps
                   kp hd))) rfl
  split
  · with_reducible exact Dev.loadFail_keeps kp hd
  · split
    · with_reducible exact Dev.loadFail_keeps kp hx
    · with_reducible exact Dev.groupChecked_keeps kp hx

theorem Dev.groupComplete_keeps (kp : Keeps P) {d : Dev} (hd : P d) {g : Nat} : P (Dev.groupComplete d g) := by
  unfold Dev.groupComplete
  lift_lets
  split
  · with_reducible exact hd
  · lift_lets
    intro d1
    with_reducible have hd1 : P d1 := Dev.groupHeld_keeps kp hd
    with_reducible exact (kp.ite (fun _ => (by
          split
          · with_reducible exact Dev.loadFail_keeps kp hd1
          · with_reducible exact (Dev.groupRecords_keeps kp hd1))) fun _ => hd)

theorem Dev.fportAccess_keeps (kp : Keeps P) {d : Dev} (hd : P d) {n : Fin 34} {p addr : Nat} {write : Option Word} : P
    (Dev.fportAccess d n p addr write) := by
  unfold Dev.fportAccess
  lift_lets
  intro k x
  with_reducible have hx : P x.2 := Dev.busRead_keeps kp hd
  with_reducible exact (kp.ite (fun _ => hd) fun _ => (by
          split
          · lift_lets
            intro x_1
            with_reducible have hx_1 : P x_1.1 := kp.fst_eq (Dev.busWrite_keeps kp hd) rfl
            with_reducible exact kp.ite (fun _ => (Dev.send_keeps kp hd)) fun _ => (Dev.send_keeps kp hx_1)
          · with_reducible exact (Dev.send_keeps kp hx)))

theorem Dev.brzRead_keeps (kp : Keeps P) {d : Dev} (hd : P d) {c seq count addr : Nat} : P (Dev.brzRead d c seq count
    addr) := by
  unfold Dev.brzRead
  lift_lets
  with_reducible exact Dev.brzCmd_keeps kp hd (fun _ k1 => (kp.ite_fst (fun _ => (Dev.readRun_keeps kp k1)) fun _ => k1))

theorem Dev.writeRun_keeps (kp : Keeps P) {d : Dev} (hd : P d) {src : Source} {addr k : Nat} {l : List Word} :
    P (d.writeRun src addr k l).1 := by
  induction l generalizing d k with
  | nil => exact hd
  | cons v t ih =>
    unfold Dev.writeRun
    dsimp only
    split
    · exact Dev.busWrite_keeps kp hd
    · exact ih (Dev.busWrite_keeps kp hd)

theorem Dev.brzWrite_keeps (kp : Keeps P) {d : Dev} (hd : P d) {c seq count addr : Nat} {ws : List Word} :
    P (d.brzWrite c seq count addr ws) := by
  refine Dev.brzCmd_keeps kp hd fun y hy => kp.ite_fst (fun _ => ?_) fun _ => hy
  dsimp only; split <;> exact Dev.writeRun_keeps kp hy

theorem Dev.brzMwrite_keeps (kp : Keeps P) {d : Dev} (hd : P d) {c seq count addr : Nat} {mask v : Word} :
    P (d.brzMwrite c seq count addr mask v) := by
  refine Dev.brzCmd_keeps kp hd fun y hy => kp.ite_fst (fun _ => ?_) fun _ => hy
  dsimp only; split <;> exact Dev.busWrite_keeps kp hy

theorem Dev.brzPoll_keeps (kp : Keeps P) {d : Dev} (hd : P d) {c seq count addr : Nat} {mask v : Word} {ms : Nat} : P
    (Dev.brzPoll d c seq count addr mask v ms) := by
  unfold Dev.brzPoll
  lift_lets
  with_reducible exact Dev.brzCmd_keeps kp hd (fun _ k1 => (kp.ite_fst (fun _ => (kp.upd k1)) fun _ => k1))

theorem Dev.pollDone_keeps (kp : Keeps P) {d : Dev} (hd : P d) {c : Nat} : P (Dev.pollDone d c) := by
  unfold Dev.pollDone
  lift_lets
  intro src
  split
  · with_reducible exact hd
  · lift_lets
    intro d1 x y
    with_reducible have hd1 : P d1 := kp.upd hd
    with_reducible have hx : P x.2 := Dev.busRead_keeps kp hd1
    with_reducible have hy : P y.2 := Dev.busRead_keeps kp (Dev.pass_keeps kp hd1)
    with_reducible exact kp.ite (fun _ => (Dev.brzRsp_keeps kp hx)) fun _ => Dev.brzRsp_keeps kp hy

theorem Dev.brzFmread_keeps (kp : Keeps P) {d : Dev} (hd : P d) {c seq count addr : Nat} {es : List EccEvent} : P
    (Dev.brzFmread d c seq count addr es) := by
  unfold Dev.brzFmread
  lift_lets
  with_reducible exact Dev.brzCmd_keeps kp hd (fun _ k1 => (kp.ite_fst (fun _ => (Dev.fmRead_keeps kp k1)) fun _ => k1))

theorem Dev.fmSplit_keeps (kp : KeepsMem P) {d : Dev} (hd : P d) {addr x2 : Nat} {x3 : List Nat} : P (Dev.fmSplit d addr
    x2 x3) := by
  unfold Dev.fmSplit
  split
  · with_reducible exact hd
  · with_reducible exact hd
  · lift_lets
    intro n d1
    with_reducible have hd1 : P d1 := Dev.fmGuard_keeps kp.toKeeps hd (fun _ k1 => (Dev.fmWrite_keeps kp k1))
    with_reducible exact Dev.fmSplit_keeps kp hd1

theorem Dev.brzFmwrite_keeps (kp : KeepsMem P) {d : Dev} (hd : P d) {c seq count addr : Nat} {ws : List (BitVec 64)} : P
    (Dev.brzFmwrite d c seq count addr ws) := by
  unfold Dev.brzFmwrite
  with_reducible exact Dev.brzCmd_keeps kp.toKeeps hd (fun _ k1 => (kp.ite_fst (fun _ => (Dev.fmSplit_keeps kp k1)) fun _
                   => k1))

theorem Dev.brzInfo_keeps (kp : Keeps P) {d : Dev} (hd : P d) {c seq op count : Nat} : P (Dev.brzInfo d c seq op count)
    := by
  unfold Dev.brzInfo
  with_reducible exact Dev.brzCmd_keeps kp hd (fun _ k1 => (kp.ite_fst (fun _ => k1) fun _ => k1))

theorem Dev.slvError_keeps (kp : Keeps P) {d : Dev} (hd : P d) {psp : Bool} {info : Word} : P (Dev.slvError d psp
    info) := by
  unfold Dev.slvError
  lift_lets
  intro d1
  with_reducible have hd1 : P d1 := Dev.count_keeps kp (Dev.setF_keeps kp hd)
  with_reducible exact Dev.raise_keeps kp hd1

theorem Dev.slvWrite_keeps (kp : Keeps P) {d : Dev} (hd : P d) {psp : Bool} {addr : Nat} {ws : List Word} : P
    (Dev.slvWrite d psp addr ws) := by
  unfold Dev.slvWrite
  lift_lets
  intro x
  with_reducible have hx : P x.1 := kp.fst_eq (Dev.writeRun_keeps kp hd) rfl
  split
  · with_reducible exact Dev.slvError_keeps kp hx
  · with_reducible exact hx

theorem Dev.fmBytes_keeps (kp : KeepsMem P) {d : Dev} (hd : P d) {addr : Nat} {bs : List Nat} : P (Dev.fmBytes d addr bs)
    := by
  unfold Dev.fmBytes
  with_reducible exact kp.foldl hd (fun _ _ k1 => (Dev.fmWrite_keeps kp k1))

theorem Dev.slvBuffer_keeps (kp : KeepsMem P) {d : Dev} (hd : P d) {off : Nat} {bs : List Nat} : P (Dev.slvBuffer d off
    bs) := by
  unfold Dev.slvBuffer
  lift_lets
  intro a
  with_reducible exact (kp.ite (fun _ => hd) fun _ => (by
          split
          · with_reducible exact Dev.raise_keeps kp.toKeeps (Dev.count_keeps kp.toKeeps hd)
          · with_reducible exact (Dev.fmBytes_keeps kp hd)))

theorem Dev.slvBuf_keeps (kp : KeepsMem P) {d : Dev} (hd : P d) {psp : Bool} {off most : Nat} {bs : List Nat} : P
    (Dev.slvBuf d psp off most bs) := by
  unfold Dev.slvBuf
  lift_lets
  intro n d1
  with_reducible have hd1 : P d1 := Dev.slvBuffer_keeps kp hd
  with_reducible exact kp.ite (fun _ => (Dev.slvError_keeps kp.toKeeps hd1)) fun _ => hd1

theorem Dev.sspWriteReg_keeps (kp : Keeps P) {d : Dev} (hd : P d) {addr : Nat} {ws : List Word} : P (Dev.sspWriteReg d
    addr ws) := by
  unfold Dev.sspWriteReg
  with_reducible exact kp.ite (fun _ => (Dev.slvWrite_keeps kp hd)) fun _ => hd

theorem Dev.sspReadReg_keeps (kp : Keeps P) {d : Dev} (hd : P d) {addr n : Nat} : P (Dev.sspReadReg d addr n) := by
  unfold Dev.sspReadReg
  lift_lets
  intro x
  with_reducible have hx : P x.2 := Dev.readRun_keeps kp hd
  with_reducible exact kp.ite (fun _ => (Dev.send_keeps kp hx)) fun _ => hd

theorem Dev.sspWriteBuf_keeps (kp : KeepsMem P) {d : Dev} (hd : P d) {off : Nat} {bs : List Nat} : P (Dev.sspWriteBuf d
    off bs) := by
  unfold Dev.sspWriteBuf
  with_reducible exact kp.ite (fun _ => (Dev.slvBuf_keeps kp hd)) fun _ => hd

theorem Dev.sspStatus_keeps (kp : Keeps P) {d : Dev} (hd : P d) : P (Dev.sspStatus d) := by
  unfold Dev.sspStatus
  with_reducible exact kp.ite (fun _ => (Dev.send_keeps kp (Dev.setF_keeps kp hd))) fun _ => hd

theorem Dev.pspAccess_keeps (kp : KeepsMem P) {d : Dev} (hd : P d) {write : Bool} {addr : Nat} {ws : List Word} {n : Nat}
    : P (Dev.pspAccess d write addr ws n) := by
  unfold Dev.pspAccess
  lift_lets
  intro off x d1 x_1
  with_reducible have hd1 : P d1 := Dev.send_keeps kp.toKeeps hd
  with_reducible have hx_1 : P x_1.2 := Dev.readRun_keeps kp.toKeeps hd
  with_reducible exact kp.ite (fun _ => hd) fun _ => (kp.ite (fun _ => (kp.ite (fun _ => (Dev.slvBuf_keeps kp hd)) fun _
                   => (kp.ite (fun _ => (Dev.slvError_keeps kp.toKeeps hd1)) fun _ => hd1))) fun _ => (kp.ite (fun _ =>
                   (Dev.slvWrite_keeps kp.toKeeps hd)) fun _ => (Dev.send_keeps kp.toKeeps hx_1)))

theorem Dev.setCmdCtr_keeps (kp : Keeps P) {d : Dev} (hd : P d) {id n : Nat} : P (Dev.setCmdCtr d id n) := by
  unfold Dev.setCmdCtr
  with_reducible exact Dev.setReg_keeps kp (Dev.setReg_keeps kp hd)

theorem Dev.testFailed_keeps (kp : Keeps P) {d : Dev} (hd : P d) {id res : Nat} : P (Dev.testFailed d id res) := by
  unfold Dev.testFailed
  lift_lets
  intro d1 src
  with_reducible have hd1 : P d1 := Dev.count_keeps kp hd
  with_reducible exact kp.ite (fun _ => (Dev.count_keeps kp hd)) fun _ => kp.ite (fun _ => (kp.upd hd1)) fun _ => hd

theorem Dev.critWrite_keeps (kp : Keeps P) {d : Dev} (hd : P d) {c : Cls} {i off : Nat} {r : RegSpec} {v mask : Word} : P
    (Dev.critWrite d c i off r v mask).1 := by
  unfold Dev.critWrite
  lift_lets
  intro a old crit w1c ask new
  with_reducible exact kp.ite_fst (fun _ => hd) fun _ => (kp.ite_fst (fun _ => hd) fun _ => (Dev.react_keeps kp
                   (Dev.put_keeps kp hd)))

theorem Dev.doWriteCrit_keeps (kp : Keeps P) {d : Dev} (hd : P d) {args : List Nat} : P (Dev.doWriteCrit d args).1 := by
  unfold Dev.doWriteCrit
  lift_lets
  intro a
  split
  · split
    · with_reducible exact Dev.critWrite_keeps kp hd
    · with_reducible exact hd
  · with_reducible exact hd

theorem Dev.doLockOverride_keeps (kp : Keeps P) {d : Dev} (hd : P d) {args : List Nat} : P (Dev.doLockOverride d
    args).1 := by
  unfold Dev.doLockOverride
  lift_lets
  intro p m d1
  with_reducible have hd1 : P d1 := Dev.setFlag_keeps kp hd
  split
  · lift_lets
    intro pins
    with_reducible exact kp.ite_fst (fun _ => hd) fun _ => kp.ite_fst (fun _ => hd) fun _ => kp.ite (fun _ =>
                     (Dev.unlockPins_keeps kp hd1)) fun _ => hd1
  · with_reducible exact hd

theorem Dev.loadKey_keeps (kp : Keeps P) {d : Dev} (hd : P d) {k v : Nat} : P (Dev.loadKey d k v) := by
  unfold Dev.loadKey
  lift_lets
  intro d1
  with_reducible have hd1 : P d1 := Dev.setKey_keeps kp hd
  with_reducible exact kp.ite (fun _ => (Dev.setCmdCtr_keeps kp (Dev.setCmdCtr_keeps kp (Dev.setCmdCtr_keeps kp
                   hd1)))) fun _ => hd1

theorem Dev.doKeyLoad_keeps (kp : Keeps P) {d : Dev} (hd : P d) {env args : List Nat} : P (Dev.doKeyLoad d env
    args).1 := by
  unfold Dev.doKeyLoad
  lift_lets
  intro k
  exact kp.ite_fst (fun _ => hd) fun _ => by
      split
      · with_reducible exact hd
      · with_reducible exact kp.ite_fst (fun _ => hd) fun _ => Dev.loadKey_keeps kp hd

theorem Dev.doKeyLoadSigned_keeps (kp : Keeps P) {d : Dev} (hd : P d) {env args : List Nat} : P (Dev.doKeyLoadSigned
    d env args).1 := by
  unfold Dev.doKeyLoadSigned
  lift_lets
  intro k off blk
  with_reducible exact kp.ite_fst (fun _ => hd) fun _ => Dev.loadKey_keeps kp (Dev.setF_keeps kp hd)

theorem Dev.doKeyErase_keeps (kp : Keeps P) {d : Dev} (hd : P d) {args : List Nat} : P (Dev.doKeyErase d args).1 := by
  unfold Dev.doKeyErase
  with_reducible exact kp.ite_fst (fun _ => hd) fun _ => Dev.setKey_keeps kp hd

theorem Dev.blow_keeps (kp : Keeps P) {d : Dev} (hd : P d) {f : Nat} {set : Dev → Dev} (hset : ∀ y0, P y0 → P (set
    y0)) {ok : Bool} : P (Dev.blow d f set ok).1 := by
  unfold Dev.blow
  with_reducible exact kp.ite_fst (fun _ => (Dev.raise_keeps kp (hset _ hd))) fun _ => Dev.raise_keeps kp hd

theorem Dev.setHash_keeps (kp : Keeps P) {d : Dev} (hd : P d) {f : Fld} {h : List Nat} : P (Dev.setHash d f h) := by
  unfold Dev.setHash
  with_reducible exact kp.foldl hd (fun _ _ k3 => Dev.setReg_keeps kp k3)

theorem Dev.blowOpk_keeps (kp : Keeps P) {d : Dev} (hd : P d) {f : Nat} {h : List Nat} {ok : Bool} : P (Dev.blowOpk d
    f h ok).1 := by
  unfold Dev.blowOpk
  lift_lets
  intro set reg
  with_reducible exact kp.ite_fst (fun _ => hd) fun _ => kp.ite_fst (fun _ => hd) fun _ => Dev.blow_keeps kp hd (fun
                   _ k2 => by
      lift_lets
      intro e1
      with_reducible have he1 : P e1 := Dev.setHash_keeps kp k2
      with_reducible exact kp.ite (fun _ => (kp.ite (fun _ => he1) fun _ => Dev.jtagLock_keeps kp (Dev.setF_keeps kp
                       he1))) fun _ => Dev.setF_keeps kp he1)

theorem Dev.blowKimg_keeps (kp : Keeps P) {d : Dev} (hd : P d) {env blob : List Nat} {ok : Bool} : P (Dev.blowKimg d
    env blob ok).1 := by
  unfold Dev.blowKimg
  split
  · with_reducible exact hd
  · with_reducible exact kp.ite_fst (fun _ => hd) fun _ => Dev.blow_keeps kp hd (fun _ k3 => Dev.setF_keeps kp
                     (kp.upd k3))

theorem Dev.blowArc_keeps (kp : Keeps P) {d : Dev} (hd : P d) {f n : Nat} {ok : Bool} : P (Dev.blowArc d f n ok).1 :=
    by
  unfold Dev.blowArc
  lift_lets
  intro c
  with_reducible exact kp.ite_fst (fun _ => hd) fun _ => Dev.blow_keeps kp hd (fun _ k2 => by
      lift_lets
      intro e1
      with_reducible have he1 : P e1 := Dev.setF_keeps kp k2
      with_reducible exact kp.ite (fun _ => (Dev.raise_keeps kp he1)) fun _ => he1)

theorem Dev.blowBit_keeps (kp : Keeps P) {d : Dev} (hd : P d) {f : Nat} {ok : Bool} : P (Dev.blowBit d f ok).1 := by
  unfold Dev.blowBit
  with_reducible exact kp.ite_fst (fun _ => (kp.ite_fst (fun _ => (Dev.blow_keeps kp hd (fun _ k2 => Dev.setF_keeps
                   kp k2))) fun _ => hd)) fun _ => kp.ite_fst (fun _ => (Dev.blow_keeps kp hd (fun _ k2 => kp.foldl
                   (Dev.setF_keeps kp k2) (fun _ _ k3 => Dev.partFollow_keeps kp k3)))) fun _ => kp.ite_fst (fun _ =>
                   (Dev.blow_keeps kp hd (fun _ k2 => Dev.setF_keeps kp k2))) fun _ => Dev.blow_keeps kp hd (fun _ k2
                   => Dev.setF_keeps kp k2)

theorem Dev.doFuseProg_keeps (kp : Keeps P) {d : Dev} (hd : P d) {env args : List Nat} {ok : Bool} : P
    (Dev.doFuseProg d env args ok).1 := by
  unfold Dev.doFuseProg
  lift_lets
  intro f data
  split
  · with_reducible exact hd
  · with_reducible exact kp.ite_fst (fun _ => hd) fun _ => kp.ite_fst (fun _ => (Dev.blowOpk_keeps kp hd)) fun _ =>
                     kp.ite_fst (fun _ => (Dev.blowKimg_keeps kp hd)) fun _ => kp.ite_fst (fun _ =>
                     (Dev.blowArc_keeps kp hd)) fun _ => Dev.blowBit_keeps kp hd

theorem Dev.doSlotWrite_keeps (kp : Keeps P) {d : Dev} (hd : P d) {args : List Nat} : P (Dev.doSlotWrite d args).1 :=
    by
  unfold Dev.doSlotWrite
  with_reducible exact kp.ite_fst (fun _ => hd) fun _ => kp.ite_fst (fun _ => hd) fun _ => Dev.storeStart_keeps kp hd

theorem Dev.doSlotErase_keeps (kp : Keeps P) {d : Dev} (hd : P d) {args : List Nat} : P (Dev.doSlotErase d args).1 :=
    by
  unfold Dev.doSlotErase
  with_reducible exact kp.ite_fst (fun _ => hd) fun _ => kp.ite_fst (fun _ => hd) fun _ => Dev.setF_keeps kp hd

theorem Dev.doBankWrite_keeps (kp : Keeps P) {d : Dev} (hd : P d) {args : List Nat} : P (Dev.doBankWrite d args).1 :=
    by
  unfold Dev.doBankWrite
  lift_lets
  intro b
  with_reducible exact kp.ite_fst (fun _ => hd) fun _ => kp.ite_fst (fun _ => hd) fun _ => Dev.storeStart_keeps kp hd

theorem Dev.bankWriteDone_keeps (kp : Keeps P) {d : Dev} (hd : P d) : P (Dev.bankWriteDone d) := by
  unfold Dev.bankWriteDone
  lift_lets
  intro d1 d2
  with_reducible have hd1 : P d1 := Dev.storeEnd_keeps kp hd
  with_reducible have hd2 : P d2 := Dev.raise_keeps kp hd1
  split
  · with_reducible exact hd
  · with_reducible exact kp.ite (fun _ => (kp.ite (fun _ => (kp.ite (fun _ => (Dev.sysReset_keeps kp hd2)) fun _ => hd2))
                     fun _ => (Dev.raise_keeps kp hd1))) fun _ => hd

theorem Dev.doCalOverwrite_keeps (kp : Keeps P) {d : Dev} (hd : P d) {args : List Nat} : P (Dev.doCalOverwrite d
    args).1 := by
  unfold Dev.doCalOverwrite
  lift_lets
  intro k n src
  with_reducible exact kp.ite_fst (fun _ => hd) fun _ => kp.ite_fst (fun _ => (kp.ite_fst (fun _ => hd) fun _ =>
                   Dev.reinstate_keeps kp hd)) fun _ => kp.ite_fst (fun _ => hd) fun _ => kp.upd hd

theorem Dev.doKeeperReload_keeps (kp : Keeps P) {d : Dev} (hd : P d) {id : Nat} {args : List Nat} : P
    (Dev.doKeeperReload d id args).1 := by
  unfold Dev.doKeeperReload
  lift_lets
  intro s who
  with_reducible exact kp.ite_fst (fun _ => hd) fun _ => kp.ite_fst (fun _ => hd) fun _ => kp.ite_fst (fun _ =>
                   (Dev.loadStart_keeps kp hd)) fun _ => kp.ite_fst (fun _ => hd) fun _ => Dev.loadStart_keeps kp hd

theorem Dev.doDebugUnlock_keeps (kp : Keeps P) {d : Dev} (hd : P d) {args : List Nat} : P (Dev.doDebugUnlock d
    args).1 := by
  unfold Dev.doDebugUnlock
  with_reducible exact kp.ite_fst (fun _ => (Dev.newChal_keeps kp hd)) fun _ => kp.ite_fst (fun _ =>
                   (Dev.newChal_keeps kp hd)) fun _ => Dev.newChal_keeps kp (Dev.jtagUnlock_keeps kp hd)

theorem Dev.critDo_keeps (kp : Keeps P) {d : Dev} (hd : P d) {id : Nat} {b : List Nat} {ok : Bool} : P (Dev.critDo d id b
    ok).1 := by
  unfold Dev.critDo
  lift_lets
  intro args
  split
  · with_reducible exact Dev.doWriteCrit_keeps kp hd
  · with_reducible exact Dev.doLockOverride_keeps kp hd
  · with_reducible exact Dev.doKeyLoad_keeps kp hd
  · with_reducible exact Dev.doKeyLoadSigned_keeps kp hd
  · with_reducible exact Dev.doKeyErase_keeps kp hd
  · with_reducible exact Dev.doFuseProg_keeps kp hd
  · with_reducible exact Dev.doSlotWrite_keeps kp hd
  · with_reducible exact Dev.doSlotErase_keeps kp hd
  · with_reducible exact Dev.doBankWrite_keeps kp hd
  · with_reducible exact Dev.doCalOverwrite_keeps kp hd
  · with_reducible exact Dev.doKeeperReload_keeps kp hd
  · with_reducible exact Dev.doDebugUnlock_keeps kp hd
  · with_reducible exact hd

theorem Dev.critNote_keeps (kp : Keeps P) {d : Dev} (hd : P d) {id res : Nat} {b : List Nat} : P (Dev.critNote d id
    res b) := by
  unfold Dev.critNote
  with_reducible exact Dev.raise_keeps kp hd

theorem Dev.critExec_keeps (kp : Keeps P) {d : Dev} (hd : P d) {id : Nat} {b : List Nat} {ok : Bool} : P (Dev.critExec d
    id b ok).1 := by
  unfold Dev.critExec
  lift_lets
  intro d0 t r
  with_reducible have hd0 : P d0 := Dev.pass_keeps kp hd
  with_reducible have hr : P r.1 := kp.fst_eq (Dev.critDo_keeps kp (Dev.setCmdCtr_keeps kp hd0)) rfl
  with_reducible exact kp.ite_fst (fun _ => (Dev.critNote_keeps kp hr)) fun _ => (Dev.critNote_keeps kp
                   (Dev.testFailed_keeps kp hd0))

theorem Dev.mailDone_keeps (kp : Keeps P) {d : Dev} (hd : P d) {m op res : Nat} : P (Dev.mailDone d m op res) := by
  unfold Dev.mailDone
  with_reducible exact Dev.setReg_keeps kp hd

theorem Dev.mailCmd_keeps (kp : Keeps P) {d : Dev} (hd : P d) {op m : Nat} {ok : Bool} : P (Dev.mailCmd d op m ok) := by
  unfold Dev.mailCmd
  lift_lets
  intro b r
  with_reducible have hr : P r.1 := kp.fst_eq (Dev.critExec_keeps kp hd) rfl
  with_reducible exact kp.ite (fun _ => (Dev.mailDone_keeps kp hr)) fun _ => hd

theorem Dev.authCmd_keeps (kp : Keeps P) {d : Dev} (hd : P d) {op c seq : Nat} {b : List Nat} {ok : Bool} : P
    (Dev.authCmd d op c seq b ok) := by
  unfold Dev.authCmd
  with_reducible exact kp.ite (fun _ => (Dev.brzCmd_keeps kp hd (fun _ k1 => (Dev.critExec_keeps kp k1)))) fun _ => hd

theorem Dev.repsDue_keeps (kp : Keeps P) {d : Dev} (hd : P d) : P (Dev.repsDue d) := by
  unfold Dev.repsDue
  with_reducible exact kp.foldl hd (fun _ _ k2 => Dev.repsAgain_keeps kp k2)

theorem Dev.dues_keeps (kp : Keeps P) {d : Dev} (hd : P d) : P (Dev.dues d) := by
  unfold Dev.dues
  with_reducible exact Dev.checkDue_keeps kp (Dev.waitsDue_keeps kp (Dev.hoDue_keeps kp (Dev.rowsFollow_keeps kp
                   (Dev.repsDue_keeps kp hd))))

theorem Dev.settle_keeps (kp : Keeps P) {old : Dev} (_hold : P old) {d : Dev} (hd : P d) : P (Dev.settle old d) := by
  unfold Dev.settle
  lift_lets
  intro d0 d1
  with_reducible have hd0 : P d0 := kp.ite (fun _ => (Dev.stepSlots_keeps kp hd)) fun _ => hd
  with_reducible have hd1 : P d1 := Dev.dues_keeps kp hd0
  with_reducible exact kp.ite (fun _ => (Dev.count_keeps kp hd1)) fun _ => hd1

theorem Dev.quiet_keeps (kp : Keeps P) {d : Dev} (hd : P d) : P (Dev.quiet d) := by
  unfold Dev.quiet
  with_reducible exact kp.upd hd

theorem Dev.ran_keeps (kp : Keeps P) {d : Dev} (hd : P d) {on : Bool} {f : Dev → Dev} (hf : ∀ y0, P y0 → P (f y0)) : P
    (Dev.ran d on f) := by
  unfold Dev.ran
  with_reducible exact kp.ite (fun _ => (Dev.settle_keeps kp (Dev.quiet_keeps kp hd) (hf _ (Dev.quiet_keeps kp hd)))) fun
                   _ => (Dev.quiet_keeps kp hd)

theorem Dev.cmdWrite_keeps (kp : Keeps P) {d : Dev} (hd : P d) {src : Source} {c : Cls} {i : Nat} {f : Fld} {v : Word} :
    P (Dev.cmdWrite d src c i f v) := by
  unfold Dev.cmdWrite
  with_reducible exact Dev.regWrite_keeps kp hd

theorem Dev.hdrWrite_keeps (kp : Keeps P) {d : Dev} (hd : P d) {src : Source} {page : Nat} {f : Fld} {v : Word} : P
    (Dev.hdrWrite d src page f v) := by
  unfold Dev.hdrWrite
  with_reducible exact Dev.regWrite_keeps kp hd

theorem Dev.targetWrite_keeps (kp : Keeps P) {d : Dev} (hd : P d) {x1 : RegTarget} : P (Dev.targetWrite d x1) := by
  unfold Dev.targetWrite
  split
  · with_reducible exact Dev.busWrite_keeps kp hd
  · with_reducible exact Dev.bar4Write_keeps kp hd
  · with_reducible exact Dev.setDeadline_keeps kp hd
  · with_reducible exact Dev.msixControl_keeps kp hd

theorem Dev.readOut_keeps (kp : Keeps P) {d : Dev} (hd : P d) {src : Source} {a : Nat} : P (Dev.readOut d src a) := by
  unfold Dev.readOut
  with_reducible exact Dev.send_keeps kp (Dev.busRead_keeps kp hd)

theorem Dev.bramStep_keeps (kp : Keeps P) {d : Dev} (hd : P d) {n b : Nat} {pa pb : Option BramOp} : P (Dev.bramStep
    d n b pa pb) := by
  unfold Dev.bramStep
  lift_lets
  intro d1
  with_reducible have hd1 : P d1 := Dev.bramAccess_keeps kp hd
  with_reducible exact kp.ite (fun _ => (Dev.hoBramUe_keeps kp hd1)) fun _ => hd1

theorem Dev.critCmd_keeps (kp : Keeps P) {d : Dev} (hd : P d) {op : Nat} {x : Carrier} {ok : Bool} : P (Dev.critCmd d op
    x ok) := by
  unfold Dev.critCmd
  split
  · with_reducible exact Dev.mailCmd_keeps kp hd
  · with_reducible exact Dev.authCmd_keeps kp hd

theorem Dev.mcgPulses_keeps (kp : Keeps P) {d : Dev} (hd : P d) : P (Dev.mcgPulses d) := by
  unfold Dev.mcgPulses
  with_reducible exact kp.foldl hd (fun _ _ k2 => kp.ite (fun _ => (by
      lift_lets
      intro r v e1
      with_reducible have he1 : P e1 := kp.ite (fun _ => (Dev.pinPulse_keeps kp k2)) fun _ => k2
      with_reducible exact kp.ite (fun _ => (Dev.pinPulse_keeps kp he1)) fun _ => he1)) fun _ => k2)

theorem Dev.tick_keeps (kp : Keeps P) {d : Dev} (hd : P d) : P (Dev.tick d) := by
  unfold Dev.tick
  lift_lets
  intro d1
  with_reducible have hd1 : P d1 := Dev.pass_keeps kp (Dev.quiet_keeps kp hd)
  with_reducible exact Dev.settle_keeps kp (Dev.quiet_keeps kp hd) (kp.ite (fun _ => (Dev.mcgPulses_keeps kp
                   (Dev.serTick_keeps kp (Dev.fabricTick_keeps kp (Dev.lanesTick_keeps kp hd1))))) fun _ => hd1)

end Sys2Proof.Machine
end

