-- ==== Sys2Proof/Laws/Refuse.lean ====
section
/-! SUPPORT. Which registers an event, a counter and a refused write can change, and what a refused write is. -/

namespace Sys2Proof.Machine

open Sys2Proof

/-- A register outside the notice registers of the `NTC` page. -/
def NotNtc (b : Nat) : Prop := b < pg .ntc 0 ∨ pg .ntc 0 + 0x1000 ≤ b

theorem Dev.bumpReg_raw (d : Dev) {a b : Nat} (n : Nat) (h : b ≠ a) : (d.bumpReg a n).1.raw b = d.raw b :=
  d.raw_put_of_ne _ h

theorem Dev.emitTo_raw (d : Dev) {code sev q page b : Nat} {w4 w5 w6 w7 : Word} (hq : q < 16) (hb : NotNtc b) :
    (d.emitTo code sev q page w4 w5 w6 w7).1.raw b = d.raw b := by
  have h1 : b ≠ pg .ntc 0 + (NTC.NQ_SEQ.at q).off := by unfold NotNtc at hb; simp [Fld.at, NTC.NQ_SEQ]; omega
  have h2 : b ≠ pg .ntc 0 + (NTC.NQ_SEQ_EPOCH.at q).off := by unfold NotNtc at hb; simp [Fld.at, NTC.NQ_SEQ_EPOCH]; omega
  have h3 : b ≠ pg .ntc 0 + (NTC.NQ_LOST_CNT.at q).off := by unfold NotNtc at hb; simp [Fld.at, NTC.NQ_LOST_CNT]; omega
  have h4 : b ≠ pg .ntc 0 + (NTC.NQ_LOST_B_CNT.at q).off := by unfold NotNtc at hb; simp [Fld.at, NTC.NQ_LOST_B_CNT]; omega
  have k : ∀ (c : Prop) [Decidable c] (x y : Dev × Bool), x.1.raw b = d.raw b → y.1.raw b = d.raw b →
      (if c then x else y).1.raw b = d.raw b := fun c _ x y h g => by split <;> assumption
  have e1 := k ((d.reg (pg .ntc 0) (NTC.NQ_SEQ.at q)).toNat = 0xFFFFFFFF)
    ((d.setReg (pg .ntc 0) (NTC.NQ_SEQ.at q) (BitVec.ofNat 32 ((d.reg (pg .ntc 0) (NTC.NQ_SEQ.at q)).toNat + 1))).bumpReg
      (pg .ntc 0 + (NTC.NQ_SEQ_EPOCH.at q).off) 1)
    (d.setReg (pg .ntc 0) (NTC.NQ_SEQ.at q) (BitVec.ofNat 32 ((d.reg (pg .ntc 0) (NTC.NQ_SEQ.at q)).toNat + 1)), false)
    ((Dev.bumpReg_raw _ _ h2).trans (d.raw_put_of_ne _ h1)) (d.raw_put_of_ne _ h1)
  have step : ∀ (c : Prop) [Decidable c] (x : Dev) (a : Nat), b ≠ a → x.raw b = d.raw b →
      (if c then (x, false) else x.bumpReg a 1).1.raw b = d.raw b := fun c _ x a ha hx =>
    k _ _ _ hx ((x.bumpReg_raw _ ha).trans hx)
  exact step _ _ _ h4 (step _ _ _ h3 e1)

theorem Dev.emit_raw (d : Dev) {code sev q page b : Nat} {w4 w5 w6 w7 : Word} (hq : q < 16) (hb : NotNtc b) :
    (d.emit code sev q page w4 w5 w6 w7).1.raw b = d.raw b := by
  unfold Dev.emit; split
  · rfl
  · exact d.emitTo_raw hq hb

theorem Dev.raiseRaw_raw (d : Dev) {p bit code sev b : Nat} {w4 w5 w6 w7 : Word} (hp : b ≠ p + HDR.EVT_STAT.off)
    (hb : NotNtc b) : (d.raiseRaw p bit code sev w4 w5 w6 w7).1.raw b = d.raw b := by
  unfold Dev.raiseRaw
  extract_lets always en sel d1 q
  have h1 : d1.raw b = d.raw b := d.raw_put_of_ne _ hp
  split
  · split
    · refine (d1.emit_raw ?_ hb).trans h1
      show (if sev = 3 then 0 else if sev = 2 then 1 else d1.fld p HDR.QUEUE) < 16
      have : d1.fld p HDR.QUEUE < 16 := by
        unfold Dev.fld bitsOf; exact Nat.lt_of_lt_of_le (Nat.mod_lt _ (by decide)) (by decide)
      split
      · omega
      · split <;> omega
    · exact h1
  · rfl

/-- An event leaves every register but the event status of its page and the notice registers as it was. -/
theorem Dev.raiseCode_raw (d : Dev) {p bit code sev b : Nat} {w4 w5 w6 w7 : Word} (hp : b ≠ p + HDR.EVT_STAT.off)
    (hb : NotNtc b) : (d.raiseCode p bit code sev w4 w5 w6 w7).raw b = d.raw b := by
  unfold Dev.raiseCode
  have hn : b ≠ pg .ntc 0 + HDR.EVT_STAT.off := by unfold NotNtc at hb; simp [HDR.EVT_STAT]; omega
  have : ∀ (l : List Nat) (e : Dev), e.raw b = d.raw b →
      (l.foldl (fun d off => (d.raiseRaw (pg .ntc 0) 1 0x0003 0 (BitVec.ofNat 32 off) 0 0 0).1) e).raw b = d.raw b := by
    intro l
    induction l with
    | nil => exact fun e h => h
    | cons a t ih => exact fun e h => ih _ ((e.raiseRaw_raw hn hb).trans h)
  exact this _ _ (d.raiseRaw_raw hp hb)

theorem Dev.count_raw (d : Dev) {p b : Nat} {f : Fld} {n : Nat} (hf : b ≠ p + f.off) (hp : b ≠ p + HDR.EVT_STAT.off)
    (hb : NotNtc b) : (d.count p f n).raw b = d.raw b := by
  unfold Dev.count
  dsimp only
  split
  · exact (Dev.raiseCode_raw _ hp hb).trans (d.bumpReg_raw _ hf)
  · exact d.bumpReg_raw _ hf

/-- A refusal changes the registers of refusal, the event status of the page and the notice registers, and no other. -/
theorem Dev.refuse_raw (d : Dev) {src : Source} {p off cause b : Nat} {v : Word} (h1 : b ≠ p + HDR.REFUSE_INFO.off)
    (h2 : b ≠ p + HDR.REFUSE_CNT.off) (h3 : b ≠ p + HDR.EVT_STAT.off) (hb : NotNtc b) :
    (d.refuse src p off cause v).raw b = d.raw b :=
  (Dev.raiseCode_raw _ h3 hb).trans ((Dev.count_raw _ h2 h3 hb).trans (d.raw_put_of_ne _ h1))

theorem Dev.refuse_only (d : Dev) (src : Source) (p off cause : Nat) (v : Word) : OnlyRegsNq d (d.refuse src p off cause v) :=
  ((OnlyRegsNq.put _ _ _).trans (Dev.count_only ..)).trans (Dev.raiseCode_only ..)

/-- A write of a register that answers, where no locked pin drops a bit of it, is judged and then accepted or refused. -/
theorem writePage_reg (d : Dev) (src : Source) {c : Cls} {i off : Nat} {r : RegSpec} {v : Word} {full : Bool}
    (hr : regAt c i off = some r) (hs : 0x800 ≤ off → r.isStaged = true)
    (hb : c = .iob → 0x40 ≤ off % 0x800 → d.iobDropped src i (off % 0x800) v = 0) :
    d.writePage src c i off v full = d.writeReg src c i off r v full := by
  unfold Dev.writePage
  simp only [hr]
  rw [if_neg (by rintro ⟨h1, h2⟩; simp [hs h1] at h2)]
  split
  · rename_i h
    unfold Dev.iobFilter
    simp only [hb h.1 h.2, if_true]
  · rfl

/-- A write that a cause of R31 applies to, of a register that answers: it is refused, a key sequence on the page is broken,
and the block notes a cause of its own. -/
theorem busWrite_refused (d : Dev) (src : Source) {c : Cls} {i off : Nat} {r : RegSpec} {v : Word} {full : Bool}
    (hi : i < c.info.count) (ho : off < 0x1000) (h4 : off % 4 = 0) (ha : d.answers c = true) (hr : regAt c i off = some r)
    (hs : 0x800 ≤ off → r.isStaged = true) (hb : c = .iob → 0x40 ≤ off % 0x800 → d.iobDropped src i (off % 0x800) v = 0)
    (hk : d.cause src c i off r v full ≠ 0) :
    (d.busWrite src (pg c i + off) v full .clean).1 =
      (let e := d.refuse src (pg c i) off (d.cause src c i off r v full) v
       let f : Dev := { e with
         lockSeq := Tab.del e.lockSeq (pg c i)
         pn := if c = .iob ∧ off ≠ IOB.PIN_LOCK.off then { e.pn with lockSeq := Tab.del e.pn.lockSeq i } else e.pn }
       if d.cause src c i off r v full = cBLOCK then f.blockNote c i off (r.want c off (d.raw (pg c i + off)) v) else f) := by
  have h1 := pg_lt hi
  have hm := pg_mod c i ho
  have hc := cls_aligned c
  unfold Dev.busWrite
  rw [if_neg (by omega), if_neg (by omega), if_neg (by omega), pageAt_pg hi ho]
  simp only [ha, if_true, hm]
  have hw := writePage_reg d src (full := full) hr hs hb
  rw [hw]
  unfold Dev.writeReg
  simp only [if_neg hk]
  have key : ∀ e : Dev, (if off = HDR.PAGE_LOCK.off then
      ({ e.breakLock c i off with lockSeq := Tab.del (e.breakLock c i off).lockSeq (pg c i) } : Dev) else e.breakLock c i off) =
      { e with lockSeq := Tab.del e.lockSeq (pg c i),
               pn := if c = .iob ∧ off ≠ IOB.PIN_LOCK.off then { e.pn with lockSeq := Tab.del e.pn.lockSeq i } else e.pn } := by
    intro e
    unfold Dev.breakLock Dev.pinLockBreak
    dsimp only
    split <;> split <;> rfl
  simp only [key]

end Sys2Proof.Machine
end

