-- ==== Sys2Proof/Laws/Resets.lean ====
section
/-! SUPPORT. What the wide resets leave: everything the table *Reset scopes* marks is at its reset value (R40). -/

namespace Sys2Proof.Machine

/-- The second device differs from the first at most in its registers and its slices. -/
def OnlyRegsAn (d e : Dev) : Prop := e = { d with regs := e.regs, an := { d.an with slices := e.an.slices } }

theorem OnlyRegsAn.refl (d : Dev) : OnlyRegsAn d d := rfl

theorem OnlyRegsAn.trans {d e f : Dev} (h : OnlyRegsAn d e) (g : OnlyRegsAn e f) : OnlyRegsAn d f := by
  unfold OnlyRegsAn at *; rw [g, h]

theorem OnlyRegsAn.setF (d : Dev) (p : Nat) (f : Fld) (n : Nat) : OnlyRegsAn d (d.setF p f n) := rfl

theorem OnlyRegsAn.setReg (d : Dev) (p : Nat) (f : Fld) (v : Word) : OnlyRegsAn d (d.setReg p f v) := rfl

theorem OnlyRegsAn.setSlice (d : Dev) (g s : Nat) (v : SliceSt) : OnlyRegsAn d (d.setSlice g s v) := rfl

theorem OnlyRegsAn.ite {d e f : Dev} {c : Prop} [Decidable c] (h : OnlyRegsAn d e) (g : OnlyRegsAn d f) :
    OnlyRegsAn d (if c then e else f) := by split <;> assumption

theorem OnlyRegsAn.foldl {α : Type} {f : Dev → α → Dev} (hf : ∀ d x, OnlyRegsAn d (f d x)) (l : List α) (d : Dev) :
    OnlyRegsAn d (l.foldl f d) := by
  induction l generalizing d with
  | nil => exact .refl d
  | cons x t ih => exact (hf d x).trans (ih (f d x))

/-- Before a field that is set. -/
theorem OnlyRegsAn.thenF {d e : Dev} (h : OnlyRegsAn d e) (p : Nat) (f : Fld) (n : Nat) : OnlyRegsAn d (e.setF p f n) :=
  h.trans (.setF e p f n)

/-- Before a register that is set. -/
theorem OnlyRegsAn.thenReg {d e : Dev} (h : OnlyRegsAn d e) (p : Nat) (f : Fld) (v : Word) : OnlyRegsAn d (e.setReg p f v) :=
  h.trans (.setReg e p f v)

/-- Before a field that keeps its value. -/
theorem OnlyRegsAn.thenKeep {d e : Dev} (h : OnlyRegsAn d e) (old : Dev) (p : Nat) (f : Fld) : OnlyRegsAn d (old.keepF e p f) :=
  h.trans (.setF e p f _)

theorem Dev.familyChanged_only (d : Dev) (g : Nat) : OnlyRegsAn d (d.familyChanged g) := by
  unfold Dev.familyChanged Dev.setFlag
  refine .foldl (fun x s => ?_) _ d
  exact .thenReg (.thenReg (.thenF (.refl x) _ _ _) _ _ _) _ _ _

theorem Dev.keepSlices_only (old e : Dev) (g : Nat) : OnlyRegsAn e (old.keepSlices e g) := by
  unfold Dev.keepSlices Dev.setFlag Dev.setSl
  refine .thenF (.thenF (.thenF (.trans (.foldl (fun x s => ?_) _ e) (Dev.familyChanged_only _ g)) _ _ _) _ _ _) _ _ _
  exact .ite (.thenF (.thenF (.thenKeep (.setSlice x _ _ _) _ _ _) _ _ _) _ _ _) (.thenKeep (.setSlice x _ _ _) _ _ _)

theorem Dev.keepCols_only (old e : Dev) (r : Nat) : OnlyRegsAn e (old.keepCols e r) := by
  unfold Dev.keepCols Dev.setCol
  refine .trans (.thenKeep (.thenKeep (.thenKeep (.refl e) _ _ _) _ _ _) _ _ _) (.foldl (fun x c => ?_) _ _)
  exact .ite (.thenF (.thenKeep (.refl x) _ _ _) _ _ _) (.thenKeep (.refl x) _ _ _)

theorem Dev.keepRows_only (old e : Dev) (b : Nat) : OnlyRegsAn e (old.keepRows e b) :=
  .thenKeep (.thenKeep (.refl e) _ _ _) _ _ _

theorem Dev.colReturn_only (d : Dev) (x : Nat) : OnlyRegsAn d (d.colReturn x) := by
  unfold Dev.colReturn
  dsimp only
  split
  · split
    · exact .thenF (.thenF (.setF d _ _ _) _ _ _) _ _ _
    · exact .thenF (.setF d _ _ _) _ _ _
  · split
    · exact .ite (.thenF (.thenF (.thenF (.setF d _ _ _) _ _ _) _ _ _) _ _ _) (.thenF (.thenF (.setF d _ _ _) _ _ _) _ _ _)
    · exact .setF d _ _ _

/-- Everything but registers and slices after a reset of the device. -/
theorem Dev.cleared_only (d : Dev) (porst : Bool) :
    OnlyRegsAn { Dev.reset with mono := d.mono, fresh := d.fresh, out := d.out, cw := d.cw.kept,
                                sto := { d.sto with job := none }, sec := d.sec.kept, pw := d.pw.kept porst } (d.cleared porst) := by
  have h0 : ∀ (e : Dev), OnlyRegsAn e (if e.owned then e.setF secPg SEC.UNLOCKED 0 else e) := fun e =>
    .ite (.setF e _ _ _) (.refl e)
  have h1 : ∀ e : Dev, OnlyRegsAn e
      (let e4 := (List.range 32).foldl (fun (e : Dev) b => d.keepRows e b) ((List.range 16).foldl (fun (e : Dev) r => d.keepCols e r)
        ((List.range 16).foldl (fun (e : Dev) g => d.keepSlices e g) (d.keepF (d.keepF e pwrPg PWR.RAIL_OK) pwrPg PWR.PFAIL)))
       if e4.owned then e4.setF secPg SEC.UNLOCKED 0 else e4) := fun e =>
    .trans (.trans (.trans (.trans (.thenKeep (.thenKeep (.refl e) _ _ _) _ _ _) (.foldl (fun e g => d.keepSlices_only e g) _ _))
      (.foldl (fun e g => d.keepCols_only e g) _ _)) (.foldl (fun e b => d.keepRows_only e b) _ _)) (h0 _)
  unfold Dev.cleared
  dsimp only
  refine OnlyRegsAn.trans ?_ (h1 _)
  rfl

end Sys2Proof.Machine
end

