-- ==== Sys2Proof/WellFormed.lean ====
section
/-! DEFINITION. Well-formed commands: what the types of the operands do not say themselves. A command whose operands break one
of these checks spells nothing that the outside can send or show. -/

namespace Sys2Proof

/-- A value of `n` bits. -/
def fits (n v : Nat) : Bool := decide (v < 2 ^ n)

/-- Every element of a list is a byte. -/
def areBytes (l : List Nat) : Bool := l.all (fits 8)

/-- A dword address (R16). -/
def dwordAligned (a : Nat) : Bool := decide (a % 4 = 0)

/-- A source writes under its own number; every source may write. The register written stands at a dword address. -/
def RegTarget.wf : RegTarget → Bool
  | .bar0 _ a _ _ => dwordAligned a.toNat
  | .bar4 a _ => dwordAligned a.toNat
  | .persDeadline _ => true
  | .msix _ _ => true

/-- What a slice gives for a word: its fast-path values are 24-bit values (R116, R127). -/
def SliceWord.wf (w : SliceWord) : Bool := w.fasts.all fun x => decide (-(2 ^ 23 : Int) ≤ x ∧ x < 2 ^ 23)

/-- A row of a coefficient memory (512 rows of 4 words) or of an instruction memory (256 instructions). -/
def ColRow.wf (x : ColRow) : Bool := if x.mem.val = 0 then decide (x.at_ < 512) else decide (x.at_ < 256)

/-- A memory flit (R275): 1 to 6 words, aligned, in frame memory, in one 1 KiB block, byte enables only for a single word. -/
def MemFlit.wf (m : MemFlit) : Bool :=
  let n := if m.write then m.data.length else m.count
  decide (1 ≤ n ∧ n ≤ 6) && decide (m.addr % 8 = 0) && decide (m.addr + 8 * n ≤ 2 ^ 28) &&
    decide (m.addr / 1024 = (m.addr + 8 * n - 1) / 1024) && (decide (n = 1) || decide (m.be = 0xFF))

/-- The fields of an RTP packet stand in their widths. -/
def RtpPacket.wf (p : RtpPacket) : Bool :=
  fits 16 p.udp && fits 7 p.pt && fits 32 p.seq && fits 32 p.ts && areBytes p.bytes &&
    p.segs.all fun s => areBytes s.bytes && decide (s.field < 2)

/-- A frame's bytes are bytes. -/
def EthFrame.wf : EthFrame → Bool
  | .rtp p b => p.wf && areBytes b
  | .ptp _ b => areBytes b
  | .host b => areBytes b
  | .multicast b => areBytes b
  | .control b => areBytes b
  | .badFcs b => areBytes b

/-- The fields of a descriptor stand in their widths (R441). -/
def Desc.wf (c : Desc) : Bool :=
  fits 4 c.op && fits 16 c.tag && fits 24 c.len && fits 64 c.haddr && fits 28 c.faddr && fits 28 c.fdst

/-- A block RAM access: the data is one 64-bit word, or 80 bits in raw mode (R358). -/
def BramOp.wf (o : BramOp) : Bool := fits 80 o.data

/-- What a survey finds on a lane: at most four reflections (R311). -/
def LaneSurvey.wf (x : LaneSurvey) : Bool := decide (x.refl.length ≤ 4)

/-- A list of dwords that a command frame announces by its count. -/
def counted {α : Type} (count : BitVec 16) (l : List α) : Bool := decide (l.length = count.toNat)

/-- The checks of each command. -/
def Instr.wf : Instr → Bool
  | .registerWrite x => x.wf
  | .flowBind _ addr _ => dwordAligned addr && fits 27 addr
  | .surveyEnd _ _ x => decide (-(2 ^ 23 : Int) ≤ x ∧ x < 2 ^ 23)
  | .devWindow _ xs => decide (xs.length = 384)
  | .wordEmit _ a b => a.wf && (match b with | some x => x.wf | none => true)
  | .hoReq _ _ port => decide (port.val < 9)
  | .repairPrepareDone _ _ rows _ => rows.all ColRow.wf
  | .flitSend _ _ ws => decide (ws.length ≤ 32)
  | .memoryAccess m es => m.wf && decide (es.length = if m.write then m.data.length else m.count)
  | .packetReceive _ x => x.wf
  | .refinMeasurement edges => !edges.isEmpty
  | .bramAccess _ _ pa pb => (match pa with | some o => o.wf | none => true) && (match pb with | some o => o.wf | none => true)
  | .ustoreRequest _ write _ data len => decide (1 ≤ len ∧ len ≤ 256) && (if write then decide (data.length = len) else data.isEmpty)
  | .fportRegAccess _ _ addr _ => dwordAligned addr.toNat
  | .storeWriteUnit log _ => match log with | some x => decide (x.2.length = 64) && decide (x.1.toNat % 64 = 0) | none => true
  | .aes3RxFrame _ _ _ _ _ _ _ cs => match cs with | some l => decide (l.length = 6) | none => true
  | .ethSurveyEnd _ lanes _ => decide (lanes.length ≤ 8) && lanes.all LaneSurvey.wf
  | .sqDoorbell _ _ ds => ds.all Desc.wf
  | .brizelWrite _ _ count _ ws => counted count ws
  | .fmwrite _ _ count _ ws => counted count ws
  | .pspTransaction write _ ws n => if write then decide (n = 0) && !ws.isEmpty else ws.isEmpty && decide (1 ≤ n)
  | .thermSample ts => decide (ts.length = 8)
  | .ageMeasure ss => decide (ss.length = 8)
  | _ => true

end Sys2Proof
end

