-- ==== Sys2Proof/Tests/Slice0.lean ====
section
/-! SUPPORT. Tests: ill-formed commands that the checks refuse, small steps with results taken from the rules, and for every
statement with hypotheses a state and operands that meet them. -/

open Sys2Proof Sys2Proof.Machine

namespace Sys2Proof.Tests

/-! ### Ill-formed terms, one for each check, which the check refuses -/

/-- A word of a slice with nothing in it. -/
def sw0 : SliceWord := ⟨0, [], []⟩

/-- A memory flit that is well formed: one word written at address 0. -/
def flit0 : MemFlit := ⟨0, true, 0, 0, 0, [0x0102030405060708], 0, 0xFF, 0⟩

/-- An RTP packet that is well formed. -/
def rtp0 : RtpPacket := ⟨0, false, 0, 0, 5004, 96, 0, 0, 0, false, [], [], []⟩

/-- A descriptor that is well formed: 16 bytes from the host to address 0. -/
def desc0 : Desc := ⟨0, false, 0, 16, 0, 0, 0⟩

theorem test_wf_good : (Instr.registerWrite (.bar0 .sup 4 0 true)).wf ∧ (Instr.memoryAccess flit0 [.clean]).wf ∧
    (Instr.packetReceive 0 (.rtp rtp0 [])).wf ∧ (Instr.sqDoorbell 0 0 [desc0]).wf := by decide
theorem test_wf_register_unaligned : (Instr.registerWrite (.bar0 .sup 2 0 true)).wf = false := by decide
theorem test_wf_flowBind_unaligned : (Instr.flowBind .sup 3 0).wf = false := by decide
theorem test_wf_flowBind_outside : (Instr.flowBind .sup 0x8000000 0).wf = false := by decide
theorem test_wf_surveyEnd_range : (Instr.surveyEnd 0 0 0x800000).wf = false ∧ (Instr.surveyEnd 0 0 (-0x800001)).wf = false := by
  decide
theorem test_wf_wordEmit_first : (Instr.wordEmit 0 { sw0 with fasts := [0x800000] } none).wf = false ∧
    (Instr.wordEmit 0 { sw0 with fasts := [-0x800001] } none).wf = false := by decide
theorem test_wf_devWindow : (Instr.devWindow 0 []).wf = false := by decide
theorem test_wf_wordEmit_second : (Instr.wordEmit 0 sw0 (some { sw0 with fasts := [0x800000] })).wf = false := by decide
theorem test_wf_hoReq_port : (Instr.hoReq .sup 0 9).wf = false := by decide
theorem test_wf_repair_row : (Instr.repairPrepareDone 0 0 [⟨0, 0, 512⟩] 0).wf = false ∧
    (Instr.repairPrepareDone 0 0 [⟨0, 1, 256⟩] 0).wf = false := by decide
theorem test_wf_flitSend_long : (Instr.flitSend 0 0 (List.replicate 33 ⟨0, 0, false⟩)).wf = false := by decide
theorem test_wf_flit_empty : (Instr.memoryAccess { flit0 with data := [] } []).wf = false := by decide
theorem test_wf_flit_long : (Instr.memoryAccess { flit0 with write := false, count := 7 } (List.replicate 7 .clean)).wf = false := by
  decide
theorem test_wf_flit_unaligned : (Instr.memoryAccess { flit0 with addr := 4 } [.clean]).wf = false := by decide
theorem test_wf_flit_outside : (Instr.memoryAccess { flit0 with addr := 0x10000000 } [.clean]).wf = false := by decide
theorem test_wf_flit_block : (Instr.memoryAccess { flit0 with addr := 1016, data := [0, 0] } [.clean, .clean]).wf = false := by
  decide
theorem test_wf_flit_enables : (Instr.memoryAccess { flit0 with data := [0, 0], be := 1 } [.clean, .clean]).wf = false := by decide
theorem test_wf_flit_events : (Instr.memoryAccess flit0 []).wf = false := by decide
theorem test_wf_rtp_udp : (Instr.packetReceive 0 (.rtp { rtp0 with udp := 65536 } [])).wf = false := by decide
theorem test_wf_rtp_pt : (Instr.packetReceive 0 (.rtp { rtp0 with pt := 128 } [])).wf = false := by decide
theorem test_wf_rtp_seq : (Instr.packetReceive 0 (.rtp { rtp0 with seq := 4294967296 } [])).wf = false := by decide
theorem test_wf_rtp_ts : (Instr.packetReceive 0 (.rtp { rtp0 with ts := 4294967296 } [])).wf = false := by decide
theorem test_wf_rtp_bytes : (Instr.packetReceive 0 (.rtp { rtp0 with bytes := [256] } [])).wf = false := by decide
theorem test_wf_rtp_segment : (Instr.packetReceive 0 (.rtp { rtp0 with segs := [⟨0, 0, 0, [256]⟩] } [])).wf = false := by decide
theorem test_wf_rtp_field : (Instr.packetReceive 0 (.rtp { rtp0 with segs := [⟨2, 0, 0, []⟩] } [])).wf = false := by decide
theorem test_wf_frame_bytes : (Instr.packetReceive 0 (.rtp rtp0 [256])).wf = false ∧ (Instr.packetReceive 0 (.ptp true [256])).wf = false ∧
    (Instr.packetReceive 0 (.host [256])).wf = false ∧ (Instr.packetReceive 0 (.multicast [256])).wf = false ∧
    (Instr.packetReceive 0 (.control [256])).wf = false ∧ (Instr.packetReceive 0 (.badFcs [256])).wf = false := by decide
theorem test_wf_refin_empty : (Instr.refinMeasurement []).wf = false := by decide
theorem test_wf_bram_data : (Instr.bramAccess 0 0 (some ⟨0, true, 0, 2 ^ 80, .clean, false⟩) none).wf = false ∧
    (Instr.bramAccess 0 0 none (some ⟨0, true, 0, 2 ^ 80, .clean, false⟩)).wf = false := by decide
theorem test_wf_ustore_length : (Instr.ustoreRequest 0 false 0 [] 0).wf = false ∧ (Instr.ustoreRequest 0 false 0 [] 257).wf = false := by
  decide
theorem test_wf_ustore_data : (Instr.ustoreRequest 0 true 0 [] 1).wf = false ∧ (Instr.ustoreRequest 0 false 0 [0] 1).wf = false := by
  decide
theorem test_wf_fport_unaligned : (Instr.fportRegAccess 0 0 2 none).wf = false := by decide
theorem test_wf_storeUnit_length : (Instr.storeWriteUnit (some (0, [])) false).wf = false := by decide
theorem test_wf_storeUnit_aligned : (Instr.storeWriteUnit (some (1, List.replicate 64 0)) false).wf = false := by decide
theorem test_wf_aes_status : (Instr.aes3RxFrame 0 0 0 true true false false (some [])).wf = false := by decide
theorem test_wf_ethSurvey_lanes : (Instr.ethSurveyEnd 0 (List.replicate 9 ⟨[], none⟩) none).wf = false := by decide
theorem test_wf_ethSurvey_reflections : (Instr.ethSurveyEnd 0 [⟨List.replicate 5 (0, 0), none⟩] none).wf = false := by decide
theorem test_wf_desc_fields : (Instr.sqDoorbell 0 0 [{ desc0 with op := 16 }]).wf = false ∧
    (Instr.sqDoorbell 0 0 [{ desc0 with tag := 65536 }]).wf = false ∧ (Instr.sqDoorbell 0 0 [{ desc0 with len := 2 ^ 24 }]).wf = false ∧
    (Instr.sqDoorbell 0 0 [{ desc0 with haddr := 2 ^ 64 }]).wf = false ∧
    (Instr.sqDoorbell 0 0 [{ desc0 with faddr := 2 ^ 28 }]).wf = false ∧
    (Instr.sqDoorbell 0 0 [{ desc0 with fdst := 2 ^ 28 }]).wf = false := by decide
theorem test_wf_brizel_count : (Instr.brizelWrite 0 0 1 0 []).wf = false ∧ (Instr.fmwrite 0 0 1 0 []).wf = false := by decide
theorem test_wf_psp_write : (Instr.pspTransaction true 0 [] 0).wf = false ∧ (Instr.pspTransaction true 0 [0] 1).wf = false := by decide
theorem test_wf_psp_read : (Instr.pspTransaction false 0 [] 0).wf = false ∧ (Instr.pspTransaction false 0 [0] 1).wf = false := by decide
theorem test_wf_therm_count : (Instr.thermSample []).wf = false := by decide
theorem test_wf_age_count : (Instr.ageMeasure []).wf = false := by decide
/-! ### Helpers -/

/-- The state after reset with its device changed. -/
def st (f : Dev → Dev) : State := { State.reset with dev := f Dev.reset }

/-- `Accepts`, computed. -/
def acceptsB (d : Dev) (src : Source) (c : Cls) (i off : Nat) (v : Word) : Bool :=
  decide (i < c.info.count) && d.answers c &&
    match regAt c i off with | some r => decide (d.cause src c i off r v true = 0) | none => false

theorem accepts_of {d : Dev} {src : Source} {c : Cls} {i off : Nat} {v : Word} (h : acceptsB d src c i off v = true) :
    Accepts d src c i off v := by
  unfold acceptsB at h
  cases hr : regAt c i off with
  | none => rw [hr] at h; simp at h
  | some r =>
    rw [hr] at h
    simp only [Bool.and_eq_true, decide_eq_true_eq] at h
    exact ⟨h.1.1, h.1.2, r, hr, h.2⟩

/-- A register row of a page that has one there. -/
def rAt (c : Cls) (i off : Nat) : RegSpec := (regAt c i off).getD ⟨0, 0, 0, .none, .page, []⟩

def sFront : State := { State.reset with pending := [.flr] }
def sDark : State := st fun d => { d with pw := { d.pw with dark := true } }
def dLater (ns : Nat) : Dev := { Dev.reset with now := ns, mono := ns }
def pgn (c : Cls) (i : Nat) : Fin 32768 := Fin.ofNat _ (pg c i / 0x1000)
def adr (c : Cls) (i off : Nat) : BitVec 27 := BitVec.ofNat 27 (pg c i + off)
def nextOf (c : Instr) (s : State) : State := match exec c s with | .next t => t | _ => s
def sLock (n : Nat) : State := st fun d => { d with lockSeq := [(pg .port 0, n, Source.pcie.tag)] }
def sLockSup (n : Nat) : State := st fun d => { d with lockSeq := [(pg .port 0, n, Source.sup.tag)] }
/-- The same with the supervisor running. -/
def runs (s : State) : State := { s with dev := { s.dev with pw := { s.dev.pw with supRun := true } } }
def sSlot (x : SlotState) : State := st fun d => d.setSlot 15 { d.slot 15 with state := x }
def sManual : State := st fun d => (d.setSlot 15 { d.slot 15 with state := .armed }).setF (pg .mst 0) (MST.TYPE.at 15) 4
def sTimed (now at_ : Nat) : State := st fun d =>
  ((({ d with now := now * 1000000000 } : Dev).setSlot 15 { d.slot 15 with state := .staging }).setF (pg .mst 0) (MST.TYPE.at 15) 1).setReg
    (pg .mst 0) (MST.MS_AT_SEC_LO.at 15) (wd at_)
def job0 (isTry : Bool) : CheckJob := ⟨15, isTry, 0, none, some 0⟩
def sets (d : Dev) (p : Nat) (l : List (Fld × Nat)) : Dev := l.foldl (fun d x => d.setF p x.1 x.2) d
/-- The state after reset with fields of a page set. -/
def sOn (p : Nat) (l : List (Fld × Nat)) : State := st fun d => sets d p l
def sPort (i n : Nat) (l : List (Fld × Nat)) : State := sOn (pg .port i) ((HDR.STATE, n) :: l)
def withPort (s : State) (i : Nat) (f : PortSt → PortSt) : State := { s with dev := s.dev.setPort i (f (s.dev.port i)) }
/-- A check waits in the queue. -/
def sQueue (j : CheckJob) : State := st fun d => { d with mst := { d.mst with queue := [j] } }
/-- The check of a `TRY` of slot 15 whose instant is 5. -/
def jobTry : CheckJob := ⟨15, true, 0, some 5, none⟩
def sTryLate : State := { sQueue jobTry with dev := { (sQueue jobTry).dev with now := 5, mono := 5 } }
def sTryWaits : State := st fun d =>
  let x := d.setSlot 15 { d.slot 15 with state := .staging }
  { x with mst := { x.mst with queue := [job0 true] } }
/-- The check of a slot that is no longer CHECKING runs. -/
def sGone : State := st fun d => { d with mst := { d.mst with running := some (job0 false) } }
def sRun (isTry : Bool) (trig : Nat) (scope : List Nat) : State := st fun d =>
  ({ d.setSlot 15 { d.slot 15 with state := .checking, scope := scope } with
     mst := { (d.setSlot 15 { d.slot 15 with state := .checking, scope := scope }).mst with running := some (job0 isTry) } } : Dev).setF
    (pg .mst 0) (MST.TYPE.at 15) trig
/-- The same with the instant 1, device time and whether a cancel waits. -/
def sRunAt (now : Nat) (cancel : Bool) (trig : Nat) (scope : List Nat) : State :=
  let s := sRun false trig scope
  { s with dev := ({ s.dev with now := now } : Dev).setSlot 15 { s.dev.slot 15 with instant := some 1, cancel := cancel } }
def sAt (x : SlotState) (cancel : Bool) : State := st fun d =>
  d.setSlot 15 { d.slot 15 with state := x, instant := some 5, cancel := cancel }
def sSurvey : State := sPort 143 1 [(HDR.ENABLE, 1), (PORT.IN_MODE, 6)]
def sDie : State := sOn (pg .pdie 3) [(PDIE.VAP_OK, 1), (PDIE.VAPL_OK, 1)]
def sFall : State := withPort (sPort 143 2 [(PORT.EN.at 1, 1), (PORT.B_ABOVE, 1)]) 143 fun x => { x with lowB := 479 }
def sSync : State := withPort (sPort 143 2 []) 143 fun x => { x with pend := true }
def sRuns : State := withPort (sPort 143 2 []) 143 fun x => { x with run := true }
def sGroupOn : State := { sOn (pg .pgrp 15) [(HDR.ENABLE, 1)] with dev := sets (sOn (pg .pgrp 15) [(HDR.ENABLE, 1)]).dev (pg .mcg 0) [(MCG.RUNNING, 1)] }
/-- Column 15 of region 15 runs, and its tile of row 15 holds the instruction `w`. -/
def sTile (w : Nat) (f : Tile → Tile) : State := st fun d =>
  (sets d (pg .treg 15) [(TREG.STATE.at 15, 1)]).setTile (d.site 4095).L (f { Tile.init with imem := [(0, w)] })
def sTile2 (w : Nat) : State := st fun d =>
  (sets d (pg .treg 15) [(TREG.STATE.at 14, 1), (TREG.STATE.at 15, 1)]).setTile (d.site 4095).L { Tile.init with imem := [(0, w)] }
def eccClean : MacEcc := ⟨.clean, .clean, .clean, .clean⟩
def rot0 (phase : Nat) (defer : Option Nat) : Rot := ⟨8, 0, 9, 1, false, phase, 0, 0, defer, 0, none, 0, false⟩
def sRot (r : Rot) : State := st fun d => d.setGroup 15 { d.group 15 with rot := some r }
def rep0 : Rep := ⟨8, 0, none, 1, 0, 0, false⟩
def sGroup (l : List (Fld × Nat)) : State := sOn (pg .pgrp 15) l
def sOut (n m seq : Nat) (f : PortSt → PortSt) : State :=
  withPort (sPort 143 n [(PORT.DIR, 1), (PORT.MODE_USE, m)]) 143 fun x => f { x with run := true, seq := seq }
def sSlice (step : Nat) (boot ext : Bool) : State := st fun d =>
  (sets d (pg .pgrp 15) [(PGRP.STEP.at 9, step)]).setSlice 15 9 { d.slice 15 9 with boot := boot, ext := ext }
def sDieSt (hold : Nat) (f : DieSt → DieSt) : State := st fun d =>
  (sets d (pg .pgrp 12) [(PGRP.REF_HOLD, hold)]).setDie 3 (f (d.die 3))
def dStale : State := st fun d => { sets d (pg .pgrp 15) [(PGRP.STATE.at 9, 5)] with mono := 2 ^ 50 }
def sOne : State := sOut 3 1 6 fun x => { x with spanSeq := true, gain := Gain.one }
def sLoad : State := { sOut 3 1 3 id with dev := sets (sOut 3 1 3 id).dev (pg .port 143) [(PORT.SUSP, 0)] }
/-- Port 8 of group 15 is CONFIGURED and holds slice 9; slice 5 of the group is FREE. -/
def sRotPort (l : List (Fld × Nat)) : State := st fun d =>
  sets (sets d (pg .port 143) [(HDR.STATE, 1), (PORT.SLICE_A, 9)]) (pg .pgrp 15) ([(HDR.ENABLE, 1), (PGRP.REF_HOLD, 0), (PGRP.STATE.at 5, 0)] ++ l)
/-- Column 15 of region 15 runs, and its tile of row 15 waits at a merge. -/
def sMerge : State := st fun d =>
  (sets d (pg .treg 15) [(TREG.STATE.at 15, 1), (TREG.BEXP_MASK.at 15, 0x8000)]).setTile (d.site 4095).L { Tile.init with stall := .merge, bexp := 3 }
def sTileU (f : Tile → Tile) : State := st fun d => d.setTile (d.site 4095).L (f Tile.init)
def sCol (l : List (Fld × Nat)) : State := sOn (pg .treg 15) l
def move0 (phase : Nat) : Move := ⟨0, 1, 15, 0, 0, false, phase, none, 0, none, true, some 0, none, false, [], 0, 0, 0, [], [], 0, 0⟩
def sMove (m : Move) : State := st fun d => { d with ti := { d.ti with moves := [(15, m)] } }
def moveCmp : Move := { move0 3 with ready := false }
/-- The moved tile of row 15 has a bound stream-out port whose words have not been compared. -/
def sMoveCmp : State := { sMove moveCmp with dev := sets ((sMove moveCmp).dev.setTile ((sMove moveCmp).dev.loc 15 0 15) { Tile.init with strm := [(2, 0x80000000)] }) (pg .treg 15) [(TREG.COMPARE, 1)] }
def moveEnds : Move := { move0 6 with instant := some 1 }
/-- The moved column runs and its tile of row 15 has not taken the words before the instant. -/
def sMoveBusy : State := { sMove moveEnds with dev := (sets (sMove moveEnds).dev (pg .treg 15) [(TREG.STATE.at 0, 1)]).setTile ((sMove moveEnds).dev.loc 15 0 15) { Tile.init with in0 := [⟨0, 0, 0, 0, false, false⟩] } }
def sColRep : State := st fun d => { d with ti := { d.ti with repairs := [(255, ⟨15, false, 0, false⟩)] } }
/-- A flow word of channel 63, and a flit of it. -/
def word0 : FlowWord := ⟨16383, 63, 0, 0, false, false⟩
def flit1 (ts cls : Nat) : Flit := ⟨0, 16383, cls, ts, [word0], true, [8191], []⟩
def sFlit (f : Flit) (now : Nat) : State := st fun d => { d with now := now, mono := now, cw := { d.cw with flight := [f] } }
def sFlits : State := st fun d => { d with cw := { d.cw with flight := [flit1 0 0, flit1 0 0] } }
def sProd (q : List FlowWord) : State := st fun d => d.setTile (d.site 4095).L { Tile.init with out1 := q }
def fmp0 (dir : Nat) : FmpSt := { FmpSt.init with run := true, cfg := setField FMEM.DIR dir 0 }
/-- Frame port 31 in service; frame port 30 writes the same ring. -/
def sFmp (f w : FmpSt) : State := st fun d => (d.setFmp 31 f).setFmp 30 w
def rowRep0 (phase : Nat) : RowRep := ⟨8191, 63, phase, 0, true, some 0, none, 0⟩
def sRowRep (x : RowRep) : State := st fun d => d.setRowRep 31 x
def memFlit0 (write : Bool) : MemFlit := ⟨0, write, 255, 65535, 0, [0], 1, 1, 0⟩
/-- Lane group 7, Ethernet port 63 and lane 63 with fields set; `ln` changes the lanes' own state. -/
def sLn (g e l : List (Fld × Nat)) (ln : LaneSt → LaneSt) : State := st fun d =>
  let x := sets (sets (sets d (pg .lgrp 7) g) (pg .eth 63) e) (pg .lane 63) l
  { x with ln := ln x.ln }
def noLn (x : LaneSt) : LaneSt := x
/-- Both halves of the group's layout give each lane its own port. -/
def ones : List (Fld × Nat) := [(LGRP.LAYOUT_HI, 1), (LGRP.LAYOUT_LO, 1), (LGRP.LOCKED, 1)]
def sTime (l : List (Fld × Nat)) (f : TimeSt → TimeSt) : State := st fun d =>
  let x := sets d (pg .time 0) l
  { x with tm := f x.tm }
/-- The flow table entry 16383 with words set. -/
def sFt (ws : List (Nat × Word)) (x : RxFlow) : State := st fun d =>
  let e := ws.foldl (fun e w => e.setFt 16383 w.1 w.2) d
  { e with md := { e.md with rx := [(16383, x)] } }
def pkt0 : RtpPacket := ⟨63, false, 0, 0, 0, 0, 0, 1, 0, false, [], [], []⟩
def sReg (n : Nat) (l : List (Fld × Nat)) (f : RegionSt → RegionSt) : State := st fun d =>
  let x := sets d (regionPg n) l
  x.setRegion n (f (x.region n))
/-- The loader at work on a job, in a phase. -/
def job1 : LoadJob := ⟨0, 0, 0, .sup, true, true, false, 0, 0, 8, [], [], [], [], [], [], []⟩
def sLoader (j : Option LoadJob) (phase : Nat) : State := st fun d =>
  let x := sets d ldrPg [(LDR.LDR_STAT_PHASE, phase)]
  { x with ld := { x.ld with job := j } }
/-- Loads whose section of 5 bytes no record fits: of a region, and of the registers of a group. -/
def jobBad : LoadJob := { job1 with mans := [⟨0, 31, 7, 0, 0, 0, 0⟩], sects := [⟨1, 0, 0, 0, 0, 5⟩] }
def jobBadReg : LoadJob := { job1 with sects := [⟨5, 0, 0, 7, 0, 5⟩] }
def sBoot (slot state : Nat) : State := st fun d =>
  let x := sets d stPg [(STORE.BOOT_SLOT, slot), (STORE.STATE.at 3, state)]
  { x with pw := { x.pw with supRun := true } }
def sLd (f : LoadSt → LoadSt) : State := st fun d => { d with ld := f d.ld }
def ho0 (phase : Nat) (switched : Bool) : RegHo := ⟨[(30, 31)], phase, [], [], 0, true, some 0, none, 0, 0, switched, 0⟩
def sHo (h : RegHo) : State := sLd fun x => { x with ho := some h }
def hoCmp : RegHo := { ho0 3 false with ready := false }
/-- The new region has a producing frame port whose words have not been compared. -/
def sHoWaits : State := { sHo hoCmp with dev := sets (sets (sHo hoCmp).dev (regionPg 31) [(FREG.FPORT_CFG_EN.at 0, 1), (FREG.MODE.at 0, 1)]) ldrPg [(LDR.COMPARE, 1)] }
def sStore (j : StoreJob) : State := st fun d => { d with sto := { d.sto with job := some j } }
/-- Pins given a function, a page with fields set, and media clock 0 running. -/
def sPer (p : Nat) (l : List (Fld × Nat)) (pin fn : Nat) (f : PinSt → PinSt) : State := st fun d =>
  let x := sets (sets (sets d p ((HDR.ENABLE, 1) :: l)) (ioPg (pin / 16)) [(funcFld pin, fn), (IOB.VIO_OK, 1)])
    (pg .mcg 0) [(MCG.RUNNING, 1), (MCG.VRATE, 5)]
  { x with pn := f x.pn }
def sQ (f : DmaQ → DmaQ) : State := st fun d => d.setDmaQ 15 (f (d.dmaQ 15))
def descOf (op : Nat) : Desc := ⟨op, false, 0, 8, 0, 0, 0⟩
/-- A running queue of 16 entries with work. -/
def dmaOn (packet : Bool) (c : Desc) : DmaQ → DmaQ := fun x =>
  { x.set qCFG (if packet then 0x84010000 else 0x84000000) with work := [c] }
def lost0 : QEnt := .lost 1 0 0 0
def sRing (f : NQueue → NQueue) : State := st fun d =>
  (sets d ntcPg [(NTC.RING_EN.at 3, 1), (NTC.COAL_US.at 3, 1), (NTC.COAL_CNT.at 3, 1)]).setQueue 3 (f (d.queue 3))
/-- The Brizel link in step, with credit on channel 3. -/
def sBriz (f : BrzSt → BrzSt) : State := st fun d =>
  let x := sets d blkPg [(BLK.SYNC, 1), (BLK.WINDOW, 1)]
  { x with bz := f { x.bz with credit := [(3, 1)] } }
def lockPort (s : State) : State := { s with dev := sets s.dev (pg .port 143) [(HDR.LOCKED, 1)] }
def poll0 : Poll := ⟨3, 0, 0, 0, 0, 0⟩
def fly0 : InFlight × Nat := (⟨0xffff, 3, [], 1⟩, 0)
def sSec (l : List (Fld × Nat)) : State := sOn secPg l
def sPow (l : List (Fld × Nat)) (f : PowerSt → PowerSt) : State := st fun d =>
  let x := sets d pwrPg l
  { x with pw := f x.pw }
def fw0 (switched : Bool) : FwSt := ⟨0, 1, true, some 0, none, switched⟩
def sFw (phase : Nat) (x : FwSt) : State := st fun d => { sets d srvPg [(SRV.PHASE, phase)] with fw := some x }
def stepOf (s : State) : State := match step s with | .next t => t | _ => s
/-- No input port names a class A flow. -/
def sNoA : State := st fun d => { d with cw := { d.cw with route := (List.range 144).map fun k => (k, 0xa0000000) } }
def sLocked : State := st fun d => sets (sets d slvPg [(SLV.SSP_EN, 1)]) (pg .port 143) [(HDR.LOCKED, 1)]
theorem foldr_violIns_ne {l : List Viol} (h : l ≠ []) (r : List Viol) : l.foldr violIns r ≠ [] := by
  cases l with
  | nil => exact absurd rfl h
  | cons x t =>
    show violIns x (t.foldr violIns r) ≠ []
    cases t.foldr violIns r with
    | nil => exact List.cons_ne_nil _ _
    | cons y u =>
      unfold violIns
      split
      · exact List.cons_ne_nil _ _
      · split <;> exact List.cons_ne_nil _ _
/-- A slot with a violation of its own has findings. -/
theorem findings_ne (d : Dev) (m : Nat) (i : Option Nat) (h : d.slotRules m i ≠ []) : d.findings m i ≠ [] := by
  unfold Dev.findings
  rw [if_pos (foldr_violIns_ne h _)]
  intro e
  exact foldr_violIns_ne h _ (List.map_eq_nil_iff.mp e)
theorem eq_head_tail {α : Type} {l : List α} (x : α) (h : l ≠ []) : l = l.headD x :: l.tail := by
  cases l with
  | nil => exact absurd rfl h
  | cons => rfl
/-- A slot over the page of a media clock generator, whose check finds nothing. -/
def sArms : State := sRunAt 0 false 4 [pg .mcg 0]
def sApplies : State := sRun false 0 [pg .mcg 0]
theorem arms_quiet : (sArms.dev.quiet.pass 0).findings 15 (some 1) = [] := by decide +kernel
theorem applies_quiet : (sApplies.dev.quiet.pass 0).findings 15 (some 0) = [] := by decide +kernel
theorem rep_trig {d : Dev} {m : Nat} {b : Bool} {fs : List Found} {P : Nat → Prop} (h : fs = [])
    (hp : P ((d.checkReport m b []).trig m)) : P ((d.checkReport m b fs).trig m) := h ▸ hp
/-! ### Small steps, with results from the rules -/

/-- R128: T is capped at 8,388,607, Tr is not; R127: |0x80_0000| is 8,388,608. -/
theorem test_levels : thrLevel 0 = 8388607 ∧ thrRelease 0 = 8388608 ∧ mag24 (-8388608) = 8388608 := by decide +kernel
/-- R128: at 20 dB below full scale T = round(2^23 / 10) = 838,861. -/
theorem test_level_minus20 : thrLevel 200 = 838861 := by decide +kernel
/-- R139: the largest peak of VOLT is 4.5 V, that of CURR 8 mA (in uV and nA). -/
theorem test_span_peaks : spanPeak 1 2 = 4500000 ∧ spanPeak 2 2 = 8000000 := by decide
/-- R115: narrowing floors and saturates. -/
theorem test_narrow : narrow24 (-1) 2 = (-1, false) ∧ narrow24 8388608 1 = (8388607, true) := by decide
/-- The pattern of x⁷ + x⁶ + 1 repeats after 127 bits. -/
theorem test_prbs7_period : (prbsBits 1 127 1).2 = 1 ∧ ((List.range 126).all fun n => decide ((prbsBits 1 (n + 1) 1).2 ≠ 1)) := by decide +kernel
/-- R266: region 15, first column 14, physical 16, two columns. -/
theorem test_segWord : segWord 15 14 16 2 = 0xFE100001 := by decide
/-- R56: the checker takes the oldest of its queue. -/
theorem test_checkStart : (nextOf .checkStart (sQueue (job0 false))).dev.mst.queue = [] := by decide +kernel
/-- R45, R65: an ARMED slot whose instant is reached is APPLIED. -/
theorem test_apply : ((nextOf (.milestoneApply 15) (sAt .armed false)).dev.slot 15).state = .applied ∧
    (nextOf (.milestoneApply 15) (sAt .armed false)).dev.now = 5 := by decide +kernel
/-! ### Witnesses: for each statement with hypotheses, a state and operands that meet them -/

theorem witness_StepRunsFront_a :
    let s : Machine.State := sFront
    let c : Instr := .flr
    let rest : List Instr := []
    (s.pending = c :: rest) :=
  by decide

theorem witness_StepIdles_a :
    let s : Machine.State := State.reset
    (s.pending = []) :=
  by decide

theorem witness_CoreOffDoesNothing_a :
    let c : Instr := .flr
    let s : Machine.State := sDark
    (s.dev.coreOn = false) ∧
    (∀ (k : WakeKind), c ≠ Instr.darkWake k) ∧
    (∀ (i : Fin 2) (b : Bool), c ≠ Instr.tamperTrip i b) ∧
    (∀ (i : Fin 7), c ≠ Instr.railLost i) ∧
    (∀ (i : Fin 7), c ≠ Instr.railBack i) ∧
    (∀ (ts : List (BitVec 8)), c ≠ Instr.thermSample ts) ∧
    (c ≠ Instr.thermalTrip) ∧
    (c ≠ Instr.porstN) ∧
    (c ≠ Instr.pfail) ∧
    (c ≠ Instr.pfailEnd) :=
  ⟨by decide, nofun, by decide, by decide, by decide, nofun, by decide, by decide, by decide, by decide⟩

theorem witness_WhatFollowsACommand_stays :
    let s : Machine.State := State.reset
    let e : Dev := dLater 1
    let n : Nat := e.dues.uptime / 2 ^ 32
    let o : Nat := s.dev.uptime / 2 ^ 32
    (e.now + s.dev.mono = s.dev.now + e.mono) ∧
    (n ≤ o) :=
  ⟨by decide, by decide⟩

theorem witness_WhatFollowsACommand_wraps :
    let s : Machine.State := State.reset
    let e : Dev := dLater (2 ^ 32 * 10 ^ 9)
    let n : Nat := e.dues.uptime / 2 ^ 32
    let o : Nat := s.dev.uptime / 2 ^ 32
    (e.now + s.dev.mono = s.dev.now + e.mono) ∧
    (o < n) :=
  ⟨by decide, by decide⟩

theorem witness_WhatFollowsACommand_calm :
    let s : Machine.State := State.reset
    let e : Dev := dLater 1
    (e.now + s.dev.mono = s.dev.now + e.mono) ∧
    (e.calm = true) :=
  ⟨by decide, by decide⟩

theorem witness_RegisterWriteCompletes_live :
    let s : Machine.State := State.reset
    let d : Dev := s.dev.quiet
    let src : Source := .pcie
    let a : BitVec 27 := adr .port 143 0x78
    let v : Word := 0
    let c : Cls := .port
    let i : Nat := 143
    let off : Nat := 0x78
    let r : RegSpec := rAt .port 143 0x78
    (s.dev.coreOn = true) ∧
    (a.toNat = pg c i + off) ∧
    (off % 4 = 0) ∧
    (off < 2048) ∧
    (c = Cls.iob → 64 ≤ off → d.iobDropped src i off v = 0) ∧
    (i < c.info.count) ∧
    (d.answers c = true) ∧
    (regAt c i off = some r) ∧
    (d.cause src c i off r v true = 0) :=
  ⟨by decide, by decide, by decide, by decide, by decide, by decide, by decide, by decide, by decide⟩

theorem witness_RegisterWriteCompletes_header :
    let s : Machine.State := State.reset
    let d : Dev := s.dev.quiet
    let src : Source := .pcie
    let a : BitVec 27 := adr .port 0 0x14
    let v : Word := 0
    let c : Cls := .port
    let i : Nat := 0
    let off : Nat := 0x14
    let r : RegSpec := rAt .port 0 0x14
    (s.dev.coreOn = true) ∧
    (a.toNat = pg c i + off) ∧
    (off % 4 = 0) ∧
    (off < 2048) ∧
    (c = Cls.iob → 64 ≤ off → d.iobDropped src i off v = 0) ∧
    (i < c.info.count) ∧
    (d.answers c = true) ∧
    (regAt c i off = some r) ∧
    (d.cause src c i off r v true = 0) :=
  ⟨by decide, by decide, by decide, by decide, by decide, by decide, by decide, by decide, by decide⟩

theorem witness_RegisterWriteCompletes_pins :
    let s : Machine.State := State.reset
    let d : Dev := s.dev.quiet
    let src : Source := .pcie
    let a : BitVec 27 := adr .iob 0 0x40
    let v : Word := 0
    let c : Cls := .iob
    let i : Nat := 0
    let off : Nat := 0x40
    let r : RegSpec := rAt .iob 0 0x40
    (s.dev.coreOn = true) ∧
    (a.toNat = pg c i + off) ∧
    (off % 4 = 0) ∧
    (off < 2048) ∧
    (c = Cls.iob → 64 ≤ off → d.iobDropped src i off v = 0) ∧
    (i < c.info.count) ∧
    (d.answers c = true) ∧
    (regAt c i off = some r) ∧
    (d.cause src c i off r v true = 0) :=
  ⟨by decide, by decide, by decide, by decide, by decide, by decide, by decide, by decide, by decide⟩

theorem witness_RegisterWriteCompletes_bar4 :
    let s : Machine.State := State.reset
    (s.dev.coreOn = true) :=
  by decide

theorem witness_RegisterWriteCompletes_deadline :
    let s : Machine.State := State.reset
    (s.dev.coreOn = true) :=
  by decide

theorem witness_RegisterWriteCompletes_msix :
    let s : Machine.State := State.reset
    (s.dev.coreOn = true) :=
  by decide

theorem witness_StagedWriteCompletes_a :
    let s : Machine.State := State.reset
    let src : Source := .pcie
    let v : Word := 0
    let page : Fin 32768 := pgn .port 0
    let k : Fin 512 := 0x10
    let c : Cls := .port
    let i : Nat := 0
    let r : RegSpec := rAt .port 0 0x840
    let d : Dev := s.dev.quiet
    let off : Nat := 2048 + 4 * k.val
    (s.dev.coreOn = true) ∧
    (page.val * 4096 = pg c i) ∧
    (i < c.info.count) ∧
    (c = Cls.iob → 16 ≤ k.val → d.iobDropped src i (4 * k.val) v = 0) ∧
    (d.answers c = true) ∧
    (regAt c i off = some r) ∧
    (r.isStaged = true) ∧
    (d.cause src c i off r v true = 0) :=
  ⟨by decide, by decide, by decide, by decide, by decide, by decide, by decide, by decide⟩

theorem witness_RefusedWrite_partOfADword :
    let s : Machine.State := State.reset
    let src : Source := .pcie
    let a : BitVec 27 := adr .sys 0 8
    let v : Word := 0
    let full : Bool := false
    let c : Cls := .sys
    let i : Nat := 0
    let off : Nat := 8
    let r : RegSpec := rAt .sys 0 8
    let d : Dev := s.dev.quiet
    let k : Nat := d.cause src c i off r v full
    (s.dev.coreOn = true) ∧
    (a.toNat = pg c i + off) ∧
    (off % 4 = 0) ∧
    (off < 4096) ∧
    (2048 ≤ off → r.isStaged = true) ∧
    (c = Cls.iob → 64 ≤ off % 2048 → d.iobDropped src i (off % 2048) v = 0) ∧
    (i < c.info.count) ∧
    (d.answers c = true) ∧
    (regAt c i off = some r) ∧
    (k ≠ 0) :=
  ⟨by decide, by decide, by decide, by decide, by decide, by decide, by decide, by decide, by decide, by decide⟩

theorem witness_RefusedWrite_staged :
    let s : Machine.State := State.reset
    let src : Source := .pcie
    let a : BitVec 27 := adr .port 143 0x840
    let v : Word := 0
    let full : Bool := false
    let c : Cls := .port
    let i : Nat := 143
    let off : Nat := 0x840
    let r : RegSpec := rAt .port 143 0x840
    let d : Dev := s.dev.quiet
    let k : Nat := d.cause src c i off r v full
    (s.dev.coreOn = true) ∧
    (a.toNat = pg c i + off) ∧
    (off % 4 = 0) ∧
    (off < 4096) ∧
    (2048 ≤ off → r.isStaged = true) ∧
    (c = Cls.iob → 64 ≤ off % 2048 → d.iobDropped src i (off % 2048) v = 0) ∧
    (i < c.info.count) ∧
    (d.answers c = true) ∧
    (regAt c i off = some r) ∧
    (k ≠ 0) :=
  ⟨by decide, by decide, by decide, by decide, by decide, by decide, by decide, by decide, by decide, by decide⟩

theorem witness_RefusedWriteFrame_a :
    let s : Machine.State := State.reset
    let t : Machine.State := nextOf (.registerWrite (.bar0 .pcie (adr .port 143 0x840) 0 false)) State.reset
    let src : Source := .pcie
    let a : BitVec 27 := adr .port 143 0x840
    let v : Word := 0
    let full : Bool := false
    let c : Cls := .port
    let i : Nat := 143
    let off : Nat := 0x840
    let r : RegSpec := rAt .port 143 0x840
    let d : Dev := s.dev.quiet
    (s.dev.coreOn = true) ∧
    (a.toNat = pg c i + off) ∧
    (off % 4 = 0) ∧
    (off < 4096) ∧
    (2048 ≤ off → r.isStaged = true) ∧
    (c = Cls.iob → 64 ≤ off % 2048 → d.iobDropped src i (off % 2048) v = 0) ∧
    (i < c.info.count) ∧
    (d.answers c = true) ∧
    (regAt c i off = some r) ∧
    (d.cause src c i off r v full ≠ 0) ∧
    (exec (Instr.registerWrite (RegTarget.bar0 src a v full)) s = Host.Outcome.next t) :=
  ⟨by decide, by decide, by decide, by decide, by decide, by decide, by decide, by decide, by decide, by decide, rfl⟩

theorem witness_HolesAreInert_unaligned :
    let a : Nat := 1
    (a % 4 ≠ 0 ∨
       134217728 ≤ a ∨
         a < 67108864 ∧
           ¬(6291456 ≤ a ∧ a < 7340032) ∧
             (pageAt a = none ∨ ∃ (c : Cls), ∃ (i : Nat), pageAt a = some (c, i) ∧ regAt c i (a % 4096) = none)) :=
  .inl (by decide)

theorem witness_HolesAreInert_outside :
    let a : Nat := 0x8000000
    (a % 4 ≠ 0 ∨
       134217728 ≤ a ∨
         a < 67108864 ∧
           ¬(6291456 ≤ a ∧ a < 7340032) ∧
             (pageAt a = none ∨ ∃ (c : Cls), ∃ (i : Nat), pageAt a = some (c, i) ∧ regAt c i (a % 4096) = none)) :=
  .inr (.inl (by decide))

theorem witness_HolesAreInert_hole :
    let a : Nat := 0x3fffffc
    (a % 4 ≠ 0 ∨
       134217728 ≤ a ∨
         a < 67108864 ∧
           ¬(6291456 ≤ a ∧ a < 7340032) ∧
             (pageAt a = none ∨ ∃ (c : Cls), ∃ (i : Nat), pageAt a = some (c, i) ∧ regAt c i (a % 4096) = none)) :=
  .inr (.inr ⟨by decide, by decide, .inl (by decide)⟩)

theorem witness_HolesAreInert_noRegister :
    let a : Nat := (adr .sys 0 0x7fc).toNat
    (a % 4 ≠ 0 ∨
       134217728 ≤ a ∨
         a < 67108864 ∧
           ¬(6291456 ≤ a ∧ a < 7340032) ∧
             (pageAt a = none ∨ ∃ (c : Cls), ∃ (i : Nat), pageAt a = some (c, i) ∧ regAt c i (a % 4096) = none)) :=
  .inr (.inr ⟨by decide, by decide, .inr ⟨.sys, 0, by decide, by decide⟩⟩)

theorem witness_RegisterReadAfterWrite_a :
    let d : Dev := Dev.reset
    let a : Nat := 0x40
    let b : Nat := 0x44
    (RegsCanon d) ∧
    (b ≠ a) :=
  ⟨rfl, by decide⟩

theorem witness_FieldReadAfterWrite_a :
    let d : Dev := Dev.reset
    let f : Fld := HDR.BLK_RST
    let g : Fld := HDR.PWR_REQ
    (RegsCanon d) ∧
    (f.lo ≤ f.hi) ∧
    (f.hi < 32) ∧
    (g.lo ≤ g.hi) ∧
    (g.hi < 32) ∧
    (g.off ≠ f.off ∨ g.hi < f.lo ∨ f.hi < g.lo) :=
  ⟨rfl, by decide, by decide, by decide, by decide, by decide⟩

theorem witness_HeaderCommandsComplete_sys :
    let s : Machine.State := State.reset
    let src : Source := .pcie
    let v : Word := 0
    let page : Fin 32768 := pgn .sys 0
    let c : Cls := .sys
    let i : Nat := 0
    let d : Dev := s.dev.quiet
    (s.dev.coreOn = true) ∧
    (page.val * 4096 = pg c i) ∧
    (Accepts d src c i HDR.PAGE_CTL.off (v ||| 2)) :=
  ⟨by decide, by decide, accepts_of (by decide)⟩

theorem witness_HeaderCommandsComplete_mst :
    let s : Machine.State := State.reset
    let src : Source := .pcie
    let v : Word := 0
    let page : Fin 32768 := pgn .mst 0
    let c : Cls := .mst
    let i : Nat := 0
    let d : Dev := s.dev.quiet
    (s.dev.coreOn = true) ∧
    (page.val * 4096 = pg c i) ∧
    (Accepts d src c i HDR.PAGE_CTL.off (v ||| 2)) :=
  ⟨by decide, by decide, accepts_of (by decide)⟩

theorem witness_HeaderCommandsComplete_chk :
    let s : Machine.State := State.reset
    let src : Source := .pcie
    let v : Word := 0
    let page : Fin 32768 := pgn .chk 0
    let c : Cls := .chk
    let i : Nat := 0
    let d : Dev := s.dev.quiet
    (s.dev.coreOn = true) ∧
    (page.val * 4096 = pg c i) ∧
    (Accepts d src c i HDR.PAGE_CTL.off (v ||| 2)) :=
  ⟨by decide, by decide, accepts_of (by decide)⟩

theorem witness_HeaderCommandsComplete_port :
    let s : Machine.State := State.reset
    let src : Source := .pcie
    let v : Word := 0
    let page : Fin 32768 := pgn .port 143
    let c : Cls := .port
    let i : Nat := 143
    let d : Dev := s.dev.quiet
    (s.dev.coreOn = true) ∧
    (page.val * 4096 = pg c i) ∧
    (Accepts d src c i HDR.PAGE_CTL.off (v ||| 2)) :=
  ⟨by decide, by decide, accepts_of (by decide)⟩

theorem witness_HeaderCommandsComplete_force :
    let s : Machine.State := State.reset
    let src : Source := .pcie
    let v : Word := 1
    let page : Fin 32768 := pgn .port 143
    let c : Cls := .port
    let i : Nat := 143
    let d : Dev := s.dev.quiet
    (s.dev.coreOn = true) ∧
    (page.val * 4096 = pg c i) ∧
    (Accepts d src c i HDR.EVT_FORCE.off v) :=
  ⟨by decide, by decide, accepts_of (by decide)⟩

theorem witness_HeaderCommandsComplete_snap :
    let s : Machine.State := State.reset
    let src : Source := .pcie
    let page : Fin 32768 := pgn .time 0
    let c : Cls := .time
    let i : Nat := 0
    let d : Dev := s.dev.quiet
    (s.dev.coreOn = true) ∧
    (page.val * 4096 = pg c i) ∧
    (Accepts d src c i HDR.SNAP_CTL.off 1) :=
  ⟨by decide, by decide, accepts_of (by decide)⟩

theorem witness_HeaderCommandsComplete_clear :
    let s : Machine.State := State.reset
    let src : Source := .pcie
    let v : Word := 0
    let page : Fin 32768 := pgn .media 7
    let c : Cls := .media
    let i : Nat := 7
    let d : Dev := s.dev.quiet
    (s.dev.coreOn = true) ∧
    (page.val * 4096 = pg c i) ∧
    (Accepts d src c i HDR.SNAP_CTL.off (v ||| 2)) :=
  ⟨by decide, by decide, accepts_of (by decide)⟩

theorem witness_HeaderCommandsComplete_third :
    let s : Machine.State := sLock 2
    let src : Source := .pcie
    let page : Fin 32768 := pgn .port 0
    let key : BitVec 16 := 0x5A5A
    let c : Cls := .port
    let i : Nat := 0
    let d : Dev := s.dev.quiet
    let p : Nat := pg c i
    (s.dev.coreOn = true) ∧
    (page.val * 4096 = pg c i) ∧
    (Accepts d src c i HDR.PAGE_LOCK.off (BitVec.ofNat 32 (key.toNat * 65536))) ∧
    (Tab.get d.lockSeq p = some (2, src.tag)) ∧
    (key = 23130) :=
  ⟨by decide, by decide, accepts_of (by decide), by decide, by decide⟩

theorem witness_HeaderCommandsComplete_second :
    let s : Machine.State := sLock 1
    let src : Source := .pcie
    let page : Fin 32768 := pgn .port 0
    let key : BitVec 16 := 0xA5A5
    let c : Cls := .port
    let i : Nat := 0
    let d : Dev := s.dev.quiet
    let p : Nat := pg c i
    (s.dev.coreOn = true) ∧
    (page.val * 4096 = pg c i) ∧
    (Accepts d src c i HDR.PAGE_LOCK.off (BitVec.ofNat 32 (key.toNat * 65536))) ∧
    (Tab.get d.lockSeq p = some (1, src.tag)) ∧
    (key = 42405) :=
  ⟨by decide, by decide, accepts_of (by decide), by decide, by decide⟩

theorem witness_HeaderCommandsComplete_outOfTurn :
    let s : Machine.State := sLockSup 1
    let src : Source := .pcie
    let page : Fin 32768 := pgn .port 0
    let key : BitVec 16 := 0xA5A5
    let c : Cls := .port
    let i : Nat := 0
    let d : Dev := s.dev.quiet
    let p : Nat := pg c i
    (s.dev.coreOn = true) ∧
    (page.val * 4096 = pg c i) ∧
    (Accepts d src c i HDR.PAGE_LOCK.off (BitVec.ofNat 32 (key.toNat * 65536))) ∧
    (Tab.get d.lockSeq p ≠ some (1, src.tag)) ∧
    (key = 42405) :=
  ⟨by decide, by decide, accepts_of (by decide), by decide, by decide⟩

theorem witness_HeaderCommandsComplete_first :
    let s : Machine.State := sLock 1
    let src : Source := .pcie
    let page : Fin 32768 := pgn .port 0
    let key : BitVec 16 := 0x5A5A
    let c : Cls := .port
    let i : Nat := 0
    let d : Dev := s.dev.quiet
    let p : Nat := pg c i
    (s.dev.coreOn = true) ∧
    (page.val * 4096 = pg c i) ∧
    (Accepts d src c i HDR.PAGE_LOCK.off (BitVec.ofNat 32 (key.toNat * 65536))) ∧
    (Tab.get d.lockSeq p ≠ some (2, src.tag)) ∧
    (key = 23130) :=
  ⟨by decide, by decide, accepts_of (by decide), by decide, by decide⟩

theorem witness_HeaderCommandsComplete_other :
    let s : Machine.State := sLock 2
    let src : Source := .pcie
    let page : Fin 32768 := pgn .iob 0
    let key : BitVec 16 := 0x5A5B
    let c : Cls := .iob
    let i : Nat := 0
    let d : Dev := s.dev.quiet
    (s.dev.coreOn = true) ∧
    (page.val * 4096 = pg c i) ∧
    (Accepts d src c i HDR.PAGE_LOCK.off (BitVec.ofNat 32 (key.toNat * 65536))) ∧
    (key ≠ 23130) ∧
    (key ≠ 42405) :=
  ⟨by decide, by decide, accepts_of (by decide), by decide, by decide⟩

theorem witness_SnapLatchesCounters_a :
    let d : Dev := Dev.reset
    let c : Cls := .port
    let p : Nat := pg .port 0
    let src : Source := .pcie
    let o : Source := .sup
    let a : Nat := pg .port 0
    (SnapsCanon d) ∧
    (∀ (off : Nat), off ∈ c.counterOffs → snapKey o a ≠ snapKey src (p + off)) :=
  ⟨rfl, by decide⟩

theorem witness_SnapLatchesCounters_counter :
    let d : Dev := Dev.reset
    let c : Cls := .port
    let off : Nat := PORT.CLIP_CNT.off
    (SnapsCanon d) ∧
    (off ∈ c.counterOffs) :=
  ⟨rfl, by decide⟩

theorem witness_HostResetsComplete_a :
    let s : Machine.State := State.reset
    (s.dev.coreOn = true) :=
  by decide

theorem witness_SlotCommandsComplete_open_ :
    let s : Machine.State := State.reset
    let src : Source := .sup
    let m : Fin 16 := 15
    let d : Dev := s.dev.quiet
    let off : Nat := (MST.MS_CMD.at m.val).off
    (s.dev.coreOn = true) ∧
    (Accepts d src Cls.mst 0 off 1) :=
  ⟨by decide, accepts_of (by decide)⟩

theorem witness_SlotCommandsComplete_try_ :
    let s : Machine.State := sSlot .staging
    let src : Source := .sup
    let m : Fin 16 := 15
    let d : Dev := s.dev.quiet
    let off : Nat := (MST.MS_CMD.at m.val).off
    (s.dev.coreOn = true) ∧
    (Accepts d src Cls.mst 0 off 3) :=
  ⟨by decide, accepts_of (by decide)⟩

theorem witness_SlotCommandsComplete_fire :
    let s : Machine.State := sManual
    let src : Source := .sup
    let m : Fin 16 := 15
    let d : Dev := s.dev.quiet
    let off : Nat := (MST.MS_CMD.at m.val).off
    (s.dev.coreOn = true) ∧
    (Accepts d src Cls.mst 0 off 4) :=
  ⟨by decide, accepts_of (by decide)⟩

theorem witness_SlotCommandsComplete_cancelChecking :
    let s : Machine.State := sSlot .checking
    let src : Source := .sup
    let m : Fin 16 := 15
    let d : Dev := s.dev.quiet
    let off : Nat := (MST.MS_CMD.at m.val).off
    let waits : Bool := d.mst.queue.any fun (j : CheckJob) ↦ decide (j.slot = m.val) && j.isTry
    (s.dev.coreOn = true) ∧
    (Accepts d src Cls.mst 0 off 5) ∧
    ((d.slot m.val).state = SlotState.checking ∨ waits = true) :=
  ⟨by decide, accepts_of (by decide), by decide⟩

theorem witness_SlotCommandsComplete_cancelTry :
    let s : Machine.State := sTryWaits
    let src : Source := .sup
    let m : Fin 16 := 15
    let d : Dev := s.dev.quiet
    let off : Nat := (MST.MS_CMD.at m.val).off
    let waits : Bool := d.mst.queue.any fun (j : CheckJob) ↦ decide (j.slot = m.val) && j.isTry
    (s.dev.coreOn = true) ∧
    (Accepts d src Cls.mst 0 off 5) ∧
    ((d.slot m.val).state = SlotState.checking ∨ waits = true) :=
  ⟨by decide, accepts_of (by decide), by decide⟩

theorem witness_SlotCommandsComplete_cancel :
    let s : Machine.State := sSlot .armed
    let src : Source := .sup
    let m : Fin 16 := 15
    let d : Dev := s.dev.quiet
    let off : Nat := (MST.MS_CMD.at m.val).off
    let waits : Bool := d.mst.queue.any fun (j : CheckJob) ↦ decide (j.slot = m.val) && j.isTry
    (s.dev.coreOn = true) ∧
    (Accepts d src Cls.mst 0 off 5) ∧
    ((d.slot m.val).state ≠ SlotState.checking) ∧
    (waits = false) :=
  ⟨by decide, accepts_of (by decide), by decide, by decide⟩

theorem witness_SlotCommandsComplete_release :
    let s : Machine.State := sSlot .refused
    let src : Source := .sup
    let m : Fin 16 := 15
    let d : Dev := s.dev.quiet
    let off : Nat := (MST.MS_CMD.at m.val).off
    (s.dev.coreOn = true) ∧
    (Accepts d src Cls.mst 0 off 6) :=
  ⟨by decide, accepts_of (by decide)⟩

theorem witness_SlotCommandsComplete_checkLater :
    let s : Machine.State := sTimed 0 1
    let src : Source := .sup
    let m : Fin 16 := 15
    let d : Dev := s.dev.quiet
    let off : Nat := (MST.MS_CMD.at m.val).off
    (s.dev.coreOn = true) ∧
    (Accepts d src Cls.mst 0 off 2) ∧
    (¬(d.trig m.val = 1 ∧ d.atRegs m.val ≤ d.now)) :=
  ⟨by decide, accepts_of (by decide), by decide⟩

theorem witness_SlotCommandsComplete_checkNow :
    let s : Machine.State := sTimed 1 1
    let src : Source := .sup
    let m : Fin 16 := 15
    let d : Dev := s.dev.quiet
    let off : Nat := (MST.MS_CMD.at m.val).off
    (s.dev.coreOn = true) ∧
    (Accepts d src Cls.mst 0 off 2) ∧
    (d.trig m.val = 1 ∧ d.atRegs m.val ≤ d.now) :=
  ⟨by decide, accepts_of (by decide), by decide⟩

theorem witness_SlotCommandsComplete_bind :
    let s : Machine.State := sSlot .staging
    let src : Source := .sup
    let m : Fin 16 := 15
    let page : Fin 32768 := pgn .port 0
    let more : Fin 256 := 0
    let d : Dev := s.dev.quiet
    let off : Nat := MST.MS_BIND_REQ.off
    (s.dev.coreOn = true) ∧
    (Accepts d src Cls.mst 0 off (bindReqWord false m.val page.val more.val)) :=
  ⟨by decide, accepts_of (by decide)⟩

theorem witness_SlotCommandsComplete_unbind :
    let s : Machine.State := sSlot .staging
    let src : Source := .sup
    let m : Fin 16 := 15
    let page : Fin 32768 := pgn .port 0
    let more : Fin 256 := 255
    let d : Dev := s.dev.quiet
    let off : Nat := MST.MS_BIND_REQ.off
    (s.dev.coreOn = true) ∧
    (Accepts d src Cls.mst 0 off (bindReqWord true m.val page.val more.val)) :=
  ⟨by decide, accepts_of (by decide)⟩

theorem witness_CheckerCompletes_start :
    let s : Machine.State := sQueue (job0 false)
    let d : Dev := s.dev.quiet
    let j : CheckJob := job0 false
    let t : List CheckJob := []
    (s.dev.coreOn = true) ∧
    (d.mst.running = none) ∧
    (d.mst.queue = j :: t) ∧
    (∀ (u : Nat), d.lateAt j.slot = some u → j.isTry = true → d.now < u) :=
  ⟨by decide, by decide, by decide, (fun _ _ h => absurd h (by decide))⟩

theorem witness_CheckerCompletes_lateTry :
    let s : Machine.State := sTryLate
    let d : Dev := s.dev.quiet
    let j : CheckJob := jobTry
    let t : List CheckJob := []
    let u : Nat := 5
    (s.dev.coreOn = true) ∧
    (d.mst.running = none) ∧
    (d.mst.queue = j :: t) ∧
    (d.lateAt j.slot = some u) ∧
    (j.isTry = true) ∧
    (u ≤ d.now) :=
  ⟨by decide, by decide, by decide, by decide, by decide, by decide⟩

theorem witness_CheckerCompletes_busy :
    let s : Machine.State := sRun false 4 []
    let d : Dev := s.dev.quiet
    (s.dev.coreOn = true) ∧
    (d.mst.running ≠ none ∨ d.mst.queue = []) :=
  ⟨by decide, by decide⟩

theorem witness_CheckerCompletes_endsNone :
    let s : Machine.State := State.reset
    let d : Dev := s.dev.quiet
    (s.dev.coreOn = true) ∧
    (d.mst.running = none) :=
  ⟨by decide, by decide⟩

theorem witness_CheckerCompletes_endsTry :
    let s : Machine.State := sRun true 0 []
    let d : Dev := s.dev.quiet
    let j : CheckJob := job0 true
    (s.dev.coreOn = true) ∧
    (d.mst.running = some j) ∧
    (j.isTry = true) :=
  ⟨by decide, by decide, by decide⟩

theorem witness_CheckerCompletes_endsGone :
    let s : Machine.State := sGone
    let d : Dev := s.dev.quiet
    let j : CheckJob := job0 false
    let m : Nat := j.slot
    (s.dev.coreOn = true) ∧
    (d.mst.running = some j) ∧
    (j.isTry = false) ∧
    ((d.slot m).state ≠ SlotState.checking) :=
  ⟨by decide, by decide, by decide, by decide⟩

theorem witness_CheckerCompletes_endsLate :
    let s : Machine.State := sRunAt 5 false 4 []
    let d : Dev := s.dev.quiet
    let dt : Nat := 0
    let j : CheckJob := job0 false
    let m : Nat := j.slot
    let held : Option Nat := if j.isTry = true then j.inst else (d.slot m).instant
    let bound : Nat := d.checkBound m (if d.trig m = 0 then some d.now else held)
    let e : Dev := d.pass (dt.min (j.start.getD d.mono + bound - d.mono))
    let t : Nat := 1
    (s.dev.coreOn = true) ∧
    (d.mst.running = some j) ∧
    (j.isTry = false) ∧
    ((d.slot m).state = SlotState.checking) ∧
    ((d.slot m).instant = some t) ∧
    (t ≤ e.now) :=
  ⟨by decide, by decide, by decide, by decide, by decide, by decide⟩

theorem witness_CheckerCompletes_endsCancelled :
    let s : Machine.State := sRunAt 0 true 4 []
    let d : Dev := s.dev.quiet
    let dt : Nat := 0
    let j : CheckJob := job0 false
    let m : Nat := j.slot
    let held : Option Nat := if j.isTry = true then j.inst else (d.slot m).instant
    let bound : Nat := d.checkBound m (if d.trig m = 0 then some d.now else held)
    let e : Dev := d.pass (dt.min (j.start.getD d.mono + bound - d.mono))
    (s.dev.coreOn = true) ∧
    (d.mst.running = some j) ∧
    (j.isTry = false) ∧
    ((d.slot m).state = SlotState.checking) ∧
    (∀ (t : Nat), (d.slot m).instant = some t → e.now < t) ∧
    ((d.slot m).cancel = true) :=
  ⟨by decide, by decide, by decide, by decide, (fun t h => by cases (show some 1 = some t from h); decide), by decide⟩

theorem witness_CheckerCompletes_arms :
    let s : Machine.State := sArms
    let d : Dev := s.dev.quiet
    let dt : Nat := 0
    let j : CheckJob := job0 false
    let m : Nat := j.slot
    let held : Option Nat := if j.isTry = true then j.inst else (d.slot m).instant
    let bound : Nat := d.checkBound m (if d.trig m = 0 then some d.now else held)
    let e : Dev := d.pass (dt.min (j.start.getD d.mono + bound - d.mono))
    let free : Dev := ({ e with mst := { e.mst with running := none } } : Dev).setF chkPg HDR.BUSY 0
    let fs : List Found := e.findings m (if d.trig m = 0 then some e.now else held)
    let rep : Dev := free.checkReport m j.isTry fs
    (s.dev.coreOn = true) ∧
    (d.mst.running = some j) ∧
    (j.isTry = false) ∧
    ((d.slot m).state = SlotState.checking) ∧
    (∀ (t : Nat), (d.slot m).instant = some t → e.now < t) ∧
    ((d.slot m).cancel = false) ∧
    (fs = []) ∧
    (rep.trig m ≠ 0) :=
  ⟨by decide, by decide, by decide, by decide, (fun t h => by cases (show some 1 = some t from h); decide),
    by decide, arms_quiet, rep_trig (P := (· ≠ 0)) arms_quiet (by decide)⟩

theorem witness_CheckerCompletes_applies :
    let s : Machine.State := sApplies
    let d : Dev := s.dev.quiet
    let dt : Nat := 0
    let j : CheckJob := job0 false
    let m : Nat := j.slot
    let held : Option Nat := if j.isTry = true then j.inst else (d.slot m).instant
    let bound : Nat := d.checkBound m (if d.trig m = 0 then some d.now else held)
    let e : Dev := d.pass (dt.min (j.start.getD d.mono + bound - d.mono))
    let free : Dev := ({ e with mst := { e.mst with running := none } } : Dev).setF chkPg HDR.BUSY 0
    let fs : List Found := e.findings m (if d.trig m = 0 then some e.now else held)
    let rep : Dev := free.checkReport m j.isTry fs
    (s.dev.coreOn = true) ∧
    (d.mst.running = some j) ∧
    (j.isTry = false) ∧
    ((d.slot m).state = SlotState.checking) ∧
    (∀ (t : Nat), (d.slot m).instant = some t → e.now < t) ∧
    ((d.slot m).cancel = false) ∧
    (fs = []) ∧
    (rep.trig m = 0) :=
  ⟨by decide, by decide, by decide, by decide, (fun t h => nomatch (show none = some t from h)), by decide,
    applies_quiet, rep_trig (P := (· = 0)) applies_quiet (by decide)⟩

theorem witness_CheckerCompletes_refuses :
    let s : Machine.State := sRun false 4 []
    let d : Dev := s.dev.quiet
    let dt : Nat := 0
    let j : CheckJob := job0 false
    let m : Nat := j.slot
    let held : Option Nat := if j.isTry = true then j.inst else (d.slot m).instant
    let bound : Nat := d.checkBound m (if d.trig m = 0 then some d.now else held)
    let e : Dev := d.pass (dt.min (j.start.getD d.mono + bound - d.mono))
    let fs : List Found := e.findings m (if d.trig m = 0 then some e.now else held)
    let f : Found := ((sRun false 4 []).dev.quiet.findings 15 none).headD ⟨(0, 0), none⟩
    let l : List Found := ((sRun false 4 []).dev.quiet.findings 15 none).tail
    (s.dev.coreOn = true) ∧
    (d.mst.running = some j) ∧
    (j.isTry = false) ∧
    ((d.slot m).state = SlotState.checking) ∧
    (∀ (t : Nat), (d.slot m).instant = some t → e.now < t) ∧
    ((d.slot m).cancel = false) ∧
    (fs = f :: l) :=
  ⟨by decide, by decide, by decide, by decide, (fun t h => nomatch (show none = some t from h)), by decide,
    eq_head_tail _ (findings_ne _ _ _ (by decide))⟩

theorem witness_InstantsComplete_apply :
    let s : Machine.State := sAt .armed false
    let m : Fin 16 := 15
    let d : Dev := s.dev.quiet
    let t : Nat := 5
    (s.dev.coreOn = true) ∧
    ((d.slot m.val).instant = some t) ∧
    ((d.slot m.val).state = SlotState.armed) ∧
    (d.armedBefore t = false) :=
  ⟨by decide, by decide, by decide, by decide⟩

theorem witness_InstantsComplete_stays :
    let s : Machine.State := sAt .staging false
    let m : Fin 16 := 15
    let d : Dev := s.dev.quiet
    (s.dev.coreOn = true) ∧
    ((d.slot m.val).state ≠ SlotState.armed ∨ ∀ (t : Nat), (d.slot m.val).instant = some t → d.armedBefore t = true) :=
  ⟨by decide, .inl (by decide)⟩

theorem witness_InstantsComplete_expired :
    let s : Machine.State := sAt .checking false
    let m : Fin 16 := 15
    let d : Dev := s.dev.quiet
    let t : Nat := 5
    (s.dev.coreOn = true) ∧
    (d.lateAt m.val = some t) ∧
    ((d.slot m.val).cancel = false) :=
  ⟨by decide, by decide, by decide⟩

theorem witness_InstantsComplete_cancelled :
    let s : Machine.State := sAt .checking true
    let m : Fin 16 := 15
    let d : Dev := s.dev.quiet
    let t : Nat := 5
    (s.dev.coreOn = true) ∧
    (d.lateAt m.val = some t) ∧
    ((d.slot m.val).cancel = true) :=
  ⟨by decide, by decide, by decide⟩

theorem witness_InstantsComplete_inTime :
    let s : Machine.State := State.reset
    let m : Fin 16 := 15
    let d : Dev := s.dev.quiet
    (s.dev.coreOn = true) ∧
    (d.lateAt m.val = none) :=
  ⟨by decide, by decide⟩

theorem witness_InputPortsComplete_monitor :
    let s : Machine.State := sPort 143 1 []
    let i : Fin 144 := 143
    let d : Dev := s.dev.quiet
    let q : Nat := pg Cls.port i.val
    (s.dev.coreOn = true) ∧
    (d.flag q PORT.DIR = false) ∧
    (d.st q ≠ 0) ∧
    (d.st q ≠ 4) :=
  ⟨by decide, by decide, by decide, by decide⟩

theorem witness_InputPortsComplete_present :
    let s : Machine.State := withPort (sPort 143 1 []) 143 fun x => { x with cmRun := some 255 }
    let i : Fin 144 := 143
    let d : Dev := s.dev.quiet
    let q : Nat := pg Cls.port i.val
    let n : Nat := 255
    (s.dev.coreOn = true) ∧
    (d.flag q PORT.DIR = false) ∧
    (d.st q ≠ 0) ∧
    (d.st q ≠ 4) ∧
    ((d.port i.val).cmRun = some n) ∧
    (d.fld q PORT.CM_CFG_HOLD ≤ n) :=
  ⟨by decide, by decide, by decide, by decide, by decide, by decide⟩

theorem witness_InputPortsComplete_survey :
    let s : Machine.State := sSurvey
    let src : Source := .pcie
    let i : Fin 144 := 143
    let v : Word := 6
    let d : Dev := s.dev.quiet
    let q : Nat := pg Cls.port i.val
    let old : Word := d.reg q PORT.CELL_CTL
    let w : Word := v ||| 16
    let e : Dev := d.setReg q PORT.CELL_CTL (old &&& ~~~4359 ||| w &&& 4359 ||| w &&& 16)
    let new : Word := old &&& ~~~4375 ||| w &&& 4375
    (s.dev.coreOn = true) ∧
    (Accepts d src Cls.port (i.val) PORT.CELL_CTL.off w) ∧
    (e.portWanted i.val = true) ∧
    (e.st q = 1) ∧
    (e.fld q PORT.IN_MODE = 6) ∧
    (e.flag q PORT.DIR = false) ∧
    (e.flag q PORT.DC_PRESENT = false) ∧
    (e.flag q PORT.RUN = false) ∧
    (fieldOf PORT.SURVEY_GO old = 0) ∧
    (fieldOf PORT.SURVEY_GO new = 1) ∧
    (fieldOf PORT.RUN old = 0) ∧
    (fieldOf PORT.RUN new = 0) ∧
    (fieldChanged PORT.DIR old new = false) ∧
    (fieldChanged PORT.IN_MODE old new = false) :=
  ⟨by decide, accepts_of (by decide), by decide, by decide, by decide, by decide, by decide, by decide, by decide,
    by decide, by decide, by decide, by decide, by decide⟩

theorem witness_InputPortsComplete_surveyEnd :
    let s : Machine.State := sPort 0 4 []
    let i : Fin 144 := 0
    let d : Dev := s.dev.quiet
    let q : Nat := pg Cls.port i.val
    (s.dev.coreOn = true) ∧
    (d.st q = 4) :=
  ⟨by decide, by decide⟩

theorem witness_PortsAndDiesComplete_recover :
    let s : Machine.State := sPort 143 5 [(PORT.FAULT_CAUSE, 3)]
    let i : Fin 144 := 143
    let d : Dev := s.dev.quiet
    let q : Nat := pg Cls.port i.val
    let k : Nat := i.val / 36
    let cause : Nat := d.fld q PORT.FAULT_CAUSE
    (s.dev.coreOn = true) ∧
    (d.st q = 5) ∧
    (d.causeGone i.val = true) ∧
    (d.flag q PORT.DIR = false ∨ cause = 1) ∧
    ((d.die k).lost = false) ∧
    ((d.die k).hot = false) :=
  ⟨by decide, by decide, by decide, by decide, by decide, by decide⟩

theorem witness_PortsAndDiesComplete_cool :
    let s : Machine.State := State.reset
    let i : Fin 144 := 143
    let d : Dev := s.dev.quiet
    let k : Nat := i.val / 36
    let t : BitVec 8 := 0
    (s.dev.coreOn = true) ∧
    (sext 8 t.toNat < sext 8 (d.fld (pg Cls.pdie k) PDIE.WARN)) :=
  ⟨by decide, by decide⟩

theorem witness_PortsAndDiesComplete_groupLock :
    let s : Machine.State := sGroupOn
    let g : Fin 16 := 15
    let d : Dev := s.dev.quiet
    let p : Nat := pg Cls.pgrp g.val
    (s.dev.coreOn = true) ∧
    (d.grpOn g.val = true) ∧
    (d.flag p PGRP.LOCKED = false) ∧
    (d.mcgRuns (d.fld p PGRP.MCG) = true) :=
  ⟨by decide, by decide, by decide, by decide⟩

theorem witness_PortsAndDiesComplete_groupUnlock :
    let s : Machine.State := sOn (pg .pgrp 15) [(PGRP.LOCKED, 1)]
    let g : Fin 16 := 15
    let d : Dev := s.dev.quiet
    let p : Nat := pg Cls.pgrp g.val
    (s.dev.coreOn = true) ∧
    (d.flag p PGRP.LOCKED = true) :=
  ⟨by decide, by decide⟩

theorem witness_PortsAndDiesComplete_droop :
    let s : Machine.State := State.reset
    let k : Fin 4 := 3
    let d : Dev := s.dev.quiet
    let p : Nat := pg Cls.pdie k.val
    (s.dev.coreOn = true) ∧
    (d.flag p PDIE.DROOP = false) :=
  ⟨by decide, by decide⟩

theorem witness_PortsAndDiesComplete_supplyLost :
    let s : Machine.State := sDie
    let k : Fin 4 := 3
    let d : Dev := s.dev.quiet
    let p : Nat := pg Cls.pdie k.val
    let vap : BitVec 16 := 4749
    let vapl : BitVec 16 := 1710
    let e : Dev := ((d.setReg p PDIE.DIE_SUPPLY (wd (vapl.toNat * 65536 + vap.toNat))).setFlag p PDIE.VAP_OK
            (decide (4750 ≤ vap.toNat ∧ vap.toNat ≤ 5250))).setFlag
        p PDIE.VAPL_OK (decide (1710 ≤ vapl.toNat ∧ vapl.toNat ≤ 1890))
    (s.dev.coreOn = true) ∧
    (d.flag p PDIE.VAP_OK = true) ∧
    (d.flag p PDIE.VAPL_OK = true) ∧
    ((e.flag p PDIE.VAP_OK && e.flag p PDIE.VAPL_OK) = false) :=
  ⟨by decide, by decide, by decide, by decide⟩

theorem witness_PortsAndDiesComplete_supplyBack :
    let s : Machine.State := State.reset
    let k : Fin 4 := 3
    let d : Dev := s.dev.quiet
    let p : Nat := pg Cls.pdie k.val
    let vap : BitVec 16 := 4750
    let vapl : BitVec 16 := 1890
    let e : Dev := ((d.setReg p PDIE.DIE_SUPPLY (wd (vapl.toNat * 65536 + vap.toNat))).setFlag p PDIE.VAP_OK
            (decide (4750 ≤ vap.toNat ∧ vap.toNat ≤ 5250))).setFlag
        p PDIE.VAPL_OK (decide (1710 ≤ vapl.toNat ∧ vapl.toNat ≤ 1890))
    (s.dev.coreOn = true) ∧
    ((d.flag p PDIE.VAP_OK && d.flag p PDIE.VAPL_OK) = false) ∧
    (e.flag p PDIE.VAP_OK = true) ∧
    (e.flag p PDIE.VAPL_OK = true) :=
  ⟨by decide, by decide, by decide, by decide⟩

theorem witness_PortsAndDiesComplete_tempWarn :
    let s : Machine.State := State.reset
    (s.dev.coreOn = true) :=
  by decide

theorem witness_PortsAndDiesComplete_tempFault :
    let s : Machine.State := State.reset
    let k : Fin 4 := 3
    let d : Dev := s.dev.quiet
    let t : BitVec 8 := 115
    (s.dev.coreOn = true) ∧
    (115 ≤ sext 8 t.toNat) ∧
    ((d.die k.val).hot = false) :=
  ⟨by decide, by decide, by decide⟩

theorem witness_PortsAndDiesComplete_refinFound :
    let s : Machine.State := State.reset
    let k : Fin 4 := 3
    let d : Dev := s.dev.quiet
    let p : Nat := pg Cls.pdie k.val
    let i : Fin 2 := 1
    let was : Bool := d.flag p (PDIE.PRESENT.at i.val)
    (s.dev.coreOn = true) ∧
    (was = false) :=
  ⟨by decide, by decide⟩

theorem witness_PortsAndDiesComplete_refinLost :
    let s : Machine.State := sOn (pg .pdie 3) [(PDIE.PRESENT.at 1, 1)]
    let k : Fin 4 := 3
    let d : Dev := s.dev.quiet
    let p : Nat := pg Cls.pdie k.val
    let i : Fin 2 := 1
    let mv : BitVec 16 := 100
    let was : Bool := d.flag p (PDIE.PRESENT.at i.val)
    let z : Dev := (d.setF p (PDIE.AMPL_MV.at i.val) mv.toNat).setFlag p (PDIE.PRESENT.at i.val) false
    let f : Dev := z.raise p PDIE.E_REFIN_LOST (wd i.val) (z.reg p (PDIE.REFIN_STAT.at i.val))
    (s.dev.coreOn = true) ∧
    (was = true) ∧
    (f.flag p (PDIE.PRESENT.at i.val) = false) :=
  ⟨by decide, by decide, by decide⟩

theorem witness_CaptureCommandsComplete_sync :
    let s : Machine.State := sSync
    let d : Dev := sSync.dev.quiet
    let i : Fin 144 := 143
    let q : Nat := pg Cls.port i.val
    (s.dev.coreOn = true) ∧
    (d = s.dev.quiet) ∧
    (d.st q = 2) ∧
    ((d.port i.val).pend = true) :=
  ⟨by decide, rfl, by decide, by decide⟩

theorem witness_CaptureCommandsComplete_word :
    let s : Machine.State := sRuns
    let d : Dev := sRuns.dev.quiet
    let i : Fin 144 := 143
    let r : CapRun := sRuns.dev.cap 143
    let stop : Option Nat := none
    (s.dev.coreOn = true) ∧
    (d = s.dev.quiet) ∧
    (d.emitRun i.val = some (r, stop)) :=
  ⟨by decide, rfl, by decide⟩

theorem witness_CaptureCommandsComplete_noWord :
    let s : Machine.State := State.reset
    let d : Dev := State.reset.dev.quiet
    let i : Fin 144 := 143
    (s.dev.coreOn = true) ∧
    (d = s.dev.quiet) ∧
    (d.emitRun i.val = none) :=
  ⟨by decide, rfl, by decide⟩

theorem witness_CaptureCommandsComplete_fall :
    let s : Machine.State := sFall
    let d : Dev := sFall.dev.quiet
    let i : Fin 144 := 143
    let q : Nat := pg Cls.port i.val
    let k : Fin 2 := 1
    (s.dev.coreOn = true) ∧
    (d = s.dev.quiet) ∧
    (d.flag q (PORT.EN.at k.val) = true) ∧
    (d.flag q (thrStat k.val) = true) ∧
    (d.fld q (PORT.THR_HOLD_HOLD.at k.val) ≤ (d.port i.val).low k.val + 1) :=
  ⟨by decide, rfl, by decide, by decide, by decide⟩

theorem witness_CaptureCommandsComplete_coef :
    let s : Machine.State := State.reset
    let src : Source := .pcie
    let i : Fin 144 := 143
    let v : Word := 0xffffff
    let d : Dev := s.dev.quiet
    let k : Fin 64 := 63
    let f : Fld := PORT.FIR_COEF.at k.val
    (s.dev.coreOn = true) ∧
    (Accepts d src Cls.port (i.val) f.off v) :=
  ⟨by decide, accepts_of (by decide)⟩

theorem witness_CaptureCommandsComplete_swap :
    let s : Machine.State := State.reset
    let src : Source := .pcie
    let i : Fin 144 := 143
    let v : Word := 0x100
    let d : Dev := s.dev.quiet
    let q : Nat := pg Cls.port i.val
    let new : Word := d.reg q PORT.CAP_CTL &&& ~~~4129047 ||| v &&& 4129047
    let e : Dev := d.setReg q PORT.CAP_CTL new
    let l : Dev := e.setF q PORT.LAT_TOT (e.latTot i.val)
    let f : Dev := l.setPort (i.val)
        (have __src := l.port i.val;
        { run := __src.run, pend := __src.pend, entered := __src.entered, cap := __src.cap, tail := __src.tail,
          outPreset := __src.outPreset, oidx := __src.oidx,
          capOld := List.filter (fun (x : Nat × Nat × Word) ↦ decide (x.fst ≠ PORT.CAP_CTL.off)) (l.port i.val).capOld,
          faultWas := __src.faultWas, pga := __src.pga, cmRun := __src.cmRun, lowA := __src.lowA, lowB := __src.lowB,
          clipAt := __src.clipAt, underAt := __src.underAt, swapAt := __src.swapAt, xf := __src.xf, mark := __src.mark,
          rx := __src.rx, src := __src.src, srcNext := __src.srcNext, srcArmed := __src.srcArmed, seq := __src.seq,
          gain := __src.gain, rampN := __src.rampN, holdLeft := __src.holdLeft, rampNew := __src.rampNew,
          change := __src.change, changeAt := __src.changeAt, spanSeq := __src.spanSeq, holdDue := __src.holdDue,
          stopRamp := __src.stopRamp, stopOn := __src.stopOn, suspTo := __src.suspTo, suspWin := __src.suspWin,
          devRun := __src.devRun, due := __src.due, repHold := __src.repHold, repRamp := __src.repRamp,
          flowOld := __src.flowOld })
    (s.dev.coreOn = true) ∧
    (Accepts d src Cls.port (i.val) PORT.CAP_CTL.off v) ∧
    (fieldChanged PORT.ACT_BANK (d.reg q PORT.CAP_CTL) new = true) ∧
    (f.swapWanted i.val = true) :=
  ⟨by decide, accepts_of (by decide), by decide, by decide⟩

theorem witness_CaptureCommandsComplete_noSwap :
    let s : Machine.State := sOn (pg .port 143) [(PORT.ACT_BANK, 1)]
    let src : Source := .pcie
    let i : Fin 144 := 143
    let v : Word := 0
    let d : Dev := s.dev.quiet
    let q : Nat := pg Cls.port i.val
    let new : Word := d.reg q PORT.CAP_CTL &&& ~~~4129047 ||| v &&& 4129047
    let e : Dev := d.setReg q PORT.CAP_CTL new
    let l : Dev := e.setF q PORT.LAT_TOT (e.latTot i.val)
    let f : Dev := l.setPort (i.val)
        (have __src := l.port i.val;
        { run := __src.run, pend := __src.pend, entered := __src.entered, cap := __src.cap, tail := __src.tail,
          outPreset := __src.outPreset, oidx := __src.oidx,
          capOld := List.filter (fun (x : Nat × Nat × Word) ↦ decide (x.fst ≠ PORT.CAP_CTL.off)) (l.port i.val).capOld,
          faultWas := __src.faultWas, pga := __src.pga, cmRun := __src.cmRun, lowA := __src.lowA, lowB := __src.lowB,
          clipAt := __src.clipAt, underAt := __src.underAt, swapAt := __src.swapAt, xf := __src.xf, mark := __src.mark,
          rx := __src.rx, src := __src.src, srcNext := __src.srcNext, srcArmed := __src.srcArmed, seq := __src.seq,
          gain := __src.gain, rampN := __src.rampN, holdLeft := __src.holdLeft, rampNew := __src.rampNew,
          change := __src.change, changeAt := __src.changeAt, spanSeq := __src.spanSeq, holdDue := __src.holdDue,
          stopRamp := __src.stopRamp, stopOn := __src.stopOn, suspTo := __src.suspTo, suspWin := __src.suspWin,
          devRun := __src.devRun, due := __src.due, repHold := __src.repHold, repRamp := __src.repRamp,
          flowOld := __src.flowOld })
    (s.dev.coreOn = true) ∧
    (Accepts d src Cls.port (i.val) PORT.CAP_CTL.off v) ∧
    (fieldChanged PORT.ACT_BANK (d.reg q PORT.CAP_CTL) new = true) ∧
    (f.swapWanted i.val = false) :=
  ⟨by decide, accepts_of (by decide), by decide, by decide⟩

theorem witness_CaptureCommandsComplete_force :
    let s : Machine.State := State.reset
    let src : Source := .pcie
    let i : Fin 144 := 143
    let v : Word := 0
    let d : Dev := s.dev.quiet
    let w : Word := v ||| 1
    (s.dev.coreOn = true) ∧
    (Accepts d src Cls.port (i.val) PORT.CAP_FIR_CTL.off w) :=
  ⟨by decide, accepts_of (by decide)⟩

theorem witness_CaptureCommandsComplete_swapDone :
    let s : Machine.State := withPort (sPort 143 2 [(PORT.ACT_BANK, 1)]) 143 fun x => { x with run := true }
    let i : Fin 144 := 143
    let d : Dev := s.dev.quiet
    (s.dev.coreOn = true) ∧
    ((d.port i.val).run = true) ∧
    (d.swapWanted i.val = true) :=
  ⟨by decide, by decide, by decide⟩

theorem witness_OutputWordsComplete_fetch :
    let s : Machine.State := sOut 3 1 3 id
    let i : Fin 144 := 143
    let d : Dev := s.dev.quiet
    let o : PortSt := d.port i.val
    (s.dev.coreOn = true) ∧
    (d.drives i.val = true) ∧
    (o.run = true) ∧
    (d.portRuns i.val = true) :=
  ⟨by decide, by decide, by decide, by decide⟩

theorem witness_OutputWordsComplete_holdStart :
    let s : Machine.State := sOut 3 1 4 fun x => { x with change := true }
    let i : Fin 144 := 143
    let d : Dev := s.dev.quiet
    let o : PortSt := d.port i.val
    (s.dev.coreOn = true) ∧
    (o.seq = 4) ∧
    (o.change = true) ∧
    (o.stopOn = false) ∧
    (o.rampNew = false) ∧
    (o.gain.n ≤ o.gain.a) :=
  ⟨by decide, by decide, by decide, by decide, by decide, by decide⟩

theorem witness_OutputWordsComplete_holdEnd :
    let s : Machine.State := sOut 3 1 5 id
    let i : Fin 144 := 143
    let d : Dev := s.dev.quiet
    let q : Nat := pg Cls.port i.val
    let o : PortSt := d.port i.val
    (s.dev.coreOn = true) ∧
    (o.seq = 5) ∧
    (d.st q = 3) ∧
    (o.holdLeft = 0) :=
  ⟨by decide, by decide, by decide, by decide⟩

theorem witness_OutputWordsComplete_holdEndStopped :
    let s : Machine.State := sOut 2 1 5 id
    let i : Fin 144 := 143
    let d : Dev := s.dev.quiet
    let q : Nat := pg Cls.port i.val
    let o : PortSt := d.port i.val
    (s.dev.coreOn = true) ∧
    (o.seq = 5) ∧
    (d.st q ≠ 3) :=
  ⟨by decide, by decide, by decide⟩

theorem witness_OutputWordsComplete_done :
    let s : Machine.State := sOne
    let i : Fin 144 := 143
    let d : Dev := s.dev.quiet
    let o : PortSt := d.port i.val
    (s.dev.coreOn = true) ∧
    (o.seq = 6) ∧
    (o.spanSeq = true) ∧
    (o.rampNew = false) ∧
    (o.gain.a = 0) :=
  ⟨by decide, by decide, by decide, by decide, by decide⟩

theorem witness_OutputMonitorsComplete_deviation :
    let s : Machine.State := sOut 3 1 3 id
    let i : Fin 144 := 143
    let d : Dev := s.dev.quiet
    (s.dev.coreOn = true) ∧
    (d.compares i.val = true) :=
  ⟨by decide, by decide⟩

theorem witness_OutputMonitorsComplete_load :
    let s : Machine.State := sLoad
    let i : Fin 144 := 143
    let d : Dev := s.dev.quiet
    let q : Nat := pg Cls.port i.val
    (s.dev.coreOn = true) ∧
    (d.flag q PORT.DIR = true) ∧
    (d.portRuns i.val = true) ∧
    (d.flag q PORT.SUSP = false) :=
  ⟨by decide, by decide, by decide, by decide⟩

theorem witness_OutputMonitorsComplete_limit :
    let s : Machine.State := sOut 3 1 3 id
    let i : Fin 144 := 143
    let d : Dev := s.dev.quiet
    let q : Nat := pg Cls.port i.val
    (s.dev.coreOn = true) ∧
    (d.flag q PORT.DIR = true) ∧
    (d.portRuns i.val = true) ∧
    (d.fld q PORT.MODE_USE = 1) :=
  ⟨by decide, by decide, by decide, by decide⟩

theorem witness_OutputMonitorsComplete_compliance :
    let s : Machine.State := sOut 2 2 3 id
    let i : Fin 144 := 143
    let d : Dev := s.dev.quiet
    let q : Nat := pg Cls.port i.val
    (s.dev.coreOn = true) ∧
    (d.flag q PORT.DIR = true) ∧
    (d.portRuns i.val = true) ∧
    (d.fld q PORT.MODE_USE = 2) :=
  ⟨by decide, by decide, by decide, by decide⟩

theorem witness_OutputMonitorsComplete_survey :
    let s : Machine.State := sPort 143 1 [(PORT.DIR, 1)]
    let src : Source := .pcie
    let i : Fin 144 := 143
    let v : Word := 0
    let d : Dev := s.dev.quiet
    let q : Nat := pg Cls.port i.val
    let w : Word := trig PORT.LSV_GO v
    let e : Dev := written d q PORT.LSV_CTL 0 1 w
    (s.dev.coreOn = true) ∧
    (Accepts d src Cls.port (i.val) PORT.LSV_CTL.off w) ∧
    (e.flag q HDR.BUSY = false) ∧
    (fieldOf PORT.LSV_GO (d.reg q PORT.LSV_CTL) = 0) ∧
    (fieldOf PORT.LSV_GO (heard d q PORT.LSV_CTL 1 w) = 1) :=
  ⟨by decide +kernel, accepts_of (by decide +kernel), by decide +kernel, by decide +kernel, by decide +kernel⟩

theorem witness_OutputMonitorsComplete_surveyEnd :
    let s : Machine.State := sPort 143 1 [(PORT.LSV_GO, 1)]
    let i : Fin 144 := 143
    let d : Dev := s.dev.quiet
    let q : Nat := pg Cls.port i.val
    (s.dev.coreOn = true) ∧
    (d.flag q PORT.LSV_GO = true) :=
  ⟨by decide, by decide⟩

theorem witness_OutputMonitorsComplete_release :
    let s : Machine.State := State.reset
    let d : Dev := s.dev.quiet
    (s.dev.coreOn = true) ∧
    (d.flag (pg Cls.pwr 0) PWR.PFAIL = false) :=
  ⟨by decide, by decide⟩

theorem witness_CalibrationCompletes_quick :
    let s : Machine.State := sSlice 3 true false
    let d : Dev := s.dev.quiet
    let g : Fin 16 := 15
    let sl : Fin 10 := 9
    let pass : Bool := true
    let p : Nat := pg Cls.pgrp g.val
    let step : Nat := d.fld p (PGRP.STEP.at sl.val)
    let quick : Bool := (d.slice g.val sl.val).boot
    (s.dev.coreOn = true) ∧
    (step ≠ 0) ∧
    (pass = true) ∧
    (quick = true) ∧
    (step = 3) :=
  ⟨by decide, by decide, by decide, by decide, by decide⟩

theorem witness_CalibrationCompletes_nextStep :
    let s : Machine.State := sSlice 1 false false
    let d : Dev := s.dev.quiet
    let g : Fin 16 := 15
    let sl : Fin 10 := 9
    let pass : Bool := true
    let adc : Word := 0
    let dac : Word := 0
    let p : Nat := pg Cls.pgrp g.val
    let step : Nat := d.fld p (PGRP.STEP.at sl.val)
    let quick : Bool := (d.slice g.val sl.val).boot
    let dq : Dev := d.pass ((d.slice g.val sl.val).stepDue - d.mono)
    let e : Dev := if quick = true ∧ (pass = false ∨ step = 3) then
        dq.setSlice (g.val) (sl.val)
          (have __src := dq.slice g.val sl.val;
          { cal48 := __src.cal48, cal44 := __src.cal44, adc48 := __src.adc48, dac48 := __src.dac48, adc44 := __src.adc44,
            dac44 := __src.dac44, newAdc := __src.newAdc, newDac := __src.newDac, stepDue := __src.stepDue, ext := __src.ext,
            marked := __src.marked, stale := __src.stale, boot := false, hist := __src.hist, fasts := __src.fasts })
      else dq
    let v : SliceSt := e.slice g.val sl.val
    let f : Dev := e.setSlice g.val sl.val
        { cal48 := v.cal48, cal44 := v.cal44, adc48 := v.adc48, dac48 := v.dac48, adc44 := v.adc44, dac44 := v.dac44,
          newAdc := stepTrim step (if step = 1 then d.reg p (PGRP.SLICE_TRIM_ADC.at sl.val) else v.newAdc) adc,
          newDac := stepTrim step (if step = 1 then d.reg p (PGRP.SLICE_TRIM_DAC.at sl.val) else v.newDac) dac,
          stepDue := v.stepDue, ext := v.ext, marked := v.marked, stale := v.stale, boot := v.boot, hist := v.hist,
          fasts := v.fasts }
    let n : Nat := 2
    (s.dev.coreOn = true) ∧
    (step ≠ 0) ∧
    (pass = true) ∧
    (quick = false) ∧
    (f.nextStep (g.val) (sl.val) step = some n) :=
  ⟨by decide, by decide, by decide, by decide, by decide⟩

theorem witness_CalibrationCompletes_lastStep :
    let s : Machine.State := sSlice 6 false true
    let d : Dev := s.dev.quiet
    let g : Fin 16 := 15
    let sl : Fin 10 := 9
    let pass : Bool := true
    let adc : Word := 0
    let dac : Word := 0
    let p : Nat := pg Cls.pgrp g.val
    let step : Nat := d.fld p (PGRP.STEP.at sl.val)
    let quick : Bool := (d.slice g.val sl.val).boot
    let dq : Dev := d.pass ((d.slice g.val sl.val).stepDue - d.mono)
    let e : Dev := if quick = true ∧ (pass = false ∨ step = 3) then
        dq.setSlice (g.val) (sl.val)
          (have __src := dq.slice g.val sl.val;
          { cal48 := __src.cal48, cal44 := __src.cal44, adc48 := __src.adc48, dac48 := __src.dac48, adc44 := __src.adc44,
            dac44 := __src.dac44, newAdc := __src.newAdc, newDac := __src.newDac, stepDue := __src.stepDue, ext := __src.ext,
            marked := __src.marked, stale := __src.stale, boot := false, hist := __src.hist, fasts := __src.fasts })
      else dq
    let v : SliceSt := e.slice g.val sl.val
    let f : Dev := e.setSlice g.val sl.val
        { cal48 := v.cal48, cal44 := v.cal44, adc48 := v.adc48, dac48 := v.dac48, adc44 := v.adc44, dac44 := v.dac44,
          newAdc := stepTrim step (if step = 1 then d.reg p (PGRP.SLICE_TRIM_ADC.at sl.val) else v.newAdc) adc,
          newDac := stepTrim step (if step = 1 then d.reg p (PGRP.SLICE_TRIM_DAC.at sl.val) else v.newDac) dac,
          stepDue := v.stepDue, ext := v.ext, marked := v.marked, stale := v.stale, boot := v.boot, hist := v.hist,
          fasts := v.fasts }
    (s.dev.coreOn = true) ∧
    (step ≠ 0) ∧
    (pass = true) ∧
    (quick = false) ∧
    (f.nextStep (g.val) (sl.val) step = none) :=
  ⟨by decide, by decide, by decide, by decide, by decide⟩

theorem witness_CalibrationCompletes_fails :
    let s : Machine.State := sSlice 6 false true
    let d : Dev := s.dev.quiet
    let g : Fin 16 := 15
    let sl : Fin 10 := 9
    let pass : Bool := false
    let p : Nat := pg Cls.pgrp g.val
    let step : Nat := d.fld p (PGRP.STEP.at sl.val)
    (s.dev.coreOn = true) ∧
    (step ≠ 0) ∧
    (pass = false) :=
  ⟨by decide, by decide, by decide⟩

theorem witness_CalibrationCompletes_goodHeld :
    let s : Machine.State := sDieSt 1 id
    let d : Dev := s.dev.quiet
    let k : Fin 4 := 3
    let ppm : Int := 500
    let hold : Bool := d.flag (pg Cls.pgrp (k.val * 4)) PGRP.REF_HOLD
    (s.dev.coreOn = true) ∧
    (ppm.natAbs ≤ 500) ∧
    (hold = true) :=
  ⟨by decide, by decide, by decide⟩

theorem witness_CalibrationCompletes_good :
    let s : Machine.State := State.reset
    let d : Dev := s.dev.quiet
    let k : Fin 4 := 3
    let ppm : Int := -500
    let hold : Bool := d.flag (pg Cls.pgrp (k.val * 4)) PGRP.REF_HOLD
    (s.dev.coreOn = true) ∧
    (ppm.natAbs ≤ 500) ∧
    (hold = false) :=
  ⟨by decide, by decide, by decide⟩

theorem witness_CalibrationCompletes_badHeld :
    let s : Machine.State := sDieSt 1 id
    let d : Dev := s.dev.quiet
    let k : Fin 4 := 3
    let ppm : Int := 501
    let hold : Bool := d.flag (pg Cls.pgrp (k.val * 4)) PGRP.REF_HOLD
    (s.dev.coreOn = true) ∧
    (500 < ppm.natAbs) ∧
    (hold = true) :=
  ⟨by decide, by decide, by decide⟩

theorem witness_CalibrationCompletes_bad :
    let s : Machine.State := sDieSt 0 id
    let d : Dev := s.dev.quiet
    let k : Fin 4 := 3
    let ppm : Int := -501
    let hold : Bool := d.flag (pg Cls.pgrp (k.val * 4)) PGRP.REF_HOLD
    (s.dev.coreOn = true) ∧
    (500 < ppm.natAbs) ∧
    (hold = false) :=
  ⟨by decide, by decide, by decide⟩

theorem witness_CalibrationCompletes_refOk :
    let s : Machine.State := sDieSt 1 fun x => { x with refGood := some 0 }
    let d : Dev := s.dev.quiet
    let k : Fin 4 := 3
    let t : Nat := 0
    (s.dev.coreOn = true) ∧
    ((d.die k.val).refGood = some t) ∧
    (d.flag (pg Cls.pgrp (k.val * 4)) PGRP.REF_HOLD = true) :=
  ⟨by decide, by decide, by decide⟩

theorem witness_CalibrationCompletes_tone :
    let s : Machine.State := State.reset
    let thd : Nat := 1301
    (s.dev.coreOn = true) ∧
    (1300 < thd) :=
  ⟨by decide, by decide⟩

theorem witness_CalibrationCompletes_toneStill :
    let s : Machine.State := sDieSt 0 fun x => { x with toneFault := true }
    let d : Dev := s.dev.quiet
    let k : Fin 4 := 3
    let thd : Nat := 1300
    (s.dev.coreOn = true) ∧
    (thd ≤ 1300) ∧
    ((d.die k.val).toneFault = true) :=
  ⟨by decide, by decide, by decide⟩

theorem witness_CalibrationCompletes_toneFault :
    let s : Machine.State := State.reset
    let d : Dev := s.dev.quiet
    let k : Fin 4 := 3
    let thd : Nat := 1300
    (s.dev.coreOn = true) ∧
    (thd ≤ 1300) ∧
    ((d.die k.val).toneFault = false) :=
  ⟨by decide, by decide, by decide⟩

theorem witness_CalibrationCompletes_stale :
    let s : Machine.State := dStale
    let d : Dev := s.dev.quiet
    let g : Fin 16 := 15
    let sl : Fin 10 := 9
    (s.dev.coreOn = true) ∧
    (d.slState g.val sl.val = 2 ∨ d.slState g.val sl.val = 3 ∨ d.slState g.val sl.val = 5) ∧
    ((d.slice g.val sl.val).stale = false) ∧
    (d.fld (pg Cls.pgrp g.val) PGRP.AGE_MAX * 10 < d.sliceAge g.val sl.val) :=
  ⟨by decide, by decide, by decide, by decide⟩

theorem witness_RotationCommandsComplete_due :
    let s : Machine.State := sRotPort []
    let g : Fin 16 := 15
    let d : Dev := s.dev.quiet
    let e : Dev := d.pass ((d.group g.val).dueAt - d.mono)
    (s.dev.coreOn = true) ∧
    (d.rotBarred g.val = false) ∧
    (e.rotOldest g.val ≠ none) :=
  ⟨by decide, by decide, by decide⟩

theorem witness_RotationCommandsComplete_dueNone :
    let s : Machine.State := sGroup [(HDR.ENABLE, 1), (PGRP.REF_HOLD, 0)]
    let g : Fin 16 := 15
    let d : Dev := s.dev.quiet
    let e : Dev := d.pass ((d.group g.val).dueAt - d.mono)
    (s.dev.coreOn = true) ∧
    (d.rotBarred g.val = false) ∧
    (e.rotOldest g.val = none) :=
  ⟨by decide, by decide, by decide⟩

theorem witness_RotationCommandsComplete_request :
    let s : Machine.State := sRotPort []
    let src : Source := .pcie
    let g : Fin 16 := 15
    let d : Dev := s.dev.quiet
    let p : Nat := pg Cls.pgrp g.val
    let port : Fin 16 := 8
    let w : Word := trig PGRP.GO (setField PGRP.HO_REQ_PORT (port.val) 0)
    (s.dev.coreOn = true) ∧
    (Accepts d src Cls.pgrp (g.val) PGRP.HO_REQ.off w) ∧
    (fieldOf PGRP.GO (heard d p PGRP.HO_REQ 271 w) = 1) :=
  ⟨by decide, accepts_of (by decide), by decide⟩

theorem witness_RotationCommandsComplete_freeze :
    let s : Machine.State := State.reset
    let src : Source := .pcie
    let g : Fin 16 := 15
    let d : Dev := s.dev.quiet
    let v : Word := 20
    let w : Word := trig PGRP.FREEZE v
    (s.dev.coreOn = true) ∧
    (Accepts d src Cls.pgrp (g.val) PGRP.ROT_CTL.off w) :=
  ⟨by decide, accepts_of (by decide)⟩

theorem witness_RotationCommandsComplete_compare :
    let s : Machine.State := sRot (rot0 3 none)
    let g : Fin 16 := 15
    let d : Dev := s.dev.quiet
    let r : Rot := rot0 3 none
    (s.dev.coreOn = true) ∧
    ((d.group g.val).rot = some r) ∧
    (r.phase ≤ 3) ∧
    (r.stopped = false) ∧
    (r.defer = none) :=
  ⟨by decide, by decide, by decide, by decide, by decide⟩

theorem witness_RotationCommandsComplete_defers :
    let s : Machine.State := sRot (rot0 3 (some 0))
    let g : Fin 16 := 15
    let d : Dev := s.dev.quiet
    let r : Rot := rot0 3 (some 0)
    (s.dev.coreOn = true) ∧
    ((d.group g.val).rot = some r) ∧
    (r.phase ≤ 3) ∧
    (r.defer ≠ none) :=
  ⟨by decide, by decide, by decide, by decide⟩

theorem witness_RotationCommandsComplete_timeout :
    let s : Machine.State := sRot (rot0 3 (some 0))
    let g : Fin 16 := 15
    let d : Dev := s.dev.quiet
    let r : Rot := rot0 3 (some 0)
    let t : Nat := 0
    (s.dev.coreOn = true) ∧
    ((d.group g.val).rot = some r) ∧
    (r.defer = some t) ∧
    (r.phase ≤ 3) :=
  ⟨by decide, by decide, by decide, by decide⟩

theorem witness_RotationCommandsComplete_xfade :
    let s : Machine.State := sRot (rot0 6 none)
    let g : Fin 16 := 15
    let d : Dev := s.dev.quiet
    let r : Rot := rot0 6 none
    (s.dev.coreOn = true) ∧
    ((d.group g.val).rot = some r) ∧
    (r.phase = 6) ∧
    (d.xfadeOver (g.val) r = true) :=
  ⟨by decide, by decide, by decide, by decide⟩

theorem witness_RotationCommandsComplete_fail :
    let s : Machine.State := State.reset
    let g : Fin 16 := 15
    let d : Dev := s.dev.quiet
    let sl : Fin 10 := 9
    (s.dev.coreOn = true) ∧
    (d.slState g.val sl.val ≠ 7) :=
  ⟨by decide, by decide⟩

theorem witness_RotationCommandsComplete_repair :
    let s : Machine.State := st fun d => d.setGroup 15 { d.group 15 with reps := [rep0] }
    let g : Fin 16 := 15
    let d : Dev := s.dev.quiet
    let r : Rep := rep0
    (s.dev.coreOn = true) ∧
    (List.find? (fun (r : Rep) ↦ r.new.isNone && !r.again) (d.group g.val).reps = some r) ∧
    ((d.group g.val).rot = none) :=
  ⟨by decide, by decide, by decide⟩

theorem witness_TileMovesComplete_nop :
    let s : Machine.State := sTile (2 ^ 62) id
    let t : Fin 4096 := 4095
    let d : Dev := s.dev.quiet
    let x : TSite := d.site t.val
    let is : Nat → Prop := fun (k : Nat) ↦ (d.siteOk x fun (w : Nat) ↦ decide (ib w 63 62 = 1 ∧ ib w 61 56 = k)) = true
    (s.dev.tilesOn = true) ∧
    (is 0) :=
  ⟨by decide, by decide⟩

theorem witness_TileMovesComplete_ldt :
    let s : Machine.State := sTile (2 ^ 62 + 1 * 2 ^ 56) id
    let t : Fin 4096 := 4095
    let d : Dev := s.dev.quiet
    let x : TSite := d.site t.val
    let is : Nat → Prop := fun (k : Nat) ↦ (d.siteOk x fun (w : Nat) ↦ decide (ib w 63 62 = 1 ∧ ib w 61 56 = k)) = true
    (s.dev.tilesOn = true) ∧
    (is 1) :=
  ⟨by decide, by decide⟩

theorem witness_TileMovesComplete_movt :
    let s : Machine.State := sTile (2 ^ 62 + 2 * 2 ^ 56) id
    let t : Fin 4096 := 4095
    let d : Dev := s.dev.quiet
    let x : TSite := d.site t.val
    let is : Nat → Prop := fun (k : Nat) ↦ (d.siteOk x fun (w : Nat) ↦ decide (ib w 63 62 = 1 ∧ ib w 61 56 = k)) = true
    (s.dev.tilesOn = true) ∧
    (is 2) :=
  ⟨by decide, by decide⟩

theorem witness_TileMovesComplete_addt :
    let s : Machine.State := sTile (2 ^ 62 + 3 * 2 ^ 56) id
    let t : Fin 4096 := 4095
    let d : Dev := s.dev.quiet
    let x : TSite := d.site t.val
    let is : Nat → Prop := fun (k : Nat) ↦ (d.siteOk x fun (w : Nat) ↦ decide (ib w 63 62 = 1 ∧ ib w 61 56 = k)) = true
    (s.dev.tilesOn = true) ∧
    (is 3) :=
  ⟨by decide, by decide⟩

theorem witness_TileMovesComplete_clra :
    let s : Machine.State := sTile (2 ^ 62 + 4 * 2 ^ 56) id
    let t : Fin 4096 := 4095
    let d : Dev := s.dev.quiet
    let x : TSite := d.site t.val
    let is : Nat → Prop := fun (k : Nat) ↦ (d.siteOk x fun (w : Nat) ↦ decide (ib w 63 62 = 1 ∧ ib w 61 56 = k)) = true
    (s.dev.tilesOn = true) ∧
    (is 4) :=
  ⟨by decide, by decide⟩

theorem witness_TileMovesComplete_lda :
    let s : Machine.State := sTile (2 ^ 62 + 5 * 2 ^ 56 + 39 * 2 ^ 41) id
    let t : Fin 4096 := 4095
    let d : Dev := s.dev.quiet
    let x : TSite := d.site t.val
    let is : Nat → Prop := fun (k : Nat) ↦ (d.siteOk x fun (w : Nat) ↦ decide (ib w 63 62 = 1 ∧ ib w 61 56 = k)) = true
    (s.dev.tilesOn = true) ∧
    (is 5) :=
  ⟨by decide, by decide⟩

theorem witness_TileMovesComplete_setoff :
    let s : Machine.State := sTile (2 ^ 62 + 6 * 2 ^ 56) id
    let t : Fin 4096 := 4095
    let d : Dev := s.dev.quiet
    let x : TSite := d.site t.val
    let is : Nat → Prop := fun (k : Nat) ↦ (d.siteOk x fun (w : Nat) ↦ decide (ib w 63 62 = 1 ∧ ib w 61 56 = k)) = true
    (s.dev.tilesOn = true) ∧
    (is 6) :=
  ⟨by decide, by decide⟩

theorem witness_TileMovesComplete_getoff :
    let s : Machine.State := sTile (2 ^ 62 + 7 * 2 ^ 56) id
    let t : Fin 4096 := 4095
    let d : Dev := s.dev.quiet
    let x : TSite := d.site t.val
    let is : Nat → Prop := fun (k : Nat) ↦ (d.siteOk x fun (w : Nat) ↦ decide (ib w 63 62 = 1 ∧ ib w 61 56 = k)) = true
    (s.dev.tilesOn = true) ∧
    (is 7) :=
  ⟨by decide, by decide⟩

theorem witness_TileMovesComplete_settag :
    let s : Machine.State := sTile (2 ^ 62 + 8 * 2 ^ 56) id
    let t : Fin 4096 := 4095
    let d : Dev := s.dev.quiet
    let x : TSite := d.site t.val
    let is : Nat → Prop := fun (k : Nat) ↦ (d.siteOk x fun (w : Nat) ↦ decide (ib w 63 62 = 1 ∧ ib w 61 56 = k)) = true
    (s.dev.tilesOn = true) ∧
    (is 8) :=
  ⟨by decide, by decide⟩

theorem witness_TileMacsComplete_short_ :
    let s : Machine.State := sTile (2 ^ 21) id
    let t : Fin 4096 := 4095
    let ecc : MacEcc := eccClean
    let k : Nat := 0
    let c : Instr := .macNone 4095 eccClean
    let d : Dev := s.dev.quiet
    let x : TSite := d.site t.val
    let w : Nat := d.siteInstr x
    let e : Dev := d.trimInputs x.r x.c x.row
    let short : Bool := e.needsInput x (List.filter (fun (p : Nat) ↦ (macPops w p).isSome) (List.range 2))
    (s.dev.tilesOn = true) ∧
    ((k, c) ∈
       [(0, Instr.macNone t ecc), (1, Instr.macLd t ecc), (2, Instr.macAdd t ecc), (3, Instr.macSub t ecc),
         (4, Instr.macLdc t ecc), (5, Instr.macAddc t ecc), (6, Instr.macSubc t ecc), (7, Instr.macLdr t ecc)]) ∧
    ((d.siteOk x fun (w : Nat) ↦ decide (ib w 63 62 = 0 ∧ ib w 61 59 = k)) = true) ∧
    (short = true) :=
  ⟨by decide, by decide, by decide, by decide⟩

theorem witness_TileMacsComplete_full :
    let s : Machine.State := sTile (1 * 2 ^ 59 + 2 ^ 40 + 4 * 2 ^ 29) (fun u => { u with out0 := List.replicate 32 ⟨0, 0, 0, 0, false, false⟩ })
    let t : Fin 4096 := 4095
    let ecc : MacEcc := eccClean
    let k : Nat := 1
    let c : Instr := .macLd 4095 eccClean
    let d : Dev := s.dev.quiet
    let x : TSite := d.site t.val
    let w : Nat := d.siteInstr x
    let e : Dev := d.trimInputs x.r x.c x.row
    let full : Bool := match macOut w with
      | some p => decide (32 ≤ ((e.tile x.L).outq p).length)
      | none => false
    let short : Bool := e.needsInput x (List.filter (fun (p : Nat) ↦ (macPops w p).isSome) (List.range 2))
    (s.dev.tilesOn = true) ∧
    ((k, c) ∈
       [(0, Instr.macNone t ecc), (1, Instr.macLd t ecc), (2, Instr.macAdd t ecc), (3, Instr.macSub t ecc),
         (4, Instr.macLdc t ecc), (5, Instr.macAddc t ecc), (6, Instr.macSubc t ecc), (7, Instr.macLdr t ecc)]) ∧
    ((d.siteOk x fun (w : Nat) ↦ decide (ib w 63 62 = 0 ∧ ib w 61 59 = k)) = true) ∧
    (short = false) ∧
    (full = true) :=
  ⟨by decide, by decide, by decide, by decide, by decide⟩

theorem witness_TileMacsComplete_runs :
    let s : Machine.State := sTile (7 * 2 ^ 59) id
    let t : Fin 4096 := 4095
    let ecc : MacEcc := eccClean
    let k : Nat := 7
    let c : Instr := .macLdr 4095 eccClean
    let d : Dev := s.dev.quiet
    let x : TSite := d.site t.val
    let w : Nat := d.siteInstr x
    let e : Dev := d.trimInputs x.r x.c x.row
    let full : Bool := match macOut w with
      | some p => decide (32 ≤ ((e.tile x.L).outq p).length)
      | none => false
    let short : Bool := e.needsInput x (List.filter (fun (p : Nat) ↦ (macPops w p).isSome) (List.range 2))
    (s.dev.tilesOn = true) ∧
    ((k, c) ∈
       [(0, Instr.macNone t ecc), (1, Instr.macLd t ecc), (2, Instr.macAdd t ecc), (3, Instr.macSub t ecc),
         (4, Instr.macLdc t ecc), (5, Instr.macAddc t ecc), (6, Instr.macSubc t ecc), (7, Instr.macLdr t ecc)]) ∧
    ((d.siteOk x fun (w : Nat) ↦ decide (ib w 63 62 = 0 ∧ ib w 61 59 = k)) = true) ∧
    (short = false) ∧
    (full = false) ∧
    (aopCascades (ib w 61 59) = false) :=
  ⟨by decide, by decide, by decide, by decide, by decide, by decide⟩

theorem witness_TileMacsComplete_waits :
    let s : Machine.State := sTile2 (4 * 2 ^ 59)
    let t : Fin 4096 := 4095
    let ecc : MacEcc := eccClean
    let k : Nat := 4
    let c : Instr := .macLdc 4095 eccClean
    let d : Dev := s.dev.quiet
    let x : TSite := d.site t.val
    let w : Nat := d.siteInstr x
    let e : Dev := d.trimInputs x.r x.c x.row
    let full : Bool := match macOut w with
      | some p => decide (32 ≤ ((e.tile x.L).outq p).length)
      | none => false
    let short : Bool := e.needsInput x (List.filter (fun (p : Nat) ↦ (macPops w p).isSome) (List.range 2))
    (s.dev.tilesOn = true) ∧
    ((k, c) ∈
       [(0, Instr.macNone t ecc), (1, Instr.macLd t ecc), (2, Instr.macAdd t ecc), (3, Instr.macSub t ecc),
         (4, Instr.macLdc t ecc), (5, Instr.macAddc t ecc), (6, Instr.macSubc t ecc), (7, Instr.macLdr t ecc)]) ∧
    ((d.siteOk x fun (w : Nat) ↦ decide (ib w 63 62 = 0 ∧ ib w 61 59 = k)) = true) ∧
    (short = false) ∧
    (full = false) ∧
    (aopCascades (ib w 61 59) = true) ∧
    (e.cascade x = none) :=
  ⟨by decide, by decide, by decide, by decide, by decide, by decide, by decide⟩

theorem witness_TileMacsComplete_cascades :
    let s : Machine.State := sTile (6 * 2 ^ 59) id
    let t : Fin 4096 := 4095
    let ecc : MacEcc := eccClean
    let k : Nat := 6
    let c : Instr := .macSubc 4095 eccClean
    let d : Dev := s.dev.quiet
    let x : TSite := d.site t.val
    let w : Nat := d.siteInstr x
    let e : Dev := d.trimInputs x.r x.c x.row
    let full : Bool := match macOut w with
      | some p => decide (32 ≤ ((e.tile x.L).outq p).length)
      | none => false
    let short : Bool := e.needsInput x (List.filter (fun (p : Nat) ↦ (macPops w p).isSome) (List.range 2))
    let cas : Cas := { Cas.zero with tag := some .fault }
    (s.dev.tilesOn = true) ∧
    ((k, c) ∈
       [(0, Instr.macNone t ecc), (1, Instr.macLd t ecc), (2, Instr.macAdd t ecc), (3, Instr.macSub t ecc),
         (4, Instr.macLdc t ecc), (5, Instr.macAddc t ecc), (6, Instr.macSubc t ecc), (7, Instr.macLdr t ecc)]) ∧
    ((d.siteOk x fun (w : Nat) ↦ decide (ib w 63 62 = 0 ∧ ib w 61 59 = k)) = true) ∧
    (short = false) ∧
    (full = false) ∧
    (aopCascades (ib w 61 59) = true) ∧
    (e.cascade x = some cas) :=
  ⟨by decide, by decide, by decide, by decide, by decide, by decide, rfl⟩

theorem witness_TileControlCompletes_ctlNop :
    let s : Machine.State := sTile (2 ^ 63 + 0 * 2 ^ 56) id
    let t : Fin 4096 := 4095
    let d : Dev := s.dev.quiet
    let x : TSite := d.site t.val
    let is : Nat → Prop := fun (k : Nat) ↦ (d.siteOk x fun (w : Nat) ↦ decide (ib w 63 62 = 2 ∧ ib w 61 56 = k)) = true
    (s.dev.tilesOn = true) ∧
    (is 0) :=
  ⟨by decide, by decide⟩

theorem witness_TileControlCompletes_loop0 :
    let s : Machine.State := sTile (2 ^ 63 + 1 * 2 ^ 56 + 255 * 2 ^ 44) id
    let t : Fin 4096 := 4095
    let d : Dev := s.dev.quiet
    let x : TSite := d.site t.val
    let is : Nat → Prop := fun (k : Nat) ↦ (d.siteOk x fun (w : Nat) ↦ decide (ib w 63 62 = 2 ∧ ib w 61 56 = k)) = true
    (s.dev.tilesOn = true) ∧
    (is 1) :=
  ⟨by decide, by decide⟩

theorem witness_TileControlCompletes_loop1 :
    let s : Machine.State := sTile (2 ^ 63 + 2 * 2 ^ 56 + 255 * 2 ^ 44) id
    let t : Fin 4096 := 4095
    let d : Dev := s.dev.quiet
    let x : TSite := d.site t.val
    let is : Nat → Prop := fun (k : Nat) ↦ (d.siteOk x fun (w : Nat) ↦ decide (ib w 63 62 = 2 ∧ ib w 61 56 = k)) = true
    (s.dev.tilesOn = true) ∧
    (is 2) :=
  ⟨by decide, by decide⟩

theorem witness_TileControlCompletes_br :
    let s : Machine.State := sTile (2 ^ 63 + 3 * 2 ^ 56) id
    let t : Fin 4096 := 4095
    let d : Dev := s.dev.quiet
    let x : TSite := d.site t.val
    let is : Nat → Prop := fun (k : Nat) ↦ (d.siteOk x fun (w : Nat) ↦ decide (ib w 63 62 = 2 ∧ ib w 61 56 = k)) = true
    (s.dev.tilesOn = true) ∧
    (is 3) :=
  ⟨by decide, by decide⟩

theorem witness_TileControlCompletes_wait :
    let s : Machine.State := sTile (2 ^ 63 + 4 * 2 ^ 56) id
    let t : Fin 4096 := 4095
    let d : Dev := s.dev.quiet
    let x : TSite := d.site t.val
    let is : Nat → Prop := fun (k : Nat) ↦ (d.siteOk x fun (w : Nat) ↦ decide (ib w 63 62 = 2 ∧ ib w 61 56 = k)) = true
    (s.dev.tilesOn = true) ∧
    (is 4) :=
  ⟨by decide, by decide⟩

theorem witness_TileControlCompletes_halt :
    let s : Machine.State := sTile (2 ^ 63 + 5 * 2 ^ 56) id
    let t : Fin 4096 := 4095
    let d : Dev := s.dev.quiet
    let x : TSite := d.site t.val
    let is : Nat → Prop := fun (k : Nat) ↦ (d.siteOk x fun (w : Nat) ↦ decide (ib w 63 62 = 2 ∧ ib w 61 56 = k)) = true
    (s.dev.tilesOn = true) ∧
    (is 5) :=
  ⟨by decide, by decide⟩

theorem witness_TileControlCompletes_bmerge :
    let s : Machine.State := sTile (2 ^ 63 + 6 * 2 ^ 56) id
    let t : Fin 4096 := 4095
    let d : Dev := s.dev.quiet
    let x : TSite := d.site t.val
    let is : Nat → Prop := fun (k : Nat) ↦ (d.siteOk x fun (w : Nat) ↦ decide (ib w 63 62 = 2 ∧ ib w 61 56 = k)) = true
    (s.dev.tilesOn = true) ∧
    (is 6) :=
  ⟨by decide, by decide⟩

theorem witness_TileControlCompletes_emark :
    let s : Machine.State := sTile (2 ^ 63 + 7 * 2 ^ 56) id
    let t : Fin 4096 := 4095
    let d : Dev := s.dev.quiet
    let x : TSite := d.site t.val
    let is : Nat → Prop := fun (k : Nat) ↦ (d.siteOk x fun (w : Nat) ↦ decide (ib w 63 62 = 2 ∧ ib w 61 56 = k)) = true
    (s.dev.tilesOn = true) ∧
    (is 7) :=
  ⟨by decide, by decide⟩

theorem witness_TileControlCompletes_setlen :
    let s : Machine.State := sTile (2 ^ 63 + 8 * 2 ^ 56) id
    let t : Fin 4096 := 4095
    let d : Dev := s.dev.quiet
    let x : TSite := d.site t.val
    let is : Nat → Prop := fun (k : Nat) ↦ (d.siteOk x fun (w : Nat) ↦ decide (ib w 63 62 = 2 ∧ ib w 61 56 = k)) = true
    (s.dev.tilesOn = true) ∧
    (is 8) :=
  ⟨by decide, by decide⟩

theorem witness_TileControlCompletes_cpost :
    let s : Machine.State := sTile (2 ^ 63 + 9 * 2 ^ 56) id
    let t : Fin 4096 := 4095
    let d : Dev := s.dev.quiet
    let x : TSite := d.site t.val
    let is : Nat → Prop := fun (k : Nat) ↦ (d.siteOk x fun (w : Nat) ↦ decide (ib w 63 62 = 2 ∧ ib w 61 56 = k)) = true
    (s.dev.tilesOn = true) ∧
    (is 9) :=
  ⟨by decide, by decide⟩

theorem witness_TileControlCompletes_bmergeResume :
    let s : Machine.State := sMerge
    let d : Dev := s.dev.quiet
    let r : Fin 16 := 15
    let c : Fin 16 := 15
    (s.dev.tilesOn = true) ∧
    (d.colRuns r.val c.val = true) ∧
    (d.mergeReady r.val c.val = true) :=
  ⟨by decide, by decide, by decide⟩

theorem witness_TileControlCompletes_programError :
    let s : Machine.State := sTile (3 * 2 ^ 62) id
    let t : Fin 4096 := 4095
    let d : Dev := s.dev.quiet
    let x : TSite := d.site t.val
    let w : Nat := d.siteInstr x
    let u : Tile := d.tile x.L
    (s.dev.tilesOn = true) ∧
    (d.siteRuns x = true) ∧
    (instrReason w u.pc ≠ 0) :=
  ⟨by decide, by decide, by decide⟩

theorem witness_TileRegionCompletes_streamWordArrive :
    let s : Machine.State := sTileU fun u => { u with strm := [(1, 0x803f3fff)] }
    let t : Fin 4096 := 4095
    let d : Dev := s.dev.quiet
    let r : Nat := t.val / 256
    let c : Nat := t.val % 256 / 16
    let L : Nat := d.loc r c (t.val % 16)
    let u : Tile := d.tile L
    let port : Fin 2 := 1
    let ch : Fin 64 := 63
    let ts : Nat := 0
    let w : Word := 0
    let marker : Bool := false
    let poison : Bool := false
    let fw : FlowWord := { flow := BitVec.toNat (u.strmReg port.val) % 16384, ch := ch.val, ts := ts, word := w, marker := marker, poison := poison }
    let takes : Bool := bindTakes (u.strmReg port.val) fw && decide ((u.inq port.val).length < 32)
    (s.dev.coreOn = true) ∧
    (takes = true) :=
  ⟨by decide, by decide⟩

theorem witness_TileRegionCompletes_streamWordLost :
    let s : Machine.State := State.reset
    let t : Fin 4096 := 4095
    let d : Dev := s.dev.quiet
    let r : Nat := t.val / 256
    let c : Nat := t.val % 256 / 16
    let L : Nat := d.loc r c (t.val % 16)
    let u : Tile := d.tile L
    let port : Fin 2 := 1
    let ch : Fin 64 := 63
    let ts : Nat := 0
    let w : Word := 0
    let marker : Bool := false
    let poison : Bool := false
    let fw : FlowWord := { flow := BitVec.toNat (u.strmReg port.val) % 16384, ch := ch.val, ts := ts, word := w, marker := marker, poison := poison }
    let takes : Bool := bindTakes (u.strmReg port.val) fw && decide ((u.inq port.val).length < 32)
    (s.dev.coreOn = true) ∧
    (takes = false) :=
  ⟨by decide, by decide⟩

theorem witness_TileRegionCompletes_rowWalk :
    let s : Machine.State := State.reset
    (s.dev.coreOn = true) :=
  by decide

theorem witness_TileRegionCompletes_autodozeEntry :
    let s : Machine.State := sCol [(TREG.AUTODOZE_EN, 1)]
    let d : Dev := s.dev.quiet
    let n : Fin 16 := 15
    (s.dev.coreOn = true) ∧
    (d.flag (tregPg n.val) TREG.AUTODOZE_EN = true ∨ d.pwrState (tregPg n.val) = 1) ∧
    (d.flag (tregPg n.val) TREG.DOZING = false) ∧
    (((List.range 256).all fun (k : Nat) ↦ d.tileRests (n.val) (k / 16) (k % 16)) = true) :=
  ⟨by decide +kernel, .inl (by decide +kernel), by decide +kernel, by decide +kernel⟩

theorem witness_TileRegionCompletes_tileFail :
    let s : Machine.State := State.reset
    let t : Fin 4096 := 4095
    let d : Dev := s.dev.quiet
    let r : Nat := t.val / 256
    let c : Nat := t.val % 256 / 16
    (s.dev.coreOn = true) ∧
    (d.colSt r c ≠ 2) :=
  ⟨by decide, by decide⟩

theorem witness_TileRegionCompletes_lenChg :
    let s : Machine.State := sCol [(TREG.LEN.at 15, 1)]
    let d : Dev := s.dev.quiet
    let src : Source := .pcie
    let n : Fin 16 := 15
    let k : Fin 16 := 15
    let v : Word := 0xff07
    let f : Fld := TREG.LEN_CHG.at k.val
    let w : Word := trig TREG.VALID v
    let new : Word := heard d (tregPg n.val) f 2147548935 w
    (s.dev.coreOn = true) ∧
    (Accepts d src Cls.treg (n.val) f.off w) ∧
    (fieldOf TREG.VALID new = 1) :=
  ⟨by decide, accepts_of (by decide), by decide⟩

theorem witness_TileRegionCompletes_lenRequestAct :
    let s : Machine.State := sTileU fun u => { u with reqs := [(7, 4095)] }
    let t : Fin 4096 := 4095
    let d : Dev := s.dev.quiet
    let r : Nat := t.val / 256
    let c : Nat := t.val % 256 / 16
    let L : Nat := d.loc r c (t.val % 16)
    let u : Tile := d.tile L
    let q : Nat × Nat := (7, 4095)
    let rest : List (Nat × Nat) := []
    (s.dev.coreOn = true) ∧
    (s.dev.tilesOn = true) ∧
    (u.reqs = q :: rest) :=
  ⟨by decide, by decide, by decide⟩

theorem witness_TileRegionCompletes_tileWindowWrite :
    let s : Machine.State := State.reset
    let t : Fin 4096 := 4095
    let d : Dev := s.dev.quiet
    let src : Source := .pcie
    let k : Fin 4096 := 0
    let v : Word := 0
    (s.dev.coreOn = true) ∧
    (d.answers Cls.treg = true) ∧
    (winListed (4 * k.val) = true) ∧
    (d.winCause src (t.val) (4 * k.val) v (decide (8400 ≤ 4 * k.val ∧ 4 * k.val < 8416) && d.strmRefused (t.val) ((4 * k.val - 8400) / 4) v) =
       none) :=
  ⟨by decide, by decide, by decide, by decide⟩

theorem witness_ColumnCommandsComplete_starts :
    let s : Machine.State := State.reset
    let src : Source := .pcie
    let r : Fin 16 := 15
    let v : Word := 1
    let d : Dev := s.dev.quiet
    let p : Nat := pg Cls.treg r.val
    let c : Fin 16 := 15
    let f : Fld := TREG.COL_CTL.at c.val
    let old : Word := d.raw (p + f.off)
    let new : Word := heard d p f 4294903553 v
    let e : Dev := written d p f 4294903553 0 v
    (s.dev.coreOn = true) ∧
    (Accepts d src Cls.treg (r.val) f.off v) ∧
    (e.colSt r.val c.val < 2) ∧
    (fieldOf TREG.RUN old = 0) ∧
    (fieldOf TREG.RUN new = 1) ∧
    (e.colSt r.val c.val = 0) :=
  ⟨by decide, accepts_of (by decide), by decide, by decide, by decide, by decide⟩

theorem witness_ColumnCommandsComplete_halts :
    let s : Machine.State := sCol [(TREG.RUN.at 15, 1), (TREG.STATE.at 15, 1)]
    let src : Source := .pcie
    let r : Fin 16 := 15
    let v : Word := 0
    let d : Dev := s.dev.quiet
    let p : Nat := pg Cls.treg r.val
    let c : Fin 16 := 15
    let f : Fld := TREG.COL_CTL.at c.val
    let old : Word := d.raw (p + f.off)
    let new : Word := heard d p f 4294903553 v
    let e : Dev := written d p f 4294903553 0 v
    (s.dev.coreOn = true) ∧
    (Accepts d src Cls.treg (r.val) f.off v) ∧
    (e.colSt r.val c.val < 2) ∧
    (fieldOf TREG.RUN old = 1) ∧
    (fieldOf TREG.RUN new = 0) ∧
    (e.colSt r.val c.val = 1) :=
  ⟨by decide, accepts_of (by decide), by decide, by decide, by decide, by decide⟩

theorem witness_ColumnCommandsComplete_moveGo :
    let s : Machine.State := sCol [(TREG.STATE.at 14, 1)]
    let src : Source := .pcie
    let r : Fin 16 := 15
    let v : Word := 0x0e0ff000
    let d : Dev := s.dev.quiet
    let p : Nat := pg Cls.treg r.val
    let w : Word := trig TREG.GO v
    let new : Word := heard d p TREG.MOVE_CTL 4294963201 w
    (s.dev.coreOn = true) ∧
    (Accepts d src Cls.treg (r.val) TREG.MOVE_CTL.off w) ∧
    (fieldOf TREG.GO (d.raw (p + TREG.MOVE_CTL.off)) = 0) ∧
    (fieldOf TREG.GO new = 1) ∧
    (fieldOf TREG.ABORT new = 0) :=
  ⟨by decide, accepts_of (by decide), by decide, by decide, by decide⟩

theorem witness_ColumnCommandsComplete_moveAbort :
    let s : Machine.State := State.reset
    let src : Source := .pcie
    let r : Fin 16 := 15
    let v : Word := 0x40000000
    let d : Dev := s.dev.quiet
    let p : Nat := pg Cls.treg r.val
    let w : Word := trig TREG.ABORT v
    let new : Word := heard d p TREG.MOVE_CTL 4294963201 w
    (s.dev.coreOn = true) ∧
    (Accepts d src Cls.treg (r.val) TREG.MOVE_CTL.off w) ∧
    (¬(fieldOf TREG.GO new = 1 ∧ fieldOf TREG.GO (d.raw (p + TREG.MOVE_CTL.off)) = 0)) ∧
    (fieldOf TREG.ABORT new = 1) :=
  ⟨by decide, accepts_of (by decide), by decide, by decide⟩

theorem witness_ColumnCommandsComplete_compare :
    let s : Machine.State := sMove moveCmp
    let r : Fin 16 := 15
    let d : Dev := s.dev.quiet
    let m : Move := moveCmp
    let dt : Nat := 5
    let g : Dev := d.pass dt
    let done : Bool := cmpDone m.cmps (g.movePorts m) (g.moveLim r.val)
    (s.dev.coreOn = true) ∧
    (d.move? r.val = some m) ∧
    (m.phase = 3) ∧
    (m.compares = true) ∧
    (done = true) :=
  ⟨by decide, by decide, by decide, by decide, by decide⟩

theorem witness_ColumnCommandsComplete_compareWaits :
    let s : Machine.State := sMoveCmp
    let r : Fin 16 := 15
    let d : Dev := s.dev.quiet
    let m : Move := moveCmp
    let dt : Nat := 0
    let g : Dev := d.pass dt
    let done : Bool := cmpDone m.cmps (g.movePorts m) (g.moveLim r.val)
    (s.dev.coreOn = true) ∧
    (d.move? r.val = some m) ∧
    (m.phase = 3) ∧
    (m.compares = true) ∧
    (done = false) :=
  ⟨by decide, by decide, by decide, by decide, by decide⟩

theorem witness_ColumnCommandsComplete_silent :
    let s : Machine.State := sMoveCmp
    let r : Fin 16 := 15
    let d : Dev := s.dev.quiet
    let m : Move := moveCmp
    let t : Nat := 0
    (s.dev.coreOn = true) ∧
    (d.move? r.val = some m) ∧
    (m.phase = 3) ∧
    (m.compares = true) ∧
    (cmpSilent m.cmps (d.movePorts m) (d.moveLim r.val) m.cmpAt = some t) :=
  ⟨by decide, by decide, by decide, by decide, by decide⟩

theorem witness_ColumnCommandsComplete_timeout :
    let s : Machine.State := sMove (move0 4)
    let r : Fin 16 := 15
    let d : Dev := s.dev.quiet
    let m : Move := move0 4
    let t : Nat := 0
    (s.dev.coreOn = true) ∧
    (d.move? r.val = some m) ∧
    (m.bindAt = some t) ∧
    (m.instant = none) :=
  ⟨by decide, by decide, by decide, by decide⟩

theorem witness_ColumnCommandsComplete_drain :
    let s : Machine.State := sMove (move0 6)
    let r : Fin 16 := 15
    let d : Dev := s.dev.quiet
    let m : Move := move0 6
    (s.dev.coreOn = true) ∧
    (d.move? r.val = some m) ∧
    (d.moveDrained (r.val) m = true) ∧
    (m.phase = 6) :=
  ⟨by decide, by decide, by decide, by decide⟩

theorem witness_ColumnCommandsComplete_drainWaits :
    let s : Machine.State := sMoveBusy
    let r : Fin 16 := 15
    let d : Dev := s.dev.quiet
    let m : Move := moveEnds
    (s.dev.coreOn = true) ∧
    (d.move? r.val = some m) ∧
    (d.moveDrained (r.val) m = false) :=
  ⟨by decide, by decide, by decide⟩

theorem witness_ColumnCommandsComplete_repairLost :
    let s : Machine.State := sColRep
    let r : Fin 16 := 15
    let d : Dev := s.dev.quiet
    let c : Fin 16 := 15
    let met : List ColRow := [⟨15, 1, 255⟩]
    let x : ColRepair := ⟨15, false, 0, false⟩
    let dt : Nat := 5
    let g : Dev := d.pass dt
    let rows : Option (List (Nat × Nat × Nat × Nat)) := g.imageRows (r.val) (c.val) (g.badRows (r.val) x.phys (List.map ColRow.tuple met))
    (s.dev.coreOn = true) ∧
    (Tab.get d.ti.repairs (r.val * 16 + c.val) = some x) ∧
    (x.prepared = false) ∧
    (rows = none) :=
  ⟨by decide, by decide, by decide, by decide⟩

theorem witness_ColumnCommandsComplete_repair :
    let s : Machine.State := sColRep
    let r : Fin 16 := 15
    let d : Dev := s.dev.quiet
    let c : Fin 16 := 15
    let met : List ColRow := []
    let x : ColRepair := ⟨15, false, 0, false⟩
    let dt : Nat := 0
    let g : Dev := d.pass dt
    let rows : Option (List (Nat × Nat × Nat × Nat)) := g.imageRows (r.val) (c.val) (g.badRows (r.val) x.phys (List.map ColRow.tuple met))
    let rs : List (Nat × Nat × Nat × Nat) := []
    (s.dev.coreOn = true) ∧
    (Tab.get d.ti.repairs (r.val * 16 + c.val) = some x) ∧
    (x.prepared = false) ∧
    (rows = some rs) :=
  ⟨by decide, by decide, by decide, by decide⟩

theorem witness_CausewayCommandsComplete_flitSend :
    let s : Machine.State := sProd (List.ofFn fun k : Fin 13 => { word0 with ch := 51 + k })
    let d : Dev := s.dev.quiet
    let ep : Fin 65536 := 8191
    let flow : Fin 16384 := 16383
    let ws : List LogicWord := []
    let w : FlowWord := word0
    let e : Dev := if 8192 ≤ ep.val ∧ ep.val < 16384 then d.fabricOut ((ep.val - 8192) / 8) ((ep.val - 8192) % 8) (List.map LogicWord.tuple ws) else d
    let q : List FlowWord := e.prodWords ep.val flow.val
    let run : List FlowWord := flitRun 13 q
    let bs : List Binding := (View.mk e []).bindings
    let end_ : Bool := decide (w.ch = lastChannel bs (ep.val) w.flow)
    let goes : Bool := end_ || flitNext (List.drop run.length q) w
    (s.dev.coreOn = true) ∧
    (run.getLast? = some w) ∧
    (run.length = 13 ∨ goes = true) :=
  ⟨by decide, by decide, .inl (by decide)⟩

theorem witness_CausewayCommandsComplete_behind :
    let s : Machine.State := sFlits
    let d : Dev := s.dev.quiet
    let n : Nat := 1
    let ep : Fin 65536 := 8191
    let f : Flit := flit1 0 0
    (s.dev.coreOn = true) ∧
    (d.cw.flight[n]? = some f) ∧
    (ep.val ∈ f.dests) ∧
    (d.flitBehind n (ep.val) f = true) :=
  ⟨by decide, by decide, by decide, by decide⟩

theorem witness_CausewayCommandsComplete_stale :
    let s : Machine.State := sFlit (flit1 0 0) 1000000001
    let d : Dev := s.dev.quiet
    let n : Nat := 0
    let ep : Fin 65536 := 8191
    let f : Flit := flit1 0 0
    (s.dev.coreOn = true) ∧
    (d.cw.flight[n]? = some f) ∧
    (ep.val ∈ f.dests) ∧
    (d.flitBehind n (ep.val) f = false) ∧
    (f.ts + 1000000000 < d.now) :=
  ⟨by decide, by decide, by decide, by decide, by decide⟩

theorem witness_CausewayCommandsComplete_delivered :
    let s : Machine.State := sFlit (flit1 0 0) 1000000000
    let d : Dev := s.dev.quiet
    let n : Nat := 0
    let ep : Fin 65536 := 8191
    let f : Flit := flit1 0 0
    let ws : List FlowWord := flitTake (View.mk d []).bindings (ep.val) f
    (s.dev.coreOn = true) ∧
    (d.cw.flight[n]? = some f) ∧
    (ep.val ∈ f.dests) ∧
    (d.flitBehind n (ep.val) f = false) ∧
    (d.now ≤ f.ts + 1000000000) ∧
    (d.epRoom (ep.val) ws.length = true) :=
  ⟨by decide +kernel, by decide +kernel, by decide +kernel, by decide +kernel, by decide +kernel, by decide +kernel⟩

theorem witness_CausewayCommandsComplete_error :
    let s : Machine.State := sFlit (flit1 0 0) 0
    let d : Dev := s.dev.quiet
    let n : Nat := 0
    let ep : Fin 65536 := 8191
    let f : Flit := flit1 0 0
    (s.dev.coreOn = true) ∧
    (d.cw.flight[n]? = some f) ∧
    (ep.val ∈ f.dests) :=
  ⟨by decide, by decide, by decide⟩

theorem witness_CausewayCommandsComplete_aDrop :
    let s : Machine.State := sFlit (flit1 0 0) 0
    let d : Dev := s.dev.quiet
    let n : Nat := 0
    let ep : Fin 65536 := 8191
    let f : Flit := flit1 0 0
    (s.dev.coreOn = true) ∧
    (d.cw.flight[n]? = some f) ∧
    (ep.val ∈ f.dests) ∧
    (f.cls = 0) :=
  ⟨by decide, by decide, by decide, by decide⟩

theorem witness_CausewayCommandsComplete_flowBind :
    let s : Machine.State := State.reset
    let d : Dev := s.dev.quiet
    let src : Source := .pcie
    let c : Cls := .port
    let i : Nat := 143
    let f : Fld := PORT.OUT_CTL
    let r : RegSpec := rAt .port 143 PORT.OUT_CTL.off
    let v : Word := 0
    (s.dev.coreOn = true) ∧
    (Accepts d src c i f.off v) ∧
    (regAt c i f.off = some r) ∧
    (64 ≤ f.off) ∧
    (f.off < 2048) ∧
    (f.off % 4 = 0) ∧
    (c ≠ Cls.iob) ∧
    (d.specialWrite src c i f.off v = none) :=
  ⟨by decide, accepts_of (by decide), by decide, by decide, by decide, by decide, by decide, by decide⟩

theorem witness_CausewayCommandsComplete_flowRoute :
    let s : Machine.State := sOn (pg .cway 0) [(CWAY.FLOW_SEL_FLOW, 16383)]
    let d : Dev := s.dev.quiet
    let src : Source := .pcie
    let v : Word := 0
    (s.dev.coreOn = true) ∧
    (Accepts d src Cls.cway 0 CWAY.FLOW_ROUTE.off v) :=
  ⟨by decide +kernel, accepts_of (by decide +kernel)⟩

theorem witness_FrameMemoryCommandsComplete_memWrite :
    let s : Machine.State := State.reset
    let m : MemFlit := memFlit0 true
    (s.dev.coreOn = true) ∧
    (m.write = true) :=
  ⟨by decide, by decide⟩

theorem witness_FrameMemoryCommandsComplete_memRead :
    let s : Machine.State := State.reset
    let m : MemFlit := memFlit0 false
    (s.dev.coreOn = true) ∧
    (m.write = false) :=
  ⟨by decide, by decide⟩

theorem witness_FrameMemoryCommandsComplete_portWrite :
    let s : Machine.State := sFmp { fmp0 0 with rx := [word0] } FmpSt.init
    let d : Dev := s.dev.quiet
    let b : Fin 32 := 31
    let w : FlowWord := word0
    let rest : List FlowWord := []
    (s.dev.coreOn = true) ∧
    ((d.fmp b.val).run = true) ∧
    ((d.fmp b.val).rx = w :: rest) ∧
    (fieldOf FMEM.DIR (d.fmp b.val).cfg = 0) :=
  ⟨by decide, by decide, by decide, by decide⟩

theorem witness_FrameMemoryCommandsComplete_portReadOn :
    let s : Machine.State := sFmp { fmp0 1 with rpos := some 1 } (fmp0 0)
    let d : Dev := s.dev.quiet
    let b : Fin 32 := 31
    let k : Nat := 30
    let i : Nat := 1
    (s.dev.coreOn = true) ∧
    ((d.fmp b.val).run = true) ∧
    (fieldOf FMEM.DIR (d.fmp b.val).cfg = 1) ∧
    (d.ringWriter b.val = some k) ∧
    ((d.fmp b.val).rpos = some i) :=
  ⟨by decide, by decide, by decide, by decide, by decide⟩

theorem witness_FrameMemoryCommandsComplete_portRead :
    let s : Machine.State := sFmp (fmp0 1) { fmp0 0 with ready := [2] }
    let d : Dev := s.dev.quiet
    let b : Fin 32 := 31
    let k : Nat := 30
    let n : Nat := 2
    let ready : List Nat := []
    (s.dev.coreOn = true) ∧
    ((d.fmp b.val).run = true) ∧
    (fieldOf FMEM.DIR (d.fmp b.val).cfg = 1) ∧
    (d.ringWriter b.val = some k) ∧
    ((d.fmp b.val).rpos = none) ∧
    ((d.fmp k).ready = n :: ready) :=
  ⟨by decide, by decide, by decide, by decide, by decide, by decide⟩

theorem witness_FrameMemoryCommandsComplete_scrubRestart :
    let s : Machine.State := sOn (pg .scrb 0) [(SCRB.EN, 1)]
    let d : Dev := s.dev.quiet
    let v : VoteEvent := .restart
    (s.dev.coreOn = true) ∧
    (d.flag (pg Cls.scrb 0) SCRB.EN = true) ∧
    (v = VoteEvent.restart) :=
  ⟨by decide, by decide, by decide⟩

theorem witness_FrameMemoryCommandsComplete_scrubRead :
    let s : Machine.State := sOn (pg .scrb 0) [(SCRB.EN, 1)]
    let d : Dev := s.dev.quiet
    let v : VoteEvent := .fixed
    (s.dev.coreOn = true) ∧
    (d.flag (pg Cls.scrb 0) SCRB.EN = true) ∧
    (v ≠ VoteEvent.restart) :=
  ⟨by decide, by decide, by decide⟩

theorem witness_FrameMemoryCommandsComplete_rowGoNone :
    let s : Machine.State := st fun d => d.setRowLists 31 (List.range 64) []
    let src : Source := .pcie
    let b : Fin 32 := 31
    let v : Word := 8191
    let d : Dev := s.dev.quiet
    let p : Nat := pg Cls.fmem b.val
    let w : Word := trig FMEM.GO v
    let new : Word := heard d p FMEM.RPR_CTL 3221233663 w
    let e : Dev := written d p FMEM.RPR_CTL 8191 3221225472 w
    let free : Option Nat := List.find? (fun (k : Nat) ↦ !(e.rowLists b.val).fst.contains k && !(e.rowLists b.val).snd.contains k) (List.range 64)
    (s.dev.coreOn = true) ∧
    (Accepts d src Cls.fmem (b.val) FMEM.RPR_CTL.off w) ∧
    (fieldOf FMEM.GO (d.raw (p + FMEM.RPR_CTL.off)) = 0) ∧
    (fieldOf FMEM.GO new = 1) ∧
    (fieldOf FMEM.ABORT new = 0) ∧
    (e.fwActive = false) ∧
    (free = none) :=
  ⟨by decide, accepts_of (by decide), by decide, by decide, by decide, by decide, by decide⟩

theorem witness_FrameMemoryCommandsComplete_rowGo :
    let s : Machine.State := st fun d => d.setRowLists 31 (List.range 63) []
    let src : Source := .pcie
    let b : Fin 32 := 31
    let v : Word := 8191
    let d : Dev := s.dev.quiet
    let p : Nat := pg Cls.fmem b.val
    let w : Word := trig FMEM.GO v
    let new : Word := heard d p FMEM.RPR_CTL 3221233663 w
    let e : Dev := written d p FMEM.RPR_CTL 8191 3221225472 w
    let free : Option Nat := List.find? (fun (k : Nat) ↦ !(e.rowLists b.val).fst.contains k && !(e.rowLists b.val).snd.contains k) (List.range 64)
    let k : Nat := 63
    (s.dev.coreOn = true) ∧
    (Accepts d src Cls.fmem (b.val) FMEM.RPR_CTL.off w) ∧
    (fieldOf FMEM.GO (d.raw (p + FMEM.RPR_CTL.off)) = 0) ∧
    (fieldOf FMEM.GO new = 1) ∧
    (fieldOf FMEM.ABORT new = 0) ∧
    (e.fwActive = false) ∧
    (free = some k) :=
  ⟨by decide, accepts_of (by decide), by decide, by decide, by decide, by decide, by decide⟩

theorem witness_FrameMemoryCommandsComplete_rowAbort :
    let s : Machine.State := State.reset
    let src : Source := .pcie
    let b : Fin 32 := 31
    let v : Word := 0
    let d : Dev := s.dev.quiet
    let p : Nat := pg Cls.fmem b.val
    let w : Word := trig FMEM.ABORT v
    let new : Word := heard d p FMEM.RPR_CTL 3221233663 w
    (s.dev.coreOn = true) ∧
    (Accepts d src Cls.fmem (b.val) FMEM.RPR_CTL.off w) ∧
    (¬(fieldOf FMEM.GO new = 1 ∧ fieldOf FMEM.GO (d.raw (p + FMEM.RPR_CTL.off)) = 0)) ∧
    (fieldOf FMEM.ABORT new = 1) :=
  ⟨by decide, accepts_of (by decide), by decide, by decide⟩

theorem witness_FrameMemoryCommandsComplete_rowCompare :
    let s : Machine.State := sRowRep { rowRep0 3 with ready := false }
    let b : Fin 32 := 31
    let d : Dev := s.dev.quiet
    let x : RowRep := { rowRep0 3 with ready := false }
    (s.dev.coreOn = true) ∧
    (d.rowRep? b.val = some x) ∧
    (x.phase ≤ 3) ∧
    (x.ready = false) :=
  ⟨by decide, by decide, by decide, by decide⟩

theorem witness_FrameMemoryCommandsComplete_rowDiffers :
    let s : Machine.State := sRowRep { rowRep0 2 with ready := false }
    let b : Fin 32 := 31
    let d : Dev := s.dev.quiet
    let x : RowRep := { rowRep0 2 with ready := false }
    let bad : Nat := 1
    (s.dev.coreOn = true) ∧
    (d.rowRep? b.val = some x) ∧
    (x.phase ≤ 3) ∧
    (x.ready = false) ∧
    (bad ≠ 0) :=
  ⟨by decide, by decide, by decide, by decide, by decide⟩

theorem witness_FrameMemoryCommandsComplete_rowTimeout :
    let s : Machine.State := sRowRep (rowRep0 4)
    let b : Fin 32 := 31
    let d : Dev := s.dev.quiet
    let x : RowRep := rowRep0 4
    let t : Nat := 0
    (s.dev.coreOn = true) ∧
    (d.rowRep? b.val = some x) ∧
    (x.bindAt = some t) ∧
    (x.instant = none) :=
  ⟨by decide, by decide, by decide, by decide⟩

theorem witness_LaneCommandsComplete_layoutChange :
    let s : Machine.State := State.reset
    let src : Source := .pcie
    let g : Fin 8 := 7
    let v : Word := (2578125 * 256 + 17)
    let d : Dev := s.dev.quiet
    let p : Nat := pg Cls.lgrp g.val
    let old : Word := d.raw (p + LGRP.LG_CFG.off)
    let new : Word := heard d p LGRP.LG_CFG 1073741823 v
    (s.dev.coreOn = true) ∧
    (Accepts d src Cls.lgrp (g.val) LGRP.LG_CFG.off v) ∧
    (old ≠ new) :=
  ⟨by decide, accepts_of (by decide), by decide⟩

theorem witness_LaneCommandsComplete_pllLock :
    let s : Machine.State := sLn [] [] [] fun x => { x with tuneAt := [(7, 0)] }
    let g : Fin 8 := 7
    let d : Dev := s.dev.quiet
    let p : Nat := pg Cls.lgrp g.val
    let t : Nat := 0
    (s.dev.coreOn = true) ∧
    (d.flag p LGRP.LOCKED = false) ∧
    (d.pwrState p ≤ 1) ∧
    (Tab.get d.ln.tuneAt g.val = some t) :=
  ⟨by decide, by decide, by decide, by decide⟩

theorem witness_LaneCommandsComplete_pllUnlock :
    let s : Machine.State := sLn ones [] [] noLn
    let g : Fin 8 := 7
    let d : Dev := s.dev.quiet
    let p : Nat := pg Cls.lgrp g.val
    (s.dev.coreOn = true) ∧
    (d.flag p LGRP.LOCKED = true) :=
  ⟨by decide, by decide⟩

theorem witness_LaneCommandsComplete_modulePoll :
    let s : Machine.State := sLn [(LGRP.MGMT_EN, 1)] [] [] noLn
    let g : Fin 8 := 7
    let d : Dev := s.dev.quiet
    let p : Nat := pg Cls.lgrp g.val
    (s.dev.coreOn = true) ∧
    (d.flag p LGRP.MGMT_EN = true) :=
  ⟨by decide, by decide⟩

theorem witness_LaneCommandsComplete_modFault :
    let s : Machine.State := sLn [(LGRP.MGMT_EN, 1)] [] [] fun x => { x with modAt := [(7, 0)] }
    let g : Fin 8 := 7
    let d : Dev := s.dev.quiet
    let p : Nat := pg Cls.lgrp g.val
    let t : Nat := 0
    (s.dev.coreOn = true) ∧
    (Tab.get d.ln.modAt g.val = some t) ∧
    (d.flag p LGRP.MGMT_EN = true) ∧
    (¬g.val ∈ d.ln.modBad) :=
  ⟨by decide, by decide, by decide, by decide⟩

theorem witness_LaneCommandsComplete_modAcc :
    let s : Machine.State := sLn [(LGRP.MGMT_EN, 1)] [] [] noLn
    let src : Source := .pcie
    let g : Fin 8 := 7
    let v : Word := 0
    let d : Dev := s.dev.quiet
    let p : Nat := pg Cls.lgrp g.val
    let w : Word := trig LGRP.GO v
    (s.dev.coreOn = true) ∧
    (Accepts d src Cls.lgrp (g.val) LGRP.MOD_ACC.off w) ∧
    (bitAt (heard d p LGRP.MOD_ACC 3238002687 w) 31 = true) :=
  ⟨by decide, accepts_of (by decide), by decide⟩

theorem witness_LaneCommandsComplete_adaptStep :
    let s : Machine.State := sLn [] [] [(LANE.ADAPT, 2)] noLn
    let l : Fin 64 := 63
    let d : Dev := s.dev.quiet
    let p : Nat := pg Cls.lane l.val
    (s.dev.coreOn = true) ∧
    (d.fld p LANE.ADAPT = 2) ∧
    (∀ (t : Nat), Tab.get d.ln.adaptAt l.val = some t → t + 1000000 ≤ d.mono) :=
  ⟨by decide, by decide, by decide⟩

theorem witness_LaneCommandsComplete_marginRetrain :
    let s : Machine.State := sLn ones [(HDR.STATE, 3), (ETH.AUTO_RETRAIN, 1)] [] fun x => { x with negAt := [(63, 0)] }
    let l : Fin 64 := 63
    let d : Dev := s.dev.quiet
    let e : Nat := 63
    let t : Nat := 0
    (s.dev.coreOn = true) ∧
    (d.portOfLane l.val = some e) ∧
    (Tab.get d.ln.negAt l.val = some t) ∧
    (d.st (pg Cls.eth e) = 3) ∧
    (d.flag (pg Cls.eth e) ETH.AUTO_RETRAIN = true) :=
  ⟨by decide, by decide, by decide, by decide, by decide⟩

theorem witness_LaneCommandsComplete_ilEstimate :
    let s : Machine.State := sLn [] [] [(LANE.ADAPT, 2)] noLn
    let l : Fin 64 := 63
    let d : Dev := s.dev.quiet
    let p : Nat := pg Cls.lane l.val
    (s.dev.coreOn = true) ∧
    (d.fld p LANE.ADAPT = 2) ∧
    (∀ (t : Nat), Tab.get d.ln.ilAt l.val = some t → t + 1000000000 ≤ d.mono) :=
  ⟨by decide, by decide, by decide⟩

theorem witness_LaneCommandsComplete_cdrLoss :
    let s : Machine.State := sLn [] [] [(LANE.CDR_LOCK, 1)] noLn
    let l : Fin 64 := 63
    let d : Dev := s.dev.quiet
    let p : Nat := pg Cls.lane l.val
    (s.dev.coreOn = true) ∧
    (d.flag p LANE.CDR_LOCK = true) :=
  ⟨by decide, by decide⟩

theorem witness_LaneCommandsComplete_cdrLock :
    let s : Machine.State := sLn ones [] [] noLn
    let l : Fin 64 := 63
    let d : Dev := s.dev.quiet
    let p : Nat := pg Cls.lane l.val
    (s.dev.coreOn = true) ∧
    (d.flag (pg Cls.lgrp (l.val / 8)) LGRP.LOCKED = true) ∧
    (d.flag p LANE.RETIRE = false) :=
  ⟨by decide, by decide, by decide⟩

theorem witness_LaneCommandsComplete_retireNone :
    let s : Machine.State := State.reset
    let src : Source := .pcie
    let l : Fin 64 := 63
    let v : Word := 1
    let d : Dev := s.dev.quiet
    let p : Nat := pg Cls.lane l.val
    let noPattern : Dev → Dev := fun x => ({ x with ln := { x.ln with prbs := Tab.del x.ln.prbs l } } : Dev).setF p LANE.PRBS_LOCK 0
    let old : Word := d.raw (p + LANE.LN_CTL.off)
    let new : Word := heard d p LANE.LN_CTL 1 v
    let e : Dev := written d p LANE.LN_CTL 1 0 v
    let f : Dev := (((noPattern e).setF p LANE.ADAPT 0).setF p LANE.SIG_DET 0).setF p LANE.CDR_LOCK 0
    (s.dev.coreOn = true) ∧
    (Accepts d src Cls.lane (l.val) LANE.LN_CTL.off v) ∧
    (bitAt new 0 = true) ∧
    (bitAt old 0 = false) ∧
    (f.portOfLane l.val = none) :=
  ⟨by decide, accepts_of (by decide), by decide, by decide, by decide⟩

theorem witness_LaneCommandsComplete_retire :
    let s : Machine.State := sLn ones [] [] noLn
    let src : Source := .pcie
    let l : Fin 64 := 63
    let v : Word := 1
    let d : Dev := s.dev.quiet
    let p : Nat := pg Cls.lane l.val
    let noPattern : Dev → Dev := fun x => ({ x with ln := { x.ln with prbs := Tab.del x.ln.prbs l } } : Dev).setF p LANE.PRBS_LOCK 0
    let old : Word := d.raw (p + LANE.LN_CTL.off)
    let new : Word := heard d p LANE.LN_CTL 1 v
    let e : Dev := written d p LANE.LN_CTL 1 0 v
    let f : Dev := (((noPattern e).setF p LANE.ADAPT 0).setF p LANE.SIG_DET 0).setF p LANE.CDR_LOCK 0
    let g : Nat := 63
    (s.dev.coreOn = true) ∧
    (Accepts d src Cls.lane (l.val) LANE.LN_CTL.off v) ∧
    (bitAt new 0 = true) ∧
    (bitAt old 0 = false) ∧
    (f.portOfLane l.val = some g) :=
  ⟨by decide, accepts_of (by decide), by decide, by decide, by decide⟩

theorem witness_LaneCommandsComplete_backNone :
    let s : Machine.State := sLn [] [] [(LANE.RETIRE, 1)] noLn
    let src : Source := .pcie
    let l : Fin 64 := 63
    let v : Word := 0
    let d : Dev := s.dev.quiet
    let p : Nat := pg Cls.lane l.val
    let old : Word := d.raw (p + LANE.LN_CTL.off)
    let new : Word := heard d p LANE.LN_CTL 1 v
    let e : Dev := written d p LANE.LN_CTL 1 0 v
    (s.dev.coreOn = true) ∧
    (Accepts d src Cls.lane (l.val) LANE.LN_CTL.off v) ∧
    (bitAt new 0 = false) ∧
    (bitAt old 0 = true) ∧
    (e.portOfLane l.val = none) :=
  ⟨by decide, accepts_of (by decide), by decide, by decide, by decide⟩

theorem witness_LaneCommandsComplete_back :
    let s : Machine.State := sLn ones [] [(LANE.RETIRE, 1)] noLn
    let src : Source := .pcie
    let l : Fin 64 := 63
    let v : Word := 0
    let d : Dev := s.dev.quiet
    let p : Nat := pg Cls.lane l.val
    let old : Word := d.raw (p + LANE.LN_CTL.off)
    let new : Word := heard d p LANE.LN_CTL 1 v
    let e : Dev := written d p LANE.LN_CTL 1 0 v
    let g : Nat := 63
    (s.dev.coreOn = true) ∧
    (Accepts d src Cls.lane (l.val) LANE.LN_CTL.off v) ∧
    (bitAt new 0 = false) ∧
    (bitAt old 0 = true) ∧
    (e.portOfLane l.val = some g) :=
  ⟨by decide, accepts_of (by decide), by decide, by decide, by decide⟩

theorem witness_EthernetPortsComplete_enable :
    let s : Machine.State := sLn ones [] [] noLn
    let src : Source := .pcie
    let e : Fin 64 := 63
    let v : Word := 0
    let d : Dev := s.dev.quiet
    let p : Nat := pg Cls.eth e.val
    let on : Bool := true
    let w : Word := enableWord on v
    let old : Word := d.raw (p + HDR.PAGE_CTL.off)
    let new : Word := heard d p HDR.PAGE_CTL 195 w
    (s.dev.coreOn = true) ∧
    (Accepts d src Cls.eth (e.val) HDR.PAGE_CTL.off w) ∧
    (bitAt w 1 = false) ∧
    (bitAt new 0 ≠ bitAt old 0) ∧
    (fieldChanged HDR.PWR_REQ old new = false) :=
  ⟨by decide, accepts_of (by decide), by decide, by decide, by decide⟩

theorem witness_EthernetPortsComplete_negotiates :
    let s : Machine.State := sLn ones [(HDR.STATE, 1)] [] noLn
    let e : Fin 64 := 63
    let d : Dev := s.dev.quiet
    let p : Nat := pg Cls.eth e.val
    (s.dev.coreOn = true) ∧
    (d.st p = 1) :=
  ⟨by decide, by decide⟩

theorem witness_EthernetPortsComplete_trains :
    let s : Machine.State := sLn ones [(HDR.STATE, 2)] [] noLn
    let e : Fin 64 := 63
    let d : Dev := s.dev.quiet
    let p : Nat := pg Cls.eth e.val
    (s.dev.coreOn = true) ∧
    (d.st p = 2) :=
  ⟨by decide, by decide⟩

theorem witness_EthernetPortsComplete_linkUp :
    let s : Machine.State := sLn ones [(HDR.ENABLE, 1), (HDR.STATE, 4)] [] noLn
    let e : Fin 64 := 63
    let d : Dev := s.dev.quiet
    let p : Nat := pg Cls.eth e.val
    (s.dev.coreOn = true) ∧
    (d.st p = 4) ∧
    (d.ethMay e.val = true) ∧
    (¬e.val / 8 ∈ d.ln.modBad) :=
  ⟨by decide, by decide, by decide, by decide⟩

theorem witness_EthernetPortsComplete_retry :
    let s : Machine.State := sLn ones [(HDR.ENABLE, 1), (HDR.STATE, 4)] [] noLn
    let e : Fin 64 := 63
    let d : Dev := s.dev.quiet
    let p : Nat := pg Cls.eth e.val
    (s.dev.coreOn = true) ∧
    (d.st p = 4) ∧
    (d.ethMay e.val = true) :=
  ⟨by decide, by decide, by decide⟩

theorem witness_EthernetPortsComplete_linkDown :
    let s : Machine.State := sLn ones [(HDR.STATE, 3)] [] noLn
    let e : Fin 64 := 63
    let d : Dev := s.dev.quiet
    let p : Nat := pg Cls.eth e.val
    (s.dev.coreOn = true) ∧
    (d.st p = 3) :=
  ⟨by decide, by decide⟩

theorem witness_EthernetPortsComplete_retrain :
    let s : Machine.State := State.reset
    let src : Source := .pcie
    let e : Fin 64 := 63
    let v : Word := 500
    let d : Dev := s.dev.quiet
    let p : Nat := pg Cls.eth e.val
    let w : Word := trig ETH.RETRAIN v
    let old : Word := d.raw (p + ETH.ETH_CTL.off)
    let new : Word := heard d p ETH.ETH_CTL 3221487615 w
    (s.dev.coreOn = true) ∧
    (Accepts d src Cls.eth (e.val) ETH.ETH_CTL.off w) ∧
    (bitAt new 31 = true) ∧
    (bitAt new 30 = false ∨ bitAt old 30 = true) :=
  ⟨by decide, accepts_of (by decide), by decide, by decide⟩

theorem witness_EthernetPortsComplete_svGo :
    let s : Machine.State := State.reset
    let src : Source := .pcie
    let e : Fin 64 := 63
    let v : Word := 500
    let d : Dev := s.dev.quiet
    let p : Nat := pg Cls.eth e.val
    let w : Word := trig ETH.SV_GO v
    let old : Word := d.raw (p + ETH.ETH_CTL.off)
    let new : Word := heard d p ETH.ETH_CTL 3221487615 w
    (s.dev.coreOn = true) ∧
    (Accepts d src Cls.eth (e.val) ETH.ETH_CTL.off w) ∧
    (bitAt new 31 = false) ∧
    (bitAt new 30 = true) ∧
    (bitAt old 30 = false) :=
  ⟨by decide, accepts_of (by decide), by decide, by decide, by decide⟩

theorem witness_EthernetPortsComplete_surveyAlone :
    let s : Machine.State := sLn ones [(HDR.STATE, 5)] [] noLn
    let e : Fin 64 := 63
    let d : Dev := s.dev.quiet
    let p : Nat := pg Cls.eth e.val
    let partner : Option (Fin 4 × BitVec 23) := none
    (s.dev.coreOn = true) ∧
    (d.st p = 5) ∧
    (partner = none) :=
  ⟨by decide, by decide, by decide⟩

theorem witness_EthernetPortsComplete_survey :
    let s : Machine.State := sLn ones [(HDR.STATE, 5)] [] noLn
    let e : Fin 64 := 63
    let d : Dev := s.dev.quiet
    let p : Nat := pg Cls.eth e.val
    let partner : Option (Fin 4 × BitVec 23) := some (3, 0x7fffff)
    let a : Fin 4 × BitVec 23 := (3, 0x7fffff)
    (s.dev.coreOn = true) ∧
    (d.st p = 5) ∧
    (partner = some a) :=
  ⟨by decide, by decide, by decide⟩

theorem witness_EthernetPortsComplete_anFail :
    let s : Machine.State := sLn ones [(HDR.STATE, 1)] [] noLn
    let e : Fin 64 := 63
    let d : Dev := s.dev.quiet
    let p : Nat := pg Cls.eth e.val
    (s.dev.coreOn = true) ∧
    (d.st p = 1) :=
  ⟨by decide, by decide⟩

theorem witness_EthernetPortsComplete_trainingTimeout :
    let s : Machine.State := sLn ones [(HDR.STATE, 2)] [] noLn
    let e : Fin 64 := 63
    let d : Dev := s.dev.quiet
    let p : Nat := pg Cls.eth e.val
    (s.dev.coreOn = true) ∧
    (d.st p = 2) :=
  ⟨by decide, by decide⟩

theorem witness_EthernetPortsComplete_linkDownLane :
    let s : Machine.State := sLn ones [(HDR.STATE, 3)] [] noLn
    let e : Fin 64 := 63
    let d : Dev := s.dev.quiet
    let p : Nat := pg Cls.eth e.val
    (s.dev.coreOn = true) ∧
    (d.st p = 3) :=
  ⟨by decide, by decide⟩

theorem witness_TimeCommandsComplete_servoPush :
    let s : Machine.State := sTime [(TIME.SRC, 1)] id
    let src : Source := .pcie
    let v : Word := 0xffff
    let d : Dev := s.dev.quiet
    let p : Nat := pg Cls.time 0
    let w : Word := trig TIME.GO v
    (s.dev.coreOn = true) ∧
    (Accepts d src Cls.time 0 TIME.SRV_PUSH.off w) ∧
    (bitAt (heard d p TIME.SRV_PUSH 2147549183 w) 31 = true) :=
  ⟨by decide, accepts_of (by decide), by decide⟩

theorem witness_TimeCommandsComplete_refin :
    let s : Machine.State := { sTime [(TIME.REFIN, 7), (TIME.SRC, 2)] id with dev := sets (sets (sTime [(TIME.REFIN, 7), (TIME.SRC, 2)] id).dev (pg .pdie 3) [(PDIE.KIND.at 1, 2), (PDIE.PRESENT.at 1, 1)]) (pg .mcg 0) [(MCG.RUNNING, 1)] }
    let d : Dev := s.dev.quiet
    let p : Nat := pg Cls.time 0
    let edges : List Nat := [0]
    let i : Nat := d.fld p TIME.REFIN
    let q : Nat := pg Cls.pdie (i / 2)
    let kind : Nat := d.fld q (PDIE.KIND.at (i % 2))
    let offs : List Int := List.filterMap
        (fun (t : Nat) ↦
          Option.map (fun (g : Int) ↦ (t : Int) - g) do
            let a ← d.refGrid kind (d.fld p TIME.REF_MCG) t
            pure (a : Int))
        edges
    (s.dev.coreOn = true) ∧
    (d.fld p TIME.SRC = 2) ∧
    (kind ≠ 0) ∧
    (d.flag q (PDIE.PRESENT.at (i % 2)) = true) ∧
    (offs ≠ []) :=
  ⟨by decide, by decide, by decide, by decide, by decide⟩

theorem witness_TimeCommandsComplete_measTimeout :
    let s : Machine.State := sTime [(TIME.STATE, 2), (TIME.SRC, 1)] id
    let d : Dev := s.dev.quiet
    let p : Nat := pg Cls.time 0
    (s.dev.coreOn = true) ∧
    (d.servo = 2) ∧
    (d.fld p TIME.SRC = 1) :=
  ⟨by decide, by decide, by decide⟩

theorem witness_TimeCommandsComplete_stepWanted :
    let s : Machine.State := sTime [(TIME.STATE, 2)] fun x => { x with bigSince := some 0 }
    let d : Dev := s.dev.quiet
    let p : Nat := pg Cls.time 0
    let t : Nat := 0
    (s.dev.coreOn = true) ∧
    (d.tm.bigSince = some t) ∧
    (2 ≤ d.servo) ∧
    (d.flag p TIME.STEP_WANT = false) :=
  ⟨by decide, by decide, by decide, by decide⟩

theorem witness_TimeCommandsComplete_timeSrc :
    let s : Machine.State := sTime [(TIME.STATE, 2)] id
    let src : Source := .pcie
    let v : Word := 0xffff0001
    let d : Dev := s.dev.quiet
    (s.dev.coreOn = true) ∧
    (Accepts d src Cls.time 0 TIME.TIME_SRC.off v) :=
  ⟨by decide, accepts_of (by decide)⟩

theorem witness_TimeCommandsComplete_reacquire :
    let s : Machine.State := sTime [(TIME.STATE, 2)] id
    let src : Source := .pcie
    let v : Word := 0
    let d : Dev := s.dev.quiet
    let p : Nat := pg Cls.time 0
    let w : Word := trig TIME.REACQUIRE v
    (s.dev.coreOn = true) ∧
    (Accepts d src Cls.time 0 TIME.TIME_CMD.off w) ∧
    (bitAt (heard d p TIME.TIME_CMD 3 w) 1 = true) :=
  ⟨by decide, accepts_of (by decide), by decide⟩

theorem witness_TimeCommandsComplete_timeSet :
    let s : Machine.State := State.reset
    let src : Source := .pcie
    let v : Word := 0
    let d : Dev := s.dev.quiet
    let p : Nat := pg Cls.time 0
    let w : Word := trig TIME.SET v
    let new : Word := heard d p TIME.TIME_CMD 3 w
    (s.dev.coreOn = true) ∧
    (Accepts d src Cls.time 0 TIME.TIME_CMD.off w) ∧
    (bitAt new 1 = false) ∧
    (bitAt new 0 = true) :=
  ⟨by decide, accepts_of (by decide), by decide, by decide⟩

theorem witness_TimeCommandsComplete_txtsPop :
    let s : Machine.State := State.reset
    let src : Source := .pcie
    let v : Word := 0
    let d : Dev := s.dev.quiet
    let port : Fin 64 := 63
    let q : Nat := pg Cls.eth port.val
    let w : Word := trig ETH.POP v
    (s.dev.coreOn = true) ∧
    (Accepts d src Cls.eth (port.val) ETH.TXTS_POP.off w) ∧
    (bitAt (heard d q ETH.TXTS_POP 1 w) 0 = true) :=
  ⟨by decide, accepts_of (by decide), by decide⟩

theorem witness_TimeCommandsComplete_mcgStart :
    let s : Machine.State := sTime [] fun x => { x with starts := [(3, 0)] }
    let d : Dev := s.dev.quiet
    let n : Fin 4 := 3
    let t : Nat := 0
    (s.dev.coreOn = true) ∧
    (Tab.get d.tm.starts n.val = some t) :=
  ⟨by decide, by decide⟩

theorem witness_MediaCommandsComplete_flowTable :
    let s : Machine.State := State.reset
    let d : Dev := s.dev.quiet
    let f : Fin 16384 := 16383
    let k : Fin 16 := 14
    let v : Word := 0
    (s.dev.coreOn = true) ∧
    (d.answers Cls.media = true) ∧
    (d.ftCause (f.val) (k.val) v true = 0) ∧
    (k.val ≠ 15) :=
  ⟨by decide, by decide, by decide, by decide⟩

theorem witness_MediaCommandsComplete_badFcs :
    let s : Machine.State := sLn [] [(HDR.STATE, 3)] [] noLn
    let d : Dev := s.dev.quiet
    let port : Fin 64 := 63
    let x : EthFrame := .badFcs []
    let p : Nat := pg Cls.eth port.val
    let b : List Nat := []
    (s.dev.coreOn = true) ∧
    (d.st p = 3) ∧
    (x = EthFrame.badFcs b) :=
  ⟨by decide, by decide, by decide⟩

theorem witness_MediaCommandsComplete_tooLong :
    let s : Machine.State := sLn [] [(HDR.STATE, 3)] [] noLn
    let d : Dev := s.dev.quiet
    let port : Fin 64 := 63
    let x : EthFrame := .control (List.replicate 9601 0)
    let p : Nat := pg Cls.eth port.val
    (s.dev.coreOn = true) ∧
    (d.st p = 3) ∧
    (∀ (b : List Nat), x ≠ EthFrame.badFcs b) ∧
    (d.fld p ETH.MTU < (ethOctets x).length) :=
  ⟨by decide +kernel, by decide +kernel, nofun, by decide +kernel⟩

theorem witness_MediaCommandsComplete_control :
    let s : Machine.State := sLn [] [(HDR.STATE, 3)] [] noLn
    let d : Dev := s.dev.quiet
    let port : Fin 64 := 63
    let x : EthFrame := .control (List.replicate 64 0)
    let p : Nat := pg Cls.eth port.val
    let b : List Nat := List.replicate 64 0
    (s.dev.coreOn = true) ∧
    (d.st p = 3) ∧
    (∀ (b : List Nat), x ≠ EthFrame.badFcs b) ∧
    ((ethOctets x).length ≤ d.fld p ETH.MTU) ∧
    (x = EthFrame.control b) :=
  ⟨by decide, by decide, nofun, by decide, by decide⟩

theorem witness_MediaCommandsComplete_receive :
    let s : Machine.State := sLn [] [(HDR.STATE, 3)] [] noLn
    let d : Dev := s.dev.quiet
    let port : Fin 64 := 63
    let x : EthFrame := .multicast (List.replicate 64 0)
    let p : Nat := pg Cls.eth port.val
    (s.dev.coreOn = true) ∧
    (d.st p = 3) ∧
    (∀ (b : List Nat), x ≠ EthFrame.badFcs b) ∧
    ((ethOctets x).length ≤ d.fld p ETH.MTU) ∧
    (∀ (b : List Nat), x ≠ EthFrame.control b) :=
  ⟨by decide, by decide, nofun, by decide, nofun⟩

theorem witness_MediaCommandsComplete_gap :
    let s : Machine.State := sFt [(0, 0x80000000)] { RxFlow.init with started := true, held := [(0, pkt0)] }
    let d : Dev := s.dev.quiet
    let f : Fin 16384 := 16383
    let e : Ent := d.ent f.val
    let p : RtpPacket := pkt0
    (s.dev.coreOn = true) ∧
    (d.rxFirstHeld f.val = some p) ∧
    (e.valid = true) ∧
    (e.tx = false) ∧
    (d.mediaRuns e.engine = true) :=
  ⟨by decide, by decide, by decide, by decide, by decide⟩

theorem witness_MediaCommandsComplete_audio :
    let s : Machine.State := sFt [(0, 0x90000000)] { RxFlow.init with started := true }
    let d : Dev := s.dev.quiet
    let f : Fin 16384 := 16383
    let e : Ent := d.ent f.val
    let x : RxFlow := d.rxFlow f.val
    (s.dev.coreOn = true) ∧
    (e.valid = true) ∧
    (e.tx = false) ∧
    (e.audio = true) ∧
    (x.started = true) ∧
    (d.mediaRuns e.engine = true) :=
  ⟨by decide, by decide, by decide, by decide, by decide, by decide⟩

theorem witness_MediaCommandsComplete_pathDown :
    let s : Machine.State := sFt [(0, 0x80000000), (14, 0x10000000)] RxFlow.init
    let d : Dev := s.dev.quiet
    let f : Fin 16384 := 16383
    let e : Ent := d.ent f.val
    let path : Bool := true
    let bit : Nat := if path = true then 28 else 29
    (s.dev.coreOn = true) ∧
    (e.valid = true) ∧
    (bitAt (d.ftWord (f.val) 14) bit = true) :=
  ⟨by decide, by decide, by decide⟩

theorem witness_MediaCommandsComplete_send :
    let s : Machine.State := sFt [(0, 0xC0000000)] RxFlow.init
    let d : Dev := s.dev.quiet
    let f : Fin 16384 := 16383
    let e : Ent := d.ent f.val
    (s.dev.coreOn = true) ∧
    (e.valid = true) ∧
    (e.tx = true) ∧
    (d.mediaRuns e.engine = true) :=
  ⟨by decide, by decide, by decide, by decide⟩

theorem witness_MediaCommandsComplete_sendHost :
    let s : Machine.State := st fun d => { d with hs := { d.hs with txq := [(63, [])] } }
    let d : Dev := s.dev.quiet
    let port : Fin 64 := 63
    let x : Nat × List Nat := (63, [])
    (s.dev.coreOn = true) ∧
    (List.find? (fun (x : Nat × List Nat) ↦ decide (x.fst = port.val)) d.hs.txq = some x) :=
  ⟨by decide, by decide⟩

theorem witness_FabricCommandsComplete_tapRearm :
    let s : Machine.State := State.reset
    let src : Source := .pcie
    let v : Word := 0
    let d : Dev := s.dev.quiet
    let n : Fin 32 := 31
    let p : Nat := frPg n.val
    let w : Word := trig FREG.TAP_REARM v
    (s.dev.coreOn = true) ∧
    (Accepts d src Cls.freg (n.val) FREG.TAP_CTL.off w) ∧
    (bitAt (heard d p FREG.TAP_CTL 1 w) 0 = true) :=
  ⟨by decide, accepts_of (by decide), by decide⟩

theorem witness_FabricCommandsComplete_bram :
    let s : Machine.State := State.reset
    let d : Dev := s.dev.quiet
    let n : Fin 32 := 31
    let b : Fin 32 := 31
    let pa : Option BramOp := none
    let pb : Option BramOp := some ⟨511, true, 255, 0, .clean, false⟩
    let e : Dev := d.bramAccess (n.val) (b.val) pa pb
    (s.dev.coreOn = true) ∧
    (d.reg (frPg n.val) FREG.BRAM_UE_CNT = e.reg (frPg n.val) FREG.BRAM_UE_CNT) :=
  ⟨by decide, by decide⟩

theorem witness_FabricCommandsComplete_bramUe :
    let s : Machine.State := sReg 31 [(FREG.BRAM_MODE, 0xffffffff)] id
    let d : Dev := s.dev.quiet
    let n : Fin 32 := 31
    let b : Fin 32 := 31
    let pa : Option BramOp := none
    let pb : Option BramOp := some ⟨511, false, 255, 0, .uncorrectable, false⟩
    let e : Dev := d.bramAccess (n.val) (b.val) pa pb
    (s.dev.coreOn = true) ∧
    (d.reg (frPg n.val) FREG.BRAM_UE_CNT ≠ e.reg (frPg n.val) FREG.BRAM_UE_CNT) :=
  ⟨by decide, by decide⟩

theorem witness_FabricCommandsComplete_stale :
    let s : Machine.State := sReg 31 [(FREG.BRAM_MODE, 0xffffffff)] id
    let d : Dev := s.dev.quiet
    let n : Fin 32 := 31
    let b : Fin 32 := 31
    let x : RegionSt := d.region n.val
    (s.dev.coreOn = true) ∧
    (d.bramEcc n.val b.val = true) ∧
    (x.stale / 2 ^ b.val % 2 = 0) :=
  ⟨by decide, by decide, by decide⟩

theorem witness_FabricCommandsComplete_notStale :
    let s : Machine.State := sReg 31 [(FREG.BRAM_MODE, 0xffffffff)] fun x => { x with stale := 2 ^ 31 }
    let d : Dev := s.dev.quiet
    let n : Fin 32 := 31
    let b : Fin 32 := 31
    let x : RegionSt := d.region n.val
    (s.dev.coreOn = true) ∧
    (d.bramEcc n.val b.val = true) ∧
    (x.stale / 2 ^ b.val % 2 = 1) :=
  ⟨by decide, by decide, by decide⟩

theorem witness_FabricCommandsComplete_osc :
    let s : Machine.State := sReg 28 [(FREG.OSC_CFG_EN, 1)] id
    let d : Dev := s.dev.quiet
    let k : Fin 8 := 7
    (s.dev.coreOn = true) ∧
    (d.flag (frPg (4 * k.val)) FREG.OSC_CFG_EN = true) :=
  ⟨by decide, by decide⟩

theorem witness_FabricCommandsComplete_ustore :
    let s : Machine.State := sReg 31 [(FREG.STATE, 3), (FREG.USTORE_WIN_EN, 1)] id
    let d : Dev := s.dev.quiet
    let n : Fin 34 := 31
    let write : Bool := false
    let a : BitVec 32 := 0
    let data : List Byte := []
    let len : Nat := 65536
    let bs : List Nat := List.map BitVec.toNat data
    let bytes : Nat := if write = true then bs.length else len
    let w : Nat × Nat := (0, 65536)
    (s.dev.coreOn = true) ∧
    (d.portServe n.val ≠ 0) ∧
    (¬(d.portServe n.val = 2 ∧ write = true)) ∧
    (winOf (d.reg (regionPg n.val) FREG.USTORE_WIN) = some w) ∧
    (w.fst ≤ a.toNat) ∧
    (a.toNat + bytes ≤ w.fst + w.snd) :=
  ⟨by decide, by decide, by decide, by decide, by decide, by decide⟩

theorem witness_FabricCommandsComplete_ustoreOut :
    let s : Machine.State := sReg 31 [(FREG.STATE, 3), (FREG.USTORE_WIN_EN, 1)] id
    let d : Dev := s.dev.quiet
    let n : Fin 34 := 31
    let write : Bool := false
    let a : BitVec 32 := 1
    let data : List Byte := []
    let len : Nat := 65536
    let bs : List Nat := List.map BitVec.toNat data
    let bytes : Nat := if write = true then bs.length else len
    let w : Nat × Nat := (0, 65536)
    (s.dev.coreOn = true) ∧
    (d.portServe n.val ≠ 0) ∧
    (¬(d.portServe n.val = 2 ∧ write = true)) ∧
    (winOf (d.reg (regionPg n.val) FREG.USTORE_WIN) = some w) ∧
    (¬(w.fst ≤ a.toNat ∧ a.toNat + bytes ≤ w.fst + w.snd)) :=
  ⟨by decide, by decide, by decide, by decide, by decide⟩

theorem witness_FabricCommandsComplete_ustoreDone :
    let s : Machine.State := st fun d => { d with fab := { d.fab with ubusy := some ⟨31, false, 0, [], 0⟩ } }
    let d : Dev := s.dev.quiet
    let q : UReq := ⟨31, false, 0, [], 0⟩
    (s.dev.coreOn = true) ∧
    (d.fab.ubusy = some q) :=
  ⟨by decide, by decide⟩

theorem witness_FabricCommandsComplete_regWrite :
    let s : Machine.State := sReg 31 [(FREG.STATE, 3), (FREG.FPORT_CFG_EN.at 7, 1), (FREG.MODE.at 7, 3)] id
    let d : Dev := s.dev.quiet
    let n : Fin 34 := 31
    let p : Fin 8 := 7
    (s.dev.coreOn = true) ∧
    (d.regPort n.val p.val = true) ∧
    (d.portServe n.val = 1) :=
  ⟨by decide, by decide, by decide⟩

theorem witness_FabricCommandsComplete_regRead :
    let s : Machine.State := sReg 31 [(FREG.STATE, 3), (FREG.FPORT_CFG_EN.at 7, 1), (FREG.MODE.at 7, 3)] id
    let d : Dev := s.dev.quiet
    let n : Fin 34 := 31
    let p : Fin 8 := 7
    (s.dev.coreOn = true) ∧
    (d.regPort n.val p.val = true) ∧
    (d.portServe n.val ≠ 0) :=
  ⟨by decide, by decide, by decide⟩

theorem witness_LoaderAndStoreComplete_loadGo :
    let s : Machine.State := State.reset
    let src : Source := .pcie
    let v : Word := 0
    let d : Dev := s.dev.quiet
    let w : Word := trig LDR.LDR_CTL_GO v
    let new : Word := heard d ldrPg LDR.LDR_CTL 3808624640 w
    (s.dev.coreOn = true) ∧
    (Accepts d src Cls.ldr 0 LDR.LDR_CTL.off w) ∧
    (bitAt new 30 = false) ∧
    (bitAt new 31 = true) :=
  ⟨by decide, accepts_of (by decide), by decide, by decide⟩

theorem witness_LoaderAndStoreComplete_loadAbort :
    let s : Machine.State := State.reset
    let src : Source := .pcie
    let v : Word := 0
    let d : Dev := s.dev.quiet
    let w : Word := trig LDR.ABORT v
    let new : Word := heard d ldrPg LDR.LDR_CTL 3808624640 w
    (s.dev.coreOn = true) ∧
    (Accepts d src Cls.ldr 0 LDR.LDR_CTL.off w) ∧
    (bitAt new 30 = true) ∧
    (bitAt new 31 = false) :=
  ⟨by decide, accepts_of (by decide), by decide, by decide⟩

theorem witness_LoaderAndStoreComplete_digest :
    let s : Machine.State := sLoader (some job1) 1
    let d : Dev := s.dev.quiet
    (s.dev.coreOn = true) ∧
    (d.ld.job ≠ none) ∧
    (d.ldPhase = 1) :=
  ⟨by decide, by decide, by decide⟩

theorem witness_LoaderAndStoreComplete_badImage :
    let s : Machine.State := sLoader (some job1) 2
    let d : Dev := s.dev.quiet
    let o : LoadJob := job1
    let i : Img := d.jobImg o
    let j : LoadJob := o.read i
    let head : Option (Nat × Nat) := firstErr [d.verifyHead j i j.mans j.sects, coverErr j.mans j.sects]
    let e : Nat × Nat := (1, 0)
    (s.dev.coreOn = true) ∧
    (d.ld.job = some o) ∧
    (d.ldPhase = 2) ∧
    (head = some e) :=
  ⟨by decide, by decide, by decide, by decide⟩

theorem witness_LoaderAndStoreComplete_verifiesRegion :
    let s : Machine.State := sLoader (some { job1 with verify := true, mans := [⟨0, 31, 7, 0, 0, 0, 0⟩] }) 3
    let d : Dev := s.dev.quiet
    let o : LoadJob := { job1 with verify := true, mans := [⟨0, 31, 7, 0, 0, 0, 0⟩] }
    let k : Nat := 0
    (s.dev.coreOn = true) ∧
    (d.ld.job = some o) ∧
    (o.next = some k) ∧
    (d.ldPhase = 3) ∧
    (o.verify = true) :=
  ⟨by decide, by decide, by decide, by decide, by decide⟩

theorem witness_LoaderAndStoreComplete_writesRegion :
    let s : Machine.State := sLoader (some { job1 with mans := [⟨0, 31, 7, 0, 0, 0, 0⟩] }) 3
    let d : Dev := s.dev.quiet
    let o : LoadJob := { job1 with mans := [⟨0, 31, 7, 0, 0, 0, 0⟩] }
    let k : Nat := 0
    let m : Manif := o.mans.getD k { kind := 0, index := 0, group := 0, flags := 0, repl := 0, zero := 0, cols := 0 }
    let n : Nat := m.region
    let e : Dev × Option (Nat × Nat) := (if m.kind = 0 then
            d.setRegion n
              (have __src := d.region n;
              { drives := [], bram := __src.bram, bpois := __src.bpois, outq := __src.outq, rot := __src.rot,
                stale := __src.stale, ffs := __src.ffs })
          else d).writeSects
        o n (o.sectsOf k)
    (s.dev.coreOn = true) ∧
    (d.ld.job = some o) ∧
    (o.next = some k) ∧
    (d.ldPhase = 3) ∧
    (o.verify = false) ∧
    (e.snd = none) :=
  ⟨by decide, by decide, by decide, by decide, by decide, by decide⟩

theorem witness_LoaderAndStoreComplete_groupComplete :
    let s : Machine.State := sLoader (some job1) 3
    let d : Dev := s.dev.quiet
    let o : LoadJob := job1
    let g : Fin 8 := 7
    let e : Dev := d.groupHeld o g.val
    let rs : List LRec := []
    (s.dev.coreOn = true) ∧
    (d.ld.job = some o) ∧
    (d.ldPhase = 3) ∧
    (o.verify = false) ∧
    (g.val < o.groups) ∧
    (o.complete.contains g.val = false) ∧
    (o.groupWritten g.val = true) ∧
    (e.allRegRecs o (o.regSects g.val) = Except.ok rs) :=
  ⟨by decide, by decide, by decide, by decide, by decide, by decide, by decide, rfl⟩

theorem witness_LoaderAndStoreComplete_isoRelease :
    let s : Machine.State := sReg 31 [(FREG.STATE, 2)] id
    let src : Source := .pcie
    let v : Word := 0
    let d : Dev := s.dev.quiet
    let n : Fin 34 := 31
    let p : Nat := pg (regionCls n) (regionInst n)
    let w : Word := trig FREG.RELEASE v
    let e : Dev := written d p FREG.ISO_CTL 1 0 w
    (s.dev.coreOn = true) ∧
    (Accepts d src (regionCls n) (regionInst n) FREG.ISO_CTL.off w) ∧
    (bitAt (heard d p FREG.ISO_CTL 1 w) 0 = true) ∧
    (e.iso n.val = 2) :=
  ⟨by decide, accepts_of (by decide), by decide, by decide⟩

theorem witness_LoaderAndStoreComplete_isoKeeper :
    let s : Machine.State := sReg 33 [(FREG.STATE, 2)] id
    let src : Source := .sup
    let v : Word := 0
    let d : Dev := s.dev.quiet
    let n : Fin 34 := 33
    let p : Nat := pg (regionCls n) (regionInst n)
    let w : Word := trig FREG.RELEASE v
    let e : Dev := written d p FREG.ISO_CTL 1 0 w
    (s.dev.coreOn = true) ∧
    (Accepts d src (regionCls n) (regionInst n) FREG.ISO_CTL.off w) ∧
    (bitAt (heard d p FREG.ISO_CTL 1 w) 0 = true) ∧
    (e.iso n.val = 2) :=
  ⟨by decide, accepts_of (by decide), by decide, by decide⟩

theorem witness_LoaderAndStoreComplete_readback :
    let s : Machine.State := State.reset
    let src : Source := .pcie
    let v : Word := 0
    let d : Dev := s.dev.quiet
    let w : Word := trig LDR.RB_CTL_GO v
    let new : Word := heard d ldrPg LDR.RB_CTL 2954822143 w
    (s.dev.coreOn = true) ∧
    (Accepts d src Cls.ldr 0 LDR.RB_CTL.off w) ∧
    (bitAt new 31 = true) :=
  ⟨by decide, accepts_of (by decide), by decide⟩

theorem witness_LoaderAndStoreComplete_bootSlot :
    let s : Machine.State := sBoot 3 2
    let d : Dev := s.dev.quiet
    let n : Nat := d.fld stPg STORE.BOOT_SLOT
    let e : Dev := d.loadStart 0 n Source.sup true true false
    (s.dev.coreOn = true) ∧
    (d.pw.supRun = true) ∧
    (d.ld.job = none) ∧
    (d.ld.persSrc = none) ∧
    (d.ld.bare = false) ∧
    (d.ld.awaitHost = false) ∧
    (n < 4) ∧
    (e.fld stPg (STORE.STATE.at n) ≠ 1) :=
  ⟨by decide, by decide, by decide, by decide, by decide, by decide, by decide, by decide⟩

theorem witness_LoaderAndStoreComplete_bootBusy :
    let s : Machine.State := sBoot 3 1
    let d : Dev := s.dev.quiet
    let n : Nat := d.fld stPg STORE.BOOT_SLOT
    let e : Dev := d.loadStart 0 n Source.sup true true false
    let j : LoadJob := (((sBoot 3 1).dev.quiet.loadStart 0 3 .sup true true false).ld.job.getD job1)
    (s.dev.coreOn = true) ∧
    (d.pw.supRun = true) ∧
    (d.ld.job = none) ∧
    (d.ld.persSrc = none) ∧
    (d.ld.bare = false) ∧
    (d.ld.awaitHost = false) ∧
    (n < 4) ∧
    (e.fld stPg (STORE.STATE.at n) = 1) ∧
    (e.ld.job = some j) :=
  ⟨by decide, by decide, by decide, by decide, by decide, by decide, by decide, by decide, by decide⟩

theorem witness_LoaderAndStoreComplete_bootHost :
    let s : Machine.State := sBoot 4 0
    let d : Dev := s.dev.quiet
    let n : Nat := d.fld stPg STORE.BOOT_SLOT
    (s.dev.coreOn = true) ∧
    (d.pw.supRun = true) ∧
    (d.ld.job = none) ∧
    (d.ld.persSrc = none) ∧
    (d.ld.bare = false) ∧
    (d.ld.awaitHost = false) ∧
    (n = 4) :=
  ⟨by decide, by decide, by decide, by decide, by decide, by decide, by decide⟩

theorem witness_LoaderAndStoreComplete_bootBare :
    let s : Machine.State := sBoot 5 0
    let d : Dev := s.dev.quiet
    let n : Nat := d.fld stPg STORE.BOOT_SLOT
    (s.dev.coreOn = true) ∧
    (d.pw.supRun = true) ∧
    (d.ld.job = none) ∧
    (d.ld.persSrc = none) ∧
    (d.ld.bare = false) ∧
    (d.ld.awaitHost = false) ∧
    (4 < n) :=
  ⟨by decide, by decide, by decide, by decide, by decide, by decide, by decide⟩

theorem witness_LoaderAndStoreComplete_deadline :
    let s : Machine.State := sLd fun x => { x with persAt := some 0 }
    let d : Dev := s.dev.quiet
    let t : Nat := 0
    let e : Dev := d.pass (t + d.ld.deadline * 1000000 - d.mono)
    let f : Dev := { e with ld := { e.ld with persAt := none, awaitHost := false, fellBack := true } }
    (s.dev.coreOn = true) ∧
    (d.ld.persAt = some t) ∧
    (d.ld.persSrc = none) ∧
    (d.ld.bare = false) ∧
    (f.ld.job = none) :=
  ⟨by decide, by decide, by decide, by decide, by decide⟩

theorem witness_LoaderAndStoreComplete_deadlineJob :
    let s : Machine.State := sLd fun x => { x with persAt := some 0, job := some job1 }
    let d : Dev := s.dev.quiet
    let t : Nat := 0
    let e : Dev := d.pass (t + d.ld.deadline * 1000000 - d.mono)
    let f : Dev := { e with ld := { e.ld with persAt := none, awaitHost := false, fellBack := true } }
    let j : LoadJob := job1
    (s.dev.coreOn = true) ∧
    (d.ld.persAt = some t) ∧
    (d.ld.persSrc = none) ∧
    (d.ld.bare = false) ∧
    (f.ld.job = some j) :=
  ⟨by decide, by decide, by decide, by decide, by decide⟩

theorem witness_LoaderAndStoreComplete_hoCompare :
    let s : Machine.State := sHo hoCmp
    let d : Dev := s.dev.quiet
    let h : RegHo := hoCmp
    let dt : Nat := 5
    let w : Dev := d.pass dt
    let done : Bool := cmpDone h.cmps (w.hoPorts h) (w.fld ldrPg LDR.COMPARE)
    (s.dev.coreOn = true) ∧
    (d.ld.ho = some h) ∧
    (h.phase = 3) ∧
    (h.ready = false) ∧
    (done = true) :=
  ⟨by decide, by decide, by decide, by decide, by decide⟩

theorem witness_LoaderAndStoreComplete_hoCompareWaits :
    let s : Machine.State := sHoWaits
    let d : Dev := s.dev.quiet
    let h : RegHo := hoCmp
    let dt : Nat := 0
    let w : Dev := d.pass dt
    let done : Bool := cmpDone h.cmps (w.hoPorts h) (w.fld ldrPg LDR.COMPARE)
    (s.dev.coreOn = true) ∧
    (d.ld.ho = some h) ∧
    (h.phase = 3) ∧
    (h.ready = false) ∧
    (done = false) :=
  ⟨by decide, by decide, by decide, by decide, by decide⟩

theorem witness_LoaderAndStoreComplete_hoSilent :
    let s : Machine.State := sHoWaits
    let d : Dev := s.dev.quiet
    let h : RegHo := hoCmp
    let t : Nat := 0
    (s.dev.coreOn = true) ∧
    (d.ld.ho = some h) ∧
    (h.phase = 3) ∧
    (h.ready = false) ∧
    (cmpSilent h.cmps (d.hoPorts h) (d.fld ldrPg LDR.COMPARE) h.cmpAt = some t) :=
  ⟨by decide, by decide, by decide, by decide, by decide⟩

theorem witness_LoaderAndStoreComplete_hoTimeout :
    let s : Machine.State := sHo (ho0 4 false)
    let d : Dev := s.dev.quiet
    let h : RegHo := ho0 4 false
    let t : Nat := 0
    (s.dev.coreOn = true) ∧
    (d.ld.ho = some h) ∧
    (h.since = some t) ∧
    (h.instant = none) :=
  ⟨by decide, by decide, by decide, by decide⟩

theorem witness_LoaderAndStoreComplete_hoDrain :
    let s : Machine.State := sHo (ho0 5 true)
    let d : Dev := s.dev.quiet
    let h : RegHo := ho0 5 true
    (s.dev.coreOn = true) ∧
    (d.ld.ho = some h) ∧
    (h.switched = true) :=
  ⟨by decide, by decide, by decide⟩

theorem witness_LoaderAndStoreComplete_slotWritten :
    let s : Machine.State := sStore ⟨0, 3, true, 64, 1⟩
    let d : Dev := s.dev.quiet
    let j : StoreJob := ⟨0, 3, true, 64, 1⟩
    (s.dev.coreOn = true) ∧
    (d.sto.job = some j) ∧
    (j.target = 0) ∧
    (j.copied = true) :=
  ⟨by decide, by decide, by decide, by decide⟩

theorem witness_LoaderAndStoreComplete_unit :
    let s : Machine.State := sStore ⟨1, 7, false, 64, 0⟩
    let d : Dev := s.dev.quiet
    let j : StoreJob := ⟨1, 7, false, 64, 0⟩
    (s.dev.coreOn = true) ∧
    (d.sto.job = some j) ∧
    (d.flag pwrPg PWR.PFAIL = false) ∧
    (j.copied = false) :=
  ⟨by decide, by decide, by decide, by decide⟩

theorem witness_LoaderAndStoreComplete_journal :
    let s : Machine.State := State.reset
    let d : Dev := s.dev.quiet
    let a : BitVec 26 := 0x3ffffc0
    (s.dev.coreOn = true) ∧
    (d.flag pwrPg PWR.PFAIL = false) ∧
    (66060288 ≤ a.toNat) ∧
    (a.toNat + 64 ≤ 67108864) ∧
    (a.toNat % 64 = 0) :=
  ⟨by decide, by decide, by decide, by decide, by decide⟩

theorem witness_LoaderAndStoreComplete_badRegion :
    let s : Machine.State := sLoader (some jobBad) 3
    let d : Dev := s.dev.quiet
    let o : LoadJob := jobBad
    let k : Nat := 0
    let m : Manif := o.mans.getD k { kind := 0, index := 0, group := 0, flags := 0, repl := 0, zero := 0, cols := 0 }
    let n : Nat := m.region
    let e : Dev × Option (Nat × Nat) := (if m.kind = 0 then
            d.setRegion n
              (have __src := d.region n;
              { drives := [], bram := __src.bram, bpois := __src.bpois, outq := __src.outq, rot := __src.rot,
                stale := __src.stale, ffs := __src.ffs })
          else d).writeSects
        o n (o.sectsOf k)
    let err : Nat × Nat := (1, 0)
    (s.dev.coreOn = true) ∧
    (d.ld.job = some o) ∧
    (o.next = some k) ∧
    (d.ldPhase = 3) ∧
    (o.verify = false) ∧
    (e.snd = some err) :=
  ⟨by decide, by decide, by decide, by decide, by decide, by decide⟩

theorem witness_LoaderAndStoreComplete_badGroup :
    let s : Machine.State := sLoader (some jobBadReg) 3
    let d : Dev := s.dev.quiet
    let o : LoadJob := jobBadReg
    let g : Fin 8 := 7
    let e : Dev := d.groupHeld o g.val
    let x : Nat × Nat := (1, 0)
    (s.dev.coreOn = true) ∧
    (d.ld.job = some o) ∧
    (d.ldPhase = 3) ∧
    (o.verify = false) ∧
    (g.val < o.groups) ∧
    (o.complete.contains g.val = false) ∧
    (o.groupWritten g.val = true) ∧
    (e.allRegRecs o (o.regSects g.val) = Except.error x) :=
  ⟨by decide, by decide, by decide, by decide, by decide, by decide, by decide, rfl⟩

theorem witness_PinCommandsComplete_masked :
    let s : Machine.State := State.reset
    let src : Source := .pcie
    let b : Fin 12 := 11
    let d : Dev := s.dev.quiet
    let which : PinMask := .pull
    let v : Word := 0xffffffff
    let f : Fld := PinMask.fld which
    (s.dev.coreOn = true) ∧
    (Accepts d src Cls.iob (b.val) f.off v) ∧
    (d.iobDropped src (b.val) f.off v = 0) :=
  ⟨by decide, accepts_of (by decide), by decide⟩

theorem witness_PinCommandsComplete_lock :
    let s : Machine.State := State.reset
    let src : Source := .pcie
    let b : Fin 12 := 11
    let d : Dev := s.dev.quiet
    let mask : BitVec 16 := 0xffff
    let key : BitVec 16 := 0x5a5a
    let w : Word := wd (mask.toNat * 65536 + key.toNat)
    (s.dev.coreOn = true) ∧
    (Accepts d src Cls.iob (b.val) IOB.PIN_LOCK.off w) ∧
    (d.iobDropped src (b.val) IOB.PIN_LOCK.off w = 0) :=
  ⟨by decide, accepts_of (by decide), by decide⟩

theorem witness_PinCommandsComplete_vioLost :
    let s : Machine.State := sOn (ioPg 11) [(IOB.VIO_OK, 1)]
    let b : Fin 12 := 11
    let d : Dev := s.dev.quiet
    let mv : BitVec 12 := 1599
    (s.dev.coreOn = true) ∧
    (d.flag (ioPg b.val) IOB.VIO_OK = true) ∧
    (mv.toNat < 1600) :=
  ⟨by decide, by decide, by decide⟩

theorem witness_PinCommandsComplete_vioBack :
    let s : Machine.State := sOn (ioPg 11) [(IOB.VIO_OK, 0)]
    let b : Fin 12 := 11
    let d : Dev := s.dev.quiet
    let mv : BitVec 12 := 1600
    (s.dev.coreOn = true) ∧
    (d.flag (ioPg b.val) IOB.VIO_OK = false) ∧
    (1600 ≤ mv.toNat) :=
  ⟨by decide, by decide, by decide⟩

theorem witness_PinCommandsComplete_aesRx :
    let s : Machine.State := sPer (aesPg 27) [(AES3.LOCK, 1)] 27 4 id
    let d : Dev := s.dev.quiet
    let n : Fin 32 := 27
    let p : Nat := aesPg n.val
    (s.dev.coreOn = true) ∧
    (d.aesRuns (n.val) false = true) ∧
    (d.flag p AES3.LOCK = true) ∧
    (d.pinSampled (n.val) 4 = true) :=
  ⟨by decide, by decide, by decide, by decide⟩

theorem witness_PinCommandsComplete_aesLock :
    let s : Machine.State := sPer (aesPg 27) [] 27 4 id
    let d : Dev := s.dev.quiet
    let n : Fin 32 := 27
    let p : Nat := aesPg n.val
    (s.dev.coreOn = true) ∧
    (d.aesRuns (n.val) false = true) ∧
    (d.pinSampled (n.val) 4 = true) ∧
    (d.flag p AES3.LOCK = false) :=
  ⟨by decide, by decide, by decide, by decide⟩

theorem witness_PinCommandsComplete_aesUnlock :
    let s : Machine.State := sPer (aesPg 31) [(AES3.LOCK, 1)] 27 4 id
    let d : Dev := s.dev.quiet
    let n : Fin 32 := 31
    let p : Nat := aesPg n.val
    (s.dev.coreOn = true) ∧
    (d.flag p AES3.LOCK = true) :=
  ⟨by decide, by decide⟩

theorem witness_PinCommandsComplete_aesTx :
    let s : Machine.State := sPer (aesPg 31) [(AES3.DIR, 1)] 27 4 id
    let d : Dev := s.dev.quiet
    let n : Fin 32 := 31
    (s.dev.coreOn = true) ∧
    (d.aesRuns (n.val) true = true) :=
  ⟨by decide, by decide⟩

theorem witness_PinCommandsComplete_ltcSync :
    let s : Machine.State := sPer (ltcPg 1) [(LTC.RD_EN, 1)] 30 5 id
    let d : Dev := s.dev.quiet
    let k : Fin 2 := 1
    let p : Nat := ltcPg k.val
    (s.dev.coreOn = true) ∧
    (d.perOn Cls.ltc k.val = true) ∧
    (d.flag p LTC.RD_EN = true) ∧
    (d.pinSampled (28 + 2 * k.val) 5 = true) :=
  ⟨by decide, by decide, by decide, by decide⟩

theorem witness_PinCommandsComplete_ltcLost :
    let s : Machine.State := sPer (ltcPg 1) [(LTC.RD_EN, 1)] 30 5 fun x => { x with ltcAt := [(1, 0)] }
    let d : Dev := s.dev.quiet
    let k : Fin 2 := 1
    let p : Nat := ltcPg k.val
    let t : Nat := 0
    (s.dev.coreOn = true) ∧
    (Tab.get d.pn.ltcAt k.val = some t) ∧
    (d.perOn Cls.ltc k.val = true) ∧
    (d.flag p LTC.RD_EN = true) :=
  ⟨by decide, by decide, by decide, by decide⟩

theorem witness_PinCommandsComplete_ltcStart :
    let s : Machine.State := sPer (ltcPg 1) [(LTC.GEN_EN, 1)] 31 5 id
    let d : Dev := s.dev.quiet
    let k : Fin 2 := 1
    let p : Nat := ltcPg k.val
    let m : Nat := d.fld p LTC.MCG
    let vr : Nat := d.fld (pg Cls.mcg m) MCG.VRATE
    (s.dev.coreOn = true) ∧
    (d.perOn Cls.ltc k.val = true) ∧
    (d.flag p LTC.GEN_EN = true) ∧
    (d.mcgRuns m = true) ∧
    (1 ≤ vr) ∧
    (vr ≤ 5) :=
  ⟨by decide, by decide, by decide, by decide, by decide, by decide⟩

theorem witness_PinCommandsComplete_serWrite :
    let s : Machine.State := State.reset
    let src : Source := .pcie
    let d : Dev := s.dev.quiet
    let kind : SerKind := .uart
    let i : Fin 4 := 3
    let c : Cls := SerKind.cls kind
    let v : Word := 255
    (s.dev.coreOn = true) ∧
    (Accepts d src c (i.val) SER.SER_DATA.off v) :=
  ⟨by decide, accepts_of (by decide)⟩

theorem witness_PinCommandsComplete_serRead :
    let s : Machine.State := State.reset
    let d : Dev := s.dev.quiet
    let kind : SerKind := .uart
    let i : Fin 4 := 3
    let c : Cls := SerKind.cls kind
    let p : Nat := pg c i.val
    (s.dev.coreOn = true) ∧
    (i.val < c.info.count) ∧
    (d.answers c = true) ∧
    (d.pwrState p ≠ 3) :=
  ⟨by decide, by decide, by decide, by decide⟩

theorem witness_PinCommandsComplete_serLogic :
    let s : Machine.State := { sPer (pg .spi 3) [(SER.ATTACH, 1), (SER.REGION, 31)] 50 7 id with dev := sets (sPer (pg .spi 3) [(SER.ATTACH, 1), (SER.REGION, 31)] 50 7 id).dev (regionPg 31) [(FREG.STATE, 3)] }
    let d : Dev := s.dev.quiet
    let kind : SerKind := .spi
    let i : Fin 4 := 3
    let c : Cls := SerKind.cls kind
    let p : Nat := pg c i.val
    (s.dev.coreOn = true) ∧
    (d.perOn c i.val = true) ∧
    (d.pinSampled (serIn c i.val).fst (serIn c i.val).snd = true) ∧
    (d.serAttach p = true) ∧
    (d.regionLive (d.serRegion p) = true) :=
  ⟨by decide, by decide, by decide, by decide, by decide⟩

theorem witness_PinCommandsComplete_serRx :
    let s : Machine.State := sPer (pg .uart 0) [] 61 9 id
    let d : Dev := s.dev.quiet
    let kind : SerKind := .uart
    let i : Fin 4 := 0
    let c : Cls := SerKind.cls kind
    let p : Nat := pg c i.val
    (s.dev.coreOn = true) ∧
    (d.perOn c i.val = true) ∧
    (d.pinSampled (serIn c i.val).fst (serIn c i.val).snd = true) ∧
    (d.serAttach p = false) ∧
    ((d.serRx p).length < 16) :=
  ⟨by decide, by decide, by decide, by decide, by decide⟩

theorem witness_HostQueuesComplete_cfgRuns :
    let s : Machine.State := sQ (dmaOn true (descOf 0))
    let q : Fin 16 := 15
    let d : Dev := s.dev.quiet
    let x : DmaQ := d.dmaQ q.val
    let v : Word := 0x80000000
    (s.dev.coreOn = true) ∧
    (x.on = true) ∧
    (bitAt v 31 = true) :=
  ⟨by decide, by decide, by decide⟩

theorem witness_HostQueuesComplete_cfgStops :
    let s : Machine.State := sQ (dmaOn true (descOf 0))
    let q : Fin 16 := 15
    let d : Dev := s.dev.quiet
    let x : DmaQ := d.dmaQ q.val
    let v : Word := 0
    (s.dev.coreOn = true) ∧
    (x.on = true) ∧
    (bitAt v 31 = false) :=
  ⟨by decide, by decide, by decide⟩

theorem witness_HostQueuesComplete_cfg :
    let s : Machine.State := State.reset
    let q : Fin 16 := 15
    let d : Dev := s.dev.quiet
    let x : DmaQ := d.dmaQ q.val
    (s.dev.coreOn = true) ∧
    (x.on = false) :=
  ⟨by decide, by decide⟩

theorem witness_HostQueuesComplete_doorbell :
    let s : Machine.State := sQ (dmaOn true (descOf 0))
    let q : Fin 16 := 15
    let d : Dev := s.dev.quiet
    let x : DmaQ := d.dmaQ q.val
    (s.dev.coreOn = true) ∧
    (x.on = true) :=
  ⟨by decide, by decide⟩

theorem witness_HostQueuesComplete_doorbellOff :
    let s : Machine.State := State.reset
    let q : Fin 16 := 15
    let d : Dev := s.dev.quiet
    let x : DmaQ := d.dmaQ q.val
    (s.dev.coreOn = true) ∧
    (x.on = false) :=
  ⟨by decide, by decide⟩

theorem witness_HostQueuesComplete_illegal :
    let s : Machine.State := sQ (dmaOn true (descOf 0))
    let q : Fin 16 := 15
    let d : Dev := s.dev.quiet
    let x : DmaQ := d.dmaQ q.val
    let c : Desc := descOf 0
    let t : List Desc := []
    (s.dev.coreOn = true) ∧
    (x.work = c :: t) ∧
    (x.on = true) ∧
    (x.pend.isEmpty = true) ∧
    (descLegal x.packet c = false) :=
  ⟨by decide, by decide, by decide, by decide, by decide⟩

theorem witness_HostQueuesComplete_badAddr :
    let s : Machine.State := sQ (dmaOn false { descOf 2 with fdst := 0x10000000 })
    let q : Fin 16 := 15
    let d : Dev := s.dev.quiet
    let x : DmaQ := d.dmaQ q.val
    let c : Desc := { descOf 2 with fdst := 0x10000000 }
    let t : List Desc := []
    let e : Dev := d.setDmaQ q.val { regs := x.regs, phase := x.phase, work := t, rung := x.rung, pend := x.pend }
    (s.dev.coreOn = true) ∧
    (x.work = c :: t) ∧
    (x.on = true) ∧
    (x.pend.isEmpty = true) ∧
    (descLegal x.packet c = true) ∧
    (e.descBad c = true) :=
  ⟨by decide, by decide, by decide, by decide, by decide, by decide⟩

theorem witness_HostQueuesComplete_memory :
    let s : Machine.State := sQ (dmaOn false (descOf 2))
    let q : Fin 16 := 15
    let d : Dev := s.dev.quiet
    let x : DmaQ := d.dmaQ q.val
    let c : Desc := descOf 2
    let t : List Desc := []
    let e : Dev := d.setDmaQ q.val { regs := x.regs, phase := x.phase, work := t, rung := x.rung, pend := x.pend }
    (s.dev.coreOn = true) ∧
    (x.work = c :: t) ∧
    (x.on = true) ∧
    (x.pend.isEmpty = true) ∧
    (descLegal x.packet c = true) ∧
    (e.descBad c = false) ∧
    (c.op ≤ 2) :=
  ⟨by decide, by decide, by decide, by decide, by decide, by decide, by decide⟩

theorem witness_HostQueuesComplete_transmit :
    let s : Machine.State := sQ (dmaOn true (descOf 3))
    let q : Fin 16 := 15
    let d : Dev := s.dev.quiet
    let x : DmaQ := d.dmaQ q.val
    let c : Desc := descOf 3
    let t : List Desc := []
    let e : Dev := d.setDmaQ q.val { regs := x.regs, phase := x.phase, work := t, rung := x.rung, pend := x.pend }
    (s.dev.coreOn = true) ∧
    (x.work = c :: t) ∧
    (x.on = true) ∧
    (x.pend.isEmpty = true) ∧
    (descLegal x.packet c = true) ∧
    (e.descBad c = false) ∧
    (c.op = 3) :=
  ⟨by decide, by decide, by decide, by decide, by decide, by decide, by decide⟩

theorem witness_HostQueuesComplete_receive :
    let s : Machine.State := { sQ (dmaOn true (descOf 4)) with dev := { (sQ (dmaOn true (descOf 4))).dev with md := { MediaSt.init with hostq := [(15, ⟨63, [], none⟩)] } } }
    let q : Fin 16 := 15
    let d : Dev := s.dev.quiet
    let x : DmaQ := d.dmaQ q.val
    let c : Desc := descOf 4
    let t : List Desc := []
    let e : Dev := d.setDmaQ q.val { regs := x.regs, phase := x.phase, work := t, rung := x.rung, pend := x.pend }
    let y : Nat × HostFrame := (15, ⟨63, [], none⟩)
    (s.dev.coreOn = true) ∧
    (x.work = c :: t) ∧
    (x.on = true) ∧
    (x.pend.isEmpty = true) ∧
    (descLegal x.packet c = true) ∧
    (e.descBad c = false) ∧
    (3 < c.op) ∧
    (List.find? (fun (y : Nat × HostFrame) ↦ decide (y.fst = q.val)) d.md.hostq = some y) :=
  ⟨by decide, by decide, by decide, by decide, by decide, by decide, by decide, by decide⟩

theorem witness_HostQueuesComplete_ringWrite :
    let s : Machine.State := sRing fun x => { x with host := [lost0] }
    let d : Dev := s.dev.quiet
    let q : Fin 4 := 3
    let e : QEnt := lost0
    let t : List QEnt := []
    (s.dev.coreOn = true) ∧
    ((d.queue q.val).host = e :: t) ∧
    (d.flag ntcPg (NTC.RING_EN.at q.val) = true) ∧
    (d.ringRoom q.val = true) :=
  ⟨by decide, by decide, by decide, by decide⟩

theorem witness_HostQueuesComplete_tail :
    let s : Machine.State := State.reset
    let d : Dev := s.dev.quiet
    let src : Source := .pcie
    let q : Fin 4 := 3
    let v : Word := 0
    (s.dev.coreOn = true) ∧
    (Accepts d src Cls.ntc 0 (NTC.NQ_TAIL.at q.val).off v) :=
  ⟨by decide, accepts_of (by decide)⟩

theorem witness_HostQueuesComplete_coalesce :
    let s : Machine.State := sRing fun x => { x with irqSince := some 0 }
    let d : Dev := s.dev.quiet
    let q : Fin 4 := 3
    let t : Nat := 0
    (s.dev.coreOn = true) ∧
    ((d.queue q.val).irqSince = some t) ∧
    (d.fld ntcPg (NTC.COAL_US.at q.val) ≠ 0) :=
  ⟨by decide, by decide, by decide⟩

theorem witness_HostQueuesComplete_linkDown :
    let s : Machine.State := sOn pciPg [(PCIE.LINK_UP, 1)]
    let d : Dev := s.dev.quiet
    (s.dev.coreOn = true) ∧
    (d.flag pciPg PCIE.LINK_UP = true) :=
  ⟨by decide, by decide⟩

theorem witness_HostQueuesComplete_linkUp :
    let s : Machine.State := sOn pciPg [(PCIE.LINK_UP, 0)]
    let d : Dev := s.dev.quiet
    (s.dev.coreOn = true) ∧
    (d.flag pciPg PCIE.LINK_UP = false) :=
  ⟨by decide, by decide⟩

theorem witness_HostQueuesComplete_cqHead :
    let s : Machine.State := State.reset
    (s.dev.coreOn = true) :=
  by decide

theorem witness_BrizelCompletes_break_ :
    let s : Machine.State := State.reset
    let baud : BitVec 25 := 25000000
    (s.dev.coreOn = true) ∧
    (115200 ≤ baud.toNat) ∧
    (baud.toNat ≤ 25000000) :=
  ⟨by decide, by decide, by decide⟩

theorem witness_BrizelCompletes_reject :
    let s : Machine.State := sBriz id
    let d : Dev := s.dev.quiet
    (s.dev.coreOn = true) ∧
    (d.synced = true) :=
  ⟨by decide, by decide⟩

theorem witness_BrizelCompletes_noChannel :
    let s : Machine.State := sBriz id
    let d : Dev := s.dev.quiet
    let ch : Byte := 4
    let n : BitVec 16 := 0
    let count : BitVec 16 := 0
    let addr : Word := 0
    let mask : Word := 0
    let v : Word := 0
    let ws : List Word := []
    let ls : List (BitVec 64) := []
    let es : List EccEvent := []
    let op : Byte := 7
    let ms : BitVec 16 := 0
    let why : Nat := 6
    let i : Instr := .brizelInfo 4 0 7 0
    (s.dev.coreOn = true) ∧
    (d.synced = true) ∧
    (3 < BitVec.toNat ch ∧ why = 6 ∨ BitVec.toNat ch ≤ 3 ∧ d.credit (BitVec.toNat ch) = 0 ∧ why = 5) ∧
    (i ∈
       [Instr.brizelRead ch n count addr, Instr.brizelWrite ch n count addr ws, Instr.mwrite ch n count addr mask v,
         Instr.poll ch n count addr mask v ms, Instr.fmread ch n count addr es, Instr.fmwrite ch n count addr ls,
         Instr.brizelInfo ch n op count]) :=
  ⟨by decide, by decide, .inl (by decide), by simp⟩

theorem witness_BrizelCompletes_noCredit :
    let s : Machine.State := sBriz id
    let d : Dev := s.dev.quiet
    let ch : Byte := 0
    let n : BitVec 16 := 0
    let count : BitVec 16 := 0
    let addr : Word := 0
    let mask : Word := 0
    let v : Word := 0
    let ws : List Word := []
    let ls : List (BitVec 64) := []
    let es : List EccEvent := []
    let op : Byte := 7
    let ms : BitVec 16 := 0
    let why : Nat := 5
    let i : Instr := .brizelInfo 0 0 7 0
    (s.dev.coreOn = true) ∧
    (d.synced = true) ∧
    (3 < BitVec.toNat ch ∧ why = 6 ∨ BitVec.toNat ch ≤ 3 ∧ d.credit (BitVec.toNat ch) = 0 ∧ why = 5) ∧
    (i ∈
       [Instr.brizelRead ch n count addr, Instr.brizelWrite ch n count addr ws, Instr.mwrite ch n count addr mask v,
         Instr.poll ch n count addr mask v ms, Instr.fmread ch n count addr es, Instr.fmwrite ch n count addr ls,
         Instr.brizelInfo ch n op count]) :=
  ⟨by decide, by decide, .inr (by decide), by simp⟩

theorem witness_BrizelCompletes_read :
    let s : Machine.State := sBriz id
    let d : Dev := s.dev.quiet
    let ch : Byte := 3
    let n : BitVec 16 := 0
    let c : Nat := BitVec.toNat ch
    let e : Dev := d.brzGood.setCredit c (d.credit c - 1)
    let count : BitVec 16 := 1023
    let addr : Word := 0
    (s.dev.coreOn = true) ∧
    (d.synced = true) ∧
    (c ≤ 3) ∧
    (d.credit c ≠ 0) ∧
    (∀ (x : Nat × List Nat), Tab.get e.bz.last c = some x → x.fst ≠ n.toNat ∧ (x.fst + 1) % 65536 = n.toNat) ∧
    (brzAddrOk (BitVec.toNat addr) count.toNat 1023 = true) :=
  ⟨by decide, by decide, by decide, by decide, by decide, by decide⟩

theorem witness_BrizelCompletes_readBad :
    let s : Machine.State := sBriz id
    let d : Dev := s.dev.quiet
    let ch : Byte := 3
    let n : BitVec 16 := 0
    let c : Nat := BitVec.toNat ch
    let e : Dev := d.brzGood.setCredit c (d.credit c - 1)
    let count : BitVec 16 := 1024
    let addr : Word := 0
    (s.dev.coreOn = true) ∧
    (d.synced = true) ∧
    (c ≤ 3) ∧
    (d.credit c ≠ 0) ∧
    (∀ (x : Nat × List Nat), Tab.get e.bz.last c = some x → x.fst ≠ n.toNat ∧ (x.fst + 1) % 65536 = n.toNat) ∧
    (brzAddrOk (BitVec.toNat addr) count.toNat 1023 = false) :=
  ⟨by decide, by decide, by decide, by decide, by decide, by decide⟩

theorem witness_BrizelCompletes_write :
    let s : Machine.State := sBriz id
    let d : Dev := s.dev.quiet
    let ch : Byte := 3
    let n : BitVec 16 := 0
    let c : Nat := BitVec.toNat ch
    let e : Dev := d.brzGood.setCredit c (d.credit c - 1)
    let f : Dev := { e with bz := { e.bz with last := Tab.ins e.bz.last c (n.toNat, []) } }
    let count : BitVec 16 := 1
    let addr : Word := 0x20
    let ws : List Word := [0]
    let x : Dev × Option (Word × Nat) := f.writeRun Source.brizel (BitVec.toNat addr) 0 ws
    (s.dev.coreOn = true) ∧
    (d.synced = true) ∧
    (c ≤ 3) ∧
    (d.credit c ≠ 0) ∧
    (∀ (x : Nat × List Nat), Tab.get e.bz.last c = some x → x.fst ≠ n.toNat ∧ (x.fst + 1) % 65536 = n.toNat) ∧
    (brzAddrOk (BitVec.toNat addr) count.toNat 1022 = true) ∧
    (ws.length = count.toNat) ∧
    (x.snd = none) :=
  ⟨by decide, by decide, by decide, by decide, by decide, by decide, by decide, by decide⟩

theorem witness_BrizelCompletes_mwrite :
    let s : Machine.State := sBriz id
    let d : Dev := s.dev.quiet
    let ch : Byte := 3
    let n : BitVec 16 := 0
    let c : Nat := BitVec.toNat ch
    let e : Dev := d.brzGood.setCredit c (d.credit c - 1)
    let f : Dev := { e with bz := { e.bz with last := Tab.ins e.bz.last c (n.toNat, []) } }
    let count : BitVec 16 := 1
    let addr : Word := 0x20
    let mask : Word := 0
    let v : Word := 0
    let x : Dev × Option Word := f.busWrite Source.brizel (BitVec.toNat addr)
        (v &&& mask ||| (f.busRead Source.brizel (BitVec.toNat addr)).fst &&& ~~~mask) true EccEvent.clean
    (s.dev.coreOn = true) ∧
    (d.synced = true) ∧
    (c ≤ 3) ∧
    (d.credit c ≠ 0) ∧
    (∀ (x : Nat × List Nat), Tab.get e.bz.last c = some x → x.fst ≠ n.toNat ∧ (x.fst + 1) % 65536 = n.toNat) ∧
    (brzAddrOk (BitVec.toNat addr) count.toNat 1 = true) ∧
    (x.snd = none) :=
  ⟨by decide, by decide, by decide, by decide, by decide, by decide, by decide⟩

theorem witness_BrizelCompletes_fmread :
    let s : Machine.State := sBriz id
    let d : Dev := s.dev.quiet
    let ch : Byte := 3
    let n : BitVec 16 := 0
    let c : Nat := BitVec.toNat ch
    let e : Dev := d.brzGood.setCredit c (d.credit c - 1)
    let count : BitVec 16 := 511
    let addr : Word := 0
    (s.dev.coreOn = true) ∧
    (d.synced = true) ∧
    (c ≤ 3) ∧
    (d.credit c ≠ 0) ∧
    (∀ (x : Nat × List Nat), Tab.get e.bz.last c = some x → x.fst ≠ n.toNat ∧ (x.fst + 1) % 65536 = n.toNat) ∧
    (fmAddrOk (BitVec.toNat addr) count.toNat = true) :=
  ⟨by decide, by decide, by decide, by decide, by decide, by decide⟩

theorem witness_BrizelCompletes_ack :
    let s : Machine.State := sBriz id
    let d : Dev := s.dev.quiet
    (s.dev.coreOn = true) ∧
    (d.synced = true) :=
  ⟨by decide, by decide⟩

theorem witness_BrizelCompletes_nakNone :
    let s : Machine.State := sBriz id
    let d : Dev := s.dev.quiet
    let n : BitVec 16 := 0xffff
    let e : Dev := d.brzGood.count blkPg BLK.NAK_RX_CNT
    (s.dev.coreOn = true) ∧
    (d.synced = true) ∧
    (e.inFlight n.toNat = none) :=
  ⟨by decide, by decide, by decide⟩

theorem witness_BrizelCompletes_nak :
    let s : Machine.State := sBriz fun x => { x with flight := [fly0] }
    let d : Dev := s.dev.quiet
    let n : BitVec 16 := 0xffff
    let e : Dev := d.brzGood.count blkPg BLK.NAK_RX_CNT
    let x : InFlight × Nat := fly0
    (s.dev.coreOn = true) ∧
    (d.synced = true) ∧
    (e.inFlight n.toNat = some x) :=
  ⟨by decide, by decide, by decide⟩

theorem witness_BrizelCompletes_credit :
    let s : Machine.State := sBriz id
    let d : Dev := s.dev.quiet
    (s.dev.coreOn = true) ∧
    (d.synced = true) :=
  ⟨by decide, by decide⟩

theorem witness_BrizelCompletes_frameSend :
    let s : Machine.State := { sBriz id with dev := ((sBriz id).dev.setF ntcPg (NTC.COAL_CNT.at 3) 1).setQueue 3 { NQueue.init with briz := [lost0] } }
    let d : Dev := s.dev.quiet
    let q : Fin 4 := 3
    let t : Nat := 0
    (s.dev.coreOn = true) ∧
    (d.synced = true) ∧
    (d.brzReady q.val = some t) ∧
    (d.bz.flight.length < d.fld blkPg BLK.WINDOW) :=
  ⟨by decide, by decide, by decide, by decide⟩

theorem witness_BrizelCompletes_resend :
    let s : Machine.State := sBriz fun x => { x with flight := [fly0] }
    let d : Dev := s.dev.quiet
    let n : BitVec 16 := 0xffff
    let x : InFlight × Nat := fly0
    (s.dev.coreOn = true) ∧
    (d.synced = true) ∧
    (d.inFlight n.toNat = some x) :=
  ⟨by decide, by decide, by decide⟩

theorem witness_BrizelCompletes_poll :
    let s : Machine.State := sBriz fun x => { x with polls := [poll0] }
    let d : Dev := s.dev.quiet
    let ch : Byte := 3
    let p : Poll := poll0
    (s.dev.coreOn = true) ∧
    (List.find? (fun (q : Poll) ↦ decide (q.chan = BitVec.toNat ch)) d.bz.polls = some p) :=
  ⟨by decide, by decide⟩

theorem witness_BrizelCompletes_writeRefused :
    let s : Machine.State := lockPort (sBriz id)
    let d : Dev := s.dev.quiet
    let ch : Byte := 3
    let n : BitVec 16 := 0
    let c : Nat := BitVec.toNat ch
    let e : Dev := d.brzGood.setCredit c (d.credit c - 1)
    let f : Dev := { e with bz := { e.bz with last := Tab.ins e.bz.last c (n.toNat, []) } }
    let count : BitVec 16 := 1
    let addr : Word := BitVec.ofNat 32 (pg .port 143 + 0x78)
    let ws : List Word := [0]
    let x : Dev × Option (Word × Nat) := f.writeRun Source.brizel (BitVec.toNat addr) 0 ws
    let r : Word × Nat := (0x32000078, 0)
    (s.dev.coreOn = true) ∧
    (d.synced = true) ∧
    (c ≤ 3) ∧
    (d.credit c ≠ 0) ∧
    (∀ (x : Nat × List Nat), Tab.get e.bz.last c = some x → x.fst ≠ n.toNat ∧ (x.fst + 1) % 65536 = n.toNat) ∧
    (brzAddrOk (BitVec.toNat addr) count.toNat 1022 = true) ∧
    (ws.length = count.toNat) ∧
    (x.snd = some r) :=
  ⟨by decide, by decide, by decide, by decide, by decide, by decide, by decide, by decide⟩

theorem witness_BrizelCompletes_mwriteRefused :
    let s : Machine.State := lockPort (sBriz id)
    let d : Dev := s.dev.quiet
    let ch : Byte := 3
    let n : BitVec 16 := 0
    let c : Nat := BitVec.toNat ch
    let e : Dev := d.brzGood.setCredit c (d.credit c - 1)
    let f : Dev := { e with bz := { e.bz with last := Tab.ins e.bz.last c (n.toNat, []) } }
    let count : BitVec 16 := 1
    let addr : Word := BitVec.ofNat 32 (pg .port 143 + 0x78)
    let mask : Word := 0
    let v : Word := 0
    let x : Dev × Option Word := f.busWrite Source.brizel (BitVec.toNat addr)
        (v &&& mask ||| (f.busRead Source.brizel (BitVec.toNat addr)).fst &&& ~~~mask) true EccEvent.clean
    let r : Word := 0x32000078
    (s.dev.coreOn = true) ∧
    (d.synced = true) ∧
    (c ≤ 3) ∧
    (d.credit c ≠ 0) ∧
    (∀ (x : Nat × List Nat), Tab.get e.bz.last c = some x → x.fst ≠ n.toNat ∧ (x.fst + 1) % 65536 = n.toNat) ∧
    (brzAddrOk (BitVec.toNat addr) count.toNat 1 = true) ∧
    (x.snd = some r) :=
  ⟨by decide, by decide, by decide, by decide, by decide, by decide, by decide⟩

theorem witness_BrizelCompletes_pollStart :
    let s : Machine.State := sBriz id
    let d : Dev := s.dev.quiet
    let ch : Byte := 3
    let n : BitVec 16 := 0
    let c : Nat := BitVec.toNat ch
    let e : Dev := d.brzGood.setCredit c (d.credit c - 1)
    let count : BitVec 16 := 1
    let addr : Word := 0x20
    (s.dev.coreOn = true) ∧
    (d.synced = true) ∧
    (c ≤ 3) ∧
    (d.credit c ≠ 0) ∧
    (∀ (x : Nat × List Nat), Tab.get e.bz.last c = some x → x.fst ≠ n.toNat ∧ (x.fst + 1) % 65536 = n.toNat) ∧
    (brzAddrOk (BitVec.toNat addr) count.toNat 1 = true) :=
  ⟨by decide, by decide, by decide, by decide, by decide, by decide⟩

theorem witness_BrizelCompletes_fmwrite :
    let s : Machine.State := sBriz id
    let d : Dev := s.dev.quiet
    let ch : Byte := 3
    let n : BitVec 16 := 0
    let c : Nat := BitVec.toNat ch
    let e : Dev := d.brzGood.setCredit c (d.credit c - 1)
    let count : BitVec 16 := 1
    let addr : Word := 0
    let ws : List (BitVec 64) := [0]
    (s.dev.coreOn = true) ∧
    (d.synced = true) ∧
    (c ≤ 3) ∧
    (d.credit c ≠ 0) ∧
    (∀ (x : Nat × List Nat), Tab.get e.bz.last c = some x → x.fst ≠ n.toNat ∧ (x.fst + 1) % 65536 = n.toNat) ∧
    (fmAddrOk (BitVec.toNat addr) count.toNat = true) ∧
    (ws.length = count.toNat) :=
  ⟨by decide, by decide, by decide, by decide, by decide, by decide, by decide⟩

theorem witness_BrizelCompletes_info :
    let s : Machine.State := sBriz id
    let d : Dev := s.dev.quiet
    let ch : Byte := 3
    let n : BitVec 16 := 0
    let c : Nat := BitVec.toNat ch
    let e : Dev := d.brzGood.setCredit c (d.credit c - 1)
    (s.dev.coreOn = true) ∧
    (d.synced = true) ∧
    (c ≤ 3) ∧
    (d.credit c ≠ 0) ∧
    (∀ (x : Nat × List Nat), Tab.get e.bz.last c = some x → x.fst ≠ n.toNat ∧ (x.fst + 1) % 65536 = n.toNat) :=
  ⟨by decide, by decide, by decide, by decide, by decide⟩

theorem witness_SlavePortsComplete_write :
    let s : Machine.State := sOn slvPg [(SLV.SSP_EN, 1)]
    let a : Word := 0x20
    let d : Dev := s.dev.quiet
    let ws : List Word := [0]
    let x : Dev × Option (Word × Nat) := d.writeRun (slvSrc false) (BitVec.toNat a) 0 ws
    (s.dev.coreOn = true) ∧
    (d.slvOn false = true) ∧
    (x.snd = none) :=
  ⟨by decide, by decide, by decide⟩

theorem witness_SlavePortsComplete_refused :
    let s : Machine.State := sLocked
    let a : Word := BitVec.ofNat 32 (pg .port 143 + 0x78)
    let d : Dev := s.dev.quiet
    let ws : List Word := [0]
    let x : Dev × Option (Word × Nat) := d.writeRun (slvSrc false) (BitVec.toNat a) 0 ws
    let r : Word × Nat := (855638136, 0)
    (s.dev.coreOn = true) ∧
    (d.slvOn false = true) ∧
    (x.snd = some r) :=
  ⟨by decide, by decide, by decide⟩

theorem witness_SlavePortsComplete_status :
    let s : Machine.State := sOn slvPg [(SLV.SSP_EN, 1)]
    let d : Dev := s.dev.quiet
    (s.dev.coreOn = true) ∧
    (d.slvOn false = true) :=
  ⟨by decide, by decide⟩

theorem witness_SlavePortsComplete_buffer :
    let s : Machine.State := sOn slvPg [(SLV.PSP_EN, 1)]
    let a : Word := 0xffffffff
    let d : Dev := s.dev.quiet
    (s.dev.coreOn = true) ∧
    (d.slvOn true = true) ∧
    (2 ^ 31 ≤ BitVec.toNat a) :=
  ⟨by decide, by decide, by decide⟩

theorem witness_SlavePortsComplete_registers :
    let s : Machine.State := sOn slvPg [(SLV.PSP_EN, 1)]
    let a : Word := 0x7fffffff
    let d : Dev := s.dev.quiet
    (s.dev.coreOn = true) ∧
    (d.slvOn true = true) ∧
    (BitVec.toNat a < 2 ^ 31) :=
  ⟨by decide, by decide, by decide⟩

theorem witness_SlavePortsComplete_writeBuf :
    let s : Machine.State := sOn slvPg [(SLV.SSP_EN, 1)]
    let d : Dev := s.dev.quiet
    (s.dev.coreOn = true) ∧
    (d.slvOn false = true) :=
  ⟨by decide, by decide⟩

theorem witness_SlavePortsComplete_stat :
    let s : Machine.State := sOn slvPg [(SLV.SSP_EN, 1)]
    let d : Dev := s.dev.quiet
    (s.dev.coreOn = true) ∧
    (d.slvOn false = true) :=
  ⟨by decide, by decide⟩

theorem witness_CriticalCommandsComplete_mailbox :
    let s : Machine.State := runs { sPow [] id with dev := sets (sPow [] id).dev authPg [(AUTH.BUSY.at 1, 1)] }
    let op : Nat := 0x60
    let cmd : Carrier → Instr := .debugUnlock
    let d : Dev := s.dev.quiet
    let ok : Bool := true
    let m : Fin 2 := 1
    let b : List Nat := d.mailEnv m.val
    (s.dev.coreOn = true) ∧
    (d.critServed = true) ∧
    ((op, ok, cmd) ∈
       [(1, true, Instr.writeCrit), (2, true, Instr.lockOverride), (16, true, Instr.keyLoad),
         (17, true, Instr.keyLoadSigned), (18, true, Instr.keyErase), (32, ok, fun (x : Carrier) ↦ Instr.fuseProg x ok),
         (48, true, Instr.slotWrite), (49, true, Instr.slotErase), (50, true, Instr.bankWrite),
         (64, true, Instr.calOverwrite), (80, true, Instr.keeperReload), (96, true, Instr.debugUnlock)]) ∧
    (d.flag authPg (AUTH.BUSY.at m.val) = true) ∧
    (envMine op b = true) :=
  ⟨by decide, by decide, by simp, by decide, by decide⟩

theorem witness_CriticalCommandsComplete_authcmd :
    let s : Machine.State := runs (sBriz id)
    let op : Nat := 0x20
    let cmd : Carrier → Instr := (fun x => .fuseProg x false)
    let d : Dev := s.dev.quiet
    let ok : Bool := false
    let ch : Byte := 3
    let n : BitVec 16 := 0xffff
    let env : List Byte := []
    let c : Nat := BitVec.toNat ch
    let b : List Nat := List.map BitVec.toNat env
    let e : Dev := d.brzGood.setCredit c (d.credit c - 1)
    (s.dev.coreOn = true) ∧
    (d.critServed = true) ∧
    ((op, ok, cmd) ∈
       [(1, true, Instr.writeCrit), (2, true, Instr.lockOverride), (16, true, Instr.keyLoad),
         (17, true, Instr.keyLoadSigned), (18, true, Instr.keyErase), (32, ok, fun (x : Carrier) ↦ Instr.fuseProg x ok),
         (48, true, Instr.slotWrite), (49, true, Instr.slotErase), (50, true, Instr.bankWrite),
         (64, true, Instr.calOverwrite), (80, true, Instr.keeperReload), (96, true, Instr.debugUnlock)]) ∧
    (envMine op b = true) ∧
    (d.synced = true) ∧
    (c ≤ 3) ∧
    (d.credit c ≠ 0) ∧
    (∀ (x : Nat × List Nat), Tab.get e.bz.last c = some x → x.fst ≠ n.toNat ∧ (x.fst + 1) % 65536 = n.toNat) :=
  ⟨by decide, by decide, by simp, by decide, by decide, by decide, by decide, by decide⟩

theorem witness_SecurityCompletes_tamper :
    let s : Machine.State := runs (sSec [(SEC.EN1, 1), (SEC.POL1, 1)])
    let d : Dev := s.dev.quiet
    let i : Fin 2 := 1
    let level : Bool := true
    let en : Fld := if i.val = 0 then SEC.EN0 else SEC.EN1
    let pol : Fld := if i.val = 0 then SEC.POL0 else SEC.POL1
    let n : Nat := (d.fld secPg SEC.COUNT + 1).min 65535
    let w : Nat := d.fld secPg SEC.WHICH
    let e : Dev := ((d.keysLost.setF secPg SEC.LATCHED 1).setF secPg SEC.WHICH (w - w / 2 ^ i.val % 2 * 2 ^ i.val + 2 ^ i.val)).setF secPg SEC.COUNT
        n
    (d.flag secPg en = true) ∧
    (d.flag secPg pol = level) ∧
    (e.pw.supRun = true) :=
  ⟨by decide, by decide, by decide⟩

theorem witness_SecurityCompletes_tamperWaits :
    let s : Machine.State := sSec [(SEC.EN0, 1), (SEC.POL0, 0)]
    let d : Dev := s.dev.quiet
    let i : Fin 2 := 0
    let level : Bool := false
    let en : Fld := if i.val = 0 then SEC.EN0 else SEC.EN1
    let pol : Fld := if i.val = 0 then SEC.POL0 else SEC.POL1
    let n : Nat := (d.fld secPg SEC.COUNT + 1).min 65535
    let w : Nat := d.fld secPg SEC.WHICH
    let e : Dev := ((d.keysLost.setF secPg SEC.LATCHED 1).setF secPg SEC.WHICH (w - w / 2 ^ i.val % 2 * 2 ^ i.val + 2 ^ i.val)).setF secPg SEC.COUNT
        n
    (d.flag secPg en = true) ∧
    (d.flag secPg pol = level) ∧
    (e.pw.supRun = false) :=
  ⟨by decide, by decide, by decide⟩

theorem witness_SecurityCompletes_attest :
    let s : Machine.State := State.reset
    let d : Dev := s.dev.quiet
    let src : Source := .pcie
    let v : Word := 0
    let c : Instr := .attestationReport .pcie 0
    let w : Word := trig SEC.GO (setField SEC.MODE 0 0)
    let e : Dev := written d secPg SEC.ATT_CTL 1342177279 2147483648 w
    let new : Word := heard d secPg SEC.ATT_CTL 3489660927 w
    (s.dev.coreOn = true) ∧
    ((c, w) ∈
       [(Instr.attestationReport src v, trig SEC.GO (setField SEC.MODE 0 v)),
         (Instr.certificateCopy src v, trig SEC.GO (trig SEC.MODE v))]) ∧
    (Accepts d src Cls.sec 0 SEC.ATT_CTL.off w) ∧
    (bitAt new 31 = true) ∧
    (e.sec.att = none) :=
  ⟨by decide, by decide, accepts_of (by decide), by decide, by decide⟩

theorem witness_SecurityCompletes_attDone :
    let s : Machine.State := st fun d => { d with sec := { d.sec with att := some (1, 0xfffffff, 0) } }
    let d : Dev := s.dev.quiet
    let mode : Nat := 1
    let a : Nat := 0xfffffff
    let t : Nat := 0
    (s.dev.coreOn = true) ∧
    (d.sec.att = some (mode, a, t)) :=
  ⟨by decide, by decide⟩

theorem witness_SecurityCompletes_relock :
    let s : Machine.State := State.reset
    let d : Dev := s.dev.quiet
    let src : Source := .pcie
    let v : Word := 0
    let c : Instr := .relock .pcie 0
    let w : Word := trig SEC.RELOCK 0
    (s.dev.coreOn = true) ∧
    ((c, w) ∈ [(Instr.newChal src v, trig SEC.NEW_CHAL v), (Instr.relock src v, trig SEC.RELOCK v)]) ∧
    (Accepts d src Cls.sec 0 SEC.DBG_CTL.off w) :=
  ⟨by decide, by decide, accepts_of (by decide)⟩

theorem witness_SecurityCompletes_bootVerify :
    let s : Machine.State := sPow [(PWR.RAIL_OK, 0x7f)] id
    let d : Dev := s.dev.quiet
    (s.dev.coreOn = true) ∧
    (d.pw.supRun = false) ∧
    (d.sec.recovery = false) ∧
    (d.coreRails = true) ∧
    (d.pw.tripped = false) ∧
    (d.pw.dark = false) :=
  ⟨by decide, by decide, by decide, by decide, by decide, by decide⟩

theorem witness_SecurityCompletes_bankGood :
    let s : Machine.State := st fun d => { d with sto := { d.sto with job := some ⟨1, 0, false, 64, 1⟩ } }
    let d : Dev := s.dev.quiet
    let j : StoreJob := ⟨1, 0, false, 64, 1⟩
    let e : Dev := d.storeEnd
    (s.dev.coreOn = true) ∧
    (d.sto.job = some j) ∧
    (j.target = 1) ∧
    (j.copied = true) ∧
    (e.bankFail j.index = 0) :=
  ⟨by decide, by decide, by decide, by decide, by decide⟩

theorem witness_SecurityCompletes_bankBad :
    let s : Machine.State := st fun d => { d with sto := { d.sto with job := some ⟨1, 1, false, 64, 1⟩, shipped := [] } }
    let d : Dev := s.dev.quiet
    let j : StoreJob := ⟨1, 1, false, 64, 1⟩
    let e : Dev := d.storeEnd
    (s.dev.coreOn = true) ∧
    (d.sto.job = some j) ∧
    (j.target = 1) ∧
    (j.copied = true) ∧
    (e.bankFail j.index ≠ 0) :=
  ⟨by decide, by decide, by decide, by decide, by decide⟩

theorem witness_SecurityCompletes_chalRd :
    let s : Machine.State := State.reset
    (s.dev.coreOn = true) :=
  by decide

theorem witness_SecurityCompletes_unlock :
    let s : Machine.State := State.reset
    (s.dev.coreOn = true) :=
  by decide

theorem witness_SecurityCompletes_jtag :
    let s : Machine.State := State.reset
    (s.dev.coreOn = true) :=
  by decide

theorem witness_PowerCommandsComplete_aon :
    let s : Machine.State := sPow [(PWR.RAIL_OK, 0x7f)] id
    let d : Dev := s.dev.quiet
    let i : Fin 7 := 2
    (d.railOk i.val = true) ∧
    (i.val = 2) :=
  ⟨by decide, by decide⟩

theorem witness_PowerCommandsComplete_core :
    let s : Machine.State := sPow [(PWR.RAIL_OK, 0x7f)] id
    let d : Dev := s.dev.quiet
    let i : Fin 7 := 5
    (d.railOk i.val = true) ∧
    (i.val ≠ 2) ∧
    (coreRail i.val = true) :=
  ⟨by decide, by decide, by decide⟩

theorem witness_PowerCommandsComplete_battery :
    let s : Machine.State := sPow [(PWR.RAIL_OK, 0x7f)] id
    let d : Dev := s.dev.quiet
    let i : Fin 7 := 6
    (d.railOk i.val = true) ∧
    (i.val = 6) :=
  ⟨by decide, by decide⟩

theorem witness_PowerCommandsComplete_other :
    let s : Machine.State := sPow [(PWR.RAIL_OK, 0x7f)] id
    let d : Dev := s.dev.quiet
    let i : Fin 7 := 4
    (d.railOk i.val = true) ∧
    (i.val ≠ 2) ∧
    (coreRail i.val = false) ∧
    (i.val ≠ 6) :=
  ⟨by decide, by decide, by decide, by decide⟩

theorem witness_PowerCommandsComplete_back :
    let s : Machine.State := sPow [(PWR.RAIL_OK, 0x3f)] id
    let d : Dev := s.dev.quiet
    let i : Fin 7 := 6
    (d.railOk i.val = false) :=
  by decide

theorem witness_PowerCommandsComplete_pfail :
    let s : Machine.State := State.reset
    let d : Dev := s.dev.quiet
    (d.flag pwrPg PWR.PFAIL = false) :=
  by decide

theorem witness_PowerCommandsComplete_pfailEnd :
    let s : Machine.State := sPow [(PWR.PFAIL, 1)] id
    let d : Dev := s.dev.quiet
    (d.flag pwrPg PWR.PFAIL = true) :=
  by decide

theorem witness_PowerCommandsComplete_wake :
    let s : Machine.State := sPow [] fun x => { x with dark := true }
    let d : Dev := s.dev.quiet
    (d.pw.dark = true) :=
  by decide

theorem witness_PowerCommandsComplete_pwrReq :
    let s : Machine.State := State.reset
    let d : Dev := s.dev.quiet
    let src : Source := .pcie
    let page : Fin 32768 := pgn .treg 15
    let st : Fin 4 := 1
    let v : Word := 0
    let c : Cls := .treg
    let i : Nat := 15
    let r : RegSpec := rAt .treg 15 HDR.PAGE_CTL.off
    let w : Word := pwrReqWord (st.val) v
    (s.dev.coreOn = true) ∧
    (page.val * 4096 = pg c i) ∧
    (Accepts d src c i HDR.PAGE_CTL.off w) ∧
    (regAt c i HDR.PAGE_CTL.off = some r) ∧
    (bitAt w 1 = false) :=
  ⟨by decide, by decide, accepts_of (by decide), by decide, by decide⟩

theorem witness_PowerCommandsComplete_reached :
    let s : Machine.State := sPow [] fun x => { x with trans := [(pg .port 143, ⟨1, none, 0, none⟩)] }
    let d : Dev := s.dev.quiet
    let page : Fin 32768 := pgn .port 143
    let x : PwrTrans := ⟨1, none, 0, none⟩
    let c : Cls := .port
    let i : Nat := 143
    (s.dev.coreOn = true) ∧
    (pageAt (page.val * 4096) = some (c, i)) ∧
    (Tab.get d.pw.trans (page.val * 4096) = some x) ∧
    (x.wait = none) :=
  ⟨by decide, by decide, by decide, by decide⟩

theorem witness_PowerCommandsComplete_goesOn :
    let s : Machine.State := sPow [] fun x => { x with trans := [(pg .treg 15, ⟨0, some 3, 0, some 500⟩)] }
    let d : Dev := s.dev.quiet
    let page : Fin 32768 := pgn .treg 15
    let x : PwrTrans := ⟨0, some 3, 0, some 500⟩
    let c : Cls := .treg
    let i : Nat := 15
    let st : Nat := 3
    (s.dev.coreOn = true) ∧
    (pageAt (page.val * 4096) = some (c, i)) ∧
    (Tab.get d.pw.trans (page.val * 4096) = some x) ∧
    (x.wait = some st) :=
  ⟨by decide, by decide, by decide, by decide⟩

theorem witness_PowerCommandsComplete_darkEnter :
    let s : Machine.State := sNoA
    let d : Dev := s.dev.quiet
    let src : Source := .pcie
    let v : Word := 0
    let w : Word := trig PWR.ENTER v
    (s.dev.coreOn = true) ∧
    (Accepts d src Cls.pwr 0 PWR.DARK_CTL.off w) ∧
    (bitAt (heard d pwrPg PWR.DARK_CTL 1 w) 0 = true) :=
  ⟨by decide +kernel, accepts_of (by decide +kernel), by decide +kernel⟩

theorem witness_ClocksAndServiceComplete_xinLost :
    let s : Machine.State := sOn clkPg [(CLK.HOLD, 0)]
    let d : Dev := s.dev.quiet
    let khz : BitVec 16 := 23749
    (s.dev.coreOn = true) ∧
    (xinOk khz.toNat = false) ∧
    (d.flag clkPg CLK.HOLD = false) :=
  ⟨by decide, by decide, by decide⟩

theorem witness_ClocksAndServiceComplete_xinBack :
    let s : Machine.State := sOn clkPg [(CLK.XIN_OK, 0)]
    let d : Dev := s.dev.quiet
    let khz : BitVec 16 := 26250
    (s.dev.coreOn = true) ∧
    (xinOk khz.toNat = true) ∧
    (d.flag clkPg CLK.XIN_OK = false) :=
  ⟨by decide, by decide, by decide⟩

theorem witness_ClocksAndServiceComplete_failover :
    let s : Machine.State := sOn clkPg [(CLK.STANDBY_OK.at 3, 1)]
    let d : Dev := s.dev.quiet
    let k : Fin 4 := 3
    (s.dev.coreOn = true) ∧
    (d.flag clkPg (CLK.STANDBY_OK.at k.val) = true) ∧
    (¬k.val ∈ d.pw.cold) :=
  ⟨by decide, by decide, by decide⟩

theorem witness_ClocksAndServiceComplete_relock :
    let s : Machine.State := sPow [] fun x => { x with cold := [3] }
    let d : Dev := s.dev.quiet
    let k : Fin 4 := 3
    (s.dev.coreOn = true) ∧
    (k.val ∈ d.pw.cold) :=
  ⟨by decide, by decide⟩

theorem witness_ClocksAndServiceComplete_retry :
    let s : Machine.State := { sOn clkPg [(CLK.STANDBY_OK.at 3, 0)] with dev := { (sOn clkPg [(CLK.STANDBY_OK.at 3, 0)]).dev with pw := { PowerSt.init with failAt := [(3, 0)] } } }
    let d : Dev := s.dev.quiet
    let k : Fin 4 := 3
    let t : Nat := 0
    (s.dev.coreOn = true) ∧
    (Tab.get d.pw.failAt k.val = some t) ∧
    (d.pllRetired k.val = false) ∧
    (d.flag clkPg (CLK.STANDBY_OK.at k.val) = false) ∧
    (¬k.val ∈ d.pw.cold) :=
  ⟨by decide, by decide, by decide, by decide, by decide⟩

theorem witness_ClocksAndServiceComplete_restored :
    let s : Machine.State := sPow [] fun x => { x with lockAt := [(3, 0)] }
    let d : Dev := s.dev.quiet
    let k : Fin 4 := 3
    let t : Nat := 0
    (s.dev.coreOn = true) ∧
    (Tab.get d.pw.lockAt k.val = some t) :=
  ⟨by decide, by decide⟩

theorem witness_ClocksAndServiceComplete_planned :
    let s : Machine.State := sOn clkPg [(CLK.STANDBY_OK.at 3, 1)]
    let d : Dev := s.dev.quiet
    let k : Fin 4 := 3
    let src : Source := .pcie
    let v : Word := 1
    let f : Fld := CLK.PAIR_CFG.at k.val
    let e : Dev := written d clkPg f 3 0 v
    (s.dev.coreOn = true) ∧
    (Accepts d src Cls.clk 0 f.off v) ∧
    (fieldOf CLK.ACTIVE (heard d clkPg f 3 v) ≠ e.fld clkPg (CLK.IN_USE.at k.val)) :=
  ⟨by decide, accepts_of (by decide), by decide⟩

theorem witness_ClocksAndServiceComplete_fwChg :
    let s : Machine.State := State.reset
    let d : Dev := s.dev.quiet
    let src : Source := .pcie
    let v : Word := (100 * 65536 + 1000)
    let c : Instr := .fwChg .pcie (100 * 65536 + 1000)
    let w : Word := trig SRV.GO (100 * 65536 + 1000)
    (s.dev.coreOn = true) ∧
    ((c, w) ∈ [(Instr.fwChg src v, trig SRV.GO v), (Instr.fwAbort src v, trig SRV.ABORT v)]) ∧
    (Accepts d src Cls.srv 0 SRV.FW_CHG.off w) :=
  ⟨by decide, by decide, accepts_of (by decide)⟩

theorem witness_ClocksAndServiceComplete_fwPrepared :
    let s : Machine.State := sFw 1 (fw0 false)
    let d : Dev := s.dev.quiet
    let x : FwSt := fw0 false
    (s.dev.coreOn = true) ∧
    (d.fw = some x) ∧
    (d.fld srvPg SRV.PHASE = 1) :=
  ⟨by decide, by decide, by decide⟩

theorem witness_ClocksAndServiceComplete_fwCompared :
    let s : Machine.State := sFw 3 { fw0 false with ready := false }
    let d : Dev := s.dev.quiet
    let x : FwSt := { fw0 false with ready := false }
    (s.dev.coreOn = true) ∧
    (d.fw = some x) ∧
    (d.fld srvPg SRV.PHASE = 2 ∨ d.fld srvPg SRV.PHASE = 3) ∧
    (x.ready = false) :=
  ⟨by decide, by decide, .inr (by decide), by decide⟩

theorem witness_ClocksAndServiceComplete_fwTimeout :
    let s : Machine.State := sFw 3 (fw0 false)
    let d : Dev := s.dev.quiet
    let x : FwSt := fw0 false
    let t : Nat := 0
    (s.dev.coreOn = true) ∧
    (d.fw = some x) ∧
    (x.since = some t) ∧
    (d.fld srvPg SRV.PHASE = 3) ∧
    (x.instant = none) :=
  ⟨by decide, by decide, by decide, by decide, by decide⟩

theorem witness_ClocksAndServiceComplete_fwDrained :
    let s : Machine.State := sFw 5 (fw0 true)
    let d : Dev := s.dev.quiet
    let x : FwSt := fw0 true
    (s.dev.coreOn = true) ∧
    (d.fw = some x) ∧
    (x.switched = true) :=
  ⟨by decide, by decide, by decide⟩

theorem witness_ClocksAndServiceComplete_ageFine :
    let s : Machine.State := State.reset
    let d : Dev := s.dev.quiet
    let ss : List (BitVec 16) := [0, 0, 0, 0, 0, 0, 0, 299]
    let e : Dev := List.foldl
        (fun (e : Dev) (i : Nat) ↦
          e.setReg monPg (MON.AGE_SHIFT.at i) (wd (2 ^ 31 + (List.map BitVec.toNat ss).getD i 0 % 65536)))
        d (List.range 8)
    let lvl : Int := ↑(e.fld monPg MON.SHIFT_WARN)
    let far : Option Nat := List.find? (fun (i : Nat) ↦ decide (lvl ≤ sext 16 (e.fld monPg (MON.SHIFT.at i)))) (List.range 8)
    (s.dev.coreOn = true) ∧
    (far = none) :=
  ⟨by decide, by decide⟩

theorem witness_ClocksAndServiceComplete_age :
    let s : Machine.State := State.reset
    let d : Dev := s.dev.quiet
    let ss : List (BitVec 16) := [0, 0, 0, 0, 0, 0, 0, 300]
    let e : Dev := List.foldl
        (fun (e : Dev) (i : Nat) ↦
          e.setReg monPg (MON.AGE_SHIFT.at i) (wd (2 ^ 31 + (List.map BitVec.toNat ss).getD i 0 % 65536)))
        d (List.range 8)
    let lvl : Int := ↑(e.fld monPg MON.SHIFT_WARN)
    let far : Option Nat := List.find? (fun (i : Nat) ↦ decide (lvl ≤ sext 16 (e.fld monPg (MON.SHIFT.at i)))) (List.range 8)
    let i : Nat := 7
    (s.dev.coreOn = true) ∧
    (far = some i) :=
  ⟨by decide, by decide⟩

theorem witness_ClocksAndServiceComplete_hours :
    let s : Machine.State := State.reset
    (s.dev.coreOn = true) :=
  by decide

theorem witness_EventGates_off :
    let d : Dev := Dev.reset.setReg (pg .sys 0) HDR.EVT_EN 0
    let p : Nat := pg .sys 0
    let bit : Nat := 0
    let sev : Nat := 1
    let en : Bool := bitAt (d.reg p HDR.EVT_EN) bit
    let sel : Bool := bitAt (d.reg p HDR.EVT_NOTICE) bit
    (2 ≤ sev → en = true ∧ sel = true) ∧
    (en = false) :=
  ⟨by decide, by decide⟩

theorem witness_EventGates_shown :
    let d : Dev := (Dev.reset.setReg (pg .sys 0) HDR.EVT_EN 1).setReg (pg .sys 0) HDR.EVT_NOTICE 0
    let p : Nat := pg .sys 0
    let bit : Nat := 0
    let sev : Nat := 1
    let en : Bool := bitAt (d.reg p HDR.EVT_EN) bit
    let sel : Bool := bitAt (d.reg p HDR.EVT_NOTICE) bit
    (2 ≤ sev → en = true ∧ sel = true) ∧
    (en = true) ∧
    (sel = false) :=
  ⟨by decide, by decide, by decide⟩

theorem witness_EventGates_told :
    let d : Dev := (Dev.reset.setReg (pg .sys 0) HDR.EVT_EN 1).setReg (pg .sys 0) HDR.EVT_NOTICE 1
    let p : Nat := pg .sys 0
    let bit : Nat := 0
    let sev : Nat := 3
    let en : Bool := bitAt (d.reg p HDR.EVT_EN) bit
    let sel : Bool := bitAt (d.reg p HDR.EVT_NOTICE) bit
    (2 ≤ sev → en = true ∧ sel = true) ∧
    (en = true) ∧
    (sel = true) :=
  ⟨by decide, by decide, by decide⟩

theorem witness_EventFrame_a :
    let p : Nat := pg .sys 0
    let b : Nat := 0
    (b ≠ p + HDR.EVT_STAT.off) ∧
    (b < pg Cls.ntc 0 ∨ pg Cls.ntc 0 + 4096 ≤ b) :=
  ⟨by decide, by decide⟩

theorem witness_SysResetByWrite_resets :
    let s : Machine.State := State.reset
    let src : Source := .pcie
    let v : Word := 0
    let d : Dev := s.dev.quiet
    let p : Nat := pg Cls.sys 0
    let off : Nat := HDR.PAGE_CTL.off
    let page : Fin 32768 := pgn .sys 0
    (s.dev.coreOn = true) ∧
    (page.val * 4096 = p) ∧
    (Accepts d src Cls.sys 0 off (v ||| 2)) :=
  ⟨by decide, by decide, accepts_of (by decide)⟩

theorem witness_SysResetByWrite_owner :
    let s : Machine.State := sOn (pg .sys 0) [(HDR.OWNER, 1)]
    let src : Source := .region 31
    let d : Dev := s.dev.quiet
    let p : Nat := pg Cls.sys 0
    let page : Fin 32768 := pgn .sys 0
    (s.dev.coreOn = true) ∧
    (page.val * 4096 = p) ∧
    (d.answers Cls.sys = true) ∧
    (d.ownerBars src Cls.sys 0 = true) :=
  ⟨by decide, by decide, by decide, by decide⟩

theorem witness_SysResetByWrite_locked :
    let s : Machine.State := sOn (pg .sys 0) [(HDR.LOCKED, 1)]
    let src : Source := .pcie
    let d : Dev := s.dev.quiet
    let p : Nat := pg Cls.sys 0
    let page : Fin 32768 := pgn .sys 0
    (s.dev.coreOn = true) ∧
    (page.val * 4096 = p) ∧
    (d.answers Cls.sys = true) ∧
    (d.ownerBars src Cls.sys 0 = false) ∧
    (d.flag p HDR.LOCKED = true) :=
  ⟨by decide, by decide, by decide, by decide, by decide⟩

theorem witness_RouteOfABoundFlow_refused :
    let s : Machine.State := State.reset
    let src : Source := .pcie
    let v : Word := 0
    let r : RegSpec := rAt .cway 0 CWAY.FLOW_ROUTE.off
    let d : Dev := s.dev.quiet
    let p : Nat := pg Cls.cway 0
    let off : Nat := CWAY.FLOW_ROUTE.off
    let f : Nat := d.fld p CWAY.FLOW_SEL_FLOW
    (s.dev.coreOn = true) ∧
    (regAt Cls.cway 0 off = some r) ∧
    (d.answers Cls.cway = true) ∧
    (d.ownerBars src Cls.cway 0 = false) ∧
    (d.lockBars Cls.cway 0 off r v = false) ∧
    (d.critBars Cls.cway 0 off r v = false) ∧
    (d.powerBars Cls.cway 0 off = false) ∧
    (d.boundBars src Cls.cway 0 off r v = false) ∧
    (d.valueBars Cls.cway 0 off r (r.want Cls.cway off (d.raw (p + off)) v) = false) ∧
    (v &&& 4287627263 ≠ d.route f) ∧
    (d.flowBound f = true) :=
  ⟨by decide, by decide, by decide, by decide, by decide, by decide, by decide, by decide, by decide, by decide,
    by decide⟩

theorem witness_RouteOfABoundFlow_calm :
    let s : Machine.State := State.reset
    let src : Source := .pcie
    let v : Word := 0
    let r : RegSpec := rAt .cway 0 CWAY.FLOW_ROUTE.off
    let d : Dev := s.dev.quiet
    let p : Nat := pg Cls.cway 0
    let off : Nat := CWAY.FLOW_ROUTE.off
    let f : Nat := d.fld p CWAY.FLOW_SEL_FLOW
    (s.dev.coreOn = true) ∧
    (regAt Cls.cway 0 off = some r) ∧
    (d.answers Cls.cway = true) ∧
    (d.ownerBars src Cls.cway 0 = false) ∧
    (d.lockBars Cls.cway 0 off r v = false) ∧
    (d.critBars Cls.cway 0 off r v = false) ∧
    (d.powerBars Cls.cway 0 off = false) ∧
    (d.boundBars src Cls.cway 0 off r v = false) ∧
    (d.valueBars Cls.cway 0 off r (r.want Cls.cway off (d.raw (p + off)) v) = false) ∧
    (v &&& 4287627263 ≠ d.route f) ∧
    (d.flowBound f = true) ∧
    (s.dev.calm = true) :=
  ⟨by decide, by decide, by decide, by decide, by decide, by decide, by decide, by decide, by decide, by decide,
    by decide, by decide⟩

theorem witness_PlannedSwitch_switches :
    let s : Machine.State := sOn clkPg [(CLK.STANDBY_OK.at 3, 1)]
    let src : Source := .pcie
    let k : Fin 4 := 3
    let v : Word := 1
    let d : Dev := s.dev.quiet
    let p : Nat := pg Cls.clk 0
    let f : Fld := CLK.PAIR_CFG.at k.val
    (s.dev.coreOn = true) ∧
    (BitVec.toNat (v &&& 1) ≠ d.fld p (CLK.IN_USE.at k.val)) ∧
    (Accepts d src Cls.clk 0 f.off v) :=
  ⟨by decide, by decide, accepts_of (by decide)⟩

theorem witness_PlannedSwitch_refused :
    let s : Machine.State := sOn clkPg [(CLK.STANDBY_OK.at 3, 0)]
    let src : Source := .pcie
    let k : Fin 4 := 3
    let v : Word := 1
    let d : Dev := s.dev.quiet
    let p : Nat := pg Cls.clk 0
    let f : Fld := CLK.PAIR_CFG.at k.val
    let r : RegSpec := rAt .clk 0 (CLK.PAIR_CFG.at 3).off
    (s.dev.coreOn = true) ∧
    (BitVec.toNat (v &&& 1) ≠ d.fld p (CLK.IN_USE.at k.val)) ∧
    (d.flag p (CLK.STANDBY_OK.at k.val) = false) ∧
    (regAt Cls.clk 0 f.off = some r) ∧
    (d.answers Cls.clk = true) ∧
    (d.ownerBars src Cls.clk 0 = false) ∧
    (d.lockBars Cls.clk 0 f.off r v = false) ∧
    (d.critBars Cls.clk 0 f.off r v = false) ∧
    (d.powerBars Cls.clk 0 f.off = false) ∧
    (d.boundBars src Cls.clk 0 f.off r v = false) ∧
    (d.valueBars Cls.clk 0 f.off r (r.want Cls.clk f.off (d.raw (p + f.off)) v) = false) :=
  ⟨by decide, by decide, by decide, by decide, by decide, by decide, by decide, by decide, by decide, by decide,
    by decide⟩

theorem witness_CanonKept_a :
    let s : Machine.State := State.reset
    let t : Machine.State := stepOf State.reset
    (Canon s.dev) ∧
    (step s = Host.Outcome.next t) :=
  ⟨⟨rfl, rfl, rfl, rfl⟩, rfl⟩

theorem witness_FrameMemoryKept_a :
    let s : Machine.State := State.reset
    let t : Machine.State := stepOf State.reset
    (∀ (c : Instr) (rest : List Instr), s.pending = c :: rest → storesToFrames c = false) ∧
    (step s = Host.Outcome.next t) :=
  ⟨(fun _ _ h => nomatch h), rfl⟩

theorem witness_FrameMemoryKept_front :
    let s : Machine.State := sFront
    let t : Machine.State := stepOf sFront
    (∀ (c : Instr) (rest : List Instr), s.pending = c :: rest → storesToFrames c = false) ∧
    (step s = Host.Outcome.next t) :=
  ⟨(fun _ _ h => (List.cons.inj h).1 ▸ rfl), rfl⟩

theorem witness_ImageStoreKept_a :
    let s : Machine.State := State.reset
    let t : Machine.State := stepOf State.reset
    (∀ (c : Instr) (rest : List Instr), s.pending = c :: rest → storesToImages c = false) ∧
    (step s = Host.Outcome.next t) :=
  ⟨(fun _ _ h => nomatch h), rfl⟩

theorem witness_ElapsedTimeNeverFalls_a :
    let s : Machine.State := State.reset
    let t : Machine.State := stepOf State.reset
    (step s = Host.Outcome.next t) :=
  rfl

theorem witness_FrameMemoryStores_outside :
    let s : Machine.State := State.reset
    let t : Machine.State := nextOf (.memoryAccess (memFlit0 true) []) State.reset
    let m : MemFlit := memFlit0 true
    let es : List EccEvent := []
    let b : Nat := 8
    (m.write = true) ∧
    (FrameMemCanon s.dev) ∧
    (exec (Instr.memoryAccess m es) s = Host.Outcome.next t) ∧
    (b < m.addr ∨ m.addr + 8 * m.data.length ≤ b) :=
  ⟨by decide, rfl, rfl, by decide⟩

theorem witness_FrameMemoryStores_inside :
    let s : Machine.State := State.reset
    let t : Machine.State := nextOf (.memoryAccess { memFlit0 true with be := 255 } []) State.reset
    let m : MemFlit := { memFlit0 true with be := 255 }
    let es : List EccEvent := []
    let k : Nat := 0
    let w : BitVec 64 := 0
    let j : Nat := 7
    (m.write = true) ∧
    (FrameMemCanon s.dev) ∧
    (exec (Instr.memoryAccess m es) s = Host.Outcome.next t) ∧
    (s.dev.coreOn = true) ∧
    (s.dev.quiet.bufHit false m.addr (8 * m.data.length) = none) ∧
    (m.data.length ≠ 1 ∨ m.be = 255) ∧
    (m.data[k]? = some w) ∧
    (j < 8) :=
  ⟨by decide, rfl, rfl, by decide, by decide, .inr rfl, by decide, by decide⟩

theorem witness_FrameMemoryStores_bytes :
    let d : Dev := Dev.reset
    let a : Nat := 0
    let b : Nat := 1
    let bytes : List Nat := [255]
    (FrameMemCanon d) ∧
    (b < a ∨ a + bytes.length ≤ b) :=
  ⟨rfl, by decide⟩

theorem witness_FrameMemoryStores_byteRead :
    let d : Dev := Dev.reset
    let a : Nat := 0
    let bytes : List Nat := [255]
    let k : Nat := 0
    let v : Nat := 255
    (FrameMemCanon d) ∧
    (d.bufHit false a bytes.length = none) ∧
    (bytes[k]? = some v) :=
  ⟨rfl, by decide, by decide⟩

theorem witness_TileMoveFrame_a :
    let s : Machine.State := State.reset
    let t : Machine.State := nextOf (.moveSettag 4095) State.reset
    let n : Fin 4096 := 4095
    let c : Instr := .moveSettag 4095
    (c ∈
       [Instr.moveNop n, Instr.moveLdt n, Instr.moveMovt n, Instr.moveAddt n, Instr.moveClra n, Instr.moveLda n,
         Instr.moveSetoff n, Instr.moveGetoff n, Instr.moveSettag n]) ∧
    (exec c s = Host.Outcome.next t) :=
  ⟨by simp, rfl⟩

end Sys2Proof.Tests
end

section
/-! PROOFS. Every command: what it keeps, and when it runs at all. -/

namespace Sys2Proof.Machine

open Sys2Proof

variable {P : Dev → Prop}

/-! ### The instructions of a tile that steer its program (R244 to R253) -/

theorem ctlNop_keeps (kp : Keeps P) {d : Dev} (hd : P d) {x : TSite} {w : Nat} : P (ctlNop d x w) :=
  Dev.ctlDone_keeps kp hd

theorem ctlLoop_keeps (kp : Keeps P) {d : Dev} (hd : P d) {n : Nat} {x : TSite} {w : Nat} : P (ctlLoop n d x w) :=
  Dev.ctlDone_keeps kp hd

theorem ctlBr_keeps (kp : Keeps P) {d : Dev} (hd : P d) {x : TSite} {w : Nat} : P (ctlBr d x w) :=
  kp.ite (fun _ => Dev.siteDone_keeps kp hd) fun _ => Dev.ctlDone_keeps kp hd

theorem ctlWait_keeps (kp : Keeps P) {d : Dev} (hd : P d) {x : TSite} {w : Nat} : P (ctlWait d x w) :=
  kp.ite (fun _ => Dev.ctlDone_keeps kp hd) fun _ => Dev.stallAt_keeps kp hd

theorem ctlHalt_keeps (kp : Keeps P) {d : Dev} (hd : P d) {x : TSite} {w : Nat} : P (ctlHalt d x w) :=
  Dev.haltColumn_keeps kp (Dev.ctlDone_keeps kp hd)

theorem ctlBmerge_keeps (kp : Keeps P) {d : Dev} (hd : P d) {x : TSite} {w : Nat} : P (ctlBmerge d x w) :=
  kp.ite (fun _ => Dev.colMerge_keeps kp (Dev.setTile_keeps kp hd)) fun _ => Dev.ctlDone_keeps kp hd

theorem ctlEmark_keeps (kp : Keeps P) {d : Dev} (hd : P d) {x : TSite} {w : Nat} : P (ctlEmark d x w) :=
  kp.ite (fun _ => Dev.stallAt_keeps kp hd) fun _ => Dev.siteDone_keeps kp hd

theorem ctlSetlen_keeps (kp : Keeps P) {d : Dev} (hd : P d) {x : TSite} {w : Nat} : P (ctlSetlen d x w) :=
  Dev.ctlDone_keeps kp (Dev.lenRequest_keeps kp hd)

theorem ctlCpost_keeps (kp : Keeps P) {d : Dev} (hd : P d) {x : TSite} {w : Nat} : P (ctlCpost d x w) :=
  kp.ite (fun _ => Dev.stallAt_keeps kp hd) fun _ => Dev.ctlDone_keeps kp hd

/-! ### Accesses that only read -/

/-- A reading memory flit stores nothing (R284). -/
theorem Dev.memServe_read_keeps (kp : Keeps P) {d : Dev} (hd : P d) {m : MemFlit} {es : List EccEvent}
    (h : m.write = false) : P (d.memServe m es) := by
  unfold Dev.memServe
  rw [if_neg (by simp [h])]
  exact Dev.send_keeps kp (Dev.fmRead_keeps kp hd)

/-- A reading access of the parallel slave port stores nothing (R462). -/
theorem Dev.pspAccess_read_keeps (kp : Keeps P) {d : Dev} (hd : P d) {addr n : Nat} {ws : List Word} :
    P (d.pspAccess false addr ws n) := by
  unfold Dev.pspAccess
  lift_lets
  intro off x d1 y
  have hd1 : P d1 := Dev.send_keeps kp hd
  exact kp.ite (fun _ => hd) fun _ =>
    kp.ite (fun _ => kp.ite (fun h => nomatch h) fun _ => kp.ite (fun _ => Dev.slvError_keeps kp hd1) fun _ => hd1)
      fun _ => kp.ite (fun h => nomatch h) fun _ => Dev.send_keeps kp (Dev.readRun_keeps kp hd)

/-! ### How a command runs -/

/-- The commands of the always-on domain, which sees them whether the core runs or not (R502). -/
def alwaysOn : Instr → Bool
  | .darkWake _ | .tamperTrip _ _ | .railLost _ | .railBack _ | .thermSample _ | .thermalTrip | .porstN | .pfail
  | .pfailEnd => true
  | _ => false

/-- Command `c` runs operation `f` on the device where `on` holds, and nothing else. A core that is off runs only the commands
of the always-on domain, and the operation keeps what rests on registers, memories and elapsed time, but for the memories the
command may store to. -/
structure Runs (c : Instr) (s : State) (on : Bool) (f : Dev → Dev) : Prop where
  eq : exec c s = .next { s with dev := s.dev.ran on f }
  off : alwaysOn c = false → s.dev.coreOn = false → on = false
  keeps : ∀ {P : Dev → Prop}, Keeps P → (storesToFrames c = true → KeepsMem P) → (storesToImages c = true → KeepsSto P) →
    ∀ {d : Dev}, P d → P (f d)

variable {c : Instr} {s : State} {f : Dev → Dev}

theorem runs_core (he : exec c s = act f s)
    (hk : ∀ {P : Dev → Prop}, Keeps P → (storesToFrames c = true → KeepsMem P) → (storesToImages c = true → KeepsSto P) →
      ∀ {d : Dev}, P d → P (f d)) : ∃ on f, Runs c s on f :=
  ⟨_, f, he, fun _ h => h, hk⟩

theorem runs_act (he : exec c s = act f s) (hk : ∀ {P : Dev → Prop}, Keeps P → ∀ {d : Dev}, P d → P (f d)) :
    ∃ on f, Runs c s on f :=
  runs_core he fun kp _ _ => hk kp

theorem runs_tile (he : exec c s = actTile f s) (hk : ∀ {P : Dev → Prop}, Keeps P → ∀ {d : Dev}, P d → P (f d)) :
    ∃ on f, Runs c s on f :=
  ⟨s.dev.tilesOn, f, he, fun _ h => by unfold Dev.tilesOn; rw [h, Bool.false_and], fun kp _ _ => hk kp⟩

theorem runs_always (he : exec c s = actAlways f s) (hk : ∀ {P : Dev → Prop}, Keeps P → ∀ {d : Dev}, P d → P (f d))
    (ha : alwaysOn c = true := by rfl) : ∃ on f, Runs c s on f :=
  ⟨true, f, he, fun h => by simp [ha] at h, fun kp _ _ => hk kp⟩

theorem runs_frames (he : exec c s = act f s) (hk : ∀ {P : Dev → Prop}, KeepsMem P → ∀ {d : Dev}, P d → P (f d))
    (hc : storesToFrames c = true := by rfl) : ∃ on f, Runs c s on f :=
  runs_core he fun _ km _ => hk (km hc)

theorem runs_frames_always (he : exec c s = actAlways f s) (hk : ∀ {P : Dev → Prop}, KeepsMem P → ∀ {d : Dev}, P d → P (f d))
    (hc : storesToFrames c = true := by rfl) (ha : alwaysOn c = true := by rfl) : ∃ on f, Runs c s on f :=
  ⟨true, f, he, fun h => by simp [ha] at h, fun _ km _ => hk (km hc)⟩

theorem runs_images (he : exec c s = act f s) (hk : ∀ {P : Dev → Prop}, KeepsSto P → ∀ {d : Dev}, P d → P (f d))
    (hc : storesToImages c = true := by rfl) : ∃ on f, Runs c s on f :=
  runs_core he fun _ _ ks => hk (ks hc)

/-- What a command can do at all: each runs one operation, and each operation has its lemma on what it keeps. -/
theorem exec_runs (c : Instr) (s : State) : ∃ on f, Runs c s on f := by
  cases c with
  | registerWrite => exact runs_act rfl fun kp _ hd => Dev.targetWrite_keeps kp hd
  | stagedWrite | tileWindowWrite | flowTableWrite => exact runs_act rfl fun kp _ hd => Dev.busWrite_keeps kp hd
  | blkRst | evtForce | snap | snapClr | pageLock | pwrReq => exact runs_act rfl fun kp _ hd => Dev.hdrWrite_keeps kp hd
  | msOpen | msCheck | msTry | msFire | msCancel | msRelease | msBind | msUnbind | surveyGo | firCoefWrite | bankSwap
    | swapForce | lsvGo | hoReq | freeze | lenChg | columnRun | moveGo | moveAbort | rowRepairGo | rowRepairAbort
    | flowRoute | layoutChange | ethEnable | retrain | svGo | laneRetire | modAcc | servoPush | timeSrcWrite
    | reacquire | timeSet | txtsPop | tapRearm | loadGo | loadAbort | isoRelease | readback | maskedWrite | pinLock
    | serDataWrite | nqTailWrite | attestationReport | newChal | relock | darkEnter | plannedPllSwitch | fwChg
    | fwAbort | certificateCopy =>
    exact runs_act rfl fun kp _ hd => Dev.cmdWrite_keeps kp hd
  | checkEnd => exact runs_act rfl fun kp _ hd => Dev.checkEnd_keeps kp hd
  | milestoneApply => exact runs_act rfl fun kp _ hd => Dev.milestoneApply_keeps kp hd
  | slotExpired => exact runs_act rfl fun kp _ hd => Dev.slotExpired_keeps kp hd
  | cmUpdate => exact runs_act rfl fun kp _ hd => Dev.cmUpdate_keeps kp hd
  | dcPresentChange => exact runs_act rfl fun kp _ hd => Dev.dcChange_keeps kp hd
  | surveyEnd => exact runs_act rfl fun kp _ hd => Dev.surveyEnd_keeps kp hd
  | portRecover => exact runs_act rfl fun kp _ hd => Dev.portRecoverCmd_keeps kp hd
  | groupLock => exact runs_act rfl fun kp _ hd => Dev.grpLock_keeps kp hd
  | groupUnlock => exact runs_act rfl fun kp _ hd => Dev.grpUnlock_keeps kp hd
  | vapDroop => exact runs_act rfl fun kp _ hd => Dev.vapDroop_keeps kp hd
  | supplyLost => exact runs_act rfl fun kp _ hd => Dev.supplyLost_keeps kp hd
  | supplyBack => exact runs_act rfl fun kp _ hd => Dev.supplyBack_keeps kp hd
  | tempWarn => exact runs_act rfl fun kp _ hd => Dev.tempWarn_keeps kp hd
  | tempFault => exact runs_act rfl fun kp _ hd => Dev.tempFault_keeps kp hd
  | refinLost | refinFound => exact runs_act rfl fun kp _ hd => Dev.refinEvent_keeps kp hd
  | syncReset => exact runs_act rfl fun kp _ hd => Dev.syncReset_keeps kp hd
  | wordEmit => exact runs_act rfl fun kp _ hd => Dev.wordEmit_keeps kp hd
  | thrFall => exact runs_act rfl fun kp _ hd => Dev.thrFall_keeps kp hd
  | swapDone => exact runs_act rfl fun kp _ hd => Dev.swapDone_keeps kp hd
  | outputFetch => exact runs_act rfl fun kp _ hd => Dev.outputFetch_keeps kp hd
  | spanHoldStart => exact runs_act rfl fun kp _ hd => Dev.spanHoldStart_keeps kp hd
  | spanHoldEnd => exact runs_act rfl fun kp _ hd => Dev.spanHoldEnd_keeps kp hd
  | spanDone => exact runs_act rfl fun kp _ hd => Dev.spanDone_keeps kp hd
  | devWindow => exact runs_act rfl fun kp _ hd => Dev.devWindow_keeps kp hd
  | loadWindow => exact runs_act rfl fun kp _ hd => Dev.loadWindow_keeps kp hd
  | ilimitTrip => exact runs_act rfl fun kp _ hd => Dev.ilimitTrip_keeps kp hd
  | complianceTrip => exact runs_act rfl fun kp _ hd => Dev.complianceTrip_keeps kp hd
  | lsvEnd => exact runs_act rfl fun kp _ hd => Dev.lsvEnd_keeps kp hd
  | calStepDone => exact runs_act rfl fun kp _ hd => Dev.calStepDone_keeps kp hd
  | refCheck => exact runs_act rfl fun kp _ hd => Dev.refCheck_keeps kp hd
  | refOk => exact runs_act rfl fun kp _ hd => Dev.refOk_keeps kp hd
  | toneCheck => exact runs_act rfl fun kp _ hd => Dev.toneCheck_keeps kp hd
  | rotationDue => exact runs_act rfl fun kp _ hd => Dev.rotationDue_keeps kp hd
  | hoCompareResult => exact runs_act rfl fun kp _ hd => Dev.hoCompare_keeps kp hd
  | hoDeferBlock => exact runs_act rfl fun kp _ hd => Dev.hoDeferBlock_keeps kp hd
  | hoDeferTimeout => exact runs_act rfl fun kp _ hd => Dev.hoDeferTimeout_keeps kp hd
  | xfadeEnd => exact runs_act rfl fun kp _ hd => Dev.xfadeEnd_keeps kp hd
  | sliceFail => exact runs_act rfl fun kp _ hd => Dev.sliceFail_keeps kp hd
  | repairResume => exact runs_act rfl fun kp _ hd => Dev.repairResume_keeps kp hd
  | calStale => exact runs_act rfl fun kp _ hd => Dev.calStale_keeps kp hd
  | macNone | macLd | macAdd | macSub | macLdc | macAddc | macSubc | macLdr =>
    exact runs_tile rfl fun kp _ hd => Dev.macExec_keeps kp hd
  | moveNop | moveLdt | moveMovt | moveAddt | moveClra | moveLda | moveSetoff | moveGetoff | moveSettag =>
    exact runs_tile rfl fun kp _ hd => Dev.moveExec_keeps kp hd
  | ctlNop => exact runs_tile rfl fun kp _ hd => Dev.ctlExec_keeps kp hd fun _ _ _ hx => ctlNop_keeps kp hx
  | loop0 | loop1 => exact runs_tile rfl fun kp _ hd => Dev.ctlExec_keeps kp hd fun _ _ _ hx => ctlLoop_keeps kp hx
  | br => exact runs_tile rfl fun kp _ hd => Dev.ctlExec_keeps kp hd fun _ _ _ hx => ctlBr_keeps kp hx
  | wait => exact runs_tile rfl fun kp _ hd => Dev.ctlExec_keeps kp hd fun _ _ _ hx => ctlWait_keeps kp hx
  | halt => exact runs_tile rfl fun kp _ hd => Dev.ctlExec_keeps kp hd fun _ _ _ hx => ctlHalt_keeps kp hx
  | bmerge => exact runs_tile rfl fun kp _ hd => Dev.ctlExec_keeps kp hd fun _ _ _ hx => ctlBmerge_keeps kp hx
  | bmergeResume => exact runs_tile rfl fun kp _ hd => Dev.mergeResume_keeps kp hd
  | emark => exact runs_tile rfl fun kp _ hd => Dev.ctlExec_keeps kp hd fun _ _ _ hx => ctlEmark_keeps kp hx
  | setlen => exact runs_tile rfl fun kp _ hd => Dev.ctlExec_keeps kp hd fun _ _ _ hx => ctlSetlen_keeps kp hx
  | cpost => exact runs_tile rfl fun kp _ hd => Dev.ctlExec_keeps kp hd fun _ _ _ hx => ctlCpost_keeps kp hx
  | programError => exact runs_tile rfl fun kp _ hd => Dev.programError_keeps kp hd
  | streamWordArrive => exact runs_act rfl fun kp _ hd => Dev.streamWord_keeps kp hd
  | rowWalk => exact runs_act rfl fun kp _ hd => Dev.rowWalk_keeps kp hd
  | autodozeEntry => exact runs_act rfl fun kp _ hd => Dev.autodoze_keeps kp hd
  | tileFail => exact runs_act rfl fun kp _ hd => Dev.tileFail_keeps kp hd
  | lenRequestAct => exact runs_tile rfl fun kp _ hd => Dev.lenRequestAct_keeps kp hd
  | moveCompareDone => exact runs_act rfl fun kp _ hd => Dev.moveCompare_keeps kp (Dev.pass_keeps kp hd)
  | movePortSilent => exact runs_act rfl fun kp _ hd => Dev.moveSilent_keeps kp hd
  | moveBindTimeout => exact runs_act rfl fun kp _ hd => Dev.moveTimeout_keeps kp hd
  | moveDrainEnd => exact runs_act rfl fun kp _ hd => Dev.moveDrainEnd_keeps kp hd
  | repairPrepareDone => exact runs_act rfl fun kp _ hd => Dev.repairPrepared_keeps kp (Dev.pass_keeps kp hd)
  | flitSend => exact runs_act rfl fun kp _ hd => Dev.flitSend_keeps kp hd
  | flitArrive => exact runs_act rfl fun kp _ hd => Dev.flitArrive_keeps kp hd
  | aDrop => exact runs_act rfl fun kp _ hd => Dev.aDropEvent_keeps kp hd
  | framePortWrite => exact runs_frames rfl fun kp _ hd => Dev.framePortWrite_keeps kp hd
  | framePortRead => exact runs_act rfl fun kp _ hd => Dev.framePortRead_keeps kp hd
  | scrubRead => exact runs_act rfl fun kp _ hd => Dev.scrubRead_keeps kp hd
  | rowCompareDone => exact runs_act rfl fun kp _ hd => Dev.rowCompare_keeps kp hd
  | rowRepairTimeout => exact runs_act rfl fun kp _ hd => Dev.rowTimeout_keeps kp hd
  | flowBind => exact runs_act rfl fun kp _ hd => Dev.regWrite_keeps kp hd
  | pllLock => exact runs_act rfl fun kp _ hd => Dev.pllLock_keeps kp hd
  | pllUnlock => exact runs_act rfl fun kp _ hd => Dev.pllUnlock_keeps kp hd
  | anResolved => exact runs_act rfl fun kp _ hd => Dev.anResolved_keeps kp hd
  | anFail => exact runs_act rfl fun kp _ hd => Dev.anFail_keeps kp hd
  | trainingDone => exact runs_act rfl fun kp _ hd => Dev.trainingDone_keeps kp hd
  | trainingTimeout => exact runs_act rfl fun kp _ hd => Dev.trainingTimeout_keeps kp hd
  | linkUp => exact runs_act rfl fun kp _ hd => Dev.linkUp_keeps kp hd
  | bringupRetry => exact runs_act rfl fun kp _ hd => Dev.bringupRetry_keeps kp hd
  | linkDown => exact runs_act rfl fun kp _ hd => Dev.linkDown_keeps kp hd
  | ethSurveyEnd => exact runs_act rfl fun kp _ hd => Dev.ethSurveyEnd_keeps kp hd
  | adaptStep => exact runs_act rfl fun kp _ hd => Dev.adaptStep_keeps kp hd
  | marginRetrain => exact runs_act rfl fun kp _ hd => Dev.marginRetrain_keeps kp hd
  | ilEstimate => exact runs_act rfl fun kp _ hd => Dev.ilEstimate_keeps kp hd
  | modulePoll => exact runs_act rfl fun kp _ hd => Dev.modulePoll_keeps kp hd
  | modFault => exact runs_act rfl fun kp _ hd => Dev.modFault_keeps kp hd
  | refinMeasurement => exact runs_act rfl fun kp _ hd => Dev.refinMeasure_keeps kp hd
  | mcgStart => exact runs_act rfl fun kp _ hd => Dev.mcgStart_keeps kp hd
  | packetReceive => exact runs_act rfl fun kp _ hd => Dev.hostqTrim_keeps kp (Dev.packetReceive_keeps kp hd)
  | gapTimeout => exact runs_act rfl fun kp _ hd => Dev.gapTimeout_keeps kp hd
  | audioPacketTimeout => exact runs_act rfl fun kp _ hd => Dev.audioTimeout_keeps kp hd
  | pathDown => exact runs_act rfl fun kp _ hd => Dev.pathDown_keeps kp hd
  | packetSend => exact runs_act rfl fun kp _ hd => Dev.packetSend_keeps kp hd
  | bramAccess => exact runs_act rfl fun kp _ hd => Dev.bramStep_keeps kp hd
  | walkStale => exact runs_act rfl fun kp _ hd => Dev.walkStale_keeps kp hd
  | oscMeasure => exact runs_act rfl fun kp _ hd => Dev.oscMeasure_keeps kp hd
  | ustoreRequest => exact runs_act rfl fun kp _ hd => Dev.ustoreRequest_keeps kp hd
  | ustoreDone => exact runs_images rfl fun kp _ hd => Dev.ustoreDone_keeps kp hd
  | fportRegAccess => exact runs_act rfl fun kp _ hd => Dev.fportAccess_keeps kp hd
  | groupComplete => exact runs_act rfl fun kp _ hd => Dev.groupComplete_keeps kp hd
  | regionHoCompareDone => exact runs_act rfl fun kp _ hd => Dev.hoCompareDone_keeps kp (Dev.pass_keeps kp hd)
  | storeWriteUnit => exact runs_images rfl fun kp _ hd => Dev.storeWriteUnit_keeps kp hd
  | vioLost => exact runs_act rfl fun kp _ hd => Dev.vioLost_keeps kp hd
  | vioBack => exact runs_act rfl fun kp _ hd => Dev.vioBack_keeps kp hd
  | aes3RxFrame => exact runs_act rfl fun kp _ hd => Dev.aesRxFrame_keeps kp hd
  | aesLock => exact runs_act rfl fun kp _ hd => Dev.aesLock_keeps kp hd
  | aesUnlock => exact runs_act rfl fun kp _ hd => Dev.aesUnlock_keeps kp hd
  | aes3TxFrame => exact runs_act rfl fun kp _ hd => Dev.aesTxFrame_keeps kp hd
  | ltcSync => exact runs_act rfl fun kp _ hd => Dev.ltcSync_keeps kp hd
  | ltcLost => exact runs_act rfl fun kp _ hd => Dev.ltcLost_keeps kp hd
  | serDataRead => exact runs_act rfl fun kp _ hd => Dev.readOut_keeps kp hd
  | qCfgWrite => exact runs_act rfl fun kp _ hd => Dev.qCfgWrite_keeps kp hd
  | sqDoorbell => exact runs_act rfl fun kp _ hd => Dev.sqDoorbell_keeps kp hd
  | dmaDescriptorDone => exact runs_frames rfl fun kp _ hd => Dev.dmaDone_keeps kp hd
  | noticeRingWrite => exact runs_act rfl fun kp _ hd => Dev.ringWrite_keeps kp hd
  | msixCoalesceTimeout => exact runs_act rfl fun kp _ hd => Dev.coalesce_keeps kp hd
  | pcieLinkUp => exact runs_act rfl fun kp _ hd => Dev.pcieUp_keeps kp hd
  | brizelBreak => exact runs_act rfl fun kp _ hd => Dev.brzBreak_keeps kp hd
  | brizelFrameReject => exact runs_act rfl fun kp _ hd => Dev.brzReject_keeps kp hd
  | brizelRead => exact runs_act rfl fun kp _ hd => Dev.brzRead_keeps kp hd
  | brizelWrite => exact runs_act rfl fun kp _ hd => Dev.brzWrite_keeps kp hd
  | mwrite => exact runs_act rfl fun kp _ hd => Dev.brzMwrite_keeps kp hd
  | poll => exact runs_act rfl fun kp _ hd => Dev.brzPoll_keeps kp hd
  | pollDone => exact runs_act rfl fun kp _ hd => Dev.pollDone_keeps kp hd
  | fmread => exact runs_act rfl fun kp _ hd => Dev.brzFmread_keeps kp hd
  | fmwrite => exact runs_frames rfl fun kp _ hd => Dev.brzFmwrite_keeps kp hd
  | brizelInfo => exact runs_act rfl fun kp _ hd => Dev.brzInfo_keeps kp hd
  | brizelAck => exact runs_act rfl fun kp _ hd => Dev.brzAck_keeps kp hd
  | brizelNak => exact runs_act rfl fun kp _ hd => Dev.brzNakRx_keeps kp hd
  | brizelCredit => exact runs_act rfl fun kp _ hd => Dev.brzCredit_keeps kp hd
  | noticeFrameSend => exact runs_act rfl fun kp _ hd => Dev.noticeSend_keeps kp hd
  | noticeResend => exact runs_act rfl fun kp _ hd => Dev.noticeResend_keeps kp hd
  | sspWriteReg => exact runs_act rfl fun kp _ hd => Dev.sspWriteReg_keeps kp hd
  | sspReadReg => exact runs_act rfl fun kp _ hd => Dev.sspReadReg_keeps kp hd
  | sspWriteBuf => exact runs_frames rfl fun kp _ hd => Dev.sspWriteBuf_keeps kp hd
  | writeCrit | lockOverride | keyLoad | keyErase | fuseProg | slotWrite | slotErase | bankWrite | calOverwrite
    | keeperReload | debugUnlock | keyLoadSigned =>
    exact runs_act rfl fun kp _ hd => Dev.critCmd_keeps kp hd
  | tamperTrip => exact runs_frames_always rfl fun kp _ hd => Dev.tamperTrip_keeps kp hd
  | railLost => exact runs_frames_always rfl fun kp _ hd => Dev.railLost_keeps kp hd
  | railBack => exact runs_always rfl fun kp _ hd => Dev.railBack_keeps kp hd
  | powerStateReached => exact runs_act rfl fun kp _ hd => Dev.powerReached_keeps kp hd
  | darkWake => exact runs_always rfl fun kp _ hd => Dev.darkWake_keeps kp hd
  | xinLost => exact runs_act rfl fun kp _ hd => Dev.xinLost_keeps kp hd
  | xinBack => exact runs_act rfl fun kp _ hd => Dev.xinBack_keeps kp hd
  | pllFailover => exact runs_act rfl fun kp _ hd => Dev.pllFailover_keeps kp hd
  | pllColdRelock => exact runs_act rfl fun kp _ hd => Dev.pllRelock_keeps kp hd
  | pllRetry => exact runs_act rfl fun kp _ hd => Dev.pllRetry_keeps kp hd
  | pllRestored => exact runs_act rfl fun kp _ hd => Dev.pllRestored_keeps kp hd
  | thermSample => exact runs_always rfl fun kp _ hd => Dev.tripRelease_keeps kp (Dev.thermSample_keeps kp hd)
  | fwCompareDone => exact runs_act rfl fun kp _ hd => Dev.fwCompare_keeps kp hd
  | ageMeasure => exact runs_act rfl fun kp _ hd => Dev.ageMeasure_keeps kp hd
  | cqHeadWrite => exact runs_act rfl fun kp _ hd => Dev.cqHeadWrite_keeps kp hd
  | jtagInstruction => exact runs_act rfl fun kp _ hd => Dev.jtagLoad_keeps kp hd
  | ltcCodewordStart => exact runs_act rfl fun kp _ hd => Dev.ltcCodeword_keeps kp hd
  | serRxByte => exact runs_act rfl fun kp _ hd => Dev.serRxByte_keeps kp hd
  | cdrLoss => exact runs_act rfl fun kp _ hd => Dev.cdrLoss_keeps kp hd
  | cdrLock => exact runs_act rfl fun kp _ hd => Dev.cdrLock_keeps kp hd
  | jtagUnlock => exact runs_act rfl fun kp _ hd => Dev.jtagUnlockSig_keeps kp hd
  | porstN => exact runs_always rfl fun kp _ hd => Dev.porst_keeps kp hd
  | perstN => exact runs_act rfl fun kp _ hd => Dev.perst_keeps kp hd
  | flr => exact runs_act rfl fun kp _ hd => Dev.flr_keeps kp hd
  | checkStart => exact runs_act rfl fun kp _ hd => Dev.checkStart_keeps kp hd
  | pfMuteRelease => exact runs_act rfl fun kp _ hd => Dev.pfRelease_keeps kp hd
  | measTimeout => exact runs_act rfl fun kp _ hd => Dev.measTimeout_keeps kp hd
  | stepWanted => exact runs_act rfl fun kp _ hd => Dev.stepWanted_keeps kp hd
  | digestDone => exact runs_act rfl fun kp _ hd => Dev.digestDone_keeps kp hd
  | verifyDone => exact runs_frames rfl fun kp _ hd => Dev.verifyDone_keeps kp hd
  | regionWriteDone => exact runs_frames rfl fun kp _ hd => Dev.regionWriteDone_keeps kp hd
  | personalityLoad => exact runs_act rfl fun kp _ hd => Dev.personalityLoad_keeps kp hd
  | persDeadline => exact runs_act rfl fun kp _ hd => Dev.persDeadline_keeps kp hd
  | regionHoSilent => exact runs_act rfl fun kp _ hd => Dev.hoSilent_keeps kp hd
  | regionHoBindTimeout => exact runs_act rfl fun kp _ hd => Dev.hoBindTimeout_keeps kp hd
  | regionHoDrainEnd => exact runs_act rfl fun kp _ hd => Dev.hoDrainEnd_keeps kp hd
  | slotWriteDone => exact runs_act rfl fun kp _ hd => Dev.slotWriteDone_keeps kp hd
  | pcieLinkDown => exact runs_act rfl fun kp _ hd => Dev.pcieDown_keeps kp hd
  | sspStatus => exact runs_act rfl fun kp _ hd => Dev.sspStatus_keeps kp hd
  | attDone => exact runs_frames rfl fun kp _ hd => Dev.attDone_keeps kp hd
  | chalRd => exact runs_act rfl fun kp _ hd => Dev.chalRd_keeps kp hd
  | bootVerify => exact runs_act rfl fun kp _ hd => Dev.bootVerify_keeps kp hd
  | pfail => exact runs_always rfl fun kp _ hd => Dev.pfailStart_keeps kp hd
  | pfailEnd => exact runs_always rfl fun kp _ hd => Dev.pfailEnd_keeps kp hd
  | thermalTrip => exact runs_always rfl fun kp _ hd => Dev.thermalTrip_keeps kp hd
  | fwPrepareDone => exact runs_act rfl fun kp _ hd => Dev.fwPrepared_keeps kp hd
  | fwArmTimeout => exact runs_act rfl fun kp _ hd => Dev.fwTimeout_keeps kp hd
  | fwDrainEnd => exact runs_act rfl fun kp _ hd => Dev.fwDrainEnd_keeps kp hd
  | hoursUpdate => exact runs_act rfl fun kp _ hd => Dev.hoursUpdate_keeps kp hd
  | bankWriteDone => exact runs_act rfl fun kp _ hd => Dev.bankWriteDone_keeps kp hd
  | memoryAccess m =>
    refine runs_core rfl fun kp km _ _ hd => ?_
    cases hw : m.write with
    | true => exact Dev.memServe_keeps (km hw) hd
    | false => exact Dev.memServe_read_keeps kp hd hw
  | pspTransaction write =>
    refine runs_core rfl fun kp km _ _ hd => ?_
    cases write with
    | true => exact Dev.pspAccess_keeps (km rfl) hd
    | false => exact Dev.pspAccess_read_keeps kp hd

end Sys2Proof.Machine
end

section
/-! PROOFS. Every step: what the queue does, what every step keeps, what a core that is off does, and what follows a command. -/

namespace Sys2Proof.Machine

open Sys2Proof

variable {P : Dev → Prop} {s t : State}

/-! ### Steps -/

theorem step_nil (h : s.pending = []) : step s = .next { s with dev := s.dev.tick } := by
  obtain ⟨_, _⟩ := s; cases h; rfl

theorem step_cons {c : Instr} {rest : List Instr} (h : s.pending = c :: rest) :
    step s = exec c { s with pending := rest } := by
  obtain ⟨_, _⟩ := s; cases h; rfl

/-- A command keeps what its operation keeps. -/
theorem exec_keeps (kp : Keeps P) {c : Instr} (km : storesToFrames c = true → KeepsMem P)
    (ks : storesToImages c = true → KeepsSto P) (h : P s.dev) (he : exec c s = .next t) : P t.dev := by
  obtain ⟨on, f, hr⟩ := exec_runs c s
  rw [hr.eq] at he
  cases he
  exact Dev.ran_keeps kp h fun _ hd => hr.keeps kp km ks hd

/-- A step keeps what every operation keeps, but for the memories the command at the front may store to. -/
theorem step_keeps (kp : Keeps P)
    (km : ∀ c rest, s.pending = c :: rest → storesToFrames c = true → KeepsMem P)
    (ks : ∀ c rest, s.pending = c :: rest → storesToImages c = true → KeepsSto P)
    (h : P s.dev) (he : step s = .next t) : P t.dev := by
  cases hp : s.pending with
  | nil =>
    rw [step_nil hp] at he
    cases he
    exact Dev.tick_keeps kp h
  | cons c rest =>
    rw [step_cons hp] at he
    exact exec_keeps (s := { s with pending := rest }) kp (km c rest hp) (ks c rest hp) h he

/-! ### What every step keeps -/

/-- Settles O55: every operation keeps the canonical form, whichever memory it stores to. -/
theorem canonKept : Obligations.CanonKept := by
  unfold Obligations.CanonKept
  intro s t h he
  exact step_keeps keeps_canon.1.toKeeps (fun _ _ _ _ => keeps_canon.1) (fun _ _ _ _ => keeps_canon.2) h he

/-- Settles O56: that frame memory is as it was is kept by every operation that does not store to it. -/
theorem frameMemoryKept : Obligations.FrameMemoryKept := by
  unfold Obligations.FrameMemoryKept
  intro s t a hc he
  have km : ∀ c rest, s.pending = c :: rest → storesToFrames c = true → KeepsMem fun d => d.cw.mem = s.dev.cw.mem := by
    intro c rest hp hs
    rw [hc c rest hp] at hs
    cases hs
  have hmem : t.dev.cw.mem = s.dev.cw.mem :=
    step_keeps (keeps_frameMem s.dev.cw.mem).toKeeps km (fun _ _ _ _ => keeps_frameMem _) rfl he
  rw [hmem]

/-- Settles O58: that elapsed time has reached its present value is kept by every operation. -/
theorem elapsedTimeNeverFalls : Obligations.ElapsedTimeNeverFalls := by
  unfold Obligations.ElapsedTimeNeverFalls
  intro s t he
  have hk := keeps_mono s.dev.mono
  exact step_keeps hk.1.toKeeps (fun _ _ _ _ => hk.1) (fun _ _ _ _ => hk.2) (Nat.le_refl _) he

/-- Settles O54: every table and both memories are empty after reset. -/
theorem canonAtReset : Obligations.CanonAtReset := ⟨rfl, rfl, rfl, rfl⟩

/-! ### The queue -/

/-- Settles O3: every command runs one operation on the device. -/
theorem everyCommandAnswers : Obligations.EveryCommandAnswers := by
  unfold Obligations.EveryCommandAnswers
  intro c s
  obtain ⟨on, f, hr⟩ := exec_runs c s
  exact ⟨_, hr.eq, rfl⟩

/-- Settles O1. -/
theorem stepRunsFront : Obligations.StepRunsFront := by
  unfold Obligations.StepRunsFront
  intro s c rest h
  exact step_cons h

/-- Settles O2: the tick of an empty queue is the nanosecond that passes, and what follows it. -/
theorem stepIdles : Obligations.StepIdles := by
  unfold Obligations.StepIdles
  intro s h
  exact step_nil h

/-! ### A core that is off -/

/-- Settles O4: a command outside the always-on domain runs only where the core is on. -/
theorem coreOffDoesNothing : Obligations.CoreOffDoesNothing := by
  unfold Obligations.CoreOffDoesNothing
  intro c s hoff hdark htamper hlost hback htherm htrip hporst hpfail hpfailEnd
  have hc : alwaysOn c = false := by
    unfold alwaysOn
    split
    · exact absurd rfl (hdark _)
    · exact absurd rfl (htamper _ _)
    · exact absurd rfl (hlost _)
    · exact absurd rfl (hback _)
    · exact absurd rfl (htherm _)
    · exact absurd rfl htrip
    · exact absurd rfl hporst
    · exact absurd rfl hpfail
    · exact absurd rfl hpfailEnd
    · rfl
  obtain ⟨on, f, hr⟩ := exec_runs c s
  rw [hr.eq, hr.off hc hoff]
  rfl

/-! ### What follows a command -/

/-- Settles O5: device time that only runs on expires no slot, so what falls due follows and a wrap of `UPTIME` counts. -/
theorem whatFollowsACommand : Obligations.WhatFollowsACommand := by
  unfold Obligations.WhatFollowsACommand
  intro s e
  refine ⟨rfl, fun hn => ?_⟩
  have hs : (after s e).dev = Dev.settle s.dev.quiet e := rfl
  have hu : s.dev.quiet.uptime = s.dev.uptime := rfl
  rw [hs, settle_run s.dev.quiet e hn, hu]
  exact ⟨fun h => if_neg (Nat.not_lt.mpr h), fun h => if_pos h, dues_calm⟩

end Sys2Proof.Machine
end

section
/-! PROOFS. Registers, refusal causes, snapshots and events, as the shared operations have them. -/

namespace Sys2Proof.Machine

open Sys2Proof

/-! ### Registers and fields -/

/-- Settles O12. -/
theorem registerReadAfterWrite : Obligations.RegisterReadAfterWrite := by
  unfold Obligations.RegisterReadAfterWrite
  intro d a b v h
  exact ⟨Dev.raw_put_self a v h, fun hb => Dev.raw_put_of_ne d v hb⟩

/-- Settles O13: a field stands apart from the one set by its register or by its bits. -/
theorem fieldReadAfterWrite : Obligations.FieldReadAfterWrite := by
  unfold Obligations.FieldReadAfterWrite
  intro d p f g n h _ hf _ _
  refine ⟨Dev.fld_setF_self p n hf h, fun hd => ?_⟩
  by_cases ho : g.off = f.off
  · exact Dev.fld_setF_bits p n hf ho (hd.resolve_left (not_not_intro ho)) h
  · exact Dev.fld_setF_off d n (by omega)

/-! ### Refusal causes (R553) -/

/-- The first code of a list whose test holds, 0 where none does. -/
theorem firstCode_cons (b : Bool) (k : Nat) (l : List (Bool × Nat)) :
    ((((b, k) :: l).find? fun x => x.1).map fun x => x.2).getD 0 =
      if b then k else ((l.find? fun x => x.1).map fun x => x.2).getD 0 := by
  cases b <;> rfl

/-- Settles O10: the causes stand in the list in the order they are tested. -/
theorem refusalOrder : Obligations.RefusalOrder := by
  unfold Obligations.RefusalOrder
  intro d src c i off r v full
  simp only [firstCode_cons, List.find?_nil, Option.map_none, Option.getD_none]
  unfold Dev.cause Dev.liveCause
  by_cases hs : 0x800 ≤ off
  · simp [hs, Nat.not_lt.mpr hs, cWIDTH, cOWNER, cLOCKED, cCRITICAL, cPOWER, cBOUND]
  · cases hb : blkRst off v <;>
      simp [hs, Nat.lt_of_not_le hs, cWIDTH, cOWNER, cLOCKED, cCRITICAL, cPOWER, cBOUND, cVALUE, cBLOCK]

/-! ### Holes -/

theorem readPage_hole (d : Dev) (src : Source) {c : Cls} {i off : Nat} (h : regAt c i off = none) :
    d.readPage src c i off = (0, d) := by
  unfold Dev.readPage; rw [h]

theorem writePage_hole (d : Dev) (src : Source) {c : Cls} {i off : Nat} (v : Word) (full : Bool) (h : regAt c i off = none) :
    d.writePage src c i off v full = (d, none) := by
  unfold Dev.writePage; rw [h]

/-- Settles O11: every path of an access to such an offset ends at the device as it was. -/
theorem holesAreInert : Obligations.HolesAreInert := by
  unfold Obligations.HolesAreInert
  intro d src a v h
  unfold Dev.busRead Dev.busWrite
  by_cases hout : a % 4 ≠ 0 ∨ 0x8000000 ≤ a
  · rw [if_pos hout, if_pos hout]
    exact ⟨rfl, rfl⟩
  · obtain ⟨hlow, hflow, hhole⟩ := (or_assoc.mpr h).resolve_left hout
    rw [if_neg hout, if_neg (Nat.not_le.mpr hlow), if_neg hflow, if_neg hout, if_neg (Nat.not_le.mpr hlow), if_neg hflow]
    rcases hhole with hp | ⟨c, i, hp, hr⟩
    · rw [hp]
      exact ⟨rfl, rfl⟩
    · simp only [hp, readPage_hole d src hr, writePage_hole d src v true hr, ite_self, and_self]

/-! ### Snapshots (R38) -/

/-- One counter of the page at base `p` latched into the snapshot `e` holds for a source, as a reader of `d` sees it. -/
def Dev.latch (d : Dev) (p : Nat) (src : Source) (e : Dev) (off : Nat) : Dev :=
  { e with snaps := Tab.put e.snaps (snapKey src (p + off)) (d.view (p + off)) 0 }

theorem Dev.snap_eq_latch (d : Dev) (c : Cls) (p : Nat) (src : Source) :
    d.snap c p src = c.counterOffs.foldl (d.latch p src) d := rfl

theorem SnapsCanon.latch (d : Dev) (p : Nat) (src : Source) {e : Dev} (off : Nat) (h : SnapsCanon e) :
    SnapsCanon (d.latch p src e off) := Tab.wf_put (d := fun _ => (0 : Word)) _ _ h

theorem Dev.latch_snapRead_self (d : Dev) (p : Nat) (src : Source) {e : Dev} (off : Nat) (h : SnapsCanon e) :
    (d.latch p src e off).snapRead src (p + off) = d.view (p + off) :=
  Tab.get_put_self (d := fun _ => (0 : Word)) _ _ h

theorem Dev.latch_snapRead_of_ne (d : Dev) {p : Nat} {src o : Source} (e : Dev) {off a : Nat}
    (h : snapKey o a ≠ snapKey src (p + off)) : (d.latch p src e off).snapRead o a = e.snapRead o a := by
  unfold Dev.snapRead Dev.latch; rw [Tab.get_put_of_ne _ _ _ h]

theorem Dev.latches_snapRead_of_ne (d : Dev) {p : Nat} {src o : Source} {a : Nat} {l : List Nat} (e : Dev)
    (h : ∀ off ∈ l, snapKey o a ≠ snapKey src (p + off)) : (l.foldl (d.latch p src) e).snapRead o a = e.snapRead o a := by
  induction l generalizing e with
  | nil => rfl
  | cons x l ih =>
    rw [List.foldl_cons, ih _ fun off ho => h off (.tail _ ho), d.latch_snapRead_of_ne e (h x (.head _))]

theorem Dev.latches_snapRead_mem (d : Dev) {p : Nat} {src : Source} {off : Nat} {l : List Nat} {e : Dev} (he : SnapsCanon e)
    (h : off ∈ l) : (l.foldl (d.latch p src) e).snapRead src (p + off) = d.view (p + off) := by
  induction l generalizing e with
  | nil => cases h
  | cons x l ih =>
    rw [List.foldl_cons]
    by_cases hl : off ∈ l
    · exact ih (SnapsCanon.latch d p src x he) hl
    · have hx : off = x := (List.mem_cons.mp h).resolve_right hl
      have hne : ∀ y ∈ l, snapKey src (p + off) ≠ snapKey src (p + y) := by
        intro y hy hk
        have : off = y := by unfold snapKey at hk; omega
        exact hl (this ▸ hy)
      rw [d.latches_snapRead_of_ne _ hne, hx, d.latch_snapRead_self p src x he]

/-- Settles O15. -/
theorem snapLatchesCounters : Obligations.SnapLatchesCounters := by
  unfold Obligations.SnapLatchesCounters
  intro d c p src h
  rw [d.snap_eq_latch]
  exact ⟨fun off ho => d.latches_snapRead_mem h ho, fun o a ho => d.latches_snapRead_of_ne d ho⟩

/-! ### Events (R27) -/

/-- An event that is not enabled does nothing. -/
theorem Dev.raiseRaw_disabled (d : Dev) {p bit code sev : Nat} {w4 w5 w6 w7 : Word} (hs : sev < 2)
    (hen : bitAt (d.reg p HDR.EVT_EN) bit = false) : d.raiseRaw p bit code sev w4 w5 w6 w7 = (d, []) := by
  unfold Dev.raiseRaw
  simp [hen, Nat.not_le.mpr hs]

/-- An event that is enabled and makes no notice sets its bit. -/
theorem Dev.raiseRaw_silent (d : Dev) {p bit code sev : Nat} {w4 w5 w6 w7 : Word} (hs : sev < 2)
    (hen : bitAt (d.reg p HDR.EVT_EN) bit = true) (hsel : bitAt (d.reg p HDR.EVT_NOTICE) bit = false) :
    d.raiseRaw p bit code sev w4 w5 w6 w7 =
      (d.setReg p HDR.EVT_STAT (d.reg p HDR.EVT_STAT ||| BitVec.ofNat 32 (2 ^ bit)), []) := by
  unfold Dev.raiseRaw
  simp [hen, hsel, Nat.not_le.mpr hs, Nat.one_shiftLeft]

/-- An event that is enabled and selected sets its bit and sends its notice. -/
theorem Dev.raiseRaw_sent (d : Dev) {p bit code sev : Nat} {w4 w5 w6 w7 : Word}
    (hen : bitAt (d.reg p HDR.EVT_EN) bit = true) (hsel : bitAt (d.reg p HDR.EVT_NOTICE) bit = true) :
    d.raiseRaw p bit code sev w4 w5 w6 w7 =
      (let e := d.setReg p HDR.EVT_STAT (d.reg p HDR.EVT_STAT ||| BitVec.ofNat 32 (2 ^ bit))
       e.emit code sev (if sev = 3 then 0 else if sev = 2 then 1 else e.fld p HDR.QUEUE) p w4 w5 w6 w7) := by
  unfold Dev.raiseRaw
  simp [hen, hsel, Nat.one_shiftLeft]

/-- An event that ends no counter of the notice page is its own effect alone. -/
theorem Dev.raiseCode_of_raiseRaw (d : Dev) {e : Dev} {p bit code sev : Nat} {w4 w5 w6 w7 : Word}
    (h : d.raiseRaw p bit code sev w4 w5 w6 w7 = (e, [])) : d.raiseCode p bit code sev w4 w5 w6 w7 = e := by
  unfold Dev.raiseCode; rw [h]; rfl

/-- Settles O49: an event whose enable or notice bit reads 0 has a severity below 2 by the premise. -/
theorem eventGates : Obligations.EventGates := by
  unfold Obligations.EventGates
  intro d p bit code sev w4 w5 w6 w7 en sel e h
  have hlow : en = false ∨ sel = false → sev < 2 := by
    intro hg
    refine Nat.lt_of_not_le fun hs => ?_
    obtain ⟨h1, h2⟩ := h hs
    rw [h1, h2] at hg
    exact hg.elim nofun nofun
  refine ⟨fun hen => ?_, fun hen hsel => ?_, fun hen hsel => ?_⟩
  · exact d.raiseCode_of_raiseRaw (d.raiseRaw_disabled (hlow (.inl hen)) hen)
  · exact d.raiseCode_of_raiseRaw (d.raiseRaw_silent (hlow (.inr hsel)) hen hsel)
  · rw [d.raiseRaw_sent hen hsel]

/-- Settles O50. -/
theorem eventFrame : Obligations.EventFrame := by
  unfold Obligations.EventFrame
  intro d p bit code sev w4 w5 w6 w7
  exact ⟨d.raiseCode_only .., fun b hp hb => d.raiseCode_raw hp hb⟩

end Sys2Proof.Machine
end

section
/-! PROOFS. Writes of registers over the bus: accepted, staged and refused. -/

namespace Sys2Proof.Machine

open Sys2Proof

/-! ### Accepted writes -/

/-- A write no cause of R31 applies to, of a register that answers: it takes effect, and a key sequence on the page is
broken. -/
theorem busWrite_accepted (d : Dev) (src : Source) {c : Cls} {i off : Nat} {r : RegSpec} {v : Word}
    (hi : i < c.info.count) (ho : off < 0x1000) (h4 : off % 4 = 0) (ha : d.answers c = true) (hr : regAt c i off = some r)
    (hs : 0x800 ≤ off → r.isStaged = true) (hb : c = .iob → 0x40 ≤ off % 0x800 → d.iobDropped src i (off % 0x800) v = 0)
    (hk : d.cause src c i off r v true = 0) :
    (d.busWrite src (pg c i + off) v true .clean).1 = (d.acceptWrite src c i off r v).breakLock c i off := by
  rw [busWrite_page d src v hi ho h4 ha, writePage_reg d src hr hs hb]
  unfold Dev.writeReg
  simp only [hk, if_true]

/-- An accepted live write is a command of the header, or of its block, or becomes live. -/
theorem acceptWrite_live (d : Dev) (src : Source) (c : Cls) (i : Nat) {off : Nat} (r : RegSpec) (v : Word) (ho : off < 0x800) :
    d.acceptWrite src c i off r v = ((d.headerWrite src c i off r v).orElse fun _ => d.specialWrite src c i off v).getD
      (d.liveWrite src c i off r v) := by
  unfold Dev.acceptWrite
  rw [if_neg (Nat.not_le.mpr ho)]
  cases d.headerWrite src c i off r v with
  | some e => rfl
  | none => cases d.specialWrite src c i off v <;> rfl

theorem acceptWrite_staged (d : Dev) (src : Source) (c : Cls) (i : Nat) {off : Nat} (r : RegSpec) (v : Word) (ho : 0x800 ≤ off) :
    d.acceptWrite src c i off r v = d.stageWrite c i off r v := if_pos ho

variable {s : State}

/-- `REGISTER_WRITE` to BAR0 is the write of the bus. -/
theorem exec_bar0 (h : s.dev.coreOn = true) (src : Source) (a : BitVec 27) (v : Word) (full : Bool) :
    exec (.registerWrite (.bar0 src a v full)) s =
      .next (after s (s.dev.quiet.busWrite src a.toNat v full .clean).1) := act_on _ h

/-- Settles O6. -/
theorem registerWriteCompletes : Obligations.RegisterWriteCompletes := by
  unfold Obligations.RegisterWriteCompletes
  intro s hon d
  refine ⟨?_, fun a v => act_on _ hon, fun ms => act_on _ hon, fun on mask => act_on _ hon⟩
  intro src a v c i off r haddr h4 ho hb hi ha hr hk
  have hm : off % 0x800 = off := Nat.mod_eq_of_lt ho
  rw [exec_bar0 hon, haddr, busWrite_accepted d src hi (by omega) h4 ha hr (by omega) (by rwa [hm]) hk,
    acceptWrite_live d src c i r v ho]
  rfl

/-- Settles O7. -/
theorem stagedWriteCompletes : Obligations.StagedWriteCompletes := by
  unfold Obligations.StagedWriteCompletes
  intro s src v page k c i r hon d off a hpage hi hb ha hr hs hk
  have hk4 := k.isLt
  have haddr : page.val * 0x1000 + 0x800 + 4 * k.val = pg c i + off := by rw [hpage, Nat.add_assoc]
  have hlow : 0x800 ≤ off := Nat.le_add_right _ _
  have hhigh : off < 0x1000 := show 0x800 + 4 * k.val < 0x1000 by omega
  have h4 : off % 4 = 0 := show (0x800 + 4 * k.val) % 4 = 0 by omega
  have hm : off % 0x800 = 4 * k.val := show (0x800 + 4 * k.val) % 0x800 = 4 * k.val by omega
  have hrow : (off - 0x800) / 0x40 = 4 * k.val / 0x40 := by
    rw [show off - 0x800 = 4 * k.val from Nat.add_sub_cancel_left ..]
  have hb' : c = .iob → 0x40 ≤ off % 0x800 → d.iobDropped src i (off % 0x800) v = 0 := by
    rw [hm]; exact fun h1 h2 => hb h1 (by omega)
  have he : exec (.stagedWrite src page k v true) s =
      .next (after s (d.busWrite src (page.val * 0x1000 + 0x800 + 4 * k.val) v true .clean).1) := act_on _ hon
  rw [he, haddr, busWrite_accepted d src hi hhigh h4 ha hr (fun _ => hs) hb' hk, acceptWrite_staged d src c i r v hlow]
  unfold Dev.stageWrite
  rw [hrow]

/-! ### Refused writes -/

theorem refuse_eq (d : Dev) (src : Source) (p k : Nat) (v : Word) {off : Nat} (ho : off < 0x1000) :
    d.refuse src p off k v =
      (let e := (d.setReg p HDR.REFUSE_INFO (wd (k * 2 ^ 28 + src.code * 2 ^ 24 + off))).count p HDR.REFUSE_CNT
       e.raiseCode p 0 0x0002 1 (e.reg p HDR.REFUSE_INFO) v 0 0) := by
  unfold Dev.refuse; rw [Nat.mod_eq_of_lt ho]

/-- Settles O8. -/
theorem refusedWrite : Obligations.RefusedWrite := by
  unfold Obligations.RefusedWrite
  intro s src a v full c i off r hon d k haddr h4 ho hs hb hi ha hr hk p e f
  rw [exec_bar0 hon, haddr, busWrite_refused d src hi ho h4 ha hr hs hb hk, refuse_eq d src _ _ v ho]
  rfl

/-- What a refusal with cause BLOCK raises beside itself is an event of the page. -/
theorem blockNote_only (d : Dev) (c : Cls) (i off : Nat) (new : Word) : OnlyRegsNq d (d.blockNote c i off new) := by
  unfold Dev.blockNote
  split
  · unfold Dev.tregBlockNote
    exact .ite (Dev.raise_only ..) (.refl d)
  · exact .refl d

theorem blockNote_raw (d : Dev) {c : Cls} {i off b : Nat} {new : Word} (hp : b ≠ pg c i + HDR.EVT_STAT.off) (hb : NotNtc b) :
    (d.blockNote c i off new).raw b = d.raw b := by
  unfold Dev.blockNote
  split
  · unfold Dev.tregBlockNote
    dsimp only
    split
    · exact d.raiseCode_raw hp hb
    · rfl
  · rfl

/-- The device with the key sequences broken that a refused write of page `i` of a class breaks (R34). -/
def Dev.broken (d : Dev) (c : Cls) (i off : Nat) : Dev :=
  { d with
    lockSeq := Tab.del d.lockSeq (pg c i)
    pn := if c = .iob ∧ off ≠ IOB.PIN_LOCK.off then { d.pn with lockSeq := Tab.del d.pn.lockSeq i } else d.pn }

theorem Dev.broken_raw (d : Dev) (c : Cls) (i off b : Nat) : (d.broken c i off).raw b = d.raw b := rfl

/-- Of the pins only the sequences of keys are touched. -/
theorem Dev.broken_pn (d : Dev) (c : Cls) (i off : Nat) :
    (d.broken c i off).pn = { d.pn with lockSeq := (d.broken c i off).pn.lockSeq } := by
  unfold Dev.broken
  dsimp only
  split <;> rfl

theorem OnlyRegsNq.broken {d e : Dev} (h : OnlyRegsNq d e) (c : Cls) (i off : Nat) :
    OnlyRegsNq (d.broken c i off) (e.broken c i off) := by
  unfold OnlyRegsNq at h ⊢; rw [h]; rfl

/-- The device after a write refused with cause `k`: the refusal, the broken sequences, and the note of the block. -/
def Dev.refused (d : Dev) (src : Source) (c : Cls) (i off : Nat) (r : RegSpec) (v : Word) (k : Nat) : Dev :=
  let f := (d.refuse src (pg c i) off k v).broken c i off
  if k = cBLOCK then f.blockNote c i off (r.want c off (d.raw (pg c i + off)) v) else f

theorem Dev.refused_only (d : Dev) (src : Source) (c : Cls) (i off : Nat) (r : RegSpec) (v : Word) (k : Nat) :
    OnlyRegsNq (d.broken c i off) (d.refused src c i off r v k) :=
  have hf := (d.refuse_only src (pg c i) off k v).broken c i off
  .ite (hf.trans (blockNote_only ..)) hf

theorem Dev.refused_raw (d : Dev) {src : Source} {c : Cls} {i off k b : Nat} {r : RegSpec} {v : Word}
    (h1 : b ≠ pg c i + HDR.REFUSE_INFO.off) (h2 : b ≠ pg c i + HDR.REFUSE_CNT.off) (h3 : b ≠ pg c i + HDR.EVT_STAT.off)
    (hb : NotNtc b) : (d.refused src c i off r v k).raw b = d.raw b := by
  have hf : ((d.refuse src (pg c i) off k v).broken c i off).raw b = d.raw b :=
    (Dev.broken_raw ..).trans (d.refuse_raw h1 h2 h3 hb)
  unfold Dev.refused
  dsimp only
  split
  · exact (blockNote_raw _ h3 hb).trans hf
  · exact hf

/-- Settles O9: the next state follows from the refused device, which differs from the one with the sequences broken in
registers and notice queues alone. -/
theorem refusedWriteFrame : Obligations.RefusedWriteFrame := by
  unfold Obligations.RefusedWriteFrame
  intro s t src a v full c i off r hon d haddr h4 ho hs hb hi ha hr hk he p
  have hw : (d.busWrite src (pg c i + off) v full .clean).1 = d.refused src c i off r v (d.cause src c i off r v full) :=
    busWrite_refused d src hi ho h4 ha hr hs hb hk
  rw [exec_bar0 hon, haddr, hw] at he
  cases he
  have hraw : ∀ b, b ≠ p + HDR.REFUSE_INFO.off → b ≠ p + HDR.REFUSE_CNT.off → b ≠ p + HDR.EVT_STAT.off → NotNtc b →
      (d.refused src c i off r v (d.cause src c i off r v full)).raw b = d.raw b := fun _ => d.refused_raw
  have honly := d.refused_only src c i off r v (d.cause src c i off r v full)
  generalize d.refused src c i off r v (d.cause src c i off r v full) = e at hraw honly
  have hpn : e.pn = (d.broken c i off).pn := by rw [honly]
  have hcalm : s.dev.calm = true → e.calm = true := by rw [honly]; exact id
  refine ⟨rfl, e, rfl, fun hc => ?_, ?_, ?_, fun hc => ?_, hraw⟩
  · exact settle_same d e (by rw [honly]; rfl) (by rw [honly]; rfl) (by rw [honly]; rfl) (hcalm hc)
  · rw [hpn]; exact honly
  · rw [hpn]; exact d.broken_pn c i off
  · rw [hpn]; exact if_neg fun h => hc h.1

end Sys2Proof.Machine
end

section
/-! PROOFS. The commands of the page header, and the resets that a write or the host makes. -/

namespace Sys2Proof.Machine

open Sys2Proof

/-! ### Commands of the header -/

/-- A write by page number is the write of the register of the page. -/
theorem hdrWrite_page (d : Dev) (src : Source) {page i : Nat} {c : Cls} (f : Fld) (v : Word) (hp : page * 0x1000 = pg c i) :
    d.hdrWrite src page f v = d.cmdWrite src c i f v := by
  unfold Dev.hdrWrite Dev.cmdWrite; rw [hp]

/-- An accepted write of a header register that is a command. -/
theorem hdrWrite_command (d : Dev) (src : Source) {page i : Nat} {c : Cls} {f : Fld} {v : Word} {e : Dev}
    (hp : page * 0x1000 = pg c i) (ha : Accepts d src c i f.off v) (ho : f.off < 0x40) (h4 : f.off % 4 = 0)
    (he : ∀ r, d.headerWrite src c i f.off r v = some e) : d.hdrWrite src page f v = e.breakLock c i f.off := by
  obtain ⟨r, _, hw⟩ := cmdWrite_accepts d src v ha (by omega) h4 (.inr ho)
  rw [hdrWrite_page d src f v hp, hw, acceptWrite_live d src c i r v (by omega), he r]
  rfl

variable (d : Dev) (src : Source) (c : Cls) (i : Nat) (r : RegSpec) (v : Word)

theorem headerWrite_blkRst (h : bitAt v 1 = true) :
    d.headerWrite src c i HDR.PAGE_CTL.off r v = some (d.blockReset c i) :=
  if_pos (by unfold blkRst; rw [h]; rfl)

theorem headerWrite_evtForce : d.headerWrite src c i HDR.EVT_FORCE.off r v = some (d.forceEvents c i v) := rfl

theorem headerWrite_snapCtl : d.headerWrite src c i HDR.SNAP_CTL.off r v = some (d.snapWrite src c i v) := rfl

theorem headerWrite_pageLock :
    d.headerWrite src c i HDR.PAGE_LOCK.off r v = some (d.lockKey src (pg c i) (fieldOf HDR.KEY v)) := rfl

/-- `SNAP` alone latches the counters (R38). -/
theorem snapWrite_snap (h1 : bitAt v 1 = false) (h0 : bitAt v 0 = true) :
    d.snapWrite src c i v = (let e := (d.snapReady c i).snap c (pg c i) src
      if c = .time then e.timeSnap src else e) := by
  unfold Dev.snapWrite
  simp only [h1, h0, or_true, Bool.false_eq_true, if_true, if_false]
  split
  · rfl
  · rfl
  · next h _ => rw [if_neg h]

/-- `SNAP_CLR` latches the counters, then clears the statistics counters (R39). -/
theorem snapWrite_snapClr (h1 : bitAt v 1 = true) :
    d.snapWrite src c i v = (let e := (d.snapReady c i).snapClr c (pg c i) src
      if c = .time then e.timeSnap src else if c = .media then e.mediaClr i else e) := by
  unfold Dev.snapWrite
  simp only [h1, true_or, if_true]
  split
  · rfl
  · rfl
  · next h g => rw [if_neg h, if_neg g]

/-! ### The page-lock sequence (R34) -/

/-- The word that carries a key. -/
theorem keyWord_eq (key : BitVec 16) : setField HDR.KEY key.toNat 0 = BitVec.ofNat 32 (key.toNat * 65536) := by
  have hk := key.isLt
  unfold setField setBits
  have : key.toNat % 2 ^ (HDR.KEY.hi + 1 - HDR.KEY.lo) = key.toNat := Nat.mod_eq_of_lt hk
  rw [this, Nat.shiftLeft_eq]
  simp [HDR.KEY]

theorem fieldOf_keyWord (key : BitVec 16) : fieldOf HDR.KEY (BitVec.ofNat 32 (key.toNat * 65536)) = key.toNat := by
  rw [← keyWord_eq]
  unfold fieldOf setField
  rw [bitsOf_setBits_self (by decide)]
  exact Nat.mod_eq_of_lt key.isLt

variable {d src}

/-- How far the sequence of a source has come on a page: the number of its right keys. -/
def Dev.keysDone (d : Dev) (src : Source) (p : Nat) : Nat :=
  match Tab.get d.lockSeq p with | some x => if x.2 = src.tag then x.1 else 0 | none => 0

theorem Dev.keysDone_eq {p n : Nat} (hn : n ≠ 0) : d.keysDone src p = n ↔ Tab.get d.lockSeq p = some (n, src.tag) := by
  unfold Dev.keysDone
  cases Tab.get d.lockSeq p with
  | none => simp [hn.symm]
  | some x =>
    by_cases hx : x.2 = src.tag
    · simp [hx, Prod.ext_iff]
    · simp [hx, Prod.ext_iff, hn.symm]

/-- What a key does, by how far the sequence has come. -/
theorem lockKey_eq (p key : Nat) : d.lockKey src p key =
    (let ends : Dev := { d with lockSeq := Tab.del d.lockSeq p }
     if d.keysDone src p = 1 ∧ key = 0xA5A5 then { d with lockSeq := Tab.ins d.lockSeq p (2, src.tag) }
     else if d.keysDone src p = 2 ∧ key = 0x5A5A then ends.setFlag p HDR.LOCKED true
     else if key = 0x5A5A then { d with lockSeq := Tab.ins d.lockSeq p (1, src.tag) }
     else ends) := rfl

theorem lockKey_first {p : Nat} (h : d.keysDone src p ≠ 2) :
    d.lockKey src p 0x5A5A = { d with lockSeq := Tab.ins d.lockSeq p (1, src.tag) } := by
  rw [lockKey_eq]
  dsimp only
  rw [if_neg fun x => absurd x.2 (by decide), if_neg fun x => h x.1, if_pos rfl]

theorem lockKey_second {p : Nat} (h : d.keysDone src p = 1) :
    d.lockKey src p 0xA5A5 = { d with lockSeq := Tab.ins d.lockSeq p (2, src.tag) } := by
  rw [lockKey_eq]
  exact if_pos ⟨h, rfl⟩

theorem lockKey_third {p : Nat} (h : d.keysDone src p = 2) :
    d.lockKey src p 0x5A5A = ({ d with lockSeq := Tab.del d.lockSeq p } : Dev).setFlag p HDR.LOCKED true := by
  rw [lockKey_eq]
  dsimp only
  rw [if_neg fun x => absurd x.2 (by decide), if_pos ⟨h, rfl⟩]

theorem lockKey_outOfTurn {p : Nat} (h : d.keysDone src p ≠ 1) :
    d.lockKey src p 0xA5A5 = { d with lockSeq := Tab.del d.lockSeq p } := by
  rw [lockKey_eq]
  dsimp only
  rw [if_neg fun x => h x.1, if_neg fun x => absurd x.2 (by decide), if_neg (by decide)]

theorem lockKey_wrong {p key : Nat} (h1 : key ≠ 0x5A5A) (h2 : key ≠ 0xA5A5) :
    d.lockKey src p key = { d with lockSeq := Tab.del d.lockSeq p } := by
  rw [lockKey_eq]
  dsimp only
  rw [if_neg fun x => h2 x.2, if_neg fun x => h1 x.2, if_neg h1]

/-! ### The header's commands complete -/

theorem bitAt_or_two (v : Word) : bitAt (v ||| 2) 1 = true := by
  unfold bitAt
  rw [BitVec.getLsbD_or]
  exact Bool.or_true _

theorem trig_blkRst (v : Word) : trig HDR.BLK_RST v = v ||| 2 := trig_eq v (by decide)

theorem trig_snapClr (v : Word) : trig HDR.SNAP_CLR v = v ||| 2 := trig_eq v (by decide)

section Commands

variable {s : State} {page : Fin 32768} {i : Nat} {c : Cls}
variable (hon : s.dev.coreOn = true) (hp : page.val * 0x1000 = pg c i)

include hon

/-- `BLK_RST` is a write of `PAGE_CTL` with its bit 1. -/
theorem exec_blkRst_write (src : Source) (v : Word) : exec (.blkRst src page v) s =
    .next (after s (s.dev.quiet.hdrWrite src page.val HDR.PAGE_CTL (v ||| 2))) :=
  (act_on _ hon).trans (by rw [trig_blkRst]; rfl)

include hp

/-- An accepted `BLK_RST` resets the block of its page (R26). -/
theorem exec_blkRst {src : Source} {v : Word} (ha : Accepts s.dev.quiet src c i HDR.PAGE_CTL.off (v ||| 2)) :
    exec (.blkRst src page v) s =
      .next (after s ((s.dev.quiet.blockReset c i).breakLock c i HDR.PAGE_CTL.off)) := by
  rw [exec_blkRst_write hon, hdrWrite_command _ src hp ha (by decide) (by decide)
    fun r => headerWrite_blkRst _ src c i r _ (bitAt_or_two v)]

theorem exec_evtForce {src : Source} {v : Word} (ha : Accepts s.dev.quiet src c i HDR.EVT_FORCE.off v) :
    exec (.evtForce src page v) s =
      .next (after s ((s.dev.quiet.forceEvents c i v).breakLock c i HDR.EVT_FORCE.off)) := by
  rw [show exec (.evtForce src page v) s = _ from act_on _ hon,
    hdrWrite_command _ src hp ha (by decide) (by decide) fun r => headerWrite_evtForce _ src c i r v]

theorem exec_snap {src : Source} (ha : Accepts s.dev.quiet src c i HDR.SNAP_CTL.off 1) :
    exec (.snap src page) s =
      .next (after s ((s.dev.quiet.snapWrite src c i 1).breakLock c i HDR.SNAP_CTL.off)) := by
  rw [show exec (.snap src page) s = _ from act_on _ hon,
    hdrWrite_command _ src hp ha (by decide) (by decide) fun r => headerWrite_snapCtl _ src c i r 1]

theorem exec_snapClr {src : Source} {v : Word} (ha : Accepts s.dev.quiet src c i HDR.SNAP_CTL.off (v ||| 2)) :
    exec (.snapClr src page v) s =
      .next (after s ((s.dev.quiet.snapWrite src c i (v ||| 2)).breakLock c i HDR.SNAP_CTL.off)) := by
  rw [show exec (.snapClr src page v) s = _ from act_on _ hon, trig_snapClr,
    hdrWrite_command _ src hp ha (by decide) (by decide) fun r => headerWrite_snapCtl _ src c i r _]

theorem exec_pageLock {src : Source} {key : BitVec 16}
    (ha : Accepts s.dev.quiet src c i HDR.PAGE_LOCK.off (BitVec.ofNat 32 (key.toNat * 65536))) :
    exec (.pageLock src page key) s =
      .next (after s ((s.dev.quiet.lockKey src (pg c i) key.toNat).breakLock c i HDR.PAGE_LOCK.off)) := by
  rw [show exec (.pageLock src page key) s = _ from act_on _ hon, keyWord_eq,
    hdrWrite_command _ src hp ha (by decide) (by decide) fun r => headerWrite_pageLock _ src c i r _, fieldOf_keyWord]

end Commands

/-- A write to `PAGE_LOCK` breaks the sequence of keys of a bank's pins, and no other. -/
theorem breakLock_pageLock (e : Dev) (c : Cls) (i : Nat) : e.breakLock c i HDR.PAGE_LOCK.off =
    if c = .iob then { e with pn := { e.pn with lockSeq := Tab.del e.pn.lockSeq i } } else e := by
  unfold Dev.breakLock
  by_cases hc : c = .iob
  · rw [if_pos hc, if_pos rfl, if_pos ⟨hc, by decide⟩]; rfl
  · rw [if_neg hc, if_pos rfl, if_neg fun h => hc h.1]

/-- The checker's block reset is that of its page's registers; the page stands alone in its class. -/
theorem blockReset_chk (d : Dev) {i : Nat} (hi : i < Cls.chk.info.count) : d.blockReset .chk i =
    (d.resetPage (pg .chk i) fun _ => false).setF (pg .chk i) HDR.BUSY (d.fld (pg .chk i) HDR.BUSY) := by
  have h0 : i = 0 := Nat.lt_one_iff.mp hi
  subst h0
  rfl

/-- The block reset of a page whose class has none of its own. -/
theorem blockReset_page (d : Dev) {c : Cls} (i : Nat) (hsys : c ≠ .sys) (hmst : c ≠ .mst) (hchk : c ≠ .chk) :
    d.blockReset c i = d.pageReset c i := by
  unfold Dev.blockReset
  split
  · exact absurd rfl hsys
  · exact absurd rfl hmst
  · exact absurd rfl hchk
  · rfl

/-- Settles O14: each command is an accepted write of the header, whose effect its lemma says. -/
theorem headerCommandsComplete : Obligations.HeaderCommandsComplete := by
  unfold Obligations.HeaderCommandsComplete
  constructor
  · intro s src v page c i hon hp d p
    refine ⟨fun ha => ?_, fun ha => ?_, fun ha => ?_, fun ha => ?_⟩
    · rw [exec_blkRst hon hp ha]
      refine congrArg (fun e : Dev => Host.Outcome.next (after s (e.breakLock c i HDR.PAGE_CTL.off))) ?_
      split
      · rfl
      · rfl
      · exact blockReset_chk d ha.1
      · next hsys hmst hchk => exact blockReset_page d i hsys hmst hchk
    · exact exec_evtForce hon hp ha
    · rw [exec_snap hon hp ha, snapWrite_snap _ src c i 1 (by decide) (by decide)]
    · rw [exec_snapClr hon hp ha, snapWrite_snapClr _ src c i _ (bitAt_or_two v)]
      rfl
  · intro s src page key c i hon hp d p leaves ends ha
    have hleaves : ∀ e : Dev, d.lockKey src p key.toNat = e → leaves e := by
      intro e hl
      show exec (.pageLock src page key) s = _
      rw [exec_pageLock hon hp ha, ← breakLock_pageLock, ← hl]
    have h1 : d.keysDone src p = 1 ↔ _ := Dev.keysDone_eq (by decide)
    have h2 : d.keysDone src p = 2 ↔ _ := Dev.keysDone_eq (by decide)
    refine ⟨fun hn hk => ?_, fun hn hk => ?_, fun hn hk => ?_, fun hn hk => ?_, fun hk1 hk2 => ?_⟩
    · exact hleaves _ (hk ▸ lockKey_third (h2.mpr hn))
    · exact hleaves _ (hk ▸ lockKey_second (h1.mpr hn))
    · exact hleaves _ (hk ▸ lockKey_outOfTurn fun h => hn (h1.mp h))
    · exact hleaves _ (hk ▸ lockKey_first fun h => hn (h2.mp h))
    · exact hleaves _ (lockKey_wrong (fun h => hk1 (BitVec.eq_of_toNat_eq h)) fun h => hk2 (BitVec.eq_of_toNat_eq h))

/-! ### Resets -/

/-- Where ownership bars its source, a whole dword is refused with cause OWNER (R32). -/
theorem cause_owner (d : Dev) {src : Source} {c : Cls} {i : Nat} (off : Nat) (r : RegSpec) (v : Word)
    (h : d.ownerBars src c i = true) : d.cause src c i off r v true = cOWNER := by
  unfold Dev.cause
  rw [if_neg (by decide), if_pos h]

/-- Where the page is locked, a write of `PAGE_CTL` that ownership lets pass is refused with cause LOCKED (R34). -/
theorem cause_locked_pageCtl (d : Dev) {src : Source} {c : Cls} {i : Nat} (r : RegSpec) (v : Word)
    (ho : d.ownerBars src c i = false) (hl : d.flag (pg c i) HDR.LOCKED = true) :
    d.cause src c i HDR.PAGE_CTL.off r v true = cLOCKED := by
  have hb : d.lockBars c i HDR.PAGE_CTL.off r v = true := by
    unfold Dev.lockBars
    simp only [hl]
    rfl
  unfold Dev.cause
  rw [if_neg (by decide), if_neg (by simp [ho]), if_pos hb]

/-- A refused write of `BLK_RST` of `SYS` is recorded, breaks a key sequence of the page, and resets nothing. -/
theorem exec_blkRst_sys_refused {s : State} (hon : s.dev.coreOn = true) {src : Source} {v : Word} {page : Fin 32768} {k : Nat}
    (hp : page.val * 0x1000 = pg .sys 0) (ha : s.dev.quiet.answers .sys = true) (h0 : k ≠ 0) (h8 : k ≠ cBLOCK)
    (hk : ∀ r, s.dev.quiet.cause src .sys 0 HDR.PAGE_CTL.off r (v ||| 2) true = k) :
    exec (.blkRst src page v) s = .next (after s
      (let e := s.dev.quiet.refuse src (pg .sys 0) HDR.PAGE_CTL.off k (v ||| 2)
       { e with lockSeq := Tab.del e.lockSeq (pg .sys 0) })) := by
  obtain ⟨r, hr⟩ : ∃ r, regAt .sys 0 HDR.PAGE_CTL.off = some r := ⟨_, rfl⟩
  have hw := busWrite_refused s.dev.quiet src (c := .sys) (i := 0) (v := v ||| 2) (by decide) (by decide) (by decide) ha hr
    (fun h => absurd h (by decide)) (fun h => nomatch h) (hk r ▸ h0)
  dsimp only at hw
  rw [hk r, if_neg h8, if_neg fun h => nomatch h.1] at hw
  rw [exec_blkRst_write hon, hdrWrite_page _ src _ _ hp]
  exact congrArg (fun e => Host.Outcome.next (after s e)) hw

/-- Settles O51: a write of `BLK_RST` of `SYS` is a header command, or is refused with the first cause of R553. -/
theorem sysResetByWrite : Obligations.SysResetByWrite := by
  unfold Obligations.SysResetByWrite
  intro s src v hon d p off page hp turned
  refine ⟨fun ha => exec_blkRst hon hp ha, fun hans hown => ?_, fun hans hown hlock => ?_⟩
  · exact exec_blkRst_sys_refused hon hp hans (by decide) (by decide) fun r => cause_owner d off r (v ||| 2) hown
  · exact exec_blkRst_sys_refused hon hp hans (by decide) (by decide) fun r =>
      cause_locked_pageCtl d r (v ||| 2) hown hlock

/-- Settles O17. -/
theorem hostResetsComplete : Obligations.HostResetsComplete := by
  unfold Obligations.HostResetsComplete
  intro s hon d
  exact ⟨act_on _ hon, act_on _ hon⟩

end Sys2Proof.Machine
end

section
/-! PROOFS. Milestone slots: their commands and their bindings. -/

namespace Sys2Proof.Machine

open Sys2Proof

variable (d : Dev)

/-! ### A command of the device -/

/-- A command runs its operation where the core is on, and what follows every command follows it. -/
theorem exec_of_act {s : State} (hon : s.dev.coreOn = true) {c : Instr} {f : Dev → Dev} {e : Dev} (hc : exec c s = act f s)
    (he : f s.dev.quiet = e) : exec c s = .next (after s e) := by
  rw [hc, act_on f hon, he]

/-! ### Slots -/

/-- A slot that is not IDLE reads as it was stored, whatever the table held. -/
theorem Dev.slot_setSlot_self (m : Nat) {x : Slot} (hx : x.state ≠ .idle) : (d.setSlot m x).slot m = x := by
  unfold Dev.slot Dev.setSlot Tab.put
  rw [if_neg fun h => hx (congrArg Slot.state h), Tab.get_ins_self]
  rfl

@[simp] theorem Dev.pass_slot (n m : Nat) : (d.pass n).slot m = d.slot m := rfl

@[simp] theorem Dev.reach_slot (t m : Nat) : (d.reach t).slot m = d.slot m := by
  unfold Dev.reach
  split <;> rfl

/-- A `TRY` of the slot waits for the checker (R56). -/
theorem Dev.waitTry_isSome (m : Nat) :
    (d.waitTry m).isSome = d.mst.queue.any fun j => decide (j.slot = m) && j.isTry := List.isSome_find?

/-! ### Commands of a slot (R45) -/

theorem slotCmd_off (m : Nat) : (MST.MS_CMD.at m).off = 0x40 + 0x40 * m := rfl

theorem specialWrite_slotCmd (src : Source) (m : Fin 16) (v : Word) :
    d.specialWrite src .mst 0 (MST.MS_CMD.at m).off v = some (d.msCmd m (fieldOf MST.CMD v)) := by
  have hm := m.isLt
  have ho := slotCmd_off m
  have hbind : (MST.MS_CMD.at m).off ≠ MST.MS_BIND_REQ.off := by
    rw [ho]
    show 0x40 + 0x40 * m.val ≠ 0x440
    omega
  have hslot : mstSlotOf (MST.MS_CMD.at m).off = m.val := by
    unfold mstSlotOf
    rw [ho, if_pos (by omega)]
    omega
  have hreg : mstRegOf (MST.MS_CMD.at m).off = 0 := by
    unfold mstRegOf
    rw [ho]
    omega
  unfold Dev.specialWrite
  rw [if_neg fun h => hbind h.2, hslot, hreg, if_pos ⟨rfl, hm, rfl⟩]

/-- An accepted command of a slot does what its code means, and breaks a key sequence of the page. -/
theorem exec_slotCmd {s : State} (hon : s.dev.coreOn = true) {c : Instr} {src : Source} {m : Fin 16} {v : Word} {e : Dev}
    (ha : Accepts s.dev.quiet src .mst 0 (MST.MS_CMD.at m).off v)
    (hc : exec c s = act (fun d => d.cmdWrite src .mst 0 (MST.MS_CMD.at m) v) s)
    (he : s.dev.quiet.msCmd m (fieldOf MST.CMD v) = e) :
    exec c s = .next (after s (e.breakLock .mst 0 (MST.MS_CMD.at m).off)) := by
  have hm := m.isLt
  have ho : (MST.MS_CMD.at m).off < 0x800 ∧ 0x40 ≤ (MST.MS_CMD.at m).off ∧ (MST.MS_CMD.at m).off % 4 = 0 := by
    rw [slotCmd_off]; omega
  exact exec_of_act hon hc (cmdWrite_special _ src ha ho (.inl (by decide)) (he ▸ specialWrite_slotCmd _ src m v))

/-- A slot that is CHECKING, or whose `TRY` waits, is cancelled when its check ends. -/
theorem msCancel_waits {m : Nat} (h : (d.slot m).state = .checking ∨ (d.waitTry m).isSome = true) :
    d.msCancel m = d.setSlot m { d.slot m with cancel := true } := by
  have hp : d.slotPhase m = .checking := by
    unfold Dev.slotPhase
    split
    · rfl
    · next hw => exact h.resolve_right hw
  exact if_pos hp

theorem msCancel_now {m : Nat} (hs : (d.slot m).state ≠ .checking) (hw : (d.waitTry m).isSome = false) :
    d.msCancel m = d.slotCancel m := by
  refine if_neg ?_
  unfold Dev.slotPhase
  rwa [hw]

/-- The slot as `CHECK` leaves it before it is queued: its instant resolved and held, its state CHECKING (R52). -/
def Dev.checkMarked (d : Dev) (m : Nat) : Dev :=
  let x := match d.resolve m d.now with | some t => d.setAtRegs m t | none => d
  x.setSlot m { x.slot m with state := .checking, instant := d.resolve m d.now }

theorem Dev.checkMarked_state (m : Nat) : ((d.checkMarked m).slot m).state = .checking :=
  congrArg Slot.state (Dev.slot_setSlot_self _ m (show SlotState.checking ≠ .idle by decide))

theorem msCheck_later {m : Nat} (h : ¬ (d.trig m = 1 ∧ d.atRegs m ≤ d.now)) :
    d.msCheck m = (d.checkMarked m).enqueue m false (d.resolve m d.now) := if_neg h

theorem msCheck_past {m : Nat} (h : d.trig m = 1 ∧ d.atRegs m ≤ d.now) :
    d.msCheck m = (d.checkMarked m).slotExpire m false := if_pos h

/-- A slot that is not ARMED expires with its pages marked as not checked. -/
theorem slotExpire_unarmed {m : Nat} (h : (d.slot m).state ≠ .armed) : d.slotExpire m false =
    ((d.notChecked m).dropChecks m).slotMiss m .expired MST.E_SLOT_EXPIRED MST.MS_EXPIRED_CNT (wd 0) := by
  unfold Dev.slotExpire
  rw [if_neg h]
  rfl

/-! ### Bind requests (R48) -/

theorem fieldOf_setField_self {f : Fld} (hf : f.hi < 32) (n : Nat) (w : Word) :
    fieldOf f (setField f n w) = n % 2 ^ (f.hi + 1 - f.lo) := bitsOf_setBits_self hf w n

theorem fieldOf_setField_of_disjoint {f g : Fld} (hf : f.hi < 32) (n : Nat) (w : Word) (hd : g.hi < f.lo ∨ f.hi < g.lo) :
    fieldOf g (setField f n w) = fieldOf g w := bitsOf_setBits_of_disjoint hf w n hd

section BindRequest

variable (u : Bool) {m page more : Nat}

theorem fieldOf_bindReqWord_slot (hm : m < 16) : fieldOf MST.SLOT (bindReqWord u m page more) = m := by
  unfold bindReqWord
  rw [fieldOf_setField_of_disjoint (by decide) _ _ (.inl (by decide)),
    fieldOf_setField_of_disjoint (by decide) _ _ (.inl (by decide)),
    fieldOf_setField_of_disjoint (by decide) _ _ (.inl (by decide)), fieldOf_setField_self (by decide)]
  exact Nat.mod_eq_of_lt hm

theorem fieldOf_bindReqWord_count (hc : more < 256) : fieldOf MST.COUNT_M1 (bindReqWord u m page more) = more := by
  unfold bindReqWord
  rw [fieldOf_setField_of_disjoint (by decide) _ _ (.inl (by decide)),
    fieldOf_setField_of_disjoint (by decide) _ _ (.inl (by decide)), fieldOf_setField_self (by decide)]
  exact Nat.mod_eq_of_lt hc

theorem fieldOf_bindReqWord_page (hp : page < 32768) : fieldOf MST.PAGE (bindReqWord u m page more) = page := by
  unfold bindReqWord
  rw [fieldOf_setField_of_disjoint (by decide) _ _ (.inl (by decide)), fieldOf_setField_self (by decide)]
  exact Nat.mod_eq_of_lt hp

theorem bitAt_bindReqWord_unbind : bitAt (bindReqWord u m page more) 31 = u := by
  unfold bindReqWord setField bitAt
  rw [setBits_getLsbD (by decide), if_pos (by decide)]
  cases u <;> rfl

/-- The pages a bind request names: its first page and as many more. -/
theorem bindReqPages_bindReqWord (hp : page < 32768) (hc : more < 256) :
    bindReqPages (bindReqWord u m page more) = (List.range (more + 1)).map fun k => (page + k) * 0x1000 := by
  unfold bindReqPages
  rw [fieldOf_bindReqWord_page u hp, fieldOf_bindReqWord_count u hc]

/-- A bind request is the binding of its pages to its slot, or with `UNBIND` their release. -/
theorem bindReq_bindReqWord (hm : m < 16) (hp : page < 32768) (hc : more < 256) : d.bindReq (bindReqWord u m page more) =
    (let pages := (List.range (more + 1)).map fun k => (page + k) * 0x1000
     if u then d.unbindPages m pages else d.bindPages m pages) := by
  unfold Dev.bindReq
  rw [bitAt_bindReqWord_unbind, fieldOf_bindReqWord_slot u hm, bindReqPages_bindReqWord u hp hc]

end BindRequest

/-- An accepted bind request binds or releases, and breaks a key sequence of the page. -/
theorem exec_bindReq {s : State} (hon : s.dev.coreOn = true) {c : Instr} {src : Source} {v : Word}
    (hc : exec c s = act (fun d => d.cmdWrite src .mst 0 MST.MS_BIND_REQ v) s)
    (ha : Accepts s.dev.quiet src .mst 0 MST.MS_BIND_REQ.off v) :
    exec c s = .next (after s ((s.dev.quiet.bindReq v).breakLock .mst 0 MST.MS_BIND_REQ.off)) :=
  exec_of_act hon hc (cmdWrite_special _ src ha (by decide) (.inl (by decide)) (if_pos ⟨rfl, rfl⟩))

/-- Settles O18: each command is an accepted write of the slot's command register or of `MS_BIND_REQ`. -/
theorem slotCommandsComplete : Obligations.SlotCommandsComplete := by
  unfold Obligations.SlotCommandsComplete
  refine ⟨fun s src m hon => ?_, fun s src m hon => ?_, fun s src m page more hon => ?_⟩
  · intro d off trigAt waits
    have hwaits : (d.waitTry m).isSome = waits := d.waitTry_isSome m
    refine ⟨fun ha => ?_, fun ha => ?_, fun ha => ?_, fun ha hw => ?_, fun ha hs hw => ?_, fun ha => ?_⟩
    · exact exec_slotCmd hon ha rfl rfl
    · exact exec_slotCmd hon ha rfl rfl
    · exact exec_slotCmd hon ha rfl rfl
    · exact exec_slotCmd hon ha rfl (msCancel_waits d (hwaits ▸ hw))
    · exact exec_slotCmd hon ha rfl (msCancel_now d hs (hwaits.trans hw))
    · exact exec_slotCmd hon ha rfl rfl
  · intro d off inst x e ha
    have hs : (e.slot m).state ≠ .armed := by
      rw [show (e.slot m).state = .checking from d.checkMarked_state m]
      decide
    refine ⟨fun hlater => ?_, fun hpast => ?_⟩
    · exact exec_slotCmd hon ha rfl (msCheck_later d hlater)
    · exact exec_slotCmd hon ha rfl ((msCheck_past d hpast).trans (slotExpire_unarmed e hs))
  · intro d off pages
    have hbind := fun u => bindReq_bindReqWord d u m.isLt page.isLt more.isLt
    refine ⟨fun ha => ?_, fun ha => ?_⟩
    · intro e
      rw [exec_bindReq hon rfl ha, hbind]
      rfl
    · intro mine e
      rw [exec_bindReq hon rfl ha, hbind]
      rfl

end Sys2Proof.Machine
end

section
/-! PROOFS. The start and the end of a check, and what happens when an instant is reached. -/

namespace Sys2Proof.Machine

open Sys2Proof

variable (d : Dev)

/-! ### The checker (R56 to R60) -/

/-- A free checker takes the oldest of its queue, unless that is a `TRY` whose instant has come. -/
theorem checkStart_takes {j : CheckJob} {t : List CheckJob} (hr : d.mst.running = none) (hq : d.mst.queue = j :: t)
    (h : ∀ u, d.lateAt j.slot = some u → j.isTry = true → d.now < u) : d.checkStart =
      ({ d with mst := { d.mst with running := some { j with start := some d.mono }, queue := t } } : Dev).setF chkPg HDR.BUSY
        1 := by
  unfold Dev.checkStart
  simp only [hr, hq]
  refine if_neg ?_
  cases hu : d.lateAt j.slot with
  | none => simp
  | some u => simpa using h u hu

theorem checkStart_lateTry {j : CheckJob} {t : List CheckJob} {u : Nat} (hr : d.mst.running = none) (hq : d.mst.queue = j :: t)
    (hu : d.lateAt j.slot = some u) (htry : j.isTry = true) (h : u ≤ d.now) : d.checkStart = d.slotLate j.slot false := by
  unfold Dev.checkStart
  simp only [hr, hq]
  refine if_pos ?_
  simp [hu, htry, h]

theorem checkStart_stays (h : d.mst.running ≠ none ∨ d.mst.queue = []) : d.checkStart = d := by
  unfold Dev.checkStart
  split
  · next hr hq => exact absurd h (by simp [hr, hq])
  · rfl

theorem checkEnd_none (dt : Nat) (h : d.mst.running = none) : d.checkEnd dt = d := by
  unfold Dev.checkEnd
  rw [h]

theorem checkEnd_some (dt : Nat) {j : CheckJob} (h : d.mst.running = some j) : d.checkEnd dt =
    (let e := d.pass (Nat.min dt (d.checkLeft j))
     if j.isTry then e.tryEnds j else e.checkEnds j.slot) := by
  unfold Dev.checkEnd
  rw [h]

/-- A try reports, and then its slot is cancelled where a `CANCEL` waits for it (R56). -/
theorem tryEnds_reports {j : CheckJob} {rep : Dev}
    (hrep : d.checkFree.checkReport j.slot true (d.findings j.slot (d.checkInst j)) = rep) :
    d.tryEnds j = if (rep.slot j.slot).cancel then rep.slotCancel j.slot else rep := by
  subst hrep
  rfl

/-- The check of a slot that has left CHECKING frees the checker and does nothing else. -/
theorem checkEnds_gone {m : Nat} (h : (d.slot m).state ≠ .checking) : d.checkEnds m = d.checkFree := if_pos h

/-- A check whose slot's instant has come reports NOT RUN, and its slot expires or is cancelled (R45). -/
theorem checkEnds_late {m t : Nat} (h : (d.slot m).state = .checking) (hi : (d.slot m).instant = some t) (ht : t ≤ d.now) :
    d.checkEnds m = (d.checkFree.setChkStat m 3 0 false false).slotLate m false := by
  unfold Dev.checkEnds
  dsimp only
  rw [if_neg (not_not_intro h), if_pos (by simp [hi, ht])]

/-- A check in time reports, and then its slot is cancelled, passes, or is refused for the first rule found (R58, R60). -/
theorem checkEnds_inTime {m : Nat} {fs : List Found} {rep : Dev} (h : (d.slot m).state = .checking)
    (hi : ∀ t, (d.slot m).instant = some t → d.now < t)
    (hfs : d.findings m (if d.trig m = 0 then some d.now else (d.slot m).instant) = fs)
    (hrep : d.checkFree.checkReport m false fs = rep) : d.checkEnds m =
      if (d.slot m).cancel then rep.slotCancel m
      else fs.head?.elim (rep.checkPass m) fun f => rep.slotRefuse m f.v.2 := by
  unfold Dev.checkEnds
  dsimp only
  rw [if_neg (not_not_intro h), hfs, hrep]
  rw [if_neg]
  · cases fs <;> rfl
  · cases hs : (d.slot m).instant with
    | none => exact Bool.false_ne_true
    | some t => simpa using hi t hs

theorem checkPass_arms {m : Nat} (h : d.trig m ≠ 0) : d.checkPass m = (d.slotTo m .armed).armPages m := if_neg h

theorem checkPass_applies {m : Nat} (h : d.trig m = 0) : d.checkPass m = d.applySlots (m :: d.slotsAt d.now) d.now := if_pos h

/-- A slot that is late leaves by the `CANCEL` that waits for it, or expires (R45). -/
theorem slotLate_eq (m : Nat) : d.slotLate m false =
    if (d.slot m).cancel then ((d.notChecked m).dropChecks m).slotCancel m else d.slotExpire m false := rfl

/-- Settles O19: a start and an end of the checker each take one of their cases. -/
theorem checkerCompletes : Obligations.CheckerCompletes := by
  unfold Obligations.CheckerCompletes
  intro s hon d
  refine ⟨fun j t hr hq h => ?_, fun j t u hr hq hu htry h => ?_, fun h => ?_, fun dt h => ?_, fun dt j hr => ?_⟩
  · exact exec_of_act hon rfl (checkStart_takes d hr hq h)
  · exact exec_of_act hon rfl ((checkStart_lateTry d hr hq hu htry h).trans (slotLate_eq d j.slot))
  · exact exec_of_act hon rfl (checkStart_stays d h)
  · exact exec_of_act hon rfl (checkEnd_none d dt h)
  intro m held bound e free fs rep ends
  have hend : ∀ {x : Dev}, d.checkEnd dt = x → ends x := fun h => exec_of_act hon rfl h
  have hcheck : j.isTry = false → d.checkEnd dt = e.checkEnds m := fun h =>
    (checkEnd_some d dt hr).trans (if_neg (by simp [h]))
  refine ⟨fun htry => ?_, fun htry hs => ?_, fun htry hs => ⟨fun t hi ht => ?_, fun hi => ?_⟩⟩
  · have hrep : e.checkFree.checkReport m true fs = rep := congrArg (e.checkFree.checkReport m · fs) htry.symm
    exact hend ((checkEnd_some d dt hr).trans ((if_pos htry).trans (tryEnds_reports e hrep)))
  · exact hend ((hcheck htry).trans (checkEnds_gone e hs))
  · exact hend ((hcheck htry).trans (checkEnds_late e hs hi ht))
  · have hheld : held = (d.slot m).instant := if_neg (by simp [htry])
    have hfs : e.findings m (if e.trig m = 0 then some e.now else (e.slot m).instant) = fs :=
      congrArg (fun x => e.findings m (if d.trig m = 0 then some e.now else x)) hheld.symm
    have hrep : e.checkFree.checkReport m false fs = rep := congrArg (e.checkFree.checkReport m · fs) htry.symm
    have hin := (hcheck htry).trans (checkEnds_inTime e hs hi hfs hrep)
    refine ⟨fun hc => ?_, fun hc => ?_⟩
    · exact hend (hin.trans (if_pos hc))
    · have hin' := hin.trans (if_neg (by simp [e, hc]))
      refine ⟨fun hnil htrig => ?_, fun hnil htrig => ?_, fun f l hcons => ?_⟩
      · rw [hnil] at hin'
        exact hend (hin'.trans (checkPass_arms rep htrig))
      · rw [hnil] at hin'
        exact hend (hin'.trans (checkPass_applies rep htrig))
      · rw [hcons] at hin'
        exact hend hin'

/-! ### Instants (R62 to R65) -/

theorem milestoneApply_first {m t : Nat} (hi : (d.slot m).instant = some t) (hs : (d.slot m).state = .armed)
    (hb : d.armedBefore t = false) : d.milestoneApply m = (d.reach t).applySlots (d.slotsAt t) t := by
  unfold Dev.milestoneApply
  rw [hs, hi]
  exact if_neg (by simp [hb])

theorem milestoneApply_stays {m : Nat}
    (h : (d.slot m).state ≠ .armed ∨ ∀ t, (d.slot m).instant = some t → d.armedBefore t = true) : d.milestoneApply m = d := by
  unfold Dev.milestoneApply
  split
  · next t hs hi => exact if_pos (h.resolve_left (not_not_intro hs) t hi)
  · rfl

/-- What an apply does, with the first of its slots named by the head of their list. -/
theorem applySlots_eq (ms : List Nat) (t : Nat) : d.applySlots ms t =
    (let pages := ms.flatMap fun k => d.viewPages k
     let xs := pages.flatMap fun p => d.pageChanges pages p
     let d1 := pages.foldl (fun (e : Dev) p => e.bindNotes pages p) d
     let d2 := xs.foldl (fun (e : Dev) x => e.put (pg x.cls x.idx + x.off) x.new) d1
     let d3 := ms.foldl (fun (e : Dev) k => (e.setAtRegs k t).slotApplied k) d2
     let d4 := xs.foldl (fun (e : Dev) x => e.changeActs t (ms.head?.getD 0) x) d3
     ms.foldl (fun (e : Dev) k => e.slotAfter k) d4) := by
  cases ms <;> rfl

theorem slotExpired_some {m t : Nat} (h : d.lateAt m = some t) : d.slotExpired m = (d.reach t).slotLate m false := by
  unfold Dev.slotExpired
  rw [h]

theorem slotExpired_none {m : Nat} (h : d.lateAt m = none) : d.slotExpired m = d := by
  unfold Dev.slotExpired
  rw [h]

/-- Settles O20: an instant is reached, or the slot is not one that waits for it. -/
theorem instantsComplete : Obligations.InstantsComplete := by
  unfold Obligations.InstantsComplete
  intro s m hon d
  refine ⟨fun t hi hs hb => ?_, fun h => ?_, fun t hl hc => ?_, fun t hl hc => ?_, fun hl => ?_⟩
  · exact exec_of_act hon rfl ((milestoneApply_first d hi hs hb).trans (applySlots_eq ..))
  · exact exec_of_act hon rfl (milestoneApply_stays d h)
  · intro e
    have hc' : ¬ (e.slot m).cancel = true := by simp [e, hc]
    have hs : (e.slot m).state = (d.slot m).state := by simp [e]
    refine exec_of_act hon rfl ((slotExpired_some d hl).trans ((if_neg hc').trans ?_))
    rw [← hs]
    rfl
  · refine exec_of_act hon rfl ((slotExpired_some d hl).trans (if_pos ?_))
    simp [hc]
  · exact exec_of_act hon rfl (slotExpired_none d hl)

end Sys2Proof.Machine
end

section
/-! PROOFS. Input ports: the common-mode monitor and the source-impedance survey. -/

namespace Sys2Proof.Machine

open Sys2Proof

variable (d : Dev) {i : Nat}

/-! ### The common-mode monitor (R83, R84) -/

/-- The monitor measures in STOPPED, SYNCING, LIVE and FAULT of an input. -/
theorem cmUpdate_measures (mv : Nat) (hin : d.flag (pg .port i) PORT.DIR = false) (hoff : d.st (pg .port i) ≠ 0)
    (hsurvey : d.st (pg .port i) ≠ 4) : d.cmUpdate i mv =
      (let q := pg .port i
       let ext := extDc (d.fld q PORT.SENSE_R) mv
       let e := ((d.setF q PORT.CM_MV mv).setF q PORT.EXT_DC ext.1).setFlag q PORT.EXT_NEG ext.2
       let far := decide (10 * d.fld q PORT.THR < Int.natAbs ((mv : Int) - 2500))
       e.setPort i { e.port i with
         cmRun := if far = d.flag q PORT.DC_PRESENT then none else some (((e.port i).cmRun.map (· + 1)).getD 0) }) :=
  if_pos ⟨hin, hoff, hsurvey⟩

/-- The deviation has stood on the other side of the threshold for the hold: `DC_PRESENT` changes over. -/
theorem dcChange_turns {n : Nat} (hin : d.flag (pg .port i) PORT.DIR = false) (hoff : d.st (pg .port i) ≠ 0)
    (hsurvey : d.st (pg .port i) ≠ 4) (hrun : (d.port i).cmRun = some n)
    (hhold : d.fld (pg .port i) PORT.CM_CFG_HOLD ≤ n) : d.dcChange i =
      (let q := pg .port i
       let on := !(d.flag q PORT.DC_PRESENT)
       (((d.setFlag q PORT.DC_PRESENT on).count q PORT.DC_CHG_CNT).setPort i { d.port i with cmRun := none }).raise q
         (if on then PORT.E_DC_ON else PORT.E_DC_OFF)) := by
  unfold Dev.dcChange
  rw [hrun]
  exact if_pos ⟨hhold, hin, hoff, hsurvey⟩

/-! ### The survey of the source (R85 to R87) -/

theorem portRuns_of_stopped (hst : d.st (pg .port i) = 1) : d.portRuns i = false :=
  decide_eq_false fun h => by
    rw [show d.st (portPg i) = 1 from hst] at h
    omega

/-- A survey of a STOPPED port with no external DC begins: the test current flows, and the port stands in SURVEY for
120 ms. -/
theorem surveyStart_begins (hst : d.st (pg .port i) = 1) (hdc : d.flag (pg .port i) PORT.DC_PRESENT = false)
    (hrun : d.flag (pg .port i) PORT.RUN = false) : d.surveyStart i =
      (let f := ((d.send (.testTone i false true)).setSt (pg .port i) 4).setF (pg .port i) PORT.NET 6
       f.setPort i { f.port i with due := d.mono + 120000000, pend := false }) := by
  have hr := portRuns_of_stopped d hst
  unfold Dev.surveyStart
  rw [if_neg (c := d.portRuns i = true) (by simp [hr])]
  exact (if_neg (Bool.eq_false_iff.mp hdc)).trans (if_neg (Bool.eq_false_iff.mp hrun))

/-- `CELL_CTL` written so that `SURVEY_GO` alone rises, on an input in STOPPED with mode SURVEY, starts its survey. -/
theorem cellCtl_surveyGo (via : Via) {old new : Word} (hwanted : d.portWanted i = true) (hst : d.st (pg .port i) = 1)
    (hmode : d.fld (pg .port i) PORT.IN_MODE = 6) (hin : d.flag (pg .port i) PORT.DIR = false)
    (hgo0 : fieldOf PORT.SURVEY_GO old = 0) (hgo1 : fieldOf PORT.SURVEY_GO new = 1) (hrun0 : fieldOf PORT.RUN old = 0)
    (hrun1 : fieldOf PORT.RUN new = 0) (hdir : fieldChanged PORT.DIR old new = false)
    (hsame : fieldChanged PORT.IN_MODE old new = false) : d.cellCtl i via old new = d.surveyStart i := by
  have hst' : d.st (portPg i) = 1 := hst
  have hmode' : d.fld (portPg i) PORT.IN_MODE = 6 := hmode
  have hin' : d.flag (portPg i) PORT.DIR = false := hin
  unfold Dev.cellCtl
  simp [hwanted, hst', hmode', hin', hgo0, hgo1, hrun0, hrun1, hdir, hsame]

theorem trig_surveyGo (v : Word) : trig PORT.SURVEY_GO v = v ||| 0x10 := trig_eq v (by decide)

/-- In `CELL_CTL` the fields `RUN`, `DIR` and `IN_MODE` are RW, and `SURVEY_GO` is W1S. -/
theorem regCodes_cellCtl : regCodes .port PORT.CELL_CTL.off = some (0x1107, 0x10, 0, 0x1117) := by decide

theorem classLive_cellCtl (src : Source) (via : Via) (old new : Word) :
    d.classLive src .port i PORT.CELL_CTL.off via old new = d.cellCtl i via old new := by
  show d.portLive i PORT.CELL_CTL.off via old new = _
  unfold Dev.portLive
  exact (if_neg (by decide)).trans (if_pos rfl)

/-- An accepted `SURVEY_GO` writes `CELL_CTL`, and the port takes it as a control word. -/
theorem cmdWrite_surveyGo (src : Source) {w : Word} {e : Dev} (ha : Accepts d src .port i PORT.CELL_CTL.off w)
    (he : (written d (pg .port i) PORT.CELL_CTL 0x1107 0x10 w).cellCtl i Via.direct (d.reg (pg .port i) PORT.CELL_CTL)
      (heard d (pg .port i) PORT.CELL_CTL 0x1117 w) = e) :
    d.cmdWrite src .port i PORT.SURVEY_GO w = e.breakLock .port i PORT.CELL_CTL.off :=
  cmdWrite_eff d src (f := PORT.CELL_CTL) 0x1107 0x10 0x1117 ha regCodes_cellCtl (by decide) (by decide) rfl
    ((classLive_cellCtl ..).trans he)

/-- The end of a survey classifies the impedance by its magnitude, and the port leaves SURVEY. -/
theorem surveyEnd_reports (ohms : Nat) (x : Int) (hst : d.st (pg .port i) = 4) : d.surveyEnd i ohms x =
    (let q := pg .port i
     let e := (d.pass ((d.port i).due - d.mono)).send (.testTone i false false)
     let mag2 : Int := (ohms : Int) * ohms + x * x
     let status := if mag2 < 400 then 3 else if 1000000000000 < mag2 then 2 else 1
     let f := if status = 1 then
         (e.setReg q PORT.SURVEY_RES (wd (2 ^ 28 + Nat.min ohms 1000000))).setReg q PORT.SURVEY_X (wd (scode 24 x))
       else (e.setReg q PORT.SURVEY_RES (wd (status * 2 ^ 28))).setReg q PORT.SURVEY_X 0
     ((f.setF q PORT.SURVEY_GO 0).raise q PORT.E_SURVEY_END).surveyLeave i) :=
  if_pos hst

/-- Settles O21: the monitor of a port that measures, and a survey from its start to its end. -/
theorem inputPortsComplete : Obligations.InputPortsComplete := by
  unfold Obligations.InputPortsComplete
  refine ⟨fun s i hon => ?_, fun s src i v hon => ?_⟩
  · intro d q hin hoff hsurvey
    refine ⟨fun mv => ?_, fun n hrun hhold => ?_⟩
    · exact exec_of_act hon rfl (cmUpdate_measures d mv.toNat hin hoff hsurvey)
    · exact exec_of_act hon rfl (dcChange_turns d hin hoff hsurvey hrun hhold)
  · intro d q
    refine ⟨?_, fun ohms x hst => ?_⟩
    · intro old w e new ha hwanted hst hmode hin hdc hrun hgo0 hgo1 hrun0 hrun1 hdir hsame f
      have hgo := cellCtl_surveyGo e .direct hwanted hst hmode hin hgo0 hgo1 hrun0 hrun1 hdir hsame
      refine exec_of_act hon rfl ?_
      rw [trig_surveyGo]
      exact cmdWrite_surveyGo d src ha (hgo.trans (surveyStart_begins e hst hdc hrun))
    · exact exec_of_act hon rfl (surveyEnd_reports d ohms x hst)

end Sys2Proof.Machine
end

section
/-! PROOFS. Ports that recover, the clock of a group, and the supplies, temperature and reference inputs of a port die. -/

namespace Sys2Proof.Machine

open Sys2Proof

variable (d : Dev)

/-! ### Recovery from FAULT (R97, R104) -/

/-- A port whose cause has gone, on a die with its supplies and below its limit, goes to STOPPED and tells of it. -/
theorem portRecover_leaves {i : Nat} (hst : d.st (pg .port i) = 5) (hgone : d.causeGone i = true)
    (hown : d.flag (pg .port i) PORT.DIR = false ∨ d.fld (pg .port i) PORT.FAULT_CAUSE = 1)
    (hlost : (d.die (i / 36)).lost = false) (hhot : (d.die (i / 36)).hot = false) : d.portRecover i =
      (let q := pg .port i
       let x := if d.fld q PORT.FAULT_CAUSE = 1 then (d.obtain i).getD d else d
       let e := ((x.setF q PORT.FAULT_CAUSE 0).stageTakes i).enterStopped i
       let f := (if e.drives i then e.suspendEnd i else e).pfCheck i
       let h := f.setPort i { f.port i with run := false, tail := [] }
       ((h.recoverNote i).refreshGroup (i / 9)).runCheck i) :=
  (if_pos ⟨hst, hgone, hown⟩).trans ((if_neg (Bool.eq_false_iff.mp hlost)).trans (if_neg (Bool.eq_false_iff.mp hhot)))

/-- A temperature below the warning level lets the ports of the die that stopped for heat recover. -/
theorem portRecoverCmd_cool (i : Nat) {t : Nat} (hcool : sext 8 t < sext 8 (d.fld (pg .pdie (i / 36)) PDIE.WARN)) :
    d.portRecoverCmd i (some t) =
      (let k := i / 36
       let e := d.setF (pg .pdie k) PDIE.TEMP t
       (diePorts k).foldl (fun (x : Dev) j =>
         if j = i ∨ x.fld (pg .port j) PORT.FAULT_CAUSE = 5 then x.portRecover j else x)
           (e.setDie k { e.die k with hot := false })) := by
  unfold Dev.portRecoverCmd
  dsimp only
  rw [if_pos hcool]
  rfl

/-! ### The clock of a group (R95, R97) -/

theorem grpLock_locks {g : Nat} (hon : d.grpOn g = true) (hlocked : d.flag (pg .pgrp g) PGRP.LOCKED = false)
    (hmcg : d.mcgRuns (d.fld (pg .pgrp g) PGRP.MCG) = true) : d.grpLock g =
      (let p := pg .pgrp g
       let e := (d.setF p PGRP.LOCKED 1).raise p PGRP.E_CLK_LOCK
       let f := (e.setReg p PGRP.CAP_ALIGN (wd (edgeAt (baseRate (d.fld p PGRP.FAMILY)) d.now))).raise p PGRP.E_PHASE_ALIGN
       let h := (List.range 9).foldl (fun (x : Dev) j =>
         if x.st (pg .port (g * 9 + j)) = 5 ∧ x.fld (pg .port (g * 9 + j)) PORT.FAULT_CAUSE = 2 then
           x.portRecover (g * 9 + j) else x.runCheck (g * 9 + j)) f
       (((h.regridGroup g).calRestart g).setGroup g
         { h.group g with dueAt := d.mono + d.fld p PGRP.ROT_PERIOD * 100000000 }).audioReady) :=
  if_pos ⟨hon, hlocked, hmcg⟩

theorem grpUnlock_unlocks {g : Nat} (hlocked : d.flag (pg .pgrp g) PGRP.LOCKED = true) : d.grpUnlock g =
    (let p := pg .pgrp g
     let e := ((d.setF p PGRP.LOCKED 0).count p PGRP.UNLOCK_CNT).raise p PGRP.E_CLK_UNLOCK
     (((List.range 9).foldl (fun (x : Dev) k =>
       if 1 ≤ x.st (pg .port (g * 9 + k)) ∧ x.st (pg .port (g * 9 + k)) ≤ 4 then x.portFault (g * 9 + k) 2 else x)
       e).regridGroup g).calRestart g) :=
  if_pos hlocked

/-! ### The supplies of a die (R97, R153) -/

theorem vapDroop_mutes {k : Nat} (mv : Nat) (h : d.flag (pg .pdie k) PDIE.DROOP = false) : d.vapDroop k mv =
    (let p := pg .pdie k
     (((d.setF p PDIE.VAP_MV mv).setF p PDIE.DROOP 1).raise p PDIE.E_VAP_DROOP).pfMuteAll) :=
  if_neg (Bool.eq_false_iff.mp h)

/-- Both supplies of a die stand in their ranges. -/
def Dev.supplied (d : Dev) (k : Nat) : Bool := d.flag (pg .pdie k) PDIE.VAP_OK && d.flag (pg .pdie k) PDIE.VAPL_OK

/-- A supply that leaves its range reports, and faults the ports of the die that are on. -/
theorem supplyLost_faults {k vap vapl : Nat} (hwas : d.supplied k = true) (hnow : (d.setSupply k vap vapl).supplied k = false) :
    d.supplyLost k vap vapl =
      (let e := d.setSupply k vap vapl
       let f := (e.setDie k { e.die k with lost := true }).raise (pg .pdie k) PDIE.E_SUPPLY_LOST
       let g := ((diePorts k).foldl (fun (x : Dev) i =>
         if 1 ≤ x.st (pg .port i) ∧ x.st (pg .port i) ≤ 4 then x.portFault i 3 else x) f).dieCalLost k
       g.dieClamps k) :=
  congrArg (Dev.dieClamps · k) (if_pos ⟨hwas, (Bool.not_eq_true' _).mpr hnow⟩)

/-- Both supplies are in range again: the clamps follow, the ports that stopped for them recover, and calibration starts. -/
theorem supplyBack_recovers {k vap vapl : Nat} (hwas : d.supplied k = false)
    (hvap : (d.setSupply k vap vapl).flag (pg .pdie k) PDIE.VAP_OK = true)
    (hvapl : (d.setSupply k vap vapl).flag (pg .pdie k) PDIE.VAPL_OK = true) : d.supplyBack k vap vapl =
      (let h := (d.setSupply k vap vapl).dieClamps k
       let f := (h.setDie k { h.die k with lost := false }).raise (pg .pdie k) PDIE.E_SUPPLY_BACK
       ((diePorts k).foldl (fun (x : Dev) i =>
         if x.st (pg .port i) = 5 ∧ x.fld (pg .port i) PORT.FAULT_CAUSE = 3 then x.portRecover i else x) f).dieCalStart k) :=
  if_pos ⟨(Bool.not_eq_true' _).mpr hwas, hvap, hvapl⟩

/-! ### The temperature of a die (R104) -/

theorem tempFault_faults {k t : Nat} (ht : 115 ≤ sext 8 t) (hhot : (d.die k).hot = false) : d.tempFault k t =
    (let p := pg .pdie k
     let e := ((d.setF p PDIE.TEMP t).setDie k { d.die k with hot := true }).raise p PDIE.E_TEMP_FAULT
     (diePorts k).foldl (fun (x : Dev) i =>
       if 1 ≤ x.st (pg .port i) ∧ x.st (pg .port i) ≤ 4 then x.portFault i 5 else x) e) :=
  if_neg (by simp [hhot, ht])

/-! ### The reference inputs of a die (R324) -/

/-- An input that had no signal is shown with its amplitude, and reported where it has one now. -/
theorem refinEvent_found {k i : Nat} (mv : Nat) (hwas : d.flag (pg .pdie k) (PDIE.PRESENT.at i) = false) :
    d.refinEvent k i mv true =
      (let p := pg .pdie k
       let now := decide (d.fld p (PDIE.KIND.at i) ≠ 0) && decide (100 < mv)
       let e := (d.setF p (PDIE.AMPL_MV.at i) mv).setFlag p (PDIE.PRESENT.at i) now
       if now then e.raise p PDIE.E_REFIN_FOUND (wd i) (e.reg p (PDIE.REFIN_STAT.at i)) else e) := by
  unfold Dev.refinEvent Dev.refin
  simp only [hwas, Bool.false_and, Bool.true_and, Bool.false_eq_true, if_false]
  split
  · next hnone => rw [← hnone]; rfl
  · next hsome => rw [Bool.of_not_eq_false fun h => hsome h.symm]; rfl

/-- A reference input of a die after its signal is lost: shown with its amplitude, and its loss reported. -/
def Dev.refinGone (d : Dev) (k i mv : Nat) : Dev :=
  let p := pg .pdie k
  let z := (d.setF p (PDIE.AMPL_MV.at i) mv).setFlag p (PDIE.PRESENT.at i) false
  z.raise p PDIE.E_REFIN_LOST (wd i) (z.reg p (PDIE.REFIN_STAT.at i))

theorem refin_gone {k i : Nat} (mv : Nat) (hwas : d.flag (pg .pdie k) (PDIE.PRESENT.at i) = true) :
    d.refin k i mv false = d.refinGone k i mv := if_neg (by rw [hwas]; exact Bool.noConfusion)

/-- The loss of the signal the servo is locked to takes it to holdover. -/
theorem refinEvent_lost {k i : Nat} (mv : Nat) (hwas : d.flag (pg .pdie k) (PDIE.PRESENT.at i) = true)
    (hgone : (d.refinGone k i mv).flag (pg .pdie k) (PDIE.PRESENT.at i) = false) : d.refinEvent k i mv false =
      (let f := d.refinGone k i mv
       if f.servo = 2 ∧ f.fld tmPg TIME.SRC = 2 ∧ f.fld tmPg TIME.REFIN = k * 2 + i then f.toHoldover 2 else f) := by
  unfold Dev.refinEvent
  simp only [refin_gone d mv hwas, hwas, hgone, Bool.not_false, Bool.true_and, decide_eq_true_eq]

/-- Settles O22: each event of a port, a group or a die takes the branch its premises choose. -/
theorem portsAndDiesComplete : Obligations.PortsAndDiesComplete := by
  unfold Obligations.PortsAndDiesComplete
  refine ⟨fun s i hon => ?_, fun s g hon => ?_, fun s k hon => ?_⟩
  · intro d q k
    refine ⟨?_, fun t hcool => ?_⟩
    · intro cause hst hgone hown hlost hhot
      exact exec_of_act hon rfl (portRecover_leaves d hst hgone hown hlost hhot)
    · exact exec_of_act hon rfl (portRecoverCmd_cool d i hcool)
  · intro d p
    refine ⟨fun hgrp hlocked hmcg => ?_, fun hlocked => ?_⟩
    · exact exec_of_act hon rfl (grpLock_locks d hgrp hlocked hmcg)
    · exact exec_of_act hon rfl (grpUnlock_unlocks d hlocked)
  · intro d p
    refine ⟨fun mv hdroop => ?_, fun vap vapl => ?_, fun t => ?_, fun t ht hhot => ?_, fun i mv => ?_⟩
    · exact exec_of_act hon rfl (vapDroop_mutes d mv.toNat hdroop)
    · intro e
      refine ⟨fun hvap hvapl hnow => ?_, fun hwas hvap hvapl => ?_⟩
      · exact exec_of_act hon rfl (supplyLost_faults d (Bool.and_eq_true_iff.mpr ⟨hvap, hvapl⟩) hnow)
      · exact exec_of_act hon rfl (supplyBack_recovers d hwas hvap hvapl)
    · exact exec_of_act hon rfl rfl
    · exact exec_of_act hon rfl (tempFault_faults d ht hhot)
    · intro was now e z
      refine ⟨fun hwas => ?_, fun hwas => ?_⟩
      · exact exec_of_act hon rfl (refinEvent_found d mv.toNat hwas)
      · intro f hgone
        exact exec_of_act hon rfl (refinEvent_lost d mv.toNat hwas hgone)

end Sys2Proof.Machine
end

section
/-! PROOFS. The capture chain: the synchronising reset, the words of a port, and its coefficient banks. -/

namespace Sys2Proof.Machine

open Sys2Proof

variable (d : Dev) {i : Nat}

/-! ### The grid and the words (R122 to R128) -/

/-- The synchronising reset is made at the first edge of the group clock at or after the entry into SYNCING. -/
theorem syncReset_pending (hst : d.st (pg .port i) = 2) (hpend : (d.port i).pend = true) : d.syncReset i =
    (let q := pg .port i
     let k := edgeAt (d.grpRate i) (d.port i).entered
     let t := edgeTime (d.grpRate i) k
     let e := d.reach t
     let f := e.setPort i { e.port i with
       run := true, pend := false, cap := e.newRun i (d.grpRate i) k, outPreset := d.fld q PORT.OUT_PRESET,
       oidx := presetLat (d.fld q PORT.OUT_PRESET), xf := none, mark := none,
       src := (d.fld q PORT.SRC_FLOW, d.fld q PORT.SRC_CH), srcNext := [] }
     if d.flag q PORT.DIR then f
     else (((f.setReg q PORT.CAP_T0_NS (nsWord t)).setReg q PORT.CAP_T0_SEC_LO (secWord t)).setReg q PORT.CAP_T0_SEC_HI
       (wd (t / 1000000000 / 2 ^ 32 % 65536))).setReg q PORT.WORD_CNT 0) :=
  if_pos ⟨hst, hpend⟩

/-- A run that emits sends its next word: amplifier, bank swap and inputs move on first, then the fast values due, the two
detectors, the clip report and the statistics. -/
theorem wordEmit_sends (a : SliceWord) (b : Option SliceWord) {r : CapRun} {stop : Option Nat}
    (h : d.emitRun i = some (r, stop)) : d.wordEmit i a b =
    (let n := r.idx
     let t := r.time n
     let e := (((d.reach (r.time n r.lat)).pgaStep i).swapAtWord i n t).takeInputs i r.fastDue a b
     let x := (List.range r.fastDue).foldl (Dev.fastStep i stop a (b.getD a)) (e, r)
     let w := x.1.wordBody i x.2 n a (b.getD a)
     let sample := if w.live then some (mag24 w.val) else none
     let ra := x.1.detPeriod i 0 t sample (x.2.flagsOf n).1
     let rb := ra.1.detPeriod i 1 t sample (x.2.flagsOf n).2
     let f := (rb.1.clipNote i t w).wordStats i t stop.isSome w
     let mark := w.live && stop.isNone && decide ((x.1.port i).mark = some n)
     (f.wordSend i x.2 stop (w.word ra.2 rb.2 mark)).wordFollow i x.2 stop) := by
  unfold Dev.wordEmit
  rw [h]

theorem wordEmit_none (a : SliceWord) (b : Option SliceWord) (h : d.emitRun i = none) : d.wordEmit i a b = d := by
  unfold Dev.wordEmit
  rw [h]

/-- An enabled detector in ABOVE falls with the last period of its hold. -/
theorem thrFall_falls {k : Nat} (hen : d.flag (pg .port i) (PORT.EN.at k) = true)
    (habove : d.flag (pg .port i) (thrStat k) = true)
    (hhold : d.fld (pg .port i) (PORT.THR_HOLD_HOLD.at k) ≤ (d.port i).low k + 1) :
    d.thrFall i k = d.detFall i k (d.wordTime i (d.cap i).idx) :=
  if_pos ⟨hen, habove, hhold⟩

/-! ### Writes of the coefficient banks (R111) -/

/-- A register of RW fields alone stores the word that the block hears. -/
theorem written_rw (p : Nat) (f : Fld) (m w : Word) : written d p f m 0 w = d.put (p + f.off) (heard d p f m w) := by
  unfold written heard
  rw [show w &&& (0 : Word) = 0#32 from BitVec.and_zero, BitVec.or_zero]

theorem firCoef_off (k : Nat) : (PORT.FIR_COEF.at k).off = 0x100 + 4 * k := rfl

/-- A `FIR_COEF` register holds one RW field of 24 bits. -/
theorem regCodes_firCoef (k : Fin 64) :
    regCodes .port (PORT.FIR_COEF.at k).off = some (0xFFFFFF, 0, 0, 0xFFFFFF) := by
  revert k; decide

/-- The port takes a coefficient into the bank not in use, and the window reads its reset value again. -/
theorem portLive_firCoef (via : Via) (old new : Word) {k : Nat} (hk : k < 64) :
    d.portLive i (PORT.FIR_COEF.at k).off via old new =
      (let a := pg .port i + (PORT.FIR_COEF.at k).off
       (d.coefWrite i k new).put a (resetWord a)) := by
  have ho := firCoef_off k
  have hindex : ((PORT.FIR_COEF.at k).off - 0x100) / 4 = k := by omega
  have hbelow : HDR.PAGE_CTL.off < 0x100 ∧ PORT.CAP_CTL.off < 0x100 ∧ PORT.CAP_FIR_CTL.off < 0x100 := by decide
  have hthr0 : (PORT.THR_CFG.at 0).off < 0x100 ∧ (PORT.THR_HOLD.at 0).off < 0x100 := by decide
  have hthr1 : (PORT.THR_CFG.at 1).off < 0x100 ∧ (PORT.THR_HOLD.at 1).off < 0x100 := by decide
  have habove : 0x200 ≤ PORT.CELL_CTL.off ∧ 0x200 ≤ PORT.CELL_GAIN.off := by decide
  unfold Dev.portLive
  rw [if_neg (by omega), if_neg (by omega), if_neg (by omega), if_neg (by omega), if_neg (by omega), if_neg (by omega),
    if_neg (by omega), if_pos (by omega), hindex]
  rfl

/-- An accepted coefficient goes to the bank that is not in use. -/
theorem cmdWrite_firCoef (src : Source) {k : Fin 64} {v : Word}
    (ha : Accepts d src .port i (PORT.FIR_COEF.at k).off v) :
    d.cmdWrite src .port i (PORT.FIR_COEF.at k) v =
      (let f := PORT.FIR_COEF.at k
       let a := pg .port i + f.off
       let new := heard d (pg .port i) f 0xFFFFFF v
       (((d.put a new).coefWrite i k new).put a (resetWord a)).breakLock .port i f.off) := by
  have ho := firCoef_off k
  have hk := k.isLt
  refine cmdWrite_eff d src 0xFFFFFF 0 0xFFFFFF ha (regCodes_firCoef k) (by omega)
    ⟨Cls.noConfusion, .inl Cls.noConfusion⟩ rfl ?_
  rw [written_rw]
  exact portLive_firCoef _ Via.direct _ _ hk

/-! ### The swap of the banks (R112 to R114) -/

/-- A new `ACT_BANK` written directly: the swap is wanted from the next word on, and deferred where that word falls in a
crossfade. -/
theorem bankRequest_wanted (h : d.swapWanted i = true) : d.bankRequest i none =
    (let g := d.setPort i { d.port i with swapAt := 0 }
     if (g.port i).run ∧ g.inXfade i (g.cap i).idx then g.swapDefer i (g.cap i).idx else g) := by
  unfold Dev.bankRequest
  rw [if_pos h]
  simp only [Option.getD_none, Nat.max_eq_max, Nat.max_zero]
  rfl

/-- `ACT_BANK` back at the bank in use withdraws the swap, and `FORCE` with it. -/
theorem bankRequest_withdrawn (h : d.swapWanted i = false) : d.bankRequest i none =
    (d.setF (pg .port i) PORT.SWAP_PENDING 0).setF (pg .port i) PORT.FORCE 0 :=
  if_neg (Bool.eq_false_iff.mp h)

/-- `CAP_CTL` holds RW fields only; in `CAP_FIR_CTL`, `RD_BANK` is RW and `FORCE` is W1S. -/
theorem regCodes_capCtl : regCodes .port PORT.CAP_CTL.off = some (0x3F0117, 0, 0, 0x3F0117) := by decide

theorem regCodes_capFirCtl : regCodes .port PORT.CAP_FIR_CTL.off = some (0x100, 1, 0, 0x101) := by decide

/-- A directly written `CAP_CTL` shows the latency, drops the values kept for words before a milestone, and asks for a swap
where `ACT_BANK` changed. -/
theorem portLive_capCtl {old new : Word} (h : fieldChanged PORT.ACT_BANK old new = true) :
    d.portLive i PORT.CAP_CTL.off Via.direct old new =
      (let l := d.setF (pg .port i) PORT.LAT_TOT (d.latTot i)
       (l.setPort i { l.port i with
         capOld := (l.port i).capOld.filter fun x => decide (x.1 ≠ PORT.CAP_CTL.off) }).bankRequest i none) := by
  unfold Dev.portLive
  rw [if_neg (by decide), if_neg (by decide), if_neg (by decide), if_pos rfl, if_pos h]
  rfl

/-- An accepted `CAP_CTL` that changes `ACT_BANK` makes the request of the bank. -/
theorem cmdWrite_capCtl (src : Source) {v : Word} {x : Dev} (ha : Accepts d src .port i PORT.CAP_CTL.off v)
    (hbank : fieldChanged PORT.ACT_BANK (d.reg (pg .port i) PORT.CAP_CTL) (heard d (pg .port i) PORT.CAP_CTL 0x3F0117 v) = true)
    (hx : (let e := d.setReg (pg .port i) PORT.CAP_CTL (heard d (pg .port i) PORT.CAP_CTL 0x3F0117 v)
       let l := e.setF (pg .port i) PORT.LAT_TOT (e.latTot i)
       (l.setPort i { l.port i with
         capOld := (l.port i).capOld.filter fun y => decide (y.1 ≠ PORT.CAP_CTL.off) }).bankRequest i none) = x) :
    d.cmdWrite src .port i PORT.CAP_CTL v = x.breakLock .port i PORT.CAP_CTL.off := by
  refine cmdWrite_eff d src 0x3F0117 0 0x3F0117 ha regCodes_capCtl (by decide) (by decide) rfl ?_
  rw [written_rw]
  exact (portLive_capCtl _ hbank).trans hx

/-- `FORCE` stands only while a swap is pending. -/
theorem portLive_capFirCtl (via : Via) (old new : Word) : d.portLive i PORT.CAP_FIR_CTL.off via old new =
    (let q := pg .port i
     if d.flag q PORT.FORCE ∧ d.flag q PORT.SWAP_PENDING = false then d.setF q PORT.FORCE 0 else d) := by
  unfold Dev.portLive
  rw [if_neg (by decide), if_neg (by decide), if_neg (by decide), if_neg (by decide), if_pos rfl]
  rfl

theorem trig_force (v : Word) : trig PORT.FORCE v = v ||| 1 := trig_eq v (by decide)

/-- A wanted swap of a running port is made with the port's next word. -/
theorem swapDone_atWord (hrun : (d.port i).run = true) (hwanted : d.swapWanted i = true) :
    d.swapDone i = d.swapAtWord i (d.cap i).idx (d.wordTime i (d.cap i).idx) :=
  if_pos ⟨hrun, hwanted⟩

/-- Settles O23: the port takes the branch its premises choose, and a write of a bank register is an accepted command. -/
theorem captureCommandsComplete : Obligations.CaptureCommandsComplete := by
  unfold Obligations.CaptureCommandsComplete
  refine ⟨fun s d i hon hd => ?_, fun s src i v hon => ?_⟩
  · subst hd
    intro q
    refine ⟨fun hst hpend => ?_, fun a b r stop hemit => ?_, fun a b hnone => ?_, fun k hen habove hhold => ?_⟩
    · exact exec_of_act hon rfl (syncReset_pending _ hst hpend)
    · exact exec_of_act hon rfl (wordEmit_sends _ a b hemit)
    · exact exec_of_act hon rfl (wordEmit_none _ a b hnone)
    · exact exec_of_act hon rfl (thrFall_falls _ hen habove hhold)
  · intro d q
    refine ⟨fun k => ?_, ?_, ?_, fun hrun hwanted => ?_⟩
    · intro f new e bank coef ha
      exact exec_of_act hon rfl (cmdWrite_firCoef d src ha)
    · intro new e l f ha hbank
      refine ⟨fun hwanted => ?_, fun hsame => ?_⟩
      · exact exec_of_act hon rfl (cmdWrite_capCtl d src ha hbank (bankRequest_wanted f hwanted))
      · exact exec_of_act hon rfl (cmdWrite_capCtl d src ha hbank (bankRequest_withdrawn f hsame))
    · intro w e ha
      refine exec_of_act hon rfl ?_
      rw [trig_force]
      exact cmdWrite_eff d src 0x100 1 0x101 ha regCodes_capFirCtl (by decide) (by decide) rfl
        (portLive_capFirCtl e Via.direct (d.reg q PORT.CAP_FIR_CTL) (heard d q PORT.CAP_FIR_CTL 0x101 w))
    · exact exec_of_act hon rfl (swapDone_atWord d hrun hwanted)

end Sys2Proof.Machine
end

section
/-! PROOFS. Output ports: the words of the chain, the hold of a span change, and the end of its ramp. -/

namespace Sys2Proof.Machine

open Sys2Proof

variable (d : Dev) {i : Nat}

/-! ### Words at the port die (R136, R137) -/

/-- A running port that drives fetches its next word, notes a missing one, moves its sequence on and drives the sample. -/
theorem outputFetch_running (hdrives : d.drives i = true) (hrun : (d.port i).run = true) (hruns : d.portRuns i = true) :
    d.outputFetch i =
      (let n := (d.port i).oidx
       let t := d.sampTime i n
       let f := (d.reach t).fetch i n
       let e := ((d.reach t).fetchDone i n).fetchNote i t f
       let g := if e.unmutes i n f then e.unmute i t else e.seqStart i n
       let h := ((g.seqStep i).driveSample i n t f).suspRefresh i
       if d.flag (pg .port i) PORT.DIR ∨ d.isLoop i then h.outRotFollow i n else h) :=
  if_pos ⟨hdrives, hrun, hruns⟩

/-! ### Span and mode changes (R146 to R148) -/

/-- The ramp down of a change has driven its last sample, at full attenuation: the hold begins. -/
theorem spanHoldStart_begins (hramp : (d.port i).seq = 4) (hchange : (d.port i).change = true)
    (hstop : (d.port i).stopOn = false) (hold : (d.port i).rampNew = false)
    (hgain : (d.port i).gain.n ≤ (d.port i).gain.a) : d.spanHoldStart i = d.holdBegin i :=
  if_pos ⟨hramp, hchange, hstop, hold, hgain⟩

/-- In LIVE the hold ends with its last sample: the stage takes the live values and the ramp up begins. -/
theorem spanHoldEnd_live (hseq : (d.port i).seq = 5) (hlive : d.st (pg .port i) = 3) (hleft : (d.port i).holdLeft = 0) :
    d.spanHoldEnd i = ((d.stageTakes i).suspendEnd i).startRamp i 6 (d.rampLen i) :=
  (if_pos hseq).trans ((if_pos hlive).trans (if_pos hleft))

/-- Outside LIVE the hold ends once its time has passed, and no ramp follows. -/
theorem spanHoldEnd_timed (hseq : (d.port i).seq = 5) (hlive : d.st (pg .port i) ≠ 3) : d.spanHoldEnd i =
    (let e := (d.pass ((d.port i).holdDue - d.mono)).stageTakes i
     ((e.setPort i { e.port i with spanSeq := false }).suspendEnd i).setSeq i (if d.st (pg .port i) = 2 then 1 else 0)) :=
  (if_pos hseq).trans (if_neg hlive)

/-- The ramp up of a span change has driven its last sample, at full gain: the change is counted and told. -/
theorem spanDone_done (hseq : (d.port i).seq = 6) (hspan : (d.port i).spanSeq = true)
    (hold : (d.port i).rampNew = false) (hgain : (d.port i).gain.a = 0) : d.spanDone i =
    (let q := pg .port i
     let e := (d.setSeq i 3).count q PORT.SPAN_CNT
     (e.setPort i { e.port i with spanSeq := false }).raiseAt q PORT.E_SPAN_DONE (d.sampTime i ((d.port i).oidx - 1))) :=
  if_pos ⟨hseq, hspan, hold, hgain⟩

/-- Settles O24: the port takes the branch its premises choose. -/
theorem outputWordsComplete : Obligations.OutputWordsComplete := by
  unfold Obligations.OutputWordsComplete
  intro s i hon d q o
  refine ⟨fun hdrives hrun hruns => ?_, fun hramp hchange hstop hold hgain => ?_, fun hseq hlive hleft => ?_,
    fun hseq hlive => ?_, fun hseq hspan hold hgain => ?_⟩
  · exact exec_of_act hon rfl (outputFetch_running d hdrives hrun hruns)
  · exact exec_of_act hon rfl (spanHoldStart_begins d hramp hchange hstop hold hgain)
  · exact exec_of_act hon rfl (spanHoldEnd_live d hseq hlive hleft)
  · exact exec_of_act hon rfl (spanHoldEnd_timed d hseq hlive)
  · exact exec_of_act hon rfl (spanDone_done d hseq hspan hold hgain)

end Sys2Proof.Machine
end

section
/-! PROOFS. Output ports: the deviation monitor, the load, the line survey, and the release of the supply-fail mute. -/

namespace Sys2Proof.Machine

open Sys2Proof

variable (d : Dev) {i : Nat}

/-! ### The monitor and the load (R155 to R159) -/

/-- A window of a port that compares is evaluated, unless comparison was suspended in some part of it. -/
theorem devWindow_compares (xs : List MonSample) (hcompares : d.compares i = true) : d.devWindow i xs =
    (let q := pg .port i
     let e := d.suspRefresh i
     let x := devWin (e.fld q PORT.MODE_USE) (e.fld q PORT.SPAN_USE) xs
     if e.flag q PORT.SUSP || (e.port i).suspWin then
       e.setPort i { e.port i with devRun := 0, suspWin := e.flag q PORT.SUSP }
     else (((e.setF q PORT.DEV x.code).devWarn i x).devRot i x).devPersist i x) :=
  if_pos hcompares

/-- While comparison runs, a window of the estimator shows resistance and capacitance and forms the flags; a short of a
voltage output stops it. -/
theorem loadWindow_estimates (uv na ohms pf : Nat) (hf : Bool) (hout : d.flag (pg .port i) PORT.DIR = true)
    (hruns : d.portRuns i = true) (hsusp : d.flag (pg .port i) PORT.SUSP = false) : d.loadWindow i uv na ohms pf hf =
    (let q := pg .port i
     let rv := decide (1000 ≤ uv ∨ 10000 ≤ na)
     let rr := if rv then (if uv < 1000 then 0 else Nat.min ohms 1000000) else 0
     let cv := decide (1000 ≤ uv) && hf
     let cc := if cv then Nat.min pf 200000 else 0
     let e := (d.setReg q PORT.LOAD_R (wd ((if rv then 2 ^ 31 else 0) + rr))).setReg q PORT.LOAD_C
       (wd ((if cv then 2 ^ 31 else 0) + cc))
     let volt := decide (d.fld q PORT.MODE_USE = 1)
     let nothing := volt && decide (10000 ≤ uv ∧ na < 1000)
     let short := rv && decide (rr < 50)
     let heavy := volt && ((rv && decide (rr < 540)) || (cv && decide (11000 < cc)))
     let f := e.loadFlags i ((if nothing then 1 else 0) + (if short then 2 else 0) + (if heavy then 8 else 0))
     if short ∧ volt then f.outFault i 3 else f) :=
  if_pos ⟨hout, hruns, hsusp⟩

theorem ilimitTrip_volt (hout : d.flag (pg .port i) PORT.DIR = true) (hruns : d.portRuns i = true)
    (hvolt : d.fld (pg .port i) PORT.MODE_USE = 1) : d.ilimitTrip i =
      (d.loadFlags i (bitsOf (d.reg (pg .port i) PORT.LOAD_STAT ||| 4) 3 0)).outFault i 2 :=
  if_pos ⟨hout, hruns, hvolt⟩

theorem complianceTrip_curr (hout : d.flag (pg .port i) PORT.DIR = true) (hruns : d.portRuns i = true)
    (hcurr : d.fld (pg .port i) PORT.MODE_USE = 2) : d.complianceTrip i =
      (d.loadFlags i (bitsOf (d.reg (pg .port i) PORT.LOAD_STAT ||| 1) 3 0)).outFault i 4 :=
  if_pos ⟨hout, hruns, hcurr⟩

/-! ### The line survey (R160) -/

/-- `LSV_CTL` holds one field, `LSV_GO`, which is W1S. -/
theorem regCodes_lsvCtl : regCodes .port PORT.LSV_CTL.off = some (0, 1, 0, 1) := by decide

/-- A survey of a port that is not busy begins: the test tone is at the pins for 50 ms. -/
theorem lsvGo_begins (hbusy : d.flag (pg .port i) HDR.BUSY = false) : d.lsvGo i =
    ((d.send (.testTone i true true)).setF (pg .port i) HDR.BUSY 1).setPort i { d.port i with due := d.mono + 50000000 } :=
  if_neg (Bool.eq_false_iff.mp hbusy)

/-- `LSV_CTL` written so that `LSV_GO` rises starts the line survey of its port. -/
theorem portLive_lsvGo (via : Via) {old new : Word} (hgo0 : fieldOf PORT.LSV_GO old = 0)
    (hgo1 : fieldOf PORT.LSV_GO new = 1) : d.portLive i PORT.LSV_CTL.off via old new = d.lsvGo i := by
  unfold Dev.portLive
  rw [if_neg (by decide), if_neg (by decide), if_neg (by decide), if_neg (by decide), if_neg (by decide),
    if_neg (by decide), if_neg (by decide), if_neg (by decide), if_neg (by decide), if_neg (by decide), if_pos rfl]
  exact if_pos ⟨hgo1, hgo0⟩

/-- An accepted `LSV_GO` that rises, on a port that is not busy, begins its survey. -/
theorem cmdWrite_lsvGo (src : Source) {w : Word} (ha : Accepts d src .port i PORT.LSV_CTL.off w)
    (hbusy : (written d (pg .port i) PORT.LSV_CTL 0 1 w).flag (pg .port i) HDR.BUSY = false)
    (hgo0 : fieldOf PORT.LSV_GO (d.reg (pg .port i) PORT.LSV_CTL) = 0)
    (hgo1 : fieldOf PORT.LSV_GO (heard d (pg .port i) PORT.LSV_CTL 1 w) = 1) :
    d.cmdWrite src .port i PORT.LSV_CTL w =
      (let e := written d (pg .port i) PORT.LSV_CTL 0 1 w
       (((e.send (.testTone i true true)).setF (pg .port i) HDR.BUSY 1).setPort i
         { e.port i with due := e.mono + 50000000 }).breakLock .port i PORT.LSV_CTL.off) :=
  cmdWrite_eff d src 0 1 1 ha regCodes_lsvCtl (by decide) (by decide) rfl
    ((portLive_lsvGo _ .direct hgo0 hgo1).trans (lsvGo_begins _ hbusy))

/-- The end of a line survey classifies the line by its impedance and capacitance, and shows the length of cable that the
capacitance stands for. -/
theorem lsvEnd_reports (pf kohm z : Nat) (hgo : d.flag (pg .port i) PORT.LSV_GO = true) : d.lsvEnd i pf kohm z =
    (let q := pg .port i
     let e := (d.pass ((d.port i).due - d.mono)).send (.testTone i true false)
     let status := if z < 50 then 3 else if pf < 50 then 2 else if 200000 < pf then 4 else 1
     let cpm := d.fld q PORT.CPM
     let len := if status = 1 then Nat.min 0xFFFF ((20 * pf + cpm) / (2 * cpm)) else 0
     let f := e.setReg q PORT.LSV_RES (wd (status * 2 ^ 28 + (if status = 1 then pf else 0)))
     let g := f.setReg q PORT.LSV_LEN (wd (Nat.min kohm 1000 * 65536 + len))
     ((g.setF q PORT.LSV_GO 0).setF q HDR.BUSY 0).raise q PORT.E_LSV_END) :=
  if_pos hgo

/-! ### The supply-fail mute (R153, R154) -/

/-- The supply-fail mute of a port is released at time `now`: the sequence behind it shows again, the port returns through
an unmute ramp unless the sequence is silent itself, and the clamp engages only in OFF and FAULT. -/
def Dev.pfOpen (e : Dev) (now k : Nat) : Dev :=
  let q := pg .port k
  let g := ((e.setF q PORT.PF_MUTE 0).unhide k).suspendEnd k
  (g.clamp k (decide (g.st q = 0 ∨ g.st q = 5))).raise q PORT.E_PF_MUTE 0 (nsWord now) (secWord now)

/-- Once the supply no longer fails, no die has a droop and every muted port is released. -/
theorem pfRelease_opens (hpfail : d.flag (pg .pwr 0) PWR.PFAIL = false) : d.pfRelease =
    (List.range 144).foldl (fun (e : Dev) k => if e.flag (pg .port k) PORT.PF_MUTE then e.pfOpen d.now k else e)
      ((List.range 4).foldl (fun (e : Dev) k => e.setF (pg .pdie k) PDIE.DROOP 0) d) :=
  if_neg (Bool.eq_false_iff.mp hpfail)

/-- Settles O25: each window, trip and end of a survey takes the branch its premises choose, and `LSV_GO` is an accepted
command. -/
theorem outputMonitorsComplete : Obligations.OutputMonitorsComplete := by
  unfold Obligations.OutputMonitorsComplete
  refine ⟨fun s i hon => ?_, fun s src i v hon => ?_⟩
  · intro d q
    refine ⟨fun xs hcompares => ?_, fun uv na ohms pf hf hout hruns hsusp => ?_, fun hout hruns hvolt => ?_,
      fun hout hruns hcurr => ?_⟩
    · exact exec_of_act hon rfl (devWindow_compares d xs hcompares)
    · exact exec_of_act hon rfl (loadWindow_estimates d uv na ohms pf hf hout hruns hsusp)
    · exact exec_of_act hon rfl (ilimitTrip_volt d hout hruns hvolt)
    · exact exec_of_act hon rfl (complianceTrip_curr d hout hruns hcurr)
  · intro d q
    refine ⟨?_, fun pf kohm z hgo => ?_, fun hpfail => ?_⟩
    · intro w e ha hbusy hgo0 hgo1 f
      exact exec_of_act hon rfl (cmdWrite_lsvGo d src ha hbusy hgo0 hgo1)
    · exact exec_of_act hon rfl (lsvEnd_reports d pf kohm z hgo)
    · exact exec_of_act hon rfl (pfRelease_opens d hpfail)

end Sys2Proof.Machine
end

section
/-! PROOFS. Rotation of the slices of a group: when a rotation starts, and how a slice handover goes on and ends. -/

namespace Sys2Proof.Machine

open Sys2Proof

variable (d : Dev) {g : Nat}

/-! ### The start of a rotation (R170, R172) -/

/-- A rotation that is due waits for a slice in lay-by where a serving slice may go. -/
theorem rotationDue_waits (hfree : d.rotBarred g = false)
    (hcand : (d.pass ((d.group g).dueAt - d.mono)).rotOldest g ≠ none) : d.rotationDue g =
      (let e := d.pass ((d.group g).dueAt - d.mono)
       (e.setGroup g { e.group g with waits := true }).rotTry g) := by
  obtain ⟨c, hc⟩ := Option.ne_none_iff_exists'.mp hcand
  unfold Dev.rotationDue
  dsimp only
  rw [if_neg (Bool.eq_false_iff.mp hfree), hc]

/-- Where no serving slice may go, the rotation falls due again a period later. -/
theorem rotationDue_skips (hfree : d.rotBarred g = false)
    (hnone : (d.pass ((d.group g).dueAt - d.mono)).rotOldest g = none) : d.rotationDue g =
      (let e := d.pass ((d.group g).dueAt - d.mono)
       e.setGroup g { e.group g with dueAt := e.mono + e.fld (pg .pgrp g) PGRP.ROT_PERIOD * 100000000 }) := by
  unfold Dev.rotationDue
  dsimp only
  rw [if_neg (Bool.eq_false_iff.mp hfree), hnone]

/-- In `HO_REQ`, `PORT` is RW and `GO` is W1S. -/
theorem regCodes_hoReq : regCodes .pgrp PGRP.HO_REQ.off = some (0xf, 0x100, 0, 0x10f) := by decide

/-- `ROT_CTL` holds RW fields alone. -/
theorem regCodes_rotCtl : regCodes .pgrp PGRP.ROT_CTL.off = some (0x80001fff, 0, 0, 0x80001fff) := by decide

/-- `HO_REQ` with `GO` asks for the rotation of its port. -/
theorem grpLive_hoReq (old : Word) {new : Word} (hgo : fieldOf PGRP.GO new = 1) :
    d.grpLive g PGRP.HO_REQ.off old new = d.hoReqStart g := by
  unfold Dev.grpLive
  rw [if_neg (by decide), if_neg (by decide), if_neg (by decide), if_pos rfl, if_pos hgo]

theorem grpLive_rotCtl (old new : Word) : d.grpLive g PGRP.ROT_CTL.off old new = d.freeze g := by
  unfold Dev.grpLive
  rw [if_neg (by decide), if_neg (by decide), if_pos rfl]

/-- A request that nothing bars starts the rotation of its port with the best slice in lay-by. -/
theorem hoReqStart_starts {k old kind new : Nat} (hfree : d.rotBarred g = false) (hasked : d.hoAsked g = some (k, old, kind))
    (hbest : d.bestIn g 0 = some new) : d.hoReqStart g = d.rotStart g k old new kind := by
  unfold Dev.hoReqStart
  rw [if_neg (Bool.eq_false_iff.mp hfree), hasked, hbest]

/-- A request waits where rotation is barred, its port has no slice to give, or no slice is ready. -/
theorem hoReqStart_waits (h : d.rotBarred g = true ∨ d.hoAsked g = none ∨ d.bestIn g 0 = none) : d.hoReqStart g = d := by
  unfold Dev.hoReqStart
  split
  · rfl
  · next hfree =>
    split
    · next hasked hbest =>
      rcases h with hbarred | hnone | hnone
      · exact absurd hbarred hfree
      · rw [hasked] at hnone; cases hnone
      · rw [hbest] at hnone; cases hnone
    · rfl

/-- An accepted `HO_REQ` with `GO` is stored, and its request is taken up. -/
theorem cmdWrite_hoReq (src : Source) {w : Word} {x : Dev} (ha : Accepts d src .pgrp g PGRP.HO_REQ.off w)
    (hgo : fieldOf PGRP.GO (heard d (pg .pgrp g) PGRP.HO_REQ 0x10f w) = 1)
    (hx : (written d (pg .pgrp g) PGRP.HO_REQ 0xf 0x100 w).hoReqStart g = x) :
    d.cmdWrite src .pgrp g PGRP.HO_REQ w = x.breakLock .pgrp g PGRP.HO_REQ.off :=
  cmdWrite_eff d src 0xf 0x100 0x10f ha regCodes_hoReq (by decide) (by decide) rfl ((grpLive_hoReq _ _ hgo).trans hx)

/-- An accepted `ROT_CTL` is stored, and freezes or frees the rotation of its group. -/
theorem cmdWrite_rotCtl (src : Source) {w : Word} (ha : Accepts d src .pgrp g PGRP.ROT_CTL.off w) :
    d.cmdWrite src .pgrp g PGRP.ROT_CTL w =
      ((written d (pg .pgrp g) PGRP.ROT_CTL 0x80001fff 0 w).freeze g).breakLock .pgrp g PGRP.ROT_CTL.off :=
  cmdWrite_eff d src 0x80001fff 0 0x80001fff ha regCodes_rotCtl (by decide) (by decide) rfl (grpLive_rotCtl ..)

/-! ### A slice handover in flight (R174 to R180) -/

/-- The words of the comparison window judge a handover that is not deferred. -/
theorem hoCompare_judges {r : Rot} (ws : List (Int × Int)) (hrot : (d.group g).rot = some r) (hearly : r.phase ≤ 3)
    (hstop : r.stopped = false) (hdefer : r.defer = none) : d.hoCompare g ws =
      (d.reach (d.hoTime (g * 9 + r.port) r.kind r.result)).cmpResult g { r with phase := 3 } (cmpWords ws) := by
  unfold Dev.hoCompare
  rw [hrot]
  exact if_pos ⟨hearly, hstop, hdefer⟩

/-- A deferred handover is judged again on each further block. -/
theorem hoDeferBlock_judges {r : Rot} (ws : List (Int × Int)) (hrot : (d.group g).rot = some r) (hearly : r.phase ≤ 3)
    (hdefer : r.defer ≠ none) : d.hoDeferBlock g ws =
      (if r.stopped then d else d.reach (d.hoTime (g * 9 + r.port) r.kind r.result)).cmpResult g r (cmpWords ws) := by
  unfold Dev.hoDeferBlock
  rw [hrot]
  exact if_pos ⟨hearly, Option.isSome_iff_ne_none.mpr hdefer⟩

/-- A handover deferred for `DEFER_MAX` ends with outcome 2. -/
theorem hoDeferTimeout_ends {r : Rot} {t : Nat} (hrot : (d.group g).rot = some r) (hdefer : r.defer = some t)
    (hearly : r.phase ≤ 3) : d.hoDeferTimeout g =
      ((d.pass (t + d.fld (pg .pgrp g) PGRP.DEFER_MAX * 100000000 - d.mono)).endRot g 2 0).sliceFreed g := by
  unfold Dev.hoDeferTimeout
  simp only [hrot, hdefer]
  exact if_pos hearly

/-- A handover in Drain whose crossfade is over ends with outcome 0. -/
theorem xfadeEnd_ends {r : Rot} (hrot : (d.group g).rot = some r) (hdrain : r.phase = 6) (hover : d.xfadeOver g r = true) :
    d.xfadeEnd g = (d.endRot g 0 0).sliceFreed g := by
  unfold Dev.xfadeEnd
  rw [hrot]
  exact if_pos ⟨hdrain, hover⟩

/-! ### Failing slices and repairs (R186, R187) -/

/-- A slice that is not retired is told with the port it serves, and acted on by the state it is in. -/
theorem sliceFail_acts {sl : Nat} (det : SliceDetector) (hin : d.slState g sl ≠ 7) : d.sliceFail g sl det =
    (let p := pg .pgrp g
     let st := d.slState g sl
     let code := detCode det
     let port := if st = 2 ∨ st = 3 ∨ st = 5 then g * 9 + d.fld p (PGRP.SLICE_MAP_PORT.at sl) else 255
     let e := d.raiseH p PGRP.E_SLICE_FAIL (wd (port * 65536 + (g * 10 + sl))) (wd (code - 5))
     (if st = 4 then e.incomingFails g sl code
       else if st = 5 then e.outgoingFails g sl code
       else if st = 2 ∨ st = 3 then
         if d.drainingNew g sl then e.endRot g 4 code else e.repStart g sl (st - 1) code
       else e.suspect g sl code).refreshGroup g) :=
  if_neg hin

/-- With no rotation in its group, a repair that has no replacement is taken up. -/
theorem repairResume_takes {r : Rep} (hrep : (d.group g).reps.find? (fun r => r.new.isNone && !r.again) = some r)
    (hrot : (d.group g).rot = none) : d.repairResume g = d.repTake g r := by
  unfold Dev.repairResume
  rw [hrep, hrot]

/-- Settles O27: a rotation takes the branch its premises choose, and `HO_REQ` and `FREEZE` are accepted commands. -/
theorem rotationCommandsComplete : Obligations.RotationCommandsComplete := by
  unfold Obligations.RotationCommandsComplete
  refine ⟨fun s src g hon => ?_, fun s g hon => ?_⟩
  · intro d p
    refine ⟨fun hfree => ?_, fun port => ?_, fun v => ?_⟩
    · intro e
      refine ⟨fun hcand => ?_, fun hnone => ?_⟩
      · exact exec_of_act hon rfl (rotationDue_waits d hfree hcand)
      · exact exec_of_act hon rfl (rotationDue_skips d hfree hnone)
    · intro w ha hgo e
      refine ⟨fun k old kind new hfree hasked hbest => ?_, fun hwaits => ?_⟩
      · exact exec_of_act hon rfl (cmdWrite_hoReq d src ha hgo (hoReqStart_starts e hfree hasked hbest))
      · exact exec_of_act hon rfl (cmdWrite_hoReq d src ha hgo (hoReqStart_waits e hwaits))
    · intro w ha
      exact exec_of_act hon rfl (cmdWrite_rotCtl d src ha)
  · intro d p
    refine ⟨fun r ws hrot hearly hstop hdefer => ?_, fun r ws hrot hearly hdefer => ?_,
      fun r t hrot hdefer hearly => ?_, fun r hrot hdrain hover => ?_, fun sl det hin => ?_, fun r hrep hrot => ?_⟩
    · exact exec_of_act hon rfl (hoCompare_judges d ws hrot hearly hstop hdefer)
    · exact exec_of_act hon rfl (hoDeferBlock_judges d ws hrot hearly hdefer)
    · exact exec_of_act hon rfl (hoDeferTimeout_ends d hrot hdefer hearly)
    · exact exec_of_act hon rfl (xfadeEnd_ends d hrot hdrain hover)
    · exact exec_of_act hon rfl (sliceFail_acts d det hin)
    · exact exec_of_act hon rfl (repairResume_takes d hrep hrot)

end Sys2Proof.Machine
end

section
/-! PROOFS. Calibration of a slice, the checks of a die's reference and tone, and the age of a slice. -/

namespace Sys2Proof.Machine

open Sys2Proof

variable (d : Dev)

/-! ### Steps of a calibration (R165, R184, R193) -/

/-- The running step of a slice has lasted its time; a quick check is over with a step that fails and with step 3. -/
def Dev.stepOver (d : Dev) (g sl : Nat) (pass : Bool) : Dev :=
  let e := d.pass ((d.slice g sl).stepDue - d.mono)
  if (d.slice g sl).boot ∧ (pass = false ∨ d.fld (pg .pgrp g) (PGRP.STEP.at sl) = 3) then
    e.setSlice g sl { e.slice g sl with boot := false }
  else e

/-- A step that passes adds its results to the trims that the slice will take: step 1 begins from the registers of `d`, and
the later ones go on from the step before. -/
def Dev.stepTrims (e d : Dev) (g sl : Nat) (adc dac : Word) : Dev :=
  let p := pg .pgrp g
  let step := d.fld p (PGRP.STEP.at sl)
  let v := e.slice g sl
  e.setSlice g sl { v with
    newAdc := stepTrim step (if step = 1 then d.reg p (PGRP.SLICE_TRIM_ADC.at sl) else v.newAdc) adc,
    newDac := stepTrim step (if step = 1 then d.reg p (PGRP.SLICE_TRIM_DAC.at sl) else v.newDac) dac }

/-- A quick check after power-up that passes step 3 leaves its slice ready. -/
theorem calStepDone_quick {g sl : Nat} (adc dac : Word) (hboot : (d.slice g sl).boot = true)
    (hstep : d.fld (pg .pgrp g) (PGRP.STEP.at sl) = 3) : d.calStepDone g sl true adc dac =
      (((((d.stepOver g sl true).setSl g sl 0 15).calStep g sl 0).refreshGroup g).sliceFreed g).calsDone :=
  (if_neg (by omega)).trans (if_pos ⟨rfl, hboot, hstep⟩)

/-- A step of a calibration that passes takes its trims, and then the next step begins or the calibration is done. -/
theorem calStepDone_passes {g sl : Nat} (adc dac : Word) (hstep : d.fld (pg .pgrp g) (PGRP.STEP.at sl) ≠ 0)
    (hboot : (d.slice g sl).boot = false) : d.calStepDone g sl true adc dac =
      (let f := (d.stepOver g sl true).stepTrims d g sl adc dac
       match f.nextStep g sl (d.fld (pg .pgrp g) (PGRP.STEP.at sl)) with
       | some n => f.calStep g sl n
       | none => f.calDone g sl) :=
  (if_neg hstep).trans ((if_neg fun h => Bool.eq_false_iff.mp hboot h.2.1).trans (if_pos rfl))

/-- A passed step that another one follows: the next step begins. -/
theorem calStepDone_next {g sl n : Nat} (adc dac : Word) (hstep : d.fld (pg .pgrp g) (PGRP.STEP.at sl) ≠ 0)
    (hboot : (d.slice g sl).boot = false)
    (hnext : ((d.stepOver g sl true).stepTrims d g sl adc dac).nextStep g sl (d.fld (pg .pgrp g) (PGRP.STEP.at sl)) = some n) :
    d.calStepDone g sl true adc dac = ((d.stepOver g sl true).stepTrims d g sl adc dac).calStep g sl n := by
  rw [calStepDone_passes d adc dac hstep hboot]
  dsimp only
  rw [hnext]

/-- The last step of a calibration passed: the calibration is done. -/
theorem calStepDone_last {g sl : Nat} (adc dac : Word) (hstep : d.fld (pg .pgrp g) (PGRP.STEP.at sl) ≠ 0)
    (hboot : (d.slice g sl).boot = false)
    (hlast : ((d.stepOver g sl true).stepTrims d g sl adc dac).nextStep g sl (d.fld (pg .pgrp g) (PGRP.STEP.at sl)) = none) :
    d.calStepDone g sl true adc dac = ((d.stepOver g sl true).stepTrims d g sl adc dac).calDone g sl := by
  rw [calStepDone_passes d adc dac hstep hboot]
  dsimp only
  rw [hlast]

/-- A step that fails retires a slice given from outside and makes any other SUSPECT. -/
theorem calStepDone_fails {g sl : Nat} (adc dac : Word) (hstep : d.fld (pg .pgrp g) (PGRP.STEP.at sl) ≠ 0) :
    d.calStepDone g sl false adc dac =
      (let e := d.stepOver g sl false
       let step := d.fld (pg .pgrp g) (PGRP.STEP.at sl)
       ((if (d.slice g sl).ext then e.retire g sl (if step = 6 then 10 else step)
         else e.suspect g sl (if step = 6 then 10 else step)).refreshGroup g).calsDone) :=
  (if_neg hstep).trans ((if_neg fun h => Bool.false_ne_true h.1).trans (if_neg Bool.false_ne_true))

/-! ### The checks of a die's reference and tone (R169) -/

theorem refCheck_goodHeld {k : Nat} {ppm : Int} (hgood : ppm.natAbs ≤ 500)
    (hhold : d.flag (pg .pgrp (k * 4)) PGRP.REF_HOLD = true) : d.refCheck k ppm =
      (let e := d.setF (pg .pdie k) PDIE.REF_DEV (scode 16 ppm)
       e.setDie k { e.die k with refGood := some ((e.die k).refGood.getD e.mono) }) :=
  (if_pos (decide_eq_true hgood)).trans (if_pos hhold)

theorem refCheck_goodFree {k : Nat} {ppm : Int} (hgood : ppm.natAbs ≤ 500)
    (hfree : d.flag (pg .pgrp (k * 4)) PGRP.REF_HOLD = false) : d.refCheck k ppm =
      (let p := pg .pdie k
       let e := d.setF p PDIE.REF_DEV (scode 16 ppm)
       ((e.setF p PDIE.REF_OK 1).setDie k { e.die k with refFirst := false }).audioReady) :=
  (if_pos (decide_eq_true hgood)).trans (if_neg (Bool.eq_false_iff.mp hfree))

/-- The reference of a die is shown as bad: its deviation stands, and no 10 s of a good one are counted. -/
def Dev.refBad (d : Dev) (k : Nat) (ppm : Int) : Dev :=
  let p := pg .pdie k
  let e := d.setF p PDIE.REF_DEV (scode 16 ppm)
  (e.setF p PDIE.REF_OK 0).setDie k { e.die k with refGood := none }

theorem refCheck_badHeld {k : Nat} {ppm : Int} (hbad : 500 < ppm.natAbs)
    (hhold : d.flag (pg .pgrp (k * 4)) PGRP.REF_HOLD = true) : d.refCheck k ppm = d.refBad k ppm :=
  (if_neg (by simp [hbad])).trans (if_pos hhold)

/-- A reference that turns bad is reported, holds the rotation of the die's groups and restarts their calibration. -/
theorem refCheck_badFree {k : Nat} {ppm : Int} (hbad : 500 < ppm.natAbs)
    (hfree : d.flag (pg .pgrp (k * 4)) PGRP.REF_HOLD = false) : d.refCheck k ppm =
      (dieGroups k).foldl (fun (x : Dev) g => (x.setF (pg .pgrp g) PGRP.REF_HOLD 1).calRestart g)
        ((d.refBad k ppm).raise (pg .pdie k) PDIE.E_REF_FAULT) :=
  (if_neg (by simp [hbad])).trans (if_neg (Bool.eq_false_iff.mp hfree))

/-- A reference that was good for 10 s during a hold ends the hold, and the slices in lay-by of the die start again. -/
theorem refOk_releases {k t : Nat} (hgood : (d.die k).refGood = some t)
    (hhold : d.flag (pg .pgrp (k * 4)) PGRP.REF_HOLD = true) : d.refOk k =
      (let p := pg .pdie k
       let e := d.pass (t + 10000000000 - d.mono)
       let f := ((e.setDie k { e.die k with refGood := none, refFirst := false }).setF p PDIE.REF_OK 1).raise p PDIE.E_REF_OK
       ((dieGroups k).foldl (fun (x : Dev) g => (x.setF (pg .pgrp g) PGRP.REF_HOLD 0).laybyRestart g) f).audioReady) := by
  unfold Dev.refOk
  dsimp only
  rw [hgood]
  exact if_pos hhold

theorem toneCheck_good {k thd : Nat} (hgood : 1300 < thd) : d.toneCheck k thd =
    (let p := pg .pdie k
     let e := d.setF p PDIE.TONE_THD (Nat.min thd 1600)
     ((e.setF p PDIE.TONE_OK 1).setDie k { e.die k with toneFault := false }).audioReady) :=
  if_pos hgood

/-- A bad tone that has been told is shown and not told again. -/
theorem toneCheck_stillBad {k thd : Nat} (hbad : thd ≤ 1300) (htold : (d.die k).toneFault = true) : d.toneCheck k thd =
    (d.setF (pg .pdie k) PDIE.TONE_THD (Nat.min thd 1600)).setF (pg .pdie k) PDIE.TONE_OK 0 :=
  (if_neg (by omega)).trans (if_pos htold)

theorem toneCheck_turnsBad {k thd : Nat} (hbad : thd ≤ 1300) (hnew : (d.die k).toneFault = false) : d.toneCheck k thd =
    (let p := pg .pdie k
     let e := d.setF p PDIE.TONE_THD (Nat.min thd 1600)
     ((e.setF p PDIE.TONE_OK 0).setDie k { e.die k with toneFault := true }).raise p PDIE.E_TONE_FAULT) :=
  (if_neg (by omega)).trans (if_neg (Bool.eq_false_iff.mp hnew))

/-! ### The age of a calibration (R191) -/

/-- A serving slice that passes `AGE_MAX` is told once. -/
theorem calStale_tells {g sl : Nat} (hserves : d.slState g sl = 2 ∨ d.slState g sl = 3 ∨ d.slState g sl = 5)
    (hfresh : (d.slice g sl).stale = false) (hold : d.fld (pg .pgrp g) PGRP.AGE_MAX * 10 < d.sliceAge g sl) :
    d.calStale g sl = (d.setSlice g sl { d.slice g sl with stale := true }).raise (pg .pgrp g) PGRP.E_CAL_STALE
      (globalSlice g sl) (d.sliceCalWord g sl) :=
  if_pos ⟨hserves, hfresh, hold⟩

/-- Settles O26: each step, check and age takes the branch its premises choose. -/
theorem calibrationCompletes : Obligations.CalibrationCompletes := by
  unfold Obligations.CalibrationCompletes
  intro s hon d
  refine ⟨fun g sl pass adc dac => ?_, fun k ppm => ?_, fun k t hgood hhold => ?_, fun k thd => ?_,
    fun g sl hserves hfresh hold => ?_⟩
  · intro p step quick dq e hstep
    refine ⟨fun hpass hquick hlast => ?_, fun hpass hquick => ?_, fun hpass => ?_⟩ <;> subst hpass
    · exact exec_of_act hon rfl (calStepDone_quick d adc dac hquick hlast)
    · intro v f
      refine ⟨fun n hnext => ?_, fun hlast => ?_⟩
      · exact exec_of_act hon rfl (calStepDone_next d adc dac hstep hquick hnext)
      · exact exec_of_act hon rfl (calStepDone_last d adc dac hstep hquick hlast)
    · exact exec_of_act hon rfl (calStepDone_fails d adc dac hstep)
  · intro p e hold
    refine ⟨fun hgood hhold => ?_, fun hgood hfree => ?_, fun hbad => ⟨fun hhold => ?_, fun hfree => ?_⟩⟩
    · exact exec_of_act hon rfl (refCheck_goodHeld d hgood hhold)
    · exact exec_of_act hon rfl (refCheck_goodFree d hgood hfree)
    · exact exec_of_act hon rfl (refCheck_badHeld d hbad hhold)
    · exact exec_of_act hon rfl (refCheck_badFree d hbad hfree)
  · exact exec_of_act hon rfl (refOk_releases d hgood hhold)
  · intro p e
    refine ⟨fun hgood => ?_, fun hbad htold => ?_, fun hbad hnew => ?_⟩
    · exact exec_of_act hon rfl (toneCheck_good d hgood)
    · exact exec_of_act hon rfl (toneCheck_stillBad d hbad htold)
    · exact exec_of_act hon rfl (toneCheck_turnsBad d hbad hnew)
  · exact exec_of_act hon rfl (calStale_tells d hserves hfresh hold)

end Sys2Proof.Machine
end

section
/-! PROOFS. A tile region beside its instructions: stream words, row walks, auto-doze, failures, length changes and window writes. -/

namespace Sys2Proof.Machine

open Sys2Proof

variable (d : Dev) {r : Nat}

/-! ### A command of the tile clock -/

/-- An instruction of a tile runs where the tile clock runs, and what follows every command follows it. -/
theorem exec_of_actTile {s : State} (hon : s.dev.tilesOn = true) {c : Instr} {f : Dev → Dev} {e : Dev}
    (hc : exec c s = actTile f s) (he : f s.dev.quiet = e) : exec c s = .next (after s e) := by
  rw [hc, actTile_on f hon, he]

/-! ### Stream words (R224, R249) -/

section StreamWord

variable {t port : Nat} (w : FlowWord)

/-- A word that its port's binding takes goes into the FIFO in its place; a tile that waited for input goes on, and the
region's clock runs again. -/
theorem streamWord_taken
    (h : (let u := d.tile (d.loc (t / 256) (t % 256 / 16) (t % 16))
      bindTakes (u.strmReg port) w && decide ((u.inq port).length < 32)) = true) : d.streamWord t port w =
    (let L := d.loc (t / 256) (t % 256 / 16) (t % 16)
     let u := d.tile L
     let y := u.setInq port (flowIns w (u.inq port))
     (d.setTile L (if y.stall = .input then { y with stall := .none } else y)).setF (tregPg (t / 256)) TREG.DOZING 0) :=
  if_pos h

/-- A word that the binding does not take, or that finds the FIFO full, changes nothing. -/
theorem streamWord_left
    (h : (let u := d.tile (d.loc (t / 256) (t % 256 / 16) (t % 16))
      bindTakes (u.strmReg port) w && decide ((u.inq port).length < 32)) = false) : d.streamWord t port w = d :=
  if_neg (Bool.eq_false_iff.mp h)

end StreamWord

/-! ### Auto-doze and failing tiles (R221, R224) -/

/-- The clock of a region that may doze stops when every tile rests. -/
theorem autodoze_enters
    (hmay : d.flag (tregPg r) TREG.AUTODOZE_EN = true ∨ d.pwrState (tregPg r) = 1)
    (hawake : d.flag (tregPg r) TREG.DOZING = false)
    (hrest : (List.range 256).all (fun k => d.tileRests r (k / 16) (k % 16)) = true) :
    d.autodoze r = (d.setF (tregPg r) TREG.DOZING 1).count (tregPg r) TREG.DOZE_CNT := by
  refine if_pos ?_
  rw [Bool.and_eq_true, Bool.and_eq_true, Bool.or_eq_true, decide_eq_true_iff, hawake]
  exact ⟨⟨hmay, rfl⟩, hrest⟩

/-- A failing tile of a column that has not failed yet: a handover in Drain into the column ends first, a repair of it is
lost, and the column fails and takes the spare where it can. -/
theorem tileFail_fails {t : Nat} (det : TileDetector) (hst : d.colSt (t / 256) (t % 256 / 16) ≠ 2) : d.tileFail t det =
    (let c := t % 256 / 16
     let e := match d.dstMove (t / 256) c with | some e => (if 5 ≤ e.2.phase then d.moveFinish e.1 else d) | none => d
     let f := ((e.colRepairLost (t / 256) c 0).colFail (t / 256) c (t % 16) det).takeSpare (t / 256) c
     f.1.failFollow (t / 256) c (e.phys (t / 256) c) f.2) :=
  if_neg hst

/-! ### Length changes (R211, R231) -/

/-- The first word of a `LEN_CHG` entry holds RW fields alone. -/
theorem regCodes_lenChg (k : Fin 16) :
    regCodes .treg (TREG.LEN_CHG.at k).off = some (0x8000ff07, 0, 0, 0x8000ff07) := by
  revert k; decide

theorem lenChg_off (k : Nat) : (TREG.LEN_CHG.at k).off = 0x140 + 8 * k := rfl

/-- The offset of an entry is that of its own first word, and of no column register. -/
theorem inArr_lenChg (k : Fin 16) : inArr TREG.RUN 16 (TREG.LEN_CHG.at k).off = false ∧
    inArr TREG.VALID 16 (TREG.LEN_CHG.at k).off = true ∧ arrIdx TREG.VALID (TREG.LEN_CHG.at k).off = k := by
  revert k; decide

/-- An entry that becomes live with `VALID` acts. -/
theorem tregLive_lenChg (k : Fin 16) (old : Word) {new : Word} (hv : fieldOf TREG.VALID new = 1) :
    d.tregLive r (TREG.LEN_CHG.at k).off old new = d.lenChg r k new := by
  obtain ⟨hrun, hvalid, hidx⟩ := inArr_lenChg k
  unfold Dev.tregLive
  rw [hrun, hvalid, hidx, if_neg Bool.false_ne_true, if_pos rfl, if_pos hv]

/-- An accepted entry with `VALID` is stored, and its request is made. -/
theorem cmdWrite_lenChg (src : Source) (k : Fin 16) {w : Word}
    (ha : Accepts d src .treg r (TREG.LEN_CHG.at k).off w)
    (hv : fieldOf TREG.VALID (heard d (pg .treg r) (TREG.LEN_CHG.at k) 0x8000ff07 w) = 1) :
    d.cmdWrite src .treg r (TREG.LEN_CHG.at k) w =
      ((written d (pg .treg r) (TREG.LEN_CHG.at k) 0x8000ff07 0 w).lenChg r k
        (heard d (pg .treg r) (TREG.LEN_CHG.at k) 0x8000ff07 w)).breakLock .treg r (TREG.LEN_CHG.at k).off := by
  have ho := lenChg_off k
  exact cmdWrite_eff d src 0x8000ff07 0 0x8000ff07 ha (regCodes_lenChg k) (by omega)
    ⟨Cls.noConfusion, .inl Cls.noConfusion⟩ rfl (tregLive_lenChg _ k _ hv)

/-- A tile acts on the oldest of its requests. -/
theorem lenRequestAct_acts {t : Nat} {q : Nat × Nat} {rest : List (Nat × Nat)}
    (hq : (d.tile (d.loc (t / 256) (t % 256 / 16) (t % 16))).reqs = q :: rest) : d.lenRequestAct t =
    (let L := d.loc (t / 256) (t % 256 / 16) (t % 16)
     (d.setTile L { d.tile L with reqs := rest }).lenActs (t / 256) L q.1 q.2) := by
  unfold Dev.lenRequestAct
  dsimp only
  rw [hq]

/-! ### Window writes (R229) -/

/-- A dword of a tile's window, where the tile regions answer. -/
theorem busWrite_window (src : Source) {t off : Nat} (v : Word) (full : Bool) (e : EccEvent) (ht : t < 4096)
    (ho : off < 0x4000) (h4 : off % 4 = 0) (ha : d.answers .treg = true) :
    d.busWrite src (0x4000000 + t * 0x4000 + off) v full e = d.writeTile src t off v full e := by
  have htile : (0x4000000 + t * 0x4000 + off - 0x4000000) / 0x4000 = t := by omega
  have hoff : (0x4000000 + t * 0x4000 + off) % 0x4000 = off := by omega
  unfold Dev.busWrite
  rw [if_neg (by omega), if_pos (by omega), if_pos ha, htile, hoff]

/-- A write of a listed dword of the window that no cause refuses stores. -/
theorem writeTile_stores (src : Source) {t off : Nat} (v : Word) (e : EccEvent) (hl : winListed off = true)
    (hc : d.winCause src t off v
      (decide (0x20D0 ≤ off ∧ off < 0x20E0) && d.strmRefused t ((off - 0x20D0) / 4) v) = none) :
    (d.writeTile src t off v true e).1 = d.winStore (t / 256) (t % 256 / 16) (t % 16) off v e := by
  have hlisted : ¬ winListed off = false := by simp [hl]
  unfold Dev.writeTile
  rw [if_neg hlisted, if_neg (by decide)]
  unfold Dev.winAccess
  dsimp only
  rw [if_neg hlisted, hc]

/-- Settles O31: each command of the region takes the branch its premises choose; the walk is told by its memory. -/
theorem tileRegionCompletes : Obligations.TileRegionCompletes := by
  unfold Obligations.TileRegionCompletes
  intro s t hon d r c L u
  refine ⟨fun port ch ts w marker poison => ?_, fun n p row mem e => ?_, fun n hmay hawake hrest => ?_,
    fun det hst => ?_, fun src n k v => ?_, fun htiles q rest hq => ?_, fun src k v e hanswers hlisted hcause => ?_⟩
  · intro fw takes
    refine ⟨fun htakes => ?_, fun hleft => ?_⟩
    · exact exec_of_act hon rfl (streamWord_taken d fw htakes)
    · exact exec_of_act hon rfl (streamWord_left d fw hleft)
  · refine exec_of_act hon rfl ?_
    cases mem with
    | data => rfl
    | coef => rfl
    | instr => rfl
  · exact exec_of_act hon rfl (autodoze_enters d hmay hawake hrest)
  · exact exec_of_act hon rfl (tileFail_fails d det hst)
  · intro f w new e g ha hvalid
    exact exec_of_act hon rfl (cmdWrite_lenChg d src k ha hvalid)
  · exact exec_of_actTile htiles rfl (lenRequestAct_acts d hq)
  · have hk : 4 * k.val < 0x4000 := by omega
    refine exec_of_act hon rfl ?_
    rw [busWrite_window _ src v true e t.isLt hk (by omega) hanswers]
    exact writeTile_stores d src v e hlisted hcause

end Sys2Proof.Machine
end

section
/-! PROOFS. Columns of tiles: their runs, the handovers of tile segments, and the repair of a column. -/

namespace Sys2Proof.Machine

open Sys2Proof

variable (d : Dev) {r : Nat}

/-! ### Runs of a column (R230) -/

/-- `COL_CTL` holds RW fields alone. -/
theorem regCodes_colCtl (c : Fin 16) :
    regCodes .treg (TREG.COL_CTL.at c).off = some (0xffff0701, 0, 0, 0xffff0701) := by
  revert c; decide

theorem colCtl_off (c : Nat) : (TREG.COL_CTL.at c).off = 0x80 + 4 * c := rfl

theorem inArr_colCtl (c : Fin 16) :
    inArr TREG.RUN 16 (TREG.COL_CTL.at c).off = true ∧ arrIdx TREG.RUN (TREG.COL_CTL.at c).off = c := by
  revert c; decide

theorem tregLive_colCtl (c : Fin 16) (old new : Word) :
    d.tregLive r (TREG.COL_CTL.at c).off old new = d.colCtl r c old new := by
  obtain ⟨hrun, hidx⟩ := inArr_colCtl c
  unfold Dev.tregLive
  rw [hrun, hidx, if_pos rfl]

theorem colCtl_starts {c : Nat} {old new : Word} (hwas : fieldOf TREG.RUN old = 0) (hruns : fieldOf TREG.RUN new = 1)
    (hidle : d.colSt r c = 0) : d.colCtl r c old new = d.colStart r c :=
  (if_neg (by omega)).trans (if_pos ⟨hwas, hruns, hidle⟩)

theorem colCtl_halts {c : Nat} {old new : Word} (hwas : fieldOf TREG.RUN old = 1) (hruns : fieldOf TREG.RUN new = 0)
    (hrunning : d.colSt r c = 1) : d.colCtl r c old new = d.colHalt r c :=
  (if_neg (by omega)).trans ((if_neg (by omega)).trans (if_pos ⟨hwas, hruns, hrunning⟩))

/-- An accepted `COL_CTL` is stored, and its column hears of it. -/
theorem cmdWrite_colCtl (src : Source) (c : Fin 16) {v : Word} {x : Dev}
    (ha : Accepts d src .treg r (TREG.COL_CTL.at c).off v)
    (hx : (written d (pg .treg r) (TREG.COL_CTL.at c) 0xffff0701 0 v).colCtl r c
      (d.raw (pg .treg r + (TREG.COL_CTL.at c).off)) (heard d (pg .treg r) (TREG.COL_CTL.at c) 0xffff0701 v) = x) :
    d.cmdWrite src .treg r (TREG.COL_CTL.at c) v = x.breakLock .treg r (TREG.COL_CTL.at c).off := by
  have ho := colCtl_off c
  exact cmdWrite_eff d src 0xffff0701 0 0xffff0701 ha (regCodes_colCtl c) (by omega)
    ⟨Cls.noConfusion, .inl Cls.noConfusion⟩ rfl ((tregLive_colCtl _ c _ _).trans hx)

/-! ### The commands of a handover (R256, R263) -/

/-- In `MOVE_CTL`, `GO` and `ABORT` are W1S and the other fields RW. -/
theorem regCodes_moveCtl :
    regCodes .treg TREG.MOVE_CTL.off = some (0x3ffff001, 0xc0000000, 0, 0xfffff001) := by decide

theorem tregLive_moveCtl (old new : Word) : d.tregLive r TREG.MOVE_CTL.off old new = d.moveCtl r old new := by
  unfold Dev.tregLive
  rw [if_neg (by decide), if_neg (by decide), if_neg (by decide), if_neg (by decide), if_pos rfl]

theorem moveCtl_go {old new : Word} (hold : fieldOf TREG.GO old = 0) (hgo : fieldOf TREG.GO new = 1)
    (habort : fieldOf TREG.ABORT new = 0) : d.moveCtl r old new = d.moveGo r :=
  (if_neg (by omega)).trans (if_pos ⟨hgo, hold⟩)

theorem moveCtl_abort {old new : Word} (hgo : ¬ (fieldOf TREG.GO new = 1 ∧ fieldOf TREG.GO old = 0))
    (habort : fieldOf TREG.ABORT new = 1) : d.moveCtl r old new = d.moveCancel r := by
  unfold Dev.moveCtl
  dsimp only
  rw [if_neg hgo, if_pos habort]

/-- An accepted `MOVE_CTL` is stored, and the handover of its region hears of it. -/
theorem cmdWrite_moveCtl (src : Source) {w : Word} {x : Dev} (ha : Accepts d src .treg r TREG.MOVE_CTL.off w)
    (hx : (written d (pg .treg r) TREG.MOVE_CTL 0x3ffff001 0xc0000000 w).moveCtl r
      (d.raw (pg .treg r + TREG.MOVE_CTL.off)) (heard d (pg .treg r) TREG.MOVE_CTL 0xfffff001 w) = x) :
    d.cmdWrite src .treg r TREG.MOVE_CTL w = x.breakLock .treg r TREG.MOVE_CTL.off :=
  cmdWrite_eff d src 0x3ffff001 0xc0000000 0xfffff001 ha regCodes_moveCtl (by decide) (by decide) rfl
    ((tregLive_moveCtl ..).trans hx)

/-! ### A handover in flight (R258, R259, R262) -/

section Move

variable {d} {m : Move} (hm : d.move? r = some m)
include hm

/-- A comparison that every bound port has finished shows what it counted, and binds or aborts by it. -/
theorem moveCompare_ends (hphase : m.phase = 3) (hcompares : m.compares = true)
    (hdone : cmpDone m.cmps (d.movePorts m) (d.moveLim r) = true) : d.moveCompare r =
    (let k := cmpTotals m.cmps
     let n := { m with compared := k.1, mismatch := k.2 }
     let e := (d.setF (tregPg r) TREG.MISMATCH (Nat.min k.2 0xFFFF)).setMove r n
     if k.2 = 0 then e.moveBind r n else e.moveAbort r 1) := by
  unfold Dev.moveCompare
  rw [hm]
  exact if_pos ⟨hphase, hcompares, hdone⟩

/-- A comparison goes on while some port has words left to compare. -/
theorem moveCompare_waits (hleft : cmpDone m.cmps (d.movePorts m) (d.moveLim r) = false) : d.moveCompare r = d := by
  unfold Dev.moveCompare
  rw [hm]
  exact if_neg fun ⟨_, _, hdone⟩ => Bool.eq_false_iff.mp hleft hdone

/-- A port that emits no word for 100 ms of the comparison ends the handover. -/
theorem moveSilent_aborts {t : Nat} (hphase : m.phase = 3) (hcompares : m.compares = true)
    (ht : cmpSilent m.cmps (d.movePorts m) (d.moveLim r) m.cmpAt = some t) :
    d.moveSilent r = (d.pass (t + 100000000 - d.mono)).moveAbort r 2 := by
  unfold Dev.moveSilent
  simp only [hm, ht]
  exact if_pos ⟨hphase, hcompares⟩

/-- A handover that has waited 10 s for its pages ends. -/
theorem moveTimeout_aborts {t : Nat} (ht : m.bindAt = some t) (hwaits : m.instant = none) :
    d.moveTimeout r = (d.pass (t + 10000000000 - d.mono)).moveAbort r 2 := by
  unfold Dev.moveTimeout
  simp only [hm, ht, hwaits, Option.isNone_none, if_true]

/-- Drain ends once the source has finished its earlier words: the states left are copied, the source halts and the
destination runs. -/
theorem moveDrainEnd_ends (hdrained : d.moveDrained r m = true) (hphase : m.phase = 6) : d.moveDrainEnd r =
    (let e := if m.copy && !m.repair then (List.range (m.n * 16)).foldl (fun e i => e.moveCopyTile r i) d else d
     let f := e.eachCol m.src m.n fun e c => e.moveSrcEnd r c
     let g : Dev := { f with ti := { f.ti with moves := Tab.del f.ti.moves r } }
     let h := g.eachCol m.dcol m.n fun e c => e.moveDstEnd m c
     (h.moveDone r (if m.repair then 6 else 0) m).moveDeferred) := by
  unfold Dev.moveDrainEnd Dev.moveFinish
  simp only [hm, hdrained, if_true]
  exact if_pos hphase

theorem moveDrainEnd_waits (hleft : d.moveDrained r m = false) : d.moveDrainEnd r = d := by
  unfold Dev.moveDrainEnd
  rw [hm]
  exact if_neg (Bool.eq_false_iff.mp hleft)

end Move

/-! ### The repair of a column (R264) -/

section Repair

variable {d} {c : Nat} {x : ColRepair} {met : List (Nat × Nat × Nat)}
  (hx : Tab.get d.ti.repairs (r * 16 + c) = some x) (hnew : x.prepared = false)
include hx hnew

/-- A copy that met rows which no image gives is lost. -/
theorem repairPrepared_lost (hrows : d.imageRows r c (d.badRows r x.phys met) = none) :
    d.repairPrepared r c met = d.colRepairLost r c 2 := by
  unfold Dev.repairPrepared
  simp only [hx, hnew, hrows, Bool.false_eq_true, if_false]

/-- The copy, with the rows it could not read taken from the image, is bound for an instant `LEAD` µs ahead. -/
theorem repairPrepared_binds {rs : List (Nat × Nat × Nat × Nat)}
    (hrows : d.imageRows r c (d.badRows r x.phys met) = some rs) : d.repairPrepared r c met =
    (let p := tregPg r
     let e := ((d.colCopy r x.phys rs).setF p (TREG.BSH.at c) 0).setF p (TREG.CBSH.at c) 0
     e.colRepairBind r c { x with prepared := true, instant := d.now + d.fld p TREG.LEAD * 1000, image := !rs.isEmpty }) := by
  unfold Dev.repairPrepared
  simp only [hx, hnew, hrows, Bool.false_eq_true, if_false]

end Repair

/-- Settles O32: the writes are accepted commands of their registers, and a handover or repair in flight takes the branch its
premises choose; time that passes before a command leaves both as they were. -/
theorem columnCommandsComplete : Obligations.ColumnCommandsComplete := by
  unfold Obligations.ColumnCommandsComplete
  intro s src r v hon d p
  refine ⟨fun c => ?_, ?_, ?_, fun m hm => ?_, fun c met x dt hx hnew => ?_⟩
  · intro f old new e ha _
    refine ⟨fun hwas hruns hidle => ?_, fun hwas hruns hrunning => ?_⟩
    · exact exec_of_act hon rfl (cmdWrite_colCtl d src c ha (colCtl_starts e hwas hruns hidle))
    · exact exec_of_act hon rfl (cmdWrite_colCtl d src c ha (colCtl_halts e hwas hruns hrunning))
  · intro w new e ha hold hgo habort
    exact exec_of_act hon rfl (cmdWrite_moveCtl d src ha (moveCtl_go e hold hgo habort))
  · intro w new e ha hgo habort
    exact exec_of_act hon rfl (cmdWrite_moveCtl d src ha (moveCtl_abort e hgo habort))
  · refine ⟨fun dt => ?_, fun t hphase hcompares ht => ?_, fun t ht hwaits => ?_, fun hdrained hphase => ?_,
      fun hleft => ?_⟩
    · intro g k n e done hphase hcompares
      have hmg : g.move? r = some m := hm
      refine ⟨fun hdone => ?_, fun hleft => ?_⟩
      · exact exec_of_act hon rfl (moveCompare_ends hmg hphase hcompares hdone)
      · exact exec_of_act hon rfl (moveCompare_waits hmg hleft)
    · exact exec_of_act hon rfl (moveSilent_aborts hm hphase hcompares ht)
    · exact exec_of_act hon rfl (moveTimeout_aborts hm ht hwaits)
    · exact exec_of_act hon rfl (moveDrainEnd_ends hm hdrained hphase)
    · exact exec_of_act hon rfl (moveDrainEnd_waits hm hleft)
  · intro g rows
    have hxg : Tab.get g.ti.repairs (r * 16 + c) = some x := hx
    refine ⟨fun hrows => ?_, fun rs hrows => ?_⟩
    · exact exec_of_act hon rfl (repairPrepared_lost hxg hnew hrows)
    · exact exec_of_act hon rfl (repairPrepared_binds hxg hnew hrows)

end Sys2Proof.Machine
end

section
/-! PROOFS. The CONTROL instructions of a tile, the merges of a column, and program errors. -/

namespace Sys2Proof.Machine

open Sys2Proof

variable (d : Dev)

/-! ### CONTROL instructions (R242 to R253) -/

/-- A tile that stands at the legal CONTROL instruction a command names executes it. -/
theorem ctlExec_executes {t op : Nat} (f : Dev → TSite → Nat → Dev)
    (h : d.siteOk (d.site t) (fun w => decide (ib w 63 62 = 2 ∧ ib w 61 56 = op)) = true) :
    d.ctlExec t op f = f d (d.site t) (d.siteInstr (d.site t)) :=
  if_pos h

/-- A CONTROL command, where the tile clock runs and the tile stands at its instruction, does what its operation means. -/
theorem exec_ctl {s : State} (hon : s.dev.tilesOn = true) {c : Instr} {t op : Nat} {f : Dev → TSite → Nat → Dev} {e : Dev}
    (hc : exec c s = actTile (fun d => d.ctlExec t op f) s)
    (hok : s.dev.quiet.siteOk (s.dev.quiet.site t) (fun w => decide (ib w 63 62 = 2 ∧ ib w 61 56 = op)) = true)
    (he : f s.dev.quiet (s.dev.quiet.site t) (s.dev.quiet.siteInstr (s.dev.quiet.site t)) = e) :
    exec c s = .next (after s e) :=
  exec_of_actTile hon hc ((ctlExec_executes _ f hok).trans he)

/-! ### Merges and program errors (R206, R248) -/

/-- A merge for which every masked row has come gives the column its exponent and shifts, and its rows go on. -/
theorem mergeResume_goes {r c : Nat} (hruns : d.colRuns r c = true) (hready : d.mergeReady r c = true) : d.mergeResume r c =
    (let p := tregPg r
     let rows := (List.range 16).filter fun row => d.masked r c row
     let cb := rows.foldl (fun m row => Nat.min m (d.tile (d.loc r c row)).bexp) 31
     let bsh : Int := (cb : Int) - d.fld p (TREG.GUARD.at c)
     let rst := rows.any fun row => (d.tile (d.loc r c row)).mergeRst
     let cbsh := if rst then scode 16 bsh else scode 16 (d.fld p (TREG.CBSH.at c) + bsh)
     let e := ((d.setF p (TREG.CBEXP.at c) cb).setF p (TREG.BSH.at c) (scode 6 bsh)).setF p (TREG.CBSH.at c) cbsh
     (rows.foldl (fun e row =>
       let t := e.tile (e.loc r c row)
       e.setTile (e.loc r c row) { t.next with stall := .none, mergeRst := false, bexp := 31 }) e).colMerge r c) :=
  if_pos (Bool.and_eq_true_iff.mpr ⟨hruns, hready⟩)

/-- A tile at an instruction with a reserved or illegal encoding stops with its column, and the error is counted and told. -/
theorem programError_stops {t : Nat} (hruns : d.siteRuns (d.site t) = true)
    (hreason : instrReason (d.siteInstr (d.site t)) (d.tile (d.site t).L).pc ≠ 0) : d.programError t =
    (let x := d.site t
     let u := d.tile x.L
     let info := wd (instrReason (d.siteInstr x) u.pc * 2 ^ 28 + u.pc * 256)
     let e := (d.setTile x.L { u with perr := true, perrInfo := info }).perrColumn x.r x.c
     (e.count (tregPg x.r) TREG.PERR_CNT).raise (tregPg x.r) TREG.E_PROG_ERR info (wd x.L)) :=
  if_pos (Bool.and_eq_true_iff.mpr ⟨hruns, decide_eq_true hreason⟩)

/-- Settles O30: each CONTROL command executes the instruction it names, as the operation's definition has it; merges and
program errors take the branch their premises choose. -/
theorem tileControlCompletes : Obligations.TileControlCompletes := by
  unfold Obligations.TileControlCompletes
  intro s t hon d x w u is goes ends
  refine ⟨fun hnop => ?_, fun hloop0 => ?_, fun hloop1 => ?_, fun hbr => ?_, fun hwait => ?_, fun hhalt => ?_,
    fun hbmerge => ?_, fun hemark => ?_, fun hsetlen => ?_, fun hcpost => ?_, fun r c hruns hready => ?_,
    fun hruns hreason => ?_⟩
  · exact exec_ctl hon rfl hnop rfl
  · exact exec_ctl hon rfl hloop0 rfl
  · exact exec_ctl hon rfl hloop1 rfl
  · exact exec_ctl hon rfl hbr rfl
  · exact exec_ctl hon rfl hwait rfl
  · exact exec_ctl hon rfl hhalt rfl
  · exact exec_ctl hon rfl hbmerge rfl
  · exact exec_ctl hon rfl hemark rfl
  · exact exec_ctl hon rfl hsetlen rfl
  · exact exec_ctl hon rfl hcpost rfl
  · exact exec_of_actTile hon rfl (mergeResume_goes d hruns hready)
  · exact exec_of_actTile hon rfl (programError_stops d hruns hreason)

end Sys2Proof.Machine
end

section
/-! PROOFS. The MOVE and MAC instructions of a tile. -/

namespace Sys2Proof.Machine

open Sys2Proof

variable (d : Dev)

/-! ### A tile at work -/

/-- A tile is read as it was after another tile is stored. -/
theorem tile_setTile_of_ne {L M : Nat} (u : Tile) (h : M ≠ L) : (d.setTile L u).tile M = d.tile M :=
  congrArg (fun o : Option Tile => o.getD Tile.init) (Tab.get_put_of_ne d.ti.tiles u Tile.init h)

/-- A tile that reports nothing is stored with nothing holding it, and that is all. -/
theorem siteDone_silent (x : TSite) (u : Tile) :
    d.siteDone x ⟨u, TileFx.none⟩ = d.setTile x.L { u with stall := .none } := rfl

/-- Where the tile clock stands still, an instruction of a tile changes nothing. -/
theorem actTile_off (f : Dev → Dev) {s : State} (h : s.dev.tilesOn = false) :
    actTile f s = .next { s with dev := s.dev.quiet } := by
  unfold actTile Dev.ran; rw [if_neg (by simp [h])]

/-! ### MOVE instructions (R241) -/

section Move

variable {t op : Nat} (f : Nat → Tile → Tile)

/-- A tile that stands at the legal MOVE instruction a command names executes it. -/
theorem moveExec_executes
    (h : d.siteOk (d.site t) (fun w => decide (ib w 63 62 = 1 ∧ ib w 61 56 = op)) = true) : d.moveExec t op f =
    d.siteDone (d.site t) ⟨(f (d.siteInstr (d.site t)) (d.tile (d.site t).L)).next, TileFx.none⟩ :=
  if_pos h

theorem moveExec_stays
    (h : d.siteOk (d.site t) (fun w => decide (ib w 63 62 = 1 ∧ ib w 61 56 = op)) = false) : d.moveExec t op f = d :=
  if_neg (Bool.eq_false_iff.mp h)

/-- A MOVE leaves all of the device but the tiles, and of the tiles every one but its own. -/
theorem moveExec_frame : d.moveExec t op f = { d with ti := { d.ti with tiles := (d.moveExec t op f).ti.tiles } } ∧
    ∀ L, L ≠ (d.site t).L → (d.moveExec t op f).tile L = d.tile L := by
  cases h : d.siteOk (d.site t) (fun w => decide (ib w 63 62 = 1 ∧ ib w 61 56 = op)) with
  | true =>
    rw [moveExec_executes d f h, siteDone_silent]
    exact ⟨rfl, fun L hL => tile_setTile_of_ne d _ hL⟩
  | false =>
    rw [moveExec_stays d f h]
    exact ⟨rfl, fun _ _ => rfl⟩

/-- A MOVE command, where the tile clock runs and the tile stands at its instruction, changes the tile as its operation
has it. -/
theorem exec_move {s : State} (hon : s.dev.tilesOn = true) {c : Instr}
    (hc : exec c s = actTile (fun d => d.moveExec t op f) s)
    (hok : s.dev.quiet.siteOk (s.dev.quiet.site t) (fun w => decide (ib w 63 62 = 1 ∧ ib w 61 56 = op)) = true) :
    exec c s = .next (after s (s.dev.quiet.siteDone (s.dev.quiet.site t)
      ⟨(f (s.dev.quiet.siteInstr (s.dev.quiet.site t)) (s.dev.quiet.tile (s.dev.quiet.site t).L)).next, TileFx.none⟩)) :=
  exec_of_actTile hon hc (moveExec_executes _ f hok)

end Move

/-- Each of the nine commands runs one MOVE operation. -/
theorem exec_eq_moveExec {n : Fin 4096} {c : Instr}
    (hc : c ∈ [Instr.moveNop n, .moveLdt n, .moveMovt n, .moveAddt n, .moveClra n, .moveLda n, .moveSetoff n,
      .moveGetoff n, .moveSettag n]) :
    ∃ op f, ∀ s, exec c s = actTile (fun d => d.moveExec n op f) s := by
  simp only [List.mem_cons, List.not_mem_nil, or_false] at hc
  rcases hc with rfl | rfl | rfl | rfl | rfl | rfl | rfl | rfl | rfl
  · exact ⟨0, fun _ u => u, fun _ => rfl⟩
  · exact ⟨1, tileLdt, fun _ => rfl⟩
  · exact ⟨2, tileMovt, fun _ => rfl⟩
  · exact ⟨3, tileAddt, fun _ => rfl⟩
  · exact ⟨4, tileClra, fun _ => rfl⟩
  · exact ⟨5, tileLda, fun _ => rfl⟩
  · exact ⟨6, tileSetoff, fun _ => rfl⟩
  · exact ⟨7, tileGetoff, fun _ => rfl⟩
  · exact ⟨8, tileSettag, fun _ => rfl⟩

/-- What follows every command is nothing, where nothing falls due and only tiles have changed. -/
theorem settle_tiles {e : Dev} (he : e = { d with ti := { d.ti with tiles := e.ti.tiles } }) (hcalm : d.calm = true) :
    Dev.settle d e = e := by
  rw [he]
  exact settle_same d _ rfl rfl rfl hcalm

/-- Settles O60: the device after the MOVE itself is the witness, and what follows a command adds nothing to it where
nothing falls due. -/
theorem tileMoveFrame : Obligations.TileMoveFrame := by
  unfold Obligations.TileMoveFrame
  intro s t n c hc hexec
  obtain ⟨op, f, hmove⟩ := exec_eq_moveExec hc
  obtain ⟨hframe, htiles⟩ := moveExec_frame s.dev.quiet (t := n) (op := op) f
  rw [hmove s] at hexec
  cases hon : s.dev.tilesOn with
  | true =>
    rw [actTile_on _ hon] at hexec
    cases hexec
    exact ⟨_, rfl, fun hcalm _ => settle_tiles s.dev.quiet hframe hcalm, hframe, htiles⟩
  | false =>
    rw [actTile_off _ hon] at hexec
    cases hexec
    exact ⟨_, rfl, fun _ h => Bool.noConfusion h, hframe, htiles⟩

/-- Settles O28: each MOVE command executes the operation of its row of the table. -/
theorem tileMovesComplete : Obligations.TileMovesComplete := by
  unfold Obligations.TileMovesComplete
  intro s t hon d x w u is ends
  refine ⟨fun hnop => ?_, fun hldt => ?_, fun hmovt => ?_, fun haddt => ?_, fun hclra => ?_, fun hlda => ?_,
    fun hsetoff => ?_, fun hgetoff => ?_, fun hsettag => ?_⟩
  · exact exec_move (fun _ u => u) hon rfl hnop
  · exact exec_move tileLdt hon rfl hldt
  · exact exec_move tileMovt hon rfl hmovt
  · exact exec_move tileAddt hon rfl haddt
  · exact exec_move tileClra hon rfl hclra
  · exact exec_move tileLda hon rfl hlda
  · exact exec_move tileSetoff hon rfl hsetoff
  · exact exec_move tileGetoff hon rfl hgetoff
  · exact exec_move tileSettag hon rfl hsettag

/-! ### MAC instructions (R219, R238) -/

section Mac

variable {d} {x : TSite} {w : Nat} (ecc : MacEcc)

/-- Short of a word that it reads, a MAC waits for input; a tile held at the instant of a handover is copied first. -/
theorem macGo_short (hshort : d.needsInput x ((List.range 2).filter fun p => (macPops w p).isSome) = true) :
    d.macGo x w ecc =
      (if anyIf 2 fun p => (macPops w p).isSome && d.popHeld x p then d.popCopy x else d).stallAt x .input :=
  if_pos hshort

/-- With its words there, a MAC waits where the output that it writes is full. -/
theorem macGo_full (hin : d.needsInput x ((List.range 2).filter fun p => (macPops w p).isSome) = false) {p : Nat}
    (hout : macOut w = some p) (hfull : 32 ≤ ((d.tile x.L).outq p).length) : d.macGo x w ecc = d.stallAt x .output := by
  unfold Dev.macGo
  rw [hin, if_neg Bool.false_ne_true, hout]
  exact if_pos hfull

/-- With its words there and room in the output that it writes, a MAC passes its stream ports. -/
theorem macGo_passes (hin : d.needsInput x ((List.range 2).filter fun p => (macPops w p).isSome) = false)
    (hroom : ∀ p, macOut w = some p → ¬ 32 ≤ ((d.tile x.L).outq p).length) : d.macGo x w ecc = d.macCas x w ecc := by
  unfold Dev.macGo
  rw [hin, if_neg Bool.false_ne_true]
  cases hout : macOut w with
  | none => rfl
  | some p => exact if_neg (hroom p hout)

theorem macCas_alone (haop : aopCascades (ib w 61 59) = false) : d.macCas x w ecc = d.macRun x w Cas.zero ecc :=
  if_neg (Bool.eq_false_iff.mp haop)

theorem macCas_waits (haop : aopCascades (ib w 61 59) = true) (hcas : d.cascade x = none) :
    d.macCas x w ecc = d.stallAt x .cascade := by
  unfold Dev.macCas
  rw [haop, if_pos rfl, hcas]

theorem macCas_reads (haop : aopCascades (ib w 61 59) = true) {cas : Cas} (hcas : d.cascade x = some cas) :
    d.macCas x w ecc = (d.macRun x w cas ecc).release x := by
  unfold Dev.macCas
  rw [haop, if_pos rfl, hcas]

end Mac

/-- A tile that stands at the legal MAC instruction a command names takes it up, without the input words that a handover
has left behind. -/
theorem macExec_executes {t aop : Nat} (ecc : MacEcc)
    (h : d.siteOk (d.site t) (fun w => decide (ib w 63 62 = 0 ∧ ib w 61 59 = aop)) = true) : d.macExec t aop ecc =
    (d.trimInputs (d.site t).r (d.site t).c (d.site t).row).macGo (d.site t) (d.siteInstr (d.site t)) ecc :=
  if_pos h

/-- Each of the eight commands runs the MAC of its accumulate operation. -/
theorem exec_eq_macExec {t : Fin 4096} {ecc : MacEcc} {k : Nat} {c : Instr}
    (hc : (k, c) ∈ [(0, Instr.macNone t ecc), (1, .macLd t ecc), (2, .macAdd t ecc), (3, .macSub t ecc),
      (4, .macLdc t ecc), (5, .macAddc t ecc), (6, .macSubc t ecc), (7, .macLdr t ecc)]) (s : State) :
    exec c s = actTile (fun d => d.macExec t k ecc) s := by
  simp only [List.mem_cons, List.not_mem_nil, or_false, Prod.mk.injEq] at hc
  rcases hc with ⟨rfl, rfl⟩ | ⟨rfl, rfl⟩ | ⟨rfl, rfl⟩ | ⟨rfl, rfl⟩ | ⟨rfl, rfl⟩ | ⟨rfl, rfl⟩ | ⟨rfl, rfl⟩ | ⟨rfl, rfl⟩ <;>
    rfl

/-- Settles O29: the tile takes its instruction up, and its ports and its cascade choose the branch. -/
theorem tileMacsComplete : Obligations.TileMacsComplete := by
  unfold Obligations.TileMacsComplete
  intro s t ecc k c hon d x w hc hok e full short
  have hgo : ∀ {y : Dev}, e.macGo x w ecc = y → exec c s = .next (after s y) := fun hy =>
    exec_of_actTile hon (exec_eq_macExec hc s) ((macExec_executes d ecc hok).trans hy)
  have hpass : short = false → full = false → e.macGo x w ecc = e.macCas x w ecc := by
    intro hin hnotfull
    refine macGo_passes ecc hin fun p hout => ?_
    simpa only [full, hout, decide_eq_false_iff_not] using hnotfull
  refine ⟨fun hshort => ?_, fun hin hfull => ?_, fun hin hroom haop => ?_, fun hin hroom haop hcas => ?_,
    fun cas hin hroom haop hcas => ?_⟩
  · exact hgo (macGo_short ecc hshort)
  · cases hout : macOut w with
    | none => simp only [full, hout, Bool.false_eq_true] at hfull
    | some p =>
      simp only [full, hout, decide_eq_true_eq] at hfull
      exact hgo (macGo_full ecc hin hout hfull)
  · exact hgo ((hpass hin hroom).trans (macCas_alone ecc haop))
  · exact hgo ((hpass hin hroom).trans (macCas_waits ecc haop hcas))
  · exact hgo ((hpass hin hroom).trans (macCas_reads ecc haop hcas))

end Sys2Proof.Machine
end

section
/-! PROOFS. Stores to frame memory: which bytes a store to a byte memory, a memory flit and a transfer of bytes change. -/

namespace Sys2Proof.Machine

open Sys2Proof

/-! ### Byte memory -/

theorem memSet_succ (m : List Host.Cell) (a n v : Nat) :
    memSet m a (n + 1) v = memPut (memSet m a n v) (a + n) (BitVec.ofNat 8 (v / 2 ^ (8 * n))) := by
  unfold memSet
  rw [List.range_succ, List.foldl_append]
  rfl

/-- A number that is stored as bytes has its low bits first. -/
theorem memGet_memSet_inside {m : List Host.Cell} (a : Nat) {n j : Nat} (v : Nat) (hm : Memory.wf m = true) (hj : j < n) :
    memGet (memSet m a n v) (a + j) = BitVec.ofNat 8 (v / 2 ^ (8 * j)) := by
  induction n with
  | zero => exact absurd hj (Nat.not_lt_zero j)
  | succ n ih =>
    rw [memSet_succ]
    by_cases hlast : j = n
    · subst hlast
      exact memGet_memPut_self _ _ (memSet_wf a j v hm)
    · rw [memGet_memPut_of_ne _ _ (by omega), ih (by omega)]

theorem memGet_memStore_outside (m : List Host.Cell) {a b : Nat} {l : List Nat} (h : b < a ∨ a + l.length ≤ b) :
    memGet (memStore m a l) b = memGet m b := by
  induction l generalizing m a with
  | nil => rfl
  | cons x l ih =>
    rw [List.length_cons] at h
    rw [memStore, ih _ (by omega), memGet_memPut_of_ne _ _ (by omega)]

theorem memGet_memStore_inside {m : List Host.Cell} (a : Nat) {l : List Nat} {k v : Nat} (hm : Memory.wf m = true)
    (hk : l[k]? = some v) : memGet (memStore m a l) (a + k) = BitVec.ofNat 8 v := by
  induction l generalizing m a k with
  | nil => cases hk
  | cons x l ih =>
    rw [memStore]
    cases k with
    | zero =>
      cases hk
      exact (memGet_memStore_outside _ (.inl (Nat.lt_add_one a))).trans (memGet_memPut_self a _ hm)
    | succ k =>
      rw [show a + (k + 1) = a + 1 + k by omega]
      exact ih (a + 1) (memPut_wf a _ hm) hk

/-! ### Operations that store nothing -/

/-- That a byte of frame memory reads `x` is kept by every operation that does not store there. -/
theorem keeps_byte (b : Nat) (x : Byte) : Keeps fun d => memGet d.cw.mem b = x :=
  { put := fun _ _ h => h, shot := fun _ _ h => h, keep := fun _ _ h => h,
    rest := fun h _ _ hm _ _ => (congrArg (memGet · b) hm).trans h }

@[simp] theorem Dev.fmMeet_mem (d : Dev) (a : Nat) (e : EccEvent) : (d.fmMeet a e).cw.mem = d.cw.mem :=
  Dev.fmMeet_keeps (keeps_frameMem d.cw.mem).toKeeps rfl

/-- What follows a command stores nothing to frame memory. -/
theorem settle_mem (old e : Dev) : (Dev.settle old e).cw.mem = e.cw.mem := by
  have kp := (keeps_frameMem e.cw.mem).toKeeps
  have h0 : (if Dev.stepped old e then e.stepSlots else e).cw.mem = e.cw.mem :=
    kp.ite (fun _ => Dev.stepSlots_keeps kp rfl) fun _ => rfl
  exact kp.ite (fun _ => Dev.count_keeps kp (Dev.dues_keeps kp h0)) fun _ => Dev.dues_keeps kp h0

variable (d : Dev)

/-- A write that meets no protected buffer is made. -/
theorem Dev.fmGuard_free (ep : Nat) {a n : Nat} (f : Dev → Dev) (h : d.bufHit false a n = none) :
    d.fmGuard ep a n f = f d := by
  unfold Dev.fmGuard
  rw [h]
  rfl

/-! ### The words of a memory flit (R275, R284, R285) -/

/-- The first word of a write is stored, whole or with the bytes that are not enabled as they stood; the others follow it. -/
theorem Dev.fmWrite_cons (a be pois : Nat) (e : EccEvent) (v : Nat) (rest : List Nat) :
    ∃ (f : Dev) (x : Nat), d.fmWrite a be pois e (v :: rest) = f.fmWrite (a + 8) 255 (pois / 2) .clean rest ∧
      f.cw.mem = memSet d.cw.mem a 8 x ∧ (be = 255 → x = v) := by
  by_cases hbe : be = 255
  · refine ⟨(d.fmPut a v).fmSetPois a (decide (pois % 2 = 1)), v, ?_, rfl, fun _ => rfl⟩
    rw [Dev.fmWrite, if_pos hbe]
  · let g := d.fmMeet a e
    let x := mergeBytes (if g.fmPois a then 0 else g.fmWord a) v be
    refine ⟨(g.fmPut a x).fmSetPois a (decide (pois % 2 = 1)), x, ?_, ?_, fun h => absurd h hbe⟩
    · rw [Dev.fmWrite, if_neg hbe]
    · exact congrArg (memSet · a 8 x) (d.fmMeet_mem a e)

theorem Dev.fmWrite_outside {a be pois b : Nat} {e : EccEvent} {vals : List Nat}
    (h : b < a ∨ a + 8 * vals.length ≤ b) : memGet (d.fmWrite a be pois e vals).cw.mem b = memGet d.cw.mem b := by
  induction vals generalizing d a be pois e with
  | nil => rfl
  | cons v rest ih =>
    rw [List.length_cons] at h
    obtain ⟨f, x, hf, hmem, -⟩ := d.fmWrite_cons a be pois e v rest
    rw [hf, ih f (by omega), hmem, memGet_memSet_outside _ _ (by omega)]

/-- Whole words that are written read as written, each with its low bits first. -/
theorem Dev.fmWrite_inside {d : Dev} (a pois : Nat) (e : EccEvent) {vals : List Nat} {k j v : Nat} (hd : FrameMemCanon d)
    (hk : vals[k]? = some v) (hj : j < 8) :
    memGet (d.fmWrite a 255 pois e vals).cw.mem (a + 8 * k + j) = BitVec.ofNat 8 (v / 2 ^ (8 * j)) := by
  induction vals generalizing d a pois e k with
  | nil => cases hk
  | cons w rest ih =>
    obtain ⟨f, x, hf, hmem, hx⟩ := d.fmWrite_cons a 255 pois e w rest
    rw [hf]
    cases k with
    | zero =>
      cases hk
      rw [f.fmWrite_outside (.inl (by omega)), hmem, hx rfl]
      exact memGet_memSet_inside a v hd hj
    | succ k =>
      have hcanon : FrameMemCanon f := by
        unfold FrameMemCanon
        rw [hmem]
        exact memSet_wf a 8 x hd
      rw [show a + 8 * (k + 1) + j = a + 8 + 8 * k + j by omega]
      exact ih (a + 8) _ _ hcanon hk

/-- A memory flit that writes is acknowledged, whether a protected buffer discards it or not. -/
theorem Dev.memServe_write {m : MemFlit} (es : List EccEvent) (hw : m.write = true) : d.memServe m es =
    (let be := if m.data.length = 1 then m.be.toNat else 255
     (d.fmGuard m.req.val m.addr (8 * m.data.length) fun e =>
       e.fmWrite m.addr be m.pois.toNat (es.headD .clean) (m.data.map (·.toNat))).send (.memAck m.req.val m.tag.val)) :=
  if_pos hw

theorem Dev.memServe_write_outside {m : MemFlit} {es : List EccEvent} {b : Nat} (hw : m.write = true)
    (hb : b < m.addr ∨ m.addr + 8 * m.data.length ≤ b) : memGet (d.memServe m es).cw.mem b = memGet d.cw.mem b := by
  have kp := keeps_byte b (memGet d.cw.mem b)
  rw [d.memServe_write es hw, Dev.send_cw]
  refine Dev.fmGuard_keeps kp rfl fun e he => ?_
  rw [← he]
  exact e.fmWrite_outside (by rwa [List.length_map])

theorem Dev.memServe_write_inside {d : Dev} {m : MemFlit} {es : List EccEvent} {k j : Nat} {w : BitVec 64}
    (hw : m.write = true) (hd : FrameMemCanon d) (hfree : d.bufHit false m.addr (8 * m.data.length) = none)
    (hwhole : m.data.length ≠ 1 ∨ m.be = 255) (hk : m.data[k]? = some w) (hj : j < 8) :
    memGet (d.memServe m es).cw.mem (m.addr + 8 * k + j) = BitVec.ofNat 8 (w.toNat / 2 ^ (8 * j)) := by
  have hbe : (if m.data.length = 1 then m.be.toNat else 255) = 255 := by
    split
    · next hone => rw [hwhole.resolve_left (not_not_intro hone)]; rfl
    · rfl
  have hk' : (m.data.map (·.toNat))[k]? = some w.toNat := by rw [List.getElem?_map, hk]; rfl
  rw [d.memServe_write es hw, Dev.send_cw, d.fmGuard_free _ _ hfree, hbe]
  exact Dev.fmWrite_inside _ _ _ hd hk' hj

/-! ### A transfer of bytes (R387) -/

theorem Dev.fmStore_outside {ep a b : Nat} {bytes : List Nat} (h : b < a ∨ a + bytes.length ≤ b) :
    memGet (d.fmStore ep a bytes).cw.mem b = memGet d.cw.mem b :=
  Dev.fmGuard_keeps (keeps_byte b (memGet d.cw.mem b)) rfl fun e he => (memGet_memStore_outside e.cw.mem h).trans he

theorem Dev.fmStore_inside {d : Dev} (ep : Nat) {a k v : Nat} {bytes : List Nat} (hd : FrameMemCanon d)
    (hfree : d.bufHit false a bytes.length = none) (hk : bytes[k]? = some v) :
    memGet (d.fmStore ep a bytes).cw.mem (a + k) = BitVec.ofNat 8 v := by
  unfold Dev.fmStore
  rw [d.fmGuard_free _ _ hfree]
  exact memGet_memStore_inside a hd hk

theorem dev_of_exec_memoryAccess {s t : State} {m : MemFlit} {es : List EccEvent}
    (he : exec (.memoryAccess m es) s = .next t) : t.dev = s.dev.ran s.dev.coreOn fun d => d.memServe m es := by
  cases he
  rfl

/-- Settles O59: a memory flit stores its words one after another, and what follows it stores nothing. -/
theorem frameMemoryStores : Obligations.FrameMemoryStores := by
  unfold Obligations.FrameMemoryStores
  refine ⟨fun s t m es b hw hcanon he => ?_, fun d ep a b bytes hcanon => ?_⟩
  · rw [dev_of_exec_memoryAccess he]
    have kp := keeps_byte b (memGet s.dev.cw.mem b)
    refine ⟨fun hb => ?_, fun hon hfree hwhole k w j hk hj => ?_⟩
    · exact Dev.ran_keeps kp rfl fun d hd => (d.memServe_write_outside hw hb).trans hd
    · have hran : s.dev.ran s.dev.coreOn (fun d => d.memServe m es) =
          Dev.settle s.dev.quiet (s.dev.quiet.memServe m es) := if_pos hon
      rw [hran, settle_mem]
      exact Dev.memServe_write_inside (d := s.dev.quiet) hw hcanon hfree hwhole hk hj
  · exact ⟨d.fmStore_outside, fun hfree k v hk => Dev.fmStore_inside ep hcanon hfree hk⟩

end Sys2Proof.Machine
end

section
/-! PROOFS. The causeway: flits that leave and arrive, bindings of flows, and their routes. -/

namespace Sys2Proof.Machine

open Sys2Proof

variable (d : Dev)

/-! ### Flits that leave (R272, R274) -/

/-- The device once the words that the logic of a fabric region gives its port have entered the port's FIFO. -/
def Dev.fabricGiven (d : Dev) (ep : Nat) (ws : List (Nat × Word × Bool)) : Dev :=
  if 8192 ≤ ep ∧ ep < 16384 then d.fabricOut ((ep - 8192) / 8) ((ep - 8192) % 8) ws else d

/-- A run that is full or that nothing continues leaves the producer as a flit. -/
theorem flitSend_leaves {ep flow : Nat} {ws : List (Nat × Word × Bool)} {w : FlowWord}
    (hlast : (flitRun 13 ((d.fabricGiven ep ws).prodWords ep flow)).getLast? = some w) :
    let e := d.fabricGiven ep ws
    let q := e.prodWords ep flow
    let run := flitRun 13 q
    let bs := (View.mk e []).bindings
    let end_ := decide (w.ch = lastChannel bs ep w.flow)
    (run.length = 13 ∨ (end_ || flitNext (q.drop run.length) w) = true) →
      let f := e.prodDrop ep flow run.length
      let flit : Flit := ⟨ep, w.flow, f.flowClass w.flow, w.ts, run, end_ || flitLast (q.drop run.length) w,
        flitDests bs w.flow run, []⟩
      d.flitSend ep flow ws =
        if flit.dests = [] then f else { f with cw := { f.cw with flight := f.cw.flight ++ [flit] } } := by
  intro e q run bs end_ hgoes f flit
  have hsends : (decide (run.length = 13) || end_ || flitNext (q.drop run.length) w) = true := by
    rw [Bool.or_assoc, Bool.or_eq_true, decide_eq_true_iff]
    exact hgoes
  unfold Dev.flitSend
  dsimp only
  split
  · next hnone => exact nomatch hlast.symm.trans hnone
  · next u hu =>
    obtain rfl : w = u := Option.some.inj (hlast.symm.trans hu)
    exact if_pos hsends

/-! ### Flits under way (R272, R277, R281) -/

section Arrival

variable {d} {n ep : Nat} {f : Flit} (hf : d.cw.flight[n]? = some f) (hep : ep ∈ f.dests)
include hf hep

/-- A flit that fails the check of a link. -/
theorem flitArrive_fails (err : Nat × Nat) : d.flitArrive n ep (some err) = d.flitError n ep f err.1 err.2 := by
  unfold Dev.flitArrive
  simp [hf, hep]

/-- A flit does not overtake an earlier one of its producer. -/
theorem flitArrive_behind (hbehind : d.flitBehind n ep f = true) : d.flitArrive n ep none = d := by
  unfold Dev.flitArrive
  simp [hf, hep, hbehind]

/-- A flit more than 1 s old is counted and dropped. -/
theorem flitArrive_stale (hfirst : d.flitBehind n ep f = false) (hold : f.ts + 1000000000 < d.now) :
    d.flitArrive n ep none = (d.count cwPg CWAY.STALE_CNT).flitDone n ep f := by
  unfold Dev.flitArrive
  simp [hf, hep, hfirst, hold]

/-- A flit in time gives its words to a consumer with room for them. -/
theorem flitArrive_delivers (hfirst : d.flitBehind n ep f = false) (hnew : d.now ≤ f.ts + 1000000000)
    (hroom : d.epRoom ep (flitTake (View.mk d []).bindings ep f).length = true) : d.flitArrive n ep none =
    (let ts := restoreTime d.now 4 (f.ts / 1000000000 % 4) (f.ts % 1000000000)
     ((flitTake (View.mk d []).bindings ep f).foldl (fun e w => e.deliver ep { w with ts := ts }) d).flitDone n ep f) := by
  unfold Dev.flitArrive
  simp [hf, hep, hfirst, Nat.not_lt.mpr hnew, hroom]

/-- A class A flit that its consumer has not taken in time is lost for it. -/
theorem aDropEvent_drops (hclass : f.cls = 0) : d.aDropEvent n ep = (d.aDrop f.flow ep).flitDone n ep f := by
  unfold Dev.aDropEvent
  simp [hf, hep, hclass]

end Arrival

/-! ### Bindings (R276) -/

/-- An accepted write of a block's register that is no command and no pin is stored, and the block reacts to it. -/
theorem regWrite_stored (src : Source) {c : Cls} {i : Nat} {f : Fld} {r : RegSpec} {v : Word}
    (ha : Accepts d src c i f.off v) (hr : regAt c i f.off = some r) (ho : f.off < 0x800 ∧ 0x40 ≤ f.off ∧ f.off % 4 = 0)
    (hc : c ≠ .iob) (hs : d.specialWrite src c i f.off v = none) :
    d.regWrite src (pg c i + f.off) v =
      (let a := pg c i + f.off
       ((d.put a (r.stored (d.raw a) v)).react src c i f.off Via.direct (d.raw a) (r.want c f.off (d.raw a) v)).breakLock c i
         f.off) := by
  have hm : maskedAt c f.off = false := by
    unfold maskedAt
    rw [decide_eq_false hc]
    rfl
  refine (cmdWrite_live d src v ha ho.1 ho.2.1 ho.2.2 hc hr hs).trans ?_
  unfold Dev.liveWrite
  rw [hm]
  rfl

/-! ### Routes (R298) -/

/-- `FLOW_ROUTE` holds RW fields alone. -/
theorem regCodes_flowRoute : regCodes .cway CWAY.FLOW_ROUTE.off = some (0xff8fffff, 0, 0, 0xff8fffff) := by decide

/-- `FLOW_ROUTE` writes the route of the selected flow, and reads as zero. -/
theorem cwayLive_flowRoute (via : Via) (old new : Word) : d.cwayLive CWAY.FLOW_ROUTE.off via old new =
    (d.setRoute (d.fld cwPg CWAY.FLOW_SEL_FLOW) (new &&& 0xFF8FFFFF)).put (cwPg + CWAY.FLOW_ROUTE.off) 0 := if_pos rfl

theorem cmdWrite_flowRoute (src : Source) {v : Word} (ha : Accepts d src .cway 0 CWAY.FLOW_ROUTE.off v) :
    d.cmdWrite src .cway 0 CWAY.FLOW_ROUTE v =
      (let p := pg .cway 0
       let e := written d p CWAY.FLOW_ROUTE 0xff8fffff 0 v
       ((e.setRoute (e.fld p CWAY.FLOW_SEL_FLOW) (heard d p CWAY.FLOW_ROUTE 0xff8fffff v &&& 0xFF8FFFFF)).put
         (p + CWAY.FLOW_ROUTE.off) 0).breakLock .cway 0 CWAY.FLOW_ROUTE.off) :=
  cmdWrite_eff d src 0xff8fffff 0 0xff8fffff ha regCodes_flowRoute (by decide) (by decide) rfl (cwayLive_flowRoute ..)

/-- Settles O33: a flit under way takes the branch its premises choose, and the writes are accepted ones of their registers. -/
theorem causewayCommandsComplete : Obligations.CausewayCommandsComplete := by
  unfold Obligations.CausewayCommandsComplete
  intro s hon d
  refine ⟨fun ep flow ws w => ?_, fun n ep f hf hep => ?_, fun src c i f r v ha hr h0 ho h4 hc hs => ?_, fun src v ha => ?_⟩
  · intro e q run bs end_ goes hlast hgoes f flit
    exact exec_of_act hon rfl (flitSend_leaves d hlast hgoes)
  · refine ⟨fun hbehind => ?_, fun hfirst hold => ?_, fun hfirst hnew => ?_, fun x y => ?_, fun hclass => ?_⟩
    · exact exec_of_act hon rfl (flitArrive_behind hf hep hbehind)
    · exact exec_of_act hon rfl (flitArrive_stale hf hep hfirst hold)
    · intro ws ts hroom
      exact exec_of_act hon rfl (flitArrive_delivers hf hep hfirst hnew hroom)
    · exact exec_of_act hon rfl (flitArrive_fails hf hep (x, y))
    · exact exec_of_act hon rfl (aDropEvent_drops hf hep hclass)
  · exact exec_of_act hon rfl (regWrite_stored d src ha hr ⟨ho, h0, h4⟩ hc hs)
  · exact exec_of_act hon rfl (cmdWrite_flowRoute d src ha)

/-! ### The route of a bound flow (R298) -/

variable {d}

/-- The fields that a write acts on are asked for as its word has them. -/
theorem asked_and_acting (r : RegSpec) (old v : Word) : r.asked old v &&& r.acting = v &&& r.acting := by
  unfold RegSpec.asked
  ext k hk
  simp only [BitVec.getElem_and, BitVec.getElem_or, BitVec.getElem_not]
  cases r.acting[k] <;> simp

theorem acting_flowRoute {r : RegSpec} (hr : regAt .cway 0 CWAY.FLOW_ROUTE.off = some r) : r.acting = 0xFF8FFFFF := by
  have hfind : findReg .cway CWAY.FLOW_ROUTE.off = some r := (regAt_find 0 _ (.inl (by decide))).symm.trans hr
  have hcodes := regCodes_flowRoute
  unfold regCodes at hcodes
  rw [hfind] at hcodes
  exact congrArg (fun x => x.2.2.2) (Option.some.inj hcodes)

/-- A write of `FLOW_ROUTE` asks for the route of its word. -/
theorem want_flowRoute {r : RegSpec} (hr : regAt .cway 0 CWAY.FLOW_ROUTE.off = some r) (old v : Word) :
    r.want .cway CWAY.FLOW_ROUTE.off old v &&& 0xFF8FFFFF = v &&& 0xFF8FFFFF := by
  rw [show r.want .cway CWAY.FLOW_ROUTE.off old v = r.asked old v from if_neg (by decide), ← acting_flowRoute hr]
  exact asked_and_acting r old v

/-- The block refuses a change of the route of a bound flow. -/
theorem cwayBlocked_bound {new : Word} (hchange : new &&& 0xFF8FFFFF ≠ d.route (d.fld cwPg CWAY.FLOW_SEL_FLOW))
    (hbound : d.flowBound (d.fld cwPg CWAY.FLOW_SEL_FLOW) = true) : d.cwayBlocked CWAY.FLOW_ROUTE.off new = true := by
  unfold Dev.cwayBlocked
  dsimp only
  rw [if_pos rfl, hbound, decide_eq_true hchange]
  rfl

/-- Where no cause of R553 comes before BLOCK, a live value that its block refuses has cause BLOCK. -/
theorem cause_block {src : Source} {c : Cls} {i off : Nat} {r : RegSpec} {v : Word} (ho : off < 0x800)
    (hreset : blkRst off v = false) (hown : d.ownerBars src c i = false) (hlock : d.lockBars c i off r v = false)
    (hcrit : d.critBars c i off r v = false) (hpower : d.powerBars c i off = false)
    (hbound : d.boundBars src c i off r v = false)
    (hvalue : d.valueBars c i off r (r.want c off (d.raw (pg c i + off)) v) = false)
    (hblock : d.blockBars src c i off (d.raw (pg c i + off)) (r.want c off (d.raw (pg c i + off)) v) = true) :
    d.cause src c i off r v true = cBLOCK := by
  unfold Dev.cause Dev.liveCause
  simp [hown, hlock, hcrit, hpower, hbound, hvalue, hblock, hreset, Nat.not_le.mpr ho]

/-- The rules of `CWAY` refuse a write that changes the route of a bound flow. -/
theorem blockBars_flowRoute {src : Source} {r : RegSpec} {v : Word} (hr : regAt .cway 0 CWAY.FLOW_ROUTE.off = some r)
    (old : Word) (hchange : v &&& 0xFF8FFFFF ≠ d.route (d.fld cwPg CWAY.FLOW_SEL_FLOW))
    (hbound : d.flowBound (d.fld cwPg CWAY.FLOW_SEL_FLOW) = true) :
    d.blockBars src .cway 0 CWAY.FLOW_ROUTE.off old (r.want .cway CWAY.FLOW_ROUTE.off old v) = true := by
  have hrule : d.ruleBlocked src .cway 0 CWAY.FLOW_ROUTE.off old (r.want .cway CWAY.FLOW_ROUTE.off old v) = true :=
    cwayBlocked_bound (by rwa [want_flowRoute hr]) hbound
  unfold Dev.blockBars Dev.classBlocked
  rw [if_neg (by decide), hrule]
  rfl

/-- A write of `FLOW_ROUTE` that a cause applies to is recorded, and breaks a key sequence of the page. -/
theorem cmdWrite_flowRoute_refused {src : Source} {r : RegSpec} {v : Word} {k : Nat} (ha : d.answers .cway = true)
    (hr : regAt .cway 0 CWAY.FLOW_ROUTE.off = some r) (hk : d.cause src .cway 0 CWAY.FLOW_ROUTE.off r v true = k)
    (h0 : k ≠ 0) : d.cmdWrite src .cway 0 CWAY.FLOW_ROUTE v =
      (let e := d.refuse src (pg .cway 0) CWAY.FLOW_ROUTE.off k v
       { e with lockSeq := Tab.del e.lockSeq (pg .cway 0) }) := by
  have hw := busWrite_refused d src (v := v) (full := true) (by decide) (by decide) (by decide) ha hr
    (fun h => absurd h (by decide)) nofun (hk ▸ h0)
  dsimp only at hw
  simp only [hk, reduceCtorEq, false_and, if_false] at hw
  exact hw.trans (ite_self _)

/-- Nothing follows a command that has touched registers, notice queues and key sequences alone, where nothing falls due. -/
theorem OnlyRegsNq.settle_unlocked {d e : Dev} (h : OnlyRegsNq d e) (locks : Tab (Nat × Nat)) (hcalm : d.calm = true) :
    Dev.settle d { e with lockSeq := locks } = { e with lockSeq := locks } := by
  obtain ⟨regs, nq, rfl⟩ : ∃ regs nq, e = { d with regs := regs, nq := nq } := ⟨_, _, h⟩
  exact settle_same d _ rfl rfl rfl hcalm

/-- The routes of the flows rest neither on registers and notice queues nor on key sequences. -/
theorem OnlyRegsNq.route_unlocked {d e : Dev} (h : OnlyRegsNq d e) (locks : Tab (Nat × Nat)) :
    ({ e with lockSeq := locks } : Dev).route = d.route := by
  obtain ⟨regs, nq, rfl⟩ : ∃ regs nq, e = { d with regs := regs, nq := nq } := ⟨_, _, h⟩
  rfl

/-- Settles O52: BLOCK is the first cause that applies, and a refusal touches registers and notice queues alone. -/
theorem routeOfABoundFlow : Obligations.RouteOfABoundFlow := by
  unfold Obligations.RouteOfABoundFlow
  intro s src v r hon d p off f hr ha hown hlock hcrit hpower hbound hvalue hchange hflow
  have hk : d.cause src .cway 0 off r v true = cBLOCK :=
    cause_block (by decide) rfl hown hlock hcrit hpower hbound hvalue (blockBars_flowRoute hr _ hchange hflow)
  have honly : OnlyRegsNq d (d.refuse src p off cBLOCK v) := d.refuse_only src p off cBLOCK v
  refine ⟨exec_of_act hon rfl (cmdWrite_flowRoute_refused ha hr hk (by decide)), honly.route_unlocked _, fun hcalm => ?_⟩
  exact (congrArg Dev.route (honly.settle_unlocked _ hcalm)).trans (honly.route_unlocked _)

end Sys2Proof.Machine
end

section
/-! PROOFS. Frame memory, its ports and its scrubber, and the soft repair of its rows. -/

namespace Sys2Proof.Machine

open Sys2Proof

variable (d : Dev) {b : Nat}

/-! ### Frame memory, frame ports and the scrubber (R284, R287 to R289) -/

/-- A memory flit that reads is answered with the words and their poison. -/
theorem Dev.memServe_read {m : MemFlit} (es : List EccEvent) (hw : m.write = false) : d.memServe m es =
    (let r := d.fmRead m.addr m.count es
     r.1.send (.memData m.req.val m.tag.val r.2.1 r.2.2)) :=
  if_neg (Bool.eq_false_iff.mp hw)

/-- A writer in service takes the word at its front. -/
theorem framePortWrite_takes {w : FlowWord} {rest : List FlowWord} (hrun : (d.fmp b).run = true)
    (hrx : (d.fmp b).rx = w :: rest) (hdir : fieldOf FMEM.DIR (d.fmp b).cfg = 0) :
    d.framePortWrite b = (d.setFmp b { d.fmp b with rx := rest }).fmpTake b w := by
  unfold Dev.framePortWrite
  simp only [hrun, if_true, hrx, hdir, and_self]

section Reader

variable {d} {k : Nat} (hrun : (d.fmp b).run = true) (hdir : fieldOf FMEM.DIR (d.fmp b).cfg = 1)
  (hring : d.ringWriter b = some k)
include hrun hdir hring

/-- A reader in the middle of a buffer emits its next word. -/
theorem framePortRead_goesOn {i : Nat} (e : EccEvent) (hpos : (d.fmp b).rpos = some i) :
    d.framePortRead b e = d.fmpEmit b k i e := by
  unfold Dev.framePortRead
  simp only [hrun, if_true, hdir, and_self, hring, hpos]

/-- A reader between buffers starts the oldest one that its ring has ready. -/
theorem framePortRead_starts {n : Nat} {ready : List Nat} (e : EccEvent) (hpos : (d.fmp b).rpos = none)
    (hready : (d.fmp k).ready = n :: ready) :
    d.framePortRead b e = (d.setFmp b { d.fmp b with buf := n, rpos := some 0 }).fmpEmit b k 0 e := by
  unfold Dev.framePortRead
  simp only [hrun, if_true, hdir, and_self, hring, hpos, hready]

end Reader

theorem scrubRead_restarts (e : EccEvent) (skip : Bool) (hen : d.flag scrbPg SCRB.EN = true) :
    d.scrubRead e skip .restart = d.scrubRestart :=
  if_neg (by simp [hen])

/-- The scrubber meets its word and goes to the next; a vote that mended its place counts. -/
theorem scrubRead_goesOn (e : EccEvent) (skip : Bool) {v : VoteEvent} (hen : d.flag scrbPg SCRB.EN = true)
    (hv : v ≠ .restart) : d.scrubRead e skip v =
    (let f := if v = .fixed then d.count scrbPg SCRB.VOTE_FIX_CNT else d
     let b := f.fld scrbPg SCRB.BANK
     let row := f.fld scrbPg SCRB.ROW
     let w := f.fld scrbPg SCRB.WORD
     (f.scrubMeet (fmAddr b row w) e skip).scrubNext b row w) := by
  have hon : ¬ d.flag scrbPg SCRB.EN = false := by simp [hen]
  cases v with
  | agree => exact if_neg hon
  | fixed => exact if_neg hon
  | restart => exact absurd rfl hv

/-! ### Commands of a row repair (R293) -/

/-- In `RPR_CTL`, `GO` and `ABORT` are W1S and `ROW` is RW. -/
theorem regCodes_rprCtl : regCodes .fmem FMEM.RPR_CTL.off = some (0x1fff, 0xc0000000, 0, 0xc0001fff) := by decide

/-- `GO` on a part that changes no firmware starts a repair. -/
theorem fmemLive_go {old new : Word} (hold : fieldOf FMEM.GO old = 0) (hgo : fieldOf FMEM.GO new = 1)
    (habort : fieldOf FMEM.ABORT new = 0) (hfw : d.fwActive = false) :
    d.fmemLive b FMEM.RPR_CTL.off old new = d.rowRepairStart b (fieldOf FMEM.RPR_CTL_ROW new) := by
  unfold Dev.fmemLive
  dsimp only
  rw [if_pos rfl, if_neg (by omega), if_pos ⟨hgo, hold, hfw⟩]

/-- `ABORT` without a new `GO` ends the repair of the bank. -/
theorem fmemLive_abort {old new : Word} (hgo : ¬ (fieldOf FMEM.GO new = 1 ∧ fieldOf FMEM.GO old = 0))
    (habort : fieldOf FMEM.ABORT new = 1) :
    d.fmemLive b FMEM.RPR_CTL.off old new = (d.setF (fmPg b) FMEM.ABORT 0).rowAbort b 5 := by
  unfold Dev.fmemLive
  dsimp only
  rw [if_pos rfl, if_pos habort, if_neg fun ⟨h1, h2, _⟩ => hgo ⟨h1, h2⟩]

/-- An accepted `RPR_CTL` is stored, and the bank hears of it. -/
theorem cmdWrite_rprCtl (src : Source) {w : Word} {x : Dev} (ha : Accepts d src .fmem b FMEM.RPR_CTL.off w)
    (hx : (written d (pg .fmem b) FMEM.RPR_CTL 0x1fff 0xc0000000 w).fmemLive b FMEM.RPR_CTL.off
      (d.raw (pg .fmem b + FMEM.RPR_CTL.off)) (heard d (pg .fmem b) FMEM.RPR_CTL 0xc0001fff w) = x) :
    d.cmdWrite src .fmem b FMEM.RPR_CTL w = x.breakLock .fmem b FMEM.RPR_CTL.off :=
  cmdWrite_eff d src 0x1fff 0xc0000000 0xc0001fff ha regCodes_rprCtl (by decide) (by decide) rfl hx

/-- The lowest spare row of a bank that is neither in service nor bad. -/
def Dev.freeSpare (d : Dev) (b : Nat) : Option Nat :=
  (List.range 64).find? fun k => !((d.rowLists b).1.contains k) && !((d.rowLists b).2.contains k)

theorem rowRepairStart_none {row : Nat} (hfree : d.freeSpare b = none) : d.rowRepairStart b row =
    (let f := (d.setF (fmPg b) FMEM.GO 0).setF (fmPg b) FMEM.RPR_STAT_ROW row
     f.raiseH (fmPg b) FMEM.E_NO_SPARE_ROW (wd row) (f.reg (fmPg b) FMEM.FM_STAT)) := by
  unfold Dev.rowRepairStart
  unfold Dev.freeSpare at hfree
  simp only [hfree]

theorem rowRepairStart_some {row k : Nat} (hfree : d.freeSpare b = some k) : d.rowRepairStart b row =
    (let f := (d.setF (fmPg b) FMEM.GO 0).setF (fmPg b) FMEM.RPR_STAT_ROW row
     ((f.setF (fmPg b) FMEM.RPR_BUSY 1).setF (fmPg b) FMEM.ACTIVE 1).setRowRep b ⟨row, k, 2, f.mono, false, none, none, 0⟩) := by
  unfold Dev.rowRepairStart
  unfold Dev.freeSpare at hfree
  simp only [hfree]

/-! ### A row repair in flight (R293) -/

section Repair

variable {d} {x : RowRep} (hx : d.rowRep? b = some x)
include hx

/-- A comparison without a difference binds the repair. -/
theorem rowCompare_binds (hphase : x.phase ≤ 3) (hnew : x.ready = false) : d.rowCompare b 0 =
    ((d.pass (x.at_ + 2 * rowCopyNs - d.mono)).setRowRep b { x with phase := 3 }).rowBind b { x with phase := 3 } := by
  unfold Dev.rowCompare
  simp only [hx, hphase, hnew, and_self, if_true]

/-- A comparison with a difference burns the spare row and ends the repair. -/
theorem rowCompare_differs {bad : Nat} (hphase : x.phase ≤ 3) (hnew : x.ready = false) (hbad : bad ≠ 0) :
    d.rowCompare b bad =
      (let e := (d.pass (x.at_ + 2 * rowCopyNs - d.mono)).setRowRep b { x with phase := 3 }
       (e.setRowLists b (e.rowLists b).1 ((e.rowLists b).2 ++ [x.spare])).rowRepairEnd b 1 { x with mismatch := bad }) := by
  unfold Dev.rowCompare
  simp only [hx, hphase, hnew, and_self, if_true, hbad, if_false]

/-- A repair that has waited 10 s for its page ends. -/
theorem rowTimeout_ends {t : Nat} (ht : x.bindAt = some t) (hwaits : x.instant = none) :
    d.rowTimeout b = (d.pass (t + 10000000000 - d.mono)).rowRepairEnd b 2 x := by
  unfold Dev.rowTimeout
  simp only [hx, ht, hwaits, Option.isNone_none, if_true]

end Repair

/-- Settles O34: each command takes the branch its premises choose, and the writes are accepted ones of `RPR_CTL`. -/
theorem frameMemoryCommandsComplete : Obligations.FrameMemoryCommandsComplete := by
  unfold Obligations.FrameMemoryCommandsComplete
  refine ⟨fun s hon => ?_, fun s src b v hon => ?_⟩
  · intro d
    refine ⟨fun m es hw => ?_, fun m es hw => ?_, fun b w rest hrun hrx hdir => ?_,
      fun b e k hrun hdir hring => ⟨fun i hpos => ?_, fun n ready hpos hready => ?_⟩,
      fun e skip v hen => ⟨fun hv => ?_, fun hv => ?_⟩⟩
    · exact exec_of_act hon rfl (d.memServe_write es hw)
    · exact exec_of_act hon rfl (d.memServe_read es hw)
    · exact exec_of_act hon rfl (framePortWrite_takes d hrun hrx hdir)
    · exact exec_of_act hon rfl (framePortRead_goesOn hrun hdir hring e hpos)
    · exact exec_of_act hon rfl (framePortRead_starts hrun hdir hring e hpos hready)
    · subst hv
      exact exec_of_act hon rfl (scrubRead_restarts d e skip hen)
    · exact exec_of_act hon rfl (scrubRead_goesOn d e skip hen hv)
  · intro d p
    refine ⟨?_, ?_, fun x hx hphase hnew => ?_, fun x t hx ht hwaits => ?_⟩
    · intro w new e ha hold hgo habort hfw row f free
      have hstart := fmemLive_go e (b := b) hold hgo habort hfw
      refine ⟨fun hfree => ?_, fun k hfree => ?_⟩
      · exact exec_of_act hon rfl (cmdWrite_rprCtl d src ha (hstart.trans (rowRepairStart_none e hfree)))
      · exact exec_of_act hon rfl (cmdWrite_rprCtl d src ha (hstart.trans (rowRepairStart_some e hfree)))
    · intro w new e ha hgo habort
      exact exec_of_act hon rfl (cmdWrite_rprCtl d src ha (fmemLive_abort e hgo habort))
    · refine ⟨exec_of_act hon rfl (rowCompare_binds hx hphase hnew), fun bad hbad => ?_⟩
      exact exec_of_act hon rfl (rowCompare_differs hx hphase hnew hbad)
    · exact exec_of_act hon rfl (rowTimeout_ends hx ht hwaits)

end Sys2Proof.Machine
end

section
/-! PROOFS. Lane groups with their synthesiser and module, and receive lanes. -/

namespace Sys2Proof.Machine

open Sys2Proof

variable (d : Dev) {g l : Nat}

/-! ### The layout and the synthesiser of a lane group (R304, R306) -/

/-- `LG_CFG` holds RW fields only. -/
theorem regCodes_lgCfg : regCodes .lgrp LGRP.LG_CFG.off = some (0x3fffffff, 0, 0, 0x3fffffff) := by decide

/-- A group takes up a layout that differs from the one it had. -/
theorem lgrpLive_lgCfg {old new : Word} (h : old ≠ new) :
    d.lgrpLive g LGRP.LG_CFG.off old new = d.layoutLive g old new :=
  (if_pos rfl).trans (if_neg h)

/-- An accepted new `LG_CFG` is stored, and the group takes the layout up. -/
theorem cmdWrite_lgCfg (src : Source) {v : Word} (ha : Accepts d src .lgrp g LGRP.LG_CFG.off v)
    (hnew : d.raw (pg .lgrp g + LGRP.LG_CFG.off) ≠ heard d (pg .lgrp g) LGRP.LG_CFG 0x3fffffff v) :
    d.cmdWrite src .lgrp g LGRP.LG_CFG v =
      ((written d (pg .lgrp g) LGRP.LG_CFG 0x3fffffff 0 v).layoutLive g (d.raw (pg .lgrp g + LGRP.LG_CFG.off))
        (heard d (pg .lgrp g) LGRP.LG_CFG 0x3fffffff v)).breakLock .lgrp g LGRP.LG_CFG.off :=
  cmdWrite_eff d src 0x3fffffff 0 0x3fffffff ha regCodes_lgCfg (by decide) (by decide) rfl (lgrpLive_lgCfg _ hnew)

/-- A tuned synthesiser of a group that runs locks 5 ms after it was tuned, and DISABLED ports that may come up do. -/
theorem pllLock_tuned {t : Nat} (hlock : d.flag (pg .lgrp g) LGRP.LOCKED = false) (hrun : d.pwrState (pg .lgrp g) ≤ 1)
    (ht : Tab.get d.ln.tuneAt g = some t) : d.pllLock g =
      (let p := pg .lgrp g
       let e := d.pass (t + 5000000 - d.mono)
       let f : Dev := { e with ln := { e.ln with tuneAt := Tab.del e.ln.tuneAt g } }
       let h := ((f.setF p LGRP.LOCKED 1).setF p LGRP.REF_OK 1).setF p LGRP.F_USE (groupRate (f.reg p LGRP.LG_CFG))
       (List.range 8).foldl (fun e k => if e.st (pg .eth (g * 8 + k)) = 0 then e.bringUp (g * 8 + k) else e)
         (h.raise p LGRP.E_PLL_LOCK)) := by
  unfold Dev.pllLock
  rw [ht]
  exact if_pos ⟨hlock, hrun⟩

/-- A locked synthesiser that unlocks is counted and told, and the ports lose it. -/
theorem pllUnlock_locked (ok : Bool) (hlock : d.flag (pg .lgrp g) LGRP.LOCKED = true) : d.pllUnlock g ok =
    (let p := pg .lgrp g
     let e := ((d.setFlag p LGRP.REF_OK ok).setF p LGRP.LOCKED 0).count p LGRP.PLL_UNLOCK_CNT
     (e.raise p LGRP.E_PLL_UNLOCK).pllGone g) :=
  if_pos hlock

/-! ### Modules (R315) -/

/-- What a poll of a module shows in `MOD_STAT`; an absent module shows 0. -/
def modStatWord (present : Bool) (mstate dpstate rev flags : Nat) : Word :=
  if present then wd (2 ^ 31 + mstate % 8 * 2 ^ 28 + dpstate % 16 * 2 ^ 24 + rev % 256 * 65536 + flags % 65536) else 0

/-- A poll of a managed module tells a change, and keeps since when a module that is present has not activated its data
path. -/
theorem modulePoll_managed (present : Bool) (mstate dpstate rev flags : Nat)
    (hen : d.flag (pg .lgrp g) LGRP.MGMT_EN = true) : d.modulePoll g present mstate dpstate rev flags =
      (let p := pg .lgrp g
       let w := modStatWord present mstate dpstate rev flags
       let e := if w = d.reg p LGRP.MOD_STAT then d else (d.setReg p LGRP.MOD_STAT w).raise p LGRP.E_MOD_CHANGE
       let way := present && decide (dpstate % 16 ≠ 4)
       { e with ln := { e.ln with
         modAt := if way then Tab.ins e.ln.modAt g ((Tab.get e.ln.modAt g).getD e.mono) else Tab.del e.ln.modAt g,
         modBad := if way then e.ln.modBad else e.ln.modBad.filter fun x => decide (x ≠ g) } }) :=
  if_pos hen

/-- A managed module on its way for 10 s fails, and the enabled ports of its group go down. -/
theorem modFault_fails {t : Nat} (ht : Tab.get d.ln.modAt g = some t) (hen : d.flag (pg .lgrp g) LGRP.MGMT_EN = true)
    (hbad : g ∉ d.ln.modBad) : d.modFault g =
      (let e := d.pass (t + 10000000000 - d.mono)
       let f := ({ e with ln := { e.ln with modBad := e.ln.modBad ++ [g] } } : Dev).raise (pg .lgrp g) LGRP.E_MOD_FAULT
       (List.range 8).foldl (fun x k =>
         if x.ethCode (g * 8 + k) ≠ 0 ∧ x.flag (pg .eth (g * 8 + k)) HDR.ENABLE then x.ethDown (g * 8 + k) 1 else x) f) := by
  unfold Dev.modFault
  rw [ht]
  exact if_pos ⟨hen, by simpa using hbad⟩

/-- In `MOD_ACC`, `GO` is W1S, `ERR` is read only, and the other fields are RW. -/
theorem regCodes_modAcc : regCodes .lgrp LGRP.MOD_ACC.off = some (0x40ffffff, 0x80000000, 0, 0xc0ffffff) := by decide

/-- `GO` makes the access. -/
theorem lgrpLive_modAcc {old new : Word} (hgo : bitAt new 31 = true) :
    d.lgrpLive g LGRP.MOD_ACC.off old new = d.modAcc g :=
  (if_neg (by decide)).trans ((if_pos rfl).trans (if_pos hgo))

/-- An accepted `MOD_ACC` with `GO` is stored, and the access is made. -/
theorem cmdWrite_modAcc (src : Source) {w : Word} (ha : Accepts d src .lgrp g LGRP.MOD_ACC.off w)
    (hgo : bitAt (heard d (pg .lgrp g) LGRP.MOD_ACC 0xc0ffffff w) 31 = true) : d.cmdWrite src .lgrp g LGRP.MOD_ACC w =
      ((written d (pg .lgrp g) LGRP.MOD_ACC 0x40ffffff 0x80000000 w).modAcc g).breakLock .lgrp g LGRP.MOD_ACC.off :=
  cmdWrite_eff d src 0x40ffffff 0x80000000 0xc0ffffff ha regCodes_modAcc (by decide) (by decide) rfl (lgrpLive_modAcc _ hgo)

/-! ### Adaptation of a receive lane (R308 to R310) -/

/-- A tracking lane that has not adapted for 1 ms shows its margin, and tells when it crosses the threshold. -/
theorem adaptStep_due (m : Nat) (hadapt : d.fld (pg .lane l) LANE.ADAPT = 2)
    (hdue : ∀ t, Tab.get d.ln.adaptAt l = some t → t + 1000000 ≤ d.mono) : d.adaptStep l m =
      (let p := pg .lane l
       let x := sext 16 (m % 65536)
       let thr : Int := d.fld p LANE.MRG_THR
       let neg := if x < 0 then Tab.ins d.ln.negAt l ((Tab.get d.ln.negAt l).getD d.mono) else Tab.del d.ln.negAt l
       let e := ({ d with ln := { d.ln with adaptAt := Tab.ins d.ln.adaptAt l d.mono, negAt := neg } } : Dev).setF p LANE.MARGIN m
       let was := e.ln.low.contains l
       if !was ∧ x < thr then ({ e with ln := { e.ln with low := e.ln.low ++ [l] } } : Dev).raise p LANE.E_MARGIN_LOW
       else if was ∧ thr + 10 ≤ x then
         ({ e with ln := { e.ln with low := e.ln.low.filter fun x => decide (x ≠ l) } } : Dev).raise p LANE.E_MARGIN_OK
       else e) := by
  unfold Dev.adaptStep
  cases hlast : Tab.get d.ln.adaptAt l with
  | none => exact if_pos ⟨hadapt, rfl⟩
  | some t => exact if_pos ⟨hadapt, decide_eq_true (hdue t hlast)⟩

/-- A lane whose margin has been below zero for 1 s takes its port down to train again. -/
theorem marginRetrain_retrains {e t : Nat} (hport : d.portOfLane l = some e) (hneg : Tab.get d.ln.negAt l = some t)
    (hup : d.st (pg .eth e) = 3) (hauto : d.flag (pg .eth e) ETH.AUTO_RETRAIN = true) : d.marginRetrain l =
      (let f := d.pass (t + 1000000000 - d.mono)
       ({ f with ln := { f.ln with negAt := Tab.del f.ln.negAt l } } : Dev).ethDown e 5) := by
  unfold Dev.marginRetrain
  rw [hport, hneg]
  exact if_pos ⟨hup, hauto⟩

/-- A tracking lane without an estimate for 1 s shows a new one of its insertion loss. -/
theorem ilEstimate_due (il : Nat) (hadapt : d.fld (pg .lane l) LANE.ADAPT = 2)
    (hdue : ∀ t, Tab.get d.ln.ilAt l = some t → t + 1000000000 ≤ d.mono) : d.ilEstimate l il =
      (let p := pg .lane l
       ((({ d with ln := { d.ln with ilAt := Tab.ins d.ln.ilAt l d.mono } } : Dev).setF p LANE.IL il).setF p
         LANE.IL_VALID 1).setF p LANE.IL_SRC 1) := by
  unfold Dev.ilEstimate
  cases hlast : Tab.get d.ln.ilAt l with
  | none => exact if_pos ⟨hadapt, rfl⟩
  | some t => exact if_pos ⟨hadapt, decide_eq_true (hdue t hlast)⟩

/-! ### Clock recovery (R366) -/

/-- A lane that loses its clock counts the loss and acquires again, and its pattern checker loses its lock. -/
theorem cdrLoss_locked (hlock : d.flag (pg .lane l) LANE.CDR_LOCK = true) : d.cdrLoss l =
    (let p := pg .lane l
     let e := ((if d.fld p LANE.PRBS = 0 then d else d.prbsGone l).setF p LANE.CDR_LOCK 0).count p LANE.CDR_LOSS_CNT
     if e.fld p LANE.ADAPT = 0 then e else e.setF p LANE.ADAPT 1) :=
  if_pos hlock

/-- A lane that serves in a group whose synthesiser is locked recovers its clock, and one in use tracks. -/
theorem cdrLock_served (hpll : d.flag (pg .lgrp (l / 8)) LGRP.LOCKED = true)
    (hserves : d.flag (pg .lane l) LANE.RETIRE = false) : d.cdrLock l =
      (let p := pg .lane l
       let e := (d.setF p LANE.CDR_LOCK 1).setF p LANE.SIG_DET 1
       if e.rawLane l ∨ e.fld p LANE.ADAPT ≠ 0 then e.setF p LANE.ADAPT (if e.flag p LANE.FREEZE then 3 else 2) else e) :=
  if_pos ⟨hpll, hserves⟩

/-! ### Retirement of a lane (R544) -/

/-- `LN_CTL` holds one RW bit, `RETIRE`. -/
theorem regCodes_lnCtl : regCodes .lane LANE.LN_CTL.off = some (1, 0, 0, 1) := by decide

/-- An accepted `LN_CTL` is stored, and the lane hears of it. -/
theorem cmdWrite_lnCtl (src : Source) {v : Word} {x : Dev} (ha : Accepts d src .lane l LANE.LN_CTL.off v)
    (hx : (written d (pg .lane l) LANE.LN_CTL 1 0 v).laneLive l LANE.LN_CTL.off (d.raw (pg .lane l + LANE.LN_CTL.off))
      (heard d (pg .lane l) LANE.LN_CTL 1 v) = x) :
    d.cmdWrite src .lane l LANE.LN_CTL v = x.breakLock .lane l LANE.LN_CTL.off :=
  cmdWrite_eff d src 1 0 1 ha regCodes_lnCtl (by decide) (by decide) rfl hx

/-- The device with a lane that has stopped: its pattern checker, its adaptation and the signs of its signal are off. -/
def Dev.laneStopped (d : Dev) (l : Nat) : Dev :=
  (((d.prbsGone l).setF (lnPg l) LANE.ADAPT 0).setF (lnPg l) LANE.SIG_DET 0).setF (lnPg l) LANE.CDR_LOCK 0

section Retire

variable {old new : Word} (hnew : bitAt new 0 = true) (hold : bitAt old 0 = false)
include hnew hold

/-- A lane of no port that retires only stops. -/
theorem laneLive_retire_none (hport : (d.laneStopped l).portOfLane l = none) :
    d.laneLive l LANE.LN_CTL.off old new = (d.laneStopped l).refreshHealth := by
  unfold Dev.laneStopped at hport ⊢
  unfold Dev.laneLive
  rw [if_pos rfl, if_pos (by simp [hnew, hold])]
  simp only [hport]

/-- A lane that retires stops, and its enabled port goes down with cause 8. -/
theorem laneLive_retire_port {e : Nat} (hport : (d.laneStopped l).portOfLane l = some e) :
    d.laneLive l LANE.LN_CTL.off old new =
      (let f := d.laneStopped l
       (if f.flag (pg .eth e) HDR.ENABLE then f.ethDown e 8 else f).refreshHealth) := by
  unfold Dev.laneStopped at hport ⊢
  unfold Dev.laneLive
  rw [if_pos rfl, if_pos (by simp [hnew, hold])]
  simp only [hport]
  rfl

end Retire

section GiveBack

variable {old new : Word} (hnew : bitAt new 0 = false) (hold : bitAt old 0 = true)
include hnew hold

/-- A lane of no port that serves again changes `SVC_HEALTH` alone. -/
theorem laneLive_back_none (hport : d.portOfLane l = none) :
    d.laneLive l LANE.LN_CTL.off old new = d.refreshHealth := by
  unfold Dev.laneLive
  rw [if_pos rfl, if_neg (by simp [hnew]), if_pos (by simp [hnew, hold])]
  simp only [hport]

/-- A lane that serves again brings its port up. -/
theorem laneLive_back_port {e : Nat} (hport : d.portOfLane l = some e) :
    d.laneLive l LANE.LN_CTL.off old new = (d.bringUp e).refreshHealth := by
  unfold Dev.laneLive
  rw [if_pos rfl, if_neg (by simp [hnew]), if_pos (by simp [hnew, hold])]
  simp only [hport]

end GiveBack

/-- Settles O35: a group, its module or a lane takes the branch its premises choose, and the writes are accepted ones of
`LG_CFG`, `MOD_ACC` and `LN_CTL`. -/
theorem laneCommandsComplete : Obligations.LaneCommandsComplete := by
  unfold Obligations.LaneCommandsComplete
  refine ⟨fun s src g v hon => ?_, fun s src l v hon => ?_⟩
  · intro d p
    refine ⟨?_, fun hlock hrun t ht => ?_, fun ok hlock => ?_, fun present ms dp rev flags hen => ?_,
      fun t ht hen hbad => ?_, ?_⟩
    · intro old new e ha hnew f h
      exact exec_of_act hon rfl (cmdWrite_lgCfg d src ha hnew)
    · exact exec_of_act hon rfl (pllLock_tuned d hlock hrun ht)
    · exact exec_of_act hon rfl (pllUnlock_locked d ok hlock)
    · exact exec_of_act hon rfl (modulePoll_managed d present ms.toNat dp.toNat rev.toNat flags.toNat hen)
    · exact exec_of_act hon rfl (modFault_fails d ht hen hbad)
    · intro w e ha hgo
      exact exec_of_act hon rfl (cmdWrite_modAcc d src ha hgo)
  · intro d p noPattern
    refine ⟨fun hadapt hdue m => ?_, fun e t hport hneg hup hauto => ?_, fun hadapt hdue il => ?_, fun hlock => ?_,
      fun hpll hserves => ?_, ?_⟩
    · exact exec_of_act hon rfl (adaptStep_due d m.toNat hadapt hdue)
    · exact exec_of_act hon rfl (marginRetrain_retrains d hport hneg hup hauto)
    · exact exec_of_act hon rfl (ilEstimate_due d il.toNat hadapt hdue)
    · exact exec_of_act hon rfl (cdrLoss_locked d hlock)
    · exact exec_of_act hon rfl (cdrLock_served d hpll hserves)
    · intro old new e ha
      refine ⟨fun hnew hold => ?_, fun hnew hold => ⟨fun hport => ?_, fun g hport => ?_⟩⟩
      · intro f
        refine ⟨fun hport => ?_, fun g hport => ?_⟩
        · exact exec_of_act hon rfl (cmdWrite_lnCtl d src ha (laneLive_retire_none e hnew hold hport))
        · exact exec_of_act hon rfl (cmdWrite_lnCtl d src ha (laneLive_retire_port e hnew hold hport))
      · exact exec_of_act hon rfl (cmdWrite_lnCtl d src ha (laneLive_back_none e hnew hold hport))
      · exact exec_of_act hon rfl (cmdWrite_lnCtl d src ha (laneLive_back_port e hnew hold hport))

end Sys2Proof.Machine
end

section
/-! PROOFS. The states of an Ethernet port, and its channel survey. -/

namespace Sys2Proof.Machine

open Sys2Proof

variable (d : Dev) {e : Nat}

/-! ### Writes of a port's page (R302, R306, R311) -/

/-- A port hears of a register that pops no timestamp through its states alone. -/
theorem classLive_eth (src : Source) (via : Via) {off : Nat} (old new : Word) (h : off ≠ ETH.TXTS_POP.off) :
    d.classLive src .eth e off via old new = d.ethLive e off old new :=
  if_neg fun x => h x.1

/-- A word that leaves `PWR_REQ` as it was is the block's alone. -/
theorem react_samePower (src : Source) {c : Cls} {i : Nat} (via : Via) {off : Nat} {old new : Word}
    (h : fieldChanged HDR.PWR_REQ old new = false) :
    d.react src c i off via old new = d.classLive src c i off via old new :=
  if_neg fun x => Bool.eq_false_iff.mp h x.2

/-- In a port's `PAGE_CTL`, `BLK_RST` is W1S and the other fields are RW. -/
theorem regCodes_ethPageCtl : regCodes .eth HDR.PAGE_CTL.off = some (0xc1, 2, 0, 0xc3) := by decide

theorem ethLive_enable {old new : Word} (h : bitAt new 0 ≠ bitAt old 0) :
    d.ethLive e HDR.PAGE_CTL.off old new = d.ethEnable e (bitAt new 0) :=
  (if_pos rfl).trans (if_neg h)

/-- An accepted `PAGE_CTL` that changes `ENABLE` alone is stored, and enables or disables the port. -/
theorem cmdWrite_ethEnable (src : Source) {w : Word} (ha : Accepts d src .eth e HDR.PAGE_CTL.off w) (hrst : bitAt w 1 = false)
    (hen : bitAt (heard d (pg .eth e) HDR.PAGE_CTL 0xc3 w) 0 ≠ bitAt (d.raw (pg .eth e + HDR.PAGE_CTL.off)) 0)
    (hpwr : fieldChanged HDR.PWR_REQ (d.raw (pg .eth e + HDR.PAGE_CTL.off)) (heard d (pg .eth e) HDR.PAGE_CTL 0xc3 w) = false) :
    d.cmdWrite src .eth e HDR.PAGE_CTL w = ((written d (pg .eth e) HDR.PAGE_CTL 0xc1 2 w).ethEnable e
      (bitAt (heard d (pg .eth e) HDR.PAGE_CTL 0xc3 w) 0)).breakLock .eth e HDR.PAGE_CTL.off := by
  rw [cmdWrite_ctl d src 0xc1 2 0xc3 ha hrst regCodes_ethPageCtl (by decide), react_samePower _ src _ hpwr,
    classLive_eth _ src _ _ _ (by decide), ethLive_enable _ hen]

/-- In `ETH_CTL`, `RETRAIN` and `SV_GO` are W1S and the other fields are RW. -/
theorem regCodes_ethCtl : regCodes .eth ETH.ETH_CTL.off = some (0x3ffff, 0xc0000000, 0, 0xc003ffff) := by decide

/-- An accepted `ETH_CTL` is stored, and the port hears of it. -/
theorem cmdWrite_ethCtl (src : Source) {w : Word} {x : Dev} (ha : Accepts d src .eth e ETH.ETH_CTL.off w)
    (hx : (written d (pg .eth e) ETH.ETH_CTL 0x3ffff 0xc0000000 w).ethLive e ETH.ETH_CTL.off
      (d.raw (pg .eth e + ETH.ETH_CTL.off)) (heard d (pg .eth e) ETH.ETH_CTL 0xc003ffff w) = x) :
    d.cmdWrite src .eth e ETH.ETH_CTL w = x.breakLock .eth e ETH.ETH_CTL.off :=
  cmdWrite_eff d src 0x3ffff 0xc0000000 0xc003ffff ha regCodes_ethCtl (by decide) (by decide) rfl
    ((classLive_eth _ src _ _ _ (by decide)).trans hx)

/-- `RETRAIN` without a new `SV_GO` takes a port that is UP down with cause 5. -/
theorem ethLive_retrain {old new : Word} (hretrain : bitAt new 31 = true) (hgo : bitAt new 30 = false ∨ bitAt old 30 = true) :
    d.ethLive e ETH.ETH_CTL.off old new = (d.setF (pg .eth e) ETH.RETRAIN 0).ethLose e 5 := by
  have hnone : ¬ (bitAt new 30 && !bitAt old 30) = true := by rcases hgo with h | h <;> simp [h]
  unfold Dev.ethLive
  dsimp only
  rw [if_neg (by decide), if_neg (by decide), if_pos rfl, if_pos hretrain, if_neg hnone]
  rfl

/-- A new `SV_GO` without `RETRAIN` asks for a survey. -/
theorem ethLive_svGo {old new : Word} (hretrain : bitAt new 31 = false) (hgo : bitAt new 30 = true)
    (hold : bitAt old 30 = false) : d.ethLive e ETH.ETH_CTL.off old new = d.svGo e := by
  unfold Dev.ethLive
  dsimp only
  rw [if_neg (by decide), if_neg (by decide), if_pos rfl, if_neg (Bool.eq_false_iff.mp hretrain), if_pos (by simp [hgo, hold])]

/-! ### Negotiation and training (R306) -/

theorem anResolved_inAn (hst : d.st (pg .eth e) = 1) : d.anResolved e =
    if d.flag (pg .eth e) ETH.TRAIN_EN then d.ethTo e 2 else d.ethDown e 0 :=
  if_pos hst

theorem anFail_inAn (hst : d.st (pg .eth e) = 1) : d.anFail e =
    ((d.pass ((d.eth e).since + 3000000000 - d.mono)).ethDown e 6).raise (pg .eth e) ETH.E_AN_FAIL :=
  if_pos hst

theorem trainingDone_inTraining (hst : d.st (pg .eth e) = 2) : d.trainingDone e = (d.lanesAdapt e 2).ethDown e 0 :=
  if_pos hst

theorem trainingTimeout_inTraining (hst : d.st (pg .eth e) = 2) :
    d.trainingTimeout e = (d.pass ((d.eth e).since + 3000000000 - d.mono)).ethDown e 7 :=
  if_pos hst

/-! ### Links (R306, R315) -/

/-- A DOWN port that may come up, with no failed module, comes up with its lanes locked. -/
theorem linkUp_comesUp (hst : d.st (pg .eth e) = 4) (hmay : d.ethMay e = true) (hmod : e / 8 ∉ d.ln.modBad) : d.linkUp e =
    (let p := pg .eth e
     let f := ((d.setF p ETH.PCS_LOCK 1).setF p ETH.FEC_LOCK (if d.fld p ETH.FEC = 0 then 0 else 1)).lanesAdapt e 2
     let g := (f.ethLanes e).foldl (fun x l => (x.setF (pg .lane l) LANE.SIG_DET 1).setF (pg .lane l) LANE.CDR_LOCK 1) f
     (g.ethTo e 3).raise p ETH.E_LINK_UP) :=
  if_pos ⟨hst, hmay, by simpa using hmod⟩

theorem bringupRetry_retries (hst : d.st (pg .eth e) = 4) (hmay : d.ethMay e = true) :
    d.bringupRetry e = (d.pass ((d.eth e).since + 100000000 - d.mono)).bringUp e :=
  if_pos ⟨hst, hmay⟩

theorem linkDown_port (why : Nat) (hst : d.st (pg .eth e) = 3) : d.linkDown e why none = d.ethDown e why :=
  if_pos hst

/-- A lane of the port that lost its signal shows it. -/
theorem linkDown_lane (why l : Nat) (hst : d.st (pg .eth e) = 3) : d.linkDown e why (some l) =
    (if why = 1 ∧ (d.ethLanes e).contains l then d.setF (pg .lane l) LANE.SIG_DET 0 else d).ethDown e why :=
  if_pos hst

/-! ### Channel surveys (R311) -/

/-- The device with what a survey reports on the lanes of its port. -/
def Dev.lanesSurveyed (d : Dev) (e : Nat) (lanes : List LaneSurvey) : Dev :=
  ((d.ethLanes e).zip lanes).foldl (fun x y => x.laneSurvey y.1 (d.fld (pg .eth e) ETH.SV_CLASS) y.2) d

/-- A survey that finds no partner ends with status 2. -/
theorem ethSurveyEnd_alone (lanes : List LaneSurvey) (hst : d.st (pg .eth e) = 5) :
    d.ethSurveyEnd e lanes none = ((d.lanesSurveyed e lanes).setReg (pg .eth e) ETH.SV_PARTNER 0).surveyDone e 2 :=
  if_pos hst

/-- A survey that finds a partner shows its abilities, and ends with status 1. -/
theorem ethSurveyEnd_partner (lanes : List LaneSurvey) (fec ability : Nat) (hst : d.st (pg .eth e) = 5) :
    d.ethSurveyEnd e lanes (some (fec, ability)) = ((d.lanesSurveyed e lanes).setReg (pg .eth e) ETH.SV_PARTNER
      (wd (2 ^ 31 + fec % 4 * 2 ^ 29 + ability % 2 ^ 23))).surveyDone e 1 :=
  if_pos hst

/-- Settles O36: the port takes the branch its state chooses, and the writes are accepted ones of `PAGE_CTL` and `ETH_CTL`. -/
theorem ethernetPortsComplete : Obligations.EthernetPortsComplete := by
  unfold Obligations.EthernetPortsComplete
  intro s src e v hon d p
  refine ⟨fun on => ?_, fun hst => ⟨?_, ?_⟩, fun hst => ⟨?_, ?_⟩, fun hst hmay => ⟨fun hmod => ?_, ?_⟩,
    fun hst why => ⟨?_, fun l => ?_⟩, ?_, ?_, fun lanes partner hst => ?_⟩
  · intro w old new ha hrst hen hpwr
    exact exec_of_act hon rfl (cmdWrite_ethEnable d src ha hrst hen hpwr)
  · exact exec_of_act hon rfl (anResolved_inAn d hst)
  · exact exec_of_act hon rfl (anFail_inAn d hst)
  · exact exec_of_act hon rfl (trainingDone_inTraining d hst)
  · exact exec_of_act hon rfl (trainingTimeout_inTraining d hst)
  · exact exec_of_act hon rfl (linkUp_comesUp d hst hmay hmod)
  · exact exec_of_act hon rfl (bringupRetry_retries d hst hmay)
  · exact exec_of_act hon rfl (linkDown_port d why hst)
  · exact exec_of_act hon rfl (linkDown_lane d why l hst)
  · intro w old new f ha hretrain hgo
    exact exec_of_act hon rfl (cmdWrite_ethCtl d src ha (ethLive_retrain f hretrain hgo))
  · intro w old new f ha hretrain hgo hold
    exact exec_of_act hon rfl (cmdWrite_ethCtl d src ha (ethLive_svGo f hretrain hgo hold))
  · refine ⟨?_, ?_⟩
    · rintro rfl
      exact exec_of_act hon rfl (ethSurveyEnd_alone d lanes hst)
    · rintro a rfl
      exact exec_of_act hon rfl (ethSurveyEnd_partner d lanes a.1.val a.2.toNat hst)

end Sys2Proof.Machine
end

section
/-! PROOFS. Device time: the servo with its sources, transmit timestamps, and media clock generators. -/

namespace Sys2Proof.Machine

open Sys2Proof

variable (d : Dev)

/-! ### Measurements (R323, R324) -/

/-- In `SRV_PUSH`, `GO` is W1S and `SRV_PUSH_FRAC` is RW. -/
theorem regCodes_srvPush : regCodes .time TIME.SRV_PUSH.off = some (0xffff, 0x80000000, 0, 0x8000ffff) := by decide

theorem timeLive_srvPush {old new : Word} (hgo : bitAt new 31 = true) :
    d.timeLive TIME.SRV_PUSH.off old new = d.servoPush :=
  (if_pos rfl).trans (if_pos hgo)

/-- An accepted `SRV_PUSH` with `GO` is stored, and the servo takes the measurement. -/
theorem cmdWrite_srvPush (src : Source) {w : Word} (ha : Accepts d src .time 0 TIME.SRV_PUSH.off w)
    (hgo : bitAt (heard d (pg .time 0) TIME.SRV_PUSH 0x8000ffff w) 31 = true) : d.cmdWrite src .time 0 TIME.SRV_PUSH w =
      (written d (pg .time 0) TIME.SRV_PUSH 0xffff 0x80000000 w).servoPush.breakLock .time 0 TIME.SRV_PUSH.off :=
  cmdWrite_eff d src 0xffff 0x80000000 0x8000ffff ha regCodes_srvPush (by decide) (by decide) rfl (timeLive_srvPush _ hgo)

/-- How far the edges of a reference of a kind that have a place in the grid of generator `mcg` stand from it. -/
def Dev.gridOffsets (d : Dev) (kind mcg : Nat) (edges : List Nat) : List Int :=
  edges.filterMap fun t => (d.refGrid kind mcg t).map fun g => ((t : Int) - (g : Int))

/-- The reference that the servo follows, present and with edges in its grid, gives their mean. -/
theorem refinMeasure_mean {edges : List Nat} (hsrc : d.fld tmPg TIME.SRC = 2) :
    let i := d.fld tmPg TIME.REFIN
    let q := pg .pdie (i / 2)
    let kind := d.fld q (PDIE.KIND.at (i % 2))
    let offs := d.gridOffsets kind (d.fld tmPg TIME.REF_MCG) edges
    kind ≠ 0 → d.flag q (PDIE.PRESENT.at (i % 2)) = true → offs ≠ [] →
      d.refinMeasure edges = d.measure (offs.foldl (· + ·) 0 * 65536 / (offs.length : Int)) :=
  fun hkind hpresent hoffs => if_pos ⟨hsrc, hkind, hpresent, hoffs⟩

/-! ### The states of the servo (R320, R322) -/

/-- A locked servo that follows pushes goes to holdover when the timeout of the last one has passed. -/
theorem measTimeout_locked (hlocked : d.servo = 2) (hsrc : d.fld tmPg TIME.SRC = 1) :
    d.measTimeout = (d.pass (d.tm.pushAt + d.tm.pushTmo * 1000000 - d.mono)).toHoldover 1 :=
  if_pos ⟨hlocked, hsrc⟩

/-- Offsets large for 10 s ask for a step, once. -/
theorem stepWanted_told {t : Nat} (ht : d.tm.bigSince = some t) (hst : 2 ≤ d.servo)
    (hwant : d.flag tmPg TIME.STEP_WANT = false) : d.stepWanted =
      ((d.pass (t + 10000000000 - d.mono)).setF tmPg TIME.STEP_WANT 1).raise tmPg TIME.E_STEP_WANTED := by
  unfold Dev.stepWanted
  rw [ht]
  exact if_pos ⟨hst, hwant⟩

/-- `TIME_SRC` holds RW fields only. -/
theorem regCodes_timeSrc : regCodes .time TIME.TIME_SRC.off = some (0xffff0dc3, 0, 0, 0xffff0dc3) := by decide

theorem timeLive_timeSrc (old new : Word) : d.timeLive TIME.TIME_SRC.off old new = d.timeSrc old new :=
  (if_neg (by decide)).trans ((if_neg (by decide)).trans (if_pos rfl))

/-- An accepted `TIME_SRC` is stored, and the servo hears of the change. -/
theorem cmdWrite_timeSrc (src : Source) {v : Word} (ha : Accepts d src .time 0 TIME.TIME_SRC.off v) :
    d.cmdWrite src .time 0 TIME.TIME_SRC v =
      ((written d (pg .time 0) TIME.TIME_SRC 0xffff0dc3 0 v).timeSrc (d.raw (pg .time 0 + TIME.TIME_SRC.off))
        (heard d (pg .time 0) TIME.TIME_SRC 0xffff0dc3 v)).breakLock .time 0 TIME.TIME_SRC.off :=
  cmdWrite_eff d src 0xffff0dc3 0 0xffff0dc3 ha regCodes_timeSrc (by decide) (by decide) rfl (timeLive_timeSrc _ _ _)

/-- `TIME_CMD` holds W1S fields only, `SET` and `REACQUIRE`. -/
theorem regCodes_timeCmd : regCodes .time TIME.TIME_CMD.off = some (0, 3, 0, 3) := by decide

/-- `REACQUIRE` goes to acquisition, whatever `SET` asks for. -/
theorem timeLive_reacquire {old new : Word} (h1 : bitAt new 1 = true) :
    d.timeLive TIME.TIME_CMD.off old new = (d.put (tmPg + TIME.TIME_CMD.off) 0).toAcquire :=
  (if_neg (by decide)).trans ((if_pos rfl).trans (if_pos h1))

/-- `SET` alone steps device time. -/
theorem timeLive_set {old new : Word} (h1 : bitAt new 1 = false) (h0 : bitAt new 0 = true) :
    d.timeLive TIME.TIME_CMD.off old new = (d.put (tmPg + TIME.TIME_CMD.off) 0).timeSet :=
  (if_neg (by decide)).trans ((if_pos rfl).trans ((if_neg (Bool.eq_false_iff.mp h1)).trans (if_pos h0)))

/-- An accepted `TIME_CMD` is stored, and the servo or device time takes the command. -/
theorem cmdWrite_timeCmd (src : Source) {w : Word} {x : Dev} (ha : Accepts d src .time 0 TIME.TIME_CMD.off w)
    (hx : (written d (pg .time 0) TIME.TIME_CMD 0 3 w).timeLive TIME.TIME_CMD.off (d.raw (pg .time 0 + TIME.TIME_CMD.off))
      (heard d (pg .time 0) TIME.TIME_CMD 3 w) = x) :
    d.cmdWrite src .time 0 TIME.TIME_CMD w = x.breakLock .time 0 TIME.TIME_CMD.off :=
  cmdWrite_eff d src 0 3 3 ha regCodes_timeCmd (by decide) (by decide) rfl hx

/-! ### Transmit timestamps (R326) -/

/-- `TXTS_POP` holds one WO bit, `POP`. -/
theorem regCodes_txtsPop : regCodes .eth ETH.TXTS_POP.off = some (0, 0, 0, 1) := by decide

/-- The states of a port do not hear of `TXTS_POP`, and `POP` takes the oldest timestamp away. -/
theorem classLive_txtsPop (src : Source) {e : Nat} (via : Via) {old new : Word} (hpop : bitAt new 0 = true) :
    d.classLive src .eth e ETH.TXTS_POP.off via old new = d.txtsPop e :=
  have hstates : d.ethLive e ETH.TXTS_POP.off old new = d :=
    (if_neg (by decide)).trans ((if_neg (by decide)).trans (if_neg (by decide)))
  (if_pos ⟨rfl, hpop⟩).trans (congrArg (Dev.txtsPop · e) hstates)

/-- An accepted `TXTS_POP` with `POP` takes the oldest timestamp of the port away. -/
theorem cmdWrite_txtsPop (src : Source) {e : Nat} {w : Word} (ha : Accepts d src .eth e ETH.TXTS_POP.off w)
    (hpop : bitAt (heard d (pg .eth e) ETH.TXTS_POP 1 w) 0 = true) : d.cmdWrite src .eth e ETH.TXTS_POP w =
      ((written d (pg .eth e) ETH.TXTS_POP 0 0 w).txtsPop e).breakLock .eth e ETH.TXTS_POP.off :=
  cmdWrite_eff d src 0 0 1 ha regCodes_txtsPop (by decide) (by decide) rfl (classLive_txtsPop _ src _ hpop)

/-! ### Media clocks (R328) -/

/-- A generator with an instant to start at runs from the first edge of its rate that is not before it. -/
theorem mcgStart_due {n t : Nat} (ht : Tab.get d.tm.starts n = some t) : d.mcgStart n =
    (let r := d.mcgRate n
     let e := d.reach (edgeTime r (edgeAt r t))
     let f : Dev := { e with tm := { e.tm with starts := Tab.del e.tm.starts n } }
     ((f.setF (mcgPg n) MCG.RUNNING 1).mcgRebase n).raise (mcgPg n) MCG.E_MCG_START) := by
  unfold Dev.mcgStart
  rw [ht]

/-- Settles O37: the servo and a generator take the branch their premises choose, and the writes are accepted ones of
`SRV_PUSH`, `TIME_SRC`, `TIME_CMD` and `TXTS_POP`. -/
theorem timeCommandsComplete : Obligations.TimeCommandsComplete := by
  unfold Obligations.TimeCommandsComplete
  intro s src v hon d p
  refine ⟨?_, fun edges => ?_, fun hlocked hsrc => ?_, fun t ht hst hwant => ?_, ?_, ?_, ?_, fun port => ?_, fun n t ht => ?_⟩
  · intro w e ha hgo ofs f
    exact exec_of_act hon rfl (cmdWrite_srvPush d src ha hgo)
  · intro i q kind offs hsrc hkind hpresent hoffs
    exact exec_of_act hon rfl (refinMeasure_mean d hsrc hkind hpresent hoffs)
  · exact exec_of_act hon rfl (measTimeout_locked d hlocked hsrc)
  · exact exec_of_act hon rfl (stepWanted_told d ht hst hwant)
  · intro old new e ha ref
    exact exec_of_act hon rfl (cmdWrite_timeSrc d src ha)
  · intro w e ha h1
    exact exec_of_act hon rfl (cmdWrite_timeCmd d src ha (timeLive_reacquire _ h1))
  · intro w e new ha h1 h0
    exact exec_of_act hon rfl (cmdWrite_timeCmd d src ha (timeLive_set _ h1 h0))
  · intro q w e ha hpop
    exact exec_of_act hon rfl (cmdWrite_txtsPop d src ha hpop)
  · exact exec_of_act hon rfl (mcgStart_due d ht)

end Sys2Proof.Machine
end

section
/-! PROOFS. Media engines: the flow table, frames at a port, the timeouts of receive flows, and packets that leave. -/

namespace Sys2Proof.Machine

open Sys2Proof

variable (d : Dev) {f : Nat}

/-! ### The flow table (R332) -/

/-- A dword of the flow table, where the media pages answer. -/
theorem busWrite_flowTable (src : Source) {k : Nat} (v : Word) (full : Bool) (e : EccEvent) (hf : f < 16384) (hk : k < 16)
    (ha : d.answers .media = true) : d.busWrite src (0x600000 + f * 64 + 4 * k) v full e = d.writeFlow src f k v full := by
  have hentry : (0x600000 + f * 64 + 4 * k - 0x600000) / 64 = f := by omega
  have hword : (0x600000 + f * 64 + 4 * k) % 64 / 4 = k := by omega
  unfold Dev.busWrite
  rw [if_neg (by omega), if_neg (by omega), if_pos (by omega), if_pos ha, hentry, hword]

/-- A write that no cause refuses is stored, except to `LOST`; `VALID` of word 0 starts the flow, or stops a valid one. -/
theorem ftWrite_accepted (src : Source) {k : Nat} {v : Word} {full : Bool} (hcause : d.ftCause f k v full = 0)
    (hk : k ≠ 15) : d.ftWrite src f k v full =
      (let e := d.setFt f k (d.ftNew f k v)
       if k ≠ 0 then e else if bitAt (d.ftWord f 0) 31 then e.ftStop f else if bitAt v 31 then e.ftStart f else e) :=
  (if_neg (not_not_intro hcause)).trans (if_neg hk)

/-! ### Frames at a port that is UP (R305, R334) -/

section Receive

variable {port : Nat} {x : EthFrame} (hup : d.st (pg .eth port) = 3)
include hup

theorem packetReceive_badFcs (b : List Nat) : d.packetReceive port (.badFcs b) = d.count64 (pg .eth port) ETH.RX_FCS_ERR :=
  if_neg (not_not_intro hup)

/-- A whole frame longer than `MTU` is counted and dropped. -/
theorem packetReceive_tooLong (hfcs : ∀ b, x ≠ .badFcs b) (hlen : d.fld (pg .eth port) ETH.MTU < (ethOctets x).length) :
    d.packetReceive port x = d.count64 (pg .eth port) ETH.RX_TOO_LONG := by
  cases x with
  | badFcs b => exact absurd rfl (hfcs b)
  | rtp | ptp | host | multicast | control => exact (if_neg (not_not_intro hup)).trans (if_pos hlen)

/-- A control frame that fits `MTU` is counted and dropped. -/
theorem packetReceive_control {b : List Nat} (hlen : (ethOctets (.control b)).length ≤ d.fld (pg .eth port) ETH.MTU) :
    d.packetReceive port (.control b) = d.count64 (pg .eth port) ETH.RX_CTRL :=
  (if_neg (not_not_intro hup)).trans (if_neg (Nat.not_lt_of_le hlen))

/-- Any other frame that fits `MTU` is counted, and goes to the engine of the port while it runs. -/
theorem packetReceive_passes (hfcs : ∀ b, x ≠ .badFcs b) (hcontrol : ∀ b, x ≠ .control b)
    (hlen : (ethOctets x).length ≤ d.fld (pg .eth port) ETH.MTU) : d.packetReceive port x =
      (let p := pg .eth port
       let e := (d.count64 p ETH.RX_FRAMES).count64 p ETH.RX_OCTETS (ethOctets x).length
       if e.mediaRuns (port / 8) then e.engineRx port x else e) := by
  cases x with
  | badFcs b => exact absurd rfl (hfcs b)
  | control b => exact absurd rfl (hcontrol b)
  | rtp | ptp | host | multicast => exact (if_neg (not_not_intro hup)).trans (if_neg (Nat.not_lt_of_le hlen))

end Receive

/-! ### Timeouts of receive flows (R334 to R336) -/

/-- What stands between a receive flow that runs and the first packet behind its gap is lost: it is counted, an audio flow
fills its slots, and the packets that now are next in order are delivered. -/
theorem gapTimeout_gives_up {p : RtpPacket} (hheld : d.rxFirstHeld f = some p) (hvalid : (d.ent f).valid = true)
    (hrx : (d.ent f).tx = false) (hruns : d.mediaRuns (d.ent f).engine = true) : d.gapTimeout f =
      (let e := d.ent f
       let opened := (d.rxFlow f).held.foldl (fun t h => Nat.min t h.1) d.mono
       let a := d.pass (opened + e.skew * 1000 - d.mono)
       let n := a.rxAhead f p.seq
       let b := (a.entLost f n).count (pg .media e.engine) MEDIA.LOST_CNT n
       let c := if e.audio then b.rxFaultGap f n p.ts else b
       let y := c.rxFlow f
       let g := (c.setRxFlow f { y with
         next := p.seq % e.seqMod, pos := y.pos + n, lost := y.lost ++ (List.range n).map (y.pos + ·) }).raiseLost f
       g.rxDrain f (y.held.length + 1)) := by
  unfold Dev.gapTimeout
  rw [hheld]
  exact if_pos (by simp [hvalid, hrx, hruns])

/-- An audio flow that has started fills the slots of the packet due, `SKEW` after it was due. -/
theorem audioTimeout_fills (hvalid : (d.ent f).valid = true) (hrx : (d.ent f).tx = false) (haudio : (d.ent f).audio = true)
    (hstarted : (d.rxFlow f).started = true) (hruns : d.mediaRuns (d.ent f).engine = true) : d.audioTimeout f =
      (let e := d.ent f
       let due := (d.rxFlow f).mark + d.entPeriod e
       let a := (d.pass (due + e.skew * 1000 - d.mono)).rxFault f e.slots
       a.setRxFlow f { a.rxFlow f with mark := due }) :=
  if_pos (by simp [hvalid, hrx, haudio, hstarted, hruns])

/-- A path that was up is marked down, and told, when it has been silent for as long as its entry allows. -/
theorem pathDown_marks (path : Bool) (hvalid : (d.ent f).valid = true)
    (hup : bitAt (d.ftWord f 14) (if path then 28 else 29) = true) : d.pathDown f path =
      (let e := d.ent f
       let x := d.rxFlow f
       let bit := if path then 28 else 29
       let a := d.pass ((if path then x.lastB else x.lastA) + d.entSilence e - d.mono)
       (a.setFt f 14 (setBits (a.ftWord f 14) bit bit 0)).raise (pg .media e.engine) MEDIA.E_PATH_DOWN
         (wd ((if path then 65536 else 0) + f))) :=
  if_pos (by simp [hvalid, hup])

/-! ### Packets that leave (R338) -/

/-- A transmit flow of an engine that runs sends a packet of its type. -/
theorem packetSend_flow (f : Fin 16384) (hvalid : (d.ent f).valid = true) (htx : (d.ent f).tx = true)
    (hruns : d.mediaRuns (d.ent f).engine = true) : d.packetSend (.flow f) =
      if (d.ent f).audio then d.txAudio f else if (d.ent f).ty = 0 then d.txVideo f else d.txPayload f :=
  if_pos (by simp [hvalid, htx, hruns])

/-- The first frame that the host has queued for a port leaves the queue. -/
theorem packetSend_host {port : Fin 64} (ptp : Option (Bool × Nat)) {x : Nat × List Nat}
    (hx : (d.hs.txq.find? fun x => decide (x.1 = port.val)) = some x) : d.packetSend (.host port ptp) =
      ({ d with hs := { d.hs with txq := d.hs.txq.erase x } } : Dev).hostOut port x.2 ptp := by
  unfold Dev.packetSend
  dsimp only
  rw [hx]

/-- Settles O38: a frame is told by its kind and length, and a flow takes the branch its entry chooses. -/
theorem mediaCommandsComplete : Obligations.MediaCommandsComplete := by
  unfold Obligations.MediaCommandsComplete
  intro s hon d
  refine ⟨fun src f k v hanswers hcause hk => ?_, fun port x => ?_, fun f => ?_, fun port ptp x hx => ?_⟩
  · intro e
    refine exec_of_act hon rfl ?_
    rw [busWrite_flowTable _ src v true _ f.isLt k.isLt hanswers]
    exact ftWrite_accepted d src hcause hk
  · intro p hup
    refine ⟨?_, fun hfcs => ⟨fun hlen => ?_, fun hlen => ⟨?_, fun hcontrol => ?_⟩⟩⟩
    · rintro b rfl
      exact exec_of_act hon rfl (congrArg Dev.hostqTrim (packetReceive_badFcs d hup b))
    · exact exec_of_act hon rfl (congrArg Dev.hostqTrim (packetReceive_tooLong d hup hfcs hlen))
    · rintro b rfl
      exact exec_of_act hon rfl (congrArg Dev.hostqTrim (packetReceive_control d hup hlen))
    · exact exec_of_act hon rfl (congrArg Dev.hostqTrim (packetReceive_passes d hup hfcs hcontrol hlen))
  · intro e x
    refine ⟨fun p hheld hvalid hrx hruns => ?_, fun hvalid hrx haudio hstarted hruns => ?_, fun path => ?_,
      fun hvalid htx hruns => ?_⟩
    · exact exec_of_act hon rfl (gapTimeout_gives_up d hheld hvalid hrx hruns)
    · exact exec_of_act hon rfl (audioTimeout_fills d hvalid hrx haudio hstarted hruns)
    · intro bit hvalid hup
      exact exec_of_act hon rfl (pathDown_marks d path hvalid hup)
    · exact exec_of_act hon rfl (packetSend_flow d f hvalid htx hruns)
  · exact exec_of_act hon rfl (packetSend_host d ptp hx)

end Sys2Proof.Machine
end

section
/-! PROOFS. The image store: what no step but its own commands stores to. -/

namespace Sys2Proof.Machine

open Sys2Proof

/-- Settles O57: that the image store is as it was is kept by every operation that does not store to it. -/
theorem imageStoreKept : Obligations.ImageStoreKept := by
  unfold Obligations.ImageStoreKept
  intro s t a hc he
  have ks : ∀ c rest, s.pending = c :: rest → storesToImages c = true → KeepsSto fun d => d.sto.bytes = s.dev.sto.bytes := by
    intro c rest hp hs
    rw [hc c rest hp] at hs
    cases hs
  have hbytes : t.dev.sto.bytes = s.dev.sto.bytes :=
    step_keeps (keeps_store s.dev.sto.bytes).toKeeps (fun _ _ _ _ => keeps_store _) ks rfl he
  rw [hbytes]

end Sys2Proof.Machine
end

section
/-! PROOFS. The logic fabric: taps, block memory, oscillators, the user store port and register accesses of fabric ports. -/

namespace Sys2Proof.Machine

open Sys2Proof

variable (d : Dev)

/-! ### Taps and block memory (R353, R360, R361) -/

/-- `TAP_CTL` holds one W1S bit. -/
theorem regCodes_tapCtl : regCodes .freg FREG.TAP_CTL.off = some (0, 1, 0, 1) := by decide

theorem cmdWrite_tapCtl (src : Source) (n : Fin 32) {v : Word} (ha : Accepts d src .freg n FREG.TAP_CTL.off v)
    (hgo : bitAt (heard d (frPg n) FREG.TAP_CTL 1 v) 0 = true) :
    d.cmdWrite src .freg n FREG.TAP_CTL v =
      ((written d (frPg n) FREG.TAP_CTL 0 1 v).tapRearm n).breakLock .freg n FREG.TAP_CTL.off :=
  cmdWrite_eff d src 0 1 1 ha regCodes_tapCtl (by decide) (by decide) rfl (if_pos hgo)

theorem bramStep_clean {n b : Nat} {pa pb : Option BramOp}
    (h : d.reg (frPg n) FREG.BRAM_UE_CNT = (d.bramAccess n b pa pb).reg (frPg n) FREG.BRAM_UE_CNT) :
    d.bramStep n b pa pb = d.bramAccess n b pa pb := if_neg (not_not_intro h)

theorem bramStep_uncorrectable {n b : Nat} {pa pb : Option BramOp}
    (h : d.reg (frPg n) FREG.BRAM_UE_CNT ≠ (d.bramAccess n b pa pb).reg (frPg n) FREG.BRAM_UE_CNT) :
    d.bramStep n b pa pb = (d.bramAccess n b pa pb).hoBramUe n := if_pos h

/-- A walk that has not completed in its second is marked, and told. -/
theorem walkStale_marks {n b : Nat} (hecc : d.bramEcc n b = true) (hfresh : (d.region n).stale / 2 ^ b % 2 = 0) :
    d.walkStale n b true = (let x := d.region n
      ((d.setRegion n { x with stale := x.stale + 2 ^ b }).setF (frPg n) FREG.WALK_STALE 1).raise (frPg n)
        FREG.E_WALK_STALE (wd b)) := by
  unfold Dev.walkStale
  simp [hecc, hfresh]

/-- A walk that completes is stale no more, and the sign goes with the last one. -/
theorem walkStale_clears {n b : Nat} (hecc : d.bramEcc n b = true) (hstale : (d.region n).stale / 2 ^ b % 2 = 1) :
    d.walkStale n b false = (let x := d.region n
      (d.setRegion n { x with stale := x.stale - 2 ^ b }).setF (frPg n) FREG.WALK_STALE
        (if x.stale - 2 ^ b = 0 then 0 else 1)) := by
  unfold Dev.walkStale
  simp [hecc, hstale]

/-! ### Oscillators (R367) -/

theorem oscMeasure_shows {k : Nat} (khz : Nat) (hen : d.flag (frPg (4 * k)) FREG.OSC_CFG_EN = true) :
    d.oscMeasure k khz =
      (let e := d.setReg (frPg (4 * k)) FREG.OSC_MEAS (wd (2 ^ 31 + khz % 2 ^ 20))
       if khz < 45000 ∨ 880000 < khz then e.raise (frPg (4 * k)) FREG.E_OSC_RANGE else e) := if_pos hen

/-! ### The user store port (R369) -/

section Store

variable {n addr len : Nat} {write : Bool} {data : List Nat} {w : Nat × Nat}
variable (hserved : d.portServe n ≠ 0) (hshadow : ¬ (d.portServe n = 2 ∧ write = true))
variable (hwin : winOf (d.reg (regionPg n) FREG.USTORE_WIN) = some w)
include hserved hshadow hwin

/-- A request inside the region's window waits its turn. -/
theorem ustoreRequest_waits (hin : w.1 ≤ addr ∧ addr + (if write then data.length else len) ≤ w.1 + w.2) :
    d.ustoreRequest n write addr data len = (let q : UReq := ⟨n, write, addr, data, if write then data.length else len⟩
      ({ d with fab := { d.fab with ureqs := d.fab.ureqs ++ [q] } } : Dev).ustoreNext) := by
  unfold Dev.ustoreRequest
  rw [if_neg hshadow, if_pos hserved, hwin]
  exact if_pos hin

/-- A request outside the region's window is answered with an error. -/
theorem ustoreRequest_outside (hout : ¬ (w.1 ≤ addr ∧ addr + (if write then data.length else len) ≤ w.1 + w.2)) :
    d.ustoreRequest n write addr data len =
      d.ustoreErr ⟨n, write, addr, data, if write then data.length else len⟩ 1 := by
  unfold Dev.ustoreRequest
  rw [if_neg hshadow, if_pos hserved, hwin]
  exact if_neg hout

end Store

/-- The request under way is answered, its region wakes, and the next one begins. -/
theorem ustoreDone_answers (fault bad : Bool) {q : UReq} (hbusy : d.fab.ubusy = some q) : d.ustoreDone fault bad =
    (let e : Dev := { d with fab := { d.fab with ubusy := none } }
     ((if fault then e.ustoreErr q 2
       else if q.write then (e.storeRange (userBase + q.addr) q.data bad).send (.fabricRsp q.region 1 false [])
       else e.send (.fabricRsp q.region 1 false (memBytes e.sto.bytes (userBase + q.addr) q.len))).regionWake
         q.region).ustoreNext) := by
  unfold Dev.ustoreDone
  rw [hbusy]

/-! ### Fabric ports in register mode (R364) -/

section RegPort

variable {n : Fin 34} {p : Nat} (addr : Nat) (hport : d.regPort n.val p = true)
include hport

/-- A port that is served fully writes as its region. -/
theorem fportAccess_writes (v : Word) (hserved : d.portServe n.val = 1) : d.fportAccess n p addr (some v) =
    (let x := d.busWrite (regionSrc n) addr v true .clean
     x.1.send (.fabricRsp n.val 0 x.2.isSome [])) := by
  unfold Dev.fportAccess
  simp [hport, hserved]

/-- A port that is served at all reads as its region. -/
theorem fportAccess_reads (hserved : d.portServe n.val ≠ 0) : d.fportAccess n p addr none =
    (let x := d.busRead (regionSrc n) addr
     x.2.send (.fabricRsp n.val 0 false [x.1.toNat])) := by
  unfold Dev.fportAccess
  simp [hport, hserved]

end RegPort

/-- Settles O39: `TAP_REARM` is an accepted write of its register, and each other command takes the branch its premises
choose. -/
theorem fabricCommandsComplete : Obligations.FabricCommandsComplete := by
  unfold Obligations.FabricCommandsComplete
  intro s src v hon d
  refine ⟨fun n => ?_, fun n b pa pb => ?_, fun n b hecc => ?_, fun k khz hen => ?_, fun n write a data len => ?_,
    fun q fault bad hbusy => ?_, fun n p a hport => ?_⟩
  · intro p w e ha hgo
    exact exec_of_act hon rfl (cmdWrite_tapCtl d src n ha hgo)
  · intro e
    exact ⟨fun hsame => exec_of_act hon rfl (bramStep_clean d hsame),
      fun hnew => exec_of_act hon rfl (bramStep_uncorrectable d hnew)⟩
  · intro x
    exact ⟨fun hfresh => exec_of_act hon rfl (walkStale_marks d hecc hfresh),
      fun hstale => exec_of_act hon rfl (walkStale_clears d hecc hstale)⟩
  · intro e
    exact exec_of_act hon rfl (oscMeasure_shows d khz.toNat hen)
  · intro bs bytes q hserved hshadow
    refine ⟨fun w hwin hlo hhi => ?_, fun w hwin hout => ?_⟩
    · exact exec_of_act hon rfl (ustoreRequest_waits d hserved hshadow hwin ⟨hlo, hhi⟩)
    · exact exec_of_act hon rfl (ustoreRequest_outside d hserved hshadow hwin hout)
  · exact exec_of_act hon rfl (ustoreDone_answers d fault bad hbusy)
  · refine ⟨fun hserved => ?_, fun hserved => ?_⟩
    · exact exec_of_act hon rfl (fportAccess_writes d a.toNat hport v hserved)
    · exact exec_of_act hon rfl (fportAccess_reads d a.toNat hport hserved)

end Sys2Proof.Machine
end

section
/-! PROOFS. Configuration: the loader, the start of the personality, handovers of regions and the image store. -/

namespace Sys2Proof.Machine

open Sys2Proof

variable (d : Dev)

/-! ### Commands of the `LDR` page (R388, R389, R407) -/

theorem regCodes_ldrCtl : regCodes .ldr LDR.LDR_CTL.off = some (0x23030000, 0xc0000000, 0, 0xe3030000) := by decide

theorem regCodes_rbCtl : regCodes .ldr LDR.RB_CTL.off = some (0x301f01ff, 0x80000000, 0, 0xb01f01ff) := by decide

/-- `GO` without `ABORT` begins a load or a verification. -/
theorem ldrLive_go (src : Source) {new : Word} (hkeep : bitAt new 30 = false) (hgo : bitAt new 31 = true) :
    d.ldrLive src LDR.LDR_CTL.off new = d.loadGo src new := by
  refine (if_pos rfl).trans ?_
  simp [hkeep, hgo]

/-- `ABORT` without `GO` ends a load. -/
theorem ldrLive_abort (src : Source) {new : Word} (hend : bitAt new 30 = true) (hno : bitAt new 31 = false) :
    d.ldrLive src LDR.LDR_CTL.off new = d.loadAbort := by
  refine (if_pos rfl).trans ?_
  simp [hend, hno]

theorem ldrLive_readback (src : Source) {new : Word} (hgo : bitAt new 31 = true) :
    d.ldrLive src LDR.RB_CTL.off new = d.readback new := (if_neg (by decide)).trans (if_pos ⟨rfl, hgo⟩)

/-- An accepted write of `LDR_CTL` does what its bits ask for. -/
theorem cmdWrite_ldrCtl (src : Source) {v : Word} {e : Dev} (ha : Accepts d src .ldr 0 LDR.LDR_CTL.off v)
    (he : (written d ldrPg LDR.LDR_CTL 0x23030000 0xc0000000 v).ldrLive src LDR.LDR_CTL.off
      (heard d ldrPg LDR.LDR_CTL 0xe3030000 v) = e) :
    d.cmdWrite src .ldr 0 LDR.LDR_CTL v = e.breakLock .ldr 0 LDR.LDR_CTL.off :=
  cmdWrite_eff d src 0x23030000 0xc0000000 0xe3030000 ha regCodes_ldrCtl (by decide) (by decide) rfl he

theorem cmdWrite_rbCtl (src : Source) {v : Word} (ha : Accepts d src .ldr 0 LDR.RB_CTL.off v)
    (hgo : bitAt (heard d ldrPg LDR.RB_CTL 0xb01f01ff v) 31 = true) :
    d.cmdWrite src .ldr 0 LDR.RB_CTL v = ((written d ldrPg LDR.RB_CTL 0x301f01ff 0x80000000 v).readback
      (heard d ldrPg LDR.RB_CTL 0xb01f01ff v)).breakLock .ldr 0 LDR.RB_CTL.off :=
  cmdWrite_eff d src 0x301f01ff 0x80000000 0xb01f01ff ha regCodes_rbCtl (by decide) (by decide) rfl
    (ldrLive_readback _ src hgo)

/-! ### Isolation (R398) -/

theorem regCodes_isoCtl_freg : regCodes .freg FREG.ISO_CTL.off = some (1, 0, 0, 1) := by decide

theorem regCodes_isoCtl_keep : regCodes .keep FREG.ISO_CTL.off = some (1, 0, 0, 1) := by decide

/-- The page of a region is that of its class and number. -/
theorem regionPg_eq (n : Fin 34) : regionPg n = pg (regionCls n) (regionInst n) := by
  unfold regionPg regionCls regionInst
  split <;> rfl

/-- `RELEASE` that becomes live takes a loaded region out of isolation. -/
theorem classLive_isoCtl (src : Source) (n : Fin 34) {old new : Word} (hrel : bitAt new 0 = true) (hheld : d.iso n = 2) :
    d.classLive src (regionCls n) (regionInst n) FREG.ISO_CTL.off Via.direct old new = d.regionRelease n := by
  have hlive : d.isoLive n new = d.regionRelease n := if_pos ⟨hrel, hheld⟩
  rw [← hlive]
  by_cases hn : n.val < 32
  · rw [show regionCls n = .freg from if_pos hn, show regionInst n = n.val from if_pos hn]
    rfl
  · rw [show regionCls n = .keep from if_neg hn, show regionInst n = n.val - 32 from if_neg hn]
    have hidx : 32 + (n.val - 32) = n.val := by omega
    show Dev.isoLive d (32 + (n.val - 32)) new = _
    rw [hidx]

/-- An accepted `RELEASE` takes a loaded region out of isolation. -/
theorem cmdWrite_isoCtl (src : Source) (n : Fin 34) {v : Word}
    (ha : Accepts d src (regionCls n) (regionInst n) FREG.ISO_CTL.off v)
    (hrel : bitAt (heard d (pg (regionCls n) (regionInst n)) FREG.ISO_CTL 1 v) 0 = true)
    (hheld : (written d (pg (regionCls n) (regionInst n)) FREG.ISO_CTL 1 0 v).iso n = 2) :
    d.cmdWrite src (regionCls n) (regionInst n) FREG.ISO_CTL v =
      ((written d (pg (regionCls n) (regionInst n)) FREG.ISO_CTL 1 0 v).regionRelease n).breakLock (regionCls n)
        (regionInst n) FREG.ISO_CTL.off := by
  have hcls : regionCls n = .freg ∨ regionCls n = .keep := by
    unfold regionCls
    split
    · exact .inl rfl
    · exact .inr rfl
  refine cmdWrite_eff d src 1 0 1 ha ?_ (by decide) ?_ ?_ (classLive_isoCtl _ src n hrel hheld)
  · rcases hcls with h | h <;> rw [h]
    · exact regCodes_isoCtl_freg
    · exact regCodes_isoCtl_keep
  · rcases hcls with h | h <;> rw [h] <;> decide
  · rcases hcls with h | h <;> rw [h] <;> rfl

/-! ### The phases of a load (R388, R390, R395) -/

/-- The device once the sectors of entry `k` of a load have been written, and the error that ended them. -/
def Dev.entryWritten (d : Dev) (o : LoadJob) (k : Nat) : Dev × Option (Nat × Nat) :=
  let m := o.mans.getD k ⟨0, 0, 0, 0, 0, 0, 0⟩
  (if m.kind = 0 then d.setRegion m.region { d.region m.region with drives := [] } else d).writeSects o m.region (o.sectsOf k)

section Load

variable {d} {o : LoadJob} (hjob : d.ld.job = some o)

theorem digestDone_verifies (hload : d.ld.job ≠ none) (hphase : d.ldPhase = 1) : d.digestDone = d.setLdPhase 2 :=
  if_pos ⟨Option.isSome_iff_ne_none.mpr hload, hphase⟩

include hjob

/-- The image is tested whole before anything is written. -/
theorem verifyDone_tests (hphase : d.ldPhase = 2) : d.verifyDone =
    (let i := d.jobImg o
     let j := o.read i
     d.verifyTests o j i (firstErr [d.verifyHead j i j.mans j.sects, coverErr j.mans j.sects])) := by
  unfold Dev.verifyDone
  rw [hjob]
  exact if_neg (not_not_intro hphase)

section Region

variable {k : Nat} (hnext : o.next = some k) (hphase : d.ldPhase = 3)
include hnext hphase

theorem regionWriteDone_verifies (hverify : o.verify = true) : d.regionWriteDone =
    (let m := o.mans.getD k ⟨0, 0, 0, 0, 0, 0, 0⟩
     let j := { o with done := o.done ++ [k] }
     ((d.verifyRegion o m.region k).setLoad (some j)).verifyLoadDone j) := by
  unfold Dev.regionWriteDone
  simp only [hjob, hnext, hphase, hverify, decide_true, if_true]

theorem regionWriteDone_fails (hwrite : o.verify = false) {err : Nat × Nat} (herr : (d.entryWritten o k).2 = some err) :
    d.regionWriteDone = (d.entryWritten o k).1.loadFail o err.1 err.2 := by
  unfold Dev.regionWriteDone
  simp only [hjob, hnext, hphase, hwrite, decide_true, Bool.false_eq_true, if_false]
  show (match d.entryWritten o k with | (e, some err) => _ | (e, none) => _) = _
  generalize d.entryWritten o k = x at herr
  obtain ⟨e, r⟩ := x
  cases herr
  rfl

theorem regionWriteDone_completes (hwrite : o.verify = false) (hok : (d.entryWritten o k).2 = none) :
    d.regionWriteDone =
      (let m := o.mans.getD k ⟨0, 0, 0, 0, 0, 0, 0⟩
       let n := m.region
       let j := { o with done := o.done ++ [k] }
       let e := (d.entryWritten o k).1
       let f := if m.kind ≤ 1 then e.setReg (regionPg n) FREG.REGION_VER (wd o.ver)
         else { e with ld := { e.ld with tileImgs := Tab.ins e.ld.tileImgs m.index ⟨o.src, o.base, (d.jobImg o).digest⟩ } }
       let g := if m.partner then f.partnerCopy m.repl n else f
       (g.setLoad (some j)).loadReach j) := by
  unfold Dev.regionWriteDone
  simp only [hjob, hnext, hphase, hwrite, decide_true, Bool.false_eq_true, if_false]
  show (match d.entryWritten o k with | (e, some err) => _ | (e, none) => _) = _
  generalize d.entryWritten o k = x at hok
  obtain ⟨e, r⟩ := x
  cases hok
  rfl

end Region

section Group

variable {g : Nat} (hphase : d.ldPhase = 3) (hwrite : o.verify = false) (hg : g < o.groups)
variable (hopen : o.complete.contains g = false) (hall : o.groupWritten g = true)
include hphase hwrite hg hopen hall

theorem groupComplete_fails {x : Nat × Nat} (hbad : (d.groupHeld o g).allRegRecs o (o.regSects g) = .error x) :
    d.groupComplete g = (d.groupHeld o g).loadFail o x.1 x.2 := by
  unfold Dev.groupComplete
  rw [hjob]
  refine (if_pos ⟨hphase, hwrite, hg, hopen, hall⟩).trans ?_
  simp only [hbad]

theorem groupComplete_applies {rs : List LRec} (hok : (d.groupHeld o g).allRegRecs o (o.regSects g) = .ok rs) :
    d.groupComplete g = (d.groupHeld o g).groupRecords o g rs := by
  unfold Dev.groupComplete
  rw [hjob]
  refine (if_pos ⟨hphase, hwrite, hg, hopen, hall⟩).trans ?_
  simp only [hok]

end Group

end Load

/-! ### The personality (R399, R401) -/

section Personality

variable {d}

section Start

variable (hstart : d.pw.supRun = true ∧ d.ld.job = none ∧ d.ld.persSrc = none ∧ d.ld.bare = false ∧ d.ld.awaitHost = false)
include hstart

theorem personalityLoad_slot (hslot : d.fld stPg STORE.BOOT_SLOT < 4)
    (hready : (d.loadStart 0 (d.fld stPg STORE.BOOT_SLOT) .sup true true false).fld stPg
      (STORE.STATE.at (d.fld stPg STORE.BOOT_SLOT)) ≠ 1) :
    d.personalityLoad = d.loadStart 0 (d.fld stPg STORE.BOOT_SLOT) .sup true true false :=
  (if_pos hstart).trans ((if_pos hslot).trans (if_neg hready))

/-- A slot that a write has left unfinished cannot be loaded. -/
theorem personalityLoad_unfinished (hslot : d.fld stPg STORE.BOOT_SLOT < 4) {j : LoadJob}
    (hbusy : (d.loadStart 0 (d.fld stPg STORE.BOOT_SLOT) .sup true true false).fld stPg
      (STORE.STATE.at (d.fld stPg STORE.BOOT_SLOT)) = 1)
    (hjob : (d.loadStart 0 (d.fld stPg STORE.BOOT_SLOT) .sup true true false).ld.job = some j) :
    d.personalityLoad = (d.loadStart 0 (d.fld stPg STORE.BOOT_SLOT) .sup true true false).loadFail j 1 0 := by
  refine (if_pos hstart).trans ((if_pos hslot).trans ((if_pos hbusy).trans ?_))
  rw [hjob]

theorem personalityLoad_host (hslot : d.fld stPg STORE.BOOT_SLOT = 4) :
    d.personalityLoad = { d with ld := { d.ld with awaitHost := true } } :=
  (if_pos hstart).trans ((if_neg (by omega)).trans (if_pos hslot))

theorem personalityLoad_bare (hslot : 4 < d.fld stPg STORE.BOOT_SLOT) : d.personalityLoad = d.persBare :=
  (if_pos hstart).trans ((if_neg (by omega)).trans (if_neg (by omega)))

end Start

/-- The device at the deadline of its personality, which no load and no host make any more. -/
def Dev.deadlinePassed (d : Dev) (t : Nat) : Dev :=
  let e := d.pass (t + d.ld.deadline * 1000000 - d.mono)
  { e with ld := { e.ld with persAt := none, awaitHost := false, fellBack := true } }

section Deadline

variable {t : Nat} (hat : d.ld.persAt = some t) (hmissing : d.ld.persSrc = none ∧ d.ld.bare = false)
include hat hmissing

theorem persDeadline_bare (hidle : (d.deadlinePassed t).ld.job = none) :
    d.persDeadline = (d.deadlinePassed t).persBare := by
  unfold Dev.persDeadline
  rw [hat]
  refine (if_pos hmissing).trans ?_
  show (match (d.deadlinePassed t).ld.job with | some j => _ | none => _) = _
  rw [hidle]
  rfl

/-- A load under way at the deadline is ended, and the regions it has reached go dark. -/
theorem persDeadline_aborts {j : LoadJob} (hjob : (d.deadlinePassed t).ld.job = some j) : d.persDeadline =
    (let f := d.deadlinePassed t
     let reached := (j.mans.filter fun m => decide (m.kind ≤ 1 ∧ f.iso m.region ≠ 0)).map (·.region)
     (reached.foldl (fun (e : Dev) n => e.regionDark n) (f.loadFail j 11 0)).persBare) := by
  unfold Dev.persDeadline
  rw [hat]
  refine (if_pos hmissing).trans ?_
  show (match (d.deadlinePassed t).ld.job with | some j => _ | none => _) = _
  rw [hjob]
  rfl

end Deadline

end Personality

/-! ### Handovers of regions (R404) -/

section Handover

variable {d} {h : RegHo} (hho : d.ld.ho = some h)
include hho

/-- Once every port has compared its words the handover is armed, or ends with outcome 1. -/
theorem hoCompareDone_judges (hphase : h.phase = 3) (hready : h.ready = false)
    (hdone : cmpDone h.cmps (d.hoPorts h) (d.fld ldrPg LDR.COMPARE) = true) : d.hoCompareDone =
    (let k := cmpTotals h.cmps
     let g := { h with compared := k.1, bad := k.2 }
     let e := (d.setF ldrPg LDR.MISMATCH (Nat.min k.2 0xFFFF)).setRegHo (some g)
     if k.2 = 0 then e.hoArm g else e.hoEnd 1) := by
  unfold Dev.hoCompareDone
  rw [hho]
  exact if_pos ⟨hphase, hready, hdone⟩

theorem hoCompareDone_waits (hmore : cmpDone h.cmps (d.hoPorts h) (d.fld ldrPg LDR.COMPARE) = false) :
    d.hoCompareDone = d := by
  unfold Dev.hoCompareDone
  rw [hho]
  exact if_neg fun x => absurd x.2.2 (by simp [hmore])

theorem hoSilent_ends (hphase : h.phase = 3) (hready : h.ready = false) {t : Nat}
    (hsilent : cmpSilent h.cmps (d.hoPorts h) (d.fld ldrPg LDR.COMPARE) h.cmpAt = some t) :
    d.hoSilent = (d.pass (t + 100000000 - d.mono)).hoEnd 2 := by
  unfold Dev.hoSilent
  rw [hho]
  refine (if_pos ⟨hphase, hready⟩).trans ?_
  rw [hsilent]

theorem hoBindTimeout_ends {t : Nat} (hsince : h.since = some t) (hfree : h.instant = none) :
    d.hoBindTimeout = (d.pass (t + 10000000000 - d.mono)).hoEnd 2 := by
  unfold Dev.hoBindTimeout
  simp only [hho, hsince, hfree]

theorem hoDrainEnd_completes (hswitched : h.switched = true) : d.hoDrainEnd =
    (let e := h.pairs.foldl (fun (e : Dev) x => (e.regionDark x.1).setIso x.2 3) (d.reach h.drainAt)
     let f := h.pairs.foldl (fun (e : Dev) x => (e.setF (regionPg x.2) FREG.RELEASE 1).refreshRegion x.2) e
     let g := f.hoClose h 0
     (if g.ldPhase = 7 ∧ g.ld.job.isSome then g.setLdPhase 4 else g).groupsFollow) := by
  unfold Dev.hoDrainEnd
  rw [hho]
  exact if_pos hswitched

end Handover

/-! ### The image store (R410, R411) -/

section Store

variable {d}

/-- A slot that is copied shows whether its image is good. -/
theorem slotWriteDone_shows {j : StoreJob} (hjob : d.sto.job = some j) (hslot : j.target = 0) (hcopied : j.copied = true) :
    d.slotWriteDone =
    (let i : Img := ⟨d.sto.bytes, j.dest⟩
     let keeper := i.hasKeeper
     let good := i.headerOk 0 && d.sigOk i && !(keeper && !j.slave)
     let w := (if good then 2 else 3) * 2 ^ 30 + (if j.slave then 2 ^ 29 else 0) + (if keeper then 2 ^ 28 else 0) +
       i.arc % 256 * 65536
     let e := (d.storeEnd.setReg stPg (STORE.SLOT_STAT.at j.index) (wd w)).setReg stPg (STORE.SLOT_VER.at j.index) (wd i.ver)
     (e.count stPg STORE.SLOT_WR_CNT).raise stPg (if good then STORE.E_SLOT_WRITTEN else STORE.E_SLOT_BAD) (wd w)) := by
  unfold Dev.slotWriteDone
  rw [hjob]
  exact if_pos ⟨hslot, hcopied⟩

variable (hsupply : d.flag pwrPg PWR.PFAIL = false)
include hsupply

/-- The next unit of a write under way is stored. -/
theorem storeWriteUnit_next (bad : Bool) {j : StoreJob} (hjob : d.sto.job = some j) (hmore : j.copied = false) :
    d.storeWriteUnit none bad =
    (let e := d.storeUnit (j.dest + 64 * j.units) (memBytes d.cw.mem (d.storeSrc j + 64 * j.units) 64) bad
     ({ e with sto := { e.sto with job := some { j with units := j.units + 1 } } } : Dev).setF stPg STORE.UNITS (j.units + 1)) := by
  unfold Dev.storeWriteUnit
  simp only [hsupply, hjob, hmore, Bool.false_eq_true, if_false]

/-- A unit of the identity and log area is stored. -/
theorem storeWriteUnit_log (bad : Bool) {x : Nat × List Nat} (harea : 0x3F00000 ≤ x.1 ∧ x.1 + 64 ≤ 0x4000000 ∧ x.1 % 64 = 0) :
    d.storeWriteUnit (some x) bad = d.storeUnit x.1 x.2 bad := by
  unfold Dev.storeWriteUnit
  rw [if_neg (by simp [hsupply])]
  exact if_pos harea

end Store

/-- Settles O40: the writes are accepted ones of their registers, and a load, a handover or a write of the store takes the
branch its premises choose. -/
theorem loaderAndStoreComplete : Obligations.LoaderAndStoreComplete := by
  unfold Obligations.LoaderAndStoreComplete
  refine ⟨fun s src v hon => ?_, fun s hon => ?_⟩
  · intro d
    refine ⟨?_, ?_, fun hload hphase => ?_, fun o hjob => ⟨fun hphase => ?_, fun k hnext hphase => ?_,
      fun g hphase hwrite hg hopen hall => ?_⟩, fun n => ?_, ?_⟩
    · intro w new e ha hkeep hgo
      exact exec_of_act hon rfl (cmdWrite_ldrCtl d src ha (ldrLive_go e src hkeep hgo))
    · intro w new e ha hend hno
      exact exec_of_act hon rfl (cmdWrite_ldrCtl d src ha (ldrLive_abort e src hend hno))
    · exact exec_of_act hon rfl (digestDone_verifies hload hphase)
    · intro i j head
      have htests := verifyDone_tests hjob hphase
      refine ⟨fun e he => ?_, fun hnone => ?_⟩
      · exact exec_of_act hon rfl (htests.trans (congrArg (d.verifyTests o j i) he))
      · have hrecs := htests.trans (congrArg (d.verifyTests o j i) hnone)
        refine ⟨fun k hk => ?_, fun recs hrs => ?_⟩
        · exact exec_of_act hon rfl (hrecs.trans (congrArg (d.verifyRecs o j) hk))
        · intro v use
          have huse := hrecs.trans (congrArg (d.verifyRecs o j) hrs)
          exact ⟨fun e he => exec_of_act hon rfl (huse.trans (congrArg (d.verifyEnd o j v) he)),
            fun hok => exec_of_act hon rfl (huse.trans (congrArg (d.verifyEnd o j v) hok))⟩
    · intro m n j
      refine ⟨fun hverify => ?_, fun hwrite => ?_⟩
      · exact exec_of_act hon rfl (regionWriteDone_verifies hjob hnext hphase hverify)
      · intro e
        exact ⟨fun err herr => exec_of_act hon rfl (regionWriteDone_fails hjob hnext hphase hwrite herr),
          fun hok => exec_of_act hon rfl (regionWriteDone_completes hjob hnext hphase hwrite hok)⟩
    · intro e
      exact ⟨fun x hbad => exec_of_act hon rfl (groupComplete_fails hjob hphase hwrite hg hopen hall hbad),
        fun rs hok => exec_of_act hon rfl (groupComplete_applies hjob hphase hwrite hg hopen hall hok)⟩
    · intro p w e ha hrel hheld
      exact exec_of_act hon rfl (cmdWrite_isoCtl d src n ha hrel hheld)
    · intro w new e ha hgo
      exact exec_of_act hon rfl (cmdWrite_rbCtl d src ha hgo)
  · intro d
    refine ⟨fun hrun hidle hsrc hbare hhost => ?_, fun t hat hsrc hbare => ?_, fun h hho => ?_, fun j hjob => ?_,
      fun a bs bad hsupply hlo hhi halign => ?_⟩
    · intro n
      have hstart : d.pw.supRun = true ∧ d.ld.job = none ∧ d.ld.persSrc = none ∧ d.ld.bare = false ∧ d.ld.awaitHost = false :=
        ⟨hrun, hidle, hsrc, hbare, hhost⟩
      refine ⟨fun hslot => ⟨fun hready => ?_, fun j hbusy hjob => ?_⟩, fun hslot => ?_, fun hslot => ?_⟩
      · exact exec_of_act hon rfl (personalityLoad_slot hstart hslot hready)
      · exact exec_of_act hon rfl (personalityLoad_unfinished hstart hslot hbusy hjob)
      · exact exec_of_act hon rfl (personalityLoad_host hstart hslot)
      · exact exec_of_act hon rfl (personalityLoad_bare hstart hslot)
    · intro e f
      exact ⟨fun hidle => exec_of_act hon rfl (persDeadline_bare hat ⟨hsrc, hbare⟩ hidle),
        fun j hjob => exec_of_act hon rfl (persDeadline_aborts hat ⟨hsrc, hbare⟩ hjob)⟩
    · refine ⟨fun dt => ?_, fun t hphase hready hsilent => ?_, fun t hsince hfree => ?_, fun hswitched => ?_⟩
      · intro w k g e done hphase hready
        have hho' : w.ld.ho = some h := hho
        exact ⟨fun hdone => exec_of_act hon rfl (hoCompareDone_judges hho' hphase hready hdone),
          fun hmore => exec_of_act hon rfl (hoCompareDone_waits hho' hmore)⟩
      · exact exec_of_act hon rfl (hoSilent_ends hho hphase hready hsilent)
      · exact exec_of_act hon rfl (hoBindTimeout_ends hho hsince hfree)
      · exact exec_of_act hon rfl (hoDrainEnd_completes hho hswitched)
    · refine ⟨fun hslot hcopied => ?_, fun bad hsupply hmore => ?_⟩
      · exact exec_of_act hon rfl (slotWriteDone_shows hjob hslot hcopied)
      · exact exec_of_act hon rfl (storeWriteUnit_next hsupply bad hjob hmore)
    · exact exec_of_act hon rfl (storeWriteUnit_log hsupply bad ⟨hlo, hhi, halign⟩)

end Sys2Proof.Machine
end

section
/-! PROOFS. Pins and pin peripherals: banks and their locks, AES3, timecode and the serial blocks. -/

namespace Sys2Proof.Machine

open Sys2Proof

variable (d : Dev)

/-! ### Pin banks (R414, R421) -/

/-- A bank follows its outputs and directions where they change; a pull takes effect by itself. -/
theorem iobLive_masked (which : PinMask) (b : Nat) (old new : Word) :
    d.iobLive b (PinMask.fld which).off old new = if old = new ∨ which = .pull then d else d.refreshBank b := by
  refine (if_neg (by cases which <;> decide)).trans ?_
  by_cases hsame : old = new
  · rw [if_pos hsame, if_pos (.inl hsame)]
  · rw [if_neg hsame]
    cases which with
    | pull => exact (if_pos (.inr rfl)).symm
    | out | dir => exact (if_neg (by simp [hsame])).symm

/-- An accepted masked write changes the pins of its mask, and the bank follows. -/
theorem cmdWrite_pinMask (src : Source) (b : Fin 12) (which : PinMask) {v : Word}
    (ha : Accepts d src .iob b (PinMask.fld which).off v) (hdrop : d.iobDropped src b (PinMask.fld which).off v = 0) :
    d.cmdWrite src .iob b (PinMask.fld which) v =
      (let a := pg .iob b + (PinMask.fld which).off
       let new := maskedWord (d.raw a) v
       (if d.raw a = new ∨ which = .pull then d.put a new else (d.put a new).refreshBank b).breakLock .iob b
         (PinMask.fld which).off) := by
  rw [cmdWrite_masked d src ha (by cases which <;> decide) hdrop (by cases which <;> decide) (by cases which <;> decide),
    iobLive_masked]

theorem vioLost_lost {b mv : Nat} (hok : d.flag (ioPg b) IOB.VIO_OK = true) (hlow : mv < 1600) : d.vioLost b mv =
    (((d.setF (ioPg b) IOB.VIO_MV mv).setF (ioPg b) IOB.VIO_OK 0).refreshBank b).raise (ioPg b) IOB.E_VIO_LOST :=
  if_pos ⟨hok, hlow⟩

theorem vioBack_back {b mv : Nat} (hlost : d.flag (ioPg b) IOB.VIO_OK = false) (hhigh : 1600 ≤ mv) : d.vioBack b mv =
    (((d.setF (ioPg b) IOB.VIO_MV mv).setF (ioPg b) IOB.VIO_OK 1).refreshBank b).raise (ioPg b) IOB.E_VIO_BACK :=
  if_pos ⟨hlost, hhigh⟩

/-! ### Locks of pins (R425) -/

/-- The word of a `PIN_LOCK` write. -/
theorem pinLockWord_toNat (mask key : BitVec 16) :
    (wd (mask.toNat * 65536 + key.toNat)).toNat = mask.toNat * 65536 + key.toNat := by
  have hmask := mask.isLt
  have hkey := key.isLt
  exact Nat.mod_eq_of_lt (by omega)

/-- What a key does, by how far the sequence of its source and mask has come. -/
theorem pinLock_word (src : Source) (b : Nat) (mask key : BitVec 16) :
    d.pinLock src b (wd (mask.toNat * 65536 + key.toNat)) =
      (let n := match Tab.get d.pn.lockSeq b with | some x => if x.2 = (src.tag, mask.toNat) then x.1 else 0 | none => 0
       let clr : Dev := { d with pn := { d.pn with lockSeq := Tab.del d.pn.lockSeq b } }
       let put := fun k : Nat => ({ d with pn := { d.pn with lockSeq := Tab.ins d.pn.lockSeq b (k, src.tag, mask.toNat) } } : Dev)
       if n = 1 ∧ key = 0xA5A5 then put 2
       else if n = 2 ∧ key = 0x5A5A then (clr.lockPins b mask.toNat).refreshBank b
       else if key = 0x5A5A then put 1 else clr) := by
  have hlt := key.isLt
  have hkey : (mask.toNat * 65536 + key.toNat) % 65536 = key.toNat := by omega
  have hmask : (mask.toNat * 65536 + key.toNat) / 65536 = mask.toNat := by omega
  have hfirst : key = 0x5A5A ↔ key.toNat = 0x5A5A := BitVec.toNat_inj.symm
  have hsecond : key = 0xA5A5 ↔ key.toNat = 0xA5A5 := BitVec.toNat_inj.symm
  unfold Dev.pinLock
  simp only [pinLockWord_toNat, hkey, hmask, hfirst, hsecond] <;> rfl

/-- An accepted write of `PIN_LOCK` is a key of the sequence of the bank. -/
theorem cmdWrite_pinLock (src : Source) (b : Fin 12) {v : Word} (ha : Accepts d src .iob b IOB.PIN_LOCK.off v)
    (hdrop : d.iobDropped src b IOB.PIN_LOCK.off v = 0) :
    d.cmdWrite src .iob b IOB.PIN_LOCK v = (d.pinLock src b v).breakLock .iob b IOB.PIN_LOCK.off :=
  cmdWrite_special d src ha (by decide) (.inr hdrop) rfl

/-! ### AES3 (R431, R432) -/

section Aes3

variable {d} {n : Nat}

/-- A receiver in lock takes a frame at the edge of its grid, or slips. -/
theorem aesRxFrame_takes (a b : Nat) (va vb pa pb : Bool) (cs : Option (List Word)) (hruns : d.aesRuns n false = true)
    (hlock : d.flag (aesPg n) AES3.LOCK = true) (hpin : d.pinSampled n 4 = true) : d.aesRxFrame n a b va vb pa pb cs =
    (let p := aesPg n
     let k := edgeAt (d.aesRate n) d.now
     let e := match cs with
       | some l => ((List.range 6).foldl (fun (e : Dev) (i : Nat) => e.setReg p (AES3.CS_RX.at i) (l.getD i 0)) d).setF p
         AES3.PRO ((l.getD 0 0).toNat % 2)
       | none => d
     let f := if pa then e.count p AES3.PARITY_CNT else e
     let g := if pb then f.count p AES3.PARITY_CNT else f
     if k < g.aesNext n k then g.aesSlip n
     else ((g.aesFill n k true).aesPush n k (aesWord a va pa) (aesWord b vb pb)).setAesNext n (k + 1)) :=
  if_pos (by simp [hruns, hlock, hpin])

theorem aesLock_locks (hz : Nat) (hruns : d.aesRuns n false = true) (hpin : d.pinSampled n 4 = true)
    (hfree : d.flag (aesPg n) AES3.LOCK = false) : d.aesLock n hz =
    (((d.aesFill n (edgeAt (d.aesRate n) d.now) false).setF (aesPg n) AES3.RATE hz).setF (aesPg n) AES3.LOCK 1).raise (aesPg n)
      AES3.E_AES_LOCK := if_pos (by simp [hruns, hpin, hfree])

theorem aesUnlock_unlocks (hlock : d.flag (aesPg n) AES3.LOCK = true) : d.aesUnlock n =
    ((if d.aesRuns n false then d.aesFill n (edgeAt (d.aesRate n) d.now) true else d).setF (aesPg n) AES3.LOCK 0).raise
      (aesPg n) AES3.E_AES_UNLOCK := if_pos hlock

/-- A transmitter sends the frame of its next edge. -/
theorem aesTxFrame_sends (hruns : d.aesRuns n true = true) : d.aesTxFrame n =
    (let p := aesPg n
     let r := d.aesRate n
     let k := Nat.max (d.aesNext n 0) (edgeAt r d.now)
     let t := edgeTime r k
     let e := d.reach t
     let q := (Tab.get e.pn.aesTx n).getD []
     let c := e.fld p AES3.CH
     let a := aesTake q c t
     let b := aesTake q (c + 1) t
     let i := k % 192
     let cs := if bitAt (e.reg p (AES3.CS_TX.at (i / 32))) (i % 32) then 1 else 0
     let v := fun (x : Bool) => if x then 1 else 0
     let w := a.1 + v a.2 * 2 ^ 24 + cs * 2 ^ 25 + (if i = 0 then 2 ^ 26 else 0) + b.1 * 2 ^ 32 + v b.2 * 2 ^ 56 + cs * 2 ^ 57
     let rest := q.filter fun x => decide (t < x.ts)
     let f : Dev := { e with pn := { e.pn with aesTx := Tab.put e.pn.aesTx n rest [] } }
     let g := f.setAesNext n (k + 1)
     if g.pinSampled n 4 then g.send (.serial p w) else g) := if_pos hruns

end Aes3

/-! ### Timecode (R433) -/

section Timecode

variable {d} {k : Nat}

theorem ltcSync_shows (w ub : Word) (hon : d.perOn .ltc k = true) (hread : d.flag (ltcPg k) LTC.RD_EN = true)
    (hpin : d.pinSampled (28 + 2 * k) 5 = true) : d.ltcSync k w ub =
    (let p := ltcPg k
     let e := (d.setReg p LTC.LTC_RX w).setReg p LTC.LTC_RX_UB ub
     let f := (e.setReg p LTC.LTC_RX_NS (nsWord d.now)).setReg p LTC.LTC_RX_SEC (secWord d.now)
     { f with pn := { f.pn with ltcAt := Tab.ins f.pn.ltcAt k f.mono } }) := if_pos (by simp [hon, hread, hpin])

theorem ltcLost_tells {t : Nat} (hat : Tab.get d.pn.ltcAt k = some t) (hon : d.perOn .ltc k = true)
    (hread : d.flag (ltcPg k) LTC.RD_EN = true) : d.ltcLost k =
    (let e := d.pass (t + 200000000 - d.mono)
     ({ e with pn := { e.pn with ltcAt := Tab.del e.pn.ltcAt k } } : Dev).raise (ltcPg k) LTC.E_LTC_LOST) := by
  unfold Dev.ltcLost
  rw [hat]
  exact if_pos (by simp [hon, hread])

/-- A generator sends its word at a frame of its media clock, and sets the next. -/
theorem ltcCodeword_sends (hon : d.perOn .ltc k = true) (hgen : d.flag (ltcPg k) LTC.GEN_EN = true)
    (hruns : d.mcgRuns (d.fld (ltcPg k) LTC.MCG) = true) (hlo : 1 ≤ d.fld (pg .mcg (d.fld (ltcPg k) LTC.MCG)) MCG.VRATE)
    (hhi : d.fld (pg .mcg (d.fld (ltcPg k) LTC.MCG)) MCG.VRATE ≤ 5) : d.ltcCodeword k =
    (let p := ltcPg k
     let vr := d.fld (pg .mcg (d.fld p LTC.MCG)) MCG.VRATE
     let f := Nat.max ((Tab.get d.pn.ltcFrame k).getD 0) (frameAt vr d.now)
     let e := d.reach (frameTime vr f)
     let w := e.reg p LTC.LTC_SET
     let g := e.setReg p LTC.LTC_SET (wd (ltcNext w.toNat (ltcFps vr) (e.flag p LTC.DROP)))
     let h : Dev := { g with pn := { g.pn with ltcFrame := Tab.ins g.pn.ltcFrame k (f + 1) } }
     if h.pinSampled (29 + 2 * k) 5 then h.send (.serial p w.toNat) else h) :=
  if_pos (by simp [hon, hgen, hruns, hlo, hhi])

end Timecode

/-! ### Serial blocks (R435) -/

/-- An accepted write of `SER_DATA` queues its byte. -/
theorem cmdWrite_serData (src : Source) (kind : SerKind) {i : Nat} {v : Word}
    (ha : Accepts d src (SerKind.cls kind) i SER.SER_DATA.off v) : d.cmdWrite src (SerKind.cls kind) i SER.SER_DATA v =
      (d.serPush (pg (SerKind.cls kind) i) (v.toNat % 256)).breakLock (SerKind.cls kind) i SER.SER_DATA.off := by
  refine cmdWrite_special d src ha (by decide) (.inl ?_) ?_
  · cases kind <;> decide
  · cases kind <;> rfl

/-- A read of `SER_DATA` takes the byte at the front of the queue. -/
theorem readOut_serData (src : Source) (kind : SerKind) {i : Nat} (hi : i < (SerKind.cls kind).info.count)
    (ha : d.answers (SerKind.cls kind) = true) (hpower : d.pwrState (pg (SerKind.cls kind) i) ≠ 3) :
    d.readOut src (pg (SerKind.cls kind) i + SER.SER_DATA.off) =
      (let x := d.serPop (pg (SerKind.cls kind) i)
       x.2.send (.readData src [x.1])) := by
  have hpage : d.readPage src (SerKind.cls kind) i SER.SER_DATA.off = d.serPop (pg (SerKind.cls kind) i) := by
    obtain ⟨r, hr, hcount⟩ : ∃ r, regAt (SerKind.cls kind) i SER.SER_DATA.off = some r ∧ r.isCounter = false := by
      cases kind <;> exact ⟨_, rfl, rfl⟩
    have hlive : d.readLive src (SerKind.cls kind) i SER.SER_DATA.off r = d.serPop (pg (SerKind.cls kind) i) := by
      refine (if_neg ?_).trans (if_pos ?_)
      · rw [hcount]
        cases kind <;> decide
      · cases kind <;> exact ⟨rfl, rfl⟩
    unfold Dev.readPage
    rw [hr]
    refine (if_neg fun x => hpower x.2).trans ((if_neg (by decide)).trans ((if_neg fun x => ?_).trans hlive))
    cases kind <;> exact nomatch x.1
  unfold Dev.readOut
  rw [busRead_page d src hi (by decide) (by decide) ha, hpage]

section Receive

variable {d} {c : Cls} {i : Nat} (byte : Nat) (hon : d.perOn c i = true)
variable (hpin : d.pinSampled (serIn c i).1 (serIn c i).2 = true)
include hon hpin

/-- A byte received on an attached port goes to the logic of its region. -/
theorem serRxByte_attached (hattach : d.serAttach (pg c i) = true) (hlive : d.regionLive (d.serRegion (pg c i)) = true) :
    d.serRxByte c i byte = (d.regionWake (d.serRegion (pg c i))).send
      (.fabricRsp (d.serRegion (pg c i)) 4 false [byte % 256]) :=
  (if_pos (by simp [hon, hpin])).trans ((if_pos hattach).trans (if_pos hlive))

theorem serRxByte_queued (hfree : d.serAttach (pg c i) = false) (hroom : (d.serRx (pg c i)).length < 16) :
    d.serRxByte c i byte =
      { d with pn := { d.pn with serRx := Tab.put d.pn.serRx (pg c i) (d.serRx (pg c i) ++ [byte % 256]) [] } } :=
  (if_pos (by simp [hon, hpin])).trans ((if_neg (by simp [hfree])).trans (if_pos hroom))

end Receive

/-- Settles O41: the writes are accepted ones of their registers, and a bank or a peripheral takes the branch its premises
choose. -/
theorem pinCommandsComplete : Obligations.PinCommandsComplete := by
  unfold Obligations.PinCommandsComplete
  refine ⟨fun s src b hon => ?_, fun s src hon => ?_⟩
  · intro d
    refine ⟨fun which v => ?_, fun mask key => ?_, fun mv => ⟨fun hok hlow => ?_, fun hlost hhigh => ?_⟩⟩
    · intro f a new ha hdrop
      exact exec_of_act hon rfl (cmdWrite_pinMask d src b which ha hdrop)
    · intro w n clr put ha hdrop
      have hkey := congrArg (fun e : Dev => e.breakLock .iob b IOB.PIN_LOCK.off) (pinLock_word d src b mask key)
      exact exec_of_act hon rfl ((cmdWrite_pinLock d src b ha hdrop).trans hkey)
    · exact exec_of_act hon rfl (vioLost_lost d hok hlow)
    · exact exec_of_act hon rfl (vioBack_back d hlost hhigh)
  · intro d
    refine ⟨fun n => ?_, fun k => ?_, fun kind i => ?_⟩
    · intro p
      refine ⟨fun a b va vb pa pb cs hruns hlock hpin => ?_, fun hz hruns hpin hfree => ?_, fun hlock => ?_, fun hruns => ?_⟩
      · exact exec_of_act hon rfl (aesRxFrame_takes a.toNat b.toNat va vb pa pb cs hruns hlock hpin)
      · exact exec_of_act hon rfl (aesLock_locks hz.toNat hruns hpin hfree)
      · exact exec_of_act hon rfl (aesUnlock_unlocks hlock)
      · exact exec_of_act hon rfl (aesTxFrame_sends hruns)
    · intro p
      refine ⟨fun w ub hper hread hpin => ?_, fun t hat hper hread => ?_, ?_⟩
      · exact exec_of_act hon rfl (ltcSync_shows w ub hper hread hpin)
      · exact exec_of_act hon rfl (ltcLost_tells hat hper hread)
      · intro m vr hper hgen hruns hlo hhi
        exact exec_of_act hon rfl (ltcCodeword_sends hper hgen hruns hlo hhi)
    · intro c p
      refine ⟨fun v ha => ?_, fun hi ha hpower => ?_, fun b hper hpin => ⟨fun hattach hlive => ?_, fun hfree hroom => ?_⟩⟩
      · exact exec_of_act hon rfl (cmdWrite_serData d src kind ha)
      · exact exec_of_act hon rfl (readOut_serData d src kind hi ha hpower)
      · exact exec_of_act hon rfl (serRxByte_attached b.toNat hper hpin hattach hlive)
      · exact exec_of_act hon rfl (serRxByte_queued b.toNat hper hpin hfree hroom)

end Sys2Proof.Machine
end

section
/-! PROOFS. The host: its DMA queues, its notice rings and its link. -/

namespace Sys2Proof.Machine

open Sys2Proof

variable {d : Dev}

/-! ### DMA queues (R441, R442) -/

section Dma

variable {q : Nat}

section Running

variable (hon : (d.dmaQ q).on = true)
include hon

/-- A running queue takes no new configuration. -/
theorem qCfgWrite_ignored {v : Word} (hkeep : bitAt v 31 = true) : d.qCfgWrite q v = d :=
  (if_pos hon).trans (if_pos hkeep)

theorem qCfgWrite_stops {v : Word} (hstop : bitAt v 31 = false) : d.qCfgWrite q v =
    (d.dmaStop q).setDmaQ q (((d.dmaStop q).dmaQ q).set qCFG (v &&& qcfgMask)) :=
  (if_pos hon).trans (if_neg (by simp [hstop]))

/-- The doorbell of a running queue brings the descriptors rung since the last one. -/
theorem sqDoorbell_rings (v : Word) (ds : List Desc) : d.sqDoorbell q v ds =
    (let x := d.dmaQ q
     let n := (v.toNat + x.size - x.idx qSQT % x.size) % x.size
     let new := (List.range n).map fun k => ds.getD k ⟨0, false, 0, 0, 0, 0, 0⟩
     (d.setDmaQ q { x.set qSQT (wd (v.toNat % x.size)) with rung := x.rung ++ new }).sqFetch q) := if_pos hon

end Running

section Stopped

variable (hoff : (d.dmaQ q).on = false)
include hoff

/-- A stopped queue takes its configuration, but is not enabled with a length code outside 4 to 12. -/
theorem qCfgWrite_takes (v : Word) : d.qCfgWrite q v =
    (let w := v &&& qcfgMask
     let l := bitsOf w 27 24
     d.setDmaQ q ((d.dmaQ q).set qCFG (if l < 4 ∨ 12 < l then w &&& 0x7FFFFFFF else w))) := if_neg (by simp [hoff])

theorem sqDoorbell_stored (v : Word) (ds : List Desc) :
    d.sqDoorbell q v ds = d.setDmaQ q ((d.dmaQ q).set qSQT v) := if_neg (by simp [hoff])

end Stopped

/-- The device once the descriptor in front of a queue's work is taken up. -/
def Dev.descTaken (d : Dev) (q : Nat) (t : List Desc) : Dev := d.setDmaQ q { d.dmaQ q with work := t }

/-- What a descriptor of a queue does, by its operation and its addresses. -/
def Dev.descRun (d : Dev) (q : Nat) (c : Desc) (t : List Desc) (host : List Nat) (err : Option Nat) : Dev :=
  let e := d.descTaken q t
  if !(descLegal (d.dmaQ q).packet c) then e.descEnd q c 4 0 none
  else if e.descBad c then e.descEnd q c 3 0 none
  else if c.op ≤ 2 then e.dmaMemory q c host err
  else if c.op = 3 then e.dmaTransmit q c host err
  else
    match d.md.hostq.find? fun y => decide (y.1 = q) with
    | some y => ({ e with md := { e.md with hostq := e.md.hostq.erase y } } : Dev).dmaReceive q c y.2 err
    | none => d

/-- A running queue whose completions have all been written does its descriptor. -/
theorem dmaDone_runs {c : Desc} {t : List Desc} (host : List Nat) (err : Option Nat) (hwork : (d.dmaQ q).work = c :: t)
    (hon : (d.dmaQ q).on = true) (hpend : (d.dmaQ q).pend.isEmpty = true) :
    d.dmaDone q host err = d.descRun q c t host err := by
  unfold Dev.dmaDone
  dsimp only
  rw [hwork]
  exact if_pos (by simp [hon, hpend])

section Descriptor

variable {c : Desc} {t : List Desc} (host : List Nat) (err : Option Nat)

theorem descRun_illegal (hbad : descLegal (d.dmaQ q).packet c = false) :
    d.descRun q c t host err = (d.descTaken q t).descEnd q c 4 0 none := if_pos (by simp [hbad])

variable (hlegal : descLegal (d.dmaQ q).packet c = true)
include hlegal

theorem descRun_bad (hbad : (d.descTaken q t).descBad c = true) :
    d.descRun q c t host err = (d.descTaken q t).descEnd q c 3 0 none := (if_neg (by simp [hlegal])).trans (if_pos hbad)

variable (hgood : (d.descTaken q t).descBad c = false)
include hgood

theorem descRun_memory (hop : c.op ≤ 2) : d.descRun q c t host err = (d.descTaken q t).dmaMemory q c host err :=
  (if_neg (by simp [hlegal])).trans ((if_neg (by simp [hgood])).trans (if_pos hop))

theorem descRun_transmit (hop : c.op = 3) : d.descRun q c t host err = (d.descTaken q t).dmaTransmit q c host err :=
  (if_neg (by simp [hlegal])).trans ((if_neg (by simp [hgood])).trans ((if_neg (by omega)).trans (if_pos hop)))

/-- A descriptor that receives takes the first frame that waits for its queue. -/
theorem descRun_receive (hop : 3 < c.op) {y : Nat × HostFrame}
    (hy : (d.md.hostq.find? fun y => decide (y.1 = q)) = some y) : d.descRun q c t host err =
      (let e := d.descTaken q t
       ({ e with md := { e.md with hostq := e.md.hostq.erase y } } : Dev).dmaReceive q c y.2 err) := by
  refine (if_neg (by simp [hlegal])).trans ((if_neg (by simp [hgood])).trans ((if_neg (by omega)).trans
    ((if_neg (by omega)).trans ?_)))
  rw [hy]

end Descriptor

end Dma

/-! ### Notice rings (R452, R453) -/

section Ring

variable {q : Nat}

/-- The notice in front of a ring with room is written, and the queue interrupts when it is critical or enough have
gathered. -/
theorem ringWrite_writes {e : QEnt} {t : List QEnt} (hfront : (d.queue q).host = e :: t)
    (hen : d.flag ntcPg (NTC.RING_EN.at q) = true) (hroom : d.ringRoom q = true) : d.ringWrite q =
    (let x := d.queue q
     let addr := fun (lo hi : Fld) => (d.reg ntcPg (hi.at q)).toNat * 2 ^ 32 + (d.reg ntcPg (lo.at q)).toNat
     let h := d.fld ntcPg (NTC.NQ_HEAD_INDEX.at q)
     let n := (h + 1) % d.ringSize q
     let f := d.setQueue q { x with host := t, irqCount := x.irqCount + 1, irqSince := some (x.irqSince.getD d.mono) }
     let g := (f.send (.hostWrite (addr NTC.NQ_BASE_LO NTC.NQ_BASE_HI + 32 * h) (e.words q 0))).setReg ntcPg (NTC.NQ_HEAD.at q)
       (wd n)
     let k := g.send (.hostWrite (addr NTC.NQ_HWB_LO NTC.NQ_HWB_HI) [wd n])
     if e.sev = 3 ∨ d.fld ntcPg (NTC.COAL_CNT.at q) ≤ x.irqCount + 1 then k.queueRaise q else k) := by
  unfold Dev.ringWrite
  dsimp only
  rw [hfront]
  exact if_pos (by simp [hen, hroom])

theorem coalesce_raises {t : Nat} (hsince : (d.queue q).irqSince = some t) (hus : d.fld ntcPg (NTC.COAL_US.at q) ≠ 0) :
    d.coalesce q = (d.pass (t + d.fld ntcPg (NTC.COAL_US.at q) * 1000 - d.mono)).queueRaise q := by
  unfold Dev.coalesce
  rw [hsince]
  exact if_neg hus

end Ring

theorem regCodes_nqTail (q : Fin 4) : regCodes .ntc (NTC.NQ_TAIL.at q).off = some (0xffff, 0, 0, 0xffff) := by
  revert q
  decide

theorem nqTail_offset (q : Fin 4) :
    (NTC.NQ_TAIL.at q).off < 0x800 ∧ 0x40 ≤ (NTC.NQ_TAIL.at q).off ∧ (NTC.NQ_TAIL.at q).off % 4 = 0 := by
  revert q
  decide

/-- An accepted tail is stored; the ring needs no more. -/
theorem cmdWrite_nqTail (src : Source) (q : Fin 4) {v : Word} (ha : Accepts d src .ntc 0 (NTC.NQ_TAIL.at q).off v) :
    d.cmdWrite src .ntc 0 (NTC.NQ_TAIL.at q) v =
      (written d ntcPg (NTC.NQ_TAIL.at q) 0xffff 0 v).breakLock .ntc 0 (NTC.NQ_TAIL.at q).off :=
  cmdWrite_eff d src 0xffff 0 0xffff ha (regCodes_nqTail q) (nqTail_offset q) ⟨by decide, .inl (by decide)⟩ rfl rfl

/-! ### The link (R446) -/

/-- A link that goes down resets the host interface. -/
theorem pcieDown_resets (hup : d.flag pciPg PCIE.LINK_UP = true) : d.pcieDown =
    (let e := ((d.setF pciPg PCIE.LINK_UP 0).count pciPg PCIE.LINK_DOWN_CNT).raise pciPg PCIE.E_PCIE_LINK_DOWN
     (e.hostReset false).hostResetDone 2) := if_pos hup

theorem pcieUp_shows (gen width : Nat) (hdown : d.flag pciPg PCIE.LINK_UP = false) : d.pcieUp gen width =
    (let e := (d.setReg pciPg PCIE.PCIE_STAT (wd (2 ^ 31 + gen * 2 ^ 24 + width * 65536))).raise pciPg PCIE.E_PCIE_LINK_UP
     if gen = 5 ∧ width = 8 then e else e.raise pciPg PCIE.E_PCIE_DEGRADED) := if_neg (by simp [hdown])

/-- Settles O42: a queue, a ring or the link takes the branch its premises choose, and a tail is an accepted write. -/
theorem hostQueuesComplete : Obligations.HostQueuesComplete := by
  unfold Obligations.HostQueuesComplete
  refine ⟨fun s q hon => ?_, fun s hon => ?_⟩
  · intro d x
    refine ⟨fun v => ?_, fun c t host err hwork hrun hpend => ?_⟩
    · intro w l
      refine ⟨fun hrun hkeep => ?_, fun hrun hstop => ?_, fun hstopped => ?_, fun ds hrun => ?_, fun ds hstopped => ?_, ?_⟩
      · exact exec_of_act hon rfl (qCfgWrite_ignored hrun hkeep)
      · exact exec_of_act hon rfl (qCfgWrite_stops hrun hstop)
      · exact exec_of_act hon rfl (qCfgWrite_takes hstopped v)
      · exact exec_of_act hon rfl (sqDoorbell_rings hrun v ds)
      · exact exec_of_act hon rfl (sqDoorbell_stored hstopped v ds)
      · exact exec_of_act hon rfl rfl
    · intro bs e
      have hruns : d.dmaDone q bs err = d.descRun q c t bs err := dmaDone_runs bs err hwork hrun hpend
      refine ⟨fun hbad => ?_, fun hlegal => ⟨fun hbad => ?_, fun hgood => ⟨fun hop => ?_, fun hop => ?_, fun y hop hy => ?_⟩⟩⟩
      · exact exec_of_act hon rfl (hruns.trans (descRun_illegal bs err hbad))
      · exact exec_of_act hon rfl (hruns.trans (descRun_bad bs err hlegal hbad))
      · exact exec_of_act hon rfl (hruns.trans (descRun_memory bs err hlegal hgood hop))
      · exact exec_of_act hon rfl (hruns.trans (descRun_transmit bs err hlegal hgood hop))
      · exact exec_of_act hon rfl (hruns.trans (descRun_receive bs err hlegal hgood hop hy))
  · intro d
    refine ⟨fun q e t hfront hen hroom => ?_, fun src q v ha => ?_, fun q t hsince hus => ?_, fun hup => ?_,
      fun gen width hdown => ?_⟩
    · exact exec_of_act hon rfl (ringWrite_writes hfront hen hroom)
    · exact exec_of_act hon rfl (cmdWrite_nqTail src q ha)
    · exact exec_of_act hon rfl (coalesce_raises hsince hus)
    · exact exec_of_act hon rfl (pcieDown_resets hup)
    · exact exec_of_act hon rfl (pcieUp_shows gen.val width.val hdown)

end Sys2Proof.Machine
end

section
/-! PROOFS. The management links: the Brizel link and the slave ports. -/

namespace Sys2Proof.Machine

open Sys2Proof

variable {d : Dev}

/-! ### Frames of the Brizel link (R454, R456) -/

/-- A break at a rate of the link synchronises it. -/
theorem brzBreak_synchronises {baud : Nat} (hlo : 115200 ≤ baud) (hhi : baud ≤ 25000000) : d.brzBreak baud =
    (let e := (d.blkLose.setReg blkPg BLK.BLK_STAT (wd (2 ^ 31 + baud))).setF blkPg BLK.WINDOW 0
     let f : Dev := { e with bz := { e.bz with last := [], bad := 0, polls := [] } }
     (List.range 4).foldl (fun (e : Dev) c => (e.setCredit c 4).brzFrame 6 c 0 [4]) (f.raise blkPg BLK.E_BLK_SYNC)) :=
  if_pos ⟨hlo, hhi⟩

/-- The device once a command of a channel has been taken up: a credit is spent, and the command is the channel's last. -/
def Dev.brzTaken (d : Dev) (c seq : Nat) : Dev :=
  let e := d.brzGood.setCredit c (d.credit c - 1)
  { e with bz := { e.bz with last := Tab.ins e.bz.last c (seq, []) } }

/-- A command is the channel's first, or follows its last one. -/
def Dev.brzInSequence (d : Dev) (c seq : Nat) : Prop :=
  ∀ x, Tab.get (d.brzGood.setCredit c (d.credit c - 1)).bz.last c = some x → x.1 ≠ seq ∧ (x.1 + 1) % 65536 = seq

section Command

variable {c seq : Nat} (hsync : d.synced = true)
include hsync

/-- A command on a channel that is none, or without a credit, is answered NAK. -/
theorem brzCmd_refused {why : Nat} (f : Dev → Dev × Option (List Nat))
    (hwhy : (3 < c ∧ why = 6) ∨ (c ≤ 3 ∧ d.credit c = 0 ∧ why = 5)) : d.brzCmd c seq f = d.brzNak c seq why := by
  rcases hwhy with ⟨hch, rfl⟩ | ⟨hch, hnone, rfl⟩
  · exact (if_pos hsync).trans (if_pos hch)
  · exact (if_pos hsync).trans ((if_neg (Nat.not_lt.mpr hch)).trans (if_pos hnone))

variable (hch : c ≤ 3) (hcredit : d.credit c ≠ 0) (hseq : d.brzInSequence c seq)
include hch hcredit hseq

/-- A command in sequence, with a credit, is run: it is answered with its payload, or it waits without one. -/
theorem brzCmd_runs (f : Dev → Dev × Option (List Nat)) : d.brzCmd c seq f =
    (let r := f (d.brzTaken c seq)
     r.2.elim r.1 (r.1.brzRsp c seq)) := by
  have helim : ∀ r : Dev × Option (List Nat),
      (match r.2 with | some p => r.1.brzRsp c seq p | none => r.1) = r.2.elim r.1 (r.1.brzRsp c seq) := by
    rintro ⟨y, _ | p⟩ <;> rfl
  unfold Dev.brzCmd
  rw [if_pos hsync, if_neg (Nat.not_lt.mpr hch), if_neg hcredit]
  dsimp only
  split
  · exact helim (f (d.brzTaken c seq))
  · next x hx =>
    obtain ⟨hnew, hnext⟩ := hseq x hx
    rw [if_neg hnew, if_pos hnext]
    exact helim (f (d.brzTaken c seq))

theorem brzCmd_answers {f : Dev → Dev × Option (List Nat)} {y : Dev} {p : List Nat}
    (hf : f (d.brzTaken c seq) = (y, some p)) : d.brzCmd c seq f = y.brzRsp c seq p := by
  rw [brzCmd_runs hsync hch hcredit hseq, hf]
  rfl

theorem brzCmd_waits {f : Dev → Dev × Option (List Nat)} {y : Dev} (hf : f (d.brzTaken c seq) = (y, none)) :
    d.brzCmd c seq f = y := by
  rw [brzCmd_runs hsync hch hcredit hseq, hf]
  rfl

/-! ### Commands of the Brizel link (R458, R459) -/

variable {count addr : Nat}

theorem brzRead_answers (hok : brzAddrOk addr count 1023 = true) : d.brzRead c seq count addr =
    (let x := (d.brzTaken c seq).readRun .brizel addr count
     x.2.brzRsp c seq (rspHead 0 count ++ x.1.flatMap wordBytes)) :=
  brzCmd_answers hsync hch hcredit hseq (if_pos hok)

theorem brzRead_badRange (hbad : brzAddrOk addr count 1023 = false) :
    d.brzRead c seq count addr = (d.brzTaken c seq).brzRsp c seq (rspHead 3 0) :=
  brzCmd_answers hsync hch hcredit hseq (if_neg (by simp [hbad]))

section Write

variable {ws : List Word} (hok : brzAddrOk addr count 1022 = true) (hlen : ws.length = count)
include hok hlen

theorem brzWrite_answers (hall : ((d.brzTaken c seq).writeRun .brizel addr 0 ws).2 = none) : d.brzWrite c seq count addr ws =
    ((d.brzTaken c seq).writeRun .brizel addr 0 ws).1.brzRsp c seq (rspHead 0 0) := by
  refine brzCmd_answers hsync hch hcredit hseq ((if_pos ⟨hok, hlen⟩).trans ?_)
  simp only [hall]

/-- A write ends at the first word that is refused. -/
theorem brzWrite_refused {r : Word × Nat} (href : ((d.brzTaken c seq).writeRun .brizel addr 0 ws).2 = some r) :
    d.brzWrite c seq count addr ws =
      ((d.brzTaken c seq).writeRun .brizel addr 0 ws).1.brzRsp c seq (rspRefused r.1 r.2) := by
  refine brzCmd_answers hsync hch hcredit hseq ((if_pos ⟨hok, hlen⟩).trans ?_)
  simp only [href]

end Write

/-- What a masked write makes of a register: the bits of the mask from the value, the others as they read. -/
def Dev.brzMasked (d : Dev) (addr : Nat) (mask v : Word) : Dev × Option Word :=
  d.busWrite .brizel addr ((v &&& mask) ||| ((d.busRead .brizel addr).1 &&& ~~~mask)) true .clean

section Word

variable {mask v : Word} (hok : brzAddrOk addr count 1 = true)
include hok

theorem brzMwrite_answers (hall : ((d.brzTaken c seq).brzMasked addr mask v).2 = none) :
    d.brzMwrite c seq count addr mask v = ((d.brzTaken c seq).brzMasked addr mask v).1.brzRsp c seq (rspHead 0 0) := by
  unfold Dev.brzMasked at hall ⊢
  refine brzCmd_answers hsync hch hcredit hseq ((if_pos hok).trans ?_)
  simp only [hall]

theorem brzMwrite_refused {r : Word} (href : ((d.brzTaken c seq).brzMasked addr mask v).2 = some r) :
    d.brzMwrite c seq count addr mask v = ((d.brzTaken c seq).brzMasked addr mask v).1.brzRsp c seq (rspRefused r 0) := by
  unfold Dev.brzMasked at href ⊢
  refine brzCmd_answers hsync hch hcredit hseq ((if_pos hok).trans ?_)
  simp only [href]

/-- A poll waits for its answer until it matches, or its time is over. -/
theorem brzPoll_waits (ms : Nat) : d.brzPoll c seq count addr mask v ms =
    (let f := d.brzTaken c seq
     { f with bz := { f.bz with polls := f.bz.polls ++ [⟨c, seq, addr, mask, v, f.mono + ms * 1000000⟩] } }) :=
  brzCmd_waits hsync hch hcredit hseq (if_pos hok)

end Word

section Frames

variable (hok : fmAddrOk addr count = true)
include hok

theorem brzFmread_answers (es : List EccEvent) : d.brzFmread c seq count addr es =
    (let r := (d.brzTaken c seq).fmRead addr count es
     r.1.brzRsp c seq (rspHead (if r.2.2 = 0 then 0 else 5) count ++ r.2.1.flatMap fun v => leBytes 8 v)) :=
  brzCmd_answers hsync hch hcredit hseq (if_pos hok)

theorem brzFmwrite_answers {ws : List (BitVec 64)} (hlen : ws.length = count) : d.brzFmwrite c seq count addr ws =
    ((d.brzTaken c seq).fmSplit addr count (ws.map (·.toNat))).brzRsp c seq (rspHead 0 0) :=
  brzCmd_answers hsync hch hcredit hseq (if_pos ⟨hok, hlen⟩)

end Frames

theorem brzInfo_answers : d.brzInfo c seq 7 0 = (d.brzTaken c seq).brzRsp c seq
    (rspHead 0 0 ++ wordBytes ((d.brzTaken c seq).raw (pg .sys 0)) ++ leBytes 2 1 ++ leBytes 2 4096) :=
  brzCmd_answers hsync hch hcredit hseq (if_pos ⟨rfl, rfl⟩)

end Command

/-- A poll ends at once where the register matches, and otherwise when its time is over. -/
theorem pollDone_ends {c : Nat} {p : Poll} (hp : (d.bz.polls.find? fun q => decide (q.chan = c)) = some p) : d.pollDone c =
    (let e : Dev := { d with bz := { d.bz with polls := d.bz.polls.erase p } }
     let x := e.busRead .brizel p.addr
     let y := (e.pass (p.due - e.mono)).busRead .brizel p.addr
     if x.1 &&& p.mask = p.value then x.2.brzRsp c p.seq (rspHead 0 1 ++ wordBytes x.1)
     else y.2.brzRsp c p.seq (rspHead 4 1 ++ wordBytes y.1)) := by
  unfold Dev.pollDone
  rw [hp]

/-! ### Notices on the Brizel link (R457, R458) -/

section Notices

variable (hsync : d.synced = true)
include hsync

theorem brzReject_nak (c : Nat) (seq : Option Nat) (why : Nat) :
    d.brzReject c seq why = d.brzNak c (seq.getD 0xFFFF) why := if_pos hsync

theorem brzAck_frees (n : Nat) :
    d.brzAck n = d.brzGood.setFlight (d.bz.flight.filter fun x => decide (x.1.seq ≠ n)) := if_pos hsync

theorem brzNakRx_unknown {n : Nat} (hnone : (d.brzGood.count blkPg BLK.NAK_RX_CNT).inFlight n = none) :
    d.brzNakRx n = d.brzGood.count blkPg BLK.NAK_RX_CNT := by
  refine (if_pos hsync).trans ?_
  simp only [hnone]

theorem brzNakRx_again {n : Nat} {x : InFlight × Nat} (hx : (d.brzGood.count blkPg BLK.NAK_RX_CNT).inFlight n = some x) :
    d.brzNakRx n = (d.brzGood.count blkPg BLK.NAK_RX_CNT).noticeAgain x := by
  refine (if_pos hsync).trans ?_
  simp only [hx]

theorem brzCredit_window (c n : Nat) :
    d.brzCredit c n = if c = 0x80 then d.brzGood.setF blkPg BLK.WINDOW n else d.brzGood := if_pos hsync

/-- A notice frame that is ready leaves while the window has room. -/
theorem noticeSend_leaves {q t : Nat} (hready : d.brzReady q = some t)
    (hroom : d.bz.flight.length < d.fld blkPg BLK.WINDOW) : d.noticeSend q =
    (let e := d.pass (t - d.mono)
     let x := e.queue q
     let f := e.setQueue q { x with briz := x.briz.drop 128, brizSince := if x.briz.drop 128 = [] then none else some e.mono }
     let n := f.bz.nseq
     let g : Dev := { f with bz := { f.bz with nseq := (n + 1) % 65536 } }
     (g.setFlight (g.bz.flight ++ [(⟨n, q, x.briz.take 128, 1⟩, g.mono)])).send (.brizelNotice n (x.briz.take 128))) := by
  unfold Dev.noticeSend
  rw [hready]
  exact if_pos ⟨hsync, hroom⟩

theorem noticeResend_again {n : Nat} {x : InFlight × Nat} (hx : d.inFlight n = some x) :
    d.noticeResend n = (d.pass (x.2 + d.fld blkPg BLK.RETX_MS * 1000000 - d.mono)).noticeAgain x := by
  unfold Dev.noticeResend
  rw [hx]
  exact if_pos hsync

end Notices

/-- Settles O43: a command is refused, or taken up and run; a notice and its answers take the branch their premises
choose. -/
theorem brizelCompletes : Obligations.BrizelCompletes := by
  unfold Obligations.BrizelCompletes
  intro s hon d
  refine ⟨fun baud hlo hhi => ?_, fun hsync => ⟨fun ch seq why => ?_, ?_, fun ch n => ?_, fun n => ?_, fun n => ?_,
    fun ch n => ?_, fun q t hready hroom => ?_, fun n x hx => ?_⟩, fun ch p hp => ?_⟩
  · exact exec_of_act hon rfl (brzBreak_synchronises hlo hhi)
  · exact exec_of_act hon rfl (brzReject_nak hsync ch.toNat (seq.map BitVec.toNat) why.val)
  · intro ch n count addr mask v ws ls es op ms why hwhy i hi
    have hnak := fun f => brzCmd_refused (d := d) (seq := n.toNat) hsync f hwhy
    simp only [List.mem_cons, List.not_mem_nil, or_false] at hi
    rcases hi with rfl | rfl | rfl | rfl | rfl | rfl | rfl
    all_goals exact exec_of_act hon rfl (hnak _)
  · intro c e f answer hch hcredit hseq
    refine ⟨fun count addr => ⟨fun hok => ?_, fun hbad => ?_, fun ws hok hlen => ⟨fun hall => ?_, fun r href => ?_⟩,
      fun mask v hok => ⟨fun hall => ?_, fun r href => ?_, fun ms => ?_⟩, fun hok => ⟨fun es => ?_, fun ws hlen => ?_⟩⟩, ?_⟩
    · exact exec_of_act hon rfl (brzRead_answers hsync hch hcredit hseq hok)
    · exact exec_of_act hon rfl (brzRead_badRange hsync hch hcredit hseq hbad)
    · exact exec_of_act hon rfl (brzWrite_answers hsync hch hcredit hseq hok hlen hall)
    · exact exec_of_act hon rfl (brzWrite_refused hsync hch hcredit hseq hok hlen href)
    · exact exec_of_act hon rfl (brzMwrite_answers hsync hch hcredit hseq hok hall)
    · exact exec_of_act hon rfl (brzMwrite_refused hsync hch hcredit hseq hok href)
    · exact exec_of_act hon rfl (brzPoll_waits hsync hch hcredit hseq hok ms.toNat)
    · exact exec_of_act hon rfl (brzFmread_answers hsync hch hcredit hseq hok es)
    · exact exec_of_act hon rfl (brzFmwrite_answers hsync hch hcredit hseq hok hlen)
    · exact exec_of_act hon rfl (brzInfo_answers hsync hch hcredit hseq)
  · exact exec_of_act hon rfl (brzAck_frees hsync n.toNat)
  · intro e
    exact ⟨fun hnone => exec_of_act hon rfl (brzNakRx_unknown hsync hnone),
      fun x hx => exec_of_act hon rfl (brzNakRx_again hsync hx)⟩
  · exact exec_of_act hon rfl (brzCredit_window hsync ch.toNat n.toNat)
  · exact exec_of_act hon rfl (noticeSend_leaves hsync hready hroom)
  · exact exec_of_act hon rfl (noticeResend_again hsync hx)
  · exact exec_of_act hon rfl (pollDone_ends hp)

/-! ### The slave ports (R460 to R462) -/

section Slave

variable (psp : Bool) (addr : Nat)

/-- Words that are all accepted are written. -/
theorem slvWrite_accepted {ws : List Word} (hall : (d.writeRun (slvSrc psp) addr 0 ws).2 = none) :
    d.slvWrite psp addr ws = (d.writeRun (slvSrc psp) addr 0 ws).1 := by
  unfold Dev.slvWrite
  simp only [hall]

/-- A word that is refused ends a write in error. -/
theorem slvWrite_refused {ws : List Word} {r : Word × Nat} (href : (d.writeRun (slvSrc psp) addr 0 ws).2 = some r) :
    d.slvWrite psp addr ws = (d.writeRun (slvSrc psp) addr 0 ws).1.slvError psp r.1 := by
  unfold Dev.slvWrite
  simp only [href]

section Serial

variable (hen : d.slvOn false = true)
include hen

theorem sspWriteReg_writes (ws : List Word) : d.sspWriteReg addr ws = d.slvWrite false addr ws := if_pos hen

theorem sspReadReg_answers (n : Nat) : d.sspReadReg addr n =
    (let x := d.readRun .ssp addr n
     x.2.send (.sspData (x.1.flatMap wordBytesBe))) := if_pos hen

theorem sspWriteBuf_fills (bs : List Nat) : d.sspWriteBuf addr bs = d.slvBuf false addr 4096 bs := if_pos hen

theorem sspStatus_answers : d.sspStatus = (d.setF slvPg SLV.SSP_ERR 0).send (.sspData
    [(if d.flag slvPg SLV.SSP_BUSY then 1 else 0) + if d.flag slvPg SLV.SSP_ERR then 2 else 0]) := if_pos hen

end Serial

section Parallel

variable {addr} (hen : d.slvOn true = true) (ws : List Word) (n : Nat)
include hen

theorem pspAccess_writesBuffer (hbuf : 2 ^ 31 ≤ addr) : d.pspAccess true addr ws n =
    d.slvBuf true (addr % 2 ^ 31) (4 * ws.length) (ws.flatMap wordBytes) := by
  unfold Dev.pspAccess
  simp only [hen, hbuf, Bool.true_eq_false, if_true, if_false]

/-- What the buffer holds is answered; a read beyond its end is an error. -/
theorem pspAccess_readsBuffer (hbuf : 2 ^ 31 ≤ addr) : d.pspAccess false addr ws n =
    (let x := d.slvLoad (addr % 2 ^ 31) n
     let e := d.send (.readData .psp x.1)
     if x.2 < n then e.slvError true 0 else e) := by
  unfold Dev.pspAccess
  simp only [hen, hbuf, Bool.true_eq_false, Bool.false_eq_true, if_true, if_false]

theorem pspAccess_writesRegisters (hreg : addr < 2 ^ 31) :
    d.pspAccess true addr ws n = d.slvWrite true (addr % 2 ^ 31) ws := by
  unfold Dev.pspAccess
  simp only [hen, Nat.not_le.mpr hreg, Bool.true_eq_false, if_true, if_false]

theorem pspAccess_readsRegisters (hreg : addr < 2 ^ 31) : d.pspAccess false addr ws n =
    (let x := d.readRun .psp (addr % 2 ^ 31) n
     x.2.send (.readData .psp x.1)) := by
  unfold Dev.pspAccess
  simp only [hen, Nat.not_le.mpr hreg, Bool.true_eq_false, Bool.false_eq_true, if_false]

end Parallel

end Slave

/-- Settles O44: an enabled port runs the access its command names, and the parallel one that of its address. -/
theorem slavePortsComplete : Obligations.SlavePortsComplete := by
  unfold Obligations.SlavePortsComplete
  intro s a hon d
  refine ⟨fun hen => ⟨fun ws => ?_, fun n => ?_, fun bs => ?_, ?_⟩, fun hen ws n => ?_⟩
  · have hwrite : d.sspWriteReg a.toNat ws = d.slvWrite false a.toNat ws := sspWriteReg_writes a.toNat hen ws
    exact ⟨fun hall => exec_of_act hon rfl (hwrite.trans (slvWrite_accepted false a.toNat hall)),
      fun r href => exec_of_act hon rfl (hwrite.trans (slvWrite_refused false a.toNat href))⟩
  · exact exec_of_act hon rfl (sspReadReg_answers a.toNat hen n)
  · exact exec_of_act hon rfl (sspWriteBuf_fills a.toNat hen (bs.map BitVec.toNat))
  · exact exec_of_act hon rfl (sspStatus_answers hen)
  · intro off
    refine ⟨fun hbuf => ⟨?_, ?_⟩, fun hreg => ⟨?_, ?_⟩⟩
    · exact exec_of_act hon rfl (pspAccess_writesBuffer hen ws n hbuf)
    · exact exec_of_act hon rfl (pspAccess_readsBuffer hen ws n hbuf)
    · exact exec_of_act hon rfl (pspAccess_writesRegisters hen ws n hreg)
    · exact exec_of_act hon rfl (pspAccess_readsRegisters hen ws n hreg)

end Sys2Proof.Machine
end

section
/-! PROOFS. Critical commands: the mailboxes and the AUTHCMD frames that carry them. -/

namespace Sys2Proof.Machine

open Sys2Proof

variable {d : Dev}

/-! ### What carries a critical command (R482, R483) -/

/-- The twelve critical commands run the command of their operation code, whatever carries it. -/
theorem exec_critical {op : Nat} {ok : Bool} {cmd : Carrier → Instr}
    (h : (op, ok, cmd) ∈ [(0x01, true, Instr.writeCrit), (0x02, true, .lockOverride), (0x10, true, .keyLoad),
      (0x11, true, .keyLoadSigned), (0x12, true, .keyErase), (0x20, ok, fun x => .fuseProg x ok), (0x30, true, .slotWrite),
      (0x31, true, .slotErase), (0x32, true, .bankWrite), (0x40, true, .calOverwrite), (0x50, true, .keeperReload),
      (0x60, true, .debugUnlock)]) (x : Carrier) (s : State) :
    exec (cmd x) s = act (fun d => d.critCmd op x ok) s := by
  simp only [List.mem_cons, List.not_mem_nil, or_false, Prod.mk.injEq] at h
  rcases h with ⟨rfl, rfl, rfl⟩ | ⟨rfl, rfl, rfl⟩ | ⟨rfl, rfl, rfl⟩ | ⟨rfl, rfl, rfl⟩ | ⟨rfl, rfl, rfl⟩ | ⟨rfl, -, rfl⟩ |
    ⟨rfl, rfl, rfl⟩ | ⟨rfl, rfl, rfl⟩ | ⟨rfl, rfl, rfl⟩ | ⟨rfl, rfl, rfl⟩ | ⟨rfl, rfl, rfl⟩ | ⟨rfl, rfl, rfl⟩
  all_goals rfl

section Carriers

variable {op : Nat} (ok : Bool) (hserved : d.critServed = true)
include hserved

/-- The envelope of a mailbox runs for its source, and its result is shown. -/
theorem mailCmd_runs {m : Nat} (hbusy : d.flag authPg (AUTH.BUSY.at m) = true) (hmine : envMine op (d.mailEnv m) = true) :
    d.mailCmd op m ok =
      (let b := d.mailEnv m
       let r := d.critExec (if m = 0 then 1 else 3) b ok
       r.1.mailDone m (envOp b) r.2) := if_pos ⟨hserved, hbusy, hmine⟩

/-- The envelope of a frame in sequence, with a credit, runs for source 2 and is answered. -/
theorem authCmd_answers {c seq : Nat} {b : List Nat} (hmine : envMine op b = true) (hsync : d.synced = true) (hch : c ≤ 3)
    (hcredit : d.credit c ≠ 0) (hseq : d.brzInSequence c seq) : d.authCmd op c seq b ok =
      (let r := (d.brzTaken c seq).critExec 2 b ok
       r.1.brzRsp c seq (r.1.critRsp r.2)) :=
  (if_pos ⟨hserved, hmine⟩).trans (brzCmd_answers hsync hch hcredit hseq rfl)

end Carriers

/-- Settles O45: each command is one of its operation code, which its carrier runs. -/
theorem criticalCommandsComplete : Obligations.CriticalCommandsComplete := by
  unfold Obligations.CriticalCommandsComplete
  intro s op cmd hon d hserved ok hcmd
  refine ⟨fun m => ?_, fun ch n env => ?_⟩
  · intro b r hbusy hmine
    exact exec_of_act hon (exec_critical hcmd (.mailbox m) s) (mailCmd_runs ok hserved hbusy hmine)
  · intro c b e r hmine hsync hch hcredit hseq
    exact exec_of_act hon (exec_critical hcmd (.authcmd ch n env) s)
      (authCmd_answers ok hserved hmine hsync hch hcredit hseq)

end Sys2Proof.Machine
end

section
/-! PROOFS. Clocks, temperature, the changeover of firmware and ageing. -/

namespace Sys2Proof.Machine

open Sys2Proof

variable {d : Dev}

/-- A command of the always-on domain runs whatever the core does, and what follows every command follows it. -/
theorem exec_of_actAlways {s : State} {c : Instr} {f : Dev → Dev} {e : Dev} (hc : exec c s = actAlways f s)
    (he : f s.dev.quiet = e) : exec c s = .next (after s e) := by
  rw [hc, actAlways_on f s, he]

/-! ### The crystal (R503) -/

/-- A crystal out of range outside a hold is lost: it is shown, counted and told. -/
theorem xinLost_lost {khz : Nat} (hbad : xinOk khz = false) (hrun : d.flag clkPg CLK.HOLD = false) : d.xinLost khz =
    (let e := d.setReg clkPg CLK.XIN_STAT (wd (2 ^ 30 + khz % 65536))
     (e.count clkPg CLK.XIN_LOST_CNT).raise clkPg CLK.E_XIN_LOST) := if_neg (by simp [hbad, hrun])

/-- A crystal that comes back is shown; its return from a hold is told. -/
theorem xinBack_back {khz : Nat} (hgood : xinOk khz = true) (hlost : d.flag clkPg CLK.XIN_OK = false) : d.xinBack khz =
    (let e := d.setReg clkPg CLK.XIN_STAT (wd (2 ^ 31 + khz % 65536))
     if d.flag clkPg CLK.HOLD then e.raise clkPg CLK.E_XIN_BACK else e) := if_neg (by simp [hgood, hlost])

/-! ### PLL pairs (R505 to R507) -/

section Pair

variable {k : Nat}

/-- A PLL that fails gives way to a usable standby: at once, or when the standby has locked. -/
theorem pllFailover_fails (hstandby : d.flag clkPg (CLK.STANDBY_OK.at k) = true) (hwarm : k ∉ d.pw.cold) :
    d.pllFailover k =
    (let e := d.pllFails k (d.fld clkPg (CLK.IN_USE.at k))
     if d.fld clkPg (CLK.MODE.at k) = 1 then { e with pw := { e.pw with cold := e.pw.cold ++ [k] } }
     else (e.pairSwitch k).pairBare k) := if_neg (by simp [hstandby, hwarm])

theorem pllRelock_switches (hcold : k ∈ d.pw.cold) : d.pllRelock k =
    (({ d with pw := { d.pw with cold := d.pw.cold.filter fun x => decide (x ≠ k) } } : Dev).pairSwitch k).pairBare k :=
  if_pos (by simpa using hcold)

/-- The PLL that failed is tried again 10 s later: it locks, or fails once more. -/
theorem pllRetry_tries (ok : Bool) {t : Nat} (hfail : Tab.get d.pw.failAt k = some t) (huse : d.pllRetired k = false)
    (hnone : d.flag clkPg (CLK.STANDBY_OK.at k) = false) (hwarm : k ∉ d.pw.cold) : d.pllRetry k ok =
    (let e := d.pass (t + 10000000000 - d.mono)
     if ok then { e with pw := { e.pw with lockAt := Tab.ins e.pw.lockAt k e.mono, failAt := Tab.del e.pw.failAt k } }
     else e.pllFails k (e.failedPll k)) := by
  unfold Dev.pllRetry
  rw [hfail]
  exact if_neg (by simp [huse, hnone, hwarm])

theorem pllRestored_restores {t : Nat} (hlock : Tab.get d.pw.lockAt k = some t) : d.pllRestored k =
    (let e := d.pass (t + 60000000000 - d.mono)
     let f : Dev := { e with pw := { e.pw with
       lockAt := Tab.del e.pw.lockAt k, noSpare := e.pw.noSpare.filter fun x => decide (x ≠ k) } }
     (f.setF clkPg (CLK.STANDBY_OK.at k) 1).pairEvent k CLK.E_PLL_RESTORED) := by
  unfold Dev.pllRestored
  rw [hlock]

end Pair

/-! ### Planned switches (R508) -/

section PlannedSwitch

variable (k : Fin 4)

theorem pairCfg_off : (CLK.PAIR_CFG.at k).off = 0x80 + 4 * k := rfl

theorem pairCfg_live :
    (CLK.PAIR_CFG.at k).off < 0x800 ∧ 0x40 ≤ (CLK.PAIR_CFG.at k).off ∧ (CLK.PAIR_CFG.at k).off % 4 = 0 := by
  have hk := k.isLt
  rw [pairCfg_off]
  omega

theorem pairCfg_index :
    inArr CLK.PAIR_CFG 4 (CLK.PAIR_CFG.at k).off = true ∧ arrIdx CLK.PAIR_CFG (CLK.PAIR_CFG.at k).off = k := by
  revert k
  decide

theorem regCodes_pairCfg : regCodes .clk (CLK.PAIR_CFG.at k).off = some (3, 0, 0, 3) := by
  revert k
  decide

/-- `ACTIVE` that names the standby switches the pair. -/
theorem clkLive_pairCfg {new : Word} (hother : fieldOf CLK.ACTIVE new ≠ d.fld clkPg (CLK.IN_USE.at k)) :
    d.clkLive (CLK.PAIR_CFG.at k).off new = d.pairSwitch k := by
  obtain ⟨hin, hidx⟩ := pairCfg_index k
  unfold Dev.clkLive
  rw [if_pos hin, hidx]
  exact if_pos hother

theorem cmdWrite_pairCfg (src : Source) {v : Word} (ha : Accepts d src .clk 0 (CLK.PAIR_CFG.at k).off v)
    (hother : fieldOf CLK.ACTIVE (heard d clkPg (CLK.PAIR_CFG.at k) 3 v) ≠
      (written d clkPg (CLK.PAIR_CFG.at k) 3 0 v).fld clkPg (CLK.IN_USE.at k)) :
    d.cmdWrite src .clk 0 (CLK.PAIR_CFG.at k) v =
      ((written d clkPg (CLK.PAIR_CFG.at k) 3 0 v).pairSwitch k).breakLock .clk 0 (CLK.PAIR_CFG.at k).off :=
  cmdWrite_eff d src 3 0 3 ha (regCodes_pairCfg k) (pairCfg_live k) ⟨by decide, .inl (by decide)⟩ rfl
    (clkLive_pairCfg k hother)

end PlannedSwitch

/-! ### Temperature and ageing (R512, R550) -/

/-- The device with the slowing of its eight oscillators shown. -/
def Dev.ageShown (d : Dev) (ss : List Nat) : Dev :=
  (List.range 8).foldl (fun (e : Dev) i => e.setReg monPg (MON.AGE_SHIFT.at i) (wd (2 ^ 31 + ss.getD i 0 % 65536))) d

/-- The first oscillator that has slowed by the level that warns. -/
def Dev.ageFar (d : Dev) : Option Nat :=
  (List.range 8).find? fun i => decide ((d.fld monPg MON.SHIFT_WARN : Int) ≤ sext 16 (d.fld monPg (MON.SHIFT.at i)))

theorem ageMeasure_shows {ss : List Nat} (hnear : (d.ageShown ss).ageFar = none) : d.ageMeasure ss = d.ageShown ss := by
  unfold Dev.ageMeasure
  dsimp only
  split
  · next i hfar => exact nomatch hnear.symm.trans hfar
  · rfl

/-- The level that warns is told once. -/
theorem ageMeasure_warns {ss : List Nat} {i : Nat} (hfar : (d.ageShown ss).ageFar = some i) : d.ageMeasure ss =
    (let e := d.ageShown ss
     if e.pw.aged then e
     else ({ e with pw := { e.pw with aged := true } } : Dev).raise monPg MON.E_AGE_WARN (wd i)
       (e.reg monPg (MON.AGE_SHIFT.at i))) := by
  unfold Dev.ageMeasure
  dsimp only
  split
  · next j hj =>
    obtain rfl : i = j := Option.some.inj (hfar.symm.trans hj)
    rfl
  · next hnear => exact nomatch hfar.symm.trans hnear

/-! ### The changeover of firmware (R545, R546) -/

theorem regCodes_fwChg : regCodes .srv SRV.FW_CHG.off = some (0x3ffffff, 0xc0000000, 0, 0xc3ffffff) := by decide

theorem srvLive_fwChg (new : Word) : d.srvLive SRV.FW_CHG.off new =
    (let f := if bitAt new 31 then d.fwGo else d
     if bitAt new 30 then f.fwAbort else f) := if_pos rfl

/-- An accepted write of `FW_CHG` begins a changeover, ends one, or both. -/
theorem cmdWrite_fwChg (src : Source) {w : Word} (ha : Accepts d src .srv 0 SRV.FW_CHG.off w) :
    d.cmdWrite src .srv 0 SRV.FW_CHG w =
      (let e := written d srvPg SRV.FW_CHG 0x3ffffff 0xc0000000 w
       let new := heard d srvPg SRV.FW_CHG 0xc3ffffff w
       let f := if bitAt new 31 then e.fwGo else e
       (if bitAt new 30 then f.fwAbort else f).breakLock .srv 0 SRV.FW_CHG.off) :=
  cmdWrite_eff d src 0x3ffffff 0xc0000000 0xc3ffffff ha regCodes_fwChg (by decide) (by decide) rfl (srvLive_fwChg _)

section Changeover

variable {x : FwSt} (hx : d.fw = some x)
include hx

/-- The new bank is prepared when it is good, and otherwise ends the changeover with outcome 4. -/
theorem fwPrepared_judges (hphase : d.fld srvPg SRV.PHASE = 1) : d.fwPrepared =
    if d.bankFail x.new = 0 then d.setFw 2 { x with since := some d.mono }
    else (d.setF srvPg SRV.FAIL (d.bankFail x.new)).fwEnd 4 := by
  unfold Dev.fwPrepared
  rw [hx]
  exact if_pos hphase

/-- The units are compared after their overlap: the changeover goes on in ACQUIRE, ends with outcome 1, or is armed. -/
theorem fwCompare_judges (diff : Nat) (hphase : d.fld srvPg SRV.PHASE = 2 ∨ d.fld srvPg SRV.PHASE = 3)
    (hready : x.ready = false) : d.fwCompare diff =
    (let ph := d.fld srvPg SRV.PHASE
     let e := if ph = 2 then d.pass (x.since.getD d.mono + d.fld srvPg SRV.OVERLAP * 1000000 - d.mono) else d
     if e.servo = 1 then (if ph = 2 then e.setFw 3 { x with since := some e.mono } else e)
     else
       let k := if e.fld tmPg TIME.SRC = 0 then 0 else diff
       let f := e.setF srvPg SRV.DIFF (Nat.min k 0xFFFF)
       if f.fld srvPg SRV.TOL < k then (f.setF srvPg SRV.PHASE 3).fwEnd 1
       else (f.setF srvPg SRV.PHASE 3).fwArm { x with since := none }) := by
  unfold Dev.fwCompare
  rw [hx]
  exact if_pos ⟨hphase, hready⟩

theorem fwTimeout_ends {t : Nat} (hsince : x.since = some t) (hphase : d.fld srvPg SRV.PHASE = 3)
    (hfree : x.instant = none) : d.fwTimeout = (d.pass (t + 10000000000 - d.mono)).fwEnd 2 := by
  unfold Dev.fwTimeout
  simp only [hx, hsince, hphase, hfree, and_self, if_true]

theorem fwDrainEnd_completes (hswitched : x.switched = true) :
    d.fwDrainEnd = (d.setReg secPg SEC.FW_VER (wd (d.bankVer x.new))).fwEnd 0 := by
  unfold Dev.fwDrainEnd
  rw [hx]
  exact if_pos hswitched

end Changeover

/-- Settles O48: the writes are accepted ones of their registers, and a clock, a changeover or a measurement takes the branch
its premises choose. -/
theorem clocksAndServiceComplete : Obligations.ClocksAndServiceComplete := by
  unfold Obligations.ClocksAndServiceComplete
  intro s d
  refine ⟨fun ts => exec_of_actAlways rfl rfl, exec_of_actAlways rfl rfl, fun hon => ⟨fun khz => ⟨fun hbad hrun => ?_,
    fun hgood hlost => ?_⟩, fun k => ⟨fun hstandby hwarm => ?_, fun hcold => ?_, fun t hfail huse hnone hwarm => ?_,
    fun t hlock => ?_, fun src v => ?_⟩, fun src v c w hc => ?_, fun x hx => ⟨fun hphase => ?_, fun diff hphase hready => ?_,
    fun t hsince hphase hfree => ?_, fun hswitched => ?_⟩, fun ss => ?_, ?_⟩⟩
  · exact exec_of_act hon rfl (xinLost_lost hbad hrun)
  · exact exec_of_act hon rfl (xinBack_back hgood hlost)
  · exact exec_of_act hon rfl (pllFailover_fails hstandby hwarm)
  · exact exec_of_act hon rfl (pllRelock_switches hcold)
  · exact ⟨exec_of_act hon rfl (pllRetry_tries true hfail huse hnone hwarm),
      exec_of_act hon rfl (pllRetry_tries false hfail huse hnone hwarm)⟩
  · exact exec_of_act hon rfl (pllRestored_restores hlock)
  · intro f e ha hother
    exact exec_of_act hon rfl (cmdWrite_pairCfg k src ha hother)
  · intro e new ha f
    simp only [List.mem_cons, List.not_mem_nil, or_false, Prod.mk.injEq] at hc
    rcases hc with ⟨rfl, rfl⟩ | ⟨rfl, rfl⟩
    · exact exec_of_act hon rfl (cmdWrite_fwChg src ha)
    · exact exec_of_act hon rfl (cmdWrite_fwChg src ha)
  · exact exec_of_act hon rfl (fwPrepared_judges hx hphase)
  · exact exec_of_act hon rfl (fwCompare_judges hx diff hphase hready)
  · exact exec_of_act hon rfl (fwTimeout_ends hx hsince hphase hfree)
  · exact exec_of_act hon rfl (fwDrainEnd_completes hx hswitched)
  · intro e lvl far
    exact ⟨fun hnear => exec_of_act hon rfl (ageMeasure_shows hnear),
      fun i hfar => exec_of_act hon rfl (ageMeasure_warns hfar)⟩
  · exact exec_of_act hon rfl rfl

/-! ### A planned switch, or its refusal (R508) -/

/-- A write that a cause applies to is recorded, and breaks a key sequence of the page; a bank of pins has more sequences,
and a tile region notes a refusal of its own. -/
theorem cmdWrite_refused {src : Source} {c : Cls} {i : Nat} {f : Fld} {r : RegSpec} {v : Word} {n : Nat}
    (hi : i < c.info.count) (ho : f.off < 0x800 ∧ f.off % 4 = 0) (hc : c ≠ .iob ∧ c ≠ .treg) (ha : d.answers c = true)
    (hr : regAt c i f.off = some r) (hn : d.cause src c i f.off r v true = n) (h0 : n ≠ 0) :
    d.cmdWrite src c i f v =
      (let e := d.refuse src (pg c i) f.off n v
       { e with lockSeq := Tab.del e.lockSeq (pg c i) }) := by
  have hnote : ∀ (e : Dev) (new : Word), e.blockNote c i f.off new = e := by
    intro e new
    unfold Dev.blockNote
    split
    · exact absurd rfl hc.2
    · rfl
  have hw := busWrite_refused d src (v := v) (full := true) hi (by omega) ho.2 ha hr (by omega) (fun h => absurd h hc.1)
    (hn ▸ h0)
  dsimp only at hw
  simp only [hn, hc.1, false_and, if_false, hnote] at hw
  exact hw.trans (ite_self _)

/-- `ACTIVE` is bit 0. -/
theorem fieldOf_active (w : Word) : fieldOf CLK.ACTIVE w = (w &&& 1).toNat := by
  rw [BitVec.toNat_and]
  exact (Nat.and_one_is_mod w.toNat).symm

section PlannedSwitch

variable (k : Fin 4)

/-- No write of `PAIR_CFG` resets its block. -/
theorem pairCfg_noReset (v : Word) : blkRst (CLK.PAIR_CFG.at k).off v = false := by
  have ho := pairCfg_off k
  have hctl : HDR.PAGE_CTL.off = 8 := rfl
  unfold blkRst
  rw [decide_eq_false (by omega)]
  rfl

/-- What a pair runs on does not rest on its configuration. -/
theorem written_pairCfg_inUse (v : Word) :
    (written d clkPg (CLK.PAIR_CFG.at k) 3 0 v).fld clkPg (CLK.IN_USE.at k) = d.fld clkPg (CLK.IN_USE.at k) := by
  have hother : clkPg + (CLK.IN_USE.at k).off ≠ clkPg + (CLK.PAIR_CFG.at k).off := by
    revert k
    decide
  exact congrArg (fieldOf (CLK.IN_USE.at k)) (Dev.raw_put_of_ne d _ hother)

section Register

variable {k} {r : RegSpec} (hr : regAt .clk 0 (CLK.PAIR_CFG.at k).off = some r)
include hr

theorem acting_pairCfg : r.acting = 3 := by
  have hfind : findReg .clk (CLK.PAIR_CFG.at k).off = some r := by
    rw [← hr, regAt_find 0 _ (.inl (by decide)), Nat.mod_eq_of_lt (pairCfg_live k).1]
  have hcodes := regCodes_pairCfg k
  unfold regCodes at hcodes
  rw [hfind] at hcodes
  exact congrArg (fun x => x.2.2.2) (Option.some.inj hcodes)

/-- A write of `PAIR_CFG` asks for the fields it acts on. -/
theorem asked_pairCfg (v : Word) :
    r.asked (d.raw (clkPg + (CLK.PAIR_CFG.at k).off)) v = heard d clkPg (CLK.PAIR_CFG.at k) 3 v := by
  unfold RegSpec.asked heard
  rw [acting_pairCfg hr]

/-- A write of `PAIR_CFG` asks for the `ACTIVE` of its word. -/
theorem active_asked (old v : Word) : fieldOf CLK.ACTIVE (r.asked old v) = (v &&& 1).toNat := by
  have hlow : ∀ w : Word, w &&& 1 = w &&& r.acting &&& 1 := by
    intro w
    rw [acting_pairCfg hr, BitVec.and_assoc]
    rfl
  rw [fieldOf_active, hlow, asked_and_acting, ← hlow]

end Register

/-- The block refuses a switch to a standby that is not usable. -/
theorem blockBars_pairCfg (src : Source) (old : Word) {new : Word}
    (hother : fieldOf CLK.ACTIVE new ≠ d.fld clkPg (CLK.IN_USE.at k)) (hbad : d.flag clkPg (CLK.STANDBY_OK.at k) = false) :
    d.blockBars src .clk 0 (CLK.PAIR_CFG.at k).off old new = true := by
  have hrule : d.ruleBlocked src .clk 0 (CLK.PAIR_CFG.at k).off old new = true := by
    obtain ⟨hin, hidx⟩ := pairCfg_index k
    show d.clkBlocked (CLK.PAIR_CFG.at k).off old new = true
    unfold Dev.clkBlocked
    rw [if_pos hin, hidx]
    simp [hother, hbad]
  unfold Dev.blockBars Dev.classBlocked
  rw [if_neg (by decide), hrule]
  rfl

end PlannedSwitch

/-- Settles O53: `ACTIVE` that names the standby is an accepted write, or BLOCK is the first cause that applies to it. -/
theorem plannedSwitch : Obligations.PlannedSwitch := by
  unfold Obligations.PlannedSwitch
  intro s src k v hon d p f hother
  obtain ⟨hoff, -, halign⟩ := pairCfg_live k
  refine ⟨fun ha => ?_, fun r hbad hr ha hown hlock hcrit hpower hbound hvalue => ?_⟩
  · have ⟨_, _, r, hr, _⟩ := ha
    have hheard : fieldOf CLK.ACTIVE (heard d clkPg (CLK.PAIR_CFG.at k) 3 v) ≠
        (written d clkPg (CLK.PAIR_CFG.at k) 3 0 v).fld clkPg (CLK.IN_USE.at k) := by
      rw [written_pairCfg_inUse, ← asked_pairCfg hr, active_asked hr]
      exact hother
    exact exec_of_act hon rfl (cmdWrite_pairCfg k src ha hheard)
  · have hwant : r.want .clk f.off (d.raw (p + f.off)) v = r.asked (d.raw (p + f.off)) v := if_neg (by simp [maskedAt])
    have hblock : d.blockBars src .clk 0 f.off (d.raw (p + f.off)) (r.want .clk f.off (d.raw (p + f.off)) v) = true := by
      rw [hwant]
      exact blockBars_pairCfg k src _ (by rwa [active_asked hr]) hbad
    have hcause : d.cause src .clk 0 f.off r v true = cBLOCK :=
      cause_block hoff (pairCfg_noReset k v) hown hlock hcrit hpower hbound hvalue hblock
    exact exec_of_act hon rfl (cmdWrite_refused (by decide) ⟨hoff, halign⟩ (by decide) ha hr hcause (by decide))

end Sys2Proof.Machine
end
